-- ==== Sys2Proof/Word.lean ====
section
/-! DEFINITION. Word types of the TF1024 (00 R6) and the sparse table used for register files and queues. -/

namespace Sys2Proof

/-- 00 R6: a byte. -/
abbrev Byte := BitVec 8
/-- 00 R6: a word, 24 bits. -/
abbrev W24 := BitVec 24
/-- 00 R6: a long, 48 bits. -/
abbrev L48 := BitVec 48

/-- A sparse table: pairs with keys strictly rising. -/
abbrev Tab (α : Type) := List (Nat × α)

/-- The entry at key `k`, or `d` where the table lists none. -/
def Tab.get {α : Type} (d : α) : Tab α → Nat → α
  | [], _ => d
  | (j, v) :: t, k => if j = k then v else Tab.get d t k

/-- The entry at key `k`, when the table lists one. -/
def Tab.find {α : Type} : Tab α → Nat → Option α
  | [], _ => none
  | (j, v) :: t, k => if j = k then some v else Tab.find t k

/-- Write `v` at key `k`, keeping the keys rising. -/
def Tab.set {α : Type} : Tab α → Nat → α → Tab α
  | [], k, v => [(k, v)]
  | (j, w) :: t, k, v =>
    if k < j then (k, v) :: (j, w) :: t
    else if k = j then (k, v) :: t
    else (j, w) :: Tab.set t k v

/-- Remove key `k`. -/
def Tab.erase {α : Type} : Tab α → Nat → Tab α
  | [], _ => []
  | (j, w) :: t, k => if j = k then t else (j, w) :: Tab.erase t k

/-- `n` bytes of `v`, least significant first (00 R7). -/
def leBytes : Nat → Nat → List Byte
  | 0, _ => []
  | n + 1, v => BitVec.ofNat 8 v :: leBytes n (v / 256)

/-- The number that bytes spell, least significant first (00 R7). -/
def leNat : List Byte → Nat
  | [] => 0
  | b :: t => b.toNat + 256 * leNat t

/-- `n` bytes of `v`, most significant first (00 R7, Driulo frames). -/
def beBytes (n v : Nat) : List Byte := (leBytes n v).reverse

/-- The number that bytes spell, most significant first. -/
def beNat (l : List Byte) : Nat := leNat l.reverse

/-- `n` bytes of `l` from offset `o`, zero past the end. -/
def slice (l : List Byte) (o n : Nat) : List Byte :=
  (List.range n).map fun i => l.getD (o + i) 0

/-- Zero bytes. -/
def zeros (n : Nat) : List Byte := List.replicate n 0

/-- Bits [lo + n - 1 : lo] of a number. -/
def bits (v lo n : Nat) : Nat := v / 2 ^ lo % 2 ^ n

/-- A truth value as one bit. -/
def bit01 (b : Bool) : Nat := if b then 1 else 0

/-- Pad with zero bytes to a whole number of 3-byte words (03 R68). -/
def padWord (l : List Byte) : List Byte := l ++ zeros ((3 - l.length % 3) % 3)

/-- A counter that holds at `m` (for example 04 R88). -/
def satAdd (m c n : Nat) : Nat := min m (c + n)

/-- A sum of signed numbers read as two's complement of `w` bits. -/
def toSigned (w v : Nat) : Int := (BitVec.ofNat w v).toInt

/-- Two's complement of `w` bits of a signed number. -/
def ofSigned (w : Nat) (v : Int) : Nat := (BitVec.ofInt w v).toNat

/-- Table 02 R45 for two `n`-bit counters. -/
inductive Serial where
  | equal
  | later
  | earlier
  | unordered
  deriving DecidableEq, Repr

end Sys2Proof
end

