-- ==== Sys2Proof/Syntax/Operands.lean ====
section
/-! DEFINITION. Operands of the commands: what the world outside gives an event. -/

namespace Sys2Proof

/-- Engine number 32 x pod + engine for 0-1,023 (14 R319); 1,024 + k is Pestle engine k (18 R396). -/
abbrev EngN := Fin 1028
/-- Pod number. -/
abbrev PodN := Fin 32
/-- Port number of 03 R49. -/
abbrev PortN := Fin 256
/-- Crossbar master port of 15 R324. -/
abbrev MasterN := Fin 48

/-- Dictionary access paths (17 R364). -/
inductive Path where
  | can
  | pcie0
  | pcie1
  | fabric
  deriving DecidableEq, Repr

/-- Discipline sources of 02 R34 that can be qualified or lost. -/
inductive TimeSrc where
  | pps
  | fabric
  | gptp
  deriving DecidableEq, Repr

/-- What a pin timestamp is computed from (02 R30): the full count in the sampling cycle and the phase. -/
structure Stamp where
  count : Nat
  phase : Fin 4
  deriving DecidableEq, Repr

/-- CAN formats (03 R54). -/
inductive CanFmt where
  | classic
  | fd
  | xl
  deriving DecidableEq, Repr

/-- A complete CAN frame (03 R54, R70). `sdt`, `vcid` and `af` stand in XL frames only. -/
structure CanFrame where
  fmt : CanFmt
  ext : Bool
  ident : BitVec 29
  rtr : Bool
  brs : Bool
  esi : Bool
  sec : Bool
  dlc : BitVec 4
  sdt : Byte
  vcid : Byte
  af : BitVec 32
  data : List Byte
  deriving DecidableEq, Repr

/-- A CAN bus event (03 R56, R70 KIND 0x5). `tec` and `rec` are the error counts the standard gives after it,
used in normal mode only. `own` says that it falls in a frame this port was sending (06 R122), `xlData` in the data phase of an XL frame (R54). -/
structure CanEvent where
  code : Fin 10
  field : Fin 6
  ident : BitVec 32
  bitPos : Nat
  tec : Nat
  rec_ : Nat
  bytes : List Byte
  own : Bool
  xlData : Bool
  deriving DecidableEq, Repr

/-- A frame at a MAC (03 R58-R60). `codeAt` is the byte before which a control character stood. -/
structure EthFrame where
  bytes : List Byte
  wireLen : Nat
  fcsOk : Bool
  codeAt : Option Nat
  deriving DecidableEq, Repr

/-- A SENT fast-channel frame or serial message (03 R62, R70). `kind` is the AUX code. -/
structure SentFrame where
  kind : Fin 4
  clockPs : Nat
  status : BitVec 4
  nibbles : List (BitVec 4)
  crc : Byte
  pause : Bool
  ident : BitVec 16
  data : BitVec 16
  crcBad : Bool
  pulseBad : Bool
  deriving DecidableEq, Repr

/-- A PSI5 frame (03 R62, R70). -/
structure Psi5Frame where
  slot : Fin 8
  nbits : Fin 32
  syncTicks : BitVec 32
  data : BitVec 32
  check : Byte
  checkBad : Bool
  manchesterBad : Bool
  deriving DecidableEq, Repr

/-- A LIN header with or without a response (03 R62, R70). `resp` holds data bytes, then the checksum. -/
structure LinFrame where
  pid : Byte
  resp : Option (List Byte)
  sumBad : Bool
  framingBad : Bool
  headerTx : Bool
  deriving DecidableEq, Repr

/-- What an IEEE 802.1AS message is to this device (02 R39): a Sync, two-step ones with their follow-up, a peer-delay request, or another one. -/
inductive GptpKind where
  | sync
  | pdelayReq
  | other
  deriving DecidableEq, Repr

/-- An IEEE 802.1AS message as the standard's receiver reads it (02 R39). `offset` and `ratePpb` are what the
standard's computation gives for it, `tai` the grandmaster's time as seconds, nanoseconds, quarter-nanoseconds. -/
structure GptpMsg where
  domain : Fin 128
  bytes : List Byte
  kind : GptpKind
  offset : Int
  ratePpb : Int
  taiS : BitVec 48
  taiNs : BitVec 32
  taiQ : Byte
  deriving DecidableEq, Repr

/-- The TAI mapping that the fabric's time master has in force (02 R40, R41): C0, T0 and the UTC offset. -/
structure TaiMap where
  c0e : BitVec 32
  c0t : BitVec 48
  t0s : BitVec 48
  t0ns : BitVec 32
  t0q : Byte
  utc : BitVec 16
  deriving DecidableEq, Repr

/-- A Driulo frame header (07 R138) with its decoded body. -/
structure LinkFrame where
  magicOk : Bool
  ver : Byte
  type : Byte
  fflags : Byte
  path : Byte
  bodyOk : Bool
  keyno : BitVec 32
  seq : BitVec 64
  refep : BitVec 32
  reftick : BitVec 48
  k : Byte
  m : Byte
  idx : Byte
  resv : BitVec 24
  body : List Byte
  tag : List Byte
  deriving DecidableEq, Repr

/-- One 64-byte flit (16 R342). -/
structure Flit where
  type : BitVec 4
  vc : BitVec 2
  plen : BitVec 6
  hops : BitVec 4
  dst : Byte
  src : Byte
  seq : Byte
  ack : Byte
  cvc : BitVec 2
  ccnt : BitVec 6
  tspec : Byte
  payload : List Byte
  deriving DecidableEq, Repr

/-- A unit of a profile switch (17 R390). -/
inductive Unit_ where
  | canPort (p : Fin 96)
  | lsp (p : Fin 32)
  | mac (p : Fin 16)
  | pod (p : Fin 32)
  | mill (p : Fin 32)
  | classifier
  | core (k : Fin 7)
  deriving DecidableEq, Repr

/-- A crossbar request of a master (15 R326): `aux` names the alias operation and the fetch right. -/
structure XReq where
  master : MasterN
  addr : BitVec 40
  write : Bool
  fetch : Bool
  len : Fin 65
  data : List Byte
  tag : Nat
  deriving DecidableEq, Repr

/-- Wake sources of 19 R429, by enable bit, and the two that need no qualification in PARK. -/
inductive WakeSrc where
  | pin (b : Fin 14)
  | powerRun
  | start
  deriving DecidableEq, Repr

/-- A USDO frame as the CANopen path reads it (17 R368, R369). -/
inductive Usdo where
  | malformed
  | upload (idx : BitVec 16) (sub : Byte)
  | download (idx : BitVec 16) (sub : Byte) (data : List Byte)
  | downloadInit (idx : BitVec 16) (sub : Byte)
  | segment (counter : Byte) (data : List Byte) (last : Bool)
  | uploadSegment (counter : Byte)
  deriving DecidableEq, Repr

/-- What an NVMe command gives when it completes (05 R109). -/
structure NvmeDone where
  ok : Bool
  data : List Byte
  deriving DecidableEq, Repr

/-- What RESET_RELEASE finds in fuses, clocks and flash (19 R439, R440): the slot pins, the columns that the power-on memory test finds failing, as MACRO
and column (14 R321), whether the PLLs lock, and the microseconds to IDLE and to ARMED. -/
structure BootFacts where
  straps : Fin 8
  columns : List (BitVec 24 × Nat)
  pllLocked : Bool
  idleUs : Nat
  armUs : Nat
  deriving DecidableEq, Repr

/-- Requests of the management plane to the power and clock controller (01 R21, 19 R434). -/
inductive MgmtReq where
  | soft
  | hard
  | trip
  deriving DecidableEq, Repr

/-- A row of a memory outside the address map (14 R297): table banks (true is bank B), last-value store, event log by SEQ modulo 8,192, a port's receive
buffer by row from the payload of its next record, Husk frame buffer, transmit buffers, arrival buffers, output queues, and the classifier's frame queue. -/
inductive SideRow where
  | fkt (bankB : Bool) (n : Fin 16384)
  | sm (bankB : Bool) (n : Fin 65536)
  | lastValue (n : Fin 65536)
  | eventLog (n : Fin 8192)
  | receive (port : PortN) (row : Nat)
  | husk (row : Fin 4096)
  | transmit (port : PortN) (row : Fin 2048)
  | arrival (pod : PodN) (row : Fin 4096)
  | outQueue (eng : EngN) (row : Fin 512)
  | frameQueue (row : Fin 8192)
  deriving DecidableEq, Repr

/-- A row outside the address map with the place of a byte of it and the bits of that byte's codeword that are wrong (14 R297, R305). -/
abbrev SideFail := SideRow × Byte × BitVec 13

/-- Bits that turn over in a memory, which nothing in the device brings about (log entry 67): in the codeword of a byte at an address, of a check byte of a
staging-store line (14 R309), or of a byte of a row outside the address map; in a byte of a DRAM block, a check byte of one (14 R312), or all over a block,
beyond what its code corrects. -/
inductive Upset where
  | sram (addr : BitVec 40) (mask : BitVec 13)
  | check (line : Fin 1572864) (byte : Fin 4) (mask : BitVec 13)
  | dram (addr : BitVec 40)
  | dramByte (addr : BitVec 40) (mask : Byte)
  | dramCheck (addr : BitVec 40) (byte : Fin 4) (mask : Byte)
  | side (row : SideRow) (byte : Byte) (mask : BitVec 13)
  deriving DecidableEq, Repr

/-- A bank with a cycle free for the Grinder (14 R299, R315), named by an address in it; one of Pestle engine `k`'s DMEM, which no address reaches; or by a
row outside the address map. An address in DRAM names the DRAM pass. -/
inductive GrindAt where
  | home (addr : BitVec 40)
  | pestle (k : Fin 4) (bank : Fin 4)
  | side (row : SideRow)
  deriving DecidableEq, Repr

/-- An entry's emit count that chip time reaches, and its port (06 R120). -/
structure EmitAt where
  port : PortN
  count : BitVec 80
  deriving DecidableEq, Repr

/-- When a TIME RESP arrived, and the mapping that the fabric's master has in force (16 R356, log entry 25). -/
structure FabTime where
  edge : Stamp
  map : TaiMap
  deriving DecidableEq, Repr

/-- A POWER request: its parameter, and a management request that reaches the power and clock controller in the same cycle (01 R21). -/
structure PowerReq where
  p : W24
  same : Option MgmtReq
  deriving DecidableEq, Repr

/-- A visit of the Grinder, and the bits that have turned over before it (14 R316, log entry 67). -/
structure GrindVisit where
  bank : GrindAt
  upsets : List Upset
  deriving DecidableEq, Repr

/-- Instructions of the test port (20 R461). -/
inductive TestInstr where
  | bypass
  | sample
  | preload
  | extest
  | idcode
  | clamp
  | highz
  | extestPulse
  | extestTrain
  deriving DecidableEq, Repr

end Sys2Proof
end

