-- ==== Sys2Proof/Syntax.lean ====
section
/-! DEFINITION. The commands: one constructor per row of opcode_table.json. -/

namespace Sys2Proof

/-- The part's operations and events (95), each whole and indivisible. -/
inductive Instr where
  /-- R28. The 48-bit tick passes 0xFFFF_FFFF_FFFF, restarts modulo 2^48 and the epoch increases by one in the same cycle. -/
  | tickWrap (busy : List PortN)
  /-- R31. Pestle recalibrates the interpolators and input path delays; it runs every 10 s, after a 5 °C sensor move and after a core-voltage step, and new constants apply between two edges. -/
  | calibration
  /-- R35. Once per second of chip time, the time base re-evaluates which qualified discipline source to select. -/
  | sourceSelection
  /-- R35. A source has been qualified continuously for 3 s and may now displace a lower-ranked source. -/
  | sourceQualified (src : TimeSrc)
  /-- R35. A selected source has given no valid input for 2 s; it is lost and the time base enters holdover or selects the next source. -/
  | sourceLost (src : TimeSrc)
  /-- R38. An edge arrives on PPS_IN and is judged against the 1 s ± 200 µs window, counting toward qualification after three valid pulses. -/
  | ppsPulse (rising : Bool) (edge : Stamp)
  /-- R39. An IEEE 802.1AS message arrives on a MAC used for gPTP and is used for time; on a capture MAC it is also logged raw. -/
  | gptpMessage (mac : Fin 16) (edge : Stamp) (msg : GptpMsg)
  /-- R41. A write of 1 to 0x2210:08 puts the shadow C0 and T0 into force, or is refused when the mapping is set from 802.1AS or the fabric. -/
  | commitShadowMapping (path : Path) (v : Byte)
  /-- R41. A write to 0x2210:06 changes the UTC offset in force at once, with no shadow and no commit. -/
  | utcOffsetWrite (path : Path) (v : BitVec 16)
  /-- R43. A read of 0x2202:01 takes a new chip-time snapshot for its access path and returns the epoch. -/
  | chipTimeSnapshotRead (path : Path)
  /-- R43. A read of 0x2202:02 returns the tick of the path's snapshot, or the abort 0x0800_0022 when that path holds no snapshot. -/
  | snapshotTickRead (path : Path)
  /-- R56. A CAN classic, FD or XL frame completes on a port and becomes a raw frame record timestamped at its start-of-frame edge. -/
  | canFrameReceived (port : Fin 96) (edge : Stamp) (frame : CanFrame)
  /-- R56. A CAN error, overload frame or error-state change occurs and produces a bus-event record. -/
  | canBusEvent (port : Fin 96) (edge : Stamp) (ev : CanEvent)
  /-- R56. In normal mode, a bus-off port completes recovery under the standard and the recovery is logged. -/
  | busOffRecovery (port : Fin 96) (edge : Stamp)
  /-- R59. A MAC receives a frame, which is kept byte for byte with its flags and timestamp as a raw frame record. -/
  | ethernetFrameReceived (mac : Fin 16) (edge : Stamp) (frame : EthFrame)
  /-- R60. The USXGMII link of a MAC comes up and a link-up port notice is recorded with the rate. -/
  | ethLinkUp (mac : Fin 16) (rate : Fin 6)
  /-- R60. The USXGMII link of a MAC goes down and a link-down port notice is recorded. -/
  | ethLinkDown (mac : Fin 16)
  /-- R63. A SENT fast-channel frame or serial message completes on a low-speed port and is recorded. -/
  | sentFrameReceived (lsp : Fin 32) (edge : Stamp) (frame : SentFrame)
  /-- R63. A PSI5 frame completes on a low-speed port and is recorded. -/
  | psi5FrameReceived (lsp : Fin 32) (edge : Stamp) (frame : Psi5Frame)
  /-- R63. A LIN header, with or without a response, completes on a low-speed port and is recorded; a responder sends its stored response. -/
  | linFrameReceived (lsp : Fin 32) (edge : Stamp) (frame : LinFrame)
  /-- R64. The glitch filter of an event pin or edge-mode LSP expires with the new level stable, and the edge is recorded with the time of its first transition. -/
  | edgeLevelAccepted (port : PortN) (edge : Stamp) (level : Bool)
  /-- R61. A PWM period completes on a low-speed port and its period and high time are recorded. -/
  | pwmMeasurement (lsp : Fin 32) (edge : Stamp) (period : BitVec 32) (high : BitVec 32)
  /-- R65. A sample-port frame completes and its interleaved words are recorded as one record. -/
  | samplePortFrame (smp : Fin 8) (edge : Stamp) (lines : List (List (BitVec 32)))
  /-- R74. The classifier probes the Frame Key Table for a frame, with a second probe for a multiplexed frame, and queues the hit for the Sifter. -/
  | classifyFrame (port : PortN)
  /-- R79. The Sifter takes a queued frame and turns each Signal Map entry of its runs into at most one sample record. -/
  | siftFrame
  /-- R85. A write of 1 to 0x2300:01 in IDLE starts the check of the shadow bank. -/
  | commitShadowTables (path : Path) (v : Byte)
  /-- R86. The shadow-bank check ends; on a pass the banks swap at that tick, on a failure the status and entry are published and the request is refused. -/
  | tableCheckComplete
  /-- R85. A write of 1 to 0x2300:02 starts a copy of the active bank into the shadow bank. -/
  | copyActiveToShadow (path : Path) (v : Byte)
  /-- R85. The copy of the active bank into the shadow bank ends and 0x2300:02 returns to 0. -/
  | tableCopyComplete
  /-- R87. One whole Frame Key Table, Signal Map, replay, link or export entry is written into a table window, or refused. -/
  | tableWindowWrite (path : Path) (idx : BitVec 16) (sub : Byte) (data : List Byte)
  /-- R96. A lane closes its open block, and the Mill codes it in its mode or verbatim. -/
  | blockClose (lane : BitVec 16)
  /-- R96. The first record of an open block has waited as long as the block age limit. -/
  | blockAgeExpiry (lane : BitVec 16)
  /-- R101. An output lane has received no post-wrap record 1 s after the wrap and reaches its wrap point. -/
  | outputLaneWrapTimeout (eng : Fin 1024)
  /-- R103. An open segment reaches the segment age limit and closes. -/
  | segmentAgeExpiry
  /-- R103. The signature time interval has passed since the last signature, so a signature falls due. -/
  | signatureTimeDue
  /-- R104. The hash and any signature of a closed segment are finished and the segment moves into the DRAM ring. -/
  | segmentHashComplete
  /-- R109. An NVMe command completes, so a segment may become durable and free its slot, or read-back data reaches replay. -/
  | nvmeCommandComplete (ssd : Fin 2) (cid : Nat) (done : NvmeDone)
  /-- R109. The flush interval passes and a Flush is issued. -/
  | flushIntervalExpiry
  /-- R109. Every 10 s the device reads the error and SMART log pages and writes health records. -/
  | nvmeHealthPoll (pages : List (List Byte))
  /-- R110. An NVMe command exceeds its timeout, so it is aborted and the SSD controller is reset. -/
  | nvmeCommandTimeout (ssd : Fin 2) (cid : Nat)
  /-- R110. An SSD controller reset ends, either restoring the SSD or declaring it failed. -/
  | controllerResetComplete (ssd : Fin 2) (ok : Bool)
  /-- R473. In IDLE, every 10 s the device tries to bring up each named SSD that is absent, failed or not started. -/
  | ssdBringupRetry (up0 : Bool) (up1 : Bool)
  /-- R119. The replay feeder places the next decoded entry into a port's emit queue, or into an altering engine's input, once there is room. -/
  | feedEmitEntry (port : PortN)
  /-- R120. Chip time reaches an entry's emit count and the transmitter starts the frame, or the entry is dry under the port's policy. -/
  | emitCountReached (entry : EmitAt)
  /-- R125. One resume margin after the hold's conditions are met, replay resumes and Δ grows by the hold length. -/
  | holdResume
  /-- R122. A waiting CAN entry finds the bus idle and enters arbitration, retrying after a loss. -/
  | canBusIdleTx (port : Fin 96) (won : Bool)
  /-- R121. A frame the device sent completes and is recorded with TX, its actual start tick, and LATE or ARB when they apply. -/
  | frameTransmitted (port : PortN) (edge : Stamp)
  /-- R136. A link block reaches the link block age limit and closes. -/
  | linkBlockAgeExpiry (lane : BitVec 16) (cls : Fin 4)
  /-- R137. When the rate in force allows, the car sends the next data or repair frame, serving classes in strict order. -/
  | linkFrameSend (path : Fin 4)
  /-- R137. A class 1 to 3 record has found no room for 100 ms after selection and is shed. -/
  | linkRecordShed (cls : Fin 4)
  /-- R139. The first frame of a code group reaches 20 ms of age and the group closes with its actual K. -/
  | codeGroupTimeout
  /-- R142. Every 200 ms until a valid ANSWER arrives, the car sends HELLO on every enabled path. -/
  | helloTimer
  /-- R142. The pit receives HELLO, checks the signature and trusted identity, and replies with ANSWER. -/
  | linkHelloReceived (path : Fin 4) (frame : LinkFrame)
  /-- R143. The car receives the first valid ANSWER, which fixes the session keys. -/
  | linkAnswerReceived (path : Fin 4) (frame : LinkFrame)
  /-- R144. The rekey interval passes, or SEQ reaches 2^32, and a new handshake starts. -/
  | rekeyIntervalExpiry
  /-- R144. 2 s after the first frame under a new KEYNO, frames under the old key stop being valid. -/
  | oldKeyExpiry
  /-- R145. The pit sends a report on each path once per report interval. -/
  | reportIntervalExpiry (path : Fin 4)
  /-- R145. The car receives a report and adapts the path rate and, when adaptive, the code level. -/
  | linkReportReceived (path : Fin 4) (frame : LinkFrame)
  /-- R145. A path has had no report for 500 ms and is down. -/
  | pathReportTimeout (path : Fin 4)
  /-- R141. The pit sends or repeats a NAK for a class-0 frame of a group that can no longer be recovered. -/
  | nakTimer (keyno : BitVec 32) (seq : BitVec 64)
  /-- R141. The car answers a NAK by sending the class-0 frame again under a new SEQ. -/
  | linkNakReceived (path : Fin 4) (frame : LinkFrame)
  /-- R146. The pit decrypts a data, repair or retransmitted frame, recovers groups, drops duplicates and decodes blocks. -/
  | linkDataFrameReceived (path : Fin 4) (frame : LinkFrame)
  /-- R146. A record's release time arrives, so it is stored under its rewritten TICK and/or fed to replay. -/
  | recordRelease
  /-- R150. A close frame sets link state 1, and the car resumes HELLO. -/
  | linkCloseReceived (path : Fin 4) (frame : LinkFrame)
  /-- R150. A path closed for 1 s after excessive malformed frames reopens. -/
  | pathCloseExpiry (path : Fin 4)
  /-- R153. A bundle issues and its moves copy values to registers, operand latches and control ports that have no row of their own. -/
  | engineMove (eng : EngN)
  /-- R166. A move writes CTL.MODE, and the mode change becomes pending for 3 unfrozen cycles. -/
  | ctlModeWrite (eng : EngN) (v : W24)
  /-- R274. A supervisor move to CTL.DOOR rings the engine's doorbell to Pestle with MSG. -/
  | ctlDoorWrite (eng : EngN) (v : W24)
  /-- R198. A move writes CHK.CFG, and a PRESET value loads POLY, WM1, RIN, ROUT, XO and REM at once. -/
  | chkCfgWrite (eng : EngN) (v : W24)
  /-- R194. A move writes flags, the accumulator or the CRC remainder, setting the starting state for later operations. -/
  | chainedStateWrite (eng : EngN) (port : BitVec 10) (v : L48)
  /-- R235. A move writes the count of an active repeat level and sets its count-written flag. -/
  | rptCountWrite (eng : EngN) (port : BitVec 10) (v : W24)
  /-- R236. A move writes S or E of an active repeat level, governing later issues and loop-backs. -/
  | rptBoundsWrite (eng : EngN) (port : BitVec 10) (v : W24)
  /-- R246. A move writes SRC, DST, N or PAT while a string move may be running. -/
  | smvPortWrite (eng : EngN) (port : BitVec 10) (v : W24)
  /-- R202. A write to SPU.RBASE or SPU.RSIZE sets the input ring and discards the records of the old ring. -/
  | spuRingWrite (eng : EngN) (size : Bool) (v : W24)
  /-- R202. An owning engine sets the predictor order and adaptation of a channel from the next block. -/
  | spuPredWrite (eng : EngN) (v : W24)
  /-- R207. ALU ADD, or ADD.L, adds a and b and sets all flags, saturating when SAT is 1. -/
  | aluAdd (eng : EngN) (u : Bool) (long : Bool) (a : L48)
  /-- R207. ALU ADDC, or its .L form, adds a, b and the carry. -/
  | aluAddc (eng : EngN) (u : Bool) (long : Bool) (a : L48)
  /-- R207. ALU SUB, or its .L form, subtracts b from a. -/
  | aluSub (eng : EngN) (u : Bool) (long : Bool) (a : L48)
  /-- R207. ALU SUBB, or its .L form, subtracts b and the borrow from a. -/
  | aluSubb (eng : EngN) (u : Bool) (long : Bool) (a : L48)
  /-- R220. ALU NEG, or its .L form, negates a, with the TF1024 most-negative handling. -/
  | aluNeg (eng : EngN) (u : Bool) (long : Bool) (a : L48)
  /-- R220. ALU ABS, or its .L form, gives the absolute value, with the TF1024 most-negative handling. -/
  | aluAbs (eng : EngN) (u : Bool) (long : Bool) (a : L48)
  /-- R207. ALU AND, or its .L form, of a and b, setting Z and N. -/
  | aluAnd (eng : EngN) (u : Bool) (long : Bool) (a : L48)
  /-- R207. ALU OR, or its .L form, of a and b. -/
  | aluOr (eng : EngN) (u : Bool) (long : Bool) (a : L48)
  /-- R207. ALU XOR, or its .L form, of a and b. -/
  | aluXor (eng : EngN) (u : Bool) (long : Bool) (a : L48)
  /-- R207. ALU ANDN, or its .L form: a AND NOT b. -/
  | aluAndn (eng : EngN) (u : Bool) (long : Bool) (a : L48)
  /-- R207. ALU NOT, or its .L form, of a. -/
  | aluNot (eng : EngN) (u : Bool) (long : Bool) (a : L48)
  /-- R207. ALU MIN, or its .L form: the smaller of a and b as signed values. -/
  | aluMin (eng : EngN) (u : Bool) (long : Bool) (a : L48)
  /-- R207. ALU MAX, or its .L form: the larger of a and b as signed values. -/
  | aluMax (eng : EngN) (u : Bool) (long : Bool) (a : L48)
  /-- R207. ALU MINU, or its .L form: the smaller of a and b as unsigned values. -/
  | aluMinu (eng : EngN) (u : Bool) (long : Bool) (a : L48)
  /-- R207. ALU MAXU, or its .L form: the larger of a and b as unsigned values. -/
  | aluMaxu (eng : EngN) (u : Bool) (long : Bool) (a : L48)
  /-- R207. ALU PASS, or its .L form, passes a and sets Z and N. -/
  | aluPass (eng : EngN) (u : Bool) (long : Bool) (a : L48)
  /-- R219. MAC MUL loads the signed product into the 56-bit accumulator. -/
  | macMul (eng : EngN) (y : W24)
  /-- R219. MAC MULU loads the unsigned product into the accumulator. -/
  | macMulu (eng : EngN) (y : W24)
  /-- R219. MAC MAC adds the signed product to the accumulator. -/
  | macMac (eng : EngN) (y : W24)
  /-- R219. MAC MACU adds the unsigned product to the accumulator. -/
  | macMacu (eng : EngN) (y : W24)
  /-- R219. MAC MSU subtracts the signed product from the accumulator. -/
  | macMsu (eng : EngN) (y : W24)
  /-- R219. MAC MSUU subtracts the unsigned product from the accumulator. -/
  | macMsuu (eng : EngN) (y : W24)
  /-- R219. MAC CLR clears the accumulator and V. -/
  | macClr (eng : EngN) (y : W24)
  /-- R219. MAC RD reads the accumulator rounded and shifted right by s, without changing it. -/
  | macRd (eng : EngN) (y : W24)
  /-- R223. SHF SHL, or its .L form, shifts left, giving 0 for amounts at or above the width. -/
  | shfShl (eng : EngN) (long : Bool) (d : L48)
  /-- R223. SHF SHR, or its .L form, shifts right logically. -/
  | shfShr (eng : EngN) (long : Bool) (d : L48)
  /-- R223. SHF SAR, or its .L form, shifts right arithmetically. -/
  | shfSar (eng : EngN) (long : Bool) (d : L48)
  /-- R223. SHF ROL, or its .L form, rotates left by s mod w. -/
  | shfRol (eng : EngN) (long : Bool) (d : L48)
  /-- R223. SHF ROR, or its .L form, rotates right by s mod w. -/
  | shfRor (eng : EngN) (long : Bool) (d : L48)
  /-- R210. SHF EXT, or its .L form, extracts a field zero-extended. -/
  | shfExt (eng : EngN) (long : Bool) (d : L48)
  /-- R210. SHF EXTS, or its .L form, extracts a field sign-extended. -/
  | shfExts (eng : EngN) (long : Bool) (d : L48)
  /-- R210. SHF INS, or its .L form, inserts the low LEN bits of F into d. -/
  | shfIns (eng : EngN) (long : Bool) (d : L48)
  /-- R224. CHK STEP8 feeds all or j bits of one byte into the check remainder. -/
  | chkStep8 (eng : EngN) (v : W24)
  /-- R224. CHK STEP16 feeds bytes 0 and 1 into the check remainder. -/
  | chkStep16 (eng : EngN) (v : W24)
  /-- R224. CHK STEP24 feeds bytes 0, 1 and 2 into the check remainder. -/
  | chkStep24 (eng : EngN) (v : W24)
  /-- R211. CHK PAR gives the parity of the word. -/
  | chkPar (eng : EngN) (v : W24)
  /-- R211. CHK PARB gives the parity of each byte. -/
  | chkParb (eng : EngN) (v : W24)
  /-- R211. CHK REV reverses the bits of the word. -/
  | chkRev (eng : EngN) (v : W24)
  /-- R211. CHK REVB reverses the bits of each byte. -/
  | chkRevb (eng : EngN) (v : W24)
  /-- R224. CHK REVN reverses the low n bits of the word. -/
  | chkRevn (eng : EngN) (v : W24)
  /-- R224. CHK POP, or POP.L, counts one bits. -/
  | chkPop (eng : EngN) (long : Bool) (v : L48)
  /-- R224. CHK CLZ, or CLZ.L, counts leading zeros. -/
  | chkClz (eng : EngN) (long : Bool) (v : L48)
  /-- R221. DIV DIV, or DIV.L, divides signed values, with defined results for division by zero and overflow. -/
  | divDiv (eng : EngN) (long : Bool) (n : L48)
  /-- R221. DIV DIVU, or DIVU.L, divides unsigned values. -/
  | divDivu (eng : EngN) (long : Bool) (n : L48)
  /-- R213. LSU0 LD.B loads a byte of DMEM sign-extended, forwarding from the store buffer under R170. -/
  | lsu0LdB (eng : EngN) (a : W24)
  /-- R213. LSU0 LD.BU loads a byte of DMEM zero-extended. -/
  | lsu0LdBu (eng : EngN) (a : W24)
  /-- R213. LSU0 LD.W loads a DMEM word. -/
  | lsu0LdW (eng : EngN) (a : W24)
  /-- R226. LSU0 LD.L loads a long, split in two when it lies at an odd word address. -/
  | lsu0LdL (eng : EngN) (a : W24)
  /-- R168. LSU0 ST.B enters a byte store into the store buffer. -/
  | lsu0StB (eng : EngN) (a : W24)
  /-- R168. LSU0 ST.W enters a word store into the store buffer. -/
  | lsu0StW (eng : EngN) (a : W24)
  /-- R168. LSU0 ST.L enters a long store, split or not, into the store buffer as one entry. -/
  | lsu0StL (eng : EngN) (a : W24)
  /-- R214. LSU1 LD.B loads a byte from a global address after the region checks. -/
  | lsu1LdB (eng : EngN) (a : L48)
  /-- R214. LSU1 LD.BU loads a byte from a global address zero-extended. -/
  | lsu1LdBu (eng : EngN) (a : L48)
  /-- R214. LSU1 LD.W loads a word from a global address. -/
  | lsu1LdW (eng : EngN) (a : L48)
  /-- R226. LSU1 LD.L loads a long from a global address, split when needed. -/
  | lsu1LdL (eng : EngN) (a : L48)
  /-- R214. LSU1 ST.B stores a byte to a global address. -/
  | lsu1StB (eng : EngN) (a : L48)
  /-- R214. LSU1 ST.W stores a word to a global address. -/
  | lsu1StW (eng : EngN) (a : L48)
  /-- R226. LSU1 ST.L stores a long to a global address, split when needed. -/
  | lsu1StL (eng : EngN) (a : L48)
  /-- R174. A waiting LSU1 request is granted by its PMEM bank or crossbar port, and the freeze of its engine ends. -/
  | lsu1RequestGranted (eng : EngN) (waited : Nat)
  /-- R172. The data of an LSU1 load outside the pod arrives, or the access meets an error response. -/
  | lsu1DataReturn (eng : EngN) (err : Bool) (ext : List Byte)
  /-- R168. In a cycle with its bank free, the oldest store-buffer entry is written to DMEM. -/
  | storeBufferDrain (eng : EngN)
  /-- R164. CTL JMP jumps after two delay bundles and a bubble. -/
  | ctlJmp (eng : EngN) (v : W24)
  /-- R215. CTL CALL jumps and writes LINK. -/
  | ctlCall (eng : EngN) (v : W24)
  /-- R215. CTL RET jumps to LINK. -/
  | ctlRet (eng : EngN) (v : W24)
  /-- R215. CTL TRAP raises the trap exception at the next boundary with a trap number. -/
  | ctlTrap (eng : EngN) (v : W24)
  /-- R270. CTL RFE returns from an exception, issuing two delay bundles and then reading the TSB. -/
  | ctlRfe (eng : EngN) (v : W24)
  /-- R215. CTL CMP.EQ, or its .L form, sets the guard named by GD to a = b. -/
  | ctlCmpEq (eng : EngN) (long : Bool) (a : L48)
  /-- R215. CTL CMP.NE, or its .L form, sets the guard to a ≠ b. -/
  | ctlCmpNe (eng : EngN) (long : Bool) (a : L48)
  /-- R215. CTL CMP.LT, or its .L form, sets the guard to signed a < b. -/
  | ctlCmpLt (eng : EngN) (long : Bool) (a : L48)
  /-- R215. CTL CMP.LE, or its .L form, sets the guard to signed a ≤ b. -/
  | ctlCmpLe (eng : EngN) (long : Bool) (a : L48)
  /-- R215. CTL CMP.LTU, or its .L form, sets the guard to unsigned a < b. -/
  | ctlCmpLtu (eng : EngN) (long : Bool) (a : L48)
  /-- R215. CTL CMP.LEU, or its .L form, sets the guard to unsigned a ≤ b. -/
  | ctlCmpLeu (eng : EngN) (long : Bool) (a : L48)
  /-- R215. CTL CMP.BIT sets the guard when a AND b is not 0. -/
  | ctlCmpBit (eng : EngN) (a : W24)
  /-- R233. RPT REP opens a repeat level for the block after it. -/
  | rptRep (eng : EngN) (c : W24)
  /-- R236. RPT EXIT closes the innermost repeat level without an end check. -/
  | rptExit (eng : EngN) (v : W24)
  /-- R241. SMV COPY starts copying N words within DMEM. -/
  | smvCopy (eng : EngN) (v : W24)
  /-- R241. SMV FILL starts filling N words with PAT. -/
  | smvFill (eng : EngN) (v : W24)
  /-- R241. SMV CMP starts comparing two ranges under the PAT mask. -/
  | smvCmp (eng : EngN) (v : W24)
  /-- R241. SMV SCAN starts scanning for a word equal to, or different from, PAT. -/
  | smvScan (eng : EngN) (v : W24)
  /-- R244. A running string move performs one step in an unfrozen cycle, ending the operation when N reaches 0 or a stop occurs. -/
  | smvStep (eng : EngN)
  /-- R228. TSU NOW returns the tick and latches the epoch of a coherent pair. -/
  | tsuNow (eng : EngN) (v : L48)
  /-- R228. TSU EP returns the epoch latch. -/
  | tsuEp (eng : EngN) (v : L48)
  /-- R228. TSU WAIT freezes the engine until its target tick is due under R46. -/
  | tsuWait (eng : EngN) (v : L48)
  /-- R160. The target tick of a frozen WAIT becomes due and the freeze ends. -/
  | waitTargetDue (eng : EngN)
  /-- R217. SPU IN returns and releases the next published input record, freezing when none is published. -/
  | spuIn (eng : EngN) (v : W24)
  /-- R229. SPU POLL returns the next record's address and source kind without releasing or freezing. -/
  | spuPoll (eng : EngN) (v : W24)
  /-- R218. SPU OUT appends one word of a record addressed to another engine to the output queue. -/
  | spuOut (eng : EngN) (v : W24)
  /-- R230. SPU EMIT appends one word of an output record or emit entry for a lane or port. -/
  | spuEmit (eng : EngN) (v : W24)
  /-- R179. The router takes a complete OUT record, or EMIT words move on, freeing room in the output queue. -/
  | outputQueueHandoff (eng : EngN) (waited : Nat)
  /-- R176. The pod stream router accepts a record for an engine into its arrival buffer, or drops it under R178. -/
  | routerAccept (pod : PodN)
  /-- R177. The router writes a whole record into the engine's input ring and publishes it, ending an SPU.IN freeze. -/
  | routerPublish (eng : EngN)
  /-- R175. Pestle changes a pod's clock step between two pod cycles. -/
  | podClockStep (pod : PodN) (step : Fin 5)
  /-- R257. A synchronous cause or an interrupt is taken at a boundary; the bundle does not issue, the queue is flushed and in-flight results fill flight slots. -/
  | exceptionEntry (eng : EngN)
  /-- R257. Once the store buffer is empty, the engine writes its 160-word TSB and CAUSE, and then starts the handler, halts on escalation, or faults. -/
  | tsbSave (eng : EngN)
  /-- R270. After RFE or RESUME, once nothing is outstanding, the TSB is read and state is reinstated, so that b issues. -/
  | tsbRestore (eng : EngN)
  /-- R253. A write to ENG_IRQ sets or clears the Pestle interrupt or enables the input-ring interrupt. -/
  | engIrqWrite (master : MasterN) (eng : Fin 1024) (v : BitVec 32)
  /-- R272. A write of 1 to ENG_EXC.RESUME resumes an engine halted after escalation. -/
  | engExcResume (master : MasterN) (eng : Fin 1024)
  /-- R438. A write to PCC_ERST holds or releases engines of a pod in engine reset at one pod clock edge. -/
  | pccErstWrite (master : MasterN) (pod : PodN) (v : BitVec 32)
  /-- R437. A pod is reset, its lanes move to the standby pod, and its image is reloaded. -/
  | podReset (pod : PodN)
  /-- R336. A crossbar target port grants one waiting request by priority and round robin, or to its park master. -/
  | xbarGrant (target : Fin 56) (arrivals : List XReq)
  /-- R336. A crossbar request has waited 65,536 cycles and a starvation event is counted. -/
  | xbarStarvation (target : Fin 56) (master : MasterN)
  /-- R299. A router or inbound transfer request has waited 65,536 pod cycles for a bank, and a starvation event is counted. -/
  | transferStarvation (pod : PodN)
  /-- R328. A Pestle write to XB_MAP swaps or restores the boot ROM and MSRAM low slots. -/
  | xbMapWrite (master : MasterN) (v : BitVec 32)
  /-- R304. A Pestle write to a master-port region descriptor takes effect for requests accepted afterwards. -/
  | xbRgnWrite (master : MasterN) (port : MasterN) (desc : Fin 16) (reg : Fin 3) (v : BitVec 32)
  /-- R338. A Pestle write to XB_PRIO or XB_PARK governs arbitration from the next cycle. -/
  | xbArbitrationWrite (master : MasterN) (park : Bool) (port : MasterN) (target : Fin 56) (v : BitVec 32)
  /-- R318. A write of 1 to GRN_INJ_HI.ARM arms a fault injection for the next write of the byte at ADDR. -/
  | grnInjArm (master : MasterN) (lo : BitVec 32) (hi : BitVec 32)
  /-- R316. In a free bank cycle, the Grinder reads and decodes one row of its list or its pass and acts on the result. -/
  | grinderVisit (visit : GrindVisit)
  /-- R316. In a later free cycle, the Grinder rewrites the corrected bytes of a row, or revisits the row when a write intervened. -/
  | grinderWriteback
  /-- R322. At most once per hour, Pestle writes the held repair candidates to the repair record. -/
  | repairRecordWrite
  /-- R397. A write to PST_FBASE sets a Pestle engine's fetch window from the next taken jump. -/
  | pstFbaseWrite (master : MasterN) (k : Fin 4) (v : BitVec 32)
  /-- R398. A Pestle engine writes 0x5A to its watchdog register. -/
  | watchdogKick (k : Fin 4) (v : BitVec 32)
  /-- R398. 100 ms pass without a watchdog write, and the chip takes a warm reset with cause 3. -/
  | watchdogExpiry (k : Fin 4)
  /-- R416. Pestle answers a doorbell: it logs a software message, or resets and reloads the pod after a halt, declaring the pod failed after too many resets. -/
  | doorbellService (eng : Fin 1024)
  /-- R417. In IDLE, Pestle re-homes a failed pod's Signal Map channels to the standby pod by a table commit. -/
  | rehomeChannels (pod : PodN)
  /-- R405. Every millisecond, Pestle samples the thermal, voltage and clock sensors and sets the throttle level. -/
  | sensorSample (temps : List Int) (volts : List Nat) (clocks : List Nat)
  /-- R406. A core rail stays below its window for 10 µs, and the chip takes a warm reset with cause 5. -/
  | coreBrownout
  /-- R406. The reference clock is missing for 1 µs; the chip takes a warm reset with cause 4 and the Husk carries chip time. -/
  | refclkLoss
  /-- R436. A trip comparator reads 125 °C or more; every rail except the Husk's is cut and THERMTRIP_N goes low. -/
  | thermalTrip
  /-- R436. Sensor 0 has read below 100 °C for 1 s; THERMTRIP_N is released and the device boots with cause 6. -/
  | thermalTripRelease
  /-- R462. PMB_ALERT_N falls, and Pestle reads STATUS_WORD from every regulator and logs the faults. -/
  | pmbusAlert (faults : List (Nat × Nat))
  /-- R340. Signal is detected on an enabled fabric port and link training starts. -/
  | signalDetect (k : Fin 8)
  /-- R340. A fabric port does not come up within 20 ms of signal detect and training starts again. -/
  | trainingTimeout (k : Fin 8)
  /-- R341. No good flit has arrived for 10 µs and the link goes down. -/
  | flitSilenceTimeout (k : Fin 8)
  /-- R341. Lane lock is lost on one lane, so the link runs at half rate, or on both, so the link goes down. -/
  | laneLockLoss (k : Fin 8) (both : Bool)
  /-- R341. A HELLO flit arrives; it brings the link up, or reveals a new partner or a loopback. -/
  | helloFlitReceived (k : Fin 8) (flit : Flit)
  /-- R349. Every 100 ms, the device sends HELLO on each port. -/
  | fabricHelloTimer
  /-- R345. A NAK arrives, and the sender resends its replay buffer from the expected SEQ. -/
  | nakFlitReceived (k : Fin 8) (flit : Flit)
  /-- R345. The oldest unacknowledged flit, or a NAKed expected SEQ, has waited 2 µs without progress, so the flits are resent or the NAK is repeated. -/
  | retryTimeout (k : Fin 8)
  /-- R347. A quarantined link's 1 s ends and the link retrains. -/
  | quarantineExpiry (k : Fin 8)
  /-- R341. A looped port retrains once per second. -/
  | loopedRetrainTimer (k : Fin 8)
  /-- R350. After 50 ms without a database change, a dynamic device takes a free node ID. -/
  | nodeIdTimer
  /-- R351. A ROUTE advert arrives and is stored and flooded when its generation is later. -/
  | routeAdvertReceived (k : Fin 8) (flits : List Flit)
  /-- R351. The device floods its own advert every 1 s or on a change of its links. -/
  | routeAdvertTimer
  /-- R351. An advert not refreshed for 3 s leaves the database. -/
  | advertAgeExpiry (uid : BitVec 64)
  /-- R352. Pestle recomputes shortest paths and alternates, and writes the new routing tables. -/
  | routeRecompute
  /-- R355. A better device has been better for 3 s and displaces the time master. -/
  | masterDisplacement
  /-- R356. Every 1 ms, the device sends a TIME REQ on every up port. -/
  | timeReqTimer
  /-- R356. A TIME REQ arrives and a RESP with t1, t2 and t3 is sent. -/
  | timeReqReceived (k : Fin 8) (flit : Flit) (edge : Stamp)
  /-- R356. A TIME RESP arrives; delay and offset are computed and fabric time is disciplined. -/
  | timeRespReceived (k : Fin 8) (flit : Flit) (time : FabTime)
  /-- R358. An MGMT dictionary or memory request arrives and is served and answered. -/
  | mgmtRequestReceived (k : Fin 8) (flits : List Flit)
  /-- R358. An MGMT answer arrives and is returned to the caller. -/
  | mgmtAnswerReceived (k : Fin 8) (flits : List Flit)
  /-- R358. An MGMT request has had no answer for 100 ms and is aborted with 0x0504_0000. -/
  | mgmtRequestTimeout (node : Byte) (tag : Byte)
  /-- R360. An exported record arrives over the fabric and enters the destination pod's stream router. -/
  | dataFlitReceived (k : Fin 8) (flit : Flit)
  /-- R361. A COMMIT PREPARE arrives; the device prepares its units and answers READY or NOTREADY. -/
  | prepareReceived (k : Fin 8) (flit : Flit)
  /-- R361. The coordinator receives READY or NOTREADY from a device. -/
  | readyReceived (k : Fin 8) (flit : Flit)
  /-- R361. An OUTCOME arrives, and its bitmap is written into the profile-split record. -/
  | outcomeReceived (k : Fin 8) (flit : Flit)
  /-- R362. No OUTCOME arrives within 50 ms after T, so the device writes a split record and reverts by itself. -/
  | outcomeTimeout
  /-- R369. A CANopen USDO request or segment arrives and is served, or aborted. -/
  | usdoRequest (frame : Usdo)
  /-- R369. The next segment of a segmented transfer does not arrive within 1 s, and the transfer is aborted. -/
  | usdoSegmentTimeout
  /-- R371. A host write of GO to MBX_REQ starts a mailbox dictionary request, answered with DONE. -/
  | mbxGo (ctl : Bool) (stat : BitVec 32) (req : BitVec 32) (len : BitVec 13) (off : BitVec 32) (data : List Byte)
  /-- R470. A write to a dictionary object that has no row of its own is checked in order and stored or refused. -/
  | objectWrite (path : Path) (idx : BitVec 16) (sub : Byte) (data : List Byte)
  /-- R17. The ARM command checks the activity combination and every chapter's ARM checks, and enters ARMED. -/
  | arm (path : Path) (p : W24)
  /-- R376. The START command takes a session number, restarts the store when needed, fixes S and enters RUNNING. -/
  | start (path : Path) (p : W24)
  /-- R106. The STOP command enters DRAINING, or leaves FAULT for IDLE. -/
  | stop (path : Path) (p : W24)
  /-- R376. The DISARM command returns from ARMED to IDLE. -/
  | disarm (path : Path) (p : W24)
  /-- R379. The MARK command places a marker record in the control lane. -/
  | mark (path : Path) (p : W24)
  /-- R389. The SWITCH_PROFILE command is accepted at tick A with commit tick T, and units start preparing. -/
  | switchProfile (path : Path) (p : W24)
  /-- R423. The POWER command, or a write of 0x2101:01, starts entry to a power state or a PARK wake. -/
  | power (path : Path) (req : PowerReq)
  /-- R390. A unit finishes loading the new configuration into its shadow. -/
  | unitPrepared (unit : Unit_)
  /-- R391. At T, every prepared unit commits by hardware comparison, and a split record follows when a unit is not prepared. -/
  | profileCommitTick
  /-- R393. At T + 100 ms, committed units swap back under the revert policy, and the pending switch ends. -/
  | profileRevertTick
  /-- R386. A write of s to 0x2800:03 in IDLE saves the profile in force to slot s. -/
  | profileSave (path : Path) (v : Byte)
  /-- R386. A flash write of a profile, configuration or record copy becomes durable, and its request is answered. -/
  | flashWriteComplete
  /-- R410. A read of 0x2930:03 places the path's cursor, returns the entry at it and advances it. -/
  | eventLogRead (path : Path)
  /-- R412. A piece of a firmware image is written to 0x2912:01 into the inactive slot. -/
  | firmwareImageWrite (path : Path) (off : Nat) (data : List Byte)
  /-- R412. Update step 1 on 0x2912:03 verifies the inactive slot under R400. -/
  | updateCheck (path : Path)
  /-- R412. Update step 2 makes the checked slot active with TRIAL set, and schedules a reset. -/
  | updateActivate (path : Path)
  /-- R412. Update step 3 clears TRIAL and blows rollback bits up to the SVN. -/
  | updateConfirm (path : Path)
  /-- R412. Update step 4 abandons the update and leaves a trial slot. -/
  | updateAbandon (path : Path)
  /-- R412. 100 ms after the answer to activation, the chip takes a warm reset with cause 8. -/
  | updateResetTimer
  /-- R413. A pod image is written to the image store through 0x2913:01 and verified. -/
  | podImageWrite (path : Path) (off : Nat) (data : List Byte)
  /-- R413. A write of a BUILDID to 0x2913:03 deletes that image unless a profile names it. -/
  | podImageDelete (path : Path) (id : BitVec 64)
  /-- R404. A first write of 0x2911:01 in IDLE fuses the image-key hash. -/
  | imageKeyFuse (path : Path) (data : List Byte)
  /-- R323. A write of 0x2940:08 in IDLE updates the TEST flag of the repair record in flash. -/
  | memoryTestEnableWrite (path : Path) (v : Byte)
  /-- R424. The domains going down are quiescent; the command is answered and entry runs through E3 to E5. -/
  | quiescenceReached (wake : Option (Fin 3 × Fin 14))
  /-- R425. Transfers do not complete within 100 µs; the ports reopen and the entry is abandoned busy. -/
  | quiescenceTimeout
  /-- R429. An enabled wake source transitions; rails start up and Husk capture begins. -/
  | wakeEdge (src : WakeSrc)
  /-- R429. A wake source passes its qualification time and the wake is confirmed. -/
  | wakeQualified (src : WakeSrc)
  /-- R430. The Husk catches a frame on a wake-capable CAN port into its buffer with Husk time. -/
  | huskFrameCapture (port : Fin 8) (edge : Stamp) (frame : CanFrame)
  /-- R431. Wake reaches RUN, restores the retention record, merges Husk records and issues the start-on-wake START at H. -/
  | wakeComplete
  /-- R432. An SSD that is not ready 2 s after H counts as a failed controller reset. -/
  | ssdReadyTimeout (ssd : Fin 2)
  /-- R450. A rail fails to enter its window within 2 ms of its enable; every enable is lowered and the attempt is logged. -/
  | railEnableTimeout (monitor : Fin 24) (mv : Nat)
  /-- R450. 100 ms after a failed power-up, the Husk starts again from the first enable. -/
  | railRetryTimer
  /-- R452. PORST_N is held low for 1 µs or more and the device restarts from power-up. -/
  | powerOnReset
  /-- R452. RESET_N is held low for 1 µs or more, or debug requests a cold reset, and chip time returns to 0 : 0. -/
  | coldReset (debug : Bool)
  /-- R437. A chip warm reset resets everything outside the Husk except chip time, ends the session and starts boot. -/
  | chipWarmReset (cause : Fin 10)
  /-- R439. Reset is released and the boot sequence runs through IDLE, and ARM at boot when it is set. -/
  | resetRelease (facts : BootFacts)
  /-- R461. The DBGACC instruction makes a crossbar access through master 47, or requests a cold reset. -/
  | jtagDebugAccess (coldReset : Bool) (req : XReq)
  /-- R379. The action started by an accepted ARM ends, ARMED is entered or the ARM is refused, and the request is answered. -/
  | armComplete
  /-- R368. Every 0x1017 milliseconds the CANopen path sends its heartbeat with state operational. -/
  | heartbeatProducerTimer
  /-- R152. A link carrier MAC receives an ARP or Neighbour Discovery frame and answers for its local address or resolves the gateway. -/
  | arpNdFrameReceived (mac : Fin 16) (isReply : Bool) (addr : List Byte)
  /-- R39. At each sync and peer-delay interval the device sends two-step Sync as grandmaster or a peer-delay request on a gPTP MAC. -/
  | gptpSyncTimer (mac : Fin 16) (pdelay : Bool)
  /-- R345. A flit arrives whose CRC-32C fails; it is dropped, a NAK reason 1 is sent, and more than 10,000 such failures in a second retrain the link. -/
  | flitCheckFailed (k : Fin 8)
  /-- R344. An IDLE flit arrives carrying ACK and returned credits, releasing replay-buffer entries and credits for waiting flits. -/
  | idleFlitReceived (k : Fin 8) (flit : Flit)
  /-- R406. The reference clock returns after a loss and chip time passes back from the Husk counter to the 1 GHz counter. -/
  | referenceClockReturn
  /-- R451. The 32.768 kHz crystal starts running after PORST_N rises, so that entries to STANDBY or SLEEP are no longer abandoned busy. -/
  | crystalRunning
  /-- R450. A rail enters its window after its enable, so the Husk raises the next enable or releases the core 100 µs after the last. -/
  | railInWindow (group : Fin 4)
  /-- R429. A wake source changes back before its qualification time, ending the wake, returning the device to its state and discarding the Husk records. -/
  | wakeQualificationFailed (src : WakeSrc)
  /-- R335. A write of 1 to XB_ERR_INFO.VALID clears the capture and re-arms it for the next error response, with a same-cycle error winning. -/
  | xbErrInfoClear (master : MasterN) (v : BitVec 32)
  /-- R402. A health test of the true random source ends; on a failure it is logged and random output is withheld, and on a pass output resumes. -/
  | randomSourceHealthTest (pass : Bool)
  /-- R461. An IEEE 1149.1 or 1149.6 instruction such as EXTEST, CLAMP, HIGHZ or SAMPLE is shifted in over TCK and acts on the boundary register. -/
  | testPortInstruction (instr : TestInstr) (data : List Bool)
  deriving DecidableEq, Repr

end Sys2Proof
end

