-- ==== Sys2Proof/Machine/Dict.lean ====
section
/-! DEFINITION. The object dictionary's table: every object's index, subindices, type, access, default and range (17 R381-R384 and the object
tables of the other chapters), and which objects are profile-scoped or written in IDLE only (17 R385). -/

namespace Sys2Proof.Machine

/-- Access codes (00 R11). -/
inductive Access_ where
  | ro
  | rw
  | wo
  | sc
  deriving DecidableEq, Repr

/-- One row: `n` indices from `idx`, `m` subindices from `sub`, `size` bytes (0: DOMAIN or VISIBLE_STRING), signed or not, default and
range. Values are held as their bytes read least significant first (17 R366). -/
structure DictRow where
  idx : Nat
  n : Nat
  sub : Nat
  m : Nat
  size : Nat
  signed : Bool
  acc : Access_
  dflt : Nat
  lo : Int
  hi : Int
  deriving DecidableEq, Repr

/-- An unsigned object. -/
def uns (acc : Access_) (idx n sub m size dflt lo hi : Nat) : DictRow := ⟨idx, n, sub, m, size, false, acc, dflt, lo, hi⟩

/-- An unsigned object of full range. -/
def full (acc : Access_) (idx n sub m size dflt : Nat) : DictRow := uns acc idx n sub m size dflt 0 (2 ^ (8 * size) - 1)

/-- A signed object. -/
def sgn (acc : Access_) (idx n sub m size : Nat) (dflt : Nat) (lo hi : Int) : DictRow := ⟨idx, n, sub, m, size, true, acc, dflt, lo, hi⟩

/-- Highest subindex, at subindex 0 (17 R381 and every table). -/
def top (idx n v : Nat) : DictRow := uns .ro idx n 0 1 1 v v v

open Access_ in
/-- 17 R381, R374, R380: communication, identity, session and command objects. -/
def dictA : List DictRow :=
  [full ro 0x1000 1 0 1 4 0, uns ro 0x1001 1 0 1 1 0 0 1, uns ro 0x1008 1 0 1 0 0 0 0, full rw 0x1017 1 0 1 2 1000,
   top 0x1018 1 4, full ro 0x1018 1 1 1 4 0x0C5A, full ro 0x1018 1 2 1 4 0x1024, full ro 0x1018 1 3 2 4 0,
   top 0x2000 1 5, full ro 0x2000 1 1 1 8 0, full ro 0x2000 1 2 1 4 0x00541024, full ro 0x2000 1 3 1 1 1, full ro 0x2000 1 4 2 4 0,
   top 0x2001 1 5, uns ro 0x2001 1 1 1 1 0 0 4, uns ro 0x2001 1 2 1 1 0 0 31, uns ro 0x2001 1 3 1 1 0 0 1, full ro 0x2001 1 4 2 4 0,
   top 0x2002 1 3, uns rw 0x2002 1 1 1 1 0 0 95, uns rw 0x2002 1 2 1 1 1 1 127, uns rw 0x2002 1 3 1 1 1 0 1,
   top 0x2010 1 1, full wo 0x2010 1 1 1 4 0,
   top 0x2020 1 3, full rw 0x2020 1 1 3 2 0xFFFF]

open Access_ in
/-- 19 R441: power, wake and reset objects. -/
def dictB : List DictRow :=
  [top 0x2100 1 4, uns rw 0x2100 1 1 1 2 1 0 0x3FFF, full rw 0x2100 1 2 1 1 0, uns rw 0x2100 1 3 1 1 0 0 1, uns rw 0x2100 1 4 1 1 1 0 1,
   top 0x2101 1 5, uns rw 0x2101 1 1 1 1 0 0 4, uns ro 0x2101 1 2 1 1 0 0 3, uns ro 0x2101 1 3 1 1 0 0 4, uns ro 0x2101 1 4 1 1 0 0 2,
   uns ro 0x2101 1 5 1 2 850 600 850,
   top 0x2102 1 4, full ro 0x2102 1 1 1 2 0, full ro 0x2102 1 2 1 4 0, full ro 0x2102 1 3 2 2 0,
   top 0x2103 1 3, full ro 0x2103 1 1 2 4 0, uns ro 0x2103 1 3 1 1 0 0 3]

open Access_ in
/-- 02 R43: time-base objects. -/
def dictC : List DictRow :=
  [top 0x2200 1 4, uns rw 0x2200 1 1 1 1 3 0 15, uns rw 0x2200 1 2 1 1 0 0 1, uns rw 0x2200 1 3 1 1 0 0 15, uns rw 0x2200 1 4 1 1 0 0 127,
   top 0x2201 1 3, full ro 0x2201 1 1 1 4 0x00040000, sgn ro 0x2201 1 2 1 4 2147483647 (-2147483648) 2147483647,
   sgn ro 0x2201 1 3 1 4 0 (-200000) 200000,
   top 0x2202 1 2, full ro 0x2202 1 1 1 4 0, full ro 0x2202 1 2 1 6 0,
   top 0x2210 1 8, full rw 0x2210 1 1 1 4 0, full rw 0x2210 1 2 2 6 0, uns rw 0x2210 1 4 1 4 0 0 999999999, uns rw 0x2210 1 5 1 1 0 0 3,
   sgn rw 0x2210 1 6 1 2 37 (-32768) 32767, uns ro 0x2210 1 7 1 1 0 0 3, uns wo 0x2210 1 8 1 1 0 1 1]

open Access_ in
/-- 04 R88: classifier objects and table windows. -/
def dictD : List DictRow :=
  [top 0x2300 1 4, uns wo 0x2300 1 1 1 1 0 1 1, uns sc 0x2300 1 2 1 1 0 0 1, uns ro 0x2300 1 3 1 1 0 0 7, full ro 0x2300 1 4 1 4 0,
   top 0x2301 1 7, full ro 0x2301 1 1 7 4 0,
   top 0x3000 128 128, full rw 0x3000 128 1 128 18 0, top 0x3100 512 128, full rw 0x3100 512 1 128 24 0]

open Access_ in
/-- 17 R382: port objects. -/
def dictE : List DictRow :=
  [top 0x2310 96 15, top 0x2370 32 9, top 0x2390 32 6, top 0x23B0 8 8, top 0x23C0 16 19,
   uns rw 0x2310 168 1 1 1 0 0 1, uns rw 0x2310 168 2 1 1 0 0 31, uns rw 0x2310 168 3 1 1 1 0 3, sgn rw 0x2310 168 4 1 2 0 (-1023) 1023,
   uns rw 0x23C0 16 1 1 1 0 0 1, uns rw 0x23C0 16 2 1 1 0 0 31, uns rw 0x23C0 16 3 1 1 1 0 3, sgn rw 0x23C0 16 4 1 2 0 (-1023) 1023,
   uns rw 0x2310 96 5 1 1 0 0 2, uns rw 0x2310 96 6 1 2 500 10 1000, uns rw 0x2310 96 7 1 2 800 500 900,
   uns rw 0x2310 96 8 1 2 2000 500 8000, uns rw 0x2310 96 9 1 2 700 500 900, uns rw 0x2310 96 10 1 2 0 0 20000,
   uns rw 0x2310 96 11 1 1 0 0 1, uns rw 0x2310 96 12 1 1 25 10 45, uns rw 0x2310 96 13 1 1 1 0 1, uns rw 0x2310 96 14 1 1 0 0 1,
   uns rw 0x2310 8 15 1 1 1 0 1, uns rw 0x2318 88 15 1 1 0 0 0,
   uns rw 0x2370 32 5 1 1 4 0 5, full rw 0x2370 32 6 1 4 0, full rw 0x2370 32 7 1 2 0, full rw 0x2370 32 8 1 1 0, full rw 0x2370 32 9 1 8 0,
   uns rw 0x2390 32 5 1 1 2 0 2, uns rw 0x2390 32 6 1 2 0 0 1023,
   uns rw 0x23B0 8 5 1 1 16 8 32, uns rw 0x23B0 8 6 1 1 1 1 64, uns rw 0x23B0 8 7 1 4 100000 16000 1000000000, uns rw 0x23B0 8 8 1 1 0 0 1,
   uns rw 0x23C0 16 5 1 1 0 0 6, uns rw 0x23C0 16 6 1 1 0 0 2, uns rw 0x23C0 16 7 1 2 0 0 9212, full rw 0x23C0 16 8 12 2 0]

open Access_ in
/-- 06 R133: replay objects. -/
def dictF : List DictRow :=
  [top 0x2400 1 16, uns rw 0x2400 1 1 1 1 0 0 1, uns rw 0x2400 1 2 1 1 0 0 2, uns rw 0x2400 1 3 1 4 1 1 0xFFFFFFFE, full rw 0x2400 1 4 1 8 0,
   full rw 0x2400 1 5 3 4 0, full rw 0x2400 1 8 1 6 0, full rw 0x2400 1 9 1 4 0xFFFFFFFF, full rw 0x2400 1 10 1 6 0xFFFFFFFFFFFF,
   uns rw 0x2400 1 11 1 1 0 0 1, uns rw 0x2400 1 12 1 2 100 10 10000, uns rw 0x2400 1 13 1 2 1024 256 16384,
   uns rw 0x2400 1 14 1 4 1 1 0xFFFFFFFE, full rw 0x2400 1 15 1 8 0, full rw 0x2400 1 16 1 4 0,
   top 0x2401 1 12, uns ro 0x2401 1 1 1 1 0 0 6, uns ro 0x2401 1 2 1 1 0 0 7, sgn ro 0x2401 1 3 1 8 0 (-9223372036854775808) 9223372036854775807,
   full ro 0x2401 1 4 9 4 0, top 0x3400 2 128, full rw 0x3400 2 1 128 12 (2000 * 2 ^ 56)]

open Access_ in
/-- 05 R113: store objects. -/
def dictG : List DictRow :=
  [top 0x2500 1 9, uns rw 0x2500 1 1 1 1 2 0 3, uns rw 0x2500 1 2 1 2 1000 100 60000, uns rw 0x2500 1 3 1 2 10 1 1000, uns rw 0x2500 1 4 1 2 64 1 65535,
   uns rw 0x2500 1 5 1 2 10000 100 60000, uns rw 0x2500 1 6 1 2 100 10 1000, uns rw 0x2500 1 7 1 2 2048 256 29124,
   uns rw 0x2500 1 8 1 2 500 50 5000, uns rw 0x2500 1 9 1 1 1 0 1,
   top 0x2502 1 6, uns rw 0x2502 1 1 1 4 1 1 0xFFFFFFFE, full rw 0x2502 1 2 1 8 0, full rw 0x2502 1 3 1 4 0,
   uns rw 0x2502 1 4 1 4 1 1 0xFFFFFFFE, full rw 0x2502 1 5 1 8 0, full rw 0x2502 1 6 1 4 0,
   top 0x2503 1 10, uns ro 0x2503 1 1 1 1 0 0 100, uns ro 0x2503 1 2 1 1 0 0 4, uns ro 0x2503 1 3 2 1 0 0 3, full ro 0x2503 1 5 1 8 0xFFFFFFFFFFFFFFFF,
   full ro 0x2503 1 6 3 4 0, uns ro 0x2503 1 9 1 1 0 0 1, full ro 0x2503 1 10 1 1 255]

open Access_ in
/-- 07 R152: link objects. -/
def dictH : List DictRow :=
  [top 0x2600 1 9, uns rw 0x2600 1 1 1 4 2000000 64 2000000, uns rw 0x2600 1 2 1 4 1000 16 2000000, uns rw 0x2600 1 3 1 2 1400 256 8900,
   uns rw 0x2600 1 4 1 2 200 20 3000, uns rw 0x2600 1 5 1 1 6 0 6, uns rw 0x2600 1 6 1 1 31 0 31, uns rw 0x2600 1 7 1 4 3600 60 86400,
   uns rw 0x2600 1 8 1 2 50 10 500, uns rw 0x2600 1 9 1 2 10 1 100,
   top 0x2601 1 11, uns ro 0x2601 1 1 2 1 0 0 4, full ro 0x2601 1 3 1 4 0, uns ro 0x2601 1 4 1 1 0 0 5, full ro 0x2601 1 5 1 4 0,
   sgn ro 0x2601 1 6 1 8 0 (-9223372036854775808) 9223372036854775807, full ro 0x2601 1 7 5 4 0,
   top 0x2610 4 9, uns rw 0x2610 4 1 1 1 0 0 1, uns rw 0x2610 4 2 1 1 0 0 15, uns rw 0x2610 4 3 1 1 6 4 6, full rw 0x2610 4 4 3 16 0,
   uns rw 0x2610 4 7 2 2 47000 1 65535, uns rw 0x2610 4 9 1 2 1500 576 9000,
   top 0x2620 1 4, full rw 0x2620 1 1 4 48 0, top 0x3600 32 128, full rw 0x3600 32 1 128 6 0]

open Access_ in
/-- 16 R363: fabric objects. -/
def dictI : List DictRow :=
  [top 0x2700 1 14, full rw 0x2700 1 1 1 1 0, uns rw 0x2700 1 2 1 1 0 0 1, full rw 0x2700 1 3 1 1 0, full rw 0x2700 1 4 1 1 128,
   uns rw 0x2700 1 5 1 1 0 0 2, uns rw 0x2700 1 6 1 1 0 0 0, sgn rw 0x2700 1 7 8 2 0 (-1023) 1023,
   top 0x2701 1 12, uns ro 0x2701 1 1 1 1 0 0 3, full ro 0x2701 1 2 1 2 0xFFFF, full ro 0x2701 1 3 1 2 0, full ro 0x2701 1 4 1 8 0,
   full ro 0x2701 1 5 1 2 0xFFFF, full ro 0x2701 1 6 1 1 255, full ro 0x2701 1 7 1 2 0, full ro 0x2701 1 8 5 4 0,
   top 0x2702 1 16, full rw 0x2702 1 1 16 12 0,
   top 0x2710 8 8, uns ro 0x2710 8 1 1 1 0 0 6, full ro 0x2710 8 2 1 8 0, full ro 0x2710 8 3 1 2 0xFFFF, full ro 0x2710 8 4 5 4 0,
   top 0x3700 8 128, full rw 0x3700 8 1 128 6 0]

open Access_ in
/-- 17 R395: profile objects. -/
def dictJ : List DictRow :=
  [top 0x2800 1 12, full ro 0x2800 1 1 1 1 255, uns ro 0x2800 1 2 1 1 0 0 15, uns wo 0x2800 1 3 1 1 0 0 7, full ro 0x2800 1 4 1 1 0,
   uns rw 0x2800 1 5 1 2 150 10 10000, uns rw 0x2800 1 6 1 1 0 0 1, uns rw 0x2800 1 7 1 1 0 0 31, uns ro 0x2800 1 8 1 1 0 0 7,
   uns rw 0x2800 1 9 1 1 8 0 8, uns ro 0x2800 1 10 1 1 0 0 4, full ro 0x2800 1 11 1 4 0, full ro 0x2800 1 12 1 6 0]

open Access_ in
/-- 18 R419: Pestle's objects. -/
def dictK : List DictRow :=
  [top 0x2900 1 3, uns ro 0x2900 1 1 1 1 15 0 15, sgn ro 0x2900 1 2 1 2 0 (-640) 2400, full ro 0x2900 1 3 1 4 0,
   top 0x2901 1 2, uns ro 0x2901 1 1 1 1 0 0 2, uns ro 0x2901 1 2 1 1 0 0 9,
   top 0x2910 1 4, full ro 0x2910 1 1 1 8 0, full ro 0x2910 1 2 1 97 0, full ro 0x2910 1 3 1 48 0, uns ro 0x2910 1 4 1 0 0 0 0,
   top 0x2911 1 2, full rw 0x2911 1 1 1 48 0, full ro 0x2911 1 2 1 48 0,
   top 0x2912 1 7, uns wo 0x2912 1 1 1 0 0 0 0, full ro 0x2912 1 2 1 4 0, uns wo 0x2912 1 3 1 1 0 1 4, uns ro 0x2912 1 4 1 1 0 0 12,
   uns ro 0x2912 1 5 1 1 0 0 1, full ro 0x2912 1 6 1 1 0, uns ro 0x2912 1 7 1 1 0 0 64,
   top 0x2913 1 3, uns wo 0x2913 1 1 1 0 0 0 0, full ro 0x2913 1 2 1 2 0, full wo 0x2913 1 3 1 8 0,
   top 0x2920 1 46, sgn ro 0x2920 1 1 16 2 0 (-640) 2400, uns ro 0x2920 1 17 24 2 0 0 2000, full ro 0x2920 1 41 6 4 0,
   top 0x2930 1 6, full ro 0x2930 1 1 1 2 0, full rw 0x2930 1 2 1 2 0, full ro 0x2930 1 3 1 16 0, full ro 0x2930 1 4 1 4 0, uns ro 0x2930 1 5 1 2 0 0 8192,
   uns rw 0x2930 1 6 1 1 2 0 5,
   top 0x2960 1 2, uns rw 0x2960 1 1 1 1 0 0 1, uns rw 0x2960 1 2 1 1 3 2 255]

open Access_ in
/-- 14 R323, 15 R339, 08 R180, 13 R296, 17 R383: memory, crossbar, pod and image objects. -/
def dictL : List DictRow :=
  [top 0x2940 1 9, full ro 0x2940 1 1 3 4 0, full ro 0x2940 1 4 1 2 0, full ro 0x2940 1 5 2 4 0, uns ro 0x2940 1 7 1 2 0 0 2048,
   uns rw 0x2940 1 8 1 1 0 0 1, uns ro 0x2940 1 9 1 2 0 0 2048,
   top 0x2950 1 4, full ro 0x2950 1 1 4 4 0,
   top 0x2A00 1 2, full ro 0x2A00 1 1 2 4 0,
   top 0x2A01 32 7, uns ro 0x2A01 32 1 1 1 0 0 4, full ro 0x2A01 32 2 1 4 0, full ro 0x2A01 32 3 1 2 0, full ro 0x2A01 32 4 4 4 0,
   top 0x2A21 1 4, uns ro 0x2A21 1 1 1 1 0 0 9, uns ro 0x2A21 1 2 1 1 0 0 255, uns ro 0x2A21 1 3 1 2 0 0 1023, full ro 0x2A21 1 4 1 2 2,
   top 0x2A40 32 3, full rw 0x2A40 32 1 1 8 0, uns rw 0x2A40 32 2 1 1 0 0 31, uns rw 0x2A40 32 3 1 1 1 0 3]

/-- The whole table. -/
def dictTable : List DictRow :=
  dictA ++ dictB ++ dictC ++ dictD ++ dictE ++ dictF ++ dictG ++ dictH ++ dictI ++ dictJ ++ dictK ++ dictL

/-- The row that holds an index and subindex. -/
def dictRow (idx sub : Nat) : Option DictRow :=
  dictTable.find? fun r => r.idx ≤ idx && idx < r.idx + r.n && r.sub ≤ sub && sub < r.sub + r.m

/-- Whether any row defines the index (17 R470 check 2). -/
def dictHasIndex (idx : Nat) : Bool := dictTable.any fun r => r.idx ≤ idx && idx < r.idx + r.n

/-- The default of an object, where it depends on the index (17 R382, R383). -/
def dictDefault (idx sub : Nat) : Nat :=
  if 0x2310 ≤ idx && idx < 0x23D0 && sub = 2 then (idx - 0x2310) % 32
  else if idx = 0x2310 && sub = 5 then 2
  else if 0x2A40 ≤ idx && idx < 0x2A60 && sub = 2 then (idx - 0x2A40 + 1) % 32
  else if idx = 0x3401 && 1 ≤ sub && 0x28 ≤ sub - 1 && (sub - 1 < 0x30 || 0x40 ≤ sub - 1) then 0
  else match dictRow idx sub with
    | some r => r.dflt
    | none => 0

/-- Profile-scoped objects (17 R385, 19 R441). -/
def profileScoped (idx sub : Nat) : Bool :=
  idx = 0x2002 || idx = 0x2100 || idx = 0x2200 || (0x2310 ≤ idx && idx ≤ 0x23CF) || idx = 0x2400 || idx = 0x2500 || idx = 0x2502 ||
  idx = 0x2600 || (0x2610 ≤ idx && idx ≤ 0x2620) || idx = 0x2700 || (idx = 0x2800 && sub = 7) || (0x2A40 ≤ idx && idx ≤ 0x2A5F) ||
  (0x3000 ≤ idx && idx ≤ 0x32FF) || (0x3400 ≤ idx && idx ≤ 0x3401) || (0x3600 ≤ idx && idx ≤ 0x361F) || (0x3700 ≤ idx && idx ≤ 0x3707)

/-- Device-scoped objects that can be written in IDLE only (14 R323, 16 R363, 18 R419). -/
def deviceIdleOnly (idx sub : Nat) : Bool :=
  idx = 0x2702 || idx = 0x2911 || idx = 0x2912 || idx = 0x2913 || idx = 0x2960 || (idx = 0x2930 && sub = 6) || (idx = 0x2940 && sub = 8)

/-- The key of an object in the store of values. -/
def odKey (idx sub : Nat) : Nat := idx * 256 + sub

/-- The checks of an object's own field rule beyond its range (17 R470 point 5): 05 R113, 06 R133, 07 R152, 16 R359, R360, 07 R135, 17 R374, R382,
19 R441, 06 R132. -/
def fieldOk (idx sub v : Nat) : Bool :=
  if idx = 0x2100 && sub = 2 then v % 4 != 3 && v / 4 % 4 != 3 && v / 16 % 4 != 3 && v / 64 % 4 != 3
  else if idx = 0x2500 && sub = 7 then v % 4 = 0
  else if idx = 0x2400 && sub = 13 then v % 4 = 0
  else if idx = 0x2400 && (sub = 5 || sub = 16) then v = 0 || 64 ≤ v
  else if idx = 0x2502 && (sub = 3 || sub = 6) then v = 0 || 64 ≤ v
  else if idx = 0x2020 then v ≤ 255 || v = 0xFFFF
  else if 0x2610 ≤ idx && idx ≤ 0x2613 && sub = 3 then v = 4 || v = 6
  else if 0x2310 ≤ idx && idx < 0x2370 && sub = 10 then v = 0 || 500 ≤ v
  else if idx = 0x2702 then
    if bits v 80 2 = 0 then bits v 82 14 = 0
    else bits v 82 14 = 0 && bits v 0 8 = 0 && bits v 40 8 = 255 && bits v 0 40 ≤ bits v 40 40
  else if idx = 0x3400 || idx = 0x3401 then
    let p := (idx - 0x3400) * 128 + sub - 1
    if p < 0xA8 || (0xB0 ≤ p && p < 0xC0) then 100 ≤ bits v 56 16 && bits v 56 16 ≤ 20000 && bits v 0 6 = 0
    else v = 0
  else if 0x3600 ≤ idx && idx ≤ 0x361F then bits v 0 15 = 0 && (bits v 46 2 != 3 || bits v 38 8 = 0) && (bits v 46 2 = 2 || bits v 25 5 = 0)
  else if 0x3700 ≤ idx && idx ≤ 0x3707 then bits v 0 12 = 0 && (bits v 46 2 != 2 || bits v 38 8 = 0)
  else true

end Sys2Proof.Machine
end

