-- ==== Sys2Proof/Config.lean ====
section
/-! DEFINITION. What an implementation or the world outside fixes, and the free values: constants without a body, so that nothing can be proved
of a value the spec leaves open. -/

namespace Sys2Proof

/-- Free value number `n` of the run, for the use `u` (log entry 2). -/
opaque Config.freeValue : Nat → Nat → Nat

/-- Severity of an event-log entry by KIND, REF and VALUE (18 R407 gives the coding, no rule gives an event its severity). -/
opaque Config.severity : Nat → Nat → Nat → Fin 5

/-- Calibrated input delay of a port's path after calibration `g` (02 R30, R31). -/
opaque Config.inputDelay : Nat → Nat → Nat

/-- Calibrated output delay of a port's path after calibration `g` (02 R30, 06 R120). -/
opaque Config.outputDelay : Nat → Nat → Nat

/-- Priority values 1 and 2 that this device announces as a gPTP grandmaster; 02 R39 takes them from the profile, and no object holds them. -/
opaque Config.gptpPriority : Nat × Nat

/-- Phase of a MAC's permitted start positions against chip time, in fifths of a tick (06 R120). -/
opaque Config.startPhase : Nat → Nat

/-- SHA-384 (FIPS 180-4). -/
opaque Config.sha384 : List Byte → List Byte

/-- ECDSA P-384 signature r, s by the identity key over a message, each 48 bytes; the second argument numbers the signature (FIPS 186-5). -/
opaque Config.ecdsaSign : List Byte → Nat → List Byte

/-- ECDSA P-384 verification: public key, message, signature. -/
opaque Config.ecdsaVerify : List Byte → List Byte → List Byte → Bool

/-- Public half of the ephemeral key numbered `n` (07 R142). -/
opaque Config.ecdhPublic : Nat → List Byte

/-- x-coordinate of the ECDH point of ephemeral key `n` and a peer's public key. -/
opaque Config.ecdhShared : Nat → List Byte → List Byte

/-- AES-256-GCM: key, IV, additional data, plaintext; gives ciphertext and 16-byte tag. -/
opaque Config.gcmSeal : List Byte → List Byte → List Byte → List Byte → List Byte × List Byte

/-- AES-256-GCM: key, IV, additional data, ciphertext, tag; the plaintext when the tag holds. -/
opaque Config.gcmOpen : List Byte → List Byte → List Byte → List Byte → List Byte → Option (List Byte)

/-- Random byte `i` of draw `n` of the true random source (18 R402). -/
opaque Config.random : Nat → Nat → Byte

/-- POLY and initial remainder of CHK.CFG PRESET 1 to 5, which 09 R198 takes from ISO 11898-1:2024. -/
opaque Config.canPreset : Nat → BitVec 32 × BitVec 32

/-- Contents of the boot ROM. -/
opaque Config.bootRom : Nat → Byte

/-- What a DRAM byte that nothing has written since power-on gives a read numbered `n` (14 R312). -/
opaque Config.dramByte : Nat → Nat → Byte

/-- Whether a read numbered `n` of a DRAM block with such a byte is uncorrectable (14 R312). -/
opaque Config.dramFails : Nat → Nat → Bool

/-- Usable DRAM in bytes (14 R312). -/
opaque Config.dramUsable : Nat

/-- Namespace ID and size in logical blocks of the namespace of SSD `k` (05 R109, R113). -/
opaque Config.namespaceId : Nat → Nat
opaque Config.namespaceLbas : Nat → Nat

/-- Logical blocks in a slot of 4 MiB on SSD `k`'s namespace: 8,192 or 1,024 for the formats that are used (05 R109, 06 R128). -/
opaque Config.slotLbas : Nat → Nat

/-- Most logical blocks in one Read or Write of SSD `k`, from its MDTS; 0 for no limit (05 R109). -/
opaque Config.transferLbas : Nat → Nat

/-- Whether SSD `k` reports a volatile write cache (05 R109). -/
opaque Config.volatileCache : Nat → Bool

/-- Stepping B0, or A1 (17 R381). -/
opaque Config.isB0 : Bool

/-- 64-bit unique identifier (18 R403). -/
opaque Config.uid : BitVec 64

/-- Identity public key, uncompressed (18 R403). -/
opaque Config.identityKey : List Byte

/-- Device certificate (18 R403). -/
opaque Config.certificate : List Byte

/-- Firmware-key hash in fuses (18 R403). -/
opaque Config.firmwareKeyHash : List Byte

/-- One less than the version of the firmware the part was delivered with, which is never 0 (17 R381). -/
opaque Config.deliveredRelease : Fin 4294967295

/-- Version of the firmware the part was delivered with. -/
def Config.deliveredVersion : BitVec 32 := BitVec.ofNat 32 (Config.deliveredRelease.val + 1)

/-- The firmware image the part was delivered with. -/
opaque Config.deliveredImage : List Byte

/-- One less than the boot ROM version, which is never 0 (17 R381). -/
opaque Config.bootRomRelease : Fin 4294967295

/-- Boot ROM version. -/
def Config.bootRomVersion : BitVec 32 := BitVec.ofNat 32 (Config.bootRomRelease.val + 1)

/-- Free image-store units of the flash before any image is written (18 R419). -/
opaque Config.imageUnits : Nat

/-- Whether a PCIe controller runs as an endpoint, and whether it has enabled an outbound offset (15 R332, 20 R458). -/
opaque Config.pcieEndpoint : Nat → Bool

/-- Whether a PCIe controller in root-port mode has enabled an outbound offset (15 R332). -/
opaque Config.pcieEnabled : Nat → Nat → Bool

/-- SEQ of the first segment of a source session of which the model's media show nothing: SSD setting and session number (06 R115). -/
opaque Config.sourceFirst : Nat → Nat → Nat

/-- Data of a CAN FD frame that answers a USDO frame, as CiA 1301 lays it out: number of the free value, abort code, if any, and data (17 R368). -/
opaque Config.usdoFrame : Nat → Option (BitVec 32) → List Byte → List Byte

/-- Longest value of an expedited USDO upload, and the most bytes of one segment, as CiA 1301 gives them (17 R368). -/
opaque Config.usdoExpedited : Nat
opaque Config.usdoSegment : Nat

/-- Public half of the image key, by its fused SHA-384 hash (13 R286, 18 R404). -/
opaque Config.imageKey : List Byte → List Byte

/-- Whether bytes `first` to `last` of the address map overlap what the device itself uses: the DRAM ring, the read-ahead region, the staging
partitions of the data plane (13 R287, code 8). -/
opaque Config.deviceUses : Nat → Nat → Bool

/-- MACRO of the boot ROM in the log, for which 14 R319 gives no value. -/
opaque Config.romMacro : BitVec 24

/-- First bytes of the DRAM ring and of the read-ahead region, as offsets into DRAM: where Pestle puts them no rule says (14 R302). -/
opaque Config.ringFrom : Nat
opaque Config.readAheadFrom : Nat

/-- Spares of a macro that fuses assigned at production (14 R319). -/
opaque Config.fuseSpares : Nat → Nat

/-- Body of a NAK for a frame, by KEYNO and SEQ, which no rule lays out (07 R141). -/
opaque Config.nakBody : Nat → Nat → List Byte

/-- KEYNO and SEQ that the body of a NAK names. -/
opaque Config.nakRead : List Byte → Option (Nat × Nat)

/-- Number of bytes the SHA-384 of a message has, and other fixed lengths, are made exact by padding or cutting. -/
def fit (n : Nat) (l : List Byte) : List Byte := slice l 0 n

/-- SHA-384 as 48 bytes. -/
def sha384 (l : List Byte) : List Byte := fit 48 (Config.sha384 l)

end Sys2Proof
end

