-- ==== Sys2Proof/Machine/Codes.lean ====
section
/-! DEFINITION. Codes and comparisons the spec gives in full: serial-number arithmetic (02 R45), CRC-32C (04 R73), GF(2^8) and Reed-Solomon
codes (07 R139, 14 R309, R312), and the byte codeword of SRAM (14 R305, R306). -/

namespace Sys2Proof.Machine

/-- Serial-number comparison of `n`-bit values: what `b` is relative to `a` (02 R45). -/
def serial (n a b : Nat) : Serial :=
  let d := (b + 2 ^ n - a % 2 ^ n) % 2 ^ n
  if d = 0 then .equal else if d < 2 ^ (n - 1) then .later else if d = 2 ^ (n - 1) then .unordered else .earlier

/-- A 48-bit target compared against chip time: equal, earlier or unordered is due at once (02 R46). -/
def tickDue (now target : Nat) : Bool :=
  match serial 48 now target with
  | .later => false
  | _ => true

/-- One bit step of the reflected CRC-32C. -/
def crcBit (c : BitVec 32) : BitVec 32 := if c.getLsbD 0 then (c >>> 1) ^^^ 0x82F63B78 else c >>> 1

/-- One byte of CRC-32C. -/
def crcByte (c : BitVec 32) (b : Byte) : BitVec 32 :=
  crcBit (crcBit (crcBit (crcBit (crcBit (crcBit (crcBit (crcBit (c ^^^ b.zeroExtend 32))))))))

/-- CRC-32C with initial value and final XOR 0xFFFF_FFFF (04 R73). -/
def crc32c (l : List Byte) : BitVec 32 := (l.foldl crcByte 0xFFFFFFFF) ^^^ 0xFFFFFFFF

/-- One bit step of the reflected CRC-32 of Ethernet. -/
def fcsBit (c : BitVec 32) : BitVec 32 := if c.getLsbD 0 then (c >>> 1) ^^^ 0xEDB88320 else c >>> 1

/-- One byte of it. -/
def fcsByte (c : BitVec 32) (b : Byte) : BitVec 32 := fcsBit (fcsBit (fcsBit (fcsBit (fcsBit (fcsBit (fcsBit (fcsBit (c ^^^ b.zeroExtend 32))))))))

/-- Frame check sequence of an Ethernet frame's bytes, in the order sent. PRESUMED: IEEE 802.3 (log entry 66). -/
def ethFcs (l : List Byte) : List Byte := leBytes 4 (((l.foldl fcsByte 0xFFFFFFFF) ^^^ 0xFFFFFFFF).toNat)

/-- One nibble of the SENT CRC: multiply by x^4 modulo x^4 + x^3 + x^2 + 1, then add the nibble. PRESUMED: SAE J2716 (log entry 66). -/
def sentCrcStep (c n : Nat) : Nat := ([0, 13, 7, 10, 14, 3, 9, 4, 1, 12, 6, 11, 15, 2, 8, 5].getD c 0) ^^^ n

/-- SENT CRC of data nibbles, seed 5; the recommended form adds a zero nibble. PRESUMED: SAE J2716 (log entry 66). -/
def sentCrc (recommended : Bool) (l : List Nat) : Nat :=
  let c := l.foldl sentCrcStep 5
  if recommended then sentCrcStep c 0 else c

/-- LIN checksum: the inverted sum with carry of the data bytes, with the protected identifier before them in the enhanced form. PRESUMED: ISO 17987
(log entry 66). -/
def linChecksum (enhanced : Bool) (pid : Byte) (l : List Byte) : Byte :=
  let c := ((if enhanced then pid :: l else l).map (·.toNat)).foldl (fun a b => if 255 < a + b then a + b - 255 else a + b) 0
  BitVec.ofNat 8 (255 - c)

/-- Product by x in GF(2^8) with x^8 + x^4 + x^3 + x^2 + 1 (07 R139, 14 R309). -/
def gfDouble (a : Byte) : Byte := if a.getLsbD 7 then (a <<< 1) ^^^ 0x1D else a <<< 1

/-- Product in GF(2^8), over the bits of `b` from bit `n` - 1 down. -/
def gfMulAux (a b : Byte) : Nat → Byte
  | 0 => 0
  | n + 1 => gfDouble (gfMulAux a (b >>> 1) n) ^^^ (if b.getLsbD 0 then a else 0)

/-- Product in GF(2^8). -/
def gfMul (a b : Byte) : Byte := gfMulAux a b 8

/-- Power in GF(2^8). -/
def gfPow (a : Byte) : Nat → Byte
  | 0 => 1
  | n + 1 => gfMul a (gfPow a n)

/-- Inverse in GF(2^8): a^254. -/
def gfInv (a : Byte) : Byte :=
  let a2 := gfMul a a
  let a4 := gfMul a2 a2
  let a8 := gfMul a4 a4
  let a16 := gfMul a8 a8
  let a32 := gfMul a16 a16
  let a64 := gfMul a32 a32
  let a128 := gfMul a64 a64
  gfMul a128 (gfMul a64 (gfMul a32 (gfMul a16 (gfMul a8 (gfMul a4 a2)))))

/-- Evaluate the polynomial whose coefficients are listed from the highest power (14 R309). -/
def gfEval (l : List Byte) (x : Byte) : Byte := l.foldl (fun acc c => gfMul acc x ^^^ c) 0

/-- One step of the division by g(x) = (x - 1)(x - a)(x - a^2)(x - a^3), whose coefficients below x^4 are 0x0F 0x36 0x78 0x40 from x^3 down. -/
def rsStep (r : Byte × Byte × Byte × Byte) (d : Byte) : Byte × Byte × Byte × Byte :=
  let f := r.1 ^^^ d
  (r.2.1 ^^^ gfMul f 0x0F, r.2.2.1 ^^^ gfMul f 0x36, r.2.2.2 ^^^ gfMul f 0x78, gfMul f 0x40)

/-- The four check bytes of a line or block (14 R309, R312). -/
def rsCheck (l : List Byte) : List Byte :=
  let r := l.foldl rsStep (0, 0, 0, 0)
  [r.1, r.2.1, r.2.2.1, r.2.2.2]

/-- Syndromes of a received word at 1, a, a^2, a^3. -/
def rsSyndromes (l : List Byte) : List Byte := [gfEval l 1, gfEval l 2, gfEval l 4, gfEval l 8]

/-- Solve for the values at known positions (locators `xs`) from the syndromes by elimination: `k` equations of `k` unknowns, each row a
coefficient list and a right side. -/
def gfSolve : Nat → List (List Byte × Byte) → Option (List Byte)
  | 0, _ => some []
  | n + 1, rows =>
    match rows.find? (fun r => r.1.headD 0 != 0) with
    | none => none
    | some p =>
      let inv := gfInv (p.1.headD 0)
      let prow := p.1.map (gfMul inv)
      let pval := gfMul inv p.2
      let others := (rows.erase p).map fun r =>
        let f := r.1.headD 0
        ((List.zipWith (fun a b => a ^^^ gfMul f b) r.1 prow).tail, r.2 ^^^ gfMul f pval)
      match gfSolve n others with
      | none => none
      | some xs => some ((List.zipWith gfMul prow.tail xs).foldl (· ^^^ ·) pval :: xs)

/-- Error values that explain the syndromes with all errors at positions `ps` of a word of `n` bytes (coefficient of x^(n-1-i) at byte i). -/
def rsAt (n : Nat) (syn : List Byte) (ps : List Nat) : Option (List Byte) :=
  let loc := ps.map fun i => gfPow 2 (n - 1 - i)
  let rows := (List.range 4).map fun j => (loc.map (fun x => gfPow x j), syn.getD j 0)
  match gfSolve ps.length (rows.take ps.length) with
  | none => none
  | some es =>
    if (List.range 4).all (fun j => (List.zipWith (fun x e => gfMul e (gfPow x j)) loc es).foldl (· ^^^ ·) 0 = syn.getD j 0)
    then some es else none

/-- The position sets the outer decoder tries, by rising number of unknown errors e, with 2e + f at most `4` (14 R310). -/
def rsTries (n : Nat) (erased : List Nat) : List (List Nat) :=
  let rest := (List.range n).filter fun i => !erased.contains i
  if 4 < erased.length then []
  else if 2 < erased.length then [erased]
  else if 0 < erased.length then erased :: rest.map (fun i => erased ++ [i])
  else [] :: rest.map (fun i => [i]) ++ rest.flatMap (fun i => (rest.filter (i < ·)).map fun j => [i, j])

/-- Correct a word of `n` bytes under RS with four check bytes, given its erasures: the corrected word and the positions changed, or none when
the word has failed (14 R310, R312). -/
def rsDecode (n : Nat) (word : List Byte) (erased : List Nat) : Option (List Byte × List Nat) :=
  let syn := rsSyndromes word
  (rsTries n erased).findSome? fun ps =>
    match rsAt n syn ps with
    | none => none
    | some es =>
      let fixes := ps.zip es
      some ((List.range n).map (fun i => word.getD i 0 ^^^ ((fixes.find? (·.1 = i)).elim 0 (·.2))),
        (fixes.filter (·.2 != 0)).map (·.1))

/-- Check bits c0 to c4 of a byte (14 R305). -/
def innerCheck (d : Byte) : BitVec 5 :=
  let b := fun i => d.getLsbD i
  let c0 := b 0 ^^ b 1 ^^ b 3 ^^ b 4 ^^ b 6
  let c1 := b 0 ^^ b 2 ^^ b 3 ^^ b 5 ^^ b 6
  let c2 := b 1 ^^ b 2 ^^ b 3 ^^ b 7
  let c3 := b 4 ^^ b 5 ^^ b 6 ^^ b 7
  let all := b 0 ^^ b 1 ^^ b 2 ^^ b 3 ^^ b 4 ^^ b 5 ^^ b 6 ^^ b 7
  BitVec.ofNat 5 (bit01 c0 + 2 * bit01 c1 + 4 * bit01 c2 + 8 * bit01 c3 + 16 * bit01 (all ^^ c0 ^^ c1 ^^ c2 ^^ c3))

/-- The byte codeword: d0-d7 in bits 0-7, c0-c4 in bits 8-12 (14 R305, R318). -/
def codeword (d : Byte) : BitVec 13 := innerCheck d ++ d

/-- Outcome of reading one byte codeword (14 R306). -/
inductive InnerOut where
  | clean (d : Byte)
  | corrected (d : Byte) (bit : Nat)
  | bad
  deriving DecidableEq, Repr

/-- The codeword bit at position 1-12 of 14 R306: c0 c1 d0 c2 d1 d2 d3 c3 d4 d5 d6 d7. -/
def innerBit (pos : Nat) : Nat := [8, 9, 0, 10, 1, 2, 3, 11, 4, 5, 6, 7].getD (pos - 1) 0

/-- Syndrome s of a stored codeword (14 R306). -/
def innerSyndrome (c : BitVec 13) : Nat := ((c.extractLsb' 8 4) ^^^ ((innerCheck (c.setWidth 8)).setWidth 4)).toNat

/-- Parity p of the 13 stored bits (14 R306). -/
def innerParity (c : BitVec 13) : Bool := (List.range 13).foldl (fun p i => p ^^ c.getLsbD i) false

/-- Decode one byte codeword (14 R306). -/
def innerDecode (c : BitVec 13) : InnerOut :=
  let s := innerSyndrome c
  if s = 0 then (if innerParity c then .corrected (c.setWidth 8) 12 else .clean (c.setWidth 8))
  else if innerParity c && s ≤ 12 then
    .corrected ((c ^^^ (1#13 <<< innerBit s)).setWidth 8) (innerBit s)
  else .bad

end Sys2Proof.Machine
end

