-- ==== Sys2Proof/Machine/Mill.lean ====
section
/-! DEFINITION. The Mill's block coding and decoding (05 R95 to R100), on records in stored form. -/

namespace Sys2Proof.Machine

/-- A coder context: sum A and count N (05 R97). -/
structure Ctx where
  a : Nat := 4
  n : Nat := 1
  deriving DecidableEq, Repr

/-- Smallest k from `k` up to 23 with N x 2^k at least A, else 23 (05 R97 step 1). -/
def Ctx.kFrom (c : Ctx) (k : Nat) : Nat → Nat
  | 0 => 23
  | f + 1 => if c.a ≤ c.n * 2 ^ k then k else Ctx.kFrom c (k + 1) f

/-- The parameter k of a context (05 R97 step 1). -/
def Ctx.k (c : Ctx) : Nat := c.kFrom 0 24

/-- The context after a value u (05 R97 step 3). -/
def Ctx.next (c : Ctx) (u : Nat) : Ctx :=
  let a := c.a + u
  let n := c.n + 1
  if n = 64 then ⟨a / 2, 32⟩ else ⟨a, n⟩

/-- `n` bits of `v`, most significant first. -/
def bitsMsb : Nat → Nat → List Bool
  | 0, _ => []
  | n + 1, v => v.testBit n :: bitsMsb n v

/-- Code u in a context, escaping to `w` bits (05 R97 step 2). -/
def codeU (c : Ctx) (w u : Nat) : List Bool :=
  let q := u / 2 ^ c.k
  if q < 24 then List.replicate q true ++ [false] ++ bitsMsb c.k u
  else List.replicate 24 true ++ bitsMsb w u

/-- Map a residual of `w` bits to u (05 R97). -/
def zig (w v : Nat) : Nat :=
  let r := toSigned w v
  if 0 ≤ r then (2 * r).toNat else (-2 * r - 1).toNat

/-- The residual, modulo 2^w, that maps to u. -/
def unzig (w u : Nat) : Nat := if u % 2 = 0 then u / 2 else ofSigned w (-((u + 1) / 2 : Nat) : Int)

/-- Bits to bytes, most significant first, closed with zero bits (05 R97). -/
def packBits : List Bool → Nat → Byte → List Byte
  | [], 0, _ => []
  | [], n, acc => [acc <<< (8 - n)]
  | b :: t, n, acc =>
    let acc := (acc <<< 1) ||| (if b then 1 else 0)
    if n = 7 then acc :: packBits t 0 0 else packBits t (n + 1) acc

/-- Bytes to bits, most significant first. -/
def unpackBits (l : List Byte) : List Bool := l.flatMap fun b => bitsMsb 8 b.toNat

/-- TICK of a record in stored form. -/
def recTick (r : List Byte) : Nat := leNat (slice r 0 6)
/-- RTYPE of a record. -/
def recType (r : List Byte) : Nat := (r.getD 6 0).toNat
/-- Byte 7 of a record: PORT, pod, or a type's own field. -/
def recPort (r : List Byte) : Nat := (r.getD 7 0).toNat
/-- CHAN of a sample or output record (04 R80, 05 R90). -/
def recChan (r : List Byte) : Nat := leNat (slice r 10 2)
/-- VALUE of a sample or scalar output record. -/
def recValue (r : List Byte) : Nat := leNat (slice r 12 6)
/-- KIND of a raw record (03 R68). -/
def rawKind (r : List Byte) : Nat := (r.getD 8 0).toNat % 16
/-- LEN of a raw record. -/
def rawLen (r : List Byte) : Nat := leNat (slice r 10 2)
/-- FLAGS of a raw record (03 R69). -/
def rawFlags (r : List Byte) : Nat := leNat (slice r 12 2)
/-- ID of a raw record. -/
def rawId (r : List Byte) : Nat := leNat (slice r 14 4)
/-- AUX of a raw record. -/
def rawAux (r : List Byte) : Nat := (r.getD 9 0).toNat
/-- Payload of a raw record. -/
def rawPayload (r : List Byte) : List Byte := slice r 18 (rawLen r)

/-- Write a flag bit of a raw record's FLAGS. -/
def rawSetFlag (r : List Byte) (bit : Nat) : List Byte :=
  r.set (12 + bit / 8) (r.getD (12 + bit / 8) 0 ||| (1 <<< (bit % 8) : BitVec 8))

/-- Coder state of a raw block (05 R98). -/
structure RawCoder where
  tick : Nat
  head : List Byte := zeros 12
  ct : Ctx := {}
  cp : Ctx := {}
  cache : List ((Nat × Nat × Nat) × List Byte) := []
  deriving DecidableEq, Repr

/-- Key of the reference cache (05 R98). -/
def rawKey (r : List Byte) : Nat × Nat × Nat := (recPort r, rawKind r, rawId r)

/-- Make a key the most recently used of at most 256 (05 R98). -/
def cacheTouch (cache : List ((Nat × Nat × Nat) × List Byte)) (k : Nat × Nat × Nat) (p : List Byte) :
    List ((Nat × Nat × Nat) × List Byte) := ((k, p) :: cache.filter (·.1 != k)).take 256

/-- Code payload bytes against a reference (05 R98 step 3). -/
def codePayload : Ctx → List Byte → List Byte → List Bool × Ctx
  | c, [], _ => ([], c)
  | c, b :: t, ref =>
    let u := zig 8 (b ^^^ ref.headD 0).toNat
    let rest := codePayload (c.next u) t ref.tail
    (codeU c 8 u ++ rest.1, rest.2)

/-- Mask of differing header bytes, bit 11 for byte 6 (05 R98 step 2). -/
def headMask (a b : List Byte) : List Bool := List.zipWith (fun x y => x != y) a b

/-- Code one record in mode 1 (05 R98). -/
def codeRaw (s : RawCoder) (r : List Byte) : List Bool × RawCoder :=
  let u := zig 48 ((recTick r + 2 ^ 48 - s.tick) % 2 ^ 48)
  let head := slice r 6 12
  let mask := headMask head s.head
  let hbits := if mask.any id then
      [true] ++ mask ++ ((head.zip mask).filter (·.2)).flatMap (fun p => bitsMsb 8 p.1.toNat)
    else [false]
  let pay := rawPayload r
  let pc := match s.cache.find? (·.1 = rawKey r) with
    | some (_, ref) => if rawLen r ≤ 64 then
        let c := codePayload s.cp pay ref
        ([true] ++ c.1, c.2)
      else ([false] ++ unpackBits pay, s.cp)
    | none => ([false] ++ unpackBits pay, s.cp)
  (codeU s.ct 48 u ++ hbits ++ pc.1,
    { tick := recTick r, head := head, ct := s.ct.next u, cp := pc.2, cache := cacheTouch s.cache (rawKey r) pay })

/-- Code the records of a mode-1 block. -/
def codeRawAll : RawCoder → List (List Byte) → List Bool
  | _, [] => []
  | s, r :: t => (codeRaw s r).1 ++ codeRawAll (codeRaw s r).2 t

/-- What a mode-2 block knows of a channel (05 R99): order, ticks and values newest first, attributes, contexts. -/
structure ChanCoder where
  p : Nat
  ticks : List Nat
  vals : List Nat
  attrs : List Byte
  ct : Ctx
  cv : Ctx
  deriving DecidableEq, Repr

/-- Coder state of a mode-2 block (05 R99). -/
structure ScalarCoder where
  prev : Nat
  chan : Option Nat := none
  chans : Tab ChanCoder := []
  deriving DecidableEq, Repr

/-- Prediction of order `e` from earlier values, newest first (05 R99 step 4). -/
def predict (e : Nat) (vals : List Nat) : Nat :=
  let x := fun i => vals.getD i 0
  match e with
  | 0 => 0
  | 1 => x 0 % 2 ^ 48
  | 2 => (2 * x 0 + 2 ^ 48 - x 1) % 2 ^ 48
  | _ => (3 * x 0 + 3 * 2 ^ 48 - 3 * x 1 + x 2) % 2 ^ 48

/-- Tick prediction of 05 R99 step 2 from the channel's ticks, or from the previous record. -/
def predictTick (prev : Nat) : List Nat → Nat
  | [] => prev
  | [t] => t
  | t1 :: t2 :: _ => (2 * t1 + 2 ^ 48 - t2) % 2 ^ 48

/-- Code one record in mode 2; `order` gives P for a channel's first record (05 R99). -/
def codeScalar (order : Nat → Nat) (s : ScalarCoder) (r : List Byte) : List Bool × ScalarCoder :=
  let ch := recChan r
  let known := s.chans.find ch
  let c := known.getD ⟨order ch, [], [], [], {}, {}⟩
  let cbits := (if s.chan = some ch then [false] else [true] ++ bitsMsb 16 ch)
    ++ (if known.isNone then bitsMsb 2 c.p else [])
  let ut := zig 48 ((recTick r + 2 ^ 48 - predictTick s.prev c.ticks) % 2 ^ 48)
  let attrs := slice r 7 3
  let abits := if c.attrs = attrs then [false] else [true] ++ unpackBits attrs
  let uv := zig 48 ((recValue r + 2 ^ 48 - predict (min c.p c.vals.length) c.vals) % 2 ^ 48)
  (cbits ++ codeU c.ct 48 ut ++ abits ++ codeU c.cv 48 uv,
    { prev := recTick r, chan := some ch,
      chans := s.chans.set ch ⟨c.p, (recTick r :: c.ticks).take 2, (recValue r :: c.vals).take 3, attrs, c.ct.next ut, c.cv.next uv⟩ })

/-- Code the records of a mode-2 block. -/
def codeScalarAll (order : Nat → Nat) : ScalarCoder → List (List Byte) → List Bool
  | _, [] => []
  | s, r :: t => (codeScalar order s r).1 ++ codeScalarAll order (codeScalar order s r).2 t

/-- Header of a block (05 R95). -/
def blockHeader (base lane mode nrec ilen olen : Nat) : List Byte :=
  leBytes 6 base ++ leBytes 2 lane ++ leBytes 1 mode ++ [0] ++ leBytes 2 nrec ++ leBytes 2 ilen ++ leBytes 2 olen ++ [0, 0]

/-- The mode a lane's records take (05 R95). -/
def laneMode (lane : Nat) (recs : List (List Byte)) : Nat :=
  match recs with
  | [r] => if recType r = 0x10 || recType r = 0x04 || lane = 0 then 0
           else if 0x100 ≤ lane && lane < 0x200 then 1 else 2
  | _ => if lane = 0 then 0 else if 0x100 ≤ lane && lane < 0x200 then 1 else 2

/-- The body of a block in the mode given. -/
def blockBody (mode : Nat) (order : Nat → Nat) (recs : List (List Byte)) : List Byte :=
  let base := recTick (recs.headD [])
  if mode = 1 then packBits (codeRawAll { tick := base } recs) 0 0
  else if mode = 2 then packBits (codeScalarAll order { prev := base } recs) 0 0
  else recs.flatten

/-- A whole block, padded to words: coded, or verbatim when the coded body would be longer than the records (05 R95). -/
def makeBlock (lane : Nat) (order : Nat → Nat) (recs : List (List Byte)) : List Byte :=
  let ilen := recs.flatten.length
  let mode := laneMode lane recs
  let body := blockBody mode order recs
  let m := if ilen < body.length then 0 else mode
  let b := if ilen < body.length then recs.flatten else body
  padWord (blockHeader (recTick (recs.headD [])) lane m recs.length ilen b.length ++ b)

/-- Sum of |residual| of one order over a channel's values, oldest first, with the values before them (05 R100). -/
def residualSum (p : Nat) : List Nat → List Nat → Nat
  | _, [] => 0
  | before, v :: t =>
    (toSigned 48 ((v + 2 ^ 48 - predict (min p before.length) before) % 2 ^ 48)).natAbs + residualSum p ((v :: before).take 3) t

/-- The order a channel takes for the next block (05 R100): the order below 7/8 of the sum in use with the smallest sum, lowest first. -/
def betterOrder (p : Nat) (vals : List Nat) : Nat :=
  let sums := (List.range 4).map fun q => residualSum q [] vals
  let mine := sums.getD p 0
  let good := (List.range 4).filter fun q => q != p && 8 * sums.getD q 0 < 7 * mine
  match good with
  | [] => p
  | q :: t => t.foldl (fun best q => if sums.getD q 0 < sums.getD best 0 then q else best) q

/-- Channels of a list of records, in order of first appearance. -/
def channelsOf (recs : List (List Byte)) : List Nat := (recs.map recChan).eraseDups

/-! Decoding. -/

/-- Take `n` bits as a number. -/
def takeBits (n : Nat) (l : List Bool) : Option (Nat × List Bool) :=
  if l.length < n then none else some ((l.take n).foldl (fun a b => 2 * a + bit01 b) 0, l.drop n)

/-- Count leading one bits, at most `n`. -/
def takeOnes : Nat → List Bool → Nat × List Bool
  | 0, l => (0, l)
  | n + 1, true :: t => ((takeOnes n t).1 + 1, (takeOnes n t).2)
  | _ + 1, l => (0, l)

/-- Decode u in a context (05 R97 step 2). -/
def decodeU (c : Ctx) (w : Nat) (l : List Bool) : Option (Nat × List Bool) :=
  let q := takeOnes 24 l
  if q.1 = 24 then takeBits w q.2
  else match q.2 with
    | false :: t => (takeBits c.k t).map fun p => (q.1 * 2 ^ c.k + p.1, p.2)
    | _ => none

/-- Take `n` bytes. -/
def takeBytes : Nat → List Bool → Option (List Byte × List Bool)
  | 0, l => some ([], l)
  | n + 1, l => (takeBits 8 l).bind fun p => (takeBytes n p.2).map fun q => (BitVec.ofNat 8 p.1 :: q.1, q.2)

/-- Decode the differing header bytes under a mask. -/
def decodeHead : List Bool → List Byte → List Bool → Option (List Byte × List Bool)
  | [], _, l => some ([], l)
  | m :: ms, old, l =>
    if m then (takeBits 8 l).bind fun p => (decodeHead ms old.tail p.2).map fun q => (BitVec.ofNat 8 p.1 :: q.1, q.2)
    else (decodeHead ms old.tail l).map fun q => (old.headD 0 :: q.1, q.2)

/-- Decode `n` payload bytes against a reference. -/
def decodePayload : Nat → Ctx → List Byte → List Bool → Option (List Byte × Ctx × List Bool)
  | 0, c, _, l => some ([], c, l)
  | n + 1, c, ref, l => (decodeU c 8 l).bind fun p =>
      (decodePayload n (c.next p.1) ref.tail p.2).map fun q =>
        ((BitVec.ofNat 8 (unzig 8 p.1) ^^^ ref.headD 0) :: q.1, q.2.1, q.2.2)

/-- Decode one record of a mode-1 block (05 R98); a 1-bit takes the most recent earlier record with the key. -/
def decodeRaw (s : RawCoder) (l : List Bool) : Option (List Byte × RawCoder × List Bool) :=
  (decodeU s.ct 48 l).bind fun pt =>
  let tick := (s.tick + unzig 48 pt.1) % 2 ^ 48
  (match pt.2 with
    | false :: t => some (s.head, t)
    | true :: t => if t.length < 12 then none else decodeHead (t.take 12) s.head (t.drop 12)
    | [] => none : Option (List Byte × List Bool)).bind fun ph =>
  let r0 := leBytes 6 tick ++ ph.1
  let n := leNat (slice ph.1 4 2)
  (match ph.2 with
    | false :: t => (takeBytes n t).map fun q => (q.1, s.cp, q.2)
    | true :: t => (s.cache.find? (·.1 = rawKey r0)).bind fun ref => decodePayload n s.cp ref.2 t
    | [] => none : Option (List Byte × Ctx × List Bool)).map fun pp =>
  (padWord (r0 ++ pp.1),
    { tick := tick, head := ph.1, ct := s.ct.next pt.1, cp := pp.2.1,
      cache := (rawKey r0, pp.1) :: s.cache.filter (·.1 != rawKey r0) }, pp.2.2)

/-- Decode `n` records of a mode-1 block. -/
def decodeRawAll : Nat → RawCoder → List Bool → Option (List (List Byte))
  | 0, _, _ => some []
  | n + 1, s, l => (decodeRaw s l).bind fun p => (decodeRawAll n p.2.1 p.2.2).map (p.1 :: ·)

/-- Decode one record of a mode-2 block, of the record type given (05 R99). -/
def decodeScalar (rtype : Nat) (s : ScalarCoder) (l : List Bool) : Option (List Byte × ScalarCoder × List Bool) :=
  (match l with
    | false :: t => s.chan.map (·, t)
    | true :: t => takeBits 16 t
    | [] => none : Option (Nat × List Bool)).bind fun pc =>
  let known := s.chans.find pc.1
  (match known with
    | some c => some (c, pc.2)
    | none => (takeBits 2 pc.2).map fun q => (⟨q.1, [], [], [], {}, {}⟩, q.2) : Option (ChanCoder × List Bool)).bind fun pk =>
  let c := pk.1
  (decodeU c.ct 48 pk.2).bind fun pt =>
  let tick := (predictTick s.prev c.ticks + unzig 48 pt.1) % 2 ^ 48
  (match pt.2 with
    | false :: t => some (c.attrs, t)
    | true :: t => takeBytes 3 t
    | [] => none : Option (List Byte × List Bool)).bind fun pa =>
  (decodeU c.cv 48 pa.2).map fun pv =>
  let val := (predict (min c.p c.vals.length) c.vals + unzig 48 pv.1) % 2 ^ 48
  (leBytes 6 tick ++ [BitVec.ofNat 8 rtype] ++ pa.1 ++ leBytes 2 pc.1 ++ leBytes 6 val,
    { prev := tick, chan := some pc.1,
      chans := s.chans.set pc.1 ⟨c.p, (tick :: c.ticks).take 2, (val :: c.vals).take 3, pa.1, c.ct.next pt.1, c.cv.next pv.1⟩ }, pv.2)

/-- Decode `n` records of a mode-2 block. -/
def decodeScalarAll (rtype : Nat) : Nat → ScalarCoder → List Bool → Option (List (List Byte))
  | 0, _, _ => some []
  | n + 1, s, l => (decodeScalar rtype s l).bind fun p => (decodeScalarAll rtype n p.2.1 p.2.2).map (p.1 :: ·)

/-- Length in stored form of the record that starts a byte string, by its type (05 R89 to R91, 03 R68). -/
def storedLength (l : List Byte) : Nat :=
  match recType l with
  | 0x01 => (18 + rawLen l + 2) / 3 * 3
  | 0x04 => (18 + leNat (slice l 12 2) + 2) / 3 * 3
  | 0x11 => 36
  | 0x12 => 75
  | 0x13 => 162
  | 0x14 => 30
  | 0x15 => 30
  | 0x16 => 24
  | 0x17 => 12
  | _ => 18

/-- Cut `n` verbatim records. -/
def cutRecords : Nat → List Byte → List (List Byte)
  | 0, _ => []
  | n + 1, l => l.take (storedLength l) :: cutRecords n (l.drop (storedLength l))

/-- Lane of a block. -/
def blockLane (b : List Byte) : Nat := leNat (slice b 6 2)

/-- The records of a whole block (05 R95 to R99), or none when its body does not decode. -/
def decodeBlock (b : List Byte) : Option (List (List Byte)) :=
  let mode := (b.getD 8 0).toNat % 16
  let base := leNat (slice b 0 6)
  let n := leNat (slice b 10 2)
  let body := slice b 18 (leNat (slice b 14 2))
  if mode = 1 then decodeRawAll n { tick := base } (unpackBits body)
  else if mode = 2 then decodeScalarAll (if blockLane b < 0x1000 then 2 else 3) n { prev := base } (unpackBits body)
  else if mode = 0 then some (cutRecords n body)
  else none

/-- Whole length of a block in a segment or frame body. -/
def blockLength (b : List Byte) : Nat := (18 + leNat (slice b 14 2) + 2) / 3 * 3

/-- Cut a body into its blocks, at most `n`. -/
def cutBlocks : Nat → List Byte → List (List Byte)
  | 0, _ => []
  | n + 1, l => if l.length < 18 then [] else l.take (blockLength l) :: cutBlocks n (l.drop (blockLength l))

end Sys2Proof.Machine
end

