-- ==== Sys2Proof/Machine/CoreState.lean ====
section
/-! DEFINITION. State of the time base, the event log, the session, the ports, the classifier and the session store
(02 to 05, 17, 18), as plain data at its reset values. -/

namespace Sys2Proof.Machine

/-- One discipline source (02 R35): `since` when it began to be continuously qualified, `ripe` once 3 s have passed, `last` its
last valid input, `offset` in ticks (its time minus chip time) and `rate` in ppb. -/
structure TimeSource where
  since : Option Int := none
  ripe : Bool := false
  last : Option Int := none
  offset : Int := 0
  rate : Int := 0
  deriving DecidableEq, Repr

/-- A TAI mapping (02 R41): C0 and T0. -/
structure Mapping where
  c0e : BitVec 32 := 0
  c0t : L48 := 0
  t0s : L48 := 0
  t0ns : BitVec 32 := 0
  t0q : Byte := 0
  deriving DecidableEq, Repr

/-- The time base (02). `acc` gathers the rate correction in force until it makes one tick (R27); `husk` says the Husk counter
holds chip time, `calGen` the number of calibrations (R31) and `xtal` which of the 16 crystal periods comes next (R48); `srcRate` the rate of the source followed
last, `wasLocked` that a source has been locked since power-on (R44), `ownLocked` that one of the device's own has been (16 R348), `apart` that the offset event of R34 has been logged and still holds;
`map` is the TAI mapping in force, `validity` 0x2210:07; the shadow mapping and the UTC offset stand in the dictionary store. -/
structure TimeBase where
  epoch : BitVec 32 := 0
  tick : L48 := 0
  husk : Bool := false
  xtal : Fin 16 := 0
  acc : Int := 0
  rate : Int := 0
  srcRate : Int := 0
  wasLocked : Bool := false
  ownLocked : Bool := false
  apart : Bool := false
  cal : Bool := false
  calGen : Nat := 0
  lock : Fin 4 := 0
  held : Bool := false
  src : Fin 4 := 0
  pps : TimeSource := {}
  fabric : TimeSource := {}
  gptp : TimeSource := {}
  ppsLast : Option Int := none
  ppsValid : Nat := 0
  ppsBad : Nat := 0
  ppsSub : Nat := 0
  map : Mapping := {}
  validity : Fin 4 := 0
  deriving DecidableEq, Repr

/-- One 128-bit row of the event log (18 R407). In a continuation entry (KIND 0xFE) `tick`, `refIdx`, `refSub` and `value`
carry its payload bytes 0-5 and 10-15. -/
structure LogRow where
  tick : L48
  seq : BitVec 16
  flags : Byte
  kind : Byte
  refIdx : BitVec 16
  refSub : Byte
  value : W24
  deriving DecidableEq, Repr

/-- The event log (18 R407): next SEQ and the live rows, oldest first. -/
structure EventLog where
  next : BitVec 16 := 0
  rows : List LogRow := []
  deriving DecidableEq, Repr

/-- 17 R375. -/
inductive SessSt where
  | idle
  | armed
  | running
  | draining
  | fault
  deriving DecidableEq, Repr

/-- The session (17 R375-R380): activities as ARM P[4:0], the ARM whose answer is owed, the START count S (06 R114), the
session counter kept in configuration flash (05 R102). -/
structure Session where
  st : SessSt := .idle
  acts : BitVec 5 := 0
  faultCause : Fin 2 := 0
  armOwed : List Path := []
  startAt : Nat := 0
  counter : BitVec 32 := 0
  refused : BitVec 32 := 0
  refusedCode : BitVec 32 := 0
  deriving DecidableEq, Repr

/-- The generation of one unit of a profile switch (17 R388, R391): the one in force, the one before it, the count at which
it came into force, and how many times the unit has committed. -/
structure UnitGen where
  gen : BitVec 4 := 0
  old : BitVec 4 := 0
  since : Nat := 0
  commits : Nat := 0
  deriving DecidableEq, Repr

/-- One capture port (03). `level` is the present input level (R64); `debt` and `debtAt` are the token bucket of R66, in ticks
still to earn; `lost0`, `lost1` the records not accepted since the last notice of AUX 0 and 1; `buf` the receive buffer
(R67); `link` the rate code of the link in force (R60); `frames` the frame count of a sample port;
`inFrame` that the frame in progress at the last tick wrap has not completed (05 R101). -/
structure Port where
  enabled : Bool := false
  level : Bool := false
  debt : Nat := 0
  debtAt : Nat := 0
  lost0 : Nat := 0
  lost1 : Nat := 0
  buf : List (List Byte) := []
  link : Option (Fin 6) := none
  rec_ : Nat := 0
  tec : Nat := 0
  errState : Fin 3 := 0
  frames : Byte := 0
  inFrame : Bool := false
  deriving DecidableEq, Repr

/-- One bank of the classifier's tables (04 R75, R76): Frame Key Table and Signal Map, unlisted entries all 0. -/
structure Bank where
  fkt : Tab (BitVec 144) := []
  sm : Tab (BitVec 192) := []
  deriving DecidableEq, Repr

/-- A raw record on its way to the classifier, with the full count of its start edge (04 R85). -/
structure ClassIn where
  port : Nat
  edge : Int
  bytes : List Byte
  deriving DecidableEq, Repr

/-- A classified frame in the Sifter queue (04 R82): record, base byte of its data bits, engine of its frame copy, the Signal Map entries of its runs, and
how many swaps came before the bank that classified it (R81). -/
structure SiftIn where
  bytes : List Byte
  base : Nat
  copyTo : Option Nat
  entries : List (Nat × BitVec 192)
  era : Nat
  deriving DecidableEq, Repr

/-- Classifier and Sifter (04). Bank A is the active one when `active`; `swaps` counts the swaps, and `olds` holds those that a frame may still lie
before, newest first, with the bank before each (R85); `last` is the last-value store of R81 (VALUE and SFLAGS[7:4]);
`checking` the path whose commit request waits for the check, `copying` the copy in progress (R85); `dropsOwed` the
engines whose next delivered record carries DROPS (R83); `skipLogAt` when a skip was last logged (R84). -/
structure Classifier where
  bankA : Bank := {}
  bankB : Bank := {}
  active : Bool := false
  swaps : Nat := 0
  olds : List (Nat × Bank) := []
  inq : List ClassIn := []
  siftq : List SiftIn := []
  last : Tab (BitVec 52) := []
  checking : Option Path := none
  copying : Bool := false
  dropsOwed : List Nat := []
  skipLogAt : Option Nat := none
  deriving DecidableEq, Repr

/-- The open block of a lane (05 R95): its records, when the first arrived, the predictor orders it opened with, and the channels whose order its Mill has
been told since (R100). -/
structure OpenBlock where
  recs : List (List Byte)
  since : Nat
  orders : Tab Nat
  told : List Nat := []
  deriving DecidableEq, Repr

/-- One lane (05 R92). `seen`: it has received a record since START; `lastTick` and `chans` of an output lane: the tick of its last record and the
channels it has carried (05 R94, 09 R202); `wrapDue`: the new epoch of a wrap point still to reach; `ahead`: a record whose tick lies after the coming wrap
has already taken the lane past its wrap point (05 R101). -/
structure Lane where
  seen : Bool := false
  lastTick : Option L48 := none
  chans : List Nat := []
  wrapDue : Option (BitVec 32) := none
  ahead : Bool := false
  block : Option OpenBlock := none
  deriving DecidableEq, Repr

/-- Predictor settings of one Mill (05 R100), by channel: order (2 where none is listed) and adaptation (on where none). -/
structure Mill where
  order : Tab Nat := []
  adapt : Tab Bool := []
  deriving DecidableEq, Repr

/-- The open segment (05 R103): reference, generation and slot at opening, RESUME or FAILOVER, and its blocks. -/
structure OpenSeg where
  since : Nat
  prof : Byte
  resume : Bool
  failover : Bool
  blocks : List (List Byte)
  deriving DecidableEq, Repr

/-- A closed segment (05 R102, R108): SEQ, bytes 0 to USED - 1, SGFLAGS, the SSDs it must be durable on, those it has been written
to and those it is durable on (bit 0 SSD 0, bit 1 SSD 1), ENDTICK and the epoch in force then. -/
structure Seg where
  seq : Nat
  bytes : List Byte
  hasSig : Bool
  last : Bool
  need : BitVec 2
  written : BitVec 2
  durable : BitVec 2
  endTick : L48
  endEpoch : BitVec 32
  deriving DecidableEq, Repr

/-- An NVMe command (05 R109): the write of a segment to a slot, a flush of the segments written before it, the deallocation of slots, an abort, a read of
a slot for replay, a log page, the read of a slot header after a wake (19 R427), Identify by CNS, the creation or deletion of an I/O queue pair, and Set or
Get Features by feature. Write and read stand for the commands that MDTS splits a slot into, which complete together (log entry 68). -/
inductive NvmeCmd where
  | write (seq : Nat) (slot : Nat)
  | flush (seqs : List Nat)
  | dealloc (slots : List Nat)
  | abort (cid : Nat)
  | read (slot : Nat) (seq : Nat)
  | logPage (page : Fin 3)
  | header (slot : Nat) (seq : Nat)
  | identify (cns : Fin 3)
  | createQueue (n : Fin 5)
  | deleteQueue (n : Fin 5)
  | setFeature (feature : Fin 8)
  | getFeature (feature : Fin 8)
  deriving DecidableEq, Repr

/-- A durable segment of a ring on an SSD (05 R107): SEQ, ENDTICK, its epoch, its hash, its session number, and whether it is the LAST of its session. -/
structure Durable where
  seq : Nat
  endTick : L48
  endEpoch : BitVec 32
  hash : List Byte
  sess : BitVec 32
  last : Bool
  deriving DecidableEq, Repr

/-- One SSD of the set (05 R108-R110, R473): state as 0x2503:03, commands in progress by identifier and when each was issued, the first timeout of the
last 60 s, the durable segments on its medium by namespace and logical block (log entry 68), the log entry of the last change of its state (R107), and the
SEQ at whose write slots were last deallocated (R109). -/
structure Ssd where
  state : Fin 4 := 0
  cmds : Tab NvmeCmd := []
  issued : Tab Nat := []
  nextCid : Nat := 0
  timeoutAt : Option Nat := none
  slots : Tab Durable := []
  changed : BitVec 16 := 0
  trimmed : Option Nat := none
  deriving DecidableEq, Repr

/-- Drop counts of one overload level (05 R111, record 0x15): tick of entry, scalar, vector and sample records dropped. -/
structure LevelDrops where
  entered : L48 := 0
  scalar : Nat := 0
  vector : Nat := 0
  sample : Nat := 0
  deriving DecidableEq, Repr

/-- The session store (05). `hashing` are closed segments whose hash is not finished, `ring` those in the DRAM ring; `sigSegs`
and `sigAt` the two counts of R103, `sigDue` a signature that fell due by time; `restart` the causes 1 to 4 of R107 that
have occurred, each with the sequence number of its cause entry; `closing` that the close segment of R106 is still to be
written; `flushAt` when the flush interval in progress began (R109); `failoverDue` that the next new segment carries FAILOVER (R110); `mode` the set mode in force (0x2503:0A); `usedLast` the SSDs of the last store restart; `drops` the counts
of overload levels 1 to 4; `headerDue` that a slot header is to be checked after a wake and `headerOut` that it is being read (19 R427); `lateLogAt` when an R94 drop was last logged. -/
structure Store where
  lanes : Tab Lane := []
  mills : Tab Mill := []
  seg : Option OpenSeg := none
  hashing : List Seg := []
  ring : List Seg := []
  nextSeq : Nat := 0
  prevHash : List Byte := []
  sigSegs : Nat := 0
  sigAt : Nat := 0
  sigDue : Bool := false
  restart : Tab (BitVec 16) := []
  newest : Option Durable := none
  mode : Nat := 255
  usedLast : Option (BitVec 2) := none
  ssd0 : Ssd := {}
  ssd1 : Ssd := {}
  level : Fin 5 := 0
  drops : Tab LevelDrops := []
  lateLogAt : Option Nat := none
  headerDue : Bool := false
  headerOut : Bool := false
  closing : Bool := false
  failoverDue : Bool := false
  flushAt : Nat := 0
  deriving DecidableEq, Repr

end Sys2Proof.Machine
end

