-- ==== Sys2Proof/Machine/ChipState.lean ====
section
/-! DEFINITION. State of pods, memories, crossbar, Pestle, power and test access (08, 14, 15, 18 to 20), and the trace of what
the device sends, as plain data at its reset values. -/

namespace Sys2Proof.Machine

/-- A record on the stream network or in an arrival buffer (08 R176): destination engine (32 x pod + engine), source kind (10 R229), bytes. -/
structure StreamRec where
  eng : Nat
  kind : Nat
  bytes : List Byte
  deriving DecidableEq, Repr

/-- One pod (08, 17 R383, 18 R416, 19 R421). `erst` is PCC_ERST; `image` the BUILDID loaded; `moved` that its lanes are on the standby
pod (05 R112); `resetAt` when its resets of the last 60 s happened; `bad` an unrepairable pod (14 R321); `served` the engine that each PMEM bank served last
(08 R174); `tool` the TOOLVER of the image loaded (13 R284); `copy` the verified copy of the image that a profile commit loads (13 R289). -/
structure Pod where
  powered : Bool := false
  step : Fin 5 := 0
  erst : BitVec 32 := 0xFFFFFFFF
  image : BitVec 64 := 0
  loaded : Bool := false
  moved : Bool := false
  failed : Bool := false
  bad : Bool := false
  resetAt : List Nat := []
  arrival : List StreamRec := []
  served : Tab Nat := []
  tool : BitVec 16 := 0
  copy : Option (List Byte) := none
  deriving DecidableEq, Repr

/-- The captured crossbar error (15 R335). -/
structure XErr where
  cause : Fin 4
  wr : Bool
  master : Fin 48
  target : Fin 56
  addr : BitVec 40
  deriving DecidableEq, Repr

/-- A request a master port has accepted (15 R326, R328): the request, or the part of it that lies in one staging-store line, what it was decoded to (home
or register address, alias operation), and the engine whose LSU1 issued it. -/
structure XWait where
  req : XReq
  home : Nat
  op : Fin 3
  eng : Option Nat
  deriving DecidableEq, Repr

/-- The crossbar (15, 14 R303). Region registers by 0x100 x port + 0x10 x descriptor + 4 x register, PRIO by 64 x target + master and DEFM by
target, where they differ from their reset values; requests waiting by target, the master last granted by 16 x target + priority, and the targets that
granted in their last cycle. `err` is what XB_ERR_INFO has captured while VALID is 1, `lastErr` what its other fields hold once VALID has been
cleared. `tags` numbers the accesses of engines that the crossbar has taken. -/
structure Xbar where
  remap : Bool := false
  rgn : Tab (BitVec 32) := []
  prio : Tab Nat := []
  park : Tab Nat := []
  waiting : Tab (List XWait) := []
  lastGrant : Tab Nat := []
  granted : List Nat := []
  err : Option XErr := none
  lastErr : Option XErr := none
  closed : List Nat := []
  starveLogAt : Tab Nat := []
  errLogAt : Tab Nat := []
  tags : Nat := 0
  deriving DecidableEq, Repr

/-- A row (14 R297): of the byte memory, by its first byte, or outside the address map. -/
inductive RowId where
  | home (a : Nat)
  | side (r : SideRow)
  deriving DecidableEq, Repr

/-- One entry of the repair record (14 R320). -/
structure RepairEntry where
  macro_ : BitVec 24
  column : Nat
  spare : Fin 4
  source : Fin 4
  deriving DecidableEq, Repr

/-- One copy of the repair record in flash (14 R320, 18 R399): its write count, whether it is sound (MAGIC, FORMAT and RCRC, and the CRC of the copy),
the DEVUID it carries when that is not the device's own, TEST, and its entries. -/
structure RepairRecord where
  count : BitVec 32 := 0
  sound : Bool := true
  other : Option (BitVec 64) := none
  test : Bool := false
  entries : List RepairEntry := []
  deriving DecidableEq, Repr

/-- Memories and codes (14). `cells` is the one byte memory by global address (15 R327); `bad` the inverted bits of a byte's codeword, those of the check
bytes of staging-store lines with them (R305, R309, R318); `dbad` the wrong bits of DRAM bytes and check bytes, `dramBad` DRAM blocks beyond correction
(R312); `cel` the correctable-error list; `rewrite` rows that the Grinder still has to write back, each with the places found in error: in the byte memory
their corrected codewords, in DRAM their corrected bytes, and outside the address map the wrong bits found (R316); `columns` corrected errors by column, row and time for R322. `recA` and `recB` are the copies of the repair record (R320); `spares` the
spare columns that this boot has assigned, `assigned` how many of them from the record (R323), `skipped` the entries that the fuse loader passed over,
`found` those of the power-on test that wait to be written (R321). The Grinder's passes: how many rows of a bank the SRAM pass has read, by bank, and
since when it runs; the block the DRAM pass read last, since when it runs, and the image windows logged in it (R315 to R317). -/
structure Memory where
  cells : List (Nat × BitVec 8) := []
  bad : Tab (BitVec 13) := []
  dbad : Tab Byte := []
  dramBad : List Nat := []
  cel : List RowId := []
  rewrite : List (RowId × List (Nat × BitVec 13)) := []
  inject : Bool := false
  injLo : BitVec 32 := 0
  injHi : BitVec 32 := 0
  slate : Bool := false
  dlate : Bool := false
  columns : List (Nat × Nat × Nat × Nat) := []
  recA : RepairRecord := {}
  recB : RepairRecord := {}
  candidates : List RepairEntry := []
  spares : List RepairEntry := []
  assigned : Nat := 0
  skipped : List RepairEntry := []
  found : List RepairEntry := []
  repairAt : Option Nat := none
  sramAt : Tab Nat := []
  sramFrom : Option Nat := none
  dramLast : Option Nat := none
  dramFrom : Nat := 0
  dramLogged : List Nat := []
  deriving DecidableEq, Repr

/-- One firmware slot in flash (18 R399): what has been written to it and the result of the last check of R400 (0x2912:04's coding), and what
the image says: SVN, version, TOOLVER and the Pestle engines it starts. A slot with a passing result and no bytes holds the delivered firmware. -/
structure FwSlot where
  image : List Byte := []
  result : Nat := 0
  svn : Nat := 0
  version : BitVec 32 := 0
  mask : BitVec 4 := 15
  tool : BitVec 16 := 0
  deriving DecidableEq, Repr

/-- A doorbell register (18 R415). -/
structure Doorbell where
  full : Bool := false
  ovr : Bool := false
  msg : W24 := 0
  deriving DecidableEq, Repr

/-- How the boot flash is driven (20 R460): held in reset by XSPI_RESET_N, read in 1S-1S-1S mode at 50 MHz, or in 8D-8D-8D mode with DQS. -/
inductive FlashMode where
  | held
  | serial
  | octal
  deriving DecidableEq, Repr

/-- Pestle (18). Firmware slots and descriptor (R399, R412), rollback counter, the update in progress, the image store by BUILDID, the
image upload, doorbells, watchdogs by engine (count of the last valid write), the random source, the sensors' last readings, the temperatures at the
last calibration (02 R31), which voltage monitors read outside their windows, and the mode of the boot flash (20 R460). `writes` holds the write count of
each copy of an item in flash, by the copy's byte offset (R399); the repair record's are its own. -/
structure Pestle where
  flash : FlashMode := .held
  writes : Tab (BitVec 32) := []
  fbase : Tab (BitVec 25) := []
  kicked : Tab Nat := []
  doors : Tab Doorbell := []
  doorSecond : Nat := 0
  doorCount : Nat := 0
  slotA : FwSlot := {}
  slotB : FwSlot := {}
  activeB : Bool := false
  trial : Bool := false
  attempts : Fin 4 := 0
  running : FwSlot := {}
  runningTrial : Bool := false
  rollback : Fin 65 := 0
  updater : Option Path := none
  received : Nat := 0
  checked : Nat := 0
  resetDue : Option Nat := none
  images : Tab (List Byte) := []
  upload : List Byte := []
  keyHash : Option (List Byte) := none
  rngOk : Bool := true
  temps : List Int := []
  calTemps : List Int := []
  volts : List Nat := []
  clocks : List Nat := []
  windows : List Bool := []
  deriving DecidableEq, Repr

/-- The retention record (19 R427). -/
structure Retention where
  st : SessSt
  acts : BitVec 5
  slot : Nat
  gen : BitVec 4
  map : Mapping
  validity : Fin 4
  newest : Option Durable
  counters : Tab Nat
  issued : BitVec 4
  deriving DecidableEq, Repr

/-- A power-state entry in progress (19 R424): target and the path to answer. -/
structure PowerEntry where
  target : Fin 5
  path : Path
  deriving DecidableEq, Repr

/-- A wake in progress (19 R429): the source and its edge, and whether it has been qualified. -/
structure Wake where
  since : Nat
  sources : BitVec 14
  qualified : Bool
  deriving DecidableEq, Repr

/-- Where the core stands between reset and its work (19 R439, R440, 20 R450). -/
inductive Boot where
  | rails
  | held
  | up
  | halted
  | tripped
  deriving DecidableEq, Repr

/-- Power, wake and reset (19, 20). `rails` is the number of rail groups in window, in the order of 20 R450; `huskBuf` the Husk frame
buffer with the port of each record; `halt` and `stepDone` are HSK_BOOT; `startOwed` STARTs accepted in PARK, `runOwed` the paths whose POWER to RUN wakes
the device from PARK (R423) and `entryAlso` those whose POWER came during the entry in progress; `gating` the pods whose
power gating waits for quiescence (R421, R425); `held` PCC_ERST of the pods that E1 holds in reset; `dramRail` says that PEN_DRAM stayed high in STANDBY (20 R449);
`vcore` is the target of VCORE in mV, `vcoreWas` the one before, in force until `vcoreAt` (20 R453). -/
structure Power where
  st : Fin 5 := 0
  boot : Boot := .rails
  rails : Fin 5 := 0
  retry : Bool := false
  xtalOk : Bool := false
  entry : Option PowerEntry := none
  wake : Option Wake := none
  capture : Bool := false
  huskBuf : List (Nat × List Byte) := []
  huskUsed : Nat := 0
  huskGap : Bool := false
  huskLost : Nat := 0
  retention : Option Retention := none
  sources : BitVec 14 := 0
  handover : Option Nat := none
  startOwed : List Path := []
  entryAlso : List Path := []
  gating : List Nat := []
  runOwed : List Path := []
  held : Tab (BitVec 32) := []
  dramRail : Bool := false
  halt : Fin 4 := 0
  stepDone : Fin 16 := 0
  faultN : Bool := true
  thermTripN : Bool := true
  throttle : Fin 3 := 0
  vcore : Nat := 850
  vcoreWas : Nat := 850
  vcoreAt : Nat := 0
  refLost : Bool := false
  resetDomain : Fin 3 := 0
  resetCause : Fin 10 := 0
  resetSeq : BitVec 16 := 0
  releasedAt : Nat := 0
  deriving DecidableEq, Repr

/-- The test port (20 R461): instruction in force and boundary register. -/
structure TestPort where
  instr : TestInstr := .idcode
  boundary : List Bool := []
  deriving DecidableEq, Repr

/-- A gPTP message that the device sends (02 R39): `at` is a time of the message timestamp point, in ticks of TAI for the follow-up of a two-step Sync, in
ticks of chip time for peer delay. -/
inductive GptpOut where
  | announce (domain prio1 prio2 : Nat)
  | sync (domain : Nat)
  | followUp (domain : Nat) (origin : Int)
  | pdelayReq (domain : Nat)
  | pdelayResp (domain : Nat) (received : Int)
  | pdelayFollowUp (domain : Nat) (sent : Int)
  deriving DecidableEq, Repr

/-- A fault that a transmitter makes on purpose (06 R118): a check inverted, the fault of FAULT 2 at a position, the frame ending after one. -/
inductive TxFault where
  | none
  | badCheck
  | breakAt (n : Nat)
  | endAfter (n : Nat)
  deriving DecidableEq, Repr

/-- A frame at its transmitter (06 R118 to R123): the count at which its start edge is launched, where the emit count fixes it; the fault; the PWM short
phase in percent where a CAN XL data phase uses mode switching (03 R55); KIND, AUX and ID as in 03 R70; and the bytes sent. -/
structure Launch where
  at_ : Option Int
  fault : TxFault
  fast : Option Nat
  kind : Nat
  aux : Nat
  ident : Nat
  payload : List Byte
  deriving DecidableEq, Repr

/-- What the device sends to the world outside, in order. -/
inductive Output where
  /-- An answered dictionary request (17 R364). -/
  | answer (path : Path) (data : List Byte)
  /-- A refused dictionary request (17 R367). -/
  | abort (path : Path) (code : BitVec 32)
  /-- A frame started on a port (06 R120). After a SENT frame the line holds its idle level, or a pause pulse when payload byte 4 bit 4 says so (R123). -/
  | frame (port : Nat) (frame : Launch)
  /-- An edge of an event pin or a PWM output, and the count at which it is launched (06 R120, R123). -/
  | edge (port : Nat) (at_ : Int) (level : Bool)
  /-- A frame of the device's own on a CAN port: identifier and data (17 R368). -/
  | canOwn (port : Nat) (ident : Nat) (data : List Byte)
  /-- The dominant acknowledge bit of a CAN port that is not monitoring (03 R53). -/
  | canAck (port : Nat)
  /-- An error frame of a CAN port in normal mode (03 R53, R472). -/
  | canErrorFrame (port : Nat)
  /-- An overload frame of a CAN port in normal mode (03 R53). -/
  | canOverload (port : Nat)
  /-- A LIN response sent (06 R118, R123). -/
  | linResponse (port : Nat) (fault : TxFault) (data : List Byte)
  /-- A flit sent on a fabric port, by fields and as its 64 bytes (16 R342). -/
  | flit (port : Nat) (flit : Flit) (bytes : List Byte)
  /-- A UDP datagram of the link (07 R138). -/
  | datagram (path : Nat) (bytes : List Byte)
  /-- An ARP or Neighbour Discovery answer or request on a carrier MAC (07 R152). -/
  | neighbour (mac : Nat) (reply : Bool) (addr : List Byte)
  /-- A gPTP message sent (02 R39). -/
  | gptp (mac : Nat) (msg : GptpOut)
  /-- An NVMe command issued (05 R109). -/
  | nvme (ssd : Nat) (cid : Nat) (cmd : NvmeCmd) (nsid : Nat) (lbas : List (Nat × Nat))
  /-- An NVMe controller reset begun (05 R110). -/
  | ssdReset (ssd : Nat)
  /-- A response to a crossbar master outside the engines (15 R333): request tag, error, data. -/
  | response (master : Nat) (tag : Nat) (error : Bool) (data : List Byte)
  /-- An outbound PCIe request (15 R332). -/
  | pcie (ctl : Nat) (write : Bool) (addr : Nat) (data : List Byte)
  /-- MSI-X vector 0 of a PCIe controller (17 R371). -/
  | msi (ctl : Nat)
  /-- The captured boundary register, or IDCODE, shifted out (20 R461). -/
  | scan (bits : List Bool)
  /-- PMBus STATUS_WORD read from every regulator (20 R462). -/
  | pmbus
  deriving DecidableEq, Repr

end Sys2Proof.Machine
end

