-- ==== Sys2Proof/Machine/EngineState.lean ====
section
/-! DEFINITION. The state of one transport-triggered engine (08 to 12), as plain data, at its engine-reset values (08 R157). -/

namespace Sys2Proof.Machine

/-- ALU0 or ALU1 (09 R190, R195): latches, result port, FLG as SV V C N Z. -/
structure Alu where
  o1 : L48 := 0
  o2 : L48 := 0
  q : L48 := 0
  flg : BitVec 5 := 0
  deriving DecidableEq, Repr

/-- A MAC operation in flight: `k` cycles to its result, FORM of 12 R263, KEEP once a move wrote the chained state. -/
structure MacFl where
  k : Nat
  val : BitVec 56
  v : Bool
  form : Fin 4
  keep : Bool
  deriving DecidableEq, Repr

/-- MAC (09 R190, R196, R197), with its operations in flight, oldest first; `sets` stands in a cycle whose completing operation sets SV while a move of it
writes the chained state (00 R12). -/
structure Mac where
  o : W24 := 0
  q : L48 := 0
  acc : BitVec 56 := 0
  sv : Bool := false
  v : Bool := false
  sets : Bool := false
  fl : List MacFl := []
  deriving DecidableEq, Repr

/-- SHF (09 R190). -/
structure Shf where
  o1 : L48 := 0
  o2 : W24 := 0
  q : L48 := 0
  deriving DecidableEq, Repr

/-- A CHK operation in flight (12 R261, R263). -/
structure ChkFl where
  k : Nat
  val : BitVec 32
  step : Bool
  keep : Bool
  wm1 : BitVec 5
  xo : Bool
  rout : Bool
  deriving DecidableEq, Repr

/-- CHK (09 R198), with its operations in flight, oldest first. -/
structure Chk where
  o : W24 := 0
  q : L48 := 0
  poly : BitVec 32 := 0
  wm1 : BitVec 5 := 0
  rin : Bool := false
  rout : Bool := false
  xo : Bool := false
  crc : BitVec 32 := 0
  fl : List ChkFl := []
  deriving DecidableEq, Repr

/-- A division in flight (12 R261, R263). -/
structure DivFl where
  k : Nat
  q : L48
  r : L48
  v : Bool
  dz : Bool
  keep : Bool
  deriving DecidableEq, Repr

/-- DIV (09 R190, R196); `sets` stands in a cycle whose completing division sets SDZ while a move of it writes FLG (00 R12). -/
structure Div_ where
  o : L48 := 0
  q : L48 := 0
  r : L48 := 0
  sdz : Bool := false
  v : Bool := false
  dz : Bool := false
  sets : Bool := false
  fl : Option DivFl := none
  deriving DecidableEq, Repr

/-- One store-buffer entry (08 R168): DMEM byte address, bytes, and whether it is a split long. -/
structure SbEntry where
  addr : Nat
  bytes : List Byte
  split : Bool
  deriving DecidableEq, Repr

/-- An LSU0 load in flight; `data` is none for a refused load (12 R263). -/
structure L0Fl where
  k : Nat
  data : Option L48
  deriving DecidableEq, Repr

/-- An LSU0 load that waits for `drains` buffer entries before it reads DMEM (08 R170); `old` is the word that SMV's step of its trigger cycle
overwrote, with what has drained onto it since (11 R245). -/
structure LdWait where
  drains : Nat
  addr : Nat
  len : Nat
  signed : Bool
  old : Option (Nat × List Byte)
  deriving DecidableEq, Repr

/-- LSU0 with its store buffer of at most 4 entries (08 R168-R170). -/
structure Lsu0 where
  o : L48 := 0
  q : L48 := 0
  sb : List SbEntry := []
  fl : List L0Fl := []
  ldWait : Option LdWait := none
  stWait : Option SbEntry := none
  deriving DecidableEq, Repr

/-- State of an LSU1 access (12 R263): its values 1 to 3, and the waits before its data is known; `held` is a granted access to the pod's own PMEM
that earlier accesses of the engine keep back (08 R173). -/
inductive L1St where
  | waitGrant
  | held
  | waitData
  | data
  | refused
  | busError
  deriving DecidableEq, Repr

/-- An LSU1 access in flight: its form, the bytes it stores, the offsets of the bytes whose crossbar response is still to come, and what came: an
error, and the bytes, each at its offset. `tag` marks its crossbar requests; `past` says that its engine has been reset since its trigger (08 R157). -/
structure L1Fl where
  k : Nat
  st : L1St
  load : Bool
  addr : BitVec 40
  len : Nat
  signed : Bool
  val : L48
  need : List Nat
  err : Bool
  got : List Byte
  tag : Nat
  past : Bool
  deriving DecidableEq, Repr

/-- One LSU1 region descriptor (09 R199): bits [39:6] of base and limit, and EN W R. -/
structure Desc where
  base : BitVec 34 := 0
  limit : BitVec 34 := 0
  ctl : BitVec 3 := 0
  deriving DecidableEq, Repr

/-- LSU1 (09 R199). -/
structure Lsu1 where
  o : L48 := 0
  q : L48 := 0
  rsel : BitVec 3 := 0
  desc : Tab Desc := []
  fl : List L1Fl := []
  deriving DecidableEq, Repr

/-- CTL (09 R200): modes are SUP IE DZT SAT from bit 3 down (12 R262); `pend` is a pending mode with its remaining count
(08 R166); `jumps` are pending jumps, oldest first, each with its delay bundles left (08 R164, R165). -/
structure Ctl where
  o : L48 := 0
  mode : BitVec 4 := 0b1000
  pend : Option (Nat × BitVec 4) := none
  gd : BitVec 3 := 0
  link : BitVec 11 := 0
  tsp : BitVec 18 := 0
  pc : BitVec 11 := 0
  vbase : BitVec 11 := 0
  cause : BitVec 16 := 0
  jumps : List (Nat × BitVec 11) := []
  bubble : Bool := false
  guards : Byte := 1
  deriving DecidableEq, Repr

/-- RPT (11 R232). -/
structure Rpt where
  o : BitVec 11 := 0
  n : Fin 3 := 0
  c0 : W24 := 0
  s0 : BitVec 11 := 0
  e0 : BitVec 11 := 0
  w0 : Bool := false
  c1 : W24 := 0
  s1 : BitVec 11 := 0
  e1 : BitVec 11 := 0
  w1 : Bool := false
  deriving DecidableEq, Repr

/-- What SMV's ports showed at the start of a cycle whose step is made, the word that the step overwrote, and the DMEM banks that it used (11 R245,
R246). -/
structure SmvSeen where
  q : W24
  src : BitVec 15
  dst : BitVec 15
  n : BitVec 15
  hit : Bool
  act : Bool
  old : Option (Nat × List Byte)
  banks : List Nat
  deriving DecidableEq, Repr

/-- SMV (11 R241-R248): `wait` is the store-buffer entries still to drain (R244), `seen` stands once this cycle's step is made, `bad` says
that it failed under R247, `meet` are the banks at which it met LSU0, while the engine is frozen for it (R245). -/
structure Smv where
  q : W24 := 0
  src : BitVec 15 := 0
  dst : BitVec 15 := 0
  n : BitVec 15 := 0
  pat : W24 := 0
  hit : Bool := false
  act : Bool := false
  op : Fin 4 := 0
  ne : Bool := false
  down : Bool := false
  fa : Bool := false
  wait : Nat := 0
  seen : Option SmvSeen := none
  bad : Bool := false
  meet : List Nat := []
  deriving DecidableEq, Repr

/-- A TSU operation in flight: a result with `k` cycles to go, or a WAIT with its target (12 R262). -/
structure TsuFl where
  k : Nat
  wait : Bool
  val : L48
  deriving DecidableEq, Repr

/-- TSU (10 R228). -/
structure Tsu where
  q : L48 := 0
  epl : BitVec 32 := 0
  fl : List TsuFl := []
  deriving DecidableEq, Repr

/-- A record of an input ring: DMEM word address, length in words, source kind (10 R229). -/
structure RingRec where
  addr : Nat
  len : Nat
  kind : Fin 4
  deriving DecidableEq, Repr

/-- An outgoing record (10 R218, R230, R231): OUT or EMIT, the latched O, its words so far, and how many of them have moved on from the queue
(08 R179). -/
structure Build where
  out : Bool
  hdr : W24
  words : List W24
  moved : Nat
  deriving DecidableEq, Repr

/-- SPU (09 R202, 08 R177-R179): the input ring, the output queue and the record being built. `tail` is the next free word of
the ring; `cur` the record the last IN returned; `full` a word that waits for room; `done` complete records in the queue; `fl` IN (true) and POLL in flight. -/
structure Spu where
  o : W24 := 0
  q : W24 := 0
  rbase : Nat := 0
  rsize : Nat := 64
  fl : List (Nat × Bool) := []
  ring : List RingRec := []
  cur : Option RingRec := none
  tail : Nat := 0
  build : Option Build := none
  done : List Build := []
  full : Option (Bool × W24) := none
  deriving DecidableEq, Repr

/-- An exception entry in progress (12 R257): the interrupt's DETAIL or none, and the synchronous CODE and DETAIL. -/
structure Entry where
  irq : Option Byte
  code : Byte
  detail : Byte
  deriving DecidableEq, Repr

/-- Exception state (12 R250-R274): causes due at the next boundary, entry and return in progress, ENG_IRQ and ENG_EXC; `resuming`: RESUME started
the return in progress (R272). -/
structure Exc where
  due : Byte := 0
  detail : Byte := 0
  handler : Bool := false
  firstAfter : Bool := false
  entry : Option Entry := none
  rfe : Option Nat := none
  restore : Bool := false
  resuming : Bool := false
  rie : Bool := false
  ppend : Bool := false
  esc : Byte := 0
  st : Fin 4 := 0
  deriving DecidableEq, Repr

/-- One engine (08 R157): registers, units, prefetch queue (R162), the bundle whose fetch met an error response (15 R333), and the fetch window in force of a
Pestle engine (18 R397). -/
structure Engine where
  ga : Tab W24 := []
  gb : Tab W24 := []
  lx : Tab L48 := []
  alu0 : Alu := {}
  alu1 : Alu := {}
  mac : Mac := {}
  shf : Shf := {}
  chk : Chk := {}
  div : Div_ := {}
  lsu0 : Lsu0 := {}
  lsu1 : Lsu1 := {}
  ctl : Ctl := {}
  rpt : Rpt := {}
  smv : Smv := {}
  tsu : Tsu := {}
  spu : Spu := {}
  exc : Exc := {}
  pfq : List (Nat × BitVec 128) := []
  pfBad : Option Nat := none
  fbase : BitVec 25 := 0
  deriving DecidableEq, Repr

end Sys2Proof.Machine
end

