-- ==== Sys2Proof/Machine/PlaneState.lean ====
section
/-! DEFINITION. State of replay and mirror, the telemetry link, the fabric, profile switching and the dictionary transfers
(06, 07, 16, 17), as plain data at its reset values. -/

namespace Sys2Proof.Machine

/-- An emit entry in a queue (06 R118): emit control value, raw frame record, emit count under the offset fixed at START, and when it
reached the queue (R120). -/
structure Emit where
  ctl : L48
  bytes : List Byte
  count : Int
  placed : Nat
  deriving DecidableEq, Repr

/-- A frame the transmitter has started or that waits for its bus (06 R121, R122): `arb` as in FLAGS, `due` the count it is
judged against, `own` a dictionary answer rather than an emit entry, `on` the count for which it was launched on an idle line (R120, R126). -/
structure Sending where
  ctl : L48
  bytes : List Byte
  due : Int
  arb : Bool
  own : Bool
  on : Option Int := none
  deriving DecidableEq, Repr

/-- The transmit side of one port (06): records of its source port that the feeder has not taken (with their own full counts), the emit queue,
how many entries from its front the transmitter's own buffer holds (R120), the frame waiting for bus idle, frames started and not complete, stored LIN responses by frame identifier with their emit control values, the output
level of an event pin, and the counts (under the offset fixed at START) of entries that were discarded dry before they reached the queue (R124). -/
structure TxPort where
  source : List (Int × List Byte) := []
  queue : List Emit := []
  buffered : Nat := 0
  waiting : List Sending := []
  started : List Sending := []
  linResp : Tab (L48 × List Byte) := []
  level : Bool := false
  gone : List Int := []
  dryLogAt : Option Nat := none
  deriving DecidableEq, Repr

/-- Replay (06): 0x2401:01 and :02, offset fixed at START and in force, total hold length, the hold in progress (its count H and
port), the source's reading position and state, the reference of the session's first segment (P when the start point is 0 : 0), and the slots
passed over since the last good segment; `doneAt` is when the source was found to have no further records. -/
structure Replay where
  st : Fin 7 := 0
  cause : Fin 8 := 0
  ports : Tab TxPort := []
  offset0 : Option Int := none
  offset : Int := 0
  holdTotal : Nat := 0
  held : Option (Int × Nat) := none
  nextSeq : Option Nat := none
  sessNo : Option (BitVec 32) := none
  sourceDone : Bool := false
  doneAt : Nat := 0
  prevHash : Option (List Byte) := none
  firstRef : Option Nat := none
  skips : Nat := 0
  deriving DecidableEq, Repr

/-- A record selected for the link (07 R135): class, lane, when it was selected, and its bytes. -/
structure LinkRec where
  cls : Nat
  lane : Nat
  since : Nat
  bytes : List Byte
  deriving DecidableEq, Repr

/-- An open link block of a lane and class (07 R136): its records, the predictor orders it opened with, and the channels whose order its Mill has been told
since (05 R100). -/
structure LinkOpen where
  recs : List LinkRec := []
  orders : Tab Nat := []
  told : List Nat := []
  deriving DecidableEq, Repr

/-- A closed link block waiting for its class's turn (07 R136, R137): its records, each with the time of its selection, and the block as it is coded. -/
structure LinkBlock where
  lane : Nat
  recs : List LinkRec
  orders : Tab Nat
  bytes : List Byte
  deriving DecidableEq, Repr

/-- A repair frame that waits to be sent (07 R139): its SEQ, the group's K and M, its IDX, its body, and when the oldest record of the group was selected
(R138). -/
structure RepairTx where
  seq : Nat
  k : Nat
  m : Nat
  idx : Nat
  body : List Byte
  oldest : Nat
  deriving DecidableEq, Repr

/-- A NAK that the pit sends and repeats (07 R141): the frame's KEYNO and SEQ, when it was first sent, and when last. -/
structure NakTx where
  keyno : BitVec 32
  seq : Nat
  first : Nat
  last : Nat
  deriving DecidableEq, Repr

/-- Session keys under one KEYNO (07 R143, R144). -/
structure LinkKeys where
  keyno : BitVec 32
  carToPit : List Byte
  pitToCar : List Byte
  deriving DecidableEq, Repr

/-- One path of the link (07 R145, R150). Of the pit's report interval: frames received, missing and malformed, the highest (KEYNO, SEQ), when the last report
was sent; `delays` the arrival delays of the last 10 s with their times, the last one first. Of the car: `freeAt` when the path's rate next lets a frame go,
`inGroup` how many frames of the last group it has carried.
`closedAt` is when the path was closed; `neighbour` that its gateway or remote address is resolved (R152). -/
structure LinkPath where
  rate : Nat := 0
  up : Bool := false
  lastReport : Option Nat := none
  freeAt : Nat := 0
  closed : Bool := false
  closedAt : Nat := 0
  badSecond : Nat := 0
  badCount : Nat := 0
  received : Nat := 0
  missing : Nat := 0
  highest : Nat × Nat := (0, 0)
  malformed : Nat := 0
  reportAt : Option Nat := none
  delays : List (Nat × Int) := []
  neighbour : Bool := false
  inGroup : Nat := 0
  deriving DecidableEq, Repr

/-- A frame of a code group at the pit (07 R139): IDX and plaintext body. -/
structure GroupRx where
  keyno : BitVec 32
  first : Nat
  k : Nat
  m : Nat
  path : Nat
  bodies : List (Nat × List Byte)
  done : Bool
  deriving DecidableEq, Repr

/-- A record the pit holds until its release time (07 R146). -/
structure HeldRec where
  release : Nat
  arrival : Nat
  lane : Nat
  count : Int
  bytes : List Byte
  deriving DecidableEq, Repr

/-- A class-0 frame the car keeps for 3 s (07 R141); `oldest` is when its oldest record was selected (R138). -/
structure KeptFrame where
  keyno : BitVec 32
  seq : Nat
  since : Nat
  body : List Byte
  oldest : Nat
  deriving DecidableEq, Repr

/-- The telemetry link (07). `role` is none when inactive, some true for the car end; `st` 0x2601:01, `cause` 0x2601:02. `hello` is the body of the
handshake in progress (the car's own, or the one the pit answered with `answer`), `ephem` the number of the ephemeral key, `shaking` that the car
still sends HELLO, `helloAt` when it last did, `keysAt` when the newest keys came, `fresh` that no frame under the newest key has come yet. `top` is the
highest (KEYNO, SEQ) received on any path; `resend` the frames asked for again that wait for the open group to close (R141); `shakeSeq` the next SEQ of HELLO
and ANSWER (R138), `groupOld` when the oldest record of the open group was selected, `mapDue` that no data frame has gone since the last handshake, so that the
first one carries the mapping (R147). -/
structure Link where
  role : Option Bool := none
  st : Fin 5 := 0
  cause : Fin 5 := 0
  decim : Tab Nat := []
  opened : Tab LinkOpen := []
  queues : Tab (List LinkBlock) := []
  paths : Tab LinkPath := []
  keys : Option LinkKeys := none
  oldKeys : Option LinkKeys := none
  oldUntil : Option Nat := none
  keyno : BitVec 32 := 0
  txSeq : Nat := 0
  hello : Option (List Byte) := none
  shaking : Bool := false
  ephem : Nat := 0
  answer : Option (List Byte) := none
  fresh : Bool := false
  level : Fin 6 := 0
  losses : List (Nat × Nat × Nat) := []
  group : List (List Byte) := []
  groupAt : Nat := 0
  groupK : Nat := 0
  groupM : Nat := 0
  groupOld : Nat := 0
  mapDue : Bool := false
  shakeSeq : Nat := 0
  repair : List RepairTx := []
  resend : List KeptFrame := []
  kept : List KeptFrame := []
  seen : List (BitVec 32 × Nat) := []
  groups : List GroupRx := []
  naks : List NakTx := []
  top : Nat × Nat := (0, 0)
  helloAt : Option Nat := none
  keysAt : Nat := 0
  held : List HeldRec := []
  waitO : List HeldRec := []
  released : Tab Int := []
  offset : Option Int := none
  authSecond : Nat := 0
  authCount : Nat := 0
  laneClash : Bool := false
  deriving DecidableEq, Repr

/-- One sequenced flit in a replay buffer, and how often it was sent (16 R345). -/
structure Unacked where
  flit : Flit
  sent : Nat
  deriving DecidableEq, Repr

/-- One fabric port (16). `st` is 0x2710:01; `credits` those held for sending, `owed` those to return, `space` the flits the partner may still
send, by virtual channel; `txq` flits waiting for a credit, each with the port whose receive buffer it still fills, if it came by one (R344); `nakFor` the
expected SEQ for which a NAK was sent, its reason and the SEQ dropped. -/
structure FabPort where
  st : Fin 7 := 0
  oneLane : Bool := false
  helloSeen : Bool := false
  partner : BitVec 64 := 0
  partnerNode : Option Byte := none
  partnerRole : BitVec 2 := 0
  txSeq : Byte := 0
  rxNext : Byte := 0
  unacked : List Unacked := []
  credits : Tab Nat := []
  owed : Tab Nat := []
  space : Tab Nat := []
  txq : List (Flit × Option Nat) := []
  nakFor : Option (Byte × Byte × Byte) := none
  violSecond : Nat := 0
  violCount : Nat := 0
  checkSecond : Nat := 0
  checkCount : Nat := 0
  req : Option Nat := none
  thetas : List Int := []
  exchanges : Nat := 0
  trainLogAt : Option Nat := none
  violLogAt : Option Nat := none
  deriving DecidableEq, Repr

/-- A neighbour entry of an advert (16 R343). -/
structure Neighbour where
  uid : BitVec 64
  port : Nat
  cost : Nat
  deriving DecidableEq, Repr

/-- A ROUTE advert in the database (16 R351). `flags` as HELLO byte 8. -/
structure Advert where
  uid : BitVec 64
  gen : BitVec 16
  flags : Byte
  node : Byte
  prio : Byte
  near : List Neighbour
  since : Nat
  deriving DecidableEq, Repr

/-- What an outstanding MGMT request is for (16 R358, 17 R374): the local caller's path, what is left of a piece to write, and of a piece to
read what has come and how much is still wanted. -/
structure MgmtOut where
  node : Byte
  tag : Byte
  path : Path
  write : Bool
  idx : BitVec 16
  sub : Byte
  off : Nat
  rest : List Byte
  got : List Byte
  want : Nat
  deriving DecidableEq, Repr

/-- The fabric (16). `routes` gives, by destination node, its ports in order, for MGMT and COMMIT, `dataRoutes` for DATA (R353); `parts` the DATA flits of records being received, by source node;
`exports` the export queue; `better` the device that could displace the master. -/
structure Fabric where
  st : Fin 4 := 0
  ports : Tab FabPort := []
  db : List Advert := []
  node : Option Byte := none
  master : Option (BitVec 64) := none
  better : Option (BitVec 64) := none
  gen : BitVec 16 := 0
  hops : Nat := 255
  routes : Tab (List Nat) := []
  dataRoutes : Tab (List Nat) := []
  out : List MgmtOut := []
  nextTag : Byte := 0
  exports : List (List Flit) := []
  parts : Tab (List Flit) := []
  joined : Bool := false
  hopLogAt : Option Nat := none
  deriving DecidableEq, Repr

/-- A profile (17 R385): values of the profile-scoped objects that differ from their defaults, and the two classifier tables. -/
structure Profile where
  vals : Tab Nat := []
  fkt : Tab (BitVec 144) := []
  sm : Tab (BitVec 192) := []
  deriving DecidableEq, Repr

/-- A pending profile switch (17 R389-R392, 16 R361): coordinator, commit tick T, slot, generations, units prepared and units found not
prepared, units that committed, the nodes that answered READY, and those marked in OUTCOME. `local_` is false for a PREPARE from another device, `done` once T has
passed, `split` once a unit or node was not prepared, `settled` once OUTCOME or what stands for it has been taken; `images` are the verified images that
prepared pods hold (13 R289), `profile` what the slot held when the units began to load it (R390), `outcome` the nodes of an OUTCOME that came before the own
commit (16 R361). -/
structure PendingSwitch where
  coord : BitVec 64
  local_ : Bool
  commitAt : Nat
  slot : Nat
  oldGen : BitVec 4
  newGen : BitVec 4
  prepared : List Nat
  refusedUnits : List Nat
  committed : List Nat
  ready : List Nat
  notReady : List Nat
  done : Bool
  split : Bool
  settled : Bool
  images : Tab (List Byte)
  profile : Profile := {}
  outcome : Option (List Nat) := none
  deriving DecidableEq, Repr

/-- Profiles and switching (17 R385-R395): stored slots, slot in force (255 defaults) and the one before the last commit, generations, 0x2800:0A to :0C, the shadow of the last
commit, generations of units by unit code, the saves whose flash writes have been accepted, each with the path it answers, and the switches (coordinator and T)
whose PREPARE and whose OUTCOME have been flooded on (16 R343, R361). -/
structure Switching where
  slots : Tab Profile := []
  slot : Nat := 255
  slotBefore : Nat := 255
  gen : BitVec 4 := 0
  issued : BitVec 4 := 0
  st : Fin 5 := 0
  lastT : Nat := 0
  pending : Option PendingSwitch := none
  shadow : Profile := {}
  units : Tab UnitGen := []
  saving : List (Path × Nat × Profile) := []
  prepSeen : List (BitVec 64 × Nat) := []
  outSeen : List (BitVec 64 × Nat) := []
  straps : Fin 8 := 0
  deriving DecidableEq, Repr

/-- A segmented CANopen transfer (17 R369). -/
structure Transfer where
  write : Bool
  idx : BitVec 16
  sub : Byte
  data : List Byte
  next : Byte
  deriving DecidableEq, Repr

/-- The mailbox registers of one PCIe controller (17 R371). -/
structure Mailbox where
  req : BitVec 32 := 0
  len : BitVec 13 := 0
  done : Bool := false
  err : Bool := false
  ie : Bool := false
  code : BitVec 32 := 0
  off : BitVec 32 := 0
  buf : List Byte := []
  logged : Bool := false
  deriving DecidableEq, Repr

/-- Dictionary access paths (17 R364): chip-time snapshots (02 R43), event-log cursors and entries passed over (18 R410), the
segmented transfer, the mailboxes, when an abort was last logged (17 R369), the node and tag of the MGMT request being served, and those of
requests whose action still runs, by object (17 R365), and the CAN path's port and node ID in force (17 R370). -/
structure Access where
  snaps : Tab (BitVec 32 × L48) := []
  cursors : Tab (BitVec 16) := []
  passed : Tab Nat := []
  transfer : Option Transfer := none
  boxes : Tab Mailbox := []
  abortLogAt : Option Nat := none
  caller : Option (Byte × Byte) := none
  owed : List (Nat × Byte × Byte) := []
  canPort : Nat := 0
  canNode : Nat := 1
  deriving DecidableEq, Repr

end Sys2Proof.Machine
end

