-- ==== Sys2Proof/Machine/State.lean ====
section
/-! DEFINITION. The whole state of the TF1024, its reset state, and the reasons a step can stop. -/

namespace Sys2Proof.Machine

/-- Reasons to stop with a fault. No command of this block faults: an access to an address that does not exist gets the error response of
15 R333, which is an effect. Raised by nobody; safe. -/
inductive Fault where
  /-- Raised by no command: kept so that the type is not empty. Safe. -/
  | unused
  deriving DecidableEq, Repr

/-- Reasons to refuse a command. -/
inductive Refusal where
  /-- Raised by `exec` for a command that has no meaning yet. Safe: nothing is claimed of it. -/
  | notModelled (mnemonic : String)
  deriving DecidableEq, Repr

/-- The state of the block. `od` is the dictionary's store of values that have been written, by index x 256 + subindex (17), an unlisted one being at its default;
`eng` the engines by number (unlisted engines are at their engine-reset values, 08 R157); `net` the records on the stream network
between outgoing queues and routers (08 R176); `side` the rows outside the address map that hold an uncorrectable byte (14 R297); `out` what has been sent to the world outside; `free` the model's own counter that
numbers free values; `pending` the commands that wait, first in, first out. -/
structure State where
  tb : TimeBase := {}
  log : EventLog := {}
  sess : Session := {}
  od : Tab Nat := []
  acc : Access := {}
  ports : Tab Port := []
  cls : Classifier := {}
  store : Store := {}
  rep : Replay := {}
  link : Link := {}
  fab : Fabric := {}
  sw : Switching := {}
  eng : Tab Engine := []
  pods : Tab Pod := []
  net : List StreamRec := []
  xbar : Xbar := {}
  mem : Memory := {}
  side : List SideFail := []
  pst : Pestle := {}
  pwr : Power := {}
  test : TestPort := {}
  out : List Output := []
  free : Nat := 0
  pending : List Instr := []
  deriving DecidableEq, Repr

/-- The machine right after power-on reset (19 R437, R439): chip time 0 : 0 (02 R26), the event log holding the entry that records the reset
under SEQ 0 (18 R407), a store restart with cause 2 due (05 R107), firmware slot A holding valid firmware (log entry 4),
and no command waiting. -/
def State.reset : State :=
  { log := { next := 1, rows := [⟨0, 0, 0xC0, 3, 0x2901, 1, 0⟩] },
    store := { restart := [(2, 0)] },
    pst := { slotA := { result := 1 } } }

end Sys2Proof.Machine
end

