-- ==== Sys2Proof/Machine/Base.lean ====
section
/-! DEFINITION. Named operations every family shares: chip time, the dictionary store, ports, free values, sending. -/

namespace Sys2Proof.Machine

/-! Chip time (02). -/

/-- The full 80-bit count c = epoch x 2^48 + tick (02 R26). -/
def State.now (s : State) : Nat := s.tb.epoch.toNat * 2 ^ 48 + s.tb.tick.toNat

/-- Set chip time to a full count, modulo 2^80 (02 R26, R37). -/
def State.setTime (s : State) (c : Nat) : State :=
  { s with tb := { s.tb with epoch := BitVec.ofNat 32 (c / 2 ^ 48), tick := BitVec.ofNat 48 c } }

/-- Let chip time run on to a count that lies ahead in the present epoch (log entry 5); only `tickWrap` crosses a wrap. -/
def State.reach (s : State) (c : Nat) : State :=
  if s.now < c then s.setTime (min c (s.tb.epoch.toNat * 2 ^ 48 + (2 ^ 48 - 1))) else s

/-- The same for a signed count, which may lie before 0 : 0 (02 R30). -/
def State.reachInt (s : State) (c : Int) : State := s.reach c.toNat

/-- Milliseconds in ticks (00 R9). -/
def msTicks (n : Nat) : Nat := n * 4000000

/-- Microseconds in ticks (00 R9). -/
def usTicks (n : Nat) : Nat := n * 4000

/-- One second in ticks (00 R9). -/
def secTicks : Nat := 4000000000

/-- Whether an event limited to once per second may be logged again. -/
def onceASecond (now : Nat) (last : Option Nat) : Bool :=
  match last with
  | none => true
  | some t => t + secTicks ≤ now || now < t

/-! Serial-number comparison of a tick with chip time (02 R45, R46). -/

/-- Chip time runs on to the tick of a count, compared under R46: one that is due is not waited for. -/
def State.reachTick (s : State) (c : Nat) : State :=
  if tickDue s.now c then s else s.reach (s.now + (c + 2 ^ 48 - s.now % 2 ^ 48) % 2 ^ 48)

/-! Free values (log entry 2). -/

/-- A free value for the use `u`, and the state after drawing it. -/
def State.draw (s : State) (u : Nat) : Nat × State := (Config.freeValue u s.free, { s with free := s.free + 1 })

/-! Sending. -/

/-- Send something to the world outside. -/
def State.send (s : State) (o : Output) : State := { s with out := s.out ++ [o] }

/-! The dictionary store (17). -/

/-- The value of an object in the store, or its default. -/
def State.cfg (s : State) (idx sub : Nat) : Nat := (s.od.find (odKey idx sub)).getD (dictDefault idx sub)

/-- The value of a signed object of `w` bits. -/
def State.cfgInt (s : State) (w idx sub : Nat) : Int := toSigned w (s.cfg idx sub)

/-- Put a value into the store. -/
def State.put (s : State) (idx sub v : Nat) : State := { s with od := s.od.set (odKey idx sub) v }

/-- Add `n` to a counter of `bytes` bytes that holds at its maximum. -/
def State.bumpBy (s : State) (idx sub bytes n : Nat) : State :=
  if n = 0 then s else s.put idx sub (satAdd (2 ^ (8 * bytes) - 1) (s.cfg idx sub) n)

/-- Add 1 to an UNSIGNED32 counter that holds at its maximum. -/
def State.bump (s : State) (idx sub : Nat) : State := s.bumpBy idx sub 4 1

/-- Clear counters at subindices `a` to `b` of an index. -/
def State.clearCounters (s : State) (idx a b : Nat) : State :=
  (List.range (b + 1 - a)).foldl (fun t i => t.put idx (a + i) (dictDefault idx (a + i))) s

/-- A value of a stored profile. -/
def Profile.value (x : Profile) (idx sub : Nat) : Nat := (x.vals.find (odKey idx sub)).getD (dictDefault idx sub)

/-! Ports (03 R49). -/

/-- Index of a port's object. -/
def portIdx (p : Nat) : Nat := 0x2310 + p

/-- A setting of a port. -/
def State.portCfg (s : State) (p sub : Nat) : Nat := s.cfg (portIdx p) sub

/-- The state of a port. -/
def State.port (s : State) (p : Nat) : Port := s.ports.get {} p

/-- Change the state of a port. -/
def State.setPort (s : State) (p : Nat) (q : Port) : State := { s with ports := s.ports.set p q }

/-- Kinds of port by number (03 R49). -/
inductive PortKind where
  | can
  | lsp
  | evt
  | smp
  | mac
  | absent
  deriving DecidableEq, Repr

/-- Kind of a port number (03 R49). -/
def portKind (p : Nat) : PortKind :=
  if p < 0x60 then .can else if p < 0x80 then .lsp else if p < 0xA0 then .evt
  else if p < 0xA8 then .smp else if p < 0xB0 then .absent else if p < 0xC0 then .mac else .absent

/-- Port number of MAC `m`, LSP `l`, sample port `k`. -/
def macPort (m : Nat) : Nat := 0xB0 + m
/-- Port number of LSP `l`. -/
def lspPort (l : Nat) : Nat := 0x60 + l
/-- Port number of sample port `k`. -/
def smpPort (k : Nat) : Nat := 0xA0 + k

/-- Every port number produced. -/
def allPorts : List Nat := List.range 0xA8 ++ (List.range 16).map (0xB0 + ·)

/-! Units of a profile switch (17 R390). -/

/-- Code of a unit: CAN ports 0-95, LSPs 96-127, MACs 128-143, pods 144-175, Mills 176-207, classifier 208, core units 209-215
(event pins, sample ports, time base, session store, link, fabric settings, power behaviour). -/
def unitCode : Unit_ → Nat
  | .canPort p => p.val
  | .lsp p => 96 + p.val
  | .mac p => 128 + p.val
  | .pod p => 144 + p.val
  | .mill p => 176 + p.val
  | .classifier => 208
  | .core k => 209 + k.val

/-- The unit a port belongs to. -/
def portUnit (p : Nat) : Nat :=
  match portKind p with
  | .can => p
  | .lsp => 96 + (p - 0x60)
  | .mac => 128 + (p - 0xB0)
  | .smp => 210
  | _ => 209

/-- A setting of a port as it was before the last commit (03 R50). -/
def State.portOld (s : State) (p sub : Nat) : Nat := s.sw.shadow.value (portIdx p) sub

/-- The generation a record carries whose frame started at a count (03 R50, 17 R391). -/
def State.genAt (s : State) (unit : Nat) (count : Int) : Nat :=
  let u := s.sw.units.get {} unit
  if count < (u.since : Int) then u.old.toNat else u.gen.toNat

/-! Session. -/

/-- Activity bits (17 R377): 0 record, 1 replay, 2 mirror, 3 link-car, 4 link-pit. -/
def State.acting (s : State) (bit : Nat) : Bool := s.sess.acts.getLsbD bit

/-- A session runs from START to the end of DRAINING or the STOP that leaves FAULT (17 R375). -/
def State.inSession (s : State) : Bool :=
  s.sess.st = .running || s.sess.st = .draining || s.sess.st = .fault

/-- Whether captured records enter the session: RUNNING, or FAULT, in which capture goes on (17 R376). -/
def State.capturing (s : State) : Bool := s.sess.st = .running || s.sess.st = .fault

/-- Whether records are stored (01 R17): record is named and the session is on. -/
def State.recording (s : State) : Bool := s.acting 0 && s.capturing

/-! Engines and pods. -/

/-- An engine by number. -/
def State.engine (s : State) (e : Nat) : Engine := s.eng.get {} e

/-- Change an engine. -/
def State.setEngine (s : State) (e : Nat) (x : Engine) : State := { s with eng := s.eng.set e x }

/-- Bits of the pods that have a property. -/
def podBits (f : Nat → Bool) : Nat := ((List.range 32).map fun p => 2 ^ p * bit01 (f p)).sum

/-- A pod by number. -/
def State.pod (s : State) (p : Nat) : Pod := s.pods.get {} p

/-- Change a pod. -/
def State.setPod (s : State) (p : Nat) (x : Pod) : State := { s with pods := s.pods.set p x }

/-! Copies in flash (18 R399). -/

/-- Where the two copies of the boot descriptor lie. -/
def descriptorCopies : List Nat := [0x0, 0x10000]

/-- Where the eight slots of the configuration store lie. -/
def configCopies : List Nat := (List.range 8).map fun i => 0x850000 + 0x10000 * i

/-- Where the two copies of a profile slot lie. -/
def profileCopies (slot : Nat) : List Nat := [0x900000 + 0x800000 * slot, 0xD00000 + 0x800000 * slot]

/-- The newest copy of an item, by write counts; none before the first write. -/
def newestCopy (writes : Tab (BitVec 32)) (copies : List Nat) : Option Nat :=
  (copies.filter fun k => (Tab.find writes k).isSome).foldl (fun best k =>
    match best with
    | none => some k
    | some b => if serial 32 (Tab.get 0 writes b).toNat (Tab.get 0 writes k).toNat = .later then some k else best) none

/-- An item is saved: of two copies into the older one, of the configuration store into the slot after the newest, with the next write count. -/
def Pestle.wrote (x : Pestle) (copies : List Nat) : Pestle :=
  match newestCopy x.writes copies with
  | none => { x with writes := x.writes.set (copies.headD 0) 1 }
  | some k => { x with writes := x.writes.set (copies.getD ((copies.idxOf k + 1) % copies.length) 0) (Tab.get 0 x.writes k + 1) }

/-- An item in flash is saved. -/
def State.wrote (s : State) (copies : List Nat) : State := { s with pst := s.pst.wrote copies }

end Sys2Proof.Machine
end

