-- ==== Sys2Proof/Machine/Mem.lean ====
section
/-! DEFINITION. The byte memory (14): where each memory lies in it, its canonical form, its reads with the codes of 14 and its writes. Every byte
is kept at one home address: that of 15 R327, the boot ROM in low slot 0, MSRAM in low slot 1, Pestle's DMEM beyond 2^40. -/

namespace Sys2Proof.Machine

/-- The memories of 14 R297 that the byte memory holds. -/
inductive MemKind where
  | bootRom
  | msram
  | staging
  | pmem
  | imem
  | dmem
  | dram
  | absent
  deriving DecidableEq, Repr

/-- First byte of MSRAM's home. -/
def msramBase : Nat := 0x100000
/-- First byte of the staging store. -/
def stagingBase : Nat := 0x100000000
/-- First byte of the pod windows. -/
def pmemBase : Nat := 0x200000000
/-- First byte of the engine blocks. -/
def engBlock : Nat := 0x410000000
/-- First byte of DRAM. -/
def dramBase : Nat := 0x1000000000
/-- First byte of the home of Pestle's DMEM (18 R396). -/
def pdmemBase : Nat := 0x10000000000

/-- First byte beyond usable DRAM, within the 40 bits of an address (14 R312, 15 R327). -/
def dramEnd : Nat := min pdmemBase (dramBase + Config.dramUsable)

/-- Which memory holds a home address (14 R297, 15 R327, R329). -/
def memKind (a : Nat) : MemKind :=
  if a < 0x40000 then .bootRom
  else if msramBase ≤ a && a < msramBase + 786432 then .msram
  else if stagingBase ≤ a && a < stagingBase + 75497472 then .staging
  else if pmemBase ≤ a && a < pmemBase + 0x4000000 then (if (a - pmemBase) % 0x200000 < 1179648 then .pmem else .absent)
  else if engBlock ≤ a && a < engBlock + 0x10000000 then
    let o := (a - engBlock) % 0x800000
    if o < 0x100000 then .imem
    else if o < 0x500000 && (o - 0x100000) % 0x20000 < 73728 then .dmem
    else .absent
  else if dramBase ≤ a && a < dramEnd then .dram
  else if pdmemBase ≤ a && a < pdmemBase + 0x80000 && (a - pdmemBase) % 0x20000 < 73728 then .dmem
  else .absent

/-- Home of byte `k` of word `w` of an engine's DMEM; Pestle engine `j` is engine 1,024 + j. -/
def dmemAddr (e w k : Nat) : Nat :=
  if e < 1024 then engBlock + e / 32 * 0x800000 + 0x100000 + e % 32 * 0x20000 + 3 * w + k else pdmemBase + (e - 1024) * 0x20000 + 3 * w + k

/-- Home of byte `k` of bundle `n` of an engine's IMEM. -/
def imemAddr (e n k : Nat) : Nat := engBlock + e / 32 * 0x800000 + e % 32 * 0x8000 + 16 * n + k

/-- Home of byte `k` of word `w` of a pod's PMEM. -/
def pmemAddr (p w k : Nat) : Nat := pmemBase + p * 0x200000 + 3 * w + k

/-- What an unlisted byte reads as: the boot ROM's contents, nothing for DRAM that nothing has written (14 R312), and 0 elsewhere (13 R280). -/
def unlisted (a : Nat) : Option Byte :=
  match memKind a with
  | .bootRom => some (Config.bootRom a)
  | .dram => none
  | _ => some 0

/-- The byte stored at a home address, as its writer meant it. -/
def Memory.byte (m : Memory) (a : Nat) : Option Byte :=
  match Tab.find m.cells a with
  | some v => some v
  | none => unlisted a

/-- Whether keys rise strictly. -/
def rising : List (Nat × Byte) → Bool
  | [] => true
  | [_] => true
  | x :: y :: t => x.1 < y.1 && rising (y :: t)

/-- The canonical form: addresses strictly rising, and no entry equal to what an unlisted address reads as. -/
def Memory.wf (m : Memory) : Bool := rising m.cells && m.cells.all fun e => unlisted e.1 != some e.2

/-- Store a byte, keeping the canonical form. -/
def Memory.setByte (m : Memory) (a : Nat) (v : Byte) : Memory :=
  { m with cells := if unlisted a = some v then Tab.erase m.cells a else Tab.set m.cells a v }

/-- Whether a row is one of the homes that `p` selects. -/
def RowId.homeIn (p : Nat → Bool) : RowId → Bool
  | .home a => p a
  | .side _ => false

/-- Forget every byte of the homes that `p` selects, so that they read as unlisted. -/
def Memory.forget (m : Memory) (p : Nat → Bool) : Memory :=
  { m with cells := m.cells.filter (fun e => !p e.1), bad := m.bad.filter (fun e => !p e.1), cel := m.cel.filter (fun a => !a.homeIn p),
           rewrite := m.rewrite.filter (fun a => !a.1.homeIn p) }

/-- The row that holds a home address: its first byte and its length (14 R297). -/
def memRow (a : Nat) : Nat × Nat :=
  match memKind a with
  | .bootRom => (a / 16 * 16, 16)
  | .msram => (msramBase + (a - msramBase) / 6 * 6, 6)
  | .staging => (stagingBase + (a - stagingBase) / 48 * 48, 48)
  | .pmem => let o := (a - pmemBase) % 0x200000
             (a - o % 6, 6)
  | .imem => (a / 16 * 16, 16)
  | .dmem => let o := if pdmemBase ≤ a then (a - pdmemBase) % 0x20000 else ((a - engBlock) % 0x800000 - 0x100000) % 0x20000
             (a - o % 6, 6)
  | .dram => (a / 32 * 32, 32)
  | .absent => (a, 1)

/-- MACRO of a home address, and its row within the macro (14 R319). The boot ROM's MACRO, for which the table has no class, is a free value. -/
def memMacro (a : Nat) : Nat × Nat :=
  let put := fun c u m row => (c * 0x100000 + u * 256 + m, row)
  match memKind a with
  | .imem => let o := (a - engBlock) % 0x800000
             put 0 (32 * ((a - engBlock) / 0x800000) + o / 0x8000) 0 (o % 0x8000 / 16)
  | .dmem =>
    if pdmemBase ≤ a then
      let w := (a - pdmemBase) % 0x20000 / 3
      put 1 (1024 + (a - pdmemBase) / 0x20000) (w / 2 % 4) (w / 8)
    else
      let o := (a - engBlock) % 0x800000 - 0x100000
      let w := o % 0x20000 / 3
      put 1 (32 * ((a - engBlock) / 0x800000) + o / 0x20000) (w / 2 % 4) (w / 8)
  | .pmem => let w := (a - pmemBase) % 0x200000 / 3
             put 2 ((a - pmemBase) / 0x200000) (3 * (w / 2 % 16) + w / 32 / 4096) (w / 32 % 4096)
  | .staging => let n := (a - stagingBase) / 48
                put 3 (n % 8) (n / 8 / 4096) (n / 8 % 4096)
  | .msram => let w := (a - msramBase) / 3
              put 4 0 (8 * (w / 2 % 4) + w / 8 / 4096) (w / 8 % 4096)
  | .bootRom => (Config.romMacro.toNat, a / 16)
  | _ => (0, 0)

/-- The byte of a home as its writer meant it, 0 where nothing is written. -/
def Memory.meant (m : Memory) (a : Nat) : Byte := (m.byte a).getD 0

/-- The codeword stored for a byte: that of its value with the wrong bits inverted (14 R305, R318). -/
def Memory.stored (m : Memory) (a : Nat) : BitVec 13 := codeword (m.meant a) ^^^ m.bad.get 0 a

/-- Decode the codeword of a byte (14 R306). -/
def Memory.decode (m : Memory) (a : Nat) : InnerOut := if m.bad.get 0 a = 0 then .clean (m.meant a) else innerDecode (m.stored a)

/-- Set the wrong bits of a codeword. -/
def Memory.setBad (m : Memory) (a : Nat) (v : BitVec 13) : Memory := { m with bad := if v = 0 then m.bad.erase a else m.bad.set a v }

/-- A byte that could not be corrected: its row, its place in it, and its stored codeword. -/
structure RowFail where
  row : Nat
  place : Nat
  code : BitVec 13
  deriving DecidableEq, Repr

/-- What a read of one row gives: the delivered bytes, whether the inner code corrected a byte, whether the outer code corrected the line, and the
byte that could not be corrected. -/
structure RowRead where
  data : List Byte
  inner : Bool
  outer : Bool
  fail : Option RowFail
  deriving DecidableEq, Repr

/-- The byte an inner decoding delivers, 0 for one it cannot correct. -/
def InnerOut.val : InnerOut → Byte
  | .clean d => d
  | .corrected d _ => d
  | .bad => 0

/-- Whether an inner decoding corrected. -/
def InnerOut.fixed : InnerOut → Bool
  | .corrected _ _ => true
  | _ => false

/-- Read `n` bytes under the inner code alone. -/
def Memory.readInner (m : Memory) (a n : Nat) : RowRead :=
  let outs := (List.range n).map fun i => m.decode (a + i)
  ⟨outs.map (·.val), outs.any (·.fixed), false,
    ((List.range n).find? fun i => m.decode (a + i) = .bad).map fun i => ⟨(memRow a).1, a + i - (memRow a).1, m.stored (a + i)⟩⟩

/-! Staging-store lines (14 R309 to R311). A line's check bytes have homes beyond every address; their wrong bits stand against the check bytes of the line
as its writers meant it. -/

/-- Home of check byte `j` of the line that begins at a home. -/
def checkHome (line j : Nat) : Nat := 0x20000000000 + 4 * ((line - stagingBase) / 48) + j

/-- The homes of a line's 52 bytes, in the order of the codeword. -/
def lineHomes (line : Nat) : List Nat := (List.range 48).map (line + ·) ++ (List.range 4).map (checkHome line)

/-- The check bytes of a line as its writers meant it. -/
def Memory.lineCheck (m : Memory) (line : Nat) : List Byte := rsCheck ((List.range 48).map fun i => m.meant (line + i))

/-- The stored codewords of a line's four check bytes. -/
def Memory.checkStored (m : Memory) (line : Nat) : List (BitVec 13) :=
  (m.lineCheck line).zipIdx.map fun c => codeword c.1 ^^^ m.bad.get 0 (checkHome line c.2)

/-- Store codewords for a line's check bytes. -/
def Memory.setChecks (m : Memory) (line : Nat) (c : List (BitVec 13)) : Memory :=
  (c.zip (m.lineCheck line)).zipIdx.foldl (fun t x => t.setBad (checkHome line x.2) (x.1.1 ^^^ codeword x.1.2)) m

/-- Whether every one of a line's 52 bytes is stored as it should be. -/
def Memory.lineSound (m : Memory) (line : Nat) : Bool := m.bad.isEmpty || (lineHomes line).all fun h => m.bad.get 0 h = 0

/-- The stored codewords of a row, each with its home: those of a line's check bytes come last. -/
def Memory.rowCodes (m : Memory) (row len : Nat) : List (Nat × BitVec 13) :=
  ((List.range len).map fun i => (row + i, m.stored (row + i))) ++
  (if memKind row = .staging then (m.checkStored row).zipIdx.map fun c => (checkHome row c.2, c.1) else [])

/-- Decode a line's 52 stored codewords in the two steps of 14 R310: the corrected bytes, and whether the outer code changed one; none when it has failed. -/
def lineDecode (l : List (BitVec 13)) : Option (List Byte × Bool) :=
  let outs := l.map innerDecode
  let lost := (List.range 52).filter fun i => outs.getD i .bad = .bad
  (rsDecode 52 (outs.map (·.val)) lost).map fun w => (w.1, !lost.isEmpty || !w.2.isEmpty)

/-- Read a whole staging-store line from its first byte (14 R310). -/
def Memory.readLine (m : Memory) (a : Nat) : RowRead :=
  if m.lineSound a then ⟨(List.range 48).map fun i => m.meant (a + i), false, false, none⟩
  else
    let l := (m.rowCodes a 48).map (·.2)
    let inner := l.any fun c => (innerDecode c).fixed
    match lineDecode l with
    | none =>
      let k := l.findIdx fun c => innerDecode c = .bad
      ⟨zeros 48, inner, false, some ⟨a, k % 52, l.getD (k % 52) 0⟩⟩
    | some w => ⟨w.1.take 48, inner, w.2, none⟩

/-- Read `n` bytes that lie in one row or line of an SRAM or the boot ROM. -/
def Memory.readRow (m : Memory) (a n : Nat) : RowRead :=
  if memKind a = .staging then
    let base := (memRow a).1
    let r := m.readLine base
    { r with data := slice r.data (a - base) n }
  else m.readInner a n

/-- Put a row into the correctable-error list, which holds 16 (14 R307). -/
def Memory.listRow (m : Memory) (r : RowId) : Memory := if m.cel.contains r || 16 ≤ m.cel.length then m else { m with cel := m.cel ++ [r] }

/-- A write has reached a row of the byte memory: a write-back that waits for it is dropped, and the row is visited again (14 R316). -/
def Memory.touch (m : Memory) (row : Nat) : Memory :=
  if m.rewrite.any (·.1 = .home row) then ({ m with rewrite := m.rewrite.filter (·.1 ≠ .home row) } : Memory).listRow (.home row) else m

/-- The codeword bits that an armed injection inverts (14 R318). -/
def injMask (hi : BitVec 32) : BitVec 13 :=
  let b := if 13 ≤ (hi.toNat / 2 ^ 25) % 16 then 0 else (hi.toNat / 2 ^ 25) % 16
  (1#13 <<< b) ^^^ (if hi.getLsbD 30 then 1#13 <<< ((b + 1) % 13) else 0)

/-- Write one byte: its new codeword replaces the old one whole (14 R308); an injection armed for its home is made (14 R318). `inj` is the
home of the armed byte. A write to a row stops a write-back of it (14 R316). -/
def Memory.writeByte (m : Memory) (inj : Option Nat) (a : Nat) (v : Byte) : Memory :=
  let m1 := (m.setByte a v).touch (memRow a).1
  let m2 := { m1 with bad := m1.bad.erase a }
  if inj = some a then { m2 with bad := m2.bad.set a (injMask m2.injHi), inject := false } else m2

/-- Write bytes from a home address on; an armed injection is made once. -/
def Memory.writeBytes (m : Memory) (inj : Option Nat) (a : Nat) : List Byte → Memory
  | [] => m
  | v :: t => Memory.writeBytes (m.writeByte (if m.inject then inj else none) a v) inj (a + 1) t

/-- Write bytes of a line: of a whole line, all 52 anew; of a part, once the line has been read as `d`, the bytes and the check bytes of the merged line, and
every other byte stays as it stands, bad ones included (14 R311). -/
def Memory.writeLine (m : Memory) (inj : Option Nat) (a : Nat) (l : List Byte) (d : List Byte) : Memory :=
  let line := (memRow a).1
  let m1 := m.writeBytes inj a l
  if m.lineSound line then m1 else m1.setChecks line ((rsCheck (d.take (a - line) ++ l ++ d.drop (a - line + l.length))).map codeword)

/-! DRAM blocks (14 R312): the wrong bits of data and check bytes stand against the block as its writers meant it. -/

/-- Home of check byte `j` of a DRAM block, in the top ninth of the capacity, which no address reaches. -/
def dramCheck (block j : Nat) : Nat := 0x20000000000 + 4 * (block / 32) + j

/-- The homes of a block's 36 bytes, in the order of the codeword. -/
def blockHomes (block : Nat) : List Nat := (List.range 32).map (block + ·) ++ (List.range 4).map (dramCheck block)

/-- The bytes of a block as its writers meant it. -/
def Memory.blockMeant (m : Memory) (block : Nat) : List Byte := (List.range 32).map fun i => m.meant (block + i)

/-- Read a block that has been written: its bytes, and whether the code corrected one; none when it is beyond correction. -/
def Memory.decodeBlock (m : Memory) (block : Nat) : Option (List Byte × Bool) :=
  let l := m.blockMeant block
  let wrong := (blockHomes block).map (m.dbad.get 0)
  if m.dramBad.contains block then none
  else if wrong.all (· = 0) then some (l, false)
  else (rsDecode 36 (List.zipWith (· ^^^ ·) (l ++ rsCheck l) wrong) []).map fun w => (w.1.take 32, true)

/-- A whole block is written: nothing in it is wrong. -/
def Memory.putBlock (m : Memory) (block : Nat) (l : List Byte) : Memory :=
  let m1 := m.writeBytes none block l
  { m1 with dramBad := m1.dramBad.filter (· != block), dbad := if m1.dbad.isEmpty then m1.dbad else (blockHomes block).foldl Tab.erase m1.dbad }

/-- The domain memories of one pod: its PMEM and its engines' IMEM and DMEM. -/
def podHome (p a : Nat) : Bool :=
  (pmemBase + p * 0x200000 ≤ a && a < pmemBase + (p + 1) * 0x200000) || (engBlock + p * 0x800000 ≤ a && a < engBlock + (p + 1) * 0x800000)

/-- The pod a home address belongs to, if it lies in a pod. -/
def podOf (a : Nat) : Option Nat :=
  if pmemBase ≤ a && a < pmemBase + 0x4000000 then some ((a - pmemBase) / 0x200000)
  else if engBlock ≤ a && a < engBlock + 0x10000000 then some ((a - engBlock) / 0x800000)
  else none

/-- Home of the byte that an armed injection waits for, as far as it lies in a pod: the plain windows are homes, the aliases lie beside them (14 R318). -/
def Memory.injAt (m : Memory) : Option Nat :=
  let a := m.injLo.toNat + 2 ^ 32 * (m.injHi.toNat % 256)
  if !m.inject then none
  else if 0x240000000 ≤ a && a < 0x244000000 then some (a - 0x40000000)
  else if 0x280000000 ≤ a && a < 0x284000000 then some (a - 0x80000000)
  else some a

/-! Repair (14 R319 to R322). -/

/-- The newer sound copy of the repair record (18 R399). -/
def Memory.record (m : Memory) : Option RepairRecord :=
  if m.recA.sound && m.recB.sound then (if serial 32 m.recA.count.toNat m.recB.count.toNat = .later then some m.recB else some m.recA)
  else if m.recA.sound then some m.recA else if m.recB.sound then some m.recB else none

/-- The record that counts: one that is missing, or carries another device's DEVUID, is ignored (14 R320). -/
def Memory.ownRecord (m : Memory) : RepairRecord :=
  match m.record with
  | some r => if r.other.isNone then r else {}
  | none => {}

/-- Write the record, with TEST and entries, into its older copy (18 R399). -/
def Memory.writeRecord (m : Memory) (test : Bool) (entries : List RepairEntry) : Memory :=
  let n := ((m.record.map (·.count)).getD 0) + 1
  let r : RepairRecord := { count := n, test := test, entries := entries.take 2048 }
  if m.record = some m.recA && m.recA.sound then { m with recB := r } else { m with recA := r }

/-- Bytes of an entry of the record (14 R320). -/
def RepairEntry.bytes (e : RepairEntry) : List Byte :=
  leBytes 3 e.macro_.toNat ++ leBytes 2 (e.column % 4096) ++ [BitVec.ofNat 8 (e.spare.val + 4 * e.source.val)] ++ zeros 2

/-- The bytes of a sound repair record (14 R320), of the device itself where it carries no other's DEVUID. -/
def RepairRecord.bytes (r : RepairRecord) : List Byte :=
  let l := [0x43, 0x50, 0x5A, 0x52, 1, BitVec.ofNat 8 (bit01 r.test)] ++ leBytes 2 r.entries.length ++ leBytes 8 (r.other.getD Config.uid).toNat ++
    r.entries.flatMap RepairEntry.bytes
  l ++ leBytes 4 (crc32c l).toNat

/-- Columns of a macro, 13 for each byte of its rows; none for a MACRO that 14 R319 does not produce. The DMEM of Pestle engine `j` is that of engine
1,024 + j (DESIGN CHOICE, log entry 61: the table leaves it out). -/
def macroColumns (mac : Nat) : Option Nat :=
  let unit := bits mac 8 12
  let k := mac % 256
  match mac / 2 ^ 20 with
  | 0 => if unit < 1024 && k = 0 then some (13 * 16) else none
  | 1 => if unit < 1028 && k < 4 then some (13 * 6) else none
  | 2 => if unit < 32 && k < 48 then some (13 * 6) else none
  | 3 => if unit < 8 && k < 48 then some (13 * 52) else none
  | 4 => if unit = 0 && k < 32 then some (13 * 6) else none
  | 5 => if unit < 2 && k < 4 then some (13 * 18) else if (unit = 2 || unit = 3) && k < 16 then some (13 * 24)
         else if unit = 4 && k < 16 then some (13 * 7) else none
  | 6 => if k != 0 && !(unit = 3072 && k < 2) then none
         else if unit < 544 || unit = 3072 || unit = 3073 then some (13 * 16) else if 1024 ≤ unit && unit < 2052 then some (13 * 6) else none
  | 7 => if unit = 0 && k < 2 then some (13 * 16) else none
  | _ => none

/-- Whether a spare of a macro is in use: by the fuses, which take the first ones (DESIGN CHOICE, log entry 61), or by some entries. -/
def spareUsed (l : List RepairEntry) (mac k : Nat) : Bool := decide (k < Config.fuseSpares mac) || l.any fun e => e.macro_.toNat = mac && e.spare.val = k

/-- The first free spare of a macro. -/
def freeSpare (l : List RepairEntry) (mac : Nat) : Option (Fin 4) := (List.finRange 4).find? fun k => !spareUsed l mac k.val

/-- Whether some entries give a column of a macro a spare. -/
def repaired (l : List RepairEntry) (mac col : Nat) : Bool := l.any fun e => e.macro_.toNat = mac && e.column = col

/-- What has spares, or has them promised for the next boot: the spares in force, the record and the candidates held (14 R321, R322). -/
def Memory.taken (m : Memory) : List RepairEntry := m.spares ++ m.ownRecord.entries ++ m.candidates

/-- The fuse loader takes an entry of the record, or passes it over: a spare already in use, a column beyond the row, a MACRO that is not produced (14
R320). -/
def Memory.assign (m : Memory) (e : RepairEntry) : Memory :=
  let mac := e.macro_.toNat
  if (macroColumns mac).any (e.column < ·) && !spareUsed m.spares mac e.spare.val then { m with spares := m.spares ++ [e], assigned := m.assigned + 1 }
  else { m with skipped := m.skipped ++ [e] }

/-- The fuse loader assigns the record's spares anew (14 R320). -/
def Memory.assignRecord (m : Memory) : Memory := m.ownRecord.entries.foldl Memory.assign { m with spares := [], assigned := 0, skipped := [] }

/-- The power-on memory test over the failing columns (14 R321): each that still has a free spare receives one at once; the macros without one. -/
def Memory.testColumns (m : Memory) : List (BitVec 24 × Nat) → Memory × List Nat
  | [] => (m, [])
  | c :: t =>
    let mac := c.1.toNat
    if repaired m.spares mac c.2 then Memory.testColumns m t
    else match freeSpare m.spares mac with
      | some k => Memory.testColumns { m with spares := m.spares ++ [⟨c.1, c.2, k, 0⟩], found := m.found ++ [⟨c.1, c.2, k, 0⟩] } t
      | none =>
        let r := Memory.testColumns m t
        (r.1, mac :: r.2)

/-- The bits of a byte's codeword that a memory macro still holds itself: a spare has taken over the others (14 R319). `place` is the byte's place in
its row. -/
def Memory.liveBits (m : Memory) (mac place : Nat) (v : BitVec 13) : BitVec 13 :=
  (List.range 13).foldl (fun w j => if repaired m.spares mac (13 * place + j) then w &&& ~~~(1#13 <<< j) else w) v

/-- The pod that a macro lies in, if it lies in one (14 R319). -/
def macroPod (mac : Nat) : Option Nat :=
  let unit := bits mac 8 12
  match mac / 2 ^ 20 with
  | 0 => if unit < 1024 then some (unit / 32) else none
  | 1 => if unit < 1024 then some (unit / 32) else none
  | 2 => some unit
  | 6 => if 512 ≤ unit && unit < 544 then some (unit - 512) else if 1024 ≤ unit && unit < 2048 then some ((unit - 1024) / 32) else none
  | _ => none

end Sys2Proof.Machine
end

