-- ==== Sys2Proof/Machine/Sides.lean ====
section
/-! DEFINITION. Rows of memories outside the address map (14 R297): which of their bytes are wrong, and what a read of them finds. A byte's wrong bits decide
its decoding alone, since the codewords form a linear code (14 R305). -/

namespace Sys2Proof.Machine

/-- Whether a byte of a row cannot be corrected, by its wrong bits (14 R306). -/
def sideLost (m : BitVec 13) : Bool := innerDecode m = .bad

/-- Whether such a row holds an uncorrectable byte. -/
def State.sideBad (s : State) (r : SideRow) : Bool := s.side.any fun e => e.1 = r && sideLost e.2.2

/-- Whether one of some rows holds an uncorrectable byte. -/
def State.sidesBad (s : State) (f : SideRow → Bool) : Bool := s.side.any fun e => f e.1 && sideLost e.2.2

/-- A row is written, which heals it (14 R308), or given up with what it held. -/
def State.healSide (s : State) (r : SideRow) : State := { s with side := s.side.filter (·.1 != r) }

/-- Some rows are written, or given up. -/
def State.healSides (s : State) (f : SideRow → Bool) : State := { s with side := s.side.filter fun e => !f e.1 }

/-- Whether a row belongs to a bank's tables. -/
def sideInBank (bankB : Bool) : SideRow → Bool
  | .fkt b _ => b = bankB
  | .sm b _ => b = bankB
  | _ => false

/-- Rows of a port's transmit buffer. -/
def isTransmit (p : Nat) : SideRow → Bool
  | .transmit q _ => q.val = p
  | _ => false

/-- Rows of a port's receive buffer. -/
def isReceive (p : Nat) : SideRow → Bool
  | .receive q _ => q.val = p
  | _ => false

/-- Rows of a pod's arrival buffers. -/
def isArrival (p : Nat) : SideRow → Bool
  | .arrival q _ => q.val = p
  | _ => false

/-- Rows of an engine's output queue. -/
def isOutQueue (e : Nat) : SideRow → Bool
  | .outQueue q _ => q.val = e
  | _ => false

/-- Rows of the classifier's frame queue. -/
def isFrameQueue : SideRow → Bool
  | .frameQueue _ => true
  | _ => false

/-- Rows of the Husk frame buffer. -/
def isHusk : SideRow → Bool
  | .husk _ => true
  | _ => false

/-- Rows among some with a byte that reads correct or, with `lost`, uncorrectable, each once. -/
def State.sideRows (s : State) (f : SideRow → Bool) (lost : Bool) : List SideRow :=
  ((s.side.filter fun e => f e.1 && sideLost e.2.2 = lost).map (·.1)).eraseDups

/-- A read corrected a byte of a row: it is counted, and the row listed (14 R307). -/
def State.softRead (s : State) (r : SideRow) : State :=
  let s1 := s.bump 0x2940 1
  { s1 with mem := s1.mem.listRow (.side r) }

/-- Some rows are read: corrections are counted and their rows listed, and an uncorrectable row is counted, unless it resets the chip (14 R297, R307,
R323). -/
def State.readSides (s : State) (f : SideRow → Bool) : State :=
  let s1 := (s.sideRows f false).foldl State.softRead s
  s1.bumpBy 0x2940 4 2 ((s.sideRows f true).filter fun r => !sideInBank (!s.cls.active) r).length

end Sys2Proof.Machine
end

