-- ==== Sys2Proof/Machine/StoreOps.lean ====
section
/-! DEFINITION. Lanes, blocks and segments (05 R92 to R106): the operations that put a record into the session store. None of them writes the
event log. -/

namespace Sys2Proof.Machine

/-- A lane by number. -/
def State.lane (s : State) (l : Nat) : Lane := s.store.lanes.get {} l

/-- Change a lane. -/
def State.setLane (s : State) (l : Nat) (x : Lane) : State := { s with store := { s.store with lanes := s.store.lanes.set l x } }

/-- The pod that owns a lane (05 R92). -/
def State.lanePod (s : State) (l : Nat) : Nat := if 0x1000 ≤ l then (l - 0x1000) / 32 else s.portCfg (l % 256) 2

/-- The pod whose Mill codes a lane: the owner, or its standby pod once the lanes have moved (05 R112). -/
def State.codingPod (s : State) (l : Nat) : Nat :=
  let p := s.lanePod l
  if (s.pod p).moved then s.cfg (0x2A40 + p) 2 else p

/-- The Mill of a pod. -/
def State.mill (s : State) (p : Nat) : Mill := s.store.mills.get {} p

/-! Segments. -/

/-- The SSDs a segment is written to in a set mode (05 R108): bit 0 SSD 0, bit 1 SSD 1. -/
def segmentSsds (mode seq : Nat) : BitVec 2 :=
  if mode = 0 then 1 else if mode = 1 then 2 else if mode = 2 then (if seq % 2 = 0 then 1 else 2) else if mode = 3 then 3 else 0

/-- The SSDs of a mode (05 R108). -/
def modeSsds (mode : Nat) : BitVec 2 := if mode = 0 then 1 else if mode = 1 then 2 else 3

/-- Bytes of an open segment so far, header included (05 R102). -/
def OpenSeg.used (g : OpenSeg) : Nat := 144 + (g.blocks.map List.length).sum

/-- Bytes of a segment before HCRC (05 R102). -/
def segHead (s : State) (g : OpenSeg) (flags used nblk : Nat) : List Byte :=
  [0x43, 0x50, 0x5A, 0x53, 1, BitVec.ofNat 8 flags] ++ leBytes 2 144 ++ leBytes 8 Config.uid.toNat ++ leBytes 4 (s.cfg 0x2503 6) ++
  leBytes 8 s.store.nextSeq ++ leBytes 4 (g.since / 2 ^ 48) ++ leBytes 6 g.since ++ leBytes 6 s.now ++ leBytes 4 used ++ leBytes 2 nblk ++
  [g.prof] ++ [(segmentSsds s.store.mode s.store.nextSeq).zeroExtend 8] ++ fit 48 s.store.prevHash ++ zeros 40

/-- A block of the control lane: one record, verbatim (05 R92, R95). -/
def ctlBlock (r : List Byte) : List Byte := blockHeader (recTick r) 0 0 1 r.length r.length ++ r

/-- Bytes 0-15 of a signature record (05 R91, R105). -/
def sigHead (s : State) (kind : Nat) : List Byte := leBytes 6 s.now ++ [0x13, BitVec.ofNat 8 kind] ++ leBytes 8 s.store.nextSeq

/-- Whether the open segment is due a signature (05 R103): it is the Nth, or one fell due by time. -/
def State.sigIsDue (s : State) : Bool := s.cfg 0x2500 4 ≤ s.store.sigSegs + 1 || s.store.sigDue

/-- Close a segment (05 R102 to R105): `sig` gives the kind of signature it carries as its last block, if any. -/
def State.finishSeg (s : State) (g : OpenSeg) (sig : Option Nat) (last : Bool) : State :=
  let nblk := g.blocks.length + (if sig.isSome then 1 else 0)
  let used := g.used + (if sig.isSome then 180 else 0)
  let flags := bit01 sig.isSome + 2 * bit01 last + 4 * bit01 g.resume + 8 * bit01 g.failover
  let head := segHead s g flags used nblk
  let front := head ++ leBytes 4 (crc32c head).toNat ++ g.blocks.flatten
  let bytes := match sig with
    | none => front
    | some k =>
      let h := sigHead s k
      let d := sha384 front
      front ++ ctlBlock (h ++ d ++ fit 96 (Config.ecdsaSign (d ++ h) s.free) ++ [0, 0])
  let seg : Seg := { seq := s.store.nextSeq, bytes := bytes, hasSig := sig.isSome, last := last, need := segmentSsds s.store.mode s.store.nextSeq,
                     written := 0, durable := 0, endTick := s.tb.tick, endEpoch := s.tb.epoch }
  { s with
    free := s.free + (if sig.isSome then 1 else 0)
    store := { s.store with
      seg := none, hashing := s.store.hashing ++ [seg], nextSeq := s.store.nextSeq + 1, prevHash := sha384 bytes,
      sigSegs := if sig.isSome then 0 else s.store.sigSegs + 1,
      sigAt := if sig.isSome then s.now else s.store.sigAt,
      sigDue := if sig.isSome then false else s.store.sigDue } }

/-- Close the open segment, with an interval signature when one is due (05 R103). -/
def State.closeSeg (s : State) : State :=
  match s.store.seg with
  | none => s
  | some g => s.finishSeg g (if s.sigIsDue then some 0 else none) false

/-- The slot and generation byte of a segment header (05 R102). -/
def State.profByte (s : State) : Byte := BitVec.ofNat 8 (s.sw.gen.toNat * 16 + (if s.sw.slot = 255 then 8 else s.sw.slot % 8))

/-- A segment opened now (05 R103). -/
def State.newSeg (s : State) (resume failover : Bool) : OpenSeg :=
  { since := s.now, prof := s.profByte, resume := resume, failover := failover, blocks := [] }

/-- Write the failover segment when one is owed: only the control lane, a signature of kind 3 (05 R110). -/
def State.payFailover (s : State) : State :=
  if s.store.failoverDue && s.store.seg.isNone then
    ({ s with store := { s.store with failoverDue := false } }).finishSeg (s.newSeg false true) (some 3) false
  else s

/-- Whether a block fits the open segment, with room for a signature that is due (05 R102, R103). -/
def State.blockFits (s : State) (g : OpenSeg) (n : Nat) : Bool :=
  g.used + n + (if s.sigIsDue then 180 else 0) ≤ 4194303 && g.blocks.length + 1 + (if s.sigIsDue then 1 else 0) ≤ 65535

/-- Put a block into the open segment. -/
def State.intoSeg (s : State) (g : OpenSeg) (b : List Byte) : State :=
  { s with store := { s.store with seg := some { g with blocks := g.blocks ++ [b] } } }

/-- Hand a block to the segment assembler: it opens a segment when none is open and closes one that has no room (05 R103). A segment opened while a
signature was due by time carries it and closes at once. -/
def State.addBlock (s : State) (b : List Byte) : State :=
  let t := match s.store.seg with
    | some g => if s.blockFits g b.length then s else s.closeSeg
    | none => s
  let u := t.payFailover
  let v := match u.store.seg with
    | some g => u.intoSeg g b
    | none => u.intoSeg (u.newSeg false false) b
  if u.store.seg.isNone && u.store.sigDue then v.closeSeg else v

/-! Blocks. -/

/-- Channel orders of a block being opened on a lane (05 R100). -/
def State.ordersFor (s : State) (l : Nat) : Tab Nat := (s.mill (s.codingPod l)).order

/-- Adapt the predictor orders of a Mill to the block just coded (05 R100); a channel that PRED has named since the block opened keeps what it was given. -/
def adaptMill (enabled : Bool) (m : Mill) (b : OpenBlock) : Mill :=
  if enabled then
    (channelsOf b.recs).foldl (fun m ch =>
      let p := Tab.get 2 b.orders ch
      if Tab.get true m.adapt ch && !b.told.contains ch then
        { m with order := m.order.set ch (betterOrder p ((b.recs.filter (recChan · = ch)).map recValue)) }
      else m) m
  else m

/-- Close the open block of a lane and code it (05 R95, R96, R100). -/
def State.closeBlock (s : State) (l : Nat) : State :=
  match (s.lane l).block with
  | none => s
  | some b =>
    let p := s.codingPod l
    let s1 := s.setLane l { s.lane l with block := none }
    let s2 := if laneMode l b.recs = 2 then
        { s1 with store := { s1.store with mills := s1.store.mills.set p (adaptMill (s.cfg 0x2500 9 = 1) (s.mill p) b) } }
      else s1
    s2.addBlock (makeBlock l (fun ch => Tab.get 2 b.orders ch) b.recs)

/-- Whether a record must not join the open block (05 R95, R96): ILEN, NREC, the 1,025th channel, or a vector record. -/
def blockFull (l : Nat) (b : OpenBlock) (r : List Byte) : Bool :=
  16384 < b.recs.flatten.length + r.length || 4096 ≤ b.recs.length || recType r = 0x04 ||
  (laneMode l b.recs = 2 && !(channelsOf b.recs).contains (recChan r) && 1024 ≤ (channelsOf b.recs).length)

/-- PRED names a channel of a Mill: the blocks open on its lanes keep the order they opened with, and adapt nothing for it (05 R100). -/
def State.tellBlocks (s : State) (p ch : Nat) : State :=
  { s with
    store := { s.store with lanes := s.store.lanes.map fun (l : Nat × Lane) =>
      match l.2.block with
      | some b => if s.codingPod l.1 = p then (l.1, { l.2 with block := some { b with told := ch :: b.told } }) else l
      | none => l }
    link := if s.cfg 0x2600 6 = p then { s.link with opened := s.link.opened.map fun (e : Nat × LinkOpen) => (e.1, { e.2 with told := ch :: e.2.told }) }
            else s.link }

/-- Put a record into a lane's open block, opening one when there is none. -/
def State.intoBlock (s : State) (l : Nat) (r : List Byte) : State :=
  let x := s.lane l
  let b := x.block.getD { recs := [], since := s.now, orders := s.ordersFor l }
  s.setLane l { x with block := some { b with recs := b.recs ++ [r] }, seen := true }

/-- Append a record to a lane (05 R95, R96). -/
def State.laneAppend (s : State) (l : Nat) (r : List Byte) : State :=
  let s1 := match (s.lane l).block with
    | some b => if blockFull l b r then s.closeBlock l else s
    | none => s
  let s2 := s1.intoBlock l r
  if recType r = 0x04 then s2.closeBlock l else s2

/-- A wrap record (05 R91). -/
def wrapRecord (epoch : BitVec 32) (l : Nat) : List Byte :=
  leBytes 6 0 ++ [0x10, 0] ++ leBytes 4 epoch.toNat ++ leBytes 2 l ++ zeros 4

/-- A lane reaches its wrap point: its block closes and the wrap record takes a block of its own (05 R95, R96, R101). -/
def State.wrapPoint (s : State) (l : Nat) : State :=
  match (s.lane l).wrapDue with
  | none => s
  | some e =>
    let s1 := s.closeBlock l
    let s2 := s1.setLane l { s1.lane l with wrapDue := none }
    s2.addBlock (padWord (blockHeader 0 l 0 1 18 18 ++ wrapRecord e l))

/-- A lane is about to take a record with a full count: past the wrap it owes it reaches its wrap point first, and a record whose tick lies after the coming
wrap takes the lane past that one already (05 R101). -/
def State.reachWrap (s : State) (l : Nat) (count : Int) : State :=
  let e := s.tb.epoch
  if !s.acting 0 || !s.inSession then s
  else if count < (e.toNat * 2 ^ 48 : Nat) then s
  else if count < ((e.toNat + 1) * 2 ^ 48 : Nat) || (s.lane l).ahead then s.wrapPoint l
  else
    let x := s.lane l
    (s.setLane l { x with ahead := true, wrapDue := if x.seen then some (e + 1) else none }).wrapPoint l

/-- A record of the control lane enters the store (05 R92). DESIGN CHOICE (log entry 9): in ARMED no session runs, and a change of mapping leaves no record. -/
def State.ctlStore (s : State) (r : List Byte) : State := if s.acting 0 && s.inSession then s.addBlock (ctlBlock r) else s

/-! Overload (05 R111). -/

/-- Priority of a sample or output lane (17 R382, R383). -/
def State.lanePriority (s : State) (l : Nat) : Nat := if 0x1000 ≤ l then s.cfg (0x2A40 + (l - 0x1000) / 32) 3 else s.portCfg (l % 256) 3

/-- Whether the overload level stops a sample or output lane at staging entry (05 R111). -/
def State.laneStopped (s : State) (l : Nat) : Bool :=
  match s.store.level.val with
  | 0 => false
  | 1 => s.lanePriority l = 3
  | 2 => 2 ≤ s.lanePriority l
  | _ => true

/-- Count a record dropped under overload, for the level in force and in 0x2503:07 (05 R111, R113). -/
def State.countOverload (s : State) (r : List Byte) : State :=
  let d := Tab.get {} s.store.drops s.store.level.val
  let d' := if recType r = 0x03 then { d with scalar := d.scalar + 1 } else if recType r = 0x04 then { d with vector := d.vector + 1 }
            else { d with sample := d.sample + 1 }
  ({ s with store := { s.store with drops := s.store.drops.set s.store.level.val d' } }).bump 0x2503 7

/-- The tick that R94 (05) compares the lane's next record with, and the channels that the lane carries (09 R202). -/
def State.noteTick (s : State) (l : Nat) (r : List Byte) : State :=
  let x := s.lane l
  s.setLane l { x with lastTick := some (BitVec.ofNat 48 (recTick r)), chans := if x.chans.contains (recChan r) then x.chans else recChan r :: x.chans }

/-- Bytes held in the staging store for the session: closed segments not yet in the ring, the open segment and the open blocks. -/
def State.staged (s : State) : Nat :=
  (s.store.hashing.map (·.bytes.length)).sum + (s.store.seg.map OpenSeg.used).getD 0 +
  (s.store.lanes.map fun x => (x.2.block.map fun b => b.recs.flatten.length).getD 0).sum

/-- Whether the staging queues are full, less the 64 KiB kept for the control lane (05 R111, 01 Blocks). -/
def State.stagingFull (s : State) : Bool := s.store.level = 4 && 75497472 - 65536 ≤ s.staged

end Sys2Proof.Machine
end

