-- ==== Sys2Proof/Machine/LogOps.lean ====
section
/-! DEFINITION. The event log (18 R407 to R409), the control lane, selection for the link (07 R135 to R137) and entry into staging (05). -/

namespace Sys2Proof.Machine

/-! Event log. -/

/-- The 16 bytes of an entry; its severity is the free value of the event (18 R407). -/
def LogRow.bytes (r : LogRow) : List Byte :=
  leBytes 6 r.tick.toNat ++ leBytes 2 r.seq.toNat ++
  [r.flags ||| BitVec.ofNat 8 (Config.severity r.kind.toNat (r.refIdx.toNat * 256 + r.refSub.toNat) r.value.toNat).val, r.kind] ++
  leBytes 2 r.refIdx.toNat ++ [r.refSub] ++ leBytes 3 r.value.toNat

/-- What a read of an entry gives whose row has an uncorrectable byte: DAMAGED, the SEQ that its place implies, and every other byte 0 (18 R409). -/
def LogRow.damaged (r : LogRow) : List Byte := zeros 6 ++ leBytes 2 r.seq.toNat ++ [0x08] ++ zeros 7

/-- A continuation entry with up to 12 bytes of payload (18 R407). -/
def contRow (seq : BitVec 16) (flags : Byte) (p : List Byte) : LogRow :=
  ⟨BitVec.ofNat 48 (leNat (slice p 0 6)), seq, flags, 0xFE, BitVec.ofNat 16 (leNat (slice p 6 2)), p.getD 8 0, BitVec.ofNat 24 (leNat (slice p 9 3))⟩

/-- Put rows behind the log's end; when it is full each new row replaces the oldest (18 R407). -/
def EventLog.push (l : EventLog) (rows : List LogRow) : EventLog :=
  let all := l.rows ++ rows
  { next := l.next + BitVec.ofNat 16 rows.length, rows := all.drop (all.length - 8192) }

/-- Rows go into the log, each in the place of its SEQ (18 R407). -/
def State.pushLog (s : State) (rows : List LogRow) : State :=
  rows.foldl (fun (t : State) r => t.healSide (.eventLog (Fin.ofNat 8192 r.seq.toNat))) { s with log := s.log.push rows }

/-- The rows of one entry and its continuations (18 R407, R408): `plane` 1 data, 2 control, 3 management. -/
def State.entryRows (s : State) (plane kind idx sub val : Nat) (pay : List (List Byte)) : List LogRow :=
  let base := plane * 64 + 32 * bit01 s.tb.husk
  ⟨s.tb.tick, s.log.next, BitVec.ofNat 8 (base + 16 * bit01 (!pay.isEmpty)), BitVec.ofNat 8 kind, BitVec.ofNat 16 idx, BitVec.ofNat 8 sub,
    BitVec.ofNat 24 val⟩ ::
  pay.zipIdx.map fun p => contRow (s.log.next + 1 + BitVec.ofNat 16 p.2) (BitVec.ofNat 8 (base + 16 * bit01 (p.2 + 1 < pay.length))) p.1

/-- A health record (05 R91, type 0x16) of a row; a continuation's takes the tick of its entry. -/
def healthOf (tick : L48) (r : LogRow) : List Byte := leBytes 6 tick.toNat ++ [0x16, 0] ++ r.bytes

/-- Whether an entry enters the session as a health record (18 R409). -/
def State.isHealth (s : State) (kind idx sub val : Nat) : Bool :=
  (s.sess.st = .running || s.sess.st = .draining) &&
  s.cfg 0x2930 6 ≤ (Config.severity (kind % 256) (idx % 65536 * 256 + sub % 256) (val % 16777216)).val

/-! Selection for the link. -/

/-- Whether the device is the car end of a link in a session (07 R134). -/
def State.linkCar (s : State) : Bool := s.acting 3 && s.capturing

/-- Largest K and M of a code level (07 R140). -/
def codeLevel (n : Nat) : Nat × Nat :=
  match n with
  | 0 => (32, 0)
  | 1 => (32, 2)
  | 2 => (32, 4)
  | 3 => (16, 4)
  | 4 => (16, 8)
  | _ => (8, 8)

/-- Largest data body of a class in a group with so many repair frames (07 R139, R141). -/
def State.bodyRoom (s : State) (cls m : Nat) : Nat := s.cfg 0x2600 3 - (if cls = 0 then 8 else 0) - (if m = 0 then 0 else 2)

/-- Largest data body of a class at the code level in force. -/
def State.linkBody (s : State) (cls : Nat) : Nat := s.bodyRoom cls (codeLevel s.link.level.val).2

/-- Bytes of records that wait or have been selected. -/
def recsOf (l : List LinkRec) : List (List Byte) := l.map (·.bytes)

/-- A link block of some records with the orders it opened with (07 R136, 05 R100). -/
def linkBlock (lane : Nat) (orders : Tab Nat) (l : List LinkRec) : LinkBlock := ⟨lane, l, orders, makeBlock lane (fun ch => Tab.get 2 orders ch) (recsOf l)⟩

/-- The orders of the link coding pod's Mill, with which a link block opens. -/
def State.linkOrders (s : State) : Tab Nat := (s.mill (s.cfg 0x2600 6)).order

/-- Put a block behind its class's queue. -/
def State.linkPut (s : State) (cls : Nat) (b : LinkBlock) : State :=
  { s with link := { s.link with queues := s.link.queues.set cls (Tab.get [] s.link.queues cls ++ [b]) } }

/-- A health record for the link: class 3, one block of its own (07 R135, R136). -/
def State.linkHealth (s : State) (r : List Byte) : State :=
  let b := linkBlock 0 [] [⟨3, 0, s.now, r⟩]
  if !s.linkCar then s else if s.linkBody 3 < b.bytes.length then s.bump 0x2601 7 else s.linkPut 3 b

/-- A health record of an entry's row, in the control lane and for the link (18 R409, 07 R135). -/
def State.health (s : State) (tick : L48) (r : LogRow) : State := (s.ctlStore (healthOf tick r)).linkHealth (healthOf tick r)

/-- Write an entry into the event log; as a health record it enters the control lane and travels in link class 3 (18 R407, R409, 07 R135). -/
def State.logX (s : State) (plane kind idx sub val : Nat) (pay : List (List Byte)) : State :=
  let rows := s.entryRows plane kind idx sub val pay
  let s1 := s.pushLog rows
  if s.isHealth kind idx sub val then rows.foldl (fun t r => t.health s.tb.tick r) s1 else s1

/-- A closed link block joins its class's queue; class 0 waits in 4 MiB, and its records that find no room are counted and logged (07 R137). -/
def State.linkQueue (s : State) (cls : Nat) (b : LinkBlock) : State :=
  if cls = 0 && 4194304 < ((Tab.get [] s.link.queues cls).map (·.bytes.length)).sum + b.bytes.length then
    let s1 := s.bumpBy 0x2601 8 4 b.recs.length
    s1.logX 1 0 0x2601 8 (s1.cfg 0x2601 8) []
  else s.linkPut cls b

/-- Close the open link block of a lane and class: coded, and the link coding pod's Mill adapts to it (07 R136, 05 R100). -/
def State.linkClose (s : State) (lane cls : Nat) : State :=
  let o := Tab.get {} s.link.opened (lane * 4 + cls)
  if o.recs.isEmpty then s
  else
    let p := s.cfg 0x2600 6
    let s1 := { s with link := { s.link with opened := s.link.opened.erase (lane * 4 + cls) } }
    let s2 := if laneMode lane (recsOf o.recs) = 2 then
        { s1 with store := { s1.store with mills := s1.store.mills.set p (adaptMill (s.cfg 0x2500 9 = 1) (s.mill p) ⟨recsOf o.recs, 0, o.orders, o.told⟩) } }
      else s1
    s2.linkQueue cls (linkBlock lane o.orders o.recs)

/-- Whether a record must not join an open link block: the limits of a block, or no room in a frame body (05 R95, R96, 07 R136). -/
def State.linkFull (s : State) (cls lane : Nat) (o : LinkOpen) (item : LinkRec) : Bool :=
  blockFull lane ⟨recsOf o.recs, 0, o.orders, []⟩ item.bytes || decide (s.linkBody cls < (linkBlock lane o.orders (o.recs ++ [item])).bytes.length)

/-- A selected record enters the link block of its lane and class (07 R136); a vector record and a control record take a block of their own. -/
def State.linkTake (s : State) (cls lane : Nat) (r : List Byte) : State :=
  let key := lane * 4 + cls
  let item : LinkRec := ⟨cls, lane, s.now, r⟩
  if s.linkBody cls < (linkBlock lane s.linkOrders [item]).bytes.length then (s.linkClose lane cls).bump 0x2601 7
  else
    let o := Tab.get {} s.link.opened key
    let s1 := if !o.recs.isEmpty && s.linkFull cls lane o item then s.linkClose lane cls else s
    let x := Tab.get {} s1.link.opened key
    let y : LinkOpen := { x with recs := x.recs ++ [item], orders := if x.recs.isEmpty then s1.linkOrders else x.orders }
    let s2 := { s1 with link := { s1.link with opened := s1.link.opened.set key y } }
    if lane = 0 || recType r = 4 then s2.linkClose lane cls else s2

/-- Fields of a link selection entry (07 R135): SPACE, SEL, POD, CLASS, DECIM. -/
def linkMatch (e : Nat) (r : List Byte) : Bool :=
  match bits e 46 2 with
  | 1 => recType r = 2 && recChan r = bits e 30 16
  | 2 => (recType r = 3 || recType r = 4) && recChan r = bits e 30 16 && recPort r % 32 = bits e 25 5
  | 3 => recType r = 1 && recPort r = bits e 30 8
  | _ => false

/-- Select a record for the link by the first entry that matches, with its decimation (07 R135). -/
def State.linkSelect (s : State) (lane : Nat) (r : List Byte) : State :=
  if s.linkCar then
    match s.od.find? (fun e => 0x3600 * 256 ≤ e.1 && e.1 < 0x3620 * 256 && linkMatch e.2 r) with
    | none => s
    | some e =>
      let c := Tab.get 0 s.link.decim e.1
      let s1 := { s with link := { s.link with decim := s.link.decim.set e.1 ((c + 1) % (bits e.2 15 8 + 1)) } }
      if c = 0 then s1.linkTake (bits e.2 23 2) lane r else s1
  else s

/-! Log and control lane, with their copies for the link. -/

/-- An entry that enters the session as a health record whatever its severity (06 R125, 07 R147, 17 R391), and travels in link class 3 (07 R135). -/
def State.logHealth (s : State) (plane kind idx sub val : Nat) (pay : List (List Byte)) : State :=
  let rows := s.entryRows plane kind idx sub val pay
  rows.foldl (fun t r => t.health s.tb.tick r) (s.pushLog rows)

/-- An entry without continuations. -/
def State.logE (s : State) (plane kind idx sub val : Nat) : State := s.logX plane kind idx sub val []

/-- Pieces of 3 bytes. -/
def pieces3 : Nat → List Byte → List (List Byte)
  | 0, _ => []
  | n + 1, l => if l.isEmpty then [] else l.take 3 :: pieces3 n (l.drop 3)

/-- A value of more than 24 bits: entries of KIND 1 with three of its bytes each, least significant first, as KIND 1 has no payload (18 R408, log entry
17). -/
def State.logWide (s : State) (plane idx sub : Nat) (l : List Byte) : State :=
  (pieces3 l.length l).foldl (fun t x => t.logE plane 1 idx sub (leNat x)) s

/-- An entry of KIND 0 with a counter's new value (18 R408). -/
def State.logCount (s : State) (plane idx sub : Nat) : State := s.logE plane 0 idx sub (s.cfg idx sub)

/-- Count in an object and log it (18 R408). -/
def State.bumpLog (s : State) (plane idx sub : Nat) : State := (s.bump idx sub).logCount plane idx sub

/-- Access path code of the event log (18 R408). -/
def pathCode : Path → Nat
  | .can => 0
  | .pcie0 => 1
  | .pcie1 => 2
  | .fabric => 3

/-- Access path code of a marker record (05 R91). -/
def pathMark : Path → Nat
  | .can => 0
  | .pcie0 => 1
  | .pcie1 => 1
  | .fabric => 2

/-- Log a refusal: object, value, abort code and path (18 R408). -/
def State.logRefusal (s : State) (path idx sub val : Nat) (code : BitVec 32) : State :=
  s.logX 2 2 idx sub val [leBytes 4 code.toNat ++ [BitVec.ofNat 8 path]]

/-- A record of the control lane: into the store and, in class 0, to the link (05 R92, 07 R135). -/
def State.ctlPut (s : State) (r : List Byte) : State :=
  let s1 := s.ctlStore r
  if s.linkCar && (recType r = 0x11 || recType r = 0x12 || recType r = 0x15 || recType r = 0x17) then s1.linkTake 0 0 r else s1

/-- Abort code by meaning (17 R367). -/
def abRange : BitVec 32 := 0x06090030
def abState : BitVec 32 := 0x08000022
def abConfig : BitVec 32 := 0x08000020
def abReadOnly : BitVec 32 := 0x06010002
def abNoObject : BitVec 32 := 0x06020000
def abNoSub : BitVec 32 := 0x06090011
def abLength : BitVec 32 := 0x06070010
def abHardware : BitVec 32 := 0x06060000
def abGeneral : BitVec 32 := 0x08000000
def abTimeout : BitVec 32 := 0x05040000
def abSpecifier : BitVec 32 := 0x05040001
def abSequence : BitVec 32 := 0x05040003

/-! Entry into staging. -/

/-- A record enters the staging store on a lane: overload first, then the lane, then the link's copy (05 R111, 07 R134); of an output lane its tick is kept
for R94, with and without record. -/
def State.stage (s : State) (lane : Nat) (r : List Byte) : State :=
  if s.recording && 0x200 ≤ lane && s.laneStopped lane then s.countOverload r
  else
    let s1 := if 0x1000 ≤ lane && (s.recording || s.linkCar) then s.noteTick lane r else s
    let s2 := if s.recording then s1.laneAppend lane r else s1
    s2.linkSelect lane r

end Sys2Proof.Machine
end

