-- ==== Sys2Proof/Machine/FabOps.lean ====
section
/-! DEFINITION. Sending over fabric ports: flits, credits, replay buffers, routes and the export queue (16 R342 to R345, R352, R360). -/

namespace Sys2Proof.Machine

/-- A fabric port. -/
def State.fport (s : State) (k : Nat) : FabPort := s.fab.ports.get {} k

/-- Change a fabric port. -/
def State.setFport (s : State) (k : Nat) (x : FabPort) : State := { s with fab := { s.fab with ports := s.fab.ports.set k x } }

/-- Whether a port's link is up (16 R341): states up and up one lane. -/
def FabPort.isUp (x : FabPort) : Bool := x.st = 3 || x.st = 4

/-- An unaddressed flit of a type on its virtual channel (16 R342, R343). -/
def mkFlit (type vc : Nat) (payload : List Byte) : Flit :=
  { type := BitVec.ofNat 4 type, vc := BitVec.ofNat 2 vc, plen := BitVec.ofNat 6 payload.length, hops := 0, dst := 0, src := 0, seq := 0, ack := 255,
    cvc := 3, ccnt := 0, tspec := 0, payload := payload }

/-- Credits a port gives back with the flit it sends: of the first virtual channel that owes any (16 R344). -/
def FabPort.giveBack (x : FabPort) : BitVec 2 × BitVec 6 × FabPort :=
  match x.owed.find? (fun e => 0 < e.2) with
  | none => (3, 0, x)
  | some e =>
    let n := min 63 e.2
    (BitVec.ofNat 2 e.1, BitVec.ofNat 6 n,
      { x with owed := x.owed.set e.1 (e.2 - n), space := x.space.set e.1 (Tab.get 64 x.space e.1 + n) })

/-- The header of a flit (16 R342). -/
def flitHeader (f : Flit) : BitVec 64 :=
  f.type ++ f.vc ++ f.plen ++ f.hops ++ f.dst ++ f.src ++ f.seq ++ f.ack ++ f.cvc ++ f.ccnt ++ f.tspec

/-- The 64 bytes of a flit: header, payload with 0 in its unused bytes, and CRC-32C (16 R342). -/
def flitBytes (f : Flit) : List Byte :=
  let b := leBytes 8 (flitHeader f).toNat ++ fit 52 (fit f.plen.toNat f.payload)
  b ++ leBytes 4 (crc32c b).toNat

/-- Put the link fields into a flit as it leaves: ACK and returned credits (16 R342, R344). -/
def State.emitFlit (s : State) (k : Nat) (f : Flit) : State :=
  let x := s.fport k
  let g := x.giveBack
  let f1 := { f with ack := x.rxNext - 1, cvc := g.1, ccnt := g.2.1 }
  (s.setFport k g.2.2).send (.flit k f1 (flitBytes f1))

/-- Whether a sequenced flit may leave now: a credit, and room in the replay buffer (16 R344, R345). -/
def FabPort.maySend (x : FabPort) (f : Flit) : Bool := 0 < Tab.get 64 x.credits f.vc.toNat && x.unacked.length < 64

/-- A sequenced flit leaves with the next SEQ and stays in the replay buffer (16 R345). -/
def State.launch (s : State) (k : Nat) (f : Flit) : State :=
  let x := s.fport k
  let f1 := { f with seq := x.txSeq }
  (s.setFport k { x with txSeq := x.txSeq + 1, unacked := x.unacked ++ [⟨f1, 1⟩],
                         credits := x.credits.set f.vc.toNat (Tab.get 64 x.credits f.vc.toNat - 1) }).emitFlit k f1

/-- A flit of a virtual channel has left the receive buffer of a port: its credit is owed to the partner (16 R344). -/
def State.freeBuffer (s : State) (k v : Nat) : State :=
  let x := s.fport k
  s.setFport k { x with owed := x.owed.set v (Tab.get 0 x.owed v + 1) }

/-- Send a sequenced flit, or let it wait for a credit behind those of its virtual channel that wait; `from_` is the port whose receive buffer it fills (16
R344). -/
def State.sendFrom (s : State) (from_ : Option Nat) (k : Nat) (f : Flit) : State :=
  let x := s.fport k
  let free := fun (t : State) => match from_ with
    | some j => t.freeBuffer j f.vc.toNat
    | none => t
  if x.isUp then
    if (x.txq.all fun q => q.1.vc != f.vc) && x.maySend f then (free s).launch k f else s.setFport k { x with txq := x.txq ++ [(f, from_)] }
  else free s

/-- Send a sequenced flit of the device's own. -/
def State.sendSeq (s : State) (k : Nat) (f : Flit) : State := s.sendFrom none k f

/-- Send the flits that wait, as the credits of each virtual channel allow, at most `n`. -/
def State.flushTx (s : State) (k : Nat) : Nat → State
  | 0 => s
  | n + 1 =>
    let x := s.fport k
    match x.txq.find? fun q => x.maySend q.1 with
    | none => s
    | some q =>
      if x.isUp then
        let s1 := s.setFport k { x with txq := x.txq.erase q }
        let s2 := match q.2 with
          | some j => s1.freeBuffer j q.1.vc.toNat
          | none => s1
        State.flushTx (s2.launch k q.1) k n
      else s

/-- Send an unsequenced flit. -/
def State.sendPlain (s : State) (k : Nat) (f : Flit) : State := s.emitFlit k f

/-- The first port of a destination's route that is up, for a flit type (16 R352, R353). -/
def State.routePort (s : State) (type node : Nat) : Option Nat :=
  (Tab.get [] (if type = 7 then s.fab.dataRoutes else s.fab.routes) node).find? fun k => (s.fport k).isUp

/-- This device's node ID as a byte, 0 when it holds none. -/
def State.nodeByte (s : State) : Byte := s.fab.node.getD 0

/-- Send a unicast message of flits towards a node; false when there is no route, or the device is for time only (16 R348, R352, R358). -/
def State.sendTo (s : State) (node : Nat) (fs : List Flit) : State × Bool :=
  match (if s.cfg 0x2700 5 = 2 then none else s.routePort ((fs.head?.map fun f => f.type.toNat).getD 6) node) with
  | none => (s, false)
  | some k => (fs.foldl (fun t f => t.sendSeq k { f with dst := BitVec.ofNat 8 node, src := s.nodeByte }) s, true)

/-- Up ports other than one. -/
def State.upPorts (s : State) (but : Option Nat) : List Nat := (List.range 8).filter fun k => (s.fport k).isUp && but != some k

/-- Send flits on every up port except one (16 R343). -/
def State.flood (s : State) (but : Option Nat) (fs : List Flit) : State :=
  (s.upPorts but).foldl (fun t k => fs.foldl (fun u f => u.sendSeq k f) t) s

/-- Flood flits that this device originates (16 R342, R343). -/
def State.floodOwn (s : State) (fs : List Flit) : State := s.flood none (fs.map fun f => { f with src := s.nodeByte })

/-- Cut a byte string into flits of 52 payload bytes, at most `n` flits, marking FIRST and LAST (16 R342). -/
def cutFlits (type vc : Nat) (first : Bool) : Nat → List Byte → List Flit
  | 0, _ => []
  | n + 1, l =>
    if l.length ≤ 52 then [{ mkFlit type vc l with tspec := BitVec.ofNat 8 (128 * bit01 first + 64) }]
    else { mkFlit type vc (l.take 52) with tspec := BitVec.ofNat 8 (128 * bit01 first) } :: cutFlits type vc false n (l.drop 52)

/-- A DATA message for an engine (16 R343): kind 0 sample record, 1 raw record copy. -/
def dataFlits (pod eng kind : Nat) (r : List Byte) : List Flit :=
  cutFlits 7 2 true 200 ([BitVec.ofNat 8 pod, BitVec.ofNat 8 eng, BitVec.ofNat 8 kind, 0] ++ r)

/-- Whether a message's port has no DATA flit waiting for a credit, so that an export can leave its queue. -/
def State.exportFree (s : State) (f : Flit) : Bool :=
  s.cfg 0x2700 5 != 2 && (s.routePort 7 f.dst.toNat).any fun k => (s.fport k).txq.all fun q => q.1.vc != 2

/-- Send what waits in the export queue while routes, links and credits allow (16 R360). -/
def State.drainExports (s : State) : State :=
  let step := fun (t : State) (m : List Flit) =>
    match m with
    | [] => t
    | f :: _ => if t.exportFree f then (t.sendTo f.dst.toNat m).1 else { t with fab := { t.fab with exports := t.fab.exports ++ [m] } }
  s.fab.exports.foldl step { s with fab := { s.fab with exports := [] } }

/-- Bytes of the exports that wait. -/
def State.exportBytes (s : State) : Nat := (s.fab.exports.map fun m => (m.map (·.payload.length)).sum).sum

/-- Whether an export entry names a record (16 R360). -/
def exportMatch (e : Nat) (r : List Byte) : Bool :=
  match bits e 46 2 with
  | 1 => recType r = 2 && recChan r = bits e 30 16
  | 2 => recType r = 1 && recPort r = bits e 30 16
  | _ => false

/-- Export a record once for each entry that matches, or drop it when the 256 KiB queue is full (16 R360). -/
def State.exportRecord (s : State) (r : List Byte) : State :=
  let es := s.od.filter fun e => 0x3700 * 256 ≤ e.1 && e.1 < 0x3708 * 256 && exportMatch e.2 r
  es.foldl (fun t e =>
    if 262144 < t.exportBytes + r.length then t.bump 0x2701 10
    else
      let m := (dataFlits (bits e.2 17 5) (bits e.2 12 5) (if recType r = 1 then 1 else 0) r).map
        fun f => { f with dst := BitVec.ofNat 8 (bits e.2 22 8) }
      ({ t with fab := { t.fab with exports := t.fab.exports ++ [m] } }).drainExports) s

end Sys2Proof.Machine
end

