-- ==== Sys2Proof/Machine/RouterOps.lean ====
section
/-! DEFINITION. Pod stream routers and input rings (08 R176 to R178, 04 R83): room, acceptance, drops. -/

namespace Sys2Proof.Machine

/-- Where a record of `len` words goes in an input ring of `size` words at `base`, the occupied records being `occ` in order and `tail` the
next free word: a record never wraps (08 R177). -/
def ringPlace (base size : Nat) (occ : List RingRec) (tail len : Nat) : Option Nat :=
  match occ with
  | [] => if size < len then none else if tail + len ≤ base + size then some tail else some base
  | h :: _ =>
    if h.addr < tail then
      if tail + len ≤ base + size then some tail else if base + len ≤ h.addr then some base else none
    else if tail + len ≤ h.addr then some tail else none

/-- Records that occupy the ring: the one the last IN returned and those published. -/
def Spu.occupied (x : Spu) : List RingRec := x.cur.toList ++ x.ring

/-- Place records of some lengths one after another; none when one has no room. -/
def Spu.placeAll (x : Spu) (occ : List RingRec) (tail : Nat) : List Nat → Bool
  | [] => true
  | n :: t =>
    match ringPlace x.rbase x.rsize occ tail n with
    | none => false
    | some a => Spu.placeAll x (occ ++ [⟨a, n, 0⟩]) (a + n) t

/-- Length of a record in words. -/
def wordsOf (r : List Byte) : Nat := (r.length + 2) / 3

/-- Records for an engine in its pod's arrival buffer. -/
def State.arrivals (s : State) (e : Nat) : List StreamRec := (s.pod (e / 32)).arrival.filter (·.eng = e)

/-- Whether a pod takes records: powered, and not in reset (08 R178). -/
def State.podUp (s : State) (p : Nat) : Bool := p < 32 && (s.pod p).powered && !(s.pod p).bad && !(s.pod p).failed

/-- Whether the router has room for a record (08 R178): the ring, counting what still is in the arrival buffer, the engine's share of 16 KiB,
and the buffer's 64 KiB. -/
def State.routerRoom (s : State) (e : Nat) (r : List Byte) : Bool :=
  let x := (s.engine e).spu
  let a := s.arrivals e
  s.podUp (e / 32) && x.placeAll x.occupied x.tail ((a.map fun q => wordsOf q.bytes) ++ [wordsOf r]) &&
  (a.map fun q => 3 * wordsOf q.bytes).sum + 3 * wordsOf r ≤ 16384 &&
  ((s.pod (e / 32)).arrival.map fun q => 3 * wordsOf q.bytes).sum + 3 * wordsOf r ≤ 65536

/-- Put a record into the arrival buffer of its pod; a write into an empty buffer heals its rows (14 R308, log entry 67). -/
def State.intoArrival (s : State) (q : StreamRec) : State :=
  let p := s.pod (q.eng / 32)
  (if p.arrival.isEmpty then s.healSides (isArrival (q.eng / 32)) else s).setPod (q.eng / 32) { p with arrival := p.arrival ++ [q] }

/-- Count a router drop of a pod (08 R178, R180). -/
def State.podDrop (s : State) (p : Nat) : State := s.bump (0x2A01 + p % 32) 5

/-- Mark a sample record or a copy with DROPS (04 R83). -/
def markDrops (kind : Nat) (r : List Byte) : List Byte :=
  if kind = 0 then r.set 9 (r.getD 9 0 ||| 0x02) else rawSetFlag r 11

/-- Deliver a sample or frame copy of the Sifter to an engine, or drop it; the next one delivered carries DROPS (04 R82, R83). -/
def State.deliver (s : State) (e kind : Nat) (r : List Byte) : State :=
  if s.routerRoom e r then
    let owed := s.cls.dropsOwed.contains e
    let s1 := { s with cls := { s.cls with dropsOwed := s.cls.dropsOwed.filter (· != e) } }
    s1.intoArrival ⟨e, kind, if owed then markDrops kind r else r⟩
  else
    (({ s with cls := { s.cls with dropsOwed := e :: s.cls.dropsOwed.filter (· != e) } }).bump 0x2301 6).podDrop (e / 32)

/-- The first record on the stream network for a pod, and the rest. -/
def takeFor (p : Nat) : List StreamRec → Option (StreamRec × List StreamRec)
  | [] => none
  | q :: t =>
    if q.eng / 32 = p then some (q, t)
    else match takeFor p t with
      | none => none
      | some (r, u) => some (r, q :: u)

end Sys2Proof.Machine
end

