-- ==== Sys2Proof/Machine/ReplayOps.lean ====
section
/-! DEFINITION. Replay port entries, emit queues and mirroring (06 R118, R119, R129, R130, R132). -/

namespace Sys2Proof.Machine

/-- The replay port entry of a port (06 R132). -/
def State.repEntry (s : State) (p : Nat) : Nat := s.cfg (0x3400 + p / 128) (p % 128 + 1)

/-- USE of a port (06 R132). -/
def State.portUse (s : State) (p : Nat) : Nat := bits (s.repEntry p) 7 3
/-- Partner of a mirror port. -/
def State.partner (s : State) (p : Nat) : Nat := bits (s.repEntry p) 32 8
/-- POLICY of a port. -/
def State.dryPolicy (s : State) (p : Nat) : Nat := bits (s.repEntry p) 10 2
/-- Altering engine of a port, when ALTER is 1 (06 R127). -/
def State.alterEngine (s : State) (p : Nat) : Option Nat :=
  let e := s.repEntry p
  if bits e 13 1 = 1 then some (bits e 19 5 * 32 + bits e 14 5) else none
/-- LEAD of a port in ticks. -/
def State.leadTicks (s : State) (p : Nat) : Nat := usTicks (bits (s.repEntry p) 56 16)

/-- The transmit side of a port. -/
def State.tx (s : State) (p : Nat) : TxPort := s.rep.ports.get {} p
/-- Change the transmit side of a port. -/
def State.setTx (s : State) (p : Nat) (x : TxPort) : State := { s with rep := { s.rep with ports := s.rep.ports.set p x } }

/-- Rate code of a MAC for load and delay figures: the fixed rate, else the link's, else 10 Gb/s. -/
def State.macRate (s : State) (p : Nat) : Nat :=
  if s.portCfg p 5 = 0 then ((s.port p).link.map (·.val)).getD 5 else s.portCfg p 5 - 1

/-- Line rate of a port in bytes per 100 µs (06 R119): a MAC at its fixed rate, at 10 Gb/s where the rate is auto-negotiated (05 R93). -/
def State.lineRate (s : State) (p : Nat) : Nat :=
  match portKind p with
  | .mac => [125000, 125, 1250, 12500, 31250, 62500].getD (s.portCfg p 5) 125000
  | .can => 500
  | _ => 100

/-- Smallest emit queue of a port in KiB (06 R119). -/
def State.queueMin (s : State) (p : Nat) : Nat := (105 * bits (s.repEntry p) 56 16 * s.lineRate p + 10239999) / 10240000

/-- Emit queue of a port in bytes (06 R119). -/
def State.queueSize (s : State) (p : Nat) : Nat :=
  1024 * (if bits (s.repEntry p) 40 16 = 0 then s.queueMin p else bits (s.repEntry p) 40 16)

/-- Bytes an entry takes in a queue (06 R118). -/
def Emit.size (e : Emit) : Nat := 6 + e.bytes.length

/-- Size of a transmitter's own buffer (06 R120). -/
def transmitBuffer (p : Nat) : Nat :=
  match portKind p with
  | .mac => 32768
  | .can => 8192
  | _ => 512

/-- How many whole entries from the front of a queue a buffer of so many bytes holds. -/
def entriesIn (room : Nat) : List Emit → Nat
  | [] => 0
  | e :: t => if e.size ≤ room then 1 + entriesIn (room - e.size) t else 0

/-- The transmit buffer takes whole entries from the front of the emit queue while they fit (06 R120). -/
def State.fillBuffer (s : State) (p : Nat) : State :=
  let x := s.tx p
  s.setTx p { x with buffered := entriesIn (transmitBuffer p) x.queue }

/-- Whether an entry fits a port's emit queue in the staging store, which the entries in the transmit buffer have left. -/
def State.queueRoom (s : State) (p : Nat) (r : List Byte) : Bool :=
  (((s.tx p).queue.drop (s.tx p).buffered).map Emit.size).sum + 6 + r.length ≤ s.queueSize p

/-- Put an entry at the tail of a port's emit queue; one with a count earlier than the tail's is an order fault (06 R119). An entry that was discarded dry
at its count does not come back (R124). -/
def State.enqueue (s : State) (p : Nat) (ctl : L48) (count : Int) (r : List Byte) : State :=
  let x := s.tx p
  if x.gone.contains count then s.setTx p { x with gone := x.gone.erase count }
  else
  let bad := match x.queue.getLast? with
    | some l => decide (count < l.count)
    | none => false
  let s1 := (s.setTx p { x with queue := x.queue ++ [⟨ctl, r, count, s.now⟩] }).fillBuffer p
  if bad then s1.bump 0x2401 11 else s1

/-- A raw frame record whose TICK is that of a count (06 R118). -/
def rawAtCount (r : List Byte) (count : Int) : List Byte := leBytes 6 (ofSigned 48 count) ++ r.drop 6

/-- Six bytes of an emit control value and the record (06 R118). -/
def entryBytes (ctl : L48) (r : List Byte) : List Byte := leBytes 6 ctl.toNat ++ r

/-- Ticks of one bit at a rate code, times ten (06 R130). -/
def macBit10 (rate : Nat) : Nat := [4000, 400, 40, 16, 8, 4].getD rate 4

/-- Ticks of so many bits at a rate in kbit/s, times a thousand. -/
def bitTicks1000 (n rate : Nat) : Nat := (n * 4000000000 + rate - 1) / max 1 rate

/-- The longest frame that a CAN port's configuration admits, in ticks, with worst-case stuffing: an FD frame of 64 bytes with an extended identifier
and no switch of rate, of 733 bits at the arbitration rate, or with XL enabled one of 2,048 bytes, of 34 bits at the arbitration rate and 18,149 at the XL
data rate. PRESUMED: ISO 11898-1:2024 (log entry 6). -/
def State.canLongest (s : State) (p : Nat) : Nat :=
  let fd := bitTicks1000 733 (s.portCfg p 6)
  let xl := if s.portCfg p 10 = 0 then 0 else bitTicks1000 34 (s.portCfg p 6) + bitTicks1000 18149 (s.portCfg p 10)
  (max fd xl + 999) / 1000

/-- The smallest mirror delay of a port in ticks (06 R130). DESIGN CHOICE (log entry 6): the ALTER bit that counts is port A's, as the delay is. -/
def State.mirrorMin (s : State) (p : Nat) : Nat :=
  let t := match portKind p with
    | .mac => (9216 * 8 * macBit10 (s.macRate p) + 9) / 10
    | _ => s.canLongest p
  t + usTicks (if (s.alterEngine p).isSome then 20 else 2)

/-- The mirror delay of a port in ticks (06 R130). -/
def State.mirrorDelay (s : State) (p : Nat) : Nat := if bits (s.repEntry p) 72 24 = 0 then s.mirrorMin p else bits (s.repEntry p) 72 24

/-- Whether a port is one side of a mirror pair in this session (06 R129). -/
def State.mirroring (s : State) (p : Nat) : Bool := s.acting 2 && s.capturing && s.portUse p = 2

/-- Records that are not forwarded (06 R129): ERR 3, CHK 4, RUNT 5, CODE 6, TRUNC 7, TX 8, bus events, notices, XL to a port with XL disabled. -/
def State.mirrorBarred (s : State) (b : Nat) (r : List Byte) : Bool :=
  let f := rawFlags r
  f / 8 % 64 != 0 || rawKind r = 5 || rawKind r = 13 || (rawKind r = 4 && s.portCfg b 10 = 0)

/-- Forward a record of a mirror port with start count `a` to its partner: into the emit queue at a + D, or to the altering engine (06 R129,
R127). An entry that the partner's queue cannot hold is counted as not forwarded (log entry 6). -/
def State.mirrorForward (s : State) (p : Nat) (a : Int) (r : List Byte) : State :=
  let b := s.partner p
  if s.mirroring p then
    if s.mirrorBarred b r then s.bump 0x2401 12
    else
      let count := a + (s.mirrorDelay p : Int)
      let e := rawAtCount r count
      match s.alterEngine b with
      | some n => { s with net := s.net ++ [⟨n, 2, entryBytes 0 e⟩] }
      | none => if s.queueRoom b e then s.enqueue b 0 count e else s.bump 0x2401 12
  else s

end Sys2Proof.Machine
end

