-- ==== Sys2Proof/Machine/Capture.lean ====
section
/-! DEFINITION. What every capture port shares: timestamps, raw frame records, rate limits, buffers, notices, lane wrap points (02 R30, 03 R49 to R70,
05 R101). -/

namespace Sys2Proof.Machine

/-- The count of an edge at a port's reference point under given settings of the port (02 R30): the pin time less input delay and board delay, and for a
MAC whose link is up the PHY's receive latency at the link's rate (03 R52). The frame sync of a sample port is an output, and its delays are added (03
R51, 02 R30). It may lie before 0 : 0. -/
def State.edgeUnder (s : State) (set : Nat → Nat) (p : Nat) (e : Stamp) : Int :=
  let c : Int := (e.count + e.phase.val : Nat)
  let board := toSigned 16 (set 4)
  if portKind p = .smp then c + (Config.outputDelay p s.tb.calGen : Int) + board
  else
    c - (Config.inputDelay p s.tb.calGen : Int) - board -
    (match (s.port p).link with
      | some r => set (8 + r.val)
      | none => 0 : Nat)

/-- A setting of a port at a count: the one before its last commit for an earlier count (03 R50). -/
def State.settingAt (s : State) (p : Nat) (t : Int) (sub : Nat) : Nat :=
  let u := s.sw.units.get {} (portUnit p)
  if u.commits != 0 && t < (u.since : Int) then s.portOld p sub else s.portCfg p sub

/-- Whether an edge belongs to the configuration before the last commit of its port (03 R50). -/
def State.begunOld (s : State) (p : Nat) (e : Stamp) : Bool :=
  let u := s.sw.units.get {} (portUnit p)
  u.commits != 0 && s.edgeUnder (s.portOld p) p e < (u.since : Int)

/-- A setting of a port for a frame whose start edge is `e`: the one in force at that edge (03 R50). -/
def State.setting (s : State) (p : Nat) (e : Stamp) (sub : Nat) : Nat := if s.begunOld p e then s.portOld p sub else s.portCfg p sub

/-- The full count of the start edge of a frame (02 R30, 03 R50 to R52). -/
def State.pinTime (s : State) (p : Nat) (e : Stamp) : Int := s.edgeUnder (s.setting p e) p e

/-- Whether a port captured at an edge (03 R50). -/
def State.heard (s : State) (p : Nat) (e : Stamp) : Bool := if s.begunOld p e then s.portOld p 1 = 1 else (s.port p).enabled

/-- The generation of a frame by its start edge (03 R50). -/
def State.frameGen (s : State) (p : Nat) (e : Stamp) : Nat :=
  let u := s.sw.units.get {} (portUnit p)
  if s.begunOld p e then u.old.toNat else u.gen.toNat

/-- A raw frame record (03 R68). -/
def rawRecord (t : Int) (p kind gen aux flags ident : Nat) (payload : List Byte) : List Byte :=
  padWord (leBytes 6 (ofSigned 48 t) ++ [1, BitVec.ofNat 8 p, BitVec.ofNat 8 (kind + 16 * gen), BitVec.ofNat 8 aux] ++
    leBytes 2 payload.length ++ leBytes 2 flags ++ leBytes 4 ident ++ payload)

/-- Flags of 03 R69 by name. -/
def flUncal : Nat := 0x0001
def flHusk : Nat := 0x0002
def flErr : Nat := 0x0008
def flChk : Nat := 0x0010
def flRunt : Nat := 0x0020
def flCode : Nat := 0x0040
def flTrunc : Nat := 0x0080
def flTx : Nat := 0x0100
def flLate : Nat := 0x0200
def flArb : Nat := 0x0400
def flDrops : Nat := 0x0800

/-! Wrap points of a port's lanes (05 R101). -/

/-- Whether a record's tick lies before the last wrap, for a record that entered the device within 35,184 s of it (02 R45). -/
def beforeWrap (r : List Byte) : Bool := 2 ^ 47 ≤ recTick r

/-- Whether frames of a port from before the wrap are still in the classifier or the Sifter. -/
def State.siftOwes (s : State) (p : Nat) : Bool :=
  (s.port p).inFrame || s.cls.inq.any (fun c => c.port = p && beforeWrap c.bytes) || s.cls.siftq.any (fun c => recPort c.bytes = p && beforeWrap c.bytes)

/-- A sample lane reaches its wrap point once no such frame is left. -/
def State.sampleWrap (s : State) (p : Nat) : State := if s.siftOwes p then s else s.wrapPoint (0x200 + p)

/-- A raw lane reaches its wrap point once no frame is in progress and no record from before the wrap waits in the port's buffer. -/
def State.rawWrap (s : State) (p : Nat) : State :=
  if (s.port p).inFrame || (s.port p).buf.any beforeWrap then s else s.wrapPoint (0x100 + p)

/-- The frame in progress at the wrap has completed, or is not accepted. -/
def State.endFrame (s : State) (p : Nat) : State :=
  if (s.port p).inFrame then ((s.setPort p { s.port p with inFrame := false }).rawWrap p).sampleWrap p else s

/-! Entry of a raw record. -/

/-- Size of a port's receive buffer (03 R67). -/
def bufferSize (p : Nat) : Nat :=
  match portKind p with
  | .can => 4096
  | .smp => 4096
  | .mac => 32768
  | _ => 512

/-- Whether a record fits the port's buffer, which fills only while the staging store takes nothing (03 R67, 05 R111). -/
def State.bufferRoom (s : State) (p : Nat) (r : List Byte) : Bool :=
  !s.stagingFull || ((s.port p).buf.map List.length).sum + r.length ≤ bufferSize p

/-- A raw record leaves its port: into the raw lane or the port's buffer, to the classifier, to the fabric and to the mirror partner (01 R16,
04, 16 R360, 06 R129). -/
def State.putRaw (s : State) (p : Nat) (edge : Int) (r : List Byte) : State :=
  let busy := (s.port p).inFrame
  let post := decide ((s.tb.epoch.toNat * 2 ^ 48 : Nat) ≤ edge)
  let s1 := if busy && post then s.endFrame p else s
  let s2 := if s1.stagingFull then s1.setPort p { s1.port p with buf := (s1.port p).buf ++ [r] } else s1.stage (0x100 + p) r
  let s3 := if rawKind r = 5 || rawKind r = 13 then s2
    else { s2 with cls := { s2.cls with inq := s2.cls.inq ++ [⟨p, edge, r⟩] } }
  let s4 := (s3.exportRecord r).mirrorForward p edge r
  if busy && !post then s4.endFrame p else s4

/-- Records that wait in the ports' buffers enter staging as it has room. -/
def State.drainBuffers (s : State) : State :=
  s.ports.foldl (fun t e =>
    if t.stagingFull || e.2.buf.isEmpty then t
    else (e.2.buf.foldl (fun u r => (if beforeWrap r then u else u.rawWrap e.1).stage (0x100 + e.1) r)
      (t.setPort e.1 { t.port e.1 with buf := [] })).rawWrap e.1) s

/-- A port notice, raised now (03 R51, R70); a link carrier is no capture port, and raises none (01 R18). -/
def State.notice (s : State) (p aux : Nat) (payload : List Byte) : State :=
  if s.portUse p = 3 then s else s.putRaw p s.now (rawRecord s.now p 13 (s.genAt (portUnit p) s.now) aux 0 0 payload)

/-- Raise the notices of records not accepted (03 R66, R67). -/
def State.dropNotices (s : State) (p : Nat) : State :=
  let q := s.port p
  let s1 := s.setPort p { q with lost0 := 0, lost1 := 0 }
  let s2 := if q.lost0 = 0 then s1 else s1.notice p 0 (leBytes 3 (min q.lost0 0xFFFFFF))
  if q.lost1 = 0 then s2 else s2.notice p 1 (leBytes 3 (min q.lost1 0xFFFFFF))

/-- Period of one record under the rate limit in ticks; 0 where there is none (03 R66). -/
def ratePeriod (p : Nat) : Nat :=
  match portKind p with
  | .lsp => 200000
  | .evt => 125000
  | _ => 0

/-- What a port still has to earn at a count: the token bucket with a burst of 64 records (03 R66). -/
def Port.debtNow (q : Port) (t : Nat) : Nat := q.debt - (t - q.debtAt)

/-- A record whose payload ends before the byte that fails, with CODE (14 R297). -/
def cutRecord (r : List Byte) (n : Nat) : List Byte :=
  if rawLen r ≤ n then r
  else rawSetFlag (padWord (r.take 10 ++ leBytes 2 n ++ slice r 12 6 ++ (rawPayload r).take n)) 6

/-- The byte of the next record's payload that fails in a port's receive buffer. -/
def State.bufferFail (s : State) (p : Nat) : Option Nat :=
  s.side.findSome? fun e => match e.1 with
    | .receive q n => if q.val = p && sideLost e.2.2 then some (16 * n + e.2.1.toNat % 16) else none
    | _ => none

/-- A record as it is read from its port's receive buffer (03 R67, 14 R297). -/
def State.readBuffer (s : State) (p : Nat) (r : List Byte) : List Byte :=
  match s.bufferFail p with
  | none => r
  | some n => cutRecord r n

/-- Accept a record at a port: rate limit, buffer, DROPS and its notices (03 R66, R67). `flags` lacks DROPS, `gen` is the record's generation. -/
def State.accept (s : State) (p gen : Nat) (edge : Int) (kind aux flags ident : Nat) (payload : List Byte) : State :=
  let q := s.port p
  let w := ratePeriod p
  let d := q.debtNow s.now
  let drops := q.lost0 + q.lost1 != 0
  let r := s.readBuffer p (rawRecord edge p kind gen aux (flags + flDrops * bit01 drops) ident payload)
  if 64 * w < d + w then (s.setPort p { q with lost0 := q.lost0 + 1 }).endFrame p
  else if s.bufferRoom p r then
    let s1 := ((((s.setPort p { q with debt := d + w, debtAt := s.now } : State).readSides (isReceive p)).healSides (isReceive p)).putRaw p edge r)
    if drops then s1.dropNotices p else s1
  else (s.setPort p { q with lost1 := q.lost1 + 1 }).endFrame p

/-- A record of a pin timestamp, with UNCAL before the first calibration (02 R32). -/
def State.acceptAt (s : State) (p gen : Nat) (t : Int) (kind aux flags ident : Nat) (payload : List Byte) : State :=
  s.accept p gen t kind aux (flags + flUncal * bit01 (!s.tb.cal)) ident payload

/-- A record of a frame received, by its start edge (02 R30, 03 R50). -/
def State.acceptPin (s : State) (p : Nat) (e : Stamp) (kind aux flags ident : Nat) (payload : List Byte) : State :=
  s.acceptAt p (s.frameGen p e) (s.pinTime p e) kind aux flags ident payload

/-- Whether a port is an event pin or an LSP in edge mode. -/
def State.isEdgePort (s : State) (p : Nat) : Bool := portKind p = .evt || (portKind p = .lsp && s.portCfg p 5 = 4)

/-- The notices of an enabled port: that it is enabled, with the present level (03 R64), and for a MAC whose link is up the link's rate, so that every
Ethernet record follows a link-up notice (R60). -/
def State.portNotices (s : State) (p : Nat) : State :=
  let s1 := s.notice p 4 (if s.isEdgePort p then [BitVec.ofNat 8 (bit01 (s.port p).level)] else [])
  match (s.port p).link with
  | some r => s1.notice p 2 [BitVec.ofNat 8 r.val]
  | none => s1

/-- A port is enabled: its token bucket is full (03 R66), it takes its present level and raises its notices. -/
def State.enablePort (s : State) (p : Nat) : State :=
  (s.setPort p { s.port p with enabled := true, debt := 0, debtAt := s.now }).portNotices p

/-- A port is disabled: unreported drops first (03 R66). -/
def State.disablePort (s : State) (p : Nat) : State :=
  let s1 := (s.dropNotices p).notice p 5 []
  (s1.setPort p { s1.port p with enabled := false }).endFrame p

/-- A CAN port that is not in normal mode keeps its error counts at 0 and is error-active (03 R56). -/
def State.restPort (s : State) (p : Nat) : State :=
  let q := s.port p
  if portKind p = .can && s.portCfg p 5 != 2 && (q.rec_ != 0 || q.tec != 0 || q.errState != 0) then
    s.setPort p { q with rec_ := 0, tec := 0, errState := 0 }
  else s

/-- Enable and disable ports after a change of their settings (03 R56, R64). -/
def State.applyEnables (s : State) : State :=
  allPorts.foldl (fun s0 p =>
    let t := s0.restPort p
    let on := t.portCfg p 1 = 1
    if on && !(t.port p).enabled then t.enablePort p else if !on && (t.port p).enabled then t.disablePort p else t) s

end Sys2Proof.Machine
end

