-- ==== Sys2Proof/Machine/DictOps.lean ====
section
/-! DEFINITION. Serving dictionary requests: answers and aborts on each path, remote targets, session and switch conditions (17 R364 to R379, R470,
16 R358). -/

namespace Sys2Proof.Machine

/-- Whether Pestle serves the dictionary: after boot step 10, while the core runs (19 R420, R439). -/
def State.served (s : State) : Bool := s.pwr.boot = .up && s.pwr.st.val ≤ 1

/-- Whether a profile switch is pending (17 R389). -/
def State.switchPending (s : State) : Bool := s.sw.pending.isSome

/-! Answers. -/

/-- Flits of an MGMT message (16 R343, R358): KIND, TAG, LEN, eight bytes of fields, data. -/
def mgmtFlits (kind : Nat) (tag : Byte) (len : Nat) (fields data : List Byte) : List Flit :=
  cutFlits 6 1 true 64 ([BitVec.ofNat 8 kind, tag] ++ leBytes 2 len ++ fit 8 fields ++ data)

/-- Answer an MGMT request (16 R358). -/
def State.mgmtAnswer (s : State) (node tag : Byte) (status : Nat) (data : List Byte) : State :=
  (s.sendTo node.toNat (mgmtFlits 4 tag data.length (leBytes 4 status) data)).1

/-- The mailbox of a PCIe controller. -/
def State.box (s : State) (k : Nat) : Mailbox := s.acc.boxes.get {} k
/-- Change a mailbox. -/
def State.setBox (s : State) (k : Nat) (b : Mailbox) : State := { s with acc := { s.acc with boxes := s.acc.boxes.set k b } }

/-- The mailbox answers: GO falls, DONE rises, and vector 0 is raised when IE is 1 (17 R371). -/
def State.boxDone (s : State) (k : Nat) (code : Option (BitVec 32)) (data : List Byte) : State :=
  let b := s.box k
  if b.req.getLsbD 31 then
    let read := !b.req.getLsbD 30 && code.isNone
    let s1 := s.setBox k { b with
      req := b.req &&& 0x7FFFFFFF, done := true, err := code.isSome, code := code.getD 0, logged := false,
      len := if read then BitVec.ofNat 13 data.length else b.len,
      buf := if read then data ++ b.buf.drop data.length else b.buf }
    if b.ie then s1.send (.msi k) else s1
  else s

/-- Data lengths of CAN FD by DLC. PRESUMED: ISO 11898-1 (log entry 66). -/
def fdLengths : List Nat := [0, 1, 2, 3, 4, 5, 6, 7, 8, 12, 16, 20, 24, 32, 48, 64]

/-- The smallest DLC whose CAN FD frame holds `n` bytes. -/
def fdDlc (n : Nat) : Nat := min 15 (fdLengths.findIdx (n ≤ ·))

/-- A frame of the device's own waits for its CAN bus: identifier and data, sent once the bus is idle and the port is not in bus-off, and recorded with TX
(17 R368, 03 R53). -/
def State.canOwn (s : State) (ident : Nat) (data : List Byte) : State :=
  let p := s.acc.canPort
  if s.cfg 0x2002 3 = 1 && mode s p = 2 then
    let x := s.tx p
    let l := slice data 0 (fdLengths.getD (fdDlc data.length) 64)
    s.setTx p { x with waiting := x.waiting ++ [⟨0, rawRecord s.now p 2 0 (fdDlc data.length) 0 ident l, s.now, false, true, none⟩] }
  else s
where
  /-- Mode of a CAN port (03 R53). -/
  mode (s : State) (p : Nat) : Nat := s.portCfg p 5

/-- An answer frame of the USDO server (17 R368): its layout is a free value (log entry 2). -/
def State.usdoAnswer (s : State) (code : Option (BitVec 32)) (data : List Byte) : State :=
  ({ s with free := s.free + 1 }).canOwn (0x580 + s.acc.canNode) (Config.usdoFrame s.free code data)

/-- An outcome on the CAN path: a value longer than an expedited upload carries is answered first, then read segment by segment (17 R368, R369). -/
def State.canOutcome (s : State) (code : Option (BitVec 32)) (data : List Byte) : State :=
  if code.isNone && Config.usdoExpedited < data.length then
    (({ s with acc := { s.acc with transfer := some ⟨false, 0, 0, data, 0⟩ } } : State).send (.answer .can [])).usdoAnswer none []
  else (s.send (match code with
    | some c => .abort .can c
    | none => .answer .can data)).usdoAnswer code data

/-- Deliver an outcome on an access path: abort code or data (17 R364). -/
def State.outcome (s : State) (p : Path) (code : Option (BitVec 32)) (data : List Byte) : State :=
  let s1 := s.send (match code with
    | some c => .abort p c
    | none => .answer p data)
  match p with
  | .can => s.canOutcome code data
  | .pcie0 => s1.boxDone 0 code data
  | .pcie1 => s1.boxDone 1 code data
  | .fabric =>
    match s1.acc.caller with
    | none => s1
    | some c => ({ s1 with acc := { s1.acc with caller := none } }).mgmtAnswer c.1 c.2 ((code.map BitVec.toNat).getD 0) data

/-- Answer a dictionary request. -/
def State.answer (s : State) (p : Path) (data : List Byte) : State := s.outcome p none data

/-- A request whose action runs on: its answer is owed to the MGMT caller, if it has one (17 R365). -/
def State.owe (s : State) (idx sub : Nat) : State :=
  match s.acc.caller with
  | none => s
  | some c => { s with acc := { s.acc with caller := none, owed := s.acc.owed ++ [(odKey idx sub, c)] } }

/-- The owed caller of an object is served now. -/
def State.recall (s : State) (idx sub : Nat) : State :=
  match s.acc.owed.find? (·.1 = odKey idx sub) with
  | none => s
  | some o => { s with acc := { s.acc with caller := some o.2, owed := s.acc.owed.erase o } }

/-- The owed caller of an object on the fabric path is served now; every other path answers its own caller. -/
def State.recallOn (s : State) (p : Path) (idx sub : Nat) : State := if p = .fabric then s.recall idx sub else s

/-- Abort a dictionary request; an abort on the CAN path is logged at most once a second (17 R367, R369). -/
def State.refuse (s : State) (p : Path) (idx sub val : Nat) (code : BitVec 32) : State :=
  let s1 := if p = .can && onceASecond s.now s.acc.abortLogAt then
      ({ s with acc := { s.acc with abortLogAt := some s.now } }).logRefusal (pathCode p) idx sub val code
    else s
  s1.outcome p (some code) []

/-- Refuse a dictionary request and log the refusal (18 R408); on the CAN path at most one abort a second is logged (17 R369, log entry 17). -/
def State.refuseLog (s : State) (p : Path) (idx sub val : Nat) (code : BitVec 32) : State :=
  if p = .can then s.refuse p idx sub val code else (s.logRefusal (pathCode p) idx sub val code).outcome p (some code) []

/-! Remote targets (17 R374). -/

/-- Subindex of 0x2020 for a local path. -/
def pathTarget : Path → Option Nat
  | .can => some 1
  | .pcie0 => some 2
  | .pcie1 => some 3
  | .fabric => none

/-- The remote node of a path, when it is not this device. -/
def State.remote (s : State) (p : Path) : Option Byte :=
  match pathTarget p with
  | none => none
  | some k =>
    let v := s.cfg 0x2020 k
    if v = 0xFFFF || s.fab.node = some (BitVec.ofNat 8 v) then none else some (BitVec.ofNat 8 v)

/-- Send one MGMT dictionary request for a local caller, or abort it: no route, or 16 outstanding (16 R358). -/
def State.mgmtSend (s : State) (o : MgmtOut) : State :=
  let piece := o.rest.take 3316
  let tag := s.fab.nextTag
  let fields := leBytes 2 o.idx.toNat ++ [o.sub] ++ leBytes 4 o.off ++ [0]
  let len := if o.write then piece.length else min o.want 3316
  if 16 ≤ (s.fab.out.filter (·.node = o.node)).length then s.refuse o.path o.idx.toNat o.sub.toNat 0 abGeneral
  else
    let r := s.sendTo o.node.toNat (mgmtFlits (bit01 o.write) tag len fields piece)
    if r.2 then
      { r.1 with fab := { r.1.fab with nextTag := tag + 1, out := r.1.fab.out ++ [{ o with tag := tag, rest := o.rest.drop 3316 }] } }
    else r.1.refuse o.path o.idx.toNat o.sub.toNat 0 abGeneral

/-- Serve a request here, or send it to the path's remote target (17 R374); nothing is served before boot step 10. -/
def State.request (s : State) (p : Path) (write : Bool) (idx sub off want : Nat) (data : List Byte) (serve : State → State) : State :=
  if s.served then
    match (if idx = 0x2020 then none else s.remote p) with
    | none => serve s
    | some n => s.mgmtSend ⟨n, 0, p, write, BitVec.ofNat 16 idx, BitVec.ofNat 8 sub, off, data, [], want⟩
  else s

/-- A request of a whole value, not of a DOMAIN piece. -/
def State.requestWrite (s : State) (p : Path) (idx sub : Nat) (data : List Byte) (serve : State → State) : State :=
  s.request p true idx sub 0 0 data serve

/-- A read of a whole value. -/
def State.requestRead (s : State) (p : Path) (idx sub : Nat) (serve : State → State) : State := s.request p false idx sub 0 4096 [] serve

end Sys2Proof.Machine
end

