-- ==== Sys2Proof/Machine/ClassOps.lean ====
section
/-! DEFINITION. Frame keys, probes, field extraction, conversion to samples and the check of the shadow bank (04 R71 to R81, R86). -/

namespace Sys2Proof.Machine

/-! Banks. -/

/-- The active bank (04 R85). -/
def Classifier.activeBank (c : Classifier) : Bank := if c.active then c.bankA else c.bankB
/-- The shadow bank. -/
def Classifier.shadowBank (c : Classifier) : Bank := if c.active then c.bankB else c.bankA
/-- Replace the shadow bank. -/
def Classifier.setShadow (c : Classifier) (b : Bank) : Classifier := if c.active then { c with bankB := b } else { c with bankA := b }

/-- Swap banks at a count: the last-value store is cleared (04 R81, R85). The bank that was active stays known, for the frames that began before. -/
def Classifier.swap (c : Classifier) (t : Nat) : Classifier :=
  { c with active := !c.active, swaps := c.swaps + 1, last := [], olds := (t, c.activeBank) :: c.olds }

/-- The shadow bank comes into force as the one bank there is, at boot and after a wake, which are no swap (04 R85, 19 R431, R439): it classifies every
frame, whenever the frame began. -/
def Classifier.install (c : Classifier) : Classifier := { c with active := !c.active, swaps := c.swaps + 1, last := [], olds := [] }

/-- The swaps that come after a start edge, newest first. -/
def Classifier.after (c : Classifier) (edge : Int) : List (Nat × Bank) := c.olds.filter fun o => edge < (o.1 : Int)

/-- The bank that classifies a frame, by its start edge: the old one for a frame that began before the swap (04 R85). -/
def Classifier.bankAt (c : Classifier) (edge : Int) : Bank := ((c.after edge).getLast?.map (·.2)).getD c.activeBank

/-- A Frame Key Table entry as a number (04 R75). -/
def Bank.fk (b : Bank) (n : Nat) : Nat := (b.fkt.get 0 n).toNat
/-- A Signal Map entry as a number (04 R76). -/
def Bank.se (b : Bank) (n : Nat) : Nat := (b.sm.get 0 n).toNat

/-! Keys (04 R71, R73). -/

/-- KEYID of a record, by the port's settings at its start edge; none for an Ethernet frame too short for its key. -/
def State.keyId (s : State) (p : Nat) (edge : Int) (r : List Byte) : Option Nat :=
  let k := rawKind r
  let id := rawId r
  let pl := rawPayload r
  let set := s.settingAt p edge
  if k = 0 || k = 2 then some (id % 2048)
  else if k = 1 || k = 3 then some (0x80000000 + id % 2 ^ 29)
  else if k = 4 then some (if set 14 = 1 then beNat (slice pl 2 4) else 0x40000000 + id % 2048)
  else if k = 6 then
    if set 6 = 2 then (if set 7 + 4 ≤ pl.length then some (beNat (slice pl (set 7) 4)) else none)
    else (ethTagsAll pl).bind fun t =>
      if t + 2 ≤ pl.length then some ((if set 6 = 1 && 12 < t then beNat (slice pl 14 2) % 4096 * 65536 else 0) + beNat (slice pl t 2)) else none
  else if k = 7 then some (if rawAux r % 4 = 0 then 0 else 0x100 + leNat (slice pl 0 2))
  else if k = 8 then some (rawAux r / 32)
  else if k = 9 then some (id % 64)
  else some 0
where
  /-- Offset of the EtherType after all tags; none for a frame that ends inside a tag. -/
  ethTagsAll (l : List Byte) : Option Nat := go l 12 2304
  /-- Pass over tags from an offset. -/
  go (l : List Byte) (off : Nat) : Nat → Option Nat
    | 0 => some off
    | n + 1 =>
      let tp := beNat (slice l off 2)
      if off + 2 ≤ l.length && (tp = 0x8100 || tp = 0x88A8) then (if off + 4 ≤ l.length then go l (off + 4) n else none) else some off

/-- The two candidate buckets of a key (04 R73). -/
def keyBuckets (port key mux : Nat) (m : Bool) : Nat × Nat :=
  let c := (crc32c ([BitVec.ofNat 8 port] ++ leBytes 4 key ++ leBytes 2 mux ++ [BitVec.ofNat 8 (bit01 m)])).toNat
  let h1 := c % 4096
  let h2 := bits c 16 12
  (h1, if h2 = h1 then h1 ^^^ 0x800 else h2)

/-- Whether a Frame Key Table entry is VALID and holds a key (04 R73, R75). -/
def fkMatch (e port key mux : Nat) (m : Bool) : Bool :=
  bits e 86 1 = 1 && bits e 112 32 = key && bits e 96 16 = mux && bits e 88 8 = port && bits e 87 1 = bit01 m

/-- The entries that one probe reads: both buckets (04 R73). -/
def probeRows (port key mux : Nat) (m : Bool) : List Nat :=
  let h := keyBuckets port key mux m
  (List.range 4).flatMap fun i => [4 * h.1 + i, 4 * h.2 + i]

/-- One probe: a hit when exactly one of the eight entries matches (04 R73). -/
def Bank.probe (b : Bank) (port key mux : Nat) (m : Bool) : Option Nat :=
  match ((probeRows port key mux m).map b.fk).filter fun e => fkMatch e port key mux m with
  | [e] => some e
  | _ => none

/-! Fields (04 R77, R78). -/

/-- Data bit `k` of a payload from a base byte; none beyond the last payload byte present. -/
def dataBit (pl : List Byte) (base k : Nat) : Option Bool :=
  if base + k / 8 < pl.length then some ((pl.getD (base + k / 8) 0).getLsbD (k % 8)) else none

/-- Positions of a field's bits, from its least significant (04 R78). -/
def fieldPos (be : Bool) : Nat → Nat → List Nat
  | _, 0 => []
  | p, n + 1 => if be then fieldPos be (if p % 8 = 0 then p + 15 else p - 1) n ++ [p] else p :: fieldPos be (p + 1) n

/-- The number that bits spell, least significant first; none when one is missing. -/
def bitsVal : List (Option Bool) → Option Nat
  | [] => some 0
  | none :: _ => none
  | some b :: t => (bitsVal t).map fun v => bit01 b + 2 * v

/-- A field of a payload. -/
def readField (pl : List Byte) (base start len : Nat) (be : Bool) : Option Nat := bitsVal ((fieldPos be start len).map (dataBit pl base))

/-- Base byte of a record's data bits (04 R77). -/
def baseByte (r : List Byte) (pbase : Nat) : Nat := if rawKind r = 4 then 6 else if rawKind r = 6 then pbase else 0

/-! Conversion (04 R79). -/

/-- A dyadic number, an infinity or a NaN. -/
inductive Real_ where
  | num (m : Int) (e : Int)
  | inf (neg : Bool)
  | nan
  deriving DecidableEq, Repr

/-- An IEEE 754 number of `eb` exponent bits and `mb` fraction bits. -/
def ieee (eb mb v : Nat) : Real_ :=
  let f := v % 2 ^ mb
  let x := bits v mb eb
  let neg := bits v (mb + eb) 1 = 1
  let sg : Int := if neg then -1 else 1
  let bias : Int := 2 ^ (eb - 1) - 1
  if x = 2 ^ eb - 1 then (if f = 0 then .inf neg else .nan)
  else if x = 0 then .num (sg * f) (1 - bias - mb)
  else .num (sg * (2 ^ mb + f : Nat)) (x - bias - mb)

/-- The raw field as a number by TYPE (04 R79 step 5). -/
def realOf (type len v : Nat) : Real_ :=
  if type = 1 then .num (toSigned len v) 0 else if type = 2 then ieee 8 23 v else if type = 3 then ieee 11 52 v else .num v 0

/-- `n / 2^k` rounded to the nearest integer, ties to even. -/
def roundEven (n : Int) (k : Nat) : Int :=
  let d : Int := 2 ^ k
  let q := n / d
  let r2 := 2 * (n % d)
  if r2 < d then q else if d < r2 then q + 1 else if q % 2 = 0 then q else q + 1

/-- Limit to 48 signed bits: value and SAT (04 R79 step 6). -/
def clamp48 (v : Int) : Int × Bool :=
  if v < -(2 ^ 47) then (-(2 ^ 47), true) else if 2 ^ 47 - 1 < v then (2 ^ 47 - 1, true) else (v, false)

/-- r x SCALE x 2^-SH + OFF: VALUE and SFLAGS [6:5] as 64 SAT and 32 INV. `pos` says which limit an infinity times a SCALE of 0 gives, which the
spec leaves open. -/
def convert (x : Real_) (scale : Int) (sh : Nat) (off : Int) (pos : Bool) : Int × Nat :=
  match x with
  | .nan => (0, 32)
  | .inf neg =>
    let up := if scale = 0 then pos else decide (0 < scale) != neg
    (if up then 2 ^ 47 - 1 else -(2 ^ 47), 64)
  | .num m e =>
    let k := sh + (-e).toNat
    let n := m * 2 ^ e.toNat * scale + off * 2 ^ k
    let c := clamp48 (roundEven n k)
    (c.1, 64 * bit01 c.2)

/-- What one Signal Map entry gives: no sample, a short signal, or a VALUE and SFLAGS (04 R79). -/
inductive SiftOut where
  | absent
  | short
  | sample (value flags : Nat)
  deriving DecidableEq, Repr

/-- Whether NA matches a raw field (04 R76). -/
def naMatch (na len v : Nat) : Bool := (na = 1 && v = 2 ^ len - 1) || (na = 2 && (v = 2 ^ len - 1 || v + 1 = 2 ^ len - 1))

/-- SFLAGS copied from the source record: SRCERR, HUSK, UNCAL (04 R72, R80). -/
def srcFlags (r : List Byte) : Nat := 16 * bits (rawFlags r) 4 1 + 8 * bits (rawFlags r) 1 1 + 4 * bits (rawFlags r) 0 1

/-- One Signal Map entry on a frame (04 R79). -/
def siftEntry (r : List Byte) (base e : Nat) (pos : Bool) : SiftOut :=
  let pl := rawPayload r
  let uen := bits e 37 1 = 1
  let ub := dataBit pl base (bits e 38 17)
  if uen && ub.isNone then .short
  else if uen && ub != some (decide (bits e 36 1 = 1)) then .absent
  else
    match readField pl base (bits e 55 17) (bits e 72 7) (bits e 79 1 = 1) with
    | none => .short
    | some v =>
      let len := bits e 72 7
      let type := bits e 80 3
      if naMatch (bits e 84 2) len v then .sample 0 (128 + srcFlags r)
      else if type = 4 then .sample v (srcFlags r)
      else
        let c := convert (realOf type len v) (toSigned 24 (bits e 120 24)) (bits e 114 6) (toSigned 48 (bits e 144 48)) pos
        .sample (ofSigned 48 c.1) (c.2 + srcFlags r)

/-- A sample record (04 R80). -/
def sampleRecord (r : List Byte) (chan value flags : Nat) : List Byte :=
  leBytes 6 (recTick r) ++ [2, BitVec.ofNat 8 (recPort r), BitVec.ofNat 8 ((r.getD 8 0).toNat / 16 * 16), BitVec.ofNat 8 flags] ++ leBytes 2 chan ++
  leBytes 6 value

/-! The check of a bank (04 R86). -/

/-- A failure: status code and entry as 0x2300:03 and :04 show them. -/
abbrev CheckFail := Nat × Nat

/-- The rules of a VALID Frame Key Table entry, in the order of their codes. -/
def checkFk (b : Bank) (n e : Nat) : Option CheckFail :=
  let m := bits e 87 1 = 1
  let h := keyBuckets (bits e 88 8) (bits e 112 32) (bits e 96 16) m
  let dup := b.fkt.any fun x => x.1 < n && fkMatch x.2.toNat (bits e 88 8) (bits e 112 32) (bits e 96 16) m
  let partner := b.fkt.any fun x => fkMatch x.2.toNat (bits e 88 8) (bits e 112 32) (bits x.2.toNat 96 16) false && bits x.2.toNat 17 5 != 0
  if n / 4 != h.1 && n / 4 != h.2 then some (2, n)
  else if dup then some (3, n)
  else if 1024 < bits e 39 11 || 65536 < bits e 23 16 + bits e 39 11 then some (4, n)
  else if (!m && bits e 96 16 != 0) || (m && (bits e 17 5 != 0 || !partner)) then some (5, n)
  else if 16 < bits e 17 5 || bits e 64 10 != 0 || 9215 < bits e 50 14 || (portKind (bits e 88 8) != .mac && bits e 50 14 != 0) then some (6, n)
  else none

/-- Field values of a checked Signal Map entry (04 R76). -/
def smFieldOk (e : Nat) : Bool :=
  let type := bits e 80 3
  let len := bits e 72 7
  bits e 84 2 != 3 && type ≤ 4 && 1 ≤ len && len ≤ 64 && (type != 2 || len = 32) && (type != 3 || len = 64) && (type != 4 || len ≤ 48) &&
  bits e 0 36 = 0

/-- Indices of the Signal Map entries in runs of VALID entries, rising. -/
def checkedSm (b : Bank) : Tab Unit :=
  b.fkt.foldl (fun t x =>
    let e := x.2.toNat
    if bits e 86 1 = 1 then (List.range (bits e 39 11)).foldl (fun u i => Tab.set u (bits e 23 16 + i) ()) t else t) []

/-- The checked Signal Map entries in order: field values, then one owner for each channel. -/
def checkSm (b : Bank) : Tab Nat → List Nat → Option CheckFail
  | _, [] => none
  | owners, n :: t =>
    let e := b.se n
    let owner := bits e 88 10
    if !smFieldOk e then some (6, 0x80000000 + n)
    else match owners.find (bits e 98 16) with
      | some o => if o = owner then checkSm b owners t else some (7, 0x80000000 + n)
      | none => checkSm b (owners.set (bits e 98 16) owner) t

/-- The first failure among Frame Key Table entries. -/
def Bank.fktFail (b : Bank) : Option CheckFail :=
  b.fkt.findSome? (fun x => if bits x.2.toNat 86 1 = 1 then checkFk b x.1 x.2.toNat else none)

/-- The first failure among Signal Map entries. -/
def Bank.smFail (b : Bank) : Option CheckFail := checkSm b [] ((checkedSm b).map (·.1))

/-- The first of a failure and an uncorrectable byte at an entry, by entry: status 6 for the byte (04 R86). -/
def firstFail (bad : Option Nat) (f : Option CheckFail) : Option CheckFail :=
  match bad, f with
  | some n, some x => if n ≤ x.2 then some (6, n) else f
  | some n, none => some (6, n)
  | none, _ => f

/-- The first failure of a bank, or none (04 R86). -/
def Bank.check (b : Bank) : Option CheckFail := b.fktFail.or b.smFail

/-- Frame Key Table and Signal Map entries of a bank with an uncorrectable byte (14 R297). -/
def State.badFkt (s : State) (bankB : Bool) : List Nat :=
  s.side.filterMap fun r => match r.1 with
    | .fkt b n => if b = bankB && sideLost r.2.2 then some n.val else none
    | _ => none
def State.badSm (s : State) (bankB : Bool) : List Nat :=
  s.side.filterMap fun r => match r.1 with
    | .sm b n => if b = bankB && sideLost r.2.2 then some n.val else none
    | _ => none

/-- The check of the shadow bank, uncorrectable bytes with it (04 R86, 14 R297). -/
def State.checkShadow (s : State) : Option CheckFail :=
  let b := s.cls.shadowBank
  (firstFail (s.badFkt s.cls.active).min? b.fktFail).or (firstFail ((s.badSm s.cls.active).min?.map (0x80000000 + ·)) b.smFail)

/-- The first entry of the active bank with an uncorrectable byte. -/
def State.badEntry (s : State) : Option SideRow :=
  ((s.badFkt !s.cls.active).head?.map fun n => .fkt (!s.cls.active) (Fin.ofNat 16384 n)).or
  ((s.badSm !s.cls.active).head?.map fun n => .sm (!s.cls.active) (Fin.ofNat 65536 n))

/-- Write the whole shadow bank, which heals it (14 R308). -/
def State.putShadow (s : State) (b : Bank) : State :=
  { s with cls := s.cls.setShadow b, side := s.side.filter fun r => !sideInBank s.cls.active r.1 }

end Sys2Proof.Machine
end

