-- ==== Sys2Proof/Machine/Pods.lean ====
section
/-! DEFINITION. Engine reset, pod images and their checks, image load, pod reset (13 R283 to R288, 18 R416, 19 R437, 05 R112). -/

namespace Sys2Proof.Machine

/-! Engine reset (08 R157, 19 R437). -/

/-- Write the bytes of a store-buffer entry into DMEM. -/
def State.drainEntry (s : State) (b : SbEntry) : State := { s with mem := s.mem.writeBytes none b.addr b.bytes }

/-- Write what an engine's store buffer holds, and a store that waits for room in it, into DMEM (08 R157). -/
def State.drainBuffer (s : State) (e : Nat) : State :=
  let x := (s.engine e).lsu0
  (x.sb ++ x.stWait.toList).foldl State.drainEntry s

/-- Router drops that an engine reset counts: the records of its input ring and its incomplete outgoing record (19 R437). -/
def Spu.resetDrops (x : Spu) : Nat := x.ring.length + bit01 x.build.isSome

/-- The stores of LSU1 that a reset of their engine meets on their way: they still take effect, and their outcome is nobody's (08 R157). -/
def Lsu1.lasting (x : Lsu1) : List L1Fl := (x.fl.filter fun f => !f.load).map fun f => { f with past := true }

/-- Reset one engine: the store buffer drains, the stores of LSU1 go on, the state of 08 R157 is taken, the ring and the incomplete record are counted as
router drops; complete outgoing records stay in the output queue. -/
def State.engineReset (s : State) (e : Nat) : State :=
  let x := s.engine e
  let s1 := (s.drainBuffer e).setEngine e { spu := { done := x.spu.done }, lsu1 := { fl := x.lsu1.lasting } }
  if e < 1024 then s1.bumpBy (0x2A01 + e / 32) 5 4 x.spu.resetDrops else s1

/-- Change PCC_ERST of a pod: engines whose bit becomes 1 are reset, engines whose bit becomes 0 issue bundle 0 (19 R438). -/
def State.setErst (s : State) (p : Nat) (v : BitVec 32) : State :=
  let old := (s.pod p).erst
  let s1 := (List.range 32).foldl (fun t i => if v.getLsbD i && !old.getLsbD i then t.engineReset (32 * p + i) else t) s
  s1.setPod p { s1.pod p with erst := v }

/-! Images (13 R283 to R286). -/

/-- A section entry (13 R285). -/
structure Section where
  stype : Nat
  eng : Nat
  rights : Nat
  resv : Nat
  doff : Nat
  addr : Nat
  len : Nat
  deriving DecidableEq, Repr

/-- NSEC of an image. -/
def imgNsec (b : List Byte) : Nat := leNat (slice b 16 2)
/-- ILEN of an image. -/
def imgLen (b : List Byte) : Nat := leNat (slice b 12 4)
/-- ENGMASK of an image. -/
def imgMask (b : List Byte) : Nat := leNat (slice b 20 4)
/-- BUILDID of an image. -/
def imgId (b : List Byte) : Nat := leNat (slice b 24 8)

/-- The section entries of an image. -/
def imgSections (b : List Byte) : List Section :=
  (List.range (imgNsec b)).map fun i =>
    let e := slice b (64 + 16 * i) 16
    ⟨(e.getD 0 0).toNat, (e.getD 1 0).toNat, (e.getD 2 0).toNat, (e.getD 3 0).toNat, leNat (slice e 4 4), leNat (slice e 8 4), leNat (slice e 12 4)⟩

/-- Bytes of data of a section: 16 a bundle, 3 a word, none for a window. `kind` is the image's KIND. -/
def Section.size (x : Section) (kind : Nat) : Nat :=
  if kind = 0 && x.stype = 1 then 16 * x.len else if kind = 0 && x.stype = 4 then 0 else 3 * x.len

/-- Check 1 of R287 (13): ILEN against the stored image and against its own tables. -/
def imgCheck1 (b : List Byte) : Bool := imgLen b ≤ b.length && 64 + imgNsec b * 16 + 96 ≤ imgLen b

/-- TOOLVER of an image (13 R284). -/
def imgTool (b : List Byte) : BitVec 16 := BitVec.ofNat 16 (leNat (slice b 10 2))

/-- Check 2: MAGIC, FORMAT, HLEN, HCRC and the reserved bytes of the header. -/
def imgCheck2 (b : List Byte) : Bool :=
  slice b 0 5 = [0x43, 0x50, 0x5A, 0x49, 1] && leNat (slice b 6 2) = 64 && slice b 18 2 = zeros 2 && slice b 32 28 = zeros 28 &&
  leNat (slice b 60 4) = (crc32c (slice b 0 60)).toNat

/-- Check 3: the signature against a public key (13 R286). Halves are stored least significant byte first. -/
def imgSigned (key b : List Byte) : Bool :=
  let n := imgLen b
  Config.ecdsaVerify key (sha384 (slice b 0 (n - 96))) ((slice b (n - 96) 48).reverse ++ (slice b (n - 48) 48).reverse)

/-- Whether two sections claim a common unit of one memory. -/
def Section.overlaps (x y : Section) : Bool :=
  x.stype = y.stype && x.eng = y.eng && x.addr < y.addr + y.len && y.addr < x.addr + x.len

/-- A section entry of a pod image alone (13 R285). -/
def Section.podOk (x : Section) (nsec ilen : Nat) : Bool :=
  let engOk := if x.stype = 1 || x.stype = 2 then x.eng < 32 else x.eng = 0
  let data := if x.stype = 4 then x.doff = 0 else x.doff % 16 = 0 && 64 + 16 * nsec ≤ x.doff && x.doff + x.size 0 ≤ ilen - 96
  1 ≤ x.stype && x.stype ≤ 4 && engOk && (if x.stype = 4 then x.rights < 4 else x.rights = 0) && x.resv = 0 && data &&
  (if x.stype = 1 then x.addr + x.len ≤ 2048
   else if x.stype = 2 then x.addr + x.len ≤ 24576
   else if x.stype = 3 then 160 ≤ x.addr && x.addr + x.len ≤ 393216
   else x.addr + x.len ≤ 2 ^ 32)

/-- The first section that breaks a condition, given the sections before it: alone, or by overlap with an earlier section of the same memory. -/
def firstBad (ok : Section → Bool) (clash : Section → Section → Bool) : List Section → List Section → Nat → Option Nat
  | _, [], _ => none
  | seen, x :: t, i => if ok x && !seen.any (clash x) then firstBad ok clash (x :: seen) t (i + 1) else some i

/-- Check 6 for a pod image: the first section that breaks R285, or 0 when ENGMASK names an engine without IMEM. -/
def podSections (b : List Byte) : Option Nat :=
  let xs := imgSections b
  let named := (List.range 32).filter fun e => imgMask b / 2 ^ e % 2 = 1
  match firstBad (fun x => x.podOk (imgNsec b) (imgLen b)) (fun x y => x.stype != 4 && x.overlaps y) [] xs 0 with
  | some i => some i
  | none => if imgNsec b = 0 || 1024 < imgNsec b || named.any (fun e => !xs.any fun x => x.stype = 1 && x.eng = e) then some 0 else none

/-- Global windows of an image with their section numbers: first byte, length, rights. -/
def imgWindows (b : List Byte) : List (Nat × Nat × Nat × Nat) :=
  ((imgSections b).zipIdx.filter fun x => x.1.stype = 4).map fun x => (x.2, x.1.addr * 256, x.1.len * 256, x.1.rights)

/-- Whether two byte ranges overlap. -/
def rangesMeet (a n b m : Nat) : Bool := a < b + m && b < a + n

/-- Check 8: the first writable window that overlaps a writable window of another image of the profile, or what the device uses. -/
def windowClash (b : List Byte) (others : List (List Byte)) : Option Nat :=
  ((imgWindows b).find? fun w => w.2.2.2 / 2 % 2 = 1 && w.2.2.1 != 0 &&
    (Config.deviceUses w.2.1 (w.2.1 + w.2.2.1 - 1) ||
      others.any fun o => (imgWindows o).any fun v => v.2.2.2 / 2 % 2 = 1 && rangesMeet w.2.1 w.2.2.1 v.2.1 v.2.2.1)).map (·.1)

/-- The checks of R287 (13) on a pod image, in order: result code 0 or 1 to 9, and the first failing section. -/
def podCheck (keyHash : Option (List Byte)) (b : List Byte) (others : List (List Byte)) : Nat × Nat :=
  if !imgCheck1 b then (1, 0)
  else if !imgCheck2 b then (2, 0)
  else if !(keyHash.any fun h => imgSigned (Config.imageKey h) b) then (3, 0)
  else if b.getD 5 0 != 0 then (4, 0)
  else if leNat (slice b 8 2) != 2 then (5, 0)
  else match podSections b with
    | some i => (6, i)
    | none =>
      match (imgWindows b)[16]? with
      | some w => (7, w.1)
      | none =>
        match windowClash b others with
        | some i => (8, i)
        | none => if imgMask b = 0 then (9, 0) else (0, 0)

/-- The image reference of a pod in the profile in force (17 R383). -/
def State.imageRef (s : State) (p : Nat) : Nat := s.cfg (0x2A40 + p) 1

/-- The stored images that the other pods of the profile refer to. -/
def State.otherImages (s : State) (p : Nat) : List (List Byte) :=
  ((List.range 32).filter (· != p)).filterMap fun q => if s.imageRef q = 0 then none else Tab.find s.pst.images (s.imageRef q)

/-- The check of an image for a pod; an image that the store does not hold fails check 1. -/
def State.checkFor (s : State) (p id : Nat) : Nat × Nat :=
  match Tab.find s.pst.images id with
  | none => (1, 0)
  | some b => podCheck s.pst.keyHash b (s.otherImages p)

/-! Loading (13 R288). -/

/-- Write the data of a section of a pod image. -/
def State.loadSection (s : State) (p : Nat) (b : List Byte) (x : Section) : State :=
  let a := if x.stype = 1 then imemAddr (32 * p + x.eng) x.addr 0 else if x.stype = 2 then dmemAddr (32 * p + x.eng) x.addr 0 else pmemAddr p x.addr 0
  if x.stype = 4 then s else { s with mem := s.mem.writeBytes s.mem.injAt a (slice b x.doff (x.size 0)) }

/-- Key of a region register (14 R303, 15 R338). -/
def rgnKey (port desc reg : Nat) : Nat := 0x100 * port + 0x10 * desc + 4 * reg

/-- Program the pod's region registers from an image's windows and disable the others (13 R288). -/
def State.loadRegions (s : State) (p : Nat) (b : List Byte) : State :=
  let ws := imgWindows b
  { s with xbar := { s.xbar with rgn := (List.range 16).foldl (fun r i =>
      match ws[i]? with
      | some w => ((r.set (rgnKey p i 0) (BitVec.ofNat 32 (w.2.1 / 256))).set (rgnKey p i 1) (BitVec.ofNat 32 (w.2.1 / 256 + w.2.2.1 / 256 - 1))).set
          (rgnKey p i 2) (if w.2.2.1 = 0 then 0 else BitVec.ofNat 32 (8 + w.2.2.2))
      | none => r.set (rgnKey p i 2) 0) s.xbar.rgn } }

/-- Record a failed load of a pod, or of firmware as pod 255 (13 R287, R296). -/
def State.loadFailed (s : State) (p code sec : Nat) : State :=
  (((s.put 0x2A21 1 code).put 0x2A21 2 p).put 0x2A21 3 sec).logE 3 1 0x2A21 1 code

/-- A successful load clears the record of a failed one of the same pod, and its BUILDID is logged (13 R284, R296). -/
def State.loadLogged (s : State) (p : Nat) (id : Nat) : State :=
  let s1 := if s.cfg 0x2A21 2 = p && s.cfg 0x2A21 1 != 0 then ((s.put 0x2A21 1 0).put 0x2A21 2 0).put 0x2A21 3 0 else s
  if p = 255 then s1.logWide 3 0x2000 4 (leBytes 8 id) else s1.logWide 3 (0x2A40 + p) 1 (leBytes 8 id)

/-- The image that a load of a pod takes, and the outcome of its check: the copy verified for a profile commit, or the one in the image store (13 R287,
R289). -/
def State.imageFor (s : State) (p : Nat) : List Byte × Nat × Nat :=
  match (s.pod p).copy with
  | some b => (b, 0, 0)
  | none => ((Tab.find s.pst.images (s.imageRef p)).getD [], s.checkFor p (s.imageRef p))

/-- Whether an address lies in a pod's PMEM, plain window or alias. -/
def inPmem (p a : Nat) : Bool :=
  [0x200000000, 0x240000000, 0x280000000].any fun b => b + p * 0x200000 ≤ a && a < b + (p + 1) * 0x200000

/-- The stores of a pod's engines that were still on their way to the pod's own PMEM are done: what they wrote goes with its contents (08 R157). -/
def State.storesDone (s : State) (p : Nat) : State :=
  { s with eng := s.eng.map fun (x : Nat × Engine) =>
      if x.1 / 32 = p then (x.1, { x.2 with lsu1 := { x.2.lsu1 with fl := x.2.lsu1.fl.filter fun f => !inPmem p f.addr.toNat } }) else x }

/-- Load the image a pod refers to: hold its engines, fill its memories, and, when the image passes, write it and release its engines (13 R288). -/
def State.loadPod (s : State) (p : Nat) : State :=
  let s1 := (s.setErst p 0xFFFFFFFF).storesDone p
  let s2 := { s1 with mem := s1.mem.forget (podHome p) }
  let s3 := s2.setPod p { s2.pod p with image := 0, loaded := false, copy := none }
  if s.imageRef p = 0 then s3
  else
    let c := s.imageFor p
    if c.2.1 != 0 then s3.loadFailed p c.2.1 c.2.2
    else
      let b := c.1
      let s4 := (imgSections b).foldl (fun t x => t.loadSection p b x) s3
      let s5 := s4.loadRegions p b
      let m := BitVec.ofNat 32 (imgMask b)
      let s6 := s5.setPod p { s5.pod p with image := BitVec.ofNat 64 (imgId b), tool := imgTool b, loaded := true }
      (s6.setErst p (~~~m)).loadLogged p (imgId b)

/-! Pod reset (19 R437, 05 R112, 18 R416). -/

/-- Open blocks of a pod's lanes are coded again with the standby Mill's settings (05 R112, R100). -/
def State.recodeLanes (s : State) (p : Nat) : State :=
  { s with store := { s.store with lanes := s.store.lanes.map fun (l : Nat × Lane) =>
      match l.2.block with
      | some b => if s.lanePod l.1 = p then (l.1, { l.2 with block := some { b with orders := (s.mill (s.cfg (0x2A40 + p) 2)).order, told := [] } }) else l
      | none => l } }

/-- Discard what a pod's stream router and output queues hold, counted as router drops; stores of its engines that leave the pod go on (08 R157). -/
def State.resetRouter (s : State) (p : Nat) : State :=
  let q := s.pod p
  let lost := (List.range 32).map fun i => (s.engine (32 * p + i)).spu.done.length
  let s1 := (s.setPod p { q with arrival := [] }).bumpBy (0x2A01 + p) 5 4 (q.arrival.length + lost.sum)
  { s1 with eng := s1.eng.filterMap fun (e : Nat × Engine) =>
      if e.1 / 32 != p then some e
      else if e.2.lsu1.fl.all fun f => inPmem p f.addr.toNat then none
      else some (e.1, { lsu1 := { fl := e.2.lsu1.fl.filter fun f => !inPmem p f.addr.toNat } }) }

/-- Resets of a pod within the last 60 s, this one included. -/
def recentResets (now : Nat) (l : List Nat) : List Nat := now :: l.filter fun t => now < t + 60 * secTicks

/-- Reset a pod: engines, router and Mill; its lanes move to the standby pod, which is recorded, and stay there until the next transition to ARMED, or with
a failed pod for good (05 R112, 18 R416, log entry 69); it is reloaded, unless this reset makes it failed (19 R437). The entries of its cycle stand in the
order of 18 R409; `note` makes one that comes after them. -/
def State.podResetWith (s : State) (p cause : Nat) (note : State → State) : State :=
  let near := recentResets s.now (s.pod p).resetAt
  let s1 := ((s.recodeLanes p).setErst p 0xFFFFFFFF).resetRouter p
  let s2 := { s1 with store := { s1.store with mills := s1.store.mills.erase p } }
  let s3 := note (((s2.bumpBy (0x2A01 + p) 3 2 1).logE 3 1 0x2500 0 0).logE 3 3 0x2901 1 (3 * 65536 + p * 256 + cause))
  let dead := decide (s.cfg 0x2960 2 ≤ near.length) || (s.pod p).failed
  let s4 := s3.setPod p { s3.pod p with resetAt := near, failed := dead, moved := true }
  if dead then s4.setPod p { s4.pod p with loaded := false, image := 0, copy := none } else s4.loadPod p

/-- Reset a pod. -/
def State.podReset (s : State) (p cause : Nat) : State := s.podResetWith p cause id

/-- A cause the spec does not number: a free value below 10 (18 R408). -/
def State.freeCause (s : State) : Nat × State := let d := s.draw 1
  (d.1 % 10, d.2)

end Sys2Proof.Machine
end

