-- ==== Sys2Proof/Machine/Resets.lean ====
section
/-! DEFINITION. Chip warm reset, cold reset and power-on reset, and what an uncorrectable memory error leads to (19 R437, R452, 14 R314). -/

namespace Sys2Proof.Machine

/-- Whether a value of the dictionary store lies in the configuration store in flash: the device-scoped RW objects (18 R399, 17 R385). -/
def inFlash (key : Nat) : Bool :=
  let idx := key / 256
  let sub := key % 256
  match dictRow idx sub with
  | some r => r.acc = .rw && !profileScoped idx sub && idx != 0x2101 && idx != 0x2911 && idx != 0x2940 && !(idx = 0x2930 && sub = 2)
  | none => false

/-- Counters that only power-on and cold reset clear (19 R427). -/
def lastingCounter (key : Nat) : Bool :=
  let idx := key / 256
  let sub := key % 256
  (idx = 0x2701 && 8 ≤ sub) || (0x2710 ≤ idx && idx ≤ 0x2717 && 4 ≤ sub) || (idx = 0x2940 && sub != 9) || idx = 0x2950 ||
  (0x2A01 ≤ idx && idx ≤ 0x2A20 && sub = 3)

/-- What the Husk holds of the power and boot objects (19 R421, R440, R441). -/
def huskObject (key : Nat) : Bool := key / 256 = 0x2101 || key / 256 = 0x2102 || key / 256 = 0x2103

/-- Whether a row outside the address map is one of the event log, which a chip warm reset keeps (18 R407). -/
def isLogRow : SideRow → Bool
  | .eventLog _ => true
  | _ => false

/-- Whether a home address lies in DRAM. -/
def inDram (a : Nat) : Bool := memKind a = .dram

/-- What every reset keeps beyond its own list: flash, fuses, the SSDs' contents, the trace and the queue (18 R399, R403, 19 R437). -/
def State.keepFlash (s t : State) : State :=
  { t with
    sess := { t.sess with counter := s.sess.counter }
    sw := { t.sw with slots := s.sw.slots }
    store := { t.store with usedLast := s.store.usedLast, ssd0 := { slots := s.store.ssd0.slots }, ssd1 := { slots := s.store.ssd1.slots } }
    mem := { t.mem with recA := s.mem.recA, recB := s.mem.recB }
    pst := { t.pst with slotA := s.pst.slotA, slotB := s.pst.slotB, activeB := s.pst.activeB, trial := s.pst.trial, attempts := s.pst.attempts,
                        rollback := s.pst.rollback, images := s.pst.images, keyHash := s.pst.keyHash, writes := s.pst.writes }
    acc := { t.acc with canPort := s.acc.canPort, canNode := s.acc.canNode }
    out := s.out
    free := s.free
    pending := s.pending }

/-- Levels at the pins' inputs, which no reset of the device changes. -/
def State.pinLevels (s : State) : Tab Port := s.ports.map fun (e : Nat × Port) => (e.1, { ({} : Port) with level := e.2.level })

/-- What stays of the time base while the core is reset or without power: the count at its rate, the calibration number and the mapping; a time base that
has been locked is in holdover (02 R44, R48, 19 R427, R437). -/
def State.timeKept (s : State) (husk : Bool) : TimeBase :=
  { epoch := s.tb.epoch, tick := s.tb.tick, husk := husk, xtal := s.tb.xtal, acc := s.tb.acc, rate := s.tb.rate, srcRate := s.tb.srcRate,
    wasLocked := s.tb.wasLocked, ownLocked := s.tb.ownLocked, lock := if s.tb.wasLocked then 3 else 0, calGen := s.tb.calGen, map := s.tb.map, validity := s.tb.validity }

/-- Chip warm reset (19 R437): everything outside the Husk but chip time and the TAI mapping. The session ends, every fabric link and replay with it; a
store restart with cause 1 is due; the event log takes the entry of the reset. An update whose trial firmware is unconfirmed stays its path's (18 R412). -/
def State.warmReset (s : State) (cause : Nat) : State :=
  let seq := s.log.next
  let t := s.keepFlash State.reset
  let t1 := { t with
    tb := s.timeKept s.tb.husk
    log := s.log
    od := s.od.filter fun e => inFlash e.1 || lastingCounter e.1 || huskObject e.1
    ports := s.pinLevels
    store := { t.store with restart := s.store.restart.set 1 seq }
    pods := s.pods.map fun (e : Nat × Pod) => (e.1, { ({} : Pod) with failed := e.2.failed, bad := e.2.bad })
    mem := { t.mem with cells := s.mem.cells.filter fun e => inDram e.1, dramBad := s.mem.dramBad, dbad := s.mem.dbad }
    side := s.side.filter fun e => isLogRow e.1
    pst := { t.pst with updater := if s.pst.trial then s.pst.updater else none }
    pwr := { t.pwr with boot := .held, xtalOk := s.pwr.xtalOk, halt := s.pwr.halt, stepDone := s.pwr.stepDone, thermTripN := s.pwr.thermTripN,
                        refLost := s.pwr.refLost, rails := 4, resetDomain := 2, resetCause := Fin.ofNat 10 cause, resetSeq := seq }
    test := s.test }
  t1.logE 3 3 0x2901 1 (2 * 65536 + cause)

/-- Cold reset (19 R437, R452): all but the Husk's crystal oscillator, flash and fuses; chip time 0 : 0; the event log begins anew with SEQ 0. From STANDBY
or SLEEP the rails come up first. -/
def State.coldReset (s : State) (cause : Nat) : State :=
  let t := s.keepFlash State.reset
  { t with
    od := s.od.filter fun e => inFlash e.1
    ports := s.pinLevels
    log := { next := 1, rows := [⟨0, 0, 0xC0, 3, 0x2901, 1, BitVec.ofNat 24 (65536 + cause)⟩] }
    store := { t.store with restart := s.store.restart.set 2 0 }
    pods := s.pods.map fun (e : Nat × Pod) => (e.1, { ({} : Pod) with bad := e.2.bad })
    mem := { t.mem with cells := s.mem.cells.filter fun e => inDram e.1, dramBad := s.mem.dramBad, dbad := s.mem.dbad }
    pwr := { t.pwr with boot := if s.pwr.boot = .rails || 2 ≤ s.pwr.st.val || s.pwr.boot = .tripped then .rails else .held, xtalOk := s.pwr.xtalOk,
                        rails := if s.pwr.boot = .rails || 2 ≤ s.pwr.st.val || s.pwr.boot = .tripped then 0 else 4, resetDomain := 1,
                        resetCause := Fin.ofNat 10 cause }
    test := s.test }

/-- Power-on reset (19 R437, 20 R452): as cold, starting from no supply. -/
def State.powerOn (s : State) : State :=
  let t := s.keepFlash State.reset
  { t with
    od := s.od.filter fun e => inFlash e.1
    ports := s.pinLevels
    store := { t.store with restart := s.store.restart.set 2 0 } }

/-! Uncorrectable errors (14 R297, R313, R314). -/

/-- Log a memory error: MACRO, row, byte in the row, syndrome and parity (14 R314, 18 R408). -/
def State.logMemory (s : State) (mac row place : Nat) (c : BitVec 13) : State :=
  s.logX 1 4 0x2940 4 mac [leBytes 2 row ++ [BitVec.ofNat 8 place, BitVec.ofNat 8 (innerSyndrome c + 16 * bit01 (innerParity c))]]

/-- A read met an uncorrectable byte of the byte memory: the error is counted and logged, and the owning domain reset (14 R297, R314, 18 R409). -/
def State.memFailed (s : State) (f : RowFail) : State :=
  let m := memMacro f.row
  let s1 := (s.bumpBy 0x2940 4 2 1).logMemory m.1 m.2 f.place f.code
  match podOf f.row with
  | some p => s1.podReset p 2
  | none => s1.warmReset 2

/-- MACRO of a row outside the address map, and its row within the macro (14 R319). -/
def sideMacro : SideRow → Nat × Nat
  | .fkt b n => (0x500000 + 256 * bit01 b + n.val / 4096, n.val % 4096)
  | .sm b n => (0x500200 + 256 * bit01 b + n.val / 4096, n.val % 4096)
  | .lastValue n => (0x500400 + n.val / 4096, n.val % 4096)
  | .receive p n => (0x600000 + 256 * p.val + n / 4096, n % 4096)
  | .transmit p n => (0x600000 + 256 * (256 + p.val), n.val)
  | .arrival p n => (0x600000 + 256 * (512 + p.val), n.val)
  | .outQueue e n => (0x600000 + 256 * (1024 + e.val), n.val)
  | .frameQueue n => (0x600000 + 256 * 3072 + n.val / 4096, n.val % 4096)
  | .husk n => (0x600000 + 256 * 3073, n.val)
  | .eventLog n => (0x700000 + n.val / 4096, n.val % 4096)

/-- A read met an uncorrectable byte in a row of the active table bank: the error is counted and logged, and the chip reset (14 R297, R314). -/
def State.sideFailed (s : State) (r : SideRow) : State :=
  let m := sideMacro r
  let e := (s.side.find? fun e => e.1 = r && sideLost e.2.2).getD (r, 0, 0)
  ((s.bumpBy 0x2940 4 2 1).logMemory m.1 m.2 e.2.1.toNat e.2.2).warmReset 2

/-! Reads and writes with their outcomes. -/

/-- Count what a read corrected, and list its row (14 R307, R310). -/
def State.noteRead (s : State) (a : Nat) (r : RowRead) : State :=
  let s1 := if r.inner then s.bump 0x2940 1 else s
  let s2 := if r.outer then s1.bump 0x2940 2 else s1
  if r.inner || r.outer then { s2 with mem := s2.mem.listRow (.home (memRow a).1) } else s2

/-- Read `n` bytes of one row: the bytes, or none when the read ended in a reset of the owning domain (14 R297 to R314). -/
def State.readMem (s : State) (a n : Nat) : State × Option (List Byte) :=
  let r := s.mem.readRow a n
  let s1 := s.noteRead a r
  match r.fail with
  | some b => (s1.memFailed b, none)
  | none => (s1, some r.data)

/-- Write part of a staging-store line, or through an alias: one read of the line, then one write of what `g` makes of its old bytes, and of the check bytes;
when the line fails nothing is written and the chip is reset (14 R301, R311). -/
def State.mergeLine (s : State) (inj : Option Nat) (a n : Nat) (g : List Byte → List Byte) : State × Bool :=
  let line := (memRow a).1
  let r := s.mem.readLine line
  let s1 := s.noteRead a r
  match r.fail with
  | some b => (s1.memFailed b, false)
  | none => ({ s1 with mem := s1.mem.writeLine inj a (g (slice r.data (a - line) n)) r.data }, true)

/-- Write bytes of one row (14 R308); in the staging store those of a line (R311). -/
def State.writeMem (s : State) (inj : Option Nat) (a : Nat) (l : List Byte) : State × Bool :=
  if memKind a = .staging then
    if l.length < 48 then s.mergeLine inj a l.length fun _ => l else ({ s with mem := s.mem.writeLine inj a l [] }, true)
  else ({ s with mem := s.mem.writeBytes inj a l }, true)

/-- The effect of an alias on an old byte (14 R300): 1 sets bits, 2 clears them, 0 writes. -/
def aliasByte (op : Nat) (old v : Byte) : Byte := if op = 1 then old ||| v else if op = 2 then old &&& ~~~v else v

/-- Write through a plain or alias window; an alias is one read of the old bytes and a write (14 R300, R301). -/
def State.writeAlias (s : State) (inj : Option Nat) (op a : Nat) (l : List Byte) : State × Bool :=
  if op = 0 then s.writeMem inj a l
  else if memKind a = .staging then s.mergeLine inj a l.length fun old => List.zipWith (aliasByte op) old l
  else
    match s.readMem a l.length with
    | (s1, none) => (s1, false)
    | (s1, some old) => s1.writeMem inj a (List.zipWith (aliasByte op) old l)

/-! DRAM (14 R312, R313). -/

/-- Whether a DRAM block holds a byte that nothing has written since power-on. -/
def Memory.blockFresh (m : Memory) (b : Nat) : Bool := (List.range 32).any fun i => (m.byte (b + i)).isNone

/-- Read a block: its bytes, corrected where the code can, which is counted; none when it is beyond correction, as a block never written may be; such a
block otherwise gives free data (14 R312, R323). -/
def State.readBlock (s : State) (b : Nat) : State × Option (List Byte) :=
  if !s.mem.dramBad.contains b && s.mem.blockFresh b then
    let n := s.free
    let s1 := { s with free := n + 1 }
    if Config.dramFails n b then (s1, none)
    else (s1, some ((List.range 32).map fun i => (s.mem.byte (b + i)).getD (Config.dramByte n (b + i))))
  else match s.mem.decodeBlock b with
    | none => (s, none)
    | some w => (if w.2 then s.bump 0x2940 3 else s, some w.1)

/-- Read `n` bytes of DRAM from a home address, over at most `k` blocks. -/
def State.readDram (s : State) (a n : Nat) : Nat → State × Option (List Byte)
  | 0 => (s, some [])
  | k + 1 =>
    if n = 0 then (s, some [])
    else
      let b := a / 32 * 32
      let m := min n (b + 32 - a)
      match s.readBlock b with
      | (s1, none) => (s1, none)
      | (s1, some l) =>
        match State.readDram s1 (a + m) (n - m) k with
        | (s2, none) => (s2, none)
        | (s2, some t) => (s2, some (slice l (a - b) m ++ t))

/-- A whole DRAM block is written: it is sound again (14 R312). -/
def State.putBlock (s : State) (b : Nat) (l : List Byte) : State := { s with mem := s.mem.putBlock b l }

/-- Write bytes of DRAM, over at most `k` blocks: a block written in part is read first and written whole (14 R312). -/
def State.writeDram (s : State) (a : Nat) (l : List Byte) : Nat → State × Bool
  | 0 => (s, true)
  | k + 1 =>
    if l.isEmpty then (s, true)
    else
      let b := a / 32 * 32
      let m := min l.length (b + 32 - a)
      if m = 32 then State.writeDram (s.putBlock b (l.take 32)) (a + 32) (l.drop 32) k
      else
        match s.readBlock b with
        | (s1, none) => (s1, false)
        | (s1, some old) => State.writeDram (s1.putBlock b (old.take (a - b) ++ l.take m ++ old.drop (a - b + m))) (a + m) (l.drop m) k

/-- Whether a DRAM address lies in the record ring. -/
def State.inRing (s : State) (a : Nat) : Bool :=
  dramBase + Config.ringFrom ≤ a && a < dramBase + Config.ringFrom + s.cfg 0x2500 7 * 1048576

/-- Whether a DRAM address lies in the replay read-ahead region. -/
def State.inReadAhead (s : State) (a : Nat) : Bool :=
  dramBase + Config.readAheadFrom ≤ a && a < dramBase + Config.readAheadFrom + s.cfg 0x2400 13 * 1048576

/-- Whether a master reads DRAM for the session-store path or for replay (14 R313, 15 R324): the ring mover, the replay feeder, and the PCIe controllers in
root-port mode, whose SSDs read the ring. -/
def State.dramPath (s : State) (master a : Nat) : Bool :=
  master = 40 || master = 43 || ((master = 41 || master = 42) && !Config.pcieEndpoint (master - 41) && s.inRing a)

/-- An uncorrectable DRAM block met by a crossbar master: counted and logged; on the session-store path and for replay it ends in a chip warm reset (14
R313). -/
def State.dramFailed (s : State) (master a : Nat) : State :=
  let s1 := s.bumpBy 0x2940 4 2 1
  if s.dramPath master a then s1.warmReset 2 else s1.logCount 1 0x2940 4

end Sys2Proof.Machine
end

