-- ==== Sys2Proof/Machine/Classify.lean ====
section
/-! DEFINITION. Commands of the classifier and Sifter (04): classification, sifting, table loading, checking, copying and swapping. -/

namespace Sys2Proof.Machine

/-- The first waiting record of a port, and the rest. -/
def takePort (p : Nat) : List ClassIn → Option (ClassIn × List ClassIn)
  | [] => none
  | c :: t =>
    if c.port = p then some (c, t)
    else match takePort p t with
      | none => none
      | some (d, u) => some (d, c :: u)

/-- The entries of a run (04 R74). -/
def runOf (b : Bank) (e : Nat) : List (Nat × BitVec 192) :=
  (List.range (bits e 39 11)).map fun i => (bits e 23 16 + i, b.sm.get 0 (bits e 23 16 + i))

/-- The multiplexed run of a hit, and whether it was missed (04 R74 step 3). -/
def muxRun (b : Bank) (port key e : Nat) (r : List Byte) : List (Nat × BitVec 192) × Bool :=
  if bits e 17 5 = 0 then ([], false)
  else match readField (rawPayload r) (baseByte r (bits e 50 14)) (bits e 0 17) (bits e 17 5) (bits e 22 1 = 1) with
    | none => ([], true)
    | some v =>
      match b.probe port key v true with
      | none => ([], true)
      | some x => (runOf b x, false)

/-- Count a frame skipped because the Sifter queue is full; the event is logged at most once a second (04 R84). -/
def State.skipFrame (s : State) : State :=
  let s1 := s.bump 0x2301 4
  if onceASecond s1.now s1.cls.skipLogAt then ({ s1 with cls := { s1.cls with skipLogAt := some s1.now } }).logCount 1 0x2301 4 else s1

/-- The rows of the active bank that the classification of a record reads: its probes', then its runs' (04 R73, R74). Frames that the bank before a swap
classifies read the shadow bank, which resets nothing (14 R297). -/
def State.tableRows (s : State) (c : ClassIn) (key : Nat) : List SideRow :=
  let a := !s.cls.active
  let fk := fun (v : Nat) (m : Bool) => (probeRows c.port key v m).map fun n => SideRow.fkt a (Fin.ofNat 16384 n)
  if !(s.cls.after c.edge).isEmpty || s.side.isEmpty then []
  else fk 0 false ++ match s.cls.activeBank.probe c.port key 0 false with
    | none => []
    | some e =>
      (if bits e 17 5 = 0 then []
       else ((readField (rawPayload c.bytes) (baseByte c.bytes (bits e 50 14)) (bits e 0 17) (bits e 17 5) (bits e 22 1 = 1)).map fun v => fk v true).getD []) ++
      (runOf s.cls.activeBank e ++ (muxRun s.cls.activeBank c.port key e c.bytes).1).map fun x => SideRow.sm a (Fin.ofNat 65536 x.1)

/-- The first of them with an uncorrectable byte. -/
def State.tableBad (s : State) (c : ClassIn) (key : Nat) : Option SideRow := (s.tableRows c key).find? s.sideBad

/-- A record whose key is known is looked up, and its frame queued for the Sifter (04 R74); a write into an empty queue heals its rows (14 R308, log entry
67). -/
def State.lookUp (s : State) (c : ClassIn) (key : Nat) : State :=
  let r := c.bytes
  let b := s.cls.bankAt c.edge
  match b.probe c.port key 0 false with
  | none => s.bump 0x2301 2
  | some e =>
    if bits (rawFlags r) 4 1 = 1 && bits e 85 1 = 0 then s.bump 0x2301 7
    else
      let m := muxRun b c.port key e r
      let s1 := s.bump 0x2301 1
      let s2 := if m.2 then s1.bump 0x2301 3 else s1
      let s3 := if s2.cls.siftq.isEmpty then s2.healSides isFrameQueue else s2
      { s3 with cls := { s3.cls with siftq := s3.cls.siftq ++
        [{ bytes := r, base := baseByte r (bits e 50 14), copyTo := if bits e 84 1 = 1 then some (bits e 79 5 * 32 + bits e 74 5) else none,
           entries := runOf b e ++ m.1, era := s.cls.swaps - (s.cls.after c.edge).length }] } }

/-- Classify one record (04 R72, R74). DESIGN CHOICE (log entry 62): a record that finds the Sifter queue full is counted in 0x2301:04 alone, whatever its
flags and key. An uncorrectable byte of an entry that it reads resets the chip (14 R297). -/
def State.classifyOne (s : State) (c : ClassIn) : State :=
  let r := c.bytes
  if 8192 ≤ s.cls.siftq.length then s.skipFrame
  else if bits (rawFlags r) 3 1 = 1 || bits (rawFlags r) 6 1 = 1 then s.bump 0x2301 7
  else match s.keyId c.port c.edge r with
    | none => s.bump 0x2301 2
    | some key =>
      let t := s.readSides (s.tableRows c key).contains
      match s.tableBad c key with
      | some x => t.sideFailed x
      | none => t.lookUp c key

/-- The classifier takes the oldest waiting record of a port (04 R74, R82). -/
def State.classifyPort (s : State) (p : Nat) : State :=
  match takePort p s.cls.inq with
  | none => s
  | some (c, t) => (({ s with cls := { s.cls with inq := t } }).classifyOne c).sampleWrap p

/-- CLASSIFY_FRAME (04 R74). -/
def execClassifyFrame (port : PortN) (s : State) : Host.Outcome State Fault Refusal := .next (s.classifyPort port.val)

/-- Emit a sample: to its engine, then to the log (04 R82, R83). -/
def State.emitSample (s : State) (e : Nat) (r : List Byte) : State :=
  let s1 := if bits e 87 1 = 1 then s.deliver (bits e 93 5 * 32 + bits e 88 5) 0 r else s
  let s2 := if bits e 86 1 = 1 then s1.stage (0x200 + recPort r) r else s1
  s2.exportRecord r

/-- Whether the last-value store holds an entry's last sample: not where its row has an uncorrectable byte (14 R297). -/
def State.lastIs (s : State) (n : Nat) (key : BitVec 52) : Bool :=
  s.cls.last.find n = some key && !s.sideBad (.lastValue (Fin.ofNat 65536 n))

/-- The last sample of an entry, written whole. -/
def State.setLast (s : State) (n : Nat) (key : BitVec 52) : State :=
  ({ s with cls := { s.cls with last := s.cls.last.set n key } }).healSide (.lastValue (Fin.ofNat 65536 n))

/-- One Signal Map entry: short signals counted, a sample emitted unless it is unchanged (04 R79, R81). DESIGN CHOICE (log entry 62): a frame classified
with the old bank and sifted after the swap is compared with nothing and writes no last value, so that the first sample of each entry of the new bank
is emitted. -/
def State.siftOne (s : State) (r : List Byte) (base era n e : Nat) : State :=
  let d := s.draw 2
  match siftEntry r base e (d.1 % 2 = 1) with
  | .absent => s
  | .short => s.bump 0x2301 5
  | .sample v f =>
    let key : BitVec 52 := BitVec.ofNat 52 (v * 16 + f / 16)
    let now := era = s.cls.swaps
    let row : SideRow := .lastValue (Fin.ofNat 65536 n)
    let read := fun (t : State) => if bits e 83 1 = 1 && now then t.readSides (· = row) else t
    if bits e 83 1 = 1 && now && s.lastIs n key then read s
    else (if now then (read d.2).setLast n key else d.2).emitSample e (sampleRecord r (bits e 98 16) v f)

/-- The Sifter takes a queued frame: the frame copy, then the samples of its runs in order (04 R79, R82). A frame whose place in the queue has an
uncorrectable byte is counted as skipped (14 R297). -/
def State.sift (s : State) : State :=
  match s.cls.siftq with
  | [] => s
  | q :: t =>
    let s1 := ({ s with cls := { s.cls with siftq := t } } : State).readSides isFrameQueue
    if s1.sidesBad isFrameQueue then ((s1.healSides isFrameQueue).skipFrame).sampleWrap (recPort q.bytes)
    else
    let s2 := match q.copyTo with
      | some e => s1.deliver e 1 q.bytes
      | none => s1
    (q.entries.foldl (fun u x => u.siftOne q.bytes q.base q.era x.1 x.2.toNat) s2).sampleWrap (recPort q.bytes)

/-- SIFT_FRAME (04 R79). -/
def execSiftFrame (s : State) : Host.Outcome State Fault Refusal := .next s.sift

/-! Loading and swapping (04 R85 to R87). -/

/-- Whether a check of the shadow bank runs: for a commit request, or for a switch whose classifier still prepares (04 R85, R88). -/
def State.checking (s : State) : Bool :=
  s.cls.checking.isSome ||
  (!s.cls.copying && s.sw.pending.any fun w => !w.done && !w.prepared.contains 208 && !w.refusedUnits.contains 208)

/-- A commit request (04 R85, R87). -/
def State.wCommitTables (s : State) (p : Path) (v : Nat) : State :=
  if v != 1 then s.refuse p 0x2300 1 v abRange
  else if s.sess.st != .idle || s.cls.copying || s.checking || s.switchPending then s.refuseLog p 0x2300 1 v abState
  else ({ s with cls := { s.cls with checking := some p } }).owe 0x2300 1

/-- COMMIT_SHADOW_TABLES (04 R85). -/
def execCommitShadowTables (path : Path) (v : Byte) (s : State) : Host.Outcome State Fault Refusal :=
  .next (s.requestWrite path 0x2300 1 [v] fun t => t.wCommitTables path v.toNat)

/-- Publish a check's result in 0x2300:03 and :04 (04 R86). -/
def State.publishCheck (s : State) (f : Option CheckFail) : State :=
  let x := f.getD (0, 0)
  (s.put 0x2300 3 x.1).put 0x2300 4 x.2

/-- The check of a commit request ends: swap and answer, or refuse (04 R85, R86). -/
def State.checkDone (s0 : State) : State :=
  match s0.cls.checking with
  | none => s0
  | some p =>
    let s := s0.readSides (sideInBank s0.cls.active)
    let f := s.checkShadow
    let s1 := (({ s with cls := { s.cls with checking := none } }).publishCheck f).recall 0x2300 1
    match f with
    | none => ({ s1 with cls := s1.cls.swap s1.now }).answer p []
    | some _ => s1.refuse p 0x2300 1 1 abConfig

/-- TABLE_CHECK_COMPLETE (04 R86). -/
def execTableCheckComplete (s : State) : Host.Outcome State Fault Refusal := .next s.checkDone

/-- A copy request (04 R85, R87): 1 starts a copy, 0 has no effect. DESIGN CHOICE (log entry 57): while a switch is pending or a check runs a write of 0 is
refused and logged as a write of 1 is. -/
def State.wCopyTables (s : State) (p : Path) (v : Nat) : State :=
  if 1 < v then s.refuse p 0x2300 2 v abRange
  else if s.switchPending || s.checking then s.refuseLog p 0x2300 2 v abState
  else (if v = 1 then ({ s with cls := { s.cls with copying := true } }).put 0x2300 2 1 else s).answer p []

/-- COPY_ACTIVE_TO_SHADOW (04 R85). -/
def execCopyActiveToShadow (path : Path) (v : Byte) (s : State) : Host.Outcome State Fault Refusal :=
  .next (s.requestWrite path 0x2300 2 [v] fun t => t.wCopyTables path v.toNat)

/-- The copy ends: the shadow bank equals the active bank (04 R85). -/
def State.copyDone (s0 : State) : State :=
  if s0.cls.copying then
    let s := s0.readSides (sideInBank (!s0.cls.active))
    match s.badEntry with
    | some r => s.sideFailed r
    | none =>
      let t := s.putShadow s.cls.activeBank
      ({ t with cls := { t.cls with copying := false } }).put 0x2300 2 0
  else s0

/-- TABLE_COPY_COMPLETE (04 R85). -/
def execTableCopyComplete (s : State) : Host.Outcome State Fault Refusal := .next s.copyDone

/-- Length of one entry of a table window; none where the index is no window (04 R87, 06 R132, 07 R135, 16 R360). -/
def windowLen (idx : Nat) : Option Nat :=
  if 0x3000 ≤ idx && idx < 0x3080 then some 18
  else if 0x3100 ≤ idx && idx < 0x3300 then some 24
  else if idx = 0x3400 || idx = 0x3401 then some 12
  else if (0x3600 ≤ idx && idx < 0x3620) || (0x3700 ≤ idx && idx < 0x3708) then some 6
  else none

/-- Store an entry of a table window: Frame Key Table and Signal Map entries go into the shadow bank (04 R85, R88), whose reserved bits read 0 whatever is
written (R75, R76, 00 R13). -/
def State.storeEntry (s : State) (idx sub v : Nat) : State :=
  let b := s.cls.shadowBank
  let f := (idx - 0x3000) * 128 + sub - 1
  let m := (idx - 0x3100) * 128 + sub - 1
  if idx < 0x3080 then
    ({ s with cls := s.cls.setShadow { b with fkt := setOrErase b.fkt f (BitVec.ofNat 144 v &&& ~~~((0x3FF : BitVec 144) <<< 64)) } } : State).healSide
      (.fkt s.cls.active (Fin.ofNat 16384 f))
  else if idx < 0x3300 then
    ({ s with cls := s.cls.setShadow { b with sm := setOrErase b.sm m (BitVec.ofNat 192 v &&& ~~~(0xFFFFFFFFF : BitVec 192)) } } : State).healSide
      (.sm s.cls.active (Fin.ofNat 65536 m))
  else s.put idx sub v
where
  /-- An entry of all zeros is not listed. -/
  setOrErase {n : Nat} (t : Tab (BitVec n)) (k : Nat) (v : BitVec n) : Tab (BitVec n) := if v = 0 then t.erase k else t.set k v

/-- A write to a table window (04 R87, 17 R385, R470). -/
def State.wWindow (s : State) (p : Path) (idx sub : Nat) (data : List Byte) : State :=
  let v := leNat data
  match windowLen idx with
  | none => s.refuse p idx sub v abNoObject
  | some n =>
    if 128 < sub then s.refuse p idx sub v abNoSub
    else if sub = 0 then s.refuse p idx sub v abReadOnly
    else if data.length != n then s.refuse p idx sub v abLength
    else if !fieldOk idx sub v then s.refuse p idx sub v abRange
    else if s.sess.st != .idle || s.switchPending || (idx < 0x3300 && (s.cls.copying || s.checking)) then s.refuseLog p idx sub v abState
    else (s.storeEntry idx sub v).answer p []

/-- TABLE_WINDOW_WRITE (04 R87). -/
def execTableWindowWrite (path : Path) (idx : BitVec 16) (sub : Byte) (data : List Byte) (s : State) : Host.Outcome State Fault Refusal :=
  .next (s.requestWrite path idx.toNat sub.toNat data fun t => t.wWindow path idx.toNat sub.toNat data)

/-- Read an entry of a table window (04 R88): the shadow bank. -/
def State.windowEntry (s : State) (idx sub : Nat) : Nat :=
  let b := s.cls.shadowBank
  if idx < 0x3080 then b.fk ((idx - 0x3000) * 128 + sub - 1)
  else if idx < 0x3300 then b.se ((idx - 0x3100) * 128 + sub - 1)
  else s.cfg idx sub

end Sys2Proof.Machine
end

