-- ==== Sys2Proof/Machine/Transmit.lean ====
section
/-! DEFINITION. What a transmitter makes of an entry (06 R116 to R118, R123): the bytes it sends and the record of them; when a start edge leaves and
when it counts as late (02 R30, 03 R52, 06 R120, R121). -/

namespace Sys2Proof.Machine

/-! Ethernet headers (03 R59, R70). -/

/-- Tags of a frame from a byte offset (03 R59): how many, at most `n`, and the offset after them. -/
def ethTags (l : List Byte) (off : Nat) : Nat → Nat × Nat
  | 0 => (0, off)
  | n + 1 =>
    let tp := beNat (slice l off 2)
    if off + 4 ≤ l.length && (tp = 0x8100 || tp = 0x88A8) then
      let r := ethTags l (off + 4) n
      (r.1 + 1, r.2)
    else (0, off)

/-- Outer tag control information, or 0 (03 R70). -/
def ethTci (l : List Byte) : Nat := if (ethTags l 12 1).1 = 1 then beNat (slice l 14 2) else 0

/-! Times at the pins. -/

/-- The count of an output edge at its reference point: the launch, plus output delay and board delay (02 R30 in reverse, 06 R120). -/
def State.outTime (s : State) (p : Nat) (e : Stamp) : Int :=
  ((e.count + e.phase.val : Nat) : Int) + (Config.outputDelay p s.tb.calGen : Int) + s.cfgInt 16 (portIdx p) 4

/-- The count at which an edge is launched that is to reach the reference point at `c` (06 R120). -/
def State.launchAt (s : State) (p : Nat) (c : Int) : Int := c - (Config.outputDelay p s.tb.calGen : Int) - s.cfgInt 16 (portIdx p) 4

/-- The PHY's transmit latency at the rate of the link in force (03 R52). -/
def State.phyOut (s : State) (p : Nat) : Nat :=
  match (s.port p).link with
  | some r => s.portCfg p (14 + r.val)
  | none => 0

/-- The time at the medium of a message that a MAC sends now (03 R52, 02 R39). -/
def State.macOut (s : State) (mac : Nat) : Int := s.outTime (macPort mac) ⟨s.now, 0⟩ + s.phyOut (macPort mac)

/-- Period of a MAC's permitted start positions in fifths of a tick, by rate code (06 R120). -/
def startPeriod5 (rate : Nat) : Int := [64000, 6400, 640, 256, 128, 64].getD rate 64

/-- A start edge's place for an emit count, in fifths of a tick: the count, for a MAC the first permitted position at or after it (06 R120). -/
def State.place5 (s : State) (p : Nat) (c : Int) : Int :=
  if portKind p = .mac then 5 * c + ((Config.startPhase p : Int) - 5 * c) % startPeriod5 (s.macRate p) else 5 * c

/-- Whether a start edge is LATE against its count: more than 8 ticks after its place (06 R121). -/
def State.isLate (s : State) (p : Nat) (start due : Int) : Bool := decide (40 < 5 * start - s.place5 p due)

/-- The start edge of a frame launched for a count on an idle line lies within 8 ticks of its place, whatever else the device does (06 R120, R126). -/
def State.placed (s : State) (p : Nat) (due start : Int) : Int :=
  let w := s.place5 p due
  max ((w - 40 + 4) / 5) (min ((w + 40) / 5) start)

/-! What is sent (06 R118). -/

/-- The fault of an emit control value. -/
def txFault (ctl : L48) : TxFault :=
  let n := ctl.toNat / 2 ^ 24
  match ctl.toNat % 16 with
  | 1 => .badCheck
  | 2 => .breakAt n
  | 3 => .endAfter n
  | _ => .none

/-- RECALC of an emit control value. -/
def recalc (ctl : L48) : Bool := ctl.getLsbD 4

/-- The bytes of an Ethernet frame that its fault leaves, numbered from 0: before the one of FAULT 2, up to the one of FAULT 3 (DEDUCED, log entry 66). -/
def TxFault.cut {α : Type} (f : TxFault) (l : List α) : List α :=
  match f with
  | .breakAt n => l.take n
  | .endAfter n => l.take (n + 1)
  | _ => l

/-- Whether FAULT 2 falls within `n` units, so that a coding fault is sent. -/
def TxFault.breaks (f : TxFault) (n : Nat) : Bool :=
  match f with
  | .breakAt k => k < n
  | _ => false

/-- An Ethernet frame as sent, with the flags of a receiver of it (03 R60, R69). -/
def ethForm (ctl : L48) (l : List Byte) : List Byte × Nat :=
  let n := l.length - 4
  let f := txFault ctl
  let l1 := if recalc ctl then l.take n ++ ethFcs (l.take n) else l
  let l2 := if f = .badCheck then l1.take n ++ (l1.drop n).map (~~~ ·) else f.cut l1
  let m := l2.length - 4
  let code := f.breaks l.length
  (l2, (if code then flCode else if l2.drop m = ethFcs (l2.take m) then 0 else flChk) + (if l2.length < 64 then flRunt else 0))

/-- The data nibbles of a SENT fast-channel payload (03 R70, log entry 65). -/
def sentNibbles (l : List Byte) : List Nat :=
  (List.range ((l.getD 0 0).toNat / 16)).map fun i => (l.getD (1 + i / 2) 0).toNat / (if i % 2 = 0 then 1 else 16) % 16

/-- A SENT fast-channel payload (03 R70): status in byte 0 [3:0] and the number of data nibbles in [7:4], six nibbles in bytes 1 to 3, the first in bits
[3:0], and CRC in byte 4 [3:0] with the pause flag in bit 4. DEDUCED: the rule names the order, the places within a byte are log entry 65's. -/
def sentPack (status : Nat) (nibbles : List Nat) (crc : Nat) (pause : Bool) : List Byte :=
  let n := fun i => nibbles.getD i 0 % 16
  [BitVec.ofNat 8 (status % 16 + 16 * min 6 nibbles.length), BitVec.ofNat 8 (n 0 + 16 * n 1), BitVec.ofNat 8 (n 2 + 16 * n 3), BitVec.ofNat 8 (n 4 + 16 * n 5),
    BitVec.ofNat 8 (crc % 16 + 16 * bit01 pause)]

/-- A SENT frame as sent: nibble 0 is the status, the last the CRC (DEDUCED, log entry 66). A pulse of 30 clock ticks, after which the
frame goes on, and a frame that ends early give a receiver pulses outside the tolerance (03 R63). -/
def sentForm (recommended : Bool) (ctl : L48) (l : List Byte) : List Byte × Nat :=
  let f := txFault ctl
  let d := sentNibbles l
  let st := (l.getD 0 0).toNat % 16
  let good := sentCrc recommended d
  let c0 := if recalc ctl then good else (l.getD 4 0).toNat % 16
  let c := if f = .badCheck then 15 - c0 else c0
  let pause := (l.getD 4 0).getLsbD 4
  let all := match f with
    | .endAfter k => (st :: (d ++ [c])).take (k + 1)
    | _ => st :: (d ++ [c])
  if all.length = d.length + 2 then (sentPack st d c pause, if f.breaks (d.length + 2) then flCode else if c = good then 0 else flChk)
  else (sentPack (all.getD 0 0) (all.drop 1) 0 pause, flCode)

/-- A LIN response as sent: data bytes, then the checksum (03 R63, R70); a dominant stop bit (FAULT 2) leaves every byte and gives a receiver a framing
error. -/
def linForm (enhanced : Bool) (pid : Byte) (ctl : L48) (l : List Byte) : List Byte × Nat :=
  let f := txFault ctl
  let n := l.length - 1
  let l1 := if recalc ctl then l.take n ++ [linChecksum enhanced pid (l.take n)] else l
  let l2 := match f with
    | .badCheck => l1.take n ++ (l1.drop n).map (~~~ ·)
    | .endAfter k => l1.take (k + 1)
    | _ => l1
  let m := l2.length - 1
  (l2, if f.breaks l.length then flCode else if l2.isEmpty || l2.drop m = [linChecksum enhanced pid (l2.take m)] then 0 else flChk)

/-- Whether the profile gives a frame identifier the enhanced checksum (03 R62). -/
def State.enhanced (s : State) (p pid : Nat) : Bool := bits (s.portCfg p 9) (pid % 64) 1 = 1

/-- Whether a LIN commander sends the response of an entry itself (06 R123). -/
def State.linSends (s : State) (p : Nat) (r : List Byte) : Bool :=
  let a := rawAux r
  bits a 3 1 = 1 || (bits (s.repEntry p) 6 1 = 1 && bits a 1 1 = 0)

/-- The bytes a port sends of an entry, and the flags of a receiver of them (06 R118): a CAN port computes its check, and edges and PWM have none. -/
def State.sentBytes (s : State) (p : Nat) (ctl : L48) (r : List Byte) : List Byte × Nat :=
  let l := rawPayload r
  match rawKind r with
  | 6 => ethForm ctl l
  | 7 => sentForm (bits (s.portCfg p 8) 1 1 = 1) ctl l
  | 9 => if s.linSends p r then linForm (s.enhanced p (rawId r)) (BitVec.ofNat 8 (rawId r)) ctl l else ([], 0)
  | _ => (l, 0)

/-- AUX of what a port sends (03 R70): for LIN the profile's checksum and who sent what, for Ethernet the tags and the rate of the link in force. -/
def State.sentAux (s : State) (p : Nat) (r l : List Byte) : Nat :=
  match rawKind r with
  | 6 => (ethTags l 12 3).1 + 4 * ((s.port p).link.map (·.val)).getD (s.macRate p)
  | 9 => bit01 (s.enhanced p (rawId r)) + (if s.linSends p r then 12 else 6)
  | _ => rawAux r

/-- ID of what a port sends: for Ethernet its length and tag, for SENT the clock tick rounded to 250 ps (06 R116). -/
def sentId (r l : List Byte) : Nat :=
  match rawKind r with
  | 6 => min l.length 65535 * 65536 + ethTci l
  | 7 => (rawId r + 125) / 250 * 250
  | _ => rawId r

/-- An entry as its port launches it; mode switching is a CAN XL port's (03 R55). -/
def State.txLaunch (s : State) (p : Nat) (ctl : L48) (at_ : Option Int) (r : List Byte) : Launch :=
  let x := s.sentBytes p ctl r
  ⟨at_, txFault ctl, if portKind p = .can && rawKind r = 4 && s.portCfg p 11 = 1 then some (s.portCfg p 12) else none,
    rawKind r, s.sentAux p r x.1, sentId r x.1, x.1⟩

/-! Completion (06 R121). -/

/-- The actual start edge of a sent frame at its reference point, before the PHY. -/
def State.startTime (s : State) (p : Nat) (w : Sending) (e : Stamp) : Int :=
  match w.on with
  | some c => s.placed p c (s.outTime p e)
  | none => s.outTime p e

/-- A frame the device sent is recorded with TX, and counted and flagged when it was late (01 R18, 06 R121): `payload` and `aux` as sent or, for the response
to a LIN header, as received, `more` the flags beside. A capture port records it with the tick at the medium (03 R52); a port that replay or mirror uses
is one. -/
def State.recordSent (s : State) (p : Nat) (w : Sending) (e : Stamp) (aux more : Nat) (payload : List Byte) : State :=
  let c := s.startTime p w e
  let late := !w.own && s.isLate p c w.due
  let s2 := if w.own then s else s.bump 0x2401 4
  let s3 := if late then s2.bump 0x2401 5 else s2
  let t : Int := c + s3.phyOut p
  let on := if t < ((s3.sw.units.get {} (portUnit p)).since : Int) then decide (s3.settingAt p t 1 = 1) else (s3.port p).enabled
  if (on || s3.portUse p = 1 || s3.portUse p = 2) && s3.portUse p != 3 then
    s3.acceptAt p (s3.genAt (portUnit p) t) t (rawKind w.bytes) aux (flTx + (if late then flLate else 0) + (if w.arb then flArb else 0) + more)
      (sentId w.bytes payload) payload
  else s3

end Sys2Proof.Machine
end

