-- ==== Sys2Proof/Machine/Ports.lean ====
section
/-! DEFINITION. Commands of the capture ports (03): CAN, MACs, low-speed ports, event pins, sample ports. -/

namespace Sys2Proof.Machine

/-! CAN (03 R53 to R57, R472). -/

/-- KIND of a CAN frame (03 R70). -/
def canKind (f : CanFrame) : Nat :=
  match f.fmt with
  | .classic => bit01 f.ext
  | .fd => 2 + bit01 f.ext
  | .xl => 4

/-- AUX of a CAN frame (03 R70). -/
def canAux (f : CanFrame) : Nat :=
  match f.fmt with
  | .classic => f.dlc.toNat + 64 * bit01 f.rtr
  | .fd => f.dlc.toNat + 16 * bit01 f.brs + 32 * bit01 f.esi
  | .xl => 128 * bit01 f.sec

/-- ID of a CAN frame (03 R70). -/
def canId (f : CanFrame) : Nat := if f.ext && f.fmt != .xl then f.ident.toNat else f.ident.toNat % 2048

/-- Payload of a CAN frame (03 R70). -/
def canPayload (f : CanFrame) : List Byte :=
  match f.fmt with
  | .classic => if f.rtr then [] else f.data.take 8
  | .fd => f.data.take 64
  | .xl => [f.sdt, f.vcid] ++ beBytes 4 f.af.toNat ++ f.data.take 2048

/-- Mode of a CAN port for a frame that begins at an edge: 0 monitoring, 1 restricted, 2 normal (03 R50, R53). -/
def State.canMode (s : State) (p : Nat) (e : Stamp) : Nat := s.setting p e 5

/-- Error counts of a port in the payload of a bus event (03 R70). -/
def Port.counts (q : Port) : List Byte := [BitVec.ofNat 8 (min q.rec_ 255), BitVec.ofNat 8 (min q.tec 255)]

/-- A bus-event record with some flags beside its own (03 R56, R69, R70). The identifier stands when the whole arbitration field came before the event. -/
def State.busEvent (s : State) (p : Nat) (e : Stamp) (code field ident pos more : Nat) (bytes : List Byte) : State :=
  s.acceptPin p e 5 (code + 16 * field) ((if code ≤ 4 || code = 6 then flErr else 0) + more) (if field = 0 || field = 5 then 0 else ident)
    (leBytes 2 (min pos 65535) ++ (s.port p).counts ++ bytes)

/-- The receive error count after a successful reception in normal mode: 119 from error-passive (03 R56), else one less (log entry 7). -/
def Port.received (q : Port) : Port := { q with rec_ := if 127 < q.rec_ then 119 else q.rec_ - 1 }

/-- Whether a port is a full node of its bus: in normal mode, and not in bus-off, where it sends nothing (03 R53, R56). -/
def State.canActive (s : State) (p : Nat) (e : Stamp) : Bool := s.canMode p e = 2 && (s.port p).errState != 2

/-- An acknowledge bit, except in monitoring mode and in bus-off (03 R53). -/
def State.canAck (s : State) (p : Nat) (e : Stamp) : State :=
  if s.canMode p e = 0 || (s.port p).errState = 2 then s else s.send (.canAck p)

/-- An error frame, in normal mode (03 R53, R472). -/
def State.canErrorFrame (s : State) (p : Nat) (e : Stamp) : State := if s.canActive p e then s.send (.canErrorFrame p) else s

/-- An error in a frame that the port was sending (06 R118, R122): it waits again for bus idle, in front; a frame with FAULT 1 to 3 is not sent again. -/
def State.sendFailed (s : State) (p : Nat) : State :=
  let x := s.tx p
  match x.started with
  | [] => s
  | w :: t =>
    if txFault w.ctl = .none then s.setTx p { x with started := t, waiting := w :: x.waiting }
    else (s.setTx p { x with started := t }).bump 0x2401 4

/-- An XL frame at a port with XL disabled (03 R472): protocol exception or form error in field 1; its bit position is a free value, and in
normal mode a form error raises the receive error count by one (log entry 7). -/
def State.xlRefused (s : State) (p : Nat) (e : Stamp) (ident : Nat) : State :=
  let d := s.draw 1
  if s.setting p e 13 = 1 then d.2.busEvent p e 6 1 ident d.1 0 []
  else
    let s1 := if s.canActive p e && s.portCfg p 5 = 2 then d.2.setPort p { d.2.port p with rec_ := (d.2.port p).rec_ + 1 } else d.2
    (s1.busEvent p e 3 1 ident d.1 0 []).canErrorFrame p e

/-- A complete frame at an enabled CAN port (03 R56). -/
def State.canReceive (s : State) (p : Nat) (e : Stamp) (f : CanFrame) : State :=
  if s.heard p e then
    let s0 := s.reach e.count
    if f.fmt = .xl && s0.setting p e 10 = 0 then s0.xlRefused p e (canId f)
    else
      let s1 := if s0.canActive p e && s0.portCfg p 5 = 2 then s0.setPort p (s0.port p).received else s0
      (s1.acceptPin p e (canKind f) (canAux f) 0 (canId f) (canPayload f)).canAck p e
  else s

/-- CAN_FRAME_RECEIVED (03 R56). -/
def execCanFrameReceived (port : Fin 96) (edge : Stamp) (frame : CanFrame) (s : State) : Host.Outcome State Fault Refusal :=
  .next (s.canReceive port.val edge frame)

/-- Error state of a port after a state-change event (03 R56): 0 active, 1 passive, 2 bus-off. -/
def stateOfCode (code : Nat) (old : Fin 3) : Fin 3 := if code = 7 then 1 else if code = 8 then 2 else if code = 9 then 0 else old

/-- What a node sends after an event (03 R53 to R55): an error frame after an error, but none in the XL data phase of a port with mode switching, which runs
with error signalling disabled; an overload frame after one of another node. -/
def State.canSignal (s : State) (p : Nat) (e : Stamp) (code : Nat) (xlData : Bool) : State :=
  if code ≤ 4 then (if xlData && s.setting p e 11 = 1 then s else s.canErrorFrame p e)
  else if code = 5 && s.canActive p e then s.send (.canOverload p)
  else s

/-- FLAGS of the bus event of a frame that this device sent and that failed: TX, and LATE as in the record of one that succeeds (03 R69, 06 R121, R122). -/
def State.failedFlags (s : State) (p : Nat) (e : Stamp) : Nat :=
  flTx + (match (s.tx p).started with
    | [] => 0
    | w :: _ => if !w.own && s.isLate p (s.startTime p w e) w.due then flLate else 0)

/-- A bus event at an enabled CAN port (03 R56): error counts and states move in normal mode only, and not after a commit that has ended it; a protocol exception with its option off is
a form error (R54); a change of error state is logged (95). -/
def State.canEvent (s : State) (p : Nat) (e : Stamp) (ev : CanEvent) : State :=
  let normal := s.canMode p e = 2
  if !s.heard p e || (7 ≤ ev.code.val && !normal) then s
  else
    let s0 := s.reach e.count
    let code := if ev.code.val = 6 && s0.setting p e 13 = 0 then 3 else ev.code.val
    let q := s0.port p
    let s1 := if normal && s0.portCfg p 5 = 2 then s0.setPort p { q with rec_ := ev.rec_, tec := ev.tec, errState := stateOfCode code q.errState } else s0
    let s2 := (s1.busEvent p e code ev.field.val ev.ident.toNat ev.bitPos (if ev.own && code ≤ 4 then s0.failedFlags p e else 0) ev.bytes).canSignal p e code
      ev.xlData
    let s3 := if ev.own && code ≤ 4 then s2.sendFailed p else s2
    if 7 ≤ code then s3.logE 1 1 0x2310 0 0 else s3

/-- CAN_BUS_EVENT (03 R56). -/
def execCanBusEvent (port : Fin 96) (edge : Stamp) (ev : CanEvent) (s : State) : Host.Outcome State Fault Refusal :=
  .next (s.canEvent port.val edge ev)

/-- Recovery from bus-off in normal mode: counts at 0, error-active again, a record of code 9, and an entry in the log (03 R56). DESIGN CHOICE (log
entry 62): the record stands outside a frame, and its field is 5 and its bit position 0. -/
def State.busOffRecover (s : State) (p : Nat) (e : Stamp) : State :=
  if s.heard p e && s.canMode p e = 2 && (s.port p).errState = 2 then
    let s0 := s.reach e.count
    let s1 := s0.setPort p { s0.port p with rec_ := 0, tec := 0, errState := 0 }
    (s1.busEvent p e 9 5 0 0 0 []).logE 1 1 0x2310 0 0
  else s

/-- BUS_OFF_RECOVERY (03 R56). -/
def execBusOffRecovery (port : Fin 96) (edge : Stamp) (s : State) : Host.Outcome State Fault Refusal :=
  .next (s.busOffRecover port.val edge)

/-! Ethernet (03 R58 to R60). -/

/-- The bytes a MAC keeps of a frame: up to a control character, at most 9,216 (03 R60). -/
def ethKept (f : EthFrame) : List Byte :=
  (match f.codeAt with
   | some n => f.bytes.take n
   | none => f.bytes).take 9216

/-- FLAGS of a received Ethernet frame (03 R60, R69). DESIGN CHOICE (log entry 62): a frame cut short by a coding fault carries CODE alone, ERR being
the flag of bus events. -/
def ethFlags (f : EthFrame) : Nat :=
  (if f.fcsOk then 0 else flChk) + (if f.wireLen < 64 then flRunt else 0) + (if f.codeAt.isSome then flCode else 0) +
  (if 9216 < f.wireLen then flTrunc else 0)

/-- A frame received at an enabled MAC whose link is up and that is no link carrier (03 R59, R60, 01 R18). -/
def State.ethReceive (s : State) (p : Nat) (e : Stamp) (f : EthFrame) : State :=
  match (s.port p).link with
  | none => s
  | some rate =>
    if s.heard p e && s.portUse p != 3 then
      let s0 := s.reach e.count
      let l := ethKept f
      s0.acceptPin p e 6 ((ethTags l 12 3).1 + 4 * rate.val) (ethFlags f) (min f.wireLen 65535 * 65536 + ethTci l) l
    else s

/-- ETHERNET_FRAME_RECEIVED (03 R59). -/
def execEthernetFrameReceived (mac : Fin 16) (edge : Stamp) (frame : EthFrame) (s : State) : Host.Outcome State Fault Refusal :=
  .next (s.ethReceive (macPort mac.val) edge frame)

/-- The link of a MAC comes up at a rate, the fixed one where the profile sets it (03 R60, 17 R382). -/
def State.linkUp (s : State) (p : Nat) (rate : Fin 6) : State :=
  let r := if h : 1 ≤ s.portCfg p 5 ∧ s.portCfg p 5 ≤ 6 then ⟨s.portCfg p 5 - 1, by omega⟩ else rate
  let s1 := s.setPort p { s.port p with link := some r }
  if (s1.port p).enabled then s1.notice p 2 [BitVec.ofNat 8 r.val] else s1

/-- ETH_LINK_UP (03 R60). -/
def execEthLinkUp (mac : Fin 16) (rate : Fin 6) (s : State) : Host.Outcome State Fault Refusal := .next (s.linkUp (macPort mac.val) rate)

/-- The link of a MAC goes down (03 R60). -/
def State.linkDown (s : State) (p : Nat) : State :=
  match (s.port p).link with
  | none => s
  | some _ =>
    let s1 := s.setPort p { s.port p with link := none }
    if (s1.port p).enabled then s1.notice p 3 [] else s1

/-- ETH_LINK_DOWN (03 R60). -/
def execEthLinkDown (mac : Fin 16) (s : State) : Host.Outcome State Fault Refusal := .next (s.linkDown (macPort mac.val))

/-! Low-speed ports (03 R61 to R63). -/

/-- Whether an LSP is enabled in a mode at an edge (03 R50, R61). -/
def State.lspOn (s : State) (p : Nat) (e : Stamp) (mode : Nat) : Bool := s.heard p e && s.setting p e 5 = mode

/-- Payload of a SENT record (03 R70). -/
def sentPayload (f : SentFrame) : List Byte :=
  if f.kind = 0 then sentPack f.status.toNat (f.nibbles.map (·.toNat)) f.crc.toNat f.pause
  else leBytes 2 f.ident.toNat ++ leBytes 2 f.data.toNat ++ [f.crc]

/-- A SENT frame or serial message (03 R63). DESIGN CHOICE (log entry 62): a frame cut short by a coding fault carries CODE alone. -/
def State.sentReceive (s : State) (p : Nat) (e : Stamp) (f : SentFrame) : State :=
  if s.lspOn p e 0 then
    let s0 := s.reach e.count
    s0.acceptPin p e 7 f.kind.val ((if f.crcBad then flChk else 0) + (if f.pulseBad then flCode else 0)) f.clockPs (sentPayload f)
  else s

/-- SENT_FRAME_RECEIVED (03 R63). -/
def execSentFrameReceived (lsp : Fin 32) (edge : Stamp) (frame : SentFrame) (s : State) : Host.Outcome State Fault Refusal :=
  .next (s.sentReceive (lspPort lsp.val) edge frame)

/-- A PSI5 frame (03 R63, R70). DESIGN CHOICE (log entry 62): a frame cut short by a Manchester violation carries CODE alone. -/
def State.psi5Receive (s : State) (p : Nat) (e : Stamp) (f : Psi5Frame) : State :=
  if s.lspOn p e 1 then
    let s0 := s.reach e.count
    s0.acceptPin p e 8 (f.nbits.val + 32 * f.slot.val) ((if f.checkBad then flChk else 0) + (if f.manchesterBad then flCode else 0))
      (if s0.setting p e 8 % 2 = 1 then f.syncTicks.toNat else 0) (leBytes 4 f.data.toNat ++ [f.check])
  else s

/-- PSI5_FRAME_RECEIVED (03 R63). -/
def execPsi5FrameReceived (lsp : Fin 32) (edge : Stamp) (frame : Psi5Frame) (s : State) : Host.Outcome State Fault Refusal :=
  .next (s.psi5Receive (lspPort lsp.val) edge frame)

/-- The response a port sends after a header: the stored one for its frame identifier, when none came from elsewhere (06 R123, 03 R62), in the form its
emit control value gives it (06 R118); with its fault and the flags of a receiver. -/
def State.linAnswer (s : State) (p : Nat) (e : Stamp) (f : LinFrame) : Option (TxFault × List Byte × Nat) :=
  if f.resp.isNone && !f.framingBad && s.setting p e 5 = 3 then
    ((s.tx p).linResp.find (f.pid.toNat % 64)).map fun x => (txFault x.1, linForm (bits (s.setting p e 9) (f.pid.toNat % 64) 1 = 1) f.pid x.1 x.2)
  else none

/-- AUX of a LIN frame (03 R70): enhanced checksum as the profile sets it for the identifier. -/
def State.linAux (s : State) (p : Nat) (e : Stamp) (f : LinFrame) (own : Bool) : Nat :=
  bits (s.setting p e 9) (f.pid.toNat % 64) 1 + 2 * bit01 (f.resp.isNone && !own) + 4 * bit01 f.headerTx + 8 * bit01 own

/-- FLAGS of a LIN frame as received (03 R63). DESIGN CHOICE (log entry 62): a frame cut short by a framing error carries CODE alone. -/
def linFlags (f : LinFrame) : Nat := (if f.sumBad then flChk else 0) + (if f.framingBad then flCode else 0)

/-- The header that a LIN commander has sent for an entry and that waits for a responder (06 R123). -/
def State.linHeader (s : State) (p : Nat) (f : LinFrame) : Option Sending :=
  if f.headerTx then
    (s.tx p).started.head?.filter fun w => rawKind w.bytes = 9 && !s.linSends p w.bytes && rawId w.bytes % 64 = f.pid.toNat % 64
  else none

/-- A LIN frame (03 R63, R70). -/
def State.linReceive (s : State) (p : Nat) (e : Stamp) (f : LinFrame) : State :=
  if s.lspOn p e 2 || s.lspOn p e 3 then
    let s0 := s.reach e.count
    match s0.linHeader p f with
    | some w =>
      (s0.setTx p { s0.tx p with started := (s0.tx p).started.tail }).recordSent p w e (s0.linAux p e f false) (linFlags f) (f.resp.getD [])
    | none =>
      match s0.linAnswer p e f with
      | some (b, l, g) =>
        ((s0.send (.linResponse p b l)).bump 0x2401 4).acceptPin p e 9 (s0.linAux p e f true) (flTx + g) f.pid.toNat l
      | none => s0.acceptPin p e 9 (s0.linAux p e f false) (linFlags f + (if f.headerTx then flTx else 0)) f.pid.toNat (f.resp.getD [])
  else s

/-- LIN_FRAME_RECEIVED (03 R63). -/
def execLinFrameReceived (lsp : Fin 32) (edge : Stamp) (frame : LinFrame) (s : State) : Host.Outcome State Fault Refusal :=
  .next (s.linReceive (lspPort lsp.val) edge frame)

/-- A PWM period (03 R61, R70). -/
def State.pwmReceive (s : State) (p : Nat) (e : Stamp) (period high : BitVec 32) : State :=
  if s.lspOn p e 5 && s.setting p e 6 = 0 then
    let s0 := s.reach e.count
    s0.acceptPin p e 11 0 0 0 (leBytes 4 period.toNat ++ leBytes 4 high.toNat)
  else s

/-- PWM_MEASUREMENT (03 R61). -/
def execPwmMeasurement (lsp : Fin 32) (edge : Stamp) (period : BitVec 32) (high : BitVec 32) (s : State) : Host.Outcome State Fault Refusal :=
  .next (s.pwmReceive (lspPort lsp.val) edge period high)

/-! Event pins, edge-mode LSPs, sample ports (03 R64, R65). -/

/-- Glitch filter of a port in ticks: 0 to 1,023 ns (03 R64). -/
def State.filterTicks (s : State) (p : Nat) (e : Stamp) : Nat :=
  4 * (if portKind p = .evt then s.setting p e 6 else if s.setting p e 5 = 4 then s.setting p e 7 else 0)

/-- Whether a port records edges to a level: 0 rising, 1 falling, 2 both (03 R64). -/
def State.edgeSelected (s : State) (p : Nat) (e : Stamp) (level : Bool) : Bool :=
  let sel := if portKind p = .evt then s.setting p e 5 else s.setting p e 6
  sel = 2 || (sel = 0 && level) || (sel = 1 && !level)

/-- Whether a port captures edges at one: an event pin, or an LSP in edge mode (03 R61). -/
def State.edgeOn (s : State) (p : Nat) (e : Stamp) : Bool := s.heard p e && (portKind p = .evt || s.setting p e 5 = 4)

/-- A new level that began at an edge has been stable for the filter time and is accepted: it becomes the present level, and at an enabled port a change
away from the old one is recorded when its direction is selected, with the count of the first transition (03 R64). -/
def State.edgeAccept (s : State) (p : Nat) (e : Stamp) (level : Bool) : State :=
  let q := s.port p
  if (portKind p = .evt || portKind p = .lsp) && q.level != level then
    let s0 := (s.reach (e.count + s.filterTicks p e)).setPort p { q with level := level }
    if s0.edgeOn p e && s0.edgeSelected p e level then s0.acceptPin p e 10 (bit01 level) 0 0 [] else s0
  else s

/-- EDGE_LEVEL_ACCEPTED (03 R64). -/
def execEdgeLevelAccepted (port : PortN) (edge : Stamp) (level : Bool) (s : State) : Host.Outcome State Fault Refusal :=
  .next (s.edgeAccept port.val edge level)

/-- The interleaved words of a sample-port frame (03 R65): word i of lines 0 to 3, then word i + 1, each in whole bytes. -/
def smpPayload (len words : Nat) (lines : List (List (BitVec 32))) : List Byte :=
  (List.range words).flatMap fun w => (List.range 4).flatMap fun l =>
    leBytes ((len + 7) / 8) (((lines.getD l []).getD w 0).toNat % 2 ^ len)

/-- A sample-port frame (03 R65). Its time is that of an output edge, the frame sync's (R51, 02 R30). DESIGN CHOICE (log entry 62): the frame count is 0 for
the first frame after reset and runs on over enables and STARTs. -/
def State.smpReceive (s : State) (p : Nat) (e : Stamp) (lines : List (List (BitVec 32))) : State :=
  let q := s.port p
  if s.heard p e then
    let s0 := (s.reach e.count).setPort p { q with frames := q.frames + 1 }
    s0.acceptPin p e 12 q.frames.toNat 0 0 (smpPayload (s0.setting p e 5) (s0.setting p e 6) lines)
  else s

/-- SAMPLE_PORT_FRAME (03 R65). -/
def execSamplePortFrame (smp : Fin 8) (edge : Stamp) (lines : List (List (BitVec 32))) (s : State) : Host.Outcome State Fault Refusal :=
  .next (s.smpReceive (smpPort smp.val) edge lines)

end Sys2Proof.Machine
end

