-- ==== Sys2Proof/Machine/Time.lean ====
section
/-! DEFINITION. The time base (02): the counter and its wrap, calibration, discipline, the TAI mapping, snapshots. -/

namespace Sys2Proof.Machine

/-! The counter (02 R27, R28, R48). -/

/-- Whether samples of a port's frames are logged: an entry of the active tables for the port has a Signal Map entry with LOG (04 R76). -/
def State.hasLog (s : State) (p : Nat) : Bool :=
  s.cls.activeBank.fkt.any fun e => bits e.2.toNat 86 1 = 1 && bits e.2.toNat 88 8 = p && (runOf s.cls.activeBank e.2.toNat).any fun x => bits x.2.toNat 86 1 = 1

/-- Whether one of the device's own ports writes a raw or sample lane (07 R148): an enabled port that captures, with logged samples for the sample lane. -/
def State.ownLane (s : State) (lane : Nat) : Bool :=
  0x100 ≤ lane && lane < 0x300 && s.portCfg (lane % 256) 1 = 1 && s.portUse (lane % 256) != 3 && (lane < 0x200 || s.hasLog (lane % 256))

/-- Whether the pit end of a link writes a lane: every lane that none of its own ports writes (07 R148). -/
def State.linkLane (s : State) (lane : Nat) : Bool := s.link.role = some false && !s.ownLane lane

/-- Every lane that has received a record since START is due a wrap record with the new epoch; ports that are not busy reach theirs at once, as
do sample lanes with nothing left in the Sifter (05 R101). A lane that the link writes waits for its first later record (log entry 71); one that a record took past its
wrap point before the wrap has its wrap record already. -/
def State.wrapLanes (s : State) (busy : List Nat) : State :=
  let e := s.tb.epoch
  let due := s.acting 0 && s.inSession
  let s1 := { s with store := { s.store with lanes := s.store.lanes.map fun (l : Nat × Lane) => (l.1, { l.2 with wrapDue := if due && l.2.seen && !l.2.ahead then some e else none, ahead := false }) } }
  let s2 := s1.ctlStore (wrapRecord e 0)
  let s3 := busy.foldl (fun t p => if (t.port p).enabled then t.setPort p { t.port p with inFrame := true } else t) s2
  allPorts.foldl (fun t p =>
    if (t.port p).inFrame then t
    else
      let u := if t.linkLane (0x100 + p) then t else t.rawWrap p
      if u.linkLane (0x200 + p) then u else u.sampleWrap p) s3

/-- Ticks of one counter period and the gathered correction after it: 4 per nanosecond, one more or one less as the rate correction asks; in Husk
time 122,071 in 5 of every 16 crystal periods, evenly spread (log entry 8), and 122,070 in the others. -/
def TimeBase.period (t : TimeBase) : Int × TimeBase :=
  if t.husk then
    let k := t.xtal.val
    let base : Int := if 5 * (k + 1) / 16 = 5 * k / 16 then 122070 else 122071
    let a := t.acc + t.rate * 122070
    (base + a / 1000000000, { t with acc := a % 1000000000, xtal := t.xtal + 1 })
  else
    let a := t.acc + t.rate * 4
    if 1000000000 ≤ a then (5, { t with acc := a - 1000000000 })
    else if a ≤ -1000000000 then (3, { t with acc := a + 1000000000 })
    else (4, { t with acc := a })

/-- One period of the counter in charge (02 R27, R48), with the wrap's effects when the tick wraps (R28). -/
def State.count (s : State) (busy : List Nat) : State :=
  let p := s.tb.period
  let s1 := ({ s with tb := p.2 }).setTime ((s.now : Int) + p.1).toNat
  if s1.tb.epoch = s.tb.epoch then s1 else s1.wrapLanes busy

/-- Count on until the epoch changes, at most `n` periods. -/
def State.countToWrap (s : State) (busy : List Nat) : Nat → State
  | 0 => s
  | n + 1 =>
    let t := s.count busy
    if t.tb.epoch = s.tb.epoch then State.countToWrap t busy n else t

/-- Chip time runs on to the last counter periods before the wrap, and through it (02 R28, log entry 5). -/
def State.passWrap (s : State) (busy : List Nat) : State :=
  (s.reach (s.tb.epoch.toNat * 2 ^ 48 + (2 ^ 48 - (if s.tb.husk then 122070 else 4)))).countToWrap busy 4

/-- TICK_WRAP (02 R28). `busy` names the ports with a frame in progress at the wrap. -/
def execTickWrap (busy : List PortN) (s : State) : Host.Outcome State Fault Refusal := .next (s.passWrap (busy.map (·.val)))

/-- What a step does when no command waits: one period of the counter (log entry 1). While the core is off, or the reference clock is lost, only the Husk
counts. -/
def State.idle (s : State) : State :=
  match s.pwr.boot with
  | .rails => if s.tb.husk then s.count [] else s
  | .tripped => if s.tb.husk then s.count [] else s
  | _ => if s.pwr.refLost && !s.tb.husk then s else s.count []

/-- New calibration constants come into force between two edges; the first one sets CAL (02 R31, R32, R44). -/
def State.calibrate (s : State) : State :=
  { s with tb := { s.tb with cal := true, calGen := s.tb.calGen + 1 }, pst := { s.pst with calTemps := s.pst.temps } }

/-- CALIBRATION (02 R31). -/
def execCalibration (s : State) : Host.Outcome State Fault Refusal := .next (if s.served then s.calibrate else s)

/-! Discipline (02 R34 to R38). -/

/-- Whether this device follows a fabric master (16 R355). -/
def State.isFollower (s : State) : Bool :=
  match s.fab.master with
  | none => false
  | some u => u != Config.uid

/-- Rank the master offers (02 R34, 16 R343), if its advert is known. -/
def State.masterRank (s : State) : Option Byte :=
  (s.fab.db.find? fun a => some a.uid = s.fab.master).map fun a => a.flags &&& 0x0F

/-- Rank from the device's own sources (02 R44, 16 R348): a source still being acquired is not yet locked, so the rank stays free-running. -/
def State.ownRank (s : State) : Byte :=
  if s.tb.lock = 2 then (if s.tb.src = 1 then 1 else if s.tb.src = 3 then 2 else 4)
  else if s.tb.lock = 3 then 3 else 4

/-- Clock rank offered (02 R34, R44): a follower offers its master's, as the master's advert gives it now. -/
def State.rankNow (s : State) : Byte := if s.isFollower then s.masterRank.getD s.ownRank else s.ownRank

/-- TB_STAT (02 R44). -/
def State.tbStat (s : State) : Nat :=
  s.rankNow.toNat * 65536 + 4096 * bit01 s.tb.cal + 256 * s.tb.lock.val + 16 * bit01 s.tb.held + s.tb.src.val

/-- A source by its code in SRC. -/
def TimeBase.source (t : TimeBase) (k : Nat) : TimeSource := if k = 1 then t.pps else if k = 2 then t.fabric else t.gptp

/-- Whether a source is enabled and qualified (02 R34, R35, R43); fabric time is there for a follower only. -/
def State.sourceOk (s : State) (k : Nat) : Bool :=
  let en := s.cfg 0x2200 1
  k != 0 && en / 8 % 2 = 0 && en / 2 ^ (k - 1) % 2 = 1 && (s.tb.source k).since.isSome && (k != 2 || s.isFollower)

/-- Whether a source may be selected now: it is selected, or it has been qualified for 3 s, or the time base is in holdover (02 R35). -/
def State.mayTake (s : State) (k : Nat) : Bool :=
  s.sourceOk k && (s.tb.src.val = k || (s.tb.source k).ripe || (s.tb.src = 0 && s.tb.lock = 3))

/-- The source that R34 selects: the highest that may be taken, the present one not being displaced by a lower one. -/
def State.wanted (s : State) : Nat := ([1, 2, 3].find? s.mayTake).getD 0

/-- A rate correction within its limit of 200 ppm (02 R27, R43). -/
def clampRate (r : Int) : Int := max (-200000) (min 200000 r)

/-- Slew in ppb for an offset in ticks: what removes it in a second, at most 100 ppm (02 R36). DESIGN CHOICE (log entry 9): the rule bounds the slew and
gives no time in which a smaller offset is removed. -/
def slewFor (offset : Int) : Int := max (-100000) (min 100000 (offset / 4))

/-- Rate correction in force: source rate and slew, at most 200 ppm (02 R27, R36). -/
def rateFor (src offset : Int) : Int := clampRate (src + slewFor offset)

/-- Log a change of source or lock state (02 R35). -/
def State.logTb (s : State) : State := s.logE 3 1 0x2201 1 s.tbStat

/-- A source after a step of the count: its offset is less by the step, and the counts since which it is qualified and last gave input lie as long ago
as before (02 R35, R37). -/
def TimeSource.shift (x : TimeSource) (d : Int) : TimeSource :=
  { x with offset := x.offset - d, since := x.since.map (· + d), last := x.last.map (· + d) }

/-- The sources and the last PPS edge after a step. -/
def TimeBase.shift (t : TimeBase) (d : Int) : TimeBase :=
  { t with pps := t.pps.shift d, fabric := t.fabric.shift d, gptp := t.gptp.shift d, ppsLast := t.ppsLast.map (· + d) }

/-- A fabric port after a step: the offsets measured before are less by the step, and the exchange in progress, whose t1 was taken before, is given up
(16 R356, R357, log entry 25). -/
def FabPort.shift (x : FabPort) (d : Int) : FabPort := { x with thetas := x.thetas.map (· - d), req := none }

/-- An SSD after a step: its commands were issued, and its timeout was met, as long ago as before (05 R110). -/
def Ssd.shift (x : Ssd) (f : Nat → Nat) : Ssd := { x with timeoutAt := x.timeoutAt.map f, issued := x.issued.map fun (e : Nat × Nat) => (e.1, f e.2) }

/-- Counts that other units keep only to know how long ago something was are as long ago as before a step: adverts (16 R351), pod resets (18 R416),
NVMe commands and timeouts (05 R110), watchdogs (18 R398), the reset of an update (R412), the core voltage (20 R453), a wake in progress (19 R430), the buckets of ports (03 R66), the
generations in force (17 R391), the swaps of the classifier's banks and the start edges of the frames that wait for it (04 R85), the Grinder's passes and
columns (14 R315, R322). -/
def State.shiftAges (s : State) (d : Int) : State :=
  let f := fun (c : Nat) => ((c : Int) + d).toNat
  { s with
    fab := { s.fab with db := s.fab.db.map (fun a => { a with since := f a.since }),
                        ports := s.fab.ports.map fun (e : Nat × FabPort) => (e.1, e.2.shift d) }
    ports := s.ports.map fun (e : Nat × Port) => (e.1, { e.2 with debtAt := f e.2.debtAt })
    sw := { s.sw with units := s.sw.units.map fun (e : Nat × UnitGen) => (e.1, { e.2 with since := f e.2.since }) }
    mem := { s.mem with columns := s.mem.columns.map (fun c => (c.1, c.2.1, c.2.2.1, f c.2.2.2)), repairAt := s.mem.repairAt.map f,
                        sramFrom := s.mem.sramFrom.map f, dramFrom := f s.mem.dramFrom }
    cls := { s.cls with olds := s.cls.olds.map (fun o => (f o.1, o.2)), inq := s.cls.inq.map fun x => { x with edge := x.edge + d } }
    pods := s.pods.map fun (e : Nat × Pod) => (e.1, { e.2 with resetAt := e.2.resetAt.map f })
    store := { s.store with ssd0 := s.store.ssd0.shift f, ssd1 := s.store.ssd1.shift f }
    pst := { s.pst with kicked := s.pst.kicked.map (fun (e : Nat × Nat) => (e.1, f e.2)), resetDue := s.pst.resetDue.map f }
    pwr := { s.pwr with vcoreAt := f s.pwr.vcoreAt, releasedAt := f s.pwr.releasedAt, wake := s.pwr.wake.map fun w => { w with since := f w.since } } }

/-- Step the full count, and log the counts before and after (02 R37, 18 R408). -/
def State.stepTime (s : State) (d : Int) : State :=
  let s1 := s.setTime (((s.now : Int) + d) % 2 ^ 80).toNat
  let s2 := { s1 with tb := s1.tb.shift d }.shiftAges d
  let pay := leBytes 4 s.tb.epoch.toNat ++ leBytes 6 s.tb.tick.toNat ++ leBytes 4 s2.tb.epoch.toNat ++ leBytes 6 s2.tb.tick.toNat
  s2.logX 3 6 0x2201 1 0 [slice pay 0 12, slice pay 12 8]

/-- Step onto fabric time: an own PPS_IN keeps its rate and phase, so the sub-second part that it holds moves with the count (02 R34, R38, R40). -/
def State.stepFabric (s : State) (d : Int) : State :=
  let t := s.stepTime d
  { t with tb := { t.tb with pps := { t.tb.pps with offset := s.tb.pps.offset }, ppsSub := (((t.tb.ppsSub : Int) + d) % 4000000000).toNat }
           fab := { t.fab with joined := true } }

/-- Joining a fabric (02 R40): in IDLE a follower takes the master's count; outside IDLE it keeps its own until the session next reaches IDLE, unless the
two lie within 1 ms, where it is slewed (R36). -/
def State.joinFabric (s : State) (theta : Int) : State :=
  let join := fun (t : State) => { t with fab := { t.fab with joined := true } }
  if s.sess.st = .idle then (if theta = 0 then join s else s.stepFabric theta)
  else if theta.natAbs ≤ 4000000 then join s
  else s

/-- Follow a source: its rate and phase; LOCK is 2 once the phase error is within 1 us, else 1 (log entry 9). -/
def State.follow (s : State) (k : Nat) : State :=
  let x := s.tb.source k
  let locked := decide (x.offset.natAbs ≤ 4000)
  { s with tb := { s.tb with src := Fin.ofNat 4 k, held := false, lock := if locked then 2 else 1, wasLocked := s.tb.wasLocked || locked,
                             ownLocked := s.tb.ownLocked || (locked && k != 2), srcRate := x.rate, rate := rateFor x.rate x.offset } }

/-- No source: holdover at the last source's rate after a lock, else free-running (02 R35, R44). DESIGN CHOICE (log entry 9): the slew ends with the
source; and force free-running (0x2200:01 bit 3) of a time base that has been locked is holdover too. -/
def State.letGo (s : State) : State :=
  { s with tb := { s.tb with src := 0, lock := if s.tb.wasLocked then 3 else 0, rate := clampRate s.tb.srcRate } }

/-- Whether 0x2201:02 gives the offset from fabric time: a follower is on its own PPS_IN, or has not yet taken the master's count (02 R34, R40, R43). -/
def State.besideFabric (s : State) : Bool := s.isFollower && s.tb.fabric.since.isSome && (s.tb.src = 1 || !s.fab.joined)

/-- Offset published in 0x2201:02, in ns (02 R34, R40, R43). DESIGN CHOICE (log entry 9): an offset in ticks that is no whole number of ns is
rounded down. -/
def State.publishedOffset (s : State) : Int :=
  let t := s.tb
  let ticks : Option Int :=
    if s.besideFabric then some t.fabric.offset
    else if t.src = 0 then none
    else if t.src = 2 && t.gptp.since.isSome && s.cfg 0x2200 1 / 4 % 2 = 1 && !s.sourceOk 1 then some t.gptp.offset
    else some (t.source t.src.val).offset
  match ticks with
  | none => 2147483647
  | some d => max (-2147483648) (min 2147483647 (-d / 4))

/-- Whether a follower's own source differs from fabric time by more than 100 ns (02 R34). -/
def State.offsetEvent (s : State) : Bool :=
  s.isFollower && ((s.tb.src = 1 && s.tb.fabric.since.isSome) || (s.tb.src = 2 && s.tb.gptp.since.isSome)) && 100 < s.publishedOffset.natAbs

/-- Log the published offset (02 R34, R40, 18 R408). -/
def State.logOffset (s : State) : State := s.logE 3 1 0x2201 2 (ofSigned 24 s.publishedOffset)

/-- Log the offset event when it begins (02 R34). -/
def State.noteApart (s : State) : State :=
  let b := s.offsetEvent
  let s1 := { s with tb := { s.tb with apart := b } }
  if b && !s.tb.apart then s1.logOffset else s1

/-- One evaluation of the sources (02 R35 to R37); while a source is withheld the device follows its present one, or is in holdover (R36). -/
def State.evaluate (s : State) : State :=
  let k := s.wanted
  let off := (s.tb.source k).offset
  let s1 :=
    if k = 0 then ({ s with tb := { s.tb with held := false } }).letGo
    else if s.sess.st != .idle && 4000000 < off.natAbs then
      let w := if s.tb.src.val = k || !s.sourceOk s.tb.src.val then s.letGo else s.follow s.tb.src.val
      (({ w with tb := { w.tb with held := true } }).logTb).logOffset
    else (if s.sess.st = .idle && 4000 < off.natAbs then (if k = 2 then s.stepFabric off else s.stepTime off) else s).follow k
  (if s1.tb.src = s.tb.src && s1.tb.lock = s.tb.lock then s1 else s1.logTb).noteApart

/-- SOURCE_SELECTION (02 R35). -/
def execSourceSelection (s : State) : Host.Outcome State Fault Refusal := .next (if s.served then s.evaluate else s)

/-- Change one source. -/
def State.setSource (s : State) (k : TimeSrc) (x : TimeSource) : State :=
  match k with
  | .pps => { s with tb := { s.tb with pps := x } }
  | .fabric => { s with tb := { s.tb with fabric := x } }
  | .gptp => { s with tb := { s.tb with gptp := x } }

/-- SRC code of a source (02 R44). -/
def srcCode : TimeSrc → Nat
  | .pps => 1
  | .fabric => 2
  | .gptp => 3

/-- A source has been qualified for 3 s (02 R35). -/
def State.ripen (s : State) (k : TimeSrc) : State :=
  let x := s.tb.source (srcCode k)
  match x.since with
  | none => s
  | some t => (s.reachInt (t + 3 * secTicks)).setSource k { x with ripe := true }

/-- SOURCE_QUALIFIED (02 R35). -/
def execSourceQualified (src : TimeSrc) (s : State) : Host.Outcome State Fault Refusal := .next (s.ripen src)

/-- A source has given no valid input for 2 s: it is no longer qualified, and when it was selected the sources are evaluated anew (02 R35). -/
def State.lose (s : State) (k : TimeSrc) : State :=
  let x := s.tb.source (srcCode k)
  let s0 := match x.last with
    | none => s
    | some t => s.reachInt (t + 2 * secTicks)
  let s1 := s0.setSource k { x with since := none, ripe := false, last := none }
  let s2 := match k with
    | .pps => { s1 with tb := { s1.tb with ppsLast := none, ppsValid := 0 } }
    | _ => s1
  if s.tb.src.val = srcCode k then s2.letGo.logTb.evaluate else s2

/-- SOURCE_LOST (02 R35). -/
def execSourceLost (src : TimeSrc) (s : State) : Host.Outcome State Fault Refusal := .next (s.lose src)

/-- Distance of two counts modulo one second, as a signed number of ticks. -/
def subSecond (a b : Int) : Int :=
  let d : Int := (a - b) % 4000000000
  if d < 2000000000 then d else d - 4000000000

/-- A valid PPS edge at a count: rate from the interval, phase from the sub-second part held since qualification (02 R38). DESIGN CHOICE (log entry
9): the rate is that of the last interval alone, without a filter. -/
def State.ppsGood (s : State) (c interval : Int) : State :=
  let n := s.tb.ppsValid + 1
  let sub := if n = 3 then (c % 4000000000).toNat else s.tb.ppsSub
  let x := s.tb.pps
  let rate := if interval = 0 then x.rate else s.tb.rate + (4000000000 - interval) / 4
  let since := if n = 3 then some c else x.since
  let y : TimeSource := { x with last := some c, since := since, rate := rate, offset := if n < 3 then 0 else subSecond sub c }
  { s with tb := { s.tb with pps := y, ppsLast := some c, ppsValid := min 3 n, ppsSub := sub } }

/-- Whether an edge comes within 200 µs of one second after the one before (02 R38). -/
def ppsInTime (l c : Int) : Bool := l + (secTicks - usTicks 200 : Nat) ≤ c && c ≤ l + (secTicks + usTicks 200 : Nat)

/-- A PPS edge at a count. DESIGN CHOICE (log entry 9): an edge with no valid edge in the 2 s before it starts a new sequence, and counts as the first of
its three valid pulses. -/
def State.ppsAt (s : State) (c : Int) : State :=
  match s.tb.ppsLast with
  | none => ({ s with tb := { s.tb with ppsValid := 0 } }).ppsGood c 0
  | some l =>
    if ppsInTime l c then s.ppsGood c (c - l)
    else if l + (2 * secTicks : Nat) < c && s.tb.pps.since.isNone then ({ s with tb := { s.tb with ppsValid := 0 } }).ppsGood c 0
    else ({ s with tb := { s.tb with ppsBad := s.tb.ppsBad + 1 } }).logTb

/-- The count of an edge on PPS_IN, less the calibrated delay of its path (02 R30); the profile holds no board delay of this pin. Path 0x100 of
`Config.inputDelay`. -/
def State.ppsTime (s : State) (e : Stamp) : Int := (e.count + e.phase.val : Nat) - (Config.inputDelay 0x100 s.tb.calGen : Int)

/-- An edge on PPS_IN (02 R38). -/
def State.ppsEdge (s : State) (rising : Bool) (e : Stamp) : State :=
  if s.served && (s.cfg 0x2200 2 = 0) = (rising = true) then (s.reach e.count).ppsAt (s.ppsTime e) else s

/-- PPS_PULSE (02 R38). -/
def execPpsPulse (rising : Bool) (edge : Stamp) (s : State) : Host.Outcome State Fault Refusal := .next (s.ppsEdge rising edge)

/-! The TAI mapping (02 R41, R42). -/

/-- The record of a change of mapping (05 R91). -/
def State.mapRecord (s : State) : List Byte :=
  let m := s.tb.map
  leBytes 6 s.tb.tick.toNat ++ [0x11, BitVec.ofNat 8 s.tb.validity.val] ++ leBytes 4 m.c0e.toNat ++ leBytes 6 m.c0t.toNat ++
  leBytes 6 m.t0s.toNat ++ leBytes 4 m.t0ns.toNat ++ [m.t0q] ++ leBytes 2 (s.cfg 0x2210 6) ++ zeros 5

/-- Outside IDLE a change of mapping in force is written into the session (02 R42). -/
def State.mapChanged (s : State) : State := if s.sess.st = .idle then s else s.ctlPut s.mapRecord

/-- Put a mapping into force (02 R41). -/
def State.setMap (s : State) (m : Mapping) (v : Fin 4) : State := ({ s with tb := { s.tb with map := m, validity := v } }).mapChanged

/-- The shadow mapping (02 R41, R43). -/
def State.shadowMap (s : State) : Mapping :=
  ⟨BitVec.ofNat 32 (s.cfg 0x2210 1), BitVec.ofNat 48 (s.cfg 0x2210 2), BitVec.ofNat 48 (s.cfg 0x2210 3), BitVec.ofNat 32 (s.cfg 0x2210 4),
    BitVec.ofNat 8 (s.cfg 0x2210 5)⟩

/-- A write to 0x2210:08 (02 R41, R43). -/
def State.wCommitMap (s : State) (p : Path) (v : Nat) : State :=
  if v != 1 then s.refuse p 0x2210 8 v abRange
  else if s.tb.src = 3 || s.isFollower then s.refuseLog p 0x2210 8 v abState
  else (s.setMap s.shadowMap 1).answer p []

/-- COMMIT_SHADOW_MAPPING (02 R41). -/
def execCommitShadowMapping (path : Path) (v : Byte) (s : State) : Host.Outcome State Fault Refusal :=
  .next (s.requestWrite path 0x2210 8 [v] fun t => t.wCommitMap path v.toNat)

/-- A write to 0x2210:06 (02 R41). -/
def State.wUtc (s : State) (p : Path) (v : Nat) : State :=
  if s.isFollower then s.refuseLog p 0x2210 6 v abState else ((s.put 0x2210 6 v).mapChanged).answer p []

/-- UTC_OFFSET_WRITE (02 R41). -/
def execUtcOffsetWrite (path : Path) (v : BitVec 16) (s : State) : Host.Outcome State Fault Refusal :=
  .next (s.requestWrite path 0x2210 6 (leBytes 2 v.toNat) fun t => t.wUtc path v.toNat)

/-- TAI of a count under a mapping, in ticks of 250 ps (02, TAI(c)). -/
def Mapping.tai (m : Mapping) (c : Int) : Int :=
  (m.t0s.toNat * 4000000000 + m.t0ns.toNat * 4 + m.t0q.toNat : Nat) + (c - (m.c0e.toNat * 2 ^ 48 + m.c0t.toNat : Nat))

/-- With 802.1AS selected, set the mapping from the grandmaster's time when none set from it is in force, or when it is off by more than 1 us (02
R41, log entry 9). A fabric follower's mapping is the master's. -/
def State.mapFromGm (s : State) (c : Int) (m : GptpMsg) : State :=
  let w := ofSigned 80 c
  let n : Mapping := ⟨BitVec.ofNat 32 (w / 2 ^ 48), BitVec.ofNat 48 w, m.taiS, m.taiNs, m.taiQ⟩
  if s.tb.src = 3 && !s.isFollower && (s.tb.validity != 2 || 4000 < (s.tb.map.tai c - n.tai c).natAbs) then s.setMap n 2 else s

/-- A message's time at the follower port (02 R35, R39). DESIGN CHOICE (log entry 9): 802.1AS is qualified from the first Sync of the followed MAC and
domain on, since no rule gives it a condition as R38 gives PPS_IN one. -/
def State.gptpTime (s : State) (c : Int) (m : GptpMsg) : State :=
  let x := s.tb.gptp
  ((s.setSource .gptp { x with last := some c, since := some (x.since.getD c), offset := m.offset, rate := m.ratePpb }).mapFromGm c m).noteApart

/-- Whether a MAC follows a gPTP grandmaster (02 R39, R43). -/
def State.gptpFollows (s : State) (mac : Nat) : Bool := s.cfg 0x2200 1 / 4 % 2 = 1 && s.cfg 0x2200 3 = mac

/-- Whether this device is a gPTP grandmaster: its selected source is PPS_IN or fabric time (02 R39). -/
def State.gptpMaster (s : State) : Bool := s.tb.src = 1 || s.tb.src = 2

/-- Answer a peer-delay request on a MAC used for gPTP, in two steps: the time at which it came and that at which the answer left (02 R39). -/
def State.gptpAnswer (s : State) (mac : Nat) (c : Int) : State :=
  if s.gptpFollows mac || s.gptpMaster then
    (s.send (.gptp mac (.pdelayResp (s.cfg 0x2200 4) c))).send (.gptp mac (.pdelayFollowUp (s.cfg 0x2200 4) (s.macOut mac)))
  else s

/-- An 802.1AS message at a MAC (02 R39): logged raw on a capture MAC; a Sync of the follower MAC and domain is used for time, a peer-delay request
answered. Its time is that of R52. -/
def State.gptpReceive (s : State) (mac : Nat) (e : Stamp) (m : GptpMsg) : State :=
  match (s.port (macPort mac)).link with
  | none => s
  | some _ =>
    if s.served then
      let s0 := s.reach e.count
      let c := s0.pinTime (macPort mac) e
      let s1 := s0.ethReceive (macPort mac) e ⟨m.bytes, m.bytes.length, true, none⟩
      match m.kind with
      | .sync => if s.gptpFollows mac && s.cfg 0x2200 4 = m.domain.val then s1.gptpTime c m else s1
      | .pdelayReq => if s.cfg 0x2200 4 = m.domain.val then s1.gptpAnswer mac c else s1
      | .other => s1
    else s

/-- GPTP_MESSAGE (02 R39). -/
def execGptpMessage (mac : Fin 16) (edge : Stamp) (msg : GptpMsg) (s : State) : Host.Outcome State Fault Refusal :=
  .next (s.gptpReceive mac.val edge msg)

/-- A gPTP interval on a MAC (02 R39): a peer-delay request; or, as grandmaster, the announcement of the priority values and a two-step Sync, whose
follow-up gives the TAI at which it left. That the announcement goes with each Sync is a DESIGN CHOICE (log entry 9). -/
def State.gptpSend (s : State) (mac : Nat) (pdelay : Bool) : State :=
  let d := s.cfg 0x2200 4
  if (s.port (macPort mac)).link.isSome && s.served then
    if pdelay then (if s.gptpFollows mac || s.gptpMaster then s.send (.gptp mac (.pdelayReq d)) else s)
    else if s.gptpMaster then
      ((s.send (.gptp mac (.announce d Config.gptpPriority.1 Config.gptpPriority.2))).send (.gptp mac (.sync d))).send
        (.gptp mac (.followUp d (s.tb.map.tai (s.macOut mac))))
    else s
  else s

/-- GPTP_SYNC_TIMER (02 R39). -/
def execGptpSyncTimer (mac : Fin 16) (pdelay : Bool) (s : State) : Host.Outcome State Fault Refusal := .next (s.gptpSend mac.val pdelay)

/-! Snapshots (02 R43). -/

/-- A read of at most `want` bytes of 0x2202:01: a new snapshot of the path. -/
def State.rEpoch (s : State) (p : Path) (want : Nat) : State :=
  ({ s with acc := { s.acc with snaps := s.acc.snaps.set (pathCode p) (s.tb.epoch, s.tb.tick) } }).answer p ((leBytes 4 s.tb.epoch.toNat).take want)

/-- CHIP_TIME_SNAPSHOT_READ (02 R43). -/
def execChipTimeSnapshotRead (path : Path) (s : State) : Host.Outcome State Fault Refusal :=
  .next (s.requestRead path 0x2202 1 fun t => t.rEpoch path 4096)

/-- A read of at most `want` bytes of 0x2202:02: the tick of the path's snapshot. -/
def State.rTick (s : State) (p : Path) (want : Nat) : State :=
  match s.acc.snaps.find (pathCode p) with
  | none => s.refuse p 0x2202 2 0 abState
  | some x => s.answer p ((leBytes 6 x.2.toNat).take want)

/-- SNAPSHOT_TICK_READ (02 R43). -/
def execSnapshotTickRead (path : Path) (s : State) : Host.Outcome State Fault Refusal :=
  .next (s.requestRead path 0x2202 2 fun t => t.rTick path 4096)

end Sys2Proof.Machine
end

