-- ==== Sys2Proof/Machine/StoreFlow.lean ====
section
/-! DEFINITION. From closed segments to the SSDs (05 R104 to R111, R473): DRAM ring, NVMe commands, overload levels, failover, the close segment and
the end of a session. -/

namespace Sys2Proof.Machine

/-! SSDs and their commands (05 R109). -/

/-- An SSD by number. -/
def State.ssd (s : State) (k : Nat) : Ssd := if k = 0 then s.store.ssd0 else s.store.ssd1

/-- Change an SSD. -/
def State.setSsd (s : State) (k : Nat) (x : Ssd) : State :=
  if k = 0 then { s with store := { s.store with ssd0 := x } } else { s with store := { s.store with ssd1 := x } }

/-- Set an SSD's state and log it; the entry is remembered for cause 3 of R107. -/
def State.ssdState (s : State) (k : Nat) (v : Fin 4) : State :=
  if (s.ssd k).state = v then s
  else
    (s.setSsd k { s.ssd k with state := v, changed := s.log.next }).logE 1 1 0x2503 (3 + k) v.val

/-- Where the objects of a ring stand: index and subindex of its namespace ID, on SSD `k`, for the session store or for a source (05 R113, 06 R133). -/
def State.ringAt (s : State) (k : Nat) (source : Bool) : Nat × Nat :=
  if source then (0x2400, if s.cfg 0x2400 2 = 2 && k = 1 then 14 else 3) else (0x2502, 3 * k + 1)

/-- First logical block of a slot of a ring (05 R109). -/
def State.slotLba (s : State) (k : Nat) (source : Bool) (slot : Nat) : Nat :=
  let o := s.ringAt k source
  s.cfg o.1 (o.2 + 1) + slot * Config.slotLbas k

/-- A run of logical blocks in pieces of at most `m`; `m` 0 is no limit (05 R109). -/
def splitLbas (m : Nat) : Nat → Nat → Nat → List (Nat × Nat)
  | 0, _, _ => []
  | fuel + 1, a, n =>
    if n = 0 then [] else if m = 0 || n ≤ m then [(a, n)] else (a, m) :: splitLbas m fuel (a + m) (n - m)

/-- Namespace and logical blocks that a command names (05 R109): of a slot only ceil(USED / 4,096) x 4 KiB are written; Read and Write are split at MDTS. -/
def State.nvmeIo (s : State) (k : Nat) (c : NvmeCmd) : Nat × List (Nat × Nat) :=
  let lba := 4194304 / max 1 (Config.slotLbas k)
  let own := s.cfg 0x2502 (3 * k + 1)
  match c with
  | .write seq slot =>
    let used := ((s.store.ring.find? (·.seq = seq)).map (·.bytes.length)).getD 0
    let n := ((used + 4095) / 4096 * 4096 + lba - 1) / max 1 lba
    (own, splitLbas (Config.transferLbas k) n (s.slotLba k false slot) n)
  | .read slot _ =>
    let o := s.ringAt k true
    (s.cfg o.1 o.2, splitLbas (Config.transferLbas k) (Config.slotLbas k) (s.slotLba k true slot) (Config.slotLbas k))
  | .header slot _ => (own, [(s.slotLba k false slot, 1)])
  | .dealloc slots => (own, slots.map fun n => (s.slotLba k false n, Config.slotLbas k))
  | .flush _ => (own, [])
  | _ => (0, [])

/-- Issue an NVMe command to a ready SSD (05 R109). -/
def State.nvme (s : State) (k : Nat) (c : NvmeCmd) : State :=
  let x := s.ssd k
  let io := s.nvmeIo k c
  if x.state = 1 then
    (s.setSsd k { x with cmds := x.cmds.set x.nextCid c, issued := x.issued.set x.nextCid s.now, nextCid := x.nextCid + 1 }).send
      (.nvme k x.nextCid c io.1 io.2)
  else s

/-- Issue an admin command whose answer comes in the same step. -/
def State.admin (s : State) (k : Nat) (c : NvmeCmd) : State :=
  let x := s.ssd k
  (s.setSsd k { x with nextCid := x.nextCid + 1 }).send (.nvme k x.nextCid c 0 [])

/-- The I/O queue pairs of an SSD are created: four of depth 64, beside the admin queue pair (05 R109). -/
def State.createQueues (s : State) (k : Nat) : State := [1, 2, 3, 4].foldl (fun t n => t.admin k (.createQueue n)) s

/-- The store starts on an SSD (05 R109): Identify with CNS 0, 1 and 2, Number of Queues and Arbitration set, the volatile write cache read and left as it
is, and the queues created. -/
def State.startSsd (s : State) (k : Nat) : State :=
  (([.identify 0, .identify 1, .identify 2, .setFeature 7, .setFeature 1, .getFeature 6] : List NvmeCmd).foldl (fun t c => t.admin k c) s).createQueues k

/-- The I/O queue pairs of a ready SSD are deleted before its controller loses power (05 R109, log entry 11). -/
def State.deleteQueues (s : State) (k : Nat) : State :=
  if (s.ssd k).state = 1 then [1, 2, 3, 4].foldl (fun t n => t.admin k (.deleteQueue n)) s else s

/-- Whether the store can use an SSD's namespace: it is active, and its format has 512 or 4,096 data bytes without metadata (05 R109). -/
def State.usable (s : State) (k : Nat) : Bool :=
  s.cfg 0x2502 (3 * k + 1) = Config.namespaceId k && (Config.slotLbas k = 8192 || Config.slotLbas k = 1024)

/-- Whether a mask of SSDs names one. -/
def hasSsd (m : BitVec 2) (k : Nat) : Bool := m.getLsbD k

/-- One SSD as a mask. -/
def ssdMask (k : Nat) : BitVec 2 := if k = 0 then 1 else 2

/-- Whole slots that a namespace of SSD `k` has (05 R113). -/
def namespaceSlots (k : Nat) : Nat := Config.namespaceLbas k / max 1 (Config.slotLbas k)

/-- Slots of a ring on SSD `k` by its own setting; 0 takes what the namespace holds from the first block on (05 R113, 06 R133). -/
def State.slotsOn (s : State) (k : Nat) (source : Bool) : Nat :=
  let o := s.ringAt k source
  let n := s.cfg o.1 (o.2 + 2)
  if n = 0 then (Config.namespaceLbas k - s.cfg o.1 (o.2 + 1)) / max 1 (Config.slotLbas k) else n

/-- Slots of the ring in a set mode: with two SSDs, both present or both in the set, the smaller of the two settings (05 R109, R113). -/
def State.slotsIn (s : State) (mode : Nat) : Nat :=
  if 2 ≤ s.cfg 0x2500 1 || ((s.ssd 0).state != 0 && (s.ssd 1).state != 0) then min (s.slotsOn 0 false) (s.slotsOn 1 false) else s.slotsOn (mode % 2) false

/-- Slots of the ring in the mode in force. -/
def State.ringSlots (s : State) : Nat := s.slotsIn s.store.mode

/-- Slot of a segment (05 R109). -/
def State.slotOf (s : State) (seq : Nat) : Nat := (if s.store.mode = 2 then seq / 2 else seq) % (max 1 s.ringSlots)

/-- The 64 slots ahead of the write position at a slot that is a multiple of 64, as far as slot 0 of the next pass round the ring, so that every slot is
deallocated once in each pass (05 R109). -/
def aheadSlots (slot ring : Nat) : List Nat := ((List.range (min 64 (ring - slot))).map fun i => (slot + 1 + i) % ring).filter (· != slot)

/-- Write a segment to the SSDs it needs and is not durable on, with the deallocation of the 64 slots ahead at each 64th slot (05 R108, R109). Nothing is
written while the slot header after a wake is being read (19 R427). -/
def State.writeSeg (s : State) (g : Seg) : State :=
  if s.store.headerOut then s
  else [0, 1].foldl (fun t k =>
    if hasSsd g.need k && !hasSsd g.durable k then
      let n := t.slotOf g.seq
      let x := t.ssd k
      let u := if n % 64 = 0 && x.state = 1 && x.trimmed.all (· < g.seq) then
          (t.setSsd k { x with trimmed := some g.seq }).nvme k (.dealloc (aheadSlots n t.ringSlots)) else t
      u.nvme k (.write g.seq n)
    else t) s

/-- Write what an SSD is still owed: segments of the ring neither written nor being written to it. -/
def State.writeOwed (s : State) (k : Nat) : State :=
  (s.store.ring.filter fun g => hasSsd g.need k && !hasSsd g.written k && !(s.ssd k).cmds.any fun c => c.2 = .write g.seq (s.slotOf g.seq)).foldl
    State.writeSeg s

/-- Where a segment lies on an SSD's medium: its namespace, and the first logical block of its slot. -/
def State.slotKey (s : State) (k seq : Nat) : Nat := s.cfg 0x2502 (3 * k + 1) * 2 ^ 64 + s.slotLba k false (s.slotOf seq)

/-- The newest durable segment that the slot headers of the ring show, on the SSDs in use (05 R107): each SEQ is looked for in the slot that R109 gives
it. -/
def State.newestFound (s : State) : Option Durable :=
  ([0, 1].flatMap fun k => if hasSsd (modeSsds s.store.mode) k then (s.ssd k).slots.filter (fun e => e.1 = s.slotKey k e.2.seq) else []).foldl
    (fun b e => if b.all fun d => decide (d.seq < e.2.seq) then some e.2 else b) none

/-- Segments of the ring written to an SSD and not durable there. -/
def State.unflushed (s : State) (k : Nat) : List Nat :=
  (s.store.ring.filter fun g => hasSsd g.written k && !hasSsd g.durable k).map (·.seq)

/-- Issue a Flush for what has been written to an SSD (05 R109). -/
def State.flush (s : State) (k : Nat) : State := s.nvme k (.flush (s.unflushed k))

/-! Overload levels (05 R111). -/

/-- Ring occupancy in percent (05 R113). -/
def State.occupancy (s : State) : Nat := min 100 (s.store.ring.length * 4 * 100 / s.cfg 0x2500 7)

/-- Whether the ring is full. -/
def State.ringFull (s : State) : Bool := s.cfg 0x2500 7 ≤ s.store.ring.length * 4

/-- Entry threshold of a level in hundredths of a percent; level 4 is entered by a full ring. -/
def levelThreshold (l : Nat) : Nat := [0, 75, 85, 95, 100].getD l 100

/-- Whether occupancy exceeds a level's threshold. -/
def State.levelEnters (s : State) (l : Nat) : Bool :=
  if l = 4 then s.ringFull else levelThreshold l * s.cfg 0x2500 7 < s.store.ring.length * 400

/-- Whether a level is left: occupancy 10 points below its threshold. -/
def State.levelLeaves (s : State) (l : Nat) : Bool := s.store.ring.length * 400 ≤ (levelThreshold l - 10) * s.cfg 0x2500 7

/-- A loss record (05 R91, R111). -/
def State.lossRecord (s : State) (l : Nat) : List Byte :=
  let d := Tab.get {} s.store.drops l
  leBytes 6 s.tb.tick.toNat ++ [0x15, BitVec.ofNat 8 l] ++ leBytes 6 d.entered.toNat ++ leBytes 4 d.scalar ++ leBytes 4 d.vector ++
  leBytes 4 d.sample ++ zeros 4

/-- Enter a level. -/
def State.enterLevel (s : State) (l : Nat) : State :=
  ({ s with store := { s.store with level := Fin.ofNat 5 l, drops := s.store.drops.set l { entered := s.tb.tick } } }).logE 1 1 0x2503 2 l

/-- Leave a level for the one below it, writing its loss record. -/
def State.leaveLevel (s : State) (l : Nat) : State :=
  let s1 := s.ctlPut (s.lossRecord l)
  ({ s1 with store := { s1.store with level := Fin.ofNat 5 (l - 1), drops := s1.store.drops.erase l } }).logE 1 1 0x2503 2 (l - 1)

/-- Bring the overload level in line with the ring (05 R111). -/
def State.updateLevel (s : State) : State :=
  let up := [1, 2, 3, 4].foldl (fun t l => if t.store.level.val < l && t.levelEnters l then t.enterLevel l else t) s
  [4, 3, 2, 1].foldl (fun t l => if t.store.level.val = l && t.levelLeaves l then t.leaveLevel l else t) up

/-! End of a session. -/

/-- Set the session state and log it (17 R375, 18 R408). -/
def State.toState (s : State) (v : SessSt) (code : Nat) : State := ({ s with sess := { s.sess with st := v } }).logE 2 1 0x2001 1 code

/-- The session reaches IDLE: no activity is armed, a follower that kept its own count takes the master's (02 R40), and a source withheld under R36 is
evaluated again (02 R36, 17 R375). -/
def State.toIdle (s : State) : State :=
  let s1 := s.toState .idle 0
  let s2 := { s1 with sess := { s1.sess with acts := 0 } }
  let s3 := if s2.isFollower && !s2.fab.joined && s2.sourceOk 2 then s2.joinFabric s2.tb.fabric.offset else s2
  if s3.tb.held then s3.evaluate else s3

/-- The LAST segment of a draining session, once every earlier segment is durable and a failover that is due has been written (05 R106, R110, log
entry 10). -/
def State.tryLast (s : State) : State :=
  if s.store.closing && s.store.ring.isEmpty && s.store.hashing.isEmpty then
    let s1 := s.closeSeg.payFailover
    if s1.store.hashing.isEmpty then
      (({ s1 with store := { s1.store with closing := false } }).finishSeg (s1.newSeg false false) (some 1) true)
    else s1
  else s

/-! Durability (05 R108, R109). -/

/-- What the medium shows of a segment (05 R102). -/
def durableOf (g : Seg) : Durable :=
  ⟨g.seq, g.endTick, g.endEpoch, sha384 g.bytes, BitVec.ofNat 32 (leNat (slice g.bytes 16 4)), g.last⟩

/-- A segment is durable on every SSD it needs: its slot of the ring is free, and it may be the newest (05 R107, R108). -/
def State.freeSeg (s : State) (g : Seg) : State :=
  let newer := match s.store.newest with
    | none => true
    | some d => d.seq < g.seq
  { s with store := { s.store with
      ring := s.store.ring.filter (·.seq != g.seq),
      newest := if newer then some (durableOf g) else s.store.newest } }

/-- Free what is durable; a draining session ends when its LAST segment is (05 R106). -/
def State.settle (s : State) : State :=
  let done := s.store.ring.filter fun g => g.need &&& ~~~g.durable = 0
  let s1 := done.foldl State.freeSeg s
  let s2 := if done.isEmpty then s1 else s1.updateLevel.drainBuffers
  if done.any (·.last) && s2.sess.st = .draining then s2.toIdle else s2.tryLast

/-- Segments are durable on an SSD: their slots of its medium hold them (05 R107, R109). -/
def State.onMedium (s : State) (k : Nat) (seqs : List Nat) : State :=
  let l := s.store.ring.filter fun g => seqs.contains g.seq && hasSsd g.written k
  s.setSsd k { s.ssd k with slots := l.foldl (fun (m : Tab Durable) g => m.set (s.slotKey k g.seq) (durableOf g)) (s.ssd k).slots }

/-- Slots have been deallocated: they hold no segment. -/
def State.offMedium (s : State) (k : Nat) (slots : List Nat) : State :=
  let keys := slots.map fun n => s.cfg 0x2502 (3 * k + 1) * 2 ^ 64 + s.slotLba k false n
  s.setSsd k { s.ssd k with slots := (s.ssd k).slots.filter fun e => !keys.contains e.1 }

/-- A Write completes on an SSD (05 R109): durable at once without a volatile cache, else after a Flush, issued now for SEAL and LAST. A write to the slot of
a set mode no longer in force counts for nothing (R110). -/
def State.writeDone (s : State) (k seq slot : Nat) : State :=
  if slot != s.slotOf seq then s
  else
  let m := ssdMask k
  let vol := Config.volatileCache k
  let s0 := { s with store := { s.store with ring := s.store.ring.map fun (g : Seg) =>
    if g.seq = seq then { g with written := g.written ||| m, durable := if vol then g.durable else g.durable ||| m } else g } }
  let s1 := if vol then s0 else s0.onMedium k [seq]
  let wants := s1.store.ring.any fun g => g.seq = seq && (g.hasSig || g.last)
  (if wants then s1.flush k else s1).settle

/-- A Flush completes (05 R109). -/
def State.flushDone (s : State) (k : Nat) (seqs : List Nat) : State :=
  let ring := s.store.ring.map fun (g : Seg) => if seqs.contains g.seq && hasSsd g.written k then { g with durable := g.durable ||| ssdMask k } else g
  ({ s.onMedium k seqs with store := { (s.onMedium k seqs).store with ring := ring } }).settle

/-- The first closed segment whose hash and signature are finished moves into the DRAM ring, when the ring has room (05 R104, R108, R111); a failover
segment is a step of the failover, and is logged (R110). -/
def State.hashDone (s : State) : State :=
  match s.store.hashing with
  | [] => s
  | g :: t =>
    if s.ringFull then s.updateLevel
    else
      let s1 := (({ s with store := { s.store with hashing := t, ring := s.store.ring ++ [g] } }).writeSeg g).updateLevel.drainBuffers
      if (g.bytes.getD 5 0).getLsbD 3 then s1.logE 1 1 0x2503 5 g.seq else s1

/-! Failure of an SSD (05 R110). -/

/-- The session enters FAULT: the entry of its state is the cause entry of a restart with cause 4 (05 R107, 17 R376). -/
def State.toFault (s : State) : State :=
  let s1 := { s with sess := { s.sess with faultCause := 1 }, store := { s.store with restart := s.store.restart.set 4 s.log.next, closing := false } }
  s1.toState .fault 4

/-- What is in progress on the survivor no longer makes a segment durable: flushes of earlier writes stand for nothing (05 R110). -/
def dropFlushes (l : Tab NvmeCmd) : Tab NvmeCmd :=
  l.map fun (e : Nat × NvmeCmd) => match e.2 with
    | .flush _ => (e.1, .flush [])
    | _ => e

/-- The set drops to the survivor: segments not durable there are written again in SEQ order, and a failover segment is due (05 R110). -/
def State.failover (s : State) (k : Nat) : State :=
  let v := 1 - k
  let m := ssdMask v
  let cut := fun (g : Seg) => { g with need := m, written := g.written &&& g.durable }
  let s1 := { s with store := { s.store with
    mode := v, ring := s.store.ring.map cut, hashing := s.store.hashing.map cut,
    failoverDue := !(s.store.ring ++ s.store.hashing).any (·.last) } }
  let s2 := ((((s1.setSsd v { s1.ssd v with cmds := dropFlushes (s1.ssd v).cmds }).put 0x2503 9 1)).logCount 1 0x2503 9).logE 1 1 0x2503 10 v
  ((s2.store.ring.filter fun g => !hasSsd g.durable v).foldl State.writeSeg s2).settle

/-- Whether the session records onto an SSD. -/
def State.usesSsd (s : State) (k : Nat) : Bool :=
  s.acting 0 && s.inSession && (s.store.mode = k || s.store.mode = 2 || s.store.mode = 3)

/-- Whether the source of a replay that is armed or under way lies on an SSD (06 R115). -/
def State.replaySsd (s : State) (k : Nat) : Bool :=
  s.acting 1 && (s.inSession || s.sess.st = .armed) && s.cfg 0x2400 1 = 0 && (s.cfg 0x2400 2 = k || s.cfg 0x2400 2 = 2)

/-- Whether a command reads a slot header. -/
def isHeader : NvmeCmd → Bool
  | .header _ _ => true
  | _ => false

/-- An SSD is declared failed (05 R110, 06 R115). -/
def State.failSsd (s : State) (k : Nat) : State :=
  let s0 : State := { s with store := { s.store with headerOut := s.store.headerOut && !(s.ssd k).cmds.any fun c => isHeader c.2 } }
  let s1 := (s0.setSsd k { s0.ssd k with cmds := [], issued := [], timeoutAt := none }).ssdState k 3
  let s2 := if s1.replaySsd k && s1.rep.st.val < 5 && s1.rep.st != 0 then
      ({ s1 with rep := { s1.rep with st := 6, sourceDone := true } }).logE 1 1 0x2401 1 6
    else s1
  if s2.usesSsd k then
    if 2 ≤ s2.store.mode && (s2.ssd (1 - k)).state != 3 && (s2.ssd (1 - k)).state != 0 then s2.failover k
    else if s2.sess.st = .fault then s2 else s2.toFault
  else s2

/-! Signatures by time (05 R103). -/

/-- A signature falls due by time: the open segment closes with it, or, when it has no room left, a segment of the control lane alone holds it, which is the
failover segment when one is owed (R110). -/
def State.closeDue (s : State) : State :=
  let s1 := { s with store := { s.store with sigDue := true } }
  match s1.store.seg with
  | none => s1
  | some g =>
    if g.used + 180 ≤ 4194303 && g.blocks.length + 1 ≤ 65535 then s1.finishSeg g (some 0) false
    else
      let s2 := (s1.finishSeg g none false).payFailover
      if s2.store.sigDue then s2.finishSeg (s2.newSeg false false) (some 0) false else s2

end Sys2Proof.Machine
end

