-- ==== Sys2Proof/Machine/Replay.lean ====
section
/-! DEFINITION. Replay (06): the storage source, the feeder, the transmitters, holds, dry queues, and the end of a replay. -/

namespace Sys2Proof.Machine

/-! Source (06 R114 to R117). -/

/-- Replay ports of the session: USE 1. -/
def State.replayPorts (s : State) : List Nat := if s.acting 1 then allPorts.filter fun p => s.portUse p = 1 else []

/-- The largest lead among the replay ports (06 R114). -/
def State.leadMax (s : State) : Nat := (s.replayPorts.map s.leadTicks).foldl max 0

/-- The start point P: 0x2400:07, :08, or the reference of the session's first segment when they are 0 : 0 (06 R114). -/
def State.startPoint (s : State) : Option Nat :=
  let c := s.cfg 0x2400 7 * 2 ^ 48 + s.cfg 0x2400 8
  if c = 0 then s.rep.firstRef else some c

/-- The end point (06 R131, R133). -/
def State.endPoint (s : State) : Nat := s.cfg 0x2400 9 * 2 ^ 48 + s.cfg 0x2400 10

/-- Fix the replay offset of a storage source once START and P are known (06 R114). -/
def State.fixOffset (s : State) : State :=
  match s.rep.offset0, s.startPoint with
  | none, some p =>
    if s.sess.st = .running && s.acting 1 && s.cfg 0x2400 1 = 0 then
      let d : Int := (s.sess.startAt : Int) + s.leadMax - p
      { s with rep := { s.rep with offset0 := some d, offset := d, st := if s.rep.st = 6 then 6 else 3 } }
    else s
  | _, _ => s

/-- Whether a record can be emitted on a port (06 R116). -/
def State.emitFits (s : State) (p : Nat) (r : List Byte) : Bool :=
  let k := rawKind r
  match portKind p with
  | .can => s.portCfg p 5 = 2 && (k ≤ 3 || (k = 4 && s.portCfg p 10 != 0))
  | .mac => k = 6 && rawLen r ≤ 9216
  | .lsp =>
    let m := s.portCfg p 5
    (k = 7 && rawAux r = 0 && m = 0) || (k = 9 && (m = 2 || m = 3)) || (k = 11 && m = 5 && s.portCfg p 6 = 1)
  | .evt => k = 10
  | _ => false

/-- Whether R117 passes a record: no ERR, CODE or TRUNC, and CHK or RUNT with REPBAD only. -/
def State.emitClean (s : State) (p : Nat) (r : List Byte) : Bool :=
  let f := rawFlags r
  bits f 3 1 = 0 && bits f 6 1 = 0 && bits f 7 1 = 0 && (bits (s.repEntry p) 12 1 = 1 || (bits f 4 1 = 0 && bits f 5 1 = 0))

/-- The emit control value of a record from storage (06 R117, R118): FAULT 1 for a CAN frame that carries CHK. -/
def sourceCtl (p : Nat) (r : List Byte) : L48 := if portKind p = .can && bits (rawFlags r) 4 1 = 1 then 1 else 0

/-- Full count of a record's tick against a reference (02 R47). -/
def fullCount (ref : Int) (tick : Nat) : Int := ref + toSigned 48 (ofSigned 48 ((tick : Int) - ref))

/-- One raw record of the source with its full count: to every replay port it feeds, or counted as skipped (06 R115 to R117). -/
def State.takeSource (s : State) (c : Int) (r : List Byte) : State :=
  s.replayPorts.foldl (fun t p =>
    if bits (t.repEntry p) 24 8 = recPort r then
      if t.emitFits p r && t.emitClean p r then t.setTx p { t.tx p with source := (t.tx p).source ++ [(c, r)] } else t.bump 0x2401 10
    else t) s

/-- Whether a count lies between the start point and the end point. -/
def State.inRange (s : State) (c : Int) : Bool := (((s.startPoint).getD 0 : Nat) : Int) ≤ c && c ≤ (s.endPoint : Int)

/-- The raw records of a segment, in stream order, with their full counts (06 R114, R115). -/
def segRecords (b : List Byte) : List (Int × List Byte) :=
  let ref : Int := leNat (slice b 28 4) * 2 ^ 48 + leNat (slice b 32 6)
  ((cutBlocks (leNat (slice b 48 2)) (slice b 144 (leNat (slice b 44 4) - 144))).filter fun k => 0x100 ≤ blockLane k && blockLane k < 0x200).flatMap
    fun k => ((decodeBlock k).getD []).filterMap fun r => if recType r = 1 then some (fullCount ref (recTick r), r) else none

/-- Whether a slot holds the wanted segment of the session, and passes HCRC and, when it is on, the chain check (06 R115). -/
def State.segGood (s : State) (seq : Nat) (b : List Byte) : Bool :=
  slice b 0 4 = [0x43, 0x50, 0x5A, 0x53] && leNat (slice b 140 4) = (crc32c (slice b 0 140)).toNat && leNat (slice b 20 8) = seq &&
  (s.cfg 0x2400 11 = 0 || s.rep.prevHash.all fun h => h = slice b 52 48)

/-- Slots of the source's ring (06 R115): of a striped one the smaller of the two settings (05 R113). -/
def State.sourceSlots (s : State) : Nat :=
  if s.cfg 0x2400 2 = 2 then min (s.slotsOn 0 true) (s.slotsOn 1 true) else s.slotsOn (s.cfg 0x2400 2 % 2) true

/-- SSD and slot of a source segment (06 R115, 05 R109). -/
def State.sourceSlot (s : State) (seq : Nat) : Nat × Nat :=
  (if s.cfg 0x2400 2 = 2 then seq % 2 else s.cfg 0x2400 2, (if s.cfg 0x2400 2 = 2 then seq / 2 else seq) % max 1 s.sourceSlots)

/-- Bytes of source records that wait for the feeder. -/
def State.readAhead (s : State) : Nat := (s.rep.ports.map fun e => (e.2.source.map fun x => x.2.length).sum).sum

/-- Read the next slot of the source when the read-ahead region has room (06 R115). -/
def State.readNext (s : State) : State :=
  match s.rep.nextSeq with
  | none => s
  | some q =>
    if s.rep.sourceDone || s.cfg 0x2400 13 * 1048576 < s.readAhead + 4194304 then s
    else let x := s.sourceSlot q; s.nvme x.1 (.read x.2 q)

/-- The source is primed once data has come for START (06 R133). -/
def State.primed (s : State) : State :=
  if s.rep.st = 1 && (s.rep.firstRef.isSome || s.rep.sourceDone) then { s with rep := { s.rep with st := 2 } } else s

/-! End of a replay (06 R131). -/

/-- Whether a replay port has nothing left to send. -/
def TxPort.spent (x : TxPort) : Bool := x.source.isEmpty && x.queue.isEmpty && x.waiting.all (·.own)

/-- Replay ends when its source is exhausted and every replay queue has emptied; a source in which no segment was found ends it at START, without an
offset. -/
def State.replayEnd (s : State) : State :=
  if (s.rep.st = 3 || s.rep.st = 2) && s.capturing && s.rep.sourceDone && s.replayPorts.all fun p => (s.tx p).spent then
    ({ s with rep := { s.rep with st := 5 } }).logE 1 1 0x2401 1 5
  else s

/-- The source has no further records from now on: every queue may be empty already (06 R125, R131). -/
def State.sourceEnd (s : State) : State := if s.rep.sourceDone then ({ s with rep := { s.rep with doneAt := s.now } }).replayEnd else s

/-- A slot of the source has been read (06 R115): the segment is used, or skipped and logged. Reading ends with LAST, with a segment of another
session, or after a whole pass without a good one. -/
def State.readDone (s : State) (seq : Nat) (ok : Bool) (b : List Byte) : State :=
  if s.rep.nextSeq != some seq then s
  else if ok && s.segGood seq b then
    let sn : BitVec 32 := BitVec.ofNat 32 (leNat (slice b 16 4))
    if s.rep.sessNo.any (· != sn) then (({ s with rep := { s.rep with sourceDone := true } }).primed).sourceEnd
    else
      let ref := leNat (slice b 28 4) * 2 ^ 48 + leNat (slice b 32 6)
      let last := bits (b.getD 5 0).toNat 1 1 = 1 || s.endPoint < ref
      let s1 := { s with rep := { s.rep with sessNo := some sn, firstRef := some (s.rep.firstRef.getD ref), prevHash := some (sha384 (slice b 0 (leNat (slice b 44 4)))),
                                             nextSeq := some (seq + 1), sourceDone := last, skips := 0 } }
      let s2 := s1.fixOffset
      let s3 := (segRecords b).foldl (fun t x => if t.inRange x.1 then t.takeSource x.1 x.2 else t) s2
      s3.primed.readNext.sourceEnd
  else
    let s1 := { s with rep := { s.rep with nextSeq := some (seq + 1), prevHash := none, skips := s.rep.skips + 1,
                                           sourceDone := decide (2 * s.sourceSlots ≤ s.rep.skips) } }
    (s1.logE 1 1 0x2401 1 s.rep.st.val).primed.readNext.sourceEnd

/-- The segments of the source's ring that the medium of its SSDs shows (06 R115, 05 R107). -/
def State.sourceSegs (s : State) : List Durable :=
  ([0, 1].filter fun k => s.cfg 0x2400 2 = k || s.cfg 0x2400 2 = 2).flatMap fun k =>
    let first := s.cfg (s.ringAt k true).1 (s.ringAt k true).2 * 2 ^ 64 + s.slotLba k true 0
    ((s.ssd k).slots.filter fun e => first ≤ e.1 && e.1 < first + s.sourceSlots * Config.slotLbas k).map (·.2)

/-- The newest of some segments, by SEQ. -/
def newestSeg (l : List Durable) : Option Durable := l.foldl (fun b d => if b.all fun x => decide (x.seq < d.seq) then some d else b) none

/-- The SEQ at which reading begins: the first segment of the session of 0x2400:06, or for 0 of the newest complete one (06 R115, R133); where the ring shows
none of it, what the device finds there is a free value (log entry 2). -/
def State.sourceStart (s : State) : Nat :=
  let l := s.sourceSegs
  let sn : Option (BitVec 32) := if s.cfg 0x2400 6 = 0 then (newestSeg (l.filter (·.last))).map (·.sess) else some (BitVec.ofNat 32 (s.cfg 0x2400 6))
  match (l.filter fun d => some d.sess = sn).map (·.seq) with
  | [] => Config.sourceFirst (s.cfg 0x2400 2) (s.cfg 0x2400 6)
  | q :: t => t.foldl min q

/-- Open the storage source at the ARM that names replay (06 R115). -/
def State.openSource (s : State) : State :=
  let sn := s.cfg 0x2400 6
  ({ s with rep := { s.rep with st := 1, nextSeq := some s.sourceStart, sessNo := if sn = 0 then none else some (BitVec.ofNat 32 sn),
                                sourceDone := false, prevHash := none, firstRef := none, skips := 0 } }).readNext

/-! Feeder (06 R119, R127). -/

/-- The feeder places the next record of a port's source once there is room, at most 20 ms ahead of its count (06 R114). -/
def State.feed (s : State) (p : Nat) : State :=
  match s.rep.offset0, (s.tx p).source with
  | some d, (c, r) :: t =>
    let e := rawAtCount r (c + d)
    if !s.capturing || (s.now : Int) + 80000000 < c + d + s.rep.holdTotal then s
    else
      let s1 := s.setTx p { s.tx p with source := t }
      match s.alterEngine p with
      | some n =>
        if s.routerRoom n (entryBytes (sourceCtl p r) e) then (s1.intoArrival ⟨n, 2, entryBytes (sourceCtl p r) e⟩).readNext else s
      | none => if s.queueRoom p e then ((s1.enqueue p (sourceCtl p r) (c + d) e).readNext).replayEnd else s
  | _, _ => s

/-- FEED_EMIT_ENTRY (06 R119). -/
def execFeedEmitEntry (port : PortN) (s : State) : Host.Outcome State Fault Refusal := .next (s.feed port.val)

/-! Transmitters (06 R118, R120 to R125). -/

/-- Effective count of an entry of a port: replay ports add the total hold length (06 R125). -/
def State.shifted (s : State) (p : Nat) (c : Int) : Int := if s.portUse p = 1 then c + s.rep.holdTotal else c

/-- High time of a PWM entry in ticks: its payload gives nanoseconds (03 R70). -/
def pwmHigh (r : List Byte) : Nat := 4 * leNat (slice (rawPayload r) 4 4)

/-- Start a frame, or let a CAN frame wait for its bus (06 R122, R123). On an idle line it is launched for the place of its count, or of now when that has
passed; else as soon as the line allows. A LIN responder's entry replaces a stored response; a PWM entry gives a rising and a falling edge. -/
def State.startFrame (s : State) (p : Nat) (ctl : L48) (due : Int) (r : List Byte) : State :=
  let x := s.tx p
  let from_ : Int := max due s.now
  let on := if x.started.isEmpty then some from_ else none
  let at_ : Int := s.launchAt p (s.place5 p from_ / 5)
  let s1 := s.setTx p { x with started := x.started ++ [⟨ctl, r, due, false, false, on⟩] }
  match portKind p with
  | .can => s.setTx p { x with waiting := x.waiting ++ [⟨ctl, r, due, false, false, none⟩] }
  | .lsp =>
    if s.portCfg p 5 = 3 then s.setTx p { x with linResp := x.linResp.set (rawId r % 64) (ctl, rawPayload r) }
    else if rawKind r = 11 then (s1.send (.edge p at_ true)).send (.edge p (at_ + pwmHigh r) false)
    else s1.send (.frame p (s.txLaunch p ctl (on.map fun _ => at_) r))
  | .evt => (s1.setTx p { s1.tx p with level := rawAux r % 2 = 1 }).send (.edge p at_ (rawAux r % 2 = 1))
  | _ => s1.send (.frame p (s.txLaunch p ctl (on.map fun _ => at_) r))

/-- Send an entry by its FAULT and KIND (06 R116, R118): FAULT 4 discards it, 5 to 15 count and act as 0, a KIND that does not fit is skipped,
and one with an uncorrectable byte in the transmit buffer is discarded and counted (14 R297). -/
def State.sendEntry (s0 : State) (p : Nat) (ctl : L48) (due : Int) (r : List Byte) : State :=
  let s := s0.readSides (isTransmit p)
  let f := ctl.toNat % 16
  if s.sidesBad (isTransmit p) then (s.healSides (isTransmit p)).bump 0x2401 10
  else if f = 4 then s
  else if !s.emitFits p r then s.bump 0x2401 10
  else
    let s1 := if 5 ≤ f then s.bump 0x2401 10 else s
    s1.startFrame p (if 5 ≤ f then ctl &&& 0xFFFFFFFFFFF0 else ctl) due r

/-- Discard a dry entry under DROP (06 R124). -/
def State.dropDry (s : State) (p : Nat) : State :=
  let s1 := s.bump 0x2401 6
  if onceASecond s1.now (s1.tx p).dryLogAt then (s1.setTx p { s1.tx p with dryLogAt := some s1.now }).logCount 1 0x2401 6 else s1

/-- A hold starts at a count (06 R125): logged, and a health record of the session. -/
def State.holdStart (s : State) (p : Nat) (h : Int) : State :=
  let s1 := ({ s with rep := { s.rep with held := some (h, p), st := 4 } }).bump 0x2401 7
  s1.logHealth 1 0 0x2401 7 (s1.cfg 0x2401 7) []

/-- Whether a hold keeps a count of a port from starting. -/
def State.heldBack (s : State) (p : Nat) (c : Int) : Bool :=
  match s.rep.held with
  | none => false
  | some h => s.portUse p = 1 && h.1 ≤ c

/-- When an entry is ready. DESIGN CHOICE (log entry 6): the rule bounds the way into the transmit buffer by 4,000 ticks, and the model takes that bound; an
entry at the front of its queue is always within the buffer. -/
def Emit.ready (e : Emit) : Int := e.placed + 4000

/-- The count at which a replay port's next entry goes dry as things stand: that of a queued one that is not ready by then, or of the next record of the
source, which has not come to the queue (06 R124). -/
def State.nextDry (s : State) (p : Nat) : Option Int :=
  match (s.tx p).queue, (s.tx p).source, s.rep.offset0 with
  | e :: _, _, _ => if s.shifted p e.count < e.ready then some (s.shifted p e.count) else none
  | [], x :: _, some d => some (s.shifted p (x.1 + d))
  | _, _, _ => none

/-- The earliest dry entry of a HOLD port whose count is not after `c` (06 R124, R125): its count and port. -/
def State.dryHold (s : State) (c : Int) : Option (Int × Nat) :=
  if s.rep.held.isSome then none
  else s.replayPorts.foldl (fun (b : Option (Int × Nat)) q =>
    match s.nextDry q with
    | none => b
    | some h => if s.dryPolicy q = 2 && h ≤ c && b.all (fun x => h < x.1) then some (h, q) else b) none

/-- Whether an entry may be on its way to a port: its source has more records, or an engine alters its entries (06 R126, R127). -/
def State.expects (s : State) (p : Nat) : Bool :=
  (s.acting 1 && s.portUse p = 1 && s.rep.offset0.isSome && (!(s.tx p).source.isEmpty || !s.rep.sourceDone || (s.alterEngine p).isSome)) ||
  (s.mirroring p && (s.alterEngine p).isSome)

/-- The entry due at a count has not reached the port's queue: not read yet, in its altering engine, or lost there (06 R124 to R126). It is dry: DROP discards
it, HOLD stops replay time, EMIT_LATE sends it once it comes; but a HOLD port that is dry at this count or before holds first. -/
def State.absentDue (s : State) (p : Nat) (c : Int) : State :=
  if !s.expects p || s.heldBack p c then s
  else
    let s1 := s.reachInt c
    match if s.portUse p = 1 then s1.dryHold c else none with
    | some (h, q) => s1.holdStart q h
    | none =>
      let x := s1.tx p
      if s.dryPolicy p = 1 then
        (s1.setTx p { x with gone := x.gone ++ [if s.portUse p = 1 then c - s.rep.holdTotal else c] }).dropDry p
      else if s.dryPolicy p = 2 && s.portUse p = 1 && s.rep.held.isNone then s1.holdStart p c
      else s1

/-- The entry at the head of a port's queue is due at its count (06 R120, R124): a HOLD port that is dry at this count or before holds first; a ready entry
starts, and a dry one is dropped or sent late. -/
def State.headDue (s : State) (p : Nat) (e : Emit) (t : List Emit) : State :=
  let c := s.shifted p e.count
  if s.heldBack p c then s
  else
    let s1 := s.reachInt c
    match if s.portUse p = 1 then s1.dryHold c else none with
    | some (h, q) => s1.holdStart q h
    | none =>
      let pop := (s1.setTx p { s1.tx p with queue := t }).fillBuffer p
      if e.ready ≤ c then (pop.sendEntry p e.ctl c e.bytes).replayEnd
      else if s.dryPolicy p = 1 then (pop.dropDry p).replayEnd
      else ((pop.reachInt e.ready).sendEntry p e.ctl c e.bytes).replayEnd

/-- Chip time reaches the count of an entry of a port (06 R120): that of the head of its queue, or one that has not come to the queue. -/
def State.emitDue (s : State) (p : Nat) (c : Int) : State :=
  match (s.tx p).queue with
  | e :: t => if s.shifted p e.count ≤ c then s.headDue p e t else s.absentDue p c
  | [] => (s.absentDue p c).replayEnd

/-- EMIT_COUNT_REACHED (06 R120). -/
def execEmitCountReached (entry : EmitAt) (s : State) : Host.Outcome State Fault Refusal :=
  .next (if s.capturing then s.emitDue entry.port.val entry.count.toNat else s)

/-- When a port's queue came to hold entries up to H + LEAD/2, or its source was found to have no more records (06 R125); none while neither is so. -/
def State.refilledAt (s : State) (h : Int) (p : Nat) : Option Nat :=
  let x := s.tx p
  match x.queue.find? (fun e => h + (s.leadTicks p / 2 : Nat) ≤ s.shifted p e.count) with
  | some e => some e.placed
  | none => if x.source.isEmpty && s.rep.sourceDone then some (max s.rep.doneAt ((x.queue.getLast?.map (·.placed)).getD 0)) else none

/-- The resume tick R: one resume margin after the first tick at which the held entry is ready and every replay port is refilled (06 R125). -/
def State.resumeAt (s : State) (h : Int) (p : Nat) : Option Nat :=
  match (s.tx p).queue with
  | [] => none
  | e :: _ =>
    if s.shifted p e.count ≤ h && s.replayPorts.all fun q => (s.refilledAt h q).isSome then
      some (s.replayPorts.foldl (fun m q => max m ((s.refilledAt h q).getD 0)) (e.placed + 4000) + usTicks (s.cfg 0x2400 12))
    else none

/-- The hold ends at R (06 R125), but for a source that has failed meanwhile, whose state stays (R115): the emit counts of replay ports and the offset in force grow by R - H. Logged, and a health record of the session. -/
def State.resume (s : State) : State :=
  match s.rep.held with
  | none => s
  | some (h, p) =>
    match s.resumeAt h p with
    | none => s
    | some r =>
      let d : Int := r - h
      let s1 := s.reach r
      let total := s1.rep.holdTotal + d.toNat
      let s2 := ({ s1 with rep := { s1.rep with held := none, st := if s1.rep.st = 4 then 3 else s1.rep.st, holdTotal := total, offset := s1.rep.offset + d } } : State).put 0x2401 8
        (min (2 ^ 32 - 1) (total / 4000))
      s2.logHealth 1 0 0x2401 8 (s2.cfg 0x2401 8) []

/-- HOLD_RESUME (06 R125). -/
def execHoldResume (s : State) : Host.Outcome State Fault Refusal := .next s.resume

/-- A waiting CAN frame finds its bus idle (06 R122): it wins arbitration and starts, or loses it and retries. A port in bus-off sends nothing (03 R53). -/
def State.arbitrate (s : State) (p : Nat) (won : Bool) : State :=
  let x := s.tx p
  match x.waiting with
  | [] => s
  | w :: t =>
    if (s.port p).errState = 2 then s
    else if won then
      let on := if x.started.isEmpty && !w.own && !w.arb && decide ((s.now : Int) ≤ w.due) then some w.due else none
      let s1 := s.setTx p { x with waiting := t, started := x.started ++ [{ w with on := on }] }
      (if w.own then s1.send (.canOwn p (rawId w.bytes) (rawPayload w.bytes))
       else s1.send (.frame p (s.txLaunch p w.ctl (on.map (s.launchAt p)) w.bytes))).replayEnd
    else (s.setTx p { x with waiting := { w with arb := true } :: t }).bump 0x2401 9

/-- CAN_BUS_IDLE_TX (06 R122). -/
def execCanBusIdleTx (port : Fin 96) (won : Bool) (s : State) : Host.Outcome State Fault Refusal := .next (s.arbitrate port.val won)

/-- A frame the device sent completes and is recorded with TX (06 R121, 01 R18). -/
def State.transmitted (s : State) (p : Nat) (e : Stamp) : State :=
  let x := s.tx p
  match x.started with
  | [] => s
  | w :: t =>
    let s1 := (s.reach e.count).setTx p { x with started := t }
    let b := s1.sentBytes p w.ctl w.bytes
    (s1.recordSent p w e (s1.sentAux p w.bytes b.1) b.2 b.1).replayEnd

/-- FRAME_TRANSMITTED (06 R121). -/
def execFrameTransmitted (port : PortN) (edge : Stamp) (s : State) : Host.Outcome State Fault Refusal := .next (s.transmitted port.val edge)

/-- Replay and mirror stop (06 R125, R131): queued entries are discarded, frames in progress complete, outputs return to their idle levels. DESIGN CHOICE
(log entry 6): a CAN frame that waits for bus idle is queued, and is discarded; the idle level of an event pin, for which no profile object stands, is low. -/
def State.stopReplay (s : State) : State :=
  { s with rep := { s.rep with
      st := 0, held := none, nextSeq := none, sourceDone := false, offset0 := none, holdTotal := 0,
      ports := s.rep.ports.map fun (e : Nat × TxPort) =>
        (e.1, { e.2 with source := [], queue := [], buffered := 0, waiting := e.2.waiting.filter (·.own), linResp := [], gone := [], level := false }) } }

end Sys2Proof.Machine
end

