-- ==== Sys2Proof/Machine/Link.lean ====
section
/-! DEFINITION. The Driulo telemetry link (07): frames, handshake, code groups, paths and rates, the pit end. -/

namespace Sys2Proof.Machine

/-! Frames (07 R138, R143). -/

/-- Index of a path's object. -/
def pathIdx (p : Nat) : Nat := 0x2610 + p

/-- A path of the link. -/
def State.lpath (s : State) (p : Nat) : LinkPath := s.link.paths.get {} p

/-- Change a path of the link. -/
def State.setLpath (s : State) (p : Nat) (x : LinkPath) : State := { s with link := { s.link with paths := s.link.paths.set p x } }

/-- The enabled paths. -/
def State.linkPaths (s : State) : List Nat := (List.range 4).filter fun p => s.cfg (pathIdx p) 1 = 1

/-- A 36-byte frame header, most significant byte first. -/
def linkHeader (type flags path body keyno seq ref k m idx : Nat) : List Byte :=
  [0x44, 0x52, 1, BitVec.ofNat 8 type, BitVec.ofNat 8 flags, BitVec.ofNat 8 path] ++ beBytes 2 body ++ beBytes 4 keyno ++ beBytes 8 seq ++
  beBytes 4 (ref / 2 ^ 48) ++ beBytes 6 (ref % 2 ^ 48) ++ [BitVec.ofNat 8 k, BitVec.ofNat 8 m, BitVec.ofNat 8 idx, 0, 0, 0]

/-- The header of a received frame, as it authenticates the frame. -/
def headerOf (f : LinkFrame) : List Byte :=
  [0x44, 0x52, f.ver, f.type, f.fflags, f.path] ++ beBytes 2 f.body.length ++ beBytes 4 f.keyno.toNat ++ beBytes 8 f.seq.toNat ++
  beBytes 4 f.refep.toNat ++ beBytes 6 f.reftick.toNat ++ [f.k, f.m, f.idx] ++ beBytes 3 f.resv.toNat

/-- The 96-bit IV of a direction. -/
def linkIv (car : Bool) (seq : Nat) : List Byte := beBytes 4 (if car then 1 else 2) ++ beBytes 8 seq

/-- The datagram of a protected frame. -/
def sealedFrame (car : Bool) (key head body : List Byte) (seq : Nat) : List Byte :=
  let c := Config.gcmSeal key (linkIv car seq) head body
  head ++ fit body.length c.1 ++ fit 16 c.2

/-- The address that a path's carrier MAC resolves (07 R152): the gateway, or the remote address when none is set; 16 bytes, or 4 for IPv4. -/
def State.nextHop (s : State) (p : Nat) : List Byte :=
  let b := leBytes 16 (if s.cfg (pathIdx p) 6 = 0 then s.cfg (pathIdx p) 5 else s.cfg (pathIdx p) 6)
  if s.cfg (pathIdx p) 3 = 4 then b.drop 12 else b

/-- Send a datagram on a path; while its next hop is not resolved, ask for it, and the datagram is lost (07 R152, log entry 72). -/
def State.netSend (s : State) (p : Nat) (b : List Byte) : State :=
  if (s.lpath p).neighbour then s.send (.datagram p b) else s.send (.neighbour (s.cfg (pathIdx p) 2) false (s.nextHop p))

/-- Send a protected frame of this end under the newest key. -/
def State.sealFrame (s : State) (path type flags ref k m idx seq : Nat) (body : List Byte) : State :=
  match s.link.keys with
  | none => s
  | some ks =>
    let car := s.link.role = some true
    let head := linkHeader type flags path body.length ks.keyno.toNat seq ref k m idx
    s.netSend path (sealedFrame car (if car then ks.carToPit else ks.pitToCar) head body seq)

/-- So many SEQ of this direction are taken; the car starts a new handshake when they reach 2^32 (07 R144). -/
def State.takeSeq (s : State) (n : Nat) : State :=
  let q := s.link.txSeq + n
  { s with link := { s.link with txSeq := q, shaking := s.link.shaking || (s.link.role = some true && s.link.txSeq < 2 ^ 32 && 2 ^ 32 ≤ q) } }

/-- Send a protected frame with this end's next SEQ. -/
def State.sendFrame (s : State) (path type flags ref k m idx : Nat) (body : List Byte) : State :=
  if s.link.keys.isNone then s else (s.takeSeq 1).sealFrame path type flags ref k m idx s.link.txSeq body

/-- Link state and its log entry (07 R150, R152). -/
def State.setLinkSt (s : State) (v : Fin 5) : State :=
  if s.link.st = v then s else ({ s with link := { s.link with st := v } }).logE 1 1 0x2601 1 v.val

/-- An event of a path, with the link state after it: it is logged whether the state changes or not (07 R150). -/
def State.linkEvent (s : State) (v : Fin 5) : State := ({ s with link := { s.link with st := v } }).logE 1 1 0x2601 1 v.val

/-- The link state that the car's paths give. -/
def State.pathsSt (s : State) : Fin 5 :=
  if s.link.keys.isNone then 1
  else if s.linkPaths.all fun p => (s.lpath p).up then 2
  else if s.linkPaths.any fun p => (s.lpath p).up then 3 else 4

/-! Start and stop. -/

/-- The link begins with the session (17 R376): the car end will send HELLO, the pit end waits for it; the health record of RUNNING is queued already.
DESIGN CHOICE (log entry 73): KEYNO begins again at 1 in each session. -/
def State.startLink (s : State) : State :=
  if s.acting 3 || s.acting 4 then
    ({ s with link := { ({} : Link) with role := some (s.acting 3), shaking := s.acting 3, cause := s.link.cause, queues := s.link.queues,
                                         level := if s.cfg 0x2600 5 = 6 then 0 else Fin.ofNat 6 (s.cfg 0x2600 5),
                                         paths := s.link.paths.map fun (e : Nat × LinkPath) => (e.1, { ({} : LinkPath) with neighbour := e.2.neighbour }) } }).setLinkSt 1
  else s

/-- Close frames on every enabled path (07 R138). -/
def State.sendClose (s : State) : State := s.linkPaths.foldl (fun t p => t.sendFrame p 6 0 t.now 1 0 0 []) s

/-- The link ends with a close frame on every enabled path (17 R376). -/
def State.stopLink (s : State) : State :=
  if s.link.role.isSome then
    let s1 := s.sendClose
    ({ s1 with link := { ({} : Link) with st := s1.link.st, cause := s1.link.cause, offset := s1.link.offset,
                                          paths := s1.link.paths.map fun (e : Nat × LinkPath) => (e.1, { ({} : LinkPath) with neighbour := e.2.neighbour }) } }).setLinkSt 0
  else s

/-- LINK_BLOCK_AGE_EXPIRY (07 R136). -/
def State.linkAge (s : State) (l c : Nat) : State :=
  match (Tab.get {} s.link.opened (l * 4 + c)).recs with
  | [] => s
  | r :: _ => (s.reach (r.since + msTicks (s.cfg 0x2600 9))).linkClose l c

/-- LINK_BLOCK_AGE_EXPIRY (07 R136). -/
def execLinkBlockAgeExpiry (lane : BitVec 16) (cls : Fin 4) (s : State) : Host.Outcome State Fault Refusal := .next (s.linkAge lane.toNat cls.val)

/-! Code groups (07 R139). -/

/-- Coefficient of data frame `k` in repair frame `j`: (x_j XOR y_k)^-1. -/
def cauchy (j k : Nat) : Byte := gfInv (BitVec.ofNat 8 (32 + j) ^^^ BitVec.ofNat 8 k)

/-- A body with its 2-byte length in front, padded to `n`. -/
def prefixed (n : Nat) (b : List Byte) : List Byte := fit n (beBytes 2 b.length ++ b)

/-- Exclusive OR of byte strings. -/
def xorBytes (a b : List Byte) : List Byte := List.zipWith (· ^^^ ·) a b

/-- Repair body `j` of a group. -/
def repairBody (bodies : List (List Byte)) (j : Nat) : List Byte :=
  let n := (bodies.map (·.length + 2)).foldl max 0
  (bodies.zipIdx.map fun x => (prefixed n x.1).map (gfMul (cauchy j x.2))).foldl xorBytes (zeros n)

/-- The group closes with its actual K: its repair frames take the SEQ after those of its data frames, and wait to be sent. -/
def State.closeGroup (s : State) : State :=
  let k := s.link.group.length
  let rep := (List.range s.link.groupM).map fun j => (⟨s.link.txSeq + j, k, s.link.groupM, k + j, repairBody s.link.group j, s.link.groupOld⟩ : RepairTx)
  { (s.takeSeq s.link.groupM) with link := { (s.takeSeq s.link.groupM).link with repair := s.link.repair ++ rep, groupK := k, group := [] } }

/-- CODE_GROUP_TIMEOUT (07 R139): 20 ms after its first frame a group closes with its actual K. -/
def State.groupTimeout (s : State) : State :=
  if s.link.group.isEmpty then s else (s.reach (s.link.groupAt + msTicks 20)).closeGroup

/-- CODE_GROUP_TIMEOUT (07 R139). -/
def execCodeGroupTimeout (s : State) : Host.Outcome State Fault Refusal := .next s.groupTimeout

/-! Sending data (07 R137 to R141). -/

/-- When the first record of a block was selected. -/
def LinkBlock.since (b : LinkBlock) : Nat := (b.recs.head?.map (·.since)).getD 0

/-- Whole blocks from the front of a class's queue that fit one body, of records selected before a limit. -/
def takeBlocks (room lim : Nat) : List LinkBlock → List LinkBlock × List LinkBlock
  | [] => ([], [])
  | b :: t => if b.bytes.length ≤ room && b.since < lim then
                let r := takeBlocks (room - b.bytes.length) lim t
                (b :: r.1, r.2)
              else ([], b :: t)

/-- A queue whose first block fits the body: one that an earlier code level let grow too long is cut in two, and coded again; a single record that is too
long is left out, and none is given for it (07 R136, R139). -/
def fitHead (room : Nat) : List LinkBlock → Option (List LinkBlock) × List LinkBlock
  | [] => (some [], [])
  | b :: t =>
    if b.bytes.length ≤ room then (some (b :: t), [])
    else match (List.range b.recs.length).reverse.find? (fun n => n != 0 && (linkBlock b.lane b.orders (b.recs.take n)).bytes.length ≤ room) with
      | some n => (some (linkBlock b.lane b.orders (b.recs.take n) :: linkBlock b.lane b.orders (b.recs.drop n) :: t), [])
      | none => (none, if b.recs.length ≤ 1 then t else linkBlock b.lane b.orders (b.recs.drop 1) :: t)

/-- Whether a path that is up is the next to carry a frame of the group: the frames of a group are spread over the paths that are up in proportion to
their rates (07 R145, log entry 74). -/
def State.inTurn (s : State) (p : Nat) : Bool :=
  let x := s.lpath p
  s.linkPaths.all fun q =>
    let y := s.lpath q
    !y.up || y.closed || (x.inGroup + 1) * y.rate ≤ (y.inGroup + 1) * x.rate

/-- The class to be served next on a path (07 R137, R145): one that is up takes its turn, and one that is down carries class 3 only, and not as the first data
frame after a handshake (R147). -/
def State.nextClass (s : State) (p : Nat) : Option Nat :=
  (if (s.lpath p).up then (if s.inTurn p then [0, 1, 2, 3] else []) else if s.link.mapDue then [] else [3]).find? fun c =>
    !(Tab.get [] s.link.queues c).isEmpty

/-- Rate of a path in bit/s: that of R145, or the probe's while it is down. -/
def State.pathRate (s : State) (p : Nat) : Nat := if (s.lpath p).up then (s.lpath p).rate else 16000

/-- A frame with a body of so many bytes has gone out on a path, whose rate lets the next one go when its packet has been sent (07 R145, R151). -/
def State.paced (s : State) (p n : Nat) : State :=
  let len := n + 52 + (if s.cfg (pathIdx p) 3 = 4 then 28 else 48)
  s.setLpath p { s.lpath p with freeAt := s.now + len * 8 * secTicks / max 1 (s.pathRate p) }

/-- REF of a data frame (07 R138): now, or, when the oldest record is so old that it would not lie within 2^47 ticks of it, the time of its selection. -/
def linkRef (now since : Nat) : Nat := if since + 2 ^ 47 ≤ now + 2 * secTicks then since else now

/-- A path has carried a frame of the group. -/
def State.carried (s : State) (p : Nat) : State := s.setLpath p { s.lpath p with inGroup := (s.lpath p).inGroup + 1 }

/-- Send a data frame of a class on a path. -/
def State.sendData (s : State) (p c : Nat) : State :=
  let lk := codeLevel s.link.level.val
  let s1 := if s.link.group.isEmpty then
      { s with link := { s.link with groupAt := s.now, groupK := lk.1, groupM := lk.2, groupOld := s.now,
                                     paths := s.link.paths.map fun (e : Nat × LinkPath) => (e.1, { e.2 with inGroup := 0 }) } } else s
  match fitHead (s1.bodyRoom c s1.link.groupM) (Tab.get [] s1.link.queues c) with
  | (none, q) => ({ s with link := { s.link with queues := s.link.queues.set c q } }).bump 0x2601 7
  | (some q0, _) =>
    let old := (q0.head?.map (·.since)).getD 0
    let ref := linkRef s1.now old
    let r := takeBlocks (s1.bodyRoom c s1.link.groupM) (ref + 2 ^ 46) q0
    let body := (r.1.map (·.bytes)).flatten
    let q := s1.link.txSeq
    let s2 := ({ s1 with link := { s1.link with queues := s1.link.queues.set c r.2 } }).sendFrame p 0 (64 * c) ref s1.link.groupK s1.link.groupM
      s1.link.group.length body
    let keep := (s2.link.kept.filter fun k => s2.now < k.since + 3 * secTicks) ++
      (if c = 0 then [⟨((s2.link.keys.map (·.keyno)).getD 0), q, s2.now, body, old⟩] else [])
    let s3 : State := (({ s2 with link := { s2.link with group := s2.link.group ++ [body], kept := keep, groupOld := min s2.link.groupOld old,
                                                         mapDue := s2.link.mapDue && c != 0 } } : State).carried p).paced p body.length
    if s3.link.group.length = s3.link.groupK then s3.closeGroup else s3

/-- Send the next repair frame that waits, under the SEQ its group gave it. -/
def State.sendRepair (s : State) (p : Nat) (b : RepairTx) (rest : List RepairTx) : State :=
  ((({ s with link := { s.link with repair := rest } }).sealFrame p 1 0 (linkRef s.now b.oldest) b.k b.m b.idx b.seq b.body).carried p).paced p
    b.body.length

/-- A class-0 frame is sent again under a new SEQ, its original SEQ in front of its body: a group of its own (07 R141). -/
def State.sendAgain (s : State) (p : Nat) (k : KeptFrame) : State :=
  ((s.bump 0x2601 10).sendFrame p 0 32 (linkRef s.now k.oldest) 1 0 0 (beBytes 8 k.seq ++ k.body)).paced p (8 + k.body.length)

/-- The repair frames that a path may send now: one that is up takes its turn. -/
def State.repairFor (s : State) (p : Nat) : List RepairTx := if (s.lpath p).up && s.inTurn p then s.link.repair else []

/-- The retransmissions that a path may send now: one that is up, not between the frames of an open group, nor before the first data frame after a
handshake (07 R139, R147). -/
def State.resendFor (s : State) (p : Nat) : List KeptFrame := if (s.lpath p).up && s.link.group.isEmpty && !s.link.mapDue then s.link.resend else []

/-- The next frame of the car on a path (07 R137): a repair frame that waits, then a retransmission, then data. -/
def State.linkNext (s : State) (p : Nat) : State :=
  match s.repairFor p, s.resendFor p with
  | b :: t, _ => s.sendRepair p b t
  | [], k :: t => ({ s with link := { s.link with resend := t } }).sendAgain p k
  | [], [] =>
    match s.nextClass p with
    | some c => s.sendData p c
    | none => s

/-- Whether the car has nothing to send on a path. -/
def State.linkIdle (s : State) (p : Nat) : Bool := (s.repairFor p).isEmpty && (s.resendFor p).isEmpty && (s.nextClass p).isNone

/-- The car sends a frame on a path once its rate lets it (07 R137, R145). -/
def State.linkSend (s : State) (p : Nat) : State :=
  if s.linkCar && s.linkPaths.contains p && !(s.lpath p).closed && s.link.keys.isSome && 2 ≤ s.link.st.val && !s.linkIdle p then
    (s.reach (s.lpath p).freeAt).linkNext p
  else s

/-- LINK_FRAME_SEND (07 R137). -/
def execLinkFrameSend (path : Fin 4) (s : State) : Host.Outcome State Fault Refusal := .next (s.linkSend path.val)

/-- The earliest of some times. -/
def earliest (l : List Nat) : Option Nat := l.foldl (fun b t => some (match b with
  | none => t
  | some x => min x t)) none

/-- Take the record selected at a time out of the first open block of a class that begins with one. -/
def shedOpen (c since : Nat) : Tab LinkOpen → Tab LinkOpen
  | [] => []
  | e :: t =>
    if e.1 % 4 = c && (e.2.recs.head?.map (·.since)) = some since then
      (if e.2.recs.length ≤ 1 then t else (e.1, { e.2 with recs := e.2.recs.drop 1 }) :: t)
    else e :: shedOpen c since t

/-- Take the record selected at a time out of the first block of a queue that begins with one; the block is coded again. -/
def shedBlock (since : Nat) : List LinkBlock → List LinkBlock
  | [] => []
  | b :: t =>
    if (b.recs.head?.map (·.since)) = some since then
      (if b.recs.length ≤ 1 then t else linkBlock b.lane b.orders (b.recs.drop 1) :: t)
    else b :: shedBlock since t

/-- The oldest record of a class 1 to 3, of all blocks that wait or are open, has waited 100 ms: it is shed and counted (07 R137). -/
def State.linkShed (s : State) (c : Nat) : State :=
  if c = 0 then s
  else
    let q := Tab.get [] s.link.queues c
    let inQueue := earliest (q.filterMap fun b => b.recs.head?.map (·.since))
    let inOpen := earliest ((s.link.opened.filter fun e => e.1 % 4 = c).filterMap fun e => e.2.recs.head?.map (·.since))
    match earliest (inQueue.toList ++ inOpen.toList) with
    | none => s
    | some t =>
      let s1 := (s.reach (t + msTicks 100)).bump 0x2601 7
      if inQueue = some t then { s1 with link := { s1.link with queues := s1.link.queues.set c (shedBlock t q) } }
      else { s1 with link := { s1.link with opened := shedOpen c t s1.link.opened } }

/-- LINK_RECORD_SHED (07 R137). -/
def execLinkRecordShed (cls : Fin 4) (s : State) : Host.Outcome State Fault Refusal := .next (s.linkShed cls.val)

/-! Handshake (07 R142 to R144). -/

/-- The body of HELLO or ANSWER from ephemeral key and nonce number `n`; the signature is number `n` too. -/
def shakeBody (role : Nat) (n : Nat) (peer : List Byte) : List Byte :=
  let front := beBytes 8 Config.uid.toNat ++ [BitVec.ofNat 8 role, 0, 0, 0] ++ (List.range 32).map (Config.random n) ++ fit 97 (Config.ecdhPublic n) ++
    fit 97 Config.identityKey ++ fit 32 peer
  front ++ fit 96 (Config.ecdsaSign (sha384 front) n)

/-- An unprotected frame, with KEYNO 0 and its SEQ of this direction under it (07 R138). -/
def shakeFrame (type path seq ref : Nat) (body : List Byte) : List Byte := linkHeader type 0 path body.length 0 seq ref 1 0 0 ++ body

/-- Send a HELLO or an ANSWER on a path. -/
def State.sendShake (s : State) (p type : Nat) (body : List Byte) : State :=
  ({ s with link := { s.link with shakeSeq := s.link.shakeSeq + 1 } }).netSend p (shakeFrame type p s.link.shakeSeq s.now body)

/-- Whether an identity is one of the trusted peers (07 R142). -/
def State.trusts (s : State) (key : List Byte) : Bool :=
  (List.range 4).any fun i => s.cfg 0x2620 (i + 1) != 0 && s.cfg 0x2620 (i + 1) = leNat (sha384 key)

/-- Whether a handshake body is well formed, for a role. -/
def shakeForm (role : Byte) (b : List Byte) : Bool := b.length = 366 && b.getD 8 0 = role && slice b 9 3 = zeros 3

/-- Whether its signature holds and its identity is trusted. -/
def State.shakeTrusted (s : State) (b : List Byte) : Bool :=
  Config.ecdsaVerify (slice b 141 97) (sha384 (b.take 270)) (slice b 270 96) && s.trusts (slice b 141 97)

/-- The two keys of a handshake (07 R143). -/
def linkKeys (keyno : BitVec 32) (n : Nat) (peerKey ncar npit uidc uidp : List Byte) : LinkKeys :=
  let z := fit 48 (Config.ecdhShared n peerKey) ++ ncar ++ npit ++ uidc ++ uidp
  ⟨keyno, (sha384 (z ++ [1])).take 32, (sha384 (z ++ [2])).take 32⟩

/-- Take new keys into force: SEQ restarts, the old keys stay for a while (07 R144). -/
def State.newKeys (s : State) (k : LinkKeys) : State :=
  { s with link := { s.link with oldKeys := s.link.keys, oldUntil := none, keys := some k, keyno := k.keyno, txSeq := 0, fresh := true,
                                 keysAt := s.now, group := [], repair := [], resend := [] } }

/-- New keys are logged by their KEYNO (07 R150). -/
def State.logKeys (s : State) : State := s.logE 1 1 0x2601 5 s.link.keyno.toNat

/-- HELLO on every enabled path, 200 ms after the last, while a handshake is in progress; a new one makes its nonce and key first (07 R142). -/
def State.helloTick (s0 : State) : State :=
  if s0.link.role = some true && s0.link.shaking && s0.inSession then
    let r := match s0.link.helloAt with
      | none => s0
      | some t => s0.reach (t + msTicks 200)
    let s : State := { r with link := { r.link with helloAt := some r.now } }
    let s1 := match s.link.hello with
      | some _ => s
      | none => if s.pst.rngOk then { s with link := { s.link with hello := some (shakeBody 0 s.free []), ephem := s.free }, free := s.free + 1 } else s
    match s1.link.hello with
    | none => s1
    | some b => s1.linkPaths.foldl (fun t p => if (t.lpath p).closed then t else t.sendShake p 4 b) s1
  else s0

/-- HELLO_TIMER (07 R142). -/
def execHelloTimer (s : State) : Host.Outcome State Fault Refusal := .next s.helloTick

/-! Faults of received frames (07 R150). -/

/-- A new handshake starts: the car sends HELLO again, the pit brings it to do so with a close frame (07 R150, log entry 73). -/
def State.newHandshake (s : State) : State :=
  if s.link.role = some true then ({ s with link := { s.link with shaking := true, hello := none, helloAt := none } }).setLinkSt 1 else s.sendClose.setLinkSt 1

/-- Count an authentication failure; more than 64 in a second start a new handshake. DESIGN CHOICE (log entry 73): seconds are whole seconds of chip time. -/
def State.authFail (s : State) : State :=
  let sec := s.now / secTicks
  let n := if s.link.authSecond = sec then s.link.authCount + 1 else 1
  let s1 := ({ s with link := { s.link with authSecond := sec, authCount := n } }).bump 0x2601 9
  if n = 65 then s1.newHandshake else s1

/-- Count a malformed frame; more than 256 in a second on a path close it for 1 s. DESIGN CHOICE (log entry 73): seconds are whole seconds of chip time. -/
def State.badFrame (s : State) (p : Nat) : State :=
  let x := s.lpath p
  let sec := s.now / secTicks
  let n := if x.badSecond = sec then x.badCount + 1 else 1
  let y := { x with badSecond := sec, badCount := n, malformed := x.malformed + 1, closed := x.closed || 256 < n, closedAt := if n = 257 then s.now else x.closedAt }
  let s1 := (s.setLpath p y).bump 0x2601 11
  if n = 257 then s1.logE 1 1 0x2601 1 s1.link.st.val else s1

/-- Whether a frame is well formed (07 R138, R150). -/
def frameOk (f : LinkFrame) : Bool := f.magicOk && f.ver = 1 && f.type.toNat ≤ 6 && f.bodyOk && f.fflags.toNat % 32 = 0

/-- What every received frame goes through first: a session with the link, an open path, its form. -/
def State.received (s : State) (p : Nat) (f : LinkFrame) (k : State → State) : State :=
  if s.link.role.isSome && s.inSession && s.linkPaths.contains p && !(s.lpath p).closed then
    if frameOk f then k s else s.badFrame p
  else s

/-- A protected frame has been opened (07 R144, R150): the first one under the newest key starts the 2 s of the old one; a SEQ that reaches 2^32 makes the car
start a new handshake; none for a SEQ already received. -/
def State.opened (s : State) (f : LinkFrame) (b : List Byte) : State × Option (List Byte) :=
  let s1 := if s.link.fresh && s.link.keys.any (fun n => n.keyno = f.keyno) then
      { s with link := { s.link with fresh := false, oldUntil := s.link.oldKeys.map fun _ => s.now + 2 * secTicks } }
    else s
  if s1.link.seen.contains (f.keyno, f.seq.toNat) then (s1, none)
  else ({ s1 with link := { s1.link with
            seen := s1.link.seen ++ [(f.keyno, f.seq.toNat)]
            shaking := s1.link.shaking || (s1.link.role = some true && s1.link.keys.any (fun n => n.keyno = f.keyno) && 2 ^ 32 ≤ f.seq.toNat + 1) } }, some b)

/-- Open a protected frame with the key its KEYNO names (07 R143, R144). -/
def State.openFrame (s : State) (f : LinkFrame) : State × Option (List Byte) :=
  let car := s.link.role = some true
  let pick := fun (k : LinkKeys) => if car then k.pitToCar else k.carToPit
  let ks := [s.link.keys, s.link.oldKeys].filterMap id
  match ks.find? fun k => k.keyno = f.keyno with
  | none => (s.authFail, none)
  | some k =>
    match Config.gcmOpen (pick k) (linkIv (!car) f.seq.toNat) (headerOf f) f.body f.tag with
    | none => (s.authFail, none)
    | some b => s.opened f b

/-- HELLO at the pit (07 R142): ANSWER on its path, and keys when it is a new handshake. -/
def State.helloIn (s : State) (p : Nat) (f : LinkFrame) : State :=
  let b := f.body
  if s.link.role != some false || f.type != 4 then s
  else if !shakeForm 0 b then s.badFrame p
  else if !s.shakeTrusted b then (s.bump 0x2601 9).logCount 1 0x2601 9
  else if s.link.hello = some b then
    match s.link.answer with
    | some a => s.sendShake p 5 a
    | none => s
  else if !s.pst.rngOk then s
  else
    let n := s.free
    let a := shakeBody 1 n (slice b 12 32)
    let k := linkKeys (s.link.keyno + 1) n (slice b 44 97) (slice b 12 32) (slice a 12 32) (slice b 0 8) (slice a 0 8)
    let s1 := ({ s with free := n + 1 }).newKeys k
    ((({ s1 with link := { s1.link with hello := some b, answer := some a } }).sendShake p 5 a).setLinkSt 2).logKeys

/-- LINK_HELLO_RECEIVED (07 R142). -/
def execLinkHelloReceived (path : Fin 4) (frame : LinkFrame) (s : State) : Host.Outcome State Fault Refusal :=
  .next (s.received path.val frame fun t => t.helloIn path.val frame)

/-- Rate of a carrier MAC in bit/s. -/
def State.carrierRate (s : State) (p : Nat) : Nat :=
  [10000000, 100000000, 1000000000, 2500000000, 5000000000, 10000000000].getD (s.macRate (macPort (s.cfg (pathIdx p) 2))) 10000000000

/-- The ceiling of the sum of rates in bit/s: 0x2600:01, and what the throttle level caps (07 R145, 19 R434). -/
def State.linkCeiling (s : State) : Nat :=
  min (min 2000000 (s.cfg 0x2600 1) * 1000) (if s.pwr.throttle = 2 then 64000 else if s.pwr.throttle = 1 then 1000000000 else 2000000000)

/-- Sum of the rates of the paths that are up. -/
def State.rateSum (s : State) : Nat := (s.linkPaths.map fun p => if (s.lpath p).up then (s.lpath p).rate else 0).sum

/-- Hold the sum between 64 kbit/s and the ceiling, every rate in proportion (07 R145). -/
def State.holdSum (s : State) : State :=
  let sum := s.rateSum
  let want := max 64000 (min sum s.linkCeiling)
  if sum = 0 || sum = want then s
  else s.linkPaths.foldl (fun t p => t.setLpath p { t.lpath p with rate := (s.lpath p).rate * want / sum }) s

/-- A path's rate held between 16 kbit/s and 90 % of its carrier MAC's rate (07 R145). -/
def State.clampRate (s : State) (p r : Nat) : Nat := max 16000 (min r (s.carrierRate p * 9 / 10))

/-- The mapping record goes in front of class 0, the first record of the first data frame (07 R147). -/
def State.mapFirst (s : State) : State :=
  let b := linkBlock 0 [] [⟨0, 0, s.now, s.mapRecord⟩]
  { s with link := { s.link with queues := s.link.queues.set 0 (b :: Tab.get [] s.link.queues 0), mapDue := true } }

/-- The first valid ANSWER at the car fixes the keys; every path starts at the start rate (07 R142, R145). DESIGN CHOICE (log entry 73): an ANSWER whose
signature, identity or nonce fails is dropped and counted in 0x2601:09, without an entry in the log, as R150 has no row for it. -/
def State.answerIn (s : State) (p : Nat) (f : LinkFrame) : State :=
  let b := f.body
  match s.link.hello with
  | none => s
  | some h =>
    if s.link.role != some true || !s.link.shaking || f.type != 5 then s
    else if !shakeForm 1 b then s.badFrame p
    else if !(s.shakeTrusted b && slice b 238 32 = slice h 12 32) then s.bump 0x2601 9
    else
      let k := linkKeys (s.link.keyno + 1) s.link.ephem (slice b 44 97) (slice h 12 32) (slice b 12 32) (slice h 0 8) (slice b 0 8)
      let s1 := s.newKeys k
      let s2 := { s1 with link := { s1.link with shaking := false, hello := none } }
      let s3 := (s2.linkPaths.foldl (fun t q =>
        if (t.lpath q).rate != 0 then t
        else t.setLpath q { t.lpath q with rate := t.clampRate q (t.cfg 0x2600 2 * 1000), up := true, lastReport := some t.now }) s2).holdSum
      (s3.mapFirst.setLinkSt s3.pathsSt).logKeys

/-- LINK_ANSWER_RECEIVED (07 R143). -/
def execLinkAnswerReceived (path : Fin 4) (frame : LinkFrame) (s : State) : Host.Outcome State Fault Refusal :=
  .next (s.received path.val frame fun t => t.answerIn path.val frame)

/-- The rekey interval has passed since the newest keys came: the car starts a new handshake. -/
def State.rekey (s : State) : State :=
  if s.link.role = some true && s.link.keys.isSome && !s.link.shaking then
    let s1 := s.reach (s.link.keysAt + s.cfg 0x2600 7 * secTicks)
    { s1 with link := { s1.link with shaking := true, hello := none, helloAt := none } }
  else s

/-- REKEY_INTERVAL_EXPIRY (07 R144). -/
def execRekeyIntervalExpiry (s : State) : Host.Outcome State Fault Refusal := .next s.rekey

/-- OLD_KEY_EXPIRY (07 R144). -/
def State.oldKeyGone (s : State) : State :=
  match s.link.oldUntil with
  | none => s
  | some t => let s1 := s.reach t
              { s1 with link := { s1.link with
                  oldKeys := none, oldUntil := none
                  seen := match s1.link.oldKeys with
                    | none => s1.link.seen
                    | some k => s1.link.seen.filter fun e => e.1 != k.keyno } }

/-- OLD_KEY_EXPIRY (07 R144). -/
def execOldKeyExpiry (s : State) : Host.Outcome State Fault Refusal := .next s.oldKeyGone

/-! Reports and rates (07 R145). -/

/-- Change in arrival delay in us (07 R145): the last delay against the smallest of the last 10 s. -/
def LinkPath.delayChange (x : LinkPath) (now : Nat) : Int :=
  match x.delays with
  | [] => 0
  | (_, d) :: t => (d - ((t.filter fun e => now < e.1 + 10 * secTicks).map (·.2)).foldl min d) / 4000

/-- REPORT_INTERVAL_EXPIRY (07 R145): the pit reports a path and begins a new interval. -/
def State.sendReport (s : State) (p : Nat) : State :=
  if s.link.role = some false && s.link.keys.isSome && s.inSession && s.linkPaths.contains p then
    let r := match (s.lpath p).reportAt with
      | none => s
      | some t => s.reach (t + msTicks (s.cfg 0x2600 8))
    let x := r.lpath p
    let body := [BitVec.ofNat 8 p, 0, 0, 0] ++ beBytes 4 x.received ++ beBytes 4 x.missing ++ beBytes 8 x.highest.2 ++
      beBytes 4 (ofSigned 32 (x.delayChange r.now)) ++ beBytes 4 x.malformed
    (r.setLpath p { x with received := 0, missing := 0, malformed := 0, reportAt := some r.now }).sendFrame p 2 0 r.now 1 0 0 body
  else s

/-- REPORT_INTERVAL_EXPIRY (07 R145). -/
def execReportIntervalExpiry (path : Fin 4) (s : State) : Host.Outcome State Fault Refusal := .next (s.sendReport path.val)

/-- A path's rate after a report with so many frames received, missing, and a delay change in us (07 R145); in bit/s, rounded down. DESIGN CHOICE (log
entry 74): a report of no frames at all, none received and none missing, leaves the rate. -/
def adaptRate (r recv miss : Nat) (us : Int) : Nat :=
  let all := recv + miss
  if 5 * all < 100 * miss || 10000 < us then r * 75 / 100
  else if 100 * miss < all && us < 2000 then r * 105 / 100 else r

/-- The code level that the losses of the last 2 s give (07 R140): the smallest whose M/K is at least 3 x L, 5 above an L of 33 %. A loss is kept as frames
missing, and frames missing or received. -/
def adaptLevel (losses : List (Nat × Nat × Nat)) : Nat :=
  if losses.any fun l => 33 * l.2.2 < 100 * l.2.1 then 5
  else ((List.range 6).find? fun n => losses.all fun l => 3 * l.2.1 * (codeLevel n).1 ≤ l.2.2 * (codeLevel n).2).getD 5

/-- A report at the car (07 R145). -/
def State.reportIn (s : State) (p : Nat) (f : LinkFrame) : State :=
  if s.link.role != some true || f.type != 2 then s
  else match s.openFrame f with
  | (s1, none) => s1
  | (s1, some b) =>
    if b.length != 28 || slice b 1 3 != zeros 3 || 3 < (b.getD 0 0).toNat then s1.badFrame p
    else
      let q := (b.getD 0 0).toNat
      let recv := beNat (slice b 4 4)
      let miss := beNat (slice b 8 4)
      let x := s1.lpath q
      let r := if x.up then adaptRate x.rate recv miss (toSigned 32 (beNat (slice b 20 4))) else s1.cfg 0x2600 2 * 1000
      let keep := (s1.link.losses.filter fun e => s1.now < e.1 + 2 * secTicks) ++ [(s1.now, miss, recv + miss)]
      let s2 := (s1.setLpath q { x with rate := s1.clampRate q r, up := true, lastReport := some s1.now }).holdSum
      let s3 : State := { s2 with link := { s2.link with losses := keep, level := if s2.cfg 0x2600 5 = 6 then Fin.ofNat 6 (adaptLevel keep) else s2.link.level } }
      if 2 ≤ s3.link.st.val then (if x.up then s3.setLinkSt s3.pathsSt else s3.linkEvent s3.pathsSt) else s3

/-- LINK_REPORT_RECEIVED (07 R145). -/
def execLinkReportReceived (path : Fin 4) (frame : LinkFrame) (s : State) : Host.Outcome State Fault Refusal :=
  .next (s.received path.val frame fun t => t.reportIn path.val frame)

/-- PATH_REPORT_TIMEOUT (07 R145): 500 ms without a report, and the path is down. -/
def State.pathDown (s : State) (p : Nat) : State :=
  let x := s.lpath p
  match x.lastReport with
  | none => s
  | some t =>
    if s.link.role = some true && x.up then
      let s1 := (s.reach (t + msTicks 500)).setLpath p { x with up := false }
      s1.linkEvent (if 2 ≤ s1.link.st.val then s1.pathsSt else s1.link.st)
    else s

/-- PATH_REPORT_TIMEOUT (07 R145). -/
def execPathReportTimeout (path : Fin 4) (s : State) : Host.Outcome State Fault Refusal := .next (s.pathDown path.val)

/-! Retransmission (07 R141). -/

/-- Where a group ends at the pit: behind its K + M frames, or at the first SEQ of the next group that has come, as one that closed early may have given its
largest K (07 R139). -/
def groupEnd (gs : List GroupRx) (g : GroupRx) : Nat :=
  gs.foldl (fun n o => if g.first < o.first then min n o.first else n) (g.first + g.k + g.m)

/-- Whether a frame's group can no longer be recovered (07 R141): all of its frames have been accounted for, or a later group has been completed. A frame none
of whose group has come belongs to no group that the pit knows. -/
def State.groupLost (s : State) (keyno : BitVec 32) (seq : Nat) : Bool :=
  let gs := s.link.groups.filter fun g => g.keyno = keyno
  match gs.find? fun g => g.first ≤ seq && seq < groupEnd gs g with
  | some g => !g.done && (decide (keyno.toNat < s.link.top.1) || (s.link.top.1 = keyno.toNat && groupEnd gs g ≤ s.link.top.2 + 1) ||
                          gs.any fun o => o.done && g.first < o.first)
  | none => gs.any fun o => o.done && seq < o.first

/-- The NAK of a frame goes out on the first enabled path that is open. -/
def State.nakOut (s : State) (n : NakTx) : State :=
  match s.linkPaths.find? fun p => !(s.lpath p).closed with
  | none => s
  | some p =>
    ({ s with link := { s.link with naks := (s.link.naks.filter fun (e : NakTx) => !(e.keyno = n.keyno && e.seq = n.seq)) ++ [{ n with last := s.now }] } }).sendFrame
      p 3 0 s.now 1 0 0 (Config.nakBody n.keyno.toNat n.seq)

/-- NAK_TIMER (07 R141): the pit sends a NAK, or repeats it 10 ms after the last one at the earliest, until the frame has come or the release delay has passed
since the first NAK. -/
def State.sendNak (s : State) (keyno : BitVec 32) (seq : Nat) : State :=
  if s.link.role = some false && s.link.keys.isSome && s.inSession && !s.link.seen.contains (keyno, seq) && s.groupLost keyno seq then
    match s.link.naks.find? fun e => e.keyno = keyno && e.seq = seq with
    | none => s.nakOut ⟨keyno, seq, s.now, s.now⟩
    | some n =>
      if n.first + msTicks (s.cfg 0x2600 4) ≤ max s.now (n.last + msTicks 10) then s else (s.reach (n.last + msTicks 10)).nakOut n
  else s

/-- NAK_TIMER (07 R141). -/
def execNakTimer (keyno : BitVec 32) (seq : BitVec 64) (s : State) : Host.Outcome State Fault Refusal := .next (s.sendNak keyno seq.toNat)

/-- A NAK at the car: the kept frame is sent again, on the NAK's path when that is up and free and no code group is open, else by the next path that is; one
that waits already is asked for once (07 R141, R139, R145). -/
def State.nakIn (s : State) (p : Nat) (f : LinkFrame) : State :=
  if s.link.role != some true || f.type != 3 then s
  else match s.openFrame f with
  | (s1, none) => s1
  | (s1, some b) =>
    match Config.nakRead b with
    | none => s1.badFrame p
    | some n =>
      match s1.link.kept.find? fun k => k.keyno.toNat = n.1 && k.seq = n.2 && s1.now < k.since + 3 * secTicks with
      | none => s1
      | some k =>
        if (s1.lpath p).up && s1.link.group.isEmpty && !s1.link.mapDue && (s1.lpath p).freeAt ≤ s1.now then s1.sendAgain p k
        else if s1.link.resend.any fun r => r.keyno = k.keyno && r.seq = k.seq then s1
        else { s1 with link := { s1.link with resend := s1.link.resend ++ [k] } }

/-- LINK_NAK_RECEIVED (07 R141). -/
def execLinkNakReceived (path : Fin 4) (frame : LinkFrame) (s : State) : Host.Outcome State Fault Refusal :=
  .next (s.received path.val frame fun t => t.nakIn path.val frame)

/-! The pit end (07 R146 to R149). -/

/-- Solve for the missing data bodies of a group from its repair bodies. -/
def groupSolve (k : Nat) (have_ : List (Nat × List Byte)) : List (Nat × List Byte) :=
  let miss := (List.range k).filter fun i => !have_.any (·.1 = i)
  let reps := (have_.filter fun e => k ≤ e.1).take miss.length
  if miss.isEmpty || reps.length < miss.length then []
  else
    let n := (reps.map (·.2.length)).foldl max 0
    let known := have_.filter (·.1 < k)
    let rows := reps.map fun r =>
      (miss.map (cauchy (r.1 - k)),
        (known.map fun d => (prefixed n d.2).map (gfMul (cauchy (r.1 - k) d.1))).foldl xorBytes (fit n r.2))
    let cols := (List.range n).map fun i => (gfSolve miss.length (rows.map fun r => (r.1, r.2.getD i 0))).getD []
    miss.zipIdx.map fun m =>
      let d := cols.map fun c => c.getD m.2 0
      (m.1, slice d 2 (beNat (d.take 2)))

/-- The mapping of a record 0x11, and its validity (05 R91). -/
def recMapping (r : List Byte) : Mapping × Nat :=
  (⟨BitVec.ofNat 32 (leNat (slice r 8 4)), BitVec.ofNat 48 (leNat (slice r 12 6)), BitVec.ofNat 48 (leNat (slice r 18 6)),
    BitVec.ofNat 32 (leNat (slice r 24 4)), r.getD 28 0⟩, (r.getD 7 0).toNat)

/-- Offset O for a mapping record in a frame with reference `ref` that arrives now (07 R147). -/
def State.offsetFor (s : State) (ref : Int) (r : List Byte) : Int :=
  let m := recMapping r
  if m.2 != 0 && s.tb.validity != 0 then
    (m.1.tai ref - (s.tb.map.t0s.toNat * 4000000000 + s.tb.map.t0ns.toNat * 4 + s.tb.map.t0q.toNat : Nat)) +
      (s.tb.map.c0e.toNat * 2 ^ 48 + s.tb.map.c0t.toNat : Nat) - ref
  else (s.now : Int) - ref

/-- A record joins those that wait for their release time, or is late (07 R146). -/
def State.holdRec (s : State) (h : HeldRec) : State :=
  match Tab.find s.link.released h.lane with
  | some c => if h.count < c then s.bump 0x2601 8 else { s with link := { s.link with held := s.link.held ++ [h] } }
  | none => { s with link := { s.link with held := s.link.held ++ [h] } }

/-- Fix O with the first frame that holds the car's mapping; records recovered before it may now be held (07 R147). -/
def State.fixO (s : State) (o : Int) : State :=
  let s1 := ({ s with link := { s.link with offset := some o, waitO := [] } }).logHealth 1 1 0x2601 6 (ofSigned 24 o) []
  s.link.waitO.foldl State.holdRec s1

/-- The records of a recovered body (07 R146, R147). -/
def State.bodyIn (s : State) (ref : Int) (body : List Byte) : State :=
  let recs := (cutBlocks body.length body).flatMap fun b => ((decodeBlock b).getD []).map fun r => (blockLane b, r)
  let s1 := match s.link.offset, recs.find? fun x => recType x.2 = 0x11 with
    | none, some x => s.fixO (s.offsetFor ref x.2)
    | _, _ => s
  recs.foldl (fun t x =>
    let h : HeldRec := ⟨t.now + msTicks (t.cfg 0x2600 4), t.now, x.1, fullCount ref (recTick x.2), x.2⟩
    if t.link.offset.isSome then t.holdRec h else { t with link := { t.link with waitO := t.link.waitO ++ [h] } }) s1

/-- Order of frames across keys (07 R144). -/
def seqLt (a b : Nat × Nat) : Bool := decide (a.1 < b.1) || (a.1 = b.1 && decide (a.2 < b.2))

/-- Frames found missing by the SEQ series, which all paths share: those a new highest SEQ passes over; one that comes later is missing no more (log entry
74). -/
def seqGap (top q : Nat × Nat) : Int := if seqLt top q then (if top.1 = q.1 then (q.2 : Int) - top.2 - 1 else q.2) else -1

/-- Statistics of a path for a frame that arrives now (07 R145). -/
def State.pathStats (s : State) (p : Nat) (q : Nat × Nat) (ref : Int) : State :=
  let gap := seqGap s.link.top q
  let s1 := s.linkPaths.foldl (fun t k => t.setLpath k { t.lpath k with missing := ((t.lpath k).missing + gap).toNat }) s
  let x := s1.lpath p
  let s2 := s1.setLpath p { x with received := x.received + 1, highest := if seqLt x.highest q then q else x.highest,
                                   delays := (s.now, (s.now : Int) - ref) :: x.delays.filter fun e => s.now < e.1 + 10 * secTicks }
  { s2 with link := { s2.link with top := if seqLt s.link.top q then q else s.link.top } }

/-- A live source's replay offset is fixed with the first frame (06 R114, 07 R149). -/
def State.liveOffset (s : State) (ref : Int) : State :=
  if s.acting 1 && s.cfg 0x2400 1 = 1 && s.rep.offset0.isNone then
    let d : Int := (s.now : Int) + s.leadMax - ref
    { s with rep := { s.rep with offset0 := some d, offset := d, st := 3 } }
  else s

/-- Put a frame into its code group, and recover what it completes (07 R139), but for bodies that a retransmission has brought already (R146). -/
def State.groupIn (s : State) (p : Nat) (f : LinkFrame) (ref : Int) (body : List Byte) : State :=
  let first := f.seq.toNat - f.idx.toNat
  let same := fun (g : GroupRx) => g.keyno = f.keyno && g.first = first
  let g := (s.link.groups.find? same).getD ⟨f.keyno, first, f.k.toNat, f.m.toNat, p, [], false⟩
  let g1 := { g with k := if f.type = 1 then f.k.toNat else g.k, bodies := g.bodies ++ [(f.idx.toNat, body)] }
  let all := if g1.done then [] else groupSolve g1.k g1.bodies
  let got := all.filter fun e => !s.link.seen.contains (f.keyno, first + e.1)
  let whole := g1.done || !all.isEmpty || (List.range g1.k).all fun i => g1.bodies.any (·.1 = i)
  let g2 := { g1 with done := whole }
  let s1 := { s with link := { s.link with groups := (s.link.groups.filter fun x => !same x) ++ [g2],
                                           seen := s.link.seen ++ got.map fun e => (f.keyno, first + e.1) } }
  got.foldl (fun t e => t.bodyIn ref e.2) s1

/-- KEYNO of the frame that a retransmission brings: that of the NAK it answers, whose SEQ it gives, or its own (log entry 74). -/
def Link.origKey (l : Link) (keyno : BitVec 32) (orig : Nat) : BitVec 32 := ((l.naks.find? fun e => e.seq = orig).map (·.keyno)).getD keyno

/-- A data, repair or retransmitted frame at the pit (07 R146). -/
def State.dataIn (s : State) (p : Nat) (f : LinkFrame) : State :=
  if s.link.role != some false || 1 < f.type.toNat then s
  else match s.openFrame f with
  | (s1, none) => s1
  | (s1, some b) =>
    let ref : Int := f.refep.toNat * 2 ^ 48 + f.reftick.toNat
    let s2 := (s1.pathStats p (f.keyno.toNat, f.seq.toNat) ref).liveOffset ref
    if f.fflags.getLsbD 5 then
      let orig := beNat (b.take 8)
      let key := s2.link.origKey f.keyno orig
      if s2.link.seen.contains (key, orig) then s2
      else ({ s2 with link := { s2.link with seen := s2.link.seen ++ [(key, orig)],
                                             naks := s2.link.naks.filter fun e => !(e.keyno = key && e.seq = orig) } }).bodyIn ref (b.drop 8)
    else
      let s3 := if f.type = 0 then s2.bodyIn ref b else s2
      s3.groupIn p f ref b

/-- LINK_DATA_FRAME_RECEIVED (07 R146). -/
def execLinkDataFrameReceived (path : Fin 4) (frame : LinkFrame) (s : State) : Host.Outcome State Fault Refusal :=
  .next (s.received path.val frame fun t => t.dataIn path.val frame)

/-- The held record whose release time comes first. -/
def firstRelease : List HeldRec → Option HeldRec
  | [] => none
  | h :: t =>
    match firstRelease t with
    | none => some h
    | some m => if m.release < h.release then some m else some h

/-- The held record of a lane with the smallest count. -/
def laneFirst (lane : Nat) (l : List HeldRec) : Option HeldRec :=
  l.foldl (fun (b : Option HeldRec) h =>
    if h.lane = lane then
      match b with
      | none => some h
      | some m => if h.count < m.count then some h else b
    else b) none

/-- Store a released record under its rewritten TICK (07 R147, R148); its lane's wrap record comes before the first record after a wrap, by the record's full
count at the pit (05 R101). -/
def State.storeReleased (s : State) (h : HeldRec) (r : List Byte) : State :=
  if !s.acting 0 then s
  else if h.lane = 0 then s.ctlStore r
  else if s.ownLane h.lane then
    let s1 := s.bump 0x2601 8
    if s1.link.laneClash then s1 else ({ s1 with link := { s1.link with laneClash := true } }).logCount 1 0x2601 8
  else (s.reachWrap h.lane (h.count + s.link.offset.getD 0)).stage h.lane r

/-- RECORD_RELEASE (07 R146): of the records that come first in their lanes, the one whose release time comes first is released; one with a later tick waits
for those before it in its lane. -/
def State.releaseNext (s : State) : State :=
  match firstRelease (s.link.held.filter fun h => laneFirst h.lane s.link.held = some h) with
  | none => s
  | some h =>
      let s1 := s.reach h.release
      let s2 := { s1 with link := { s1.link with held := s1.link.held.erase h, released := s1.link.released.set h.lane h.count } }
      let r := leBytes 6 (ofSigned 48 (h.count + s2.link.offset.getD 0)) ++ h.bytes.drop 6
      let s3 := s2.storeReleased h r
      if s3.acting 1 && s3.cfg 0x2400 1 = 1 && recType h.bytes = 1 then s3.takeSource h.count h.bytes else s3

/-- RECORD_RELEASE (07 R146). -/
def execRecordRelease (s : State) : Host.Outcome State Fault Refusal := .next (if s.link.role = some false && s.inSession then s.releaseNext else s)

/-- A close frame (07 R150): link state 1, and the car resumes HELLO. -/
def State.closeIn (s : State) (f : LinkFrame) : State :=
  if f.type != 6 then s
  else match s.openFrame f with
  | (s1, none) => s1
  | (s1, some _) => ({ s1 with link := { s1.link with shaking := s1.link.role = some true, hello := none, helloAt := none } }).setLinkSt 1

/-- LINK_CLOSE_RECEIVED (07 R150). -/
def execLinkCloseReceived (path : Fin 4) (frame : LinkFrame) (s : State) : Host.Outcome State Fault Refusal :=
  .next (s.received path.val frame fun t => t.closeIn frame)

/-- PATH_CLOSE_EXPIRY (07 R150): the path reopens 1 s after it was closed, and the event is logged. -/
def State.pathOpens (s : State) (p : Nat) : State :=
  let x := s.lpath p
  if x.closed then ((s.reach (x.closedAt + secTicks)).setLpath p { x with closed := false }).linkEvent s.link.st else s

/-- PATH_CLOSE_EXPIRY (07 R150). -/
def execPathCloseExpiry (path : Fin 4) (s : State) : Host.Outcome State Fault Refusal := .next (s.pathOpens path.val)

/-- Local address of a path as bytes: all 16 for IPv6, the last 4 for IPv4. -/
def State.localAddr (s : State) (p : Nat) : List Byte :=
  let b := leBytes 16 (s.cfg (pathIdx p) 4)
  if s.cfg (pathIdx p) 3 = 4 then b.drop 12 else b

/-- ARP or Neighbour Discovery on a carrier MAC (07 R152): a request for the local address is answered; a reply resolves the gateway or the remote address. -/
def State.arpIn (s : State) (mac : Nat) (isReply : Bool) (addr : List Byte) : State :=
  let ps := (List.range 4).filter fun p => s.cfg (pathIdx p) 1 = 1 && s.cfg (pathIdx p) 2 = mac
  if s.portUse (macPort mac) = 3 && s.served then
    if isReply then
      ps.foldl (fun t p =>
        if addr = t.nextHop p then t.setLpath p { t.lpath p with neighbour := true } else t) s
    else if ps.any fun p => s.localAddr p = addr then s.send (.neighbour mac true addr) else s
  else s

/-- ARP_ND_FRAME_RECEIVED (07 R152). -/
def execArpNdFrameReceived (mac : Fin 16) (isReply : Bool) (addr : List Byte) (s : State) : Host.Outcome State Fault Refusal :=
  .next (s.arpIn mac.val isReply addr)

end Sys2Proof.Machine
end

