-- ==== Sys2Proof/Machine/StoreCmds.lean ====
section
/-! DEFINITION. Commands of the session store (05): blocks, segments, signatures, NVMe, SSDs. -/

namespace Sys2Proof.Machine

/-- BLOCK_CLOSE (05 R96): the lane's open block closes and is coded. -/
def execBlockClose (lane : BitVec 16) (s : State) : Host.Outcome State Fault Refusal := .next (s.closeBlock lane.toNat)

/-- The first record of the open block has waited the block age limit (05 R96). -/
def State.blockAge (s : State) (l : Nat) : State :=
  match (s.lane l).block with
  | none => s
  | some b => (s.reach (b.since + msTicks (s.cfg 0x2500 3))).closeBlock l

/-- BLOCK_AGE_EXPIRY (05 R96). -/
def execBlockAgeExpiry (lane : BitVec 16) (s : State) : Host.Outcome State Fault Refusal := .next (s.blockAge lane.toNat)

/-- One second after the wrap an output lane without a later record reaches its wrap point (05 R101), but not while earlier records of the link wait for their
release. -/
def State.outputWrap (s : State) (l : Nat) : State :=
  let held := s.link.held.any fun h => h.lane = l && h.count + s.link.offset.getD 0 < (s.tb.epoch.toNat * 2 ^ 48 : Nat)
  if (s.lane l).wrapDue.isSome && !held then (s.reach (s.tb.epoch.toNat * 2 ^ 48 + secTicks)).wrapPoint l else s

/-- OUTPUT_LANE_WRAP_TIMEOUT (05 R101). -/
def execOutputLaneWrapTimeout (eng : Fin 1024) (s : State) : Host.Outcome State Fault Refusal := .next (s.outputWrap (0x1000 + eng.val))

/-- The open segment reaches the age limit and closes (05 R103). -/
def State.segAge (s : State) : State :=
  match s.store.seg with
  | none => s
  | some g => (s.reach (g.since + msTicks (s.cfg 0x2500 2))).closeSeg

/-- SEGMENT_AGE_EXPIRY (05 R103). -/
def execSegmentAgeExpiry (s : State) : Host.Outcome State Fault Refusal := .next s.segAge

/-- The signature time interval has passed in a recording session (05 R103). -/
def State.sigTime (s : State) : State :=
  if s.acting 0 && s.inSession then (s.reach (s.store.sigAt + msTicks (s.cfg 0x2500 5))).closeDue else s

/-- SIGNATURE_TIME_DUE (05 R103). -/
def execSignatureTimeDue (s : State) : Host.Outcome State Fault Refusal := .next s.sigTime

/-- SEGMENT_HASH_COMPLETE (05 R104). -/
def execSegmentHashComplete (s : State) : Host.Outcome State Fault Refusal := .next s.hashDone

/-- The first SSD found ready after a wake is asked for the slot header at the retained position (19 R427). -/
def State.seekHeader (s : State) (k : Nat) : State :=
  match s.store.newest with
  | some d =>
    if s.store.headerDue then ({ s with store := { s.store with headerDue := false, headerOut := true } }).nvme k (.header (s.slotOf d.seq) d.seq) else s
  | none => s

/-- The flush interval of a recording session ends: a Flush on each SSD it uses (05 R109). -/
def State.flushAll (s : State) : State :=
  if s.usesSsd 0 || s.usesSsd 1 then
    let s1 := s.reach (s.store.flushAt + msTicks (s.cfg 0x2500 6))
    [0, 1].foldl (fun t k => if t.usesSsd k then t.flush k else t) { s1 with store := { s1.store with flushAt := s1.now } }
  else s

/-- FLUSH_INTERVAL_EXPIRY (05 R109). -/
def execFlushIntervalExpiry (s : State) : Host.Outcome State Fault Refusal := .next s.flushAll

/-- One log page of an SSD: entries of its state object, of three bytes of the page each, and health records whatever their severity (05 R109, 18 R408, log
entry 11). -/
def State.healthPage (s : State) (k : Nat) (page : List Byte) : State :=
  (pieces3 page.length page).foldl (fun t l => t.logHealth 1 1 0x2503 (3 + k) (leNat l) []) s

/-- Ready SSDs. -/
def State.readySsds (s : State) : List Nat := [0, 1].filter fun k => (s.ssd k).state = 1

/-- Every 10 s: Get Log Page 0x01 and 0x02 on each ready SSD; `pages` are what they give, in that order (05 R109). -/
def State.healthPoll (s : State) (pages : List (List Byte)) : State :=
  ((s.readySsds.flatMap fun k => [(k, 0), (k, 1)]).zip pages).foldl (fun t x =>
    (t.admin x.1.1 (.logPage (if x.1.2 = 0 then 1 else 2))).healthPage x.1.1 x.2) s

/-- NVME_HEALTH_POLL (05 R109). -/
def execNvmeHealthPoll (pages : List (List Byte)) (s : State) : Host.Outcome State Fault Refusal := .next (s.healthPoll pages)

/-- The controller of an SSD is reset: an Abort, CC.EN cleared; both steps are logged (05 R110). -/
def State.resetSsd (s : State) (k cid : Nat) : State :=
  let s1 := (s.nvme k (.abort cid)).logE 1 1 0x2503 (3 + k) (s.ssd k).state.val
  ((s1.setSsd k { s1.ssd k with timeoutAt := some s.now }).ssdState k 2).send (.ssdReset k)

/-- An NVMe command exceeds its timeout (05 R110): abort and controller reset, or failure on the second timeout within 60 s. -/
def State.nvmeTimeout (s : State) (k cid : Nat) : State :=
  if ((s.ssd k).cmds.find cid).isNone then s
  else
    let s1 := s.reach ((s.ssd k).issued.get 0 cid + msTicks (s.cfg 0x2500 8))
    if (s1.ssd k).timeoutAt.any (fun t => s1.now < t + 60 * secTicks) then s1.failSsd k else s1.resetSsd k cid

/-- NVME_COMMAND_TIMEOUT (05 R110). -/
def execNvmeCommandTimeout (ssd : Fin 2) (cid : Nat) (s : State) : Host.Outcome State Fault Refusal := .next (s.nvmeTimeout ssd.val cid)

/-- Whether a command reads a slot for replay. -/
def isRead : NvmeCmd → Bool
  | .read _ _ => true
  | _ => false

/-- Issue again what an SSD had in progress, with its queues recreated (05 R110). -/
def State.reissue (s : State) (k : Nat) : State :=
  let old := (s.ssd k).cmds
  old.foldl (fun t c =>
    match c.2 with
    | .abort _ => t
    | .logPage _ => t
    | _ => t.nvme k c.2) ((s.setSsd k { s.ssd k with cmds := [], issued := [] }).createQueues k)

/-- A read of the source that fell due while its SSD was in reset is made (06 R115). -/
def State.reread (s : State) (k : Nat) : State :=
  if s.replaySsd k && !(s.ssd 0).cmds.any (isRead ·.2) && !(s.ssd 1).cmds.any (isRead ·.2) then s.readNext else s

/-- A controller reset ends (05 R110): the SSD is restored, or declared failed, as when the reset has taken more than 2 s. -/
def State.resetDone (s : State) (k : Nat) (ok : Bool) : State :=
  if (s.ssd k).state = 2 then
    if ok && (s.ssd k).timeoutAt.all fun t => decide (s.now ≤ t + 2 * secTicks) then ((((s.ssdState k 1).reissue k).seekHeader k).writeOwed k).reread k
    else s.failSsd k
  else s

/-- CONTROLLER_RESET_COMPLETE (05 R110). -/
def execControllerResetComplete (ssd : Fin 2) (ok : Bool) (s : State) : Host.Outcome State Fault Refusal := .next (s.resetDone ssd.val ok)

/-- SSDs that the mode of 0x2500:01 names (05 R473). -/
def State.namedSsds (s : State) : List Nat :=
  match s.cfg 0x2500 1 with
  | 0 => [0]
  | 1 => [1]
  | _ => [0, 1]

/-- In IDLE, try to bring up each named SSD that is not ready (05 R473). The store starts on one that answers, and refuses one without a usable namespace
(R109, log entry 68). -/
def State.bringUp (s : State) (up : Nat → Bool) : State :=
  if s.sess.st = .idle && s.served then
    s.namedSsds.foldl (fun t k =>
      if (t.ssd k).state = 1 || !up k then t
      else
        let u := (t.setSsd k { t.ssd k with cmds := [], issued := [], timeoutAt := none }).startSsd k
        if u.usable k then (u.ssdState k 1).seekHeader k else u.ssdState k 3) s
  else s

/-- SSD_BRINGUP_RETRY (05 R473). -/
def execSsdBringupRetry (up0 : Bool) (up1 : Bool) (s : State) : Host.Outcome State Fault Refusal :=
  .next (s.bringUp fun k => if k = 0 then up0 else up1)

/-- An SSD that is not ready 2 s after the handover counts as a failed controller reset (19 R432). -/
def State.ssdNotReady (s : State) (k : Nat) : State :=
  if (s.ssd k).state = 1 then s else s.failSsd k

/-- SSD_READY_TIMEOUT (19 R432). -/
def execSsdReadyTimeout (ssd : Fin 2) (s : State) : Host.Outcome State Fault Refusal :=
  .next (if s.usesSsd ssd.val then s.ssdNotReady ssd.val else s)

end Sys2Proof.Machine
end

