-- ==== Sys2Proof/Machine/Checks.lean ====
section
/-! DEFINITION. The profile check (17 R471) and the checks of ARM (01 R17, 05 R473, 06 R119 to R130, 07 R138, R142, 13 R287, 18 R416). -/

namespace Sys2Proof.Machine

/-! The profile check, on the values `g idx sub` of a profile (17 R471). It gives the object of the first failing condition. -/

/-- Ranges of LSP :06 to :08 by mode (17 R382): the subindex that fails, or 0. -/
def lspBad (mode a b c : Nat) : Nat :=
  let ok6 := match mode with
    | 0 => decide (3000 ≤ a ∧ a ≤ 90000)
    | 1 => decide (a = 125 ∨ a = 189)
    | 2 => decide (1000 ≤ a ∧ a ≤ 20000)
    | 3 => decide (1000 ≤ a ∧ a ≤ 20000)
    | 4 => decide (a ≤ 2)
    | _ => decide (a ≤ 1)
  let ok7 := match mode with
    | 0 => decide (1 ≤ b ∧ b ≤ 6)
    | 1 => decide (10 ≤ b ∧ b ≤ 28)
    | 4 => decide (b ≤ 1023)
    | _ => decide (b = 0)
  let ok8 := match mode with
    | 0 => decide (c < 4)
    | 1 => decide (c < 32)
    | _ => decide (c = 0)
  if !ok6 then 6 else if !ok7 then 7 else if !ok8 then 8 else 0

/-- Replay port entry of a port in a profile (06 R132). -/
def entryIn (g : Nat → Nat → Nat) (p : Nat) : Nat := g (0x3400 + p / 128) (p % 128 + 1)

/-- A CAN port that replay, mirror or the dictionary uses is in normal mode (03 R53). -/
def checkModes (g : Nat → Nat → Nat) : Option (Nat × Nat) :=
  if g 0x2002 3 = 1 && g (portIdx (g 0x2002 1)) 5 != 2 then some (0x2002, 1)
  else
    ((List.range 96).find? fun p =>
      let u := bits (entryIn g p) 7 3
      (u = 1 || u = 2) && g (portIdx p) 5 != 2).map fun p => (portIdx p, 5)

/-- XL rates above 8 Mbit/s use mode switching (03 R55). -/
def checkXl (g : Nat → Nat → Nat) : Option (Nat × Nat) :=
  ((List.range 96).find? fun p => 8000 < g (portIdx p) 10 && g (portIdx p) 11 = 0).map fun p => (portIdx p, 10)

/-- Sample ports give at most 62,500 frames/s (03 R65). -/
def checkSmp (g : Nat → Nat → Nat) : Option (Nat × Nat) :=
  ((List.range 8).find? fun k => g (portIdx (smpPort k)) 7 < 16000).map fun k => (portIdx (smpPort k), 7)

/-- Load of a port in kB/s at line rate (05 R93); a link carrier is no capture port (01 R18). -/
def portLoad (g : Nat → Nat → Nat) (p : Nat) : Nat :=
  match portKind p with
  | .mac =>
    if bits (entryIn g p) 7 3 = 3 then 0
    else if g (portIdx p) 5 = 0 then 1250000 else [1250, 12500, 125000, 312500, 625000, 1250000].getD (g (portIdx p) 5 - 1) 1250000
  | .can => 5000
  | .smp => 25000
  | .lsp => 600
  | .evt => 600
  | .absent => 0

/-- Load of a pod in kB/s (05 R93, 07 R136). -/
def podLoad (g : Nat → Nat → Nat) (pod : Nat) : Nat :=
  ((allPorts.filter fun p => g (portIdx p) 1 = 1 && g (portIdx p) 2 = pod).map (portLoad g)).sum +
  (if g 0x2600 6 = pod && (List.range 4).any (fun k => g (0x2610 + k) 1 = 1) then 250000 else 0)

/-- No pod is loaded beyond 4 GB/s (05 R93). -/
def checkLoad (g : Nat → Nat → Nat) : Option (Nat × Nat) :=
  ((List.range 32).find? fun pod => 4000000 < podLoad g pod).bind fun pod =>
    some (((allPorts.find? fun p => g (portIdx p) 1 = 1 && g (portIdx p) 2 = pod).map portIdx).getD 0x2600,
      if (allPorts.any fun p => g (portIdx p) 1 = 1 && g (portIdx p) 2 = pod) then 2 else 6)

/-- LSP settings suit their modes (17 R382). -/
def checkLsp (g : Nat → Nat → Nat) : Option (Nat × Nat) :=
  ((List.range 32).map fun k =>
    let i := portIdx (lspPort k)
    (i, lspBad (g i 5) (g i 6) (g i 7) (g i 8))).find? fun e => e.2 != 0

/-- No pod is its own standby (17 R383). -/
def checkStandby (g : Nat → Nat → Nat) : Option (Nat × Nat) :=
  ((List.range 32).find? fun p => g (0x2A40 + p) 2 = p).map fun p => (0x2A40 + p, 2)

/-- The profile check (17 R471): the object of the first condition that fails. -/
def profileCheck (g : Nat → Nat → Nat) : Option (Nat × Nat) :=
  ((((checkModes g).or (checkXl g)).or (checkSmp g)).or (checkLoad g)).or ((checkLsp g).or (checkStandby g))

/-! ARM (17 R376 to R378). -/

/-- The combinations of activities of 01 R17, as ARM P[4:0]. DEDUCED (log entry 16): 07 R134 names link-car with mirror and cites R17, whose table does not
allow it; the table decides. -/
def armCombos : List Nat := [1, 9, 5, 13, 16, 17, 18, 19, 2, 3, 6, 7, 4, 8]

/-- Whether an activity is named. -/
def named (acts bit : Nat) : Bool := acts / 2 ^ bit % 2 = 1

/-- Whether the two sides of a mirror pair name each other and agree in kind (06 R129). -/
def State.pairOk (s : State) (p : Nat) : Bool :=
  let q := s.partner p
  s.portUse q = 2 && s.partner q = p && q != p &&
  match portKind p, portKind q with
  | .can, .can => s.portCfg p 5 = 2 && s.portCfg q 5 = 2
  | .mac, .mac => s.macRate p = s.macRate q
  | _, _ => false

/-- Ports whose emit queues a session uses: USE 1 with replay, USE 2 with mirror. -/
def State.queuePorts (s : State) (acts : Nat) : List Nat :=
  allPorts.filter fun p => (named acts 1 && s.portUse p = 1) || (named acts 2 && s.portUse p = 2)

/-- Cause 1: a USE that the port's kind does not allow (06 R116, R132). -/
def State.badUse (s : State) : Bool :=
  (List.range 256).any fun p =>
    let u := s.portUse p
    4 ≤ u || (u = 3 && portKind p != .mac) || (u = 1 && (portKind p = .smp || portKind p = .absent)) || (u = 2 && portKind p = .absent)

/-- Cause 2: a queue below its minimum, or queues beyond the partition (06 R119). DESIGN CHOICE (log entry 6): no profile object sets the size of the
partition, and it is the most that the rule allows, 48 MiB. -/
def State.badQueue (s : State) (acts : Nat) : Bool :=
  (s.queuePorts acts).any (fun p => let q := bits (s.repEntry p) 40 16
                                    q != 0 && q < s.queueMin p) ||
  50331648 < ((s.queuePorts acts).map s.queueSize).sum

/-- Cause 3: a POLICY that is not allowed (06 R124). -/
def State.badPolicy (s : State) : Bool :=
  allPorts.any fun p =>
    s.dryPolicy p = 3 || (s.dryPolicy p = 2 && (s.portUse p = 2 || s.cfg 0x2400 1 = 1))

/-- First LBA and number of LBAs of a ring of so many slots on an SSD. -/
def State.ringRange (s : State) (k : Nat) (source : Bool) (slots : Nat) : Nat × Nat := (s.slotLba k source 0, slots * Config.slotLbas k)

/-- Cause 4: a source range overlaps the record ring on the same SSD and namespace (06 R128). -/
def State.sourceClash (s : State) (acts : Nat) : Bool :=
  named acts 0 && named acts 1 && s.cfg 0x2400 1 = 0 &&
  ([0, 1].filter fun k => s.cfg 0x2400 2 = k || s.cfg 0x2400 2 = 2).any fun k =>
    s.namedSsds.contains k &&
    (s.cfg 0x2400 (s.ringAt k true).2 = s.cfg 0x2502 (3 * k + 1) &&
     (let a := s.ringRange k true s.sourceSlots
      let b := s.ringRange k false (s.slotsIn (s.cfg 0x2500 1))
      rangesMeet a.1 a.2 b.1 b.2))

/-- Cause 5: a mirror delay below its minimum (06 R130). -/
def State.badDelay (s : State) : Bool :=
  allPorts.any fun p => s.portUse p = 2 && bits (s.repEntry p) 72 24 != 0 && bits (s.repEntry p) 72 24 < s.mirrorMin p

/-- Cause 6: broken pairing (06 R129, R130). -/
def State.badPair (s : State) : Bool := allPorts.any fun p => s.portUse p = 2 && !s.pairOk p

/-- Cause 7: the read-ahead region and the record ring exceed usable DRAM (06 R119). -/
def State.badDram (s : State) (acts : Nat) : Bool :=
  named acts 1 && Config.dramUsable < (s.cfg 0x2400 13 + s.cfg 0x2500 7) * 1048576

/-- The cause of a refusal of 06, or 0 (06 R133). -/
def State.replayCause (s : State) (acts : Nat) : Nat :=
  if s.badUse then 1 else if s.badQueue acts then 2 else if s.badPolicy then 3 else if s.sourceClash acts then 4
  else if s.badDelay then 5 else if s.badPair then 6 else if s.badDram acts then 7 else 0

/-- The cause of a refusal of 07, or 0 (07 R138, R142, R152). -/
def State.linkCause (s : State) (acts : Nat) : Nat :=
  if !(named acts 3 || named acts 4) then 0
  else if s.linkPaths.isEmpty then 1
  else if (List.range 4).all fun k => s.cfg 0x2620 (k + 1) = 0 then 2
  else if s.linkPaths.any fun p => s.portUse (macPort (s.cfg (pathIdx p) 2)) != 3 then 3
  else if s.linkPaths.any fun p => s.cfg (pathIdx p) 9 - (if s.cfg (pathIdx p) 3 = 4 then 28 else 48) < 52 + s.cfg 0x2600 3 then 4
  else 0

/-- The mode of the SSD set that a session with record would use (05 R473): none when it is refused. -/
def State.setMode (s : State) : Option Nat :=
  let m := s.cfg 0x2500 1
  let r0 := (s.ssd 0).state = 1
  let r1 := (s.ssd 1).state = 1
  match m with
  | 0 => if r0 then some 0 else none
  | 1 => if r1 then some 1 else none
  | _ => if r0 && r1 then some m else if r0 then some 0 else if r1 then some 1 else none

/-- Whether the profile in force names a pod: an image, the RAWPOD of an enabled port, the link coding pod with an enabled path. -/
def State.podNamed (s : State) (p : Nat) : Bool :=
  s.imageRef p != 0 || allPorts.any (fun q => s.portCfg q 1 = 1 && s.portCfg q 2 = p) || (!s.linkPaths.isEmpty && s.cfg 0x2600 6 = p)

/-- Whether a named pod has failed, cannot be repaired, or has no image loaded although it refers to one (13 R287, 14 R321, 18 R416). -/
def State.podBars (s : State) : Bool :=
  (List.range 32).any fun p => s.podNamed p && ((s.pod p).failed || (s.pod p).bad || (s.imageRef p != 0 && (s.pod p).powered && !(s.pod p).loaded))

end Sys2Proof.Machine
end

