-- ==== Sys2Proof/Machine/Operands.lean ====
section
/-! DEFINITION. Ports of an engine and the moves of a bundle: the port map (09 R188 to R191), bundle decode with carriers and long immediates
(R181 to R187), widths (08 R156), and how moves that meet are resolved (R155, 09 R192). -/

namespace Sys2Proof.Machine

/-! The port map (09 R188 to R191). -/

/-- Bases of the unit blocks (09 R190). -/
def bALU0 : Nat := 0x080
def bALU1 : Nat := 0x0C0
def bMAC : Nat := 0x100
def bSHF : Nat := 0x140
def bCHK : Nat := 0x180
def bDIV : Nat := 0x1C0
def bLSU0 : Nat := 0x200
def bLSU1 : Nat := 0x240
def bCTL : Nat := 0x280
def bRPT : Nat := 0x2C0
def bSMV : Nat := 0x300
def bTSU : Nat := 0x340
def bSPU : Nat := 0x380

/-- Whether a port number is a trigger port (09 R189, R190). -/
def isTrigger (n : Nat) : Bool :=
  let o := n % 64
  match n / 64 with
  | 2 => o < 0x20
  | 3 => o < 0x20
  | 4 => o < 8
  | 5 => o < 8 || (0x10 ≤ o && o < 0x18)
  | 6 => o < 0x0C
  | 7 => o < 2 || o = 0x10 || o = 0x11
  | 8 => o < 4 || (8 ≤ o && o < 0x0B)
  | 9 => o < 4 || (8 ≤ o && o < 0x0B)
  | 10 => o < 5 || (8 ≤ o && o < 0x0F) || (0x10 ≤ o && o < 0x16)
  | 11 => o < 2
  | 12 => o < 4
  | 13 => o < 3
  | 14 => o < 4
  | _ => false

/-- Whether a port number is an operand port. -/
def isOperand (n : Nat) : Bool :=
  let o := n % 64
  let u := n / 64
  (o = 0x20 && 2 ≤ u && u ≤ 14 && u != 12 && u != 13) || (o = 0x21 && (u = 2 || u = 3 || u = 5))

/-- Whether a port number is a result port. -/
def isResult (n : Nat) : Bool :=
  let o := n % 64
  let u := n / 64
  (o = 0x22 && 2 ≤ u && u ≤ 14 && u != 10 && u != 11) || (o = 0x23 && u = 7)

/-- How many control ports a unit block names, from offset 0x28 up. -/
def controlCount (u : Nat) : Nat :=
  match u with
  | 2 => 1
  | 3 => 1
  | 4 => 4
  | 6 => 3
  | 7 => 1
  | 8 => 1
  | 9 => 4
  | 10 => 8
  | 11 => 8
  | 12 => 5
  | 14 => 4
  | _ => 0

/-- Whether a port number is a control port. -/
def isControl (n : Nat) : Bool := 0x28 ≤ n % 64 && n % 64 < 0x28 + controlCount (n / 64)

/-- Whether a port number is ZERO or NULL, a guard or a register (09 R188). -/
def isPlain (n : Nat) : Bool := n = 0 || (8 ≤ n && n < 0x18) || (0x20 ≤ n && n < 0x60)

/-- Whether a move may read a port: of the operand ports RPT.O alone, which R201 lists as RW (09 R201, 00 R11). -/
def isSource (n : Nat) : Bool := isPlain n || isResult n || isControl n || n = 0x2E0

/-- Whether a move may write a port; a write of a read-only field is ignored (00 R11). -/
def isDest (n : Nat) : Bool := isPlain n || isTrigger n || isOperand n || isControl n

/-- Supervisor ports (09 R191). -/
def isSuper (n : Nat) : Bool :=
  n = 0x2AB || n = 0x2AD || n = 0x2AE || n = 0x2AF || n = 0x284 || (0x268 ≤ n && n ≤ 0x26B) || n = 0x3A8 || n = 0x3A9

/-- Whether a port is 48 bits wide (09 R190). -/
def isLong (n : Nat) : Bool :=
  let o := n % 64
  match n / 64 with
  | 0 => n = 0 || (0x10 ≤ n && n < 0x18)
  | 2 => (0x10 ≤ o && o < 0x20) || o = 0x20 || o = 0x21 || o = 0x22
  | 3 => (0x10 ≤ o && o < 0x20) || o = 0x20 || o = 0x21 || o = 0x22
  | 4 => o = 0x22
  | 5 => (0x10 ≤ o && o < 0x18) || o = 0x20 || o = 0x22
  | 6 => o = 0x0A || o = 0x0B || o = 0x22 || o = 0x28 || o = 0x2A
  | 7 => o = 0x10 || o = 0x11 || o = 0x20 || o = 0x22 || o = 0x23
  | 8 => o = 0x20 || o = 0x22
  | 9 => o < 0x0B || o = 0x20 || o = 0x22 || o = 0x29 || o = 0x2A
  | 10 => (0x10 ≤ o && o < 0x16) || o = 0x20
  | 13 => true
  | _ => false

/-! Widths (08 R156). -/

/-- A word as it stands on a long port. -/
def longOf (w : W24) : L48 := w.signExtend 48

/-- The word a long gives. -/
def wordOf (v : L48) : W24 := v.setWidth 24

/-! Bundles (09 R181 to R187). -/

/-- A performed move: its slot, destination and value before conversion to the destination's width. -/
structure Move where
  slot : Nat
  dst : Nat
  val : L48
  deriving DecidableEq, Repr

/-- Source of a decoded move: an immediate or a port. -/
inductive Src where
  | imm (v : L48)
  | port (n : Nat)
  deriving DecidableEq, Repr

/-- A decoded move (09 R182 to R186). -/
structure Slot where
  slot : Nat
  guard : Nat
  neg : Bool
  src : Src
  dst : Nat
  deriving DecidableEq, Repr

/-- A decoded bundle: its moves, and the first fault that its bits alone show, as slot and reason of 12 R252. -/
structure Bundle where
  moves : List Slot
  fault : Option (Nat × Nat)
  deriving DecidableEq, Repr

/-- Slot `i` of a bundle (09 R181). -/
def slotBits (b : BitVec 128) (i : Nat) : BitVec 32 := b.extractLsb' (32 * i) 32

/-- The slots that a long immediate names as carriers, whatever their numbers (09 R185, R186). -/
def longNames (w : BitVec 32) : List Nat :=
  match (w.extractLsb' 24 2).toNat with
  | 0 => [(w.extractLsb' 22 2).toNat]
  | 1 => [(w.extractLsb' 22 2).toNat]
  | 2 => [(w.extractLsb' 22 2).toNat, (w.extractLsb' 20 2).toNat]
  | _ => []

/-- Source of a slot in long-immediate form: its value, or the reason of its fault (09 R185, R186). -/
def longImm (b : BitVec 128) (i : Nat) (w : BitVec 32) : Except Nat L48 :=
  let c1 := (w.extractLsb' 22 2).toNat
  let c2 := (w.extractLsb' 20 2).toNat
  match (w.extractLsb' 24 2).toNat with
  | 0 => if c1 ≤ i then .error 1 else .ok ((slotBits b c1).signExtend 48)
  | 1 => if c1 ≤ i then .error 1 else .ok ((slotBits b c1).setWidth 48)
  | 2 => if c1 ≤ i || c2 ≤ i then .error 1 else .ok ((slotBits b c2).setWidth 16 ++ slotBits b c1 : BitVec 48)
  | _ => .error 0

/-- Decode slots `i` to 3 in order; `carriers` are the slots that earlier moves named (09 R186). -/
def decodeSlots (b : BitVec 128) (i : Nat) (carriers : List Nat) : Nat → Bundle
  | 0 => ⟨[], none⟩
  | n + 1 =>
    if carriers.contains i then decodeSlots b (i + 1) carriers n
    else
      let w := slotBits b i
      let named := longNames w
      let mk := fun (x : Src) => (⟨i, (w.extractLsb' 28 3).toNat, w.getLsbD 31, x, (w.extractLsb' 6 10).toNat⟩ : Slot)
      if w.getLsbD 27 then
        let r := decodeSlots b (i + 1) carriers n
        { r with moves := mk (.imm ((w.extractLsb' 16 11).signExtend 48)) :: r.moves }
      else if w.getLsbD 26 then
        match longImm b i w with
        | .error e =>
          let r := decodeSlots b (i + 1) (named ++ carriers) n
          { r with fault := some (i, e) }
        | .ok v =>
          let r := decodeSlots b (i + 1) (named ++ carriers) n
          { r with moves := mk (.imm v) :: r.moves }
      else
        let r := decodeSlots b (i + 1) carriers n
        { r with moves := mk (.port (w.extractLsb' 16 10).toNat) :: r.moves }

/-- Decode a bundle in full before any of its moves is performed (09 R187). -/
def decodeBundle (b : BitVec 128) : Bundle := decodeSlots b 0 [] 4

/-- Whether a guard lets a move be performed (09 R183). -/
def Slot.open_ (m : Slot) (guards : Byte) : Bool := guards.getLsbD m.guard != m.neg

/-- What two moves to one destination share: the port, or the unit of a trigger port (08 R155, 09 R192). -/
def destKey (n : Nat) : Nat := if isTrigger n then 1024 + n / 64 else n

/-- Of moves to one destination, or to triggers of one unit, keep the one in the highest-numbered slot; `l` stands in slot order. -/
def survivors : List Slot → List Slot
  | [] => []
  | m :: t => if t.any fun x => destKey x.dst = destKey m.dst then survivors t else m :: survivors t

/-- The moves of a bundle that are performed under the guards at the start of the cycle. -/
def Bundle.live (b : Bundle) (guards : Byte) : List Slot := survivors (b.moves.filter fun m => m.open_ guards)

/-- The fault of a performed move, as a reason of 12 R252: `sup` is the mode in force, `levels` the active repeat levels (09 R187, R191, 11 R233). -/
def moveFault (sup : Bool) (levels : Nat) (src : Src) (dst : Nat) : Option Nat :=
  let s := match src with
    | .imm _ => 0
    | .port n => n
  if !isDest dst then some 2
  else if !isSource s then some 3
  else if !sup && (isSuper dst || isSuper s) then some 4
  else if dst = bRPT && 2 ≤ levels then some 5
  else none

/-- The lowest-numbered fault of a bundle: slot and reason (12 R251, R252). -/
def Bundle.faultOf (b : Bundle) (guards : Byte) (sup : Bool) (levels : Nat) : Option (Nat × Nat) :=
  let f := (b.live guards).findSome? fun m => (moveFault sup levels m.src m.dst).map (m.slot, ·)
  match b.fault, f with
  | none, x => x
  | some x, none => some x
  | some x, some y => if x.1 ≤ y.1 then some x else some y

end Sys2Proof.Machine
end

