-- ==== Sys2Proof/Machine/Flags.lean ====
section
/-! DEFINITION. Results and flags of ALU0 and ALU1 (10 R207, R208, R220) and the flag ports of the arithmetic units (09 R195, R196). -/

namespace Sys2Proof.Machine

/-- Operations of an ALU, in the order of their subcodes (09 R190). -/
inductive AluOp where
  | add
  | addc
  | sub
  | subb
  | neg
  | abs
  | and
  | or
  | xor
  | andn
  | not
  | min
  | max
  | minu
  | maxu
  | pass
  deriving DecidableEq, Repr

/-- Whether an operation writes all four flags, or Z and N only (10 R207). -/
def AluOp.arith : AluOp → Bool
  | .add => true
  | .addc => true
  | .sub => true
  | .subb => true
  | .neg => true
  | .abs => true
  | _ => false

/-- FLG.C. -/
def flgC (f : BitVec 5) : Nat := bit01 (f.getLsbD 2)

/-- Exact signed result and carry of an arithmetic operation on `w` bits (10 R207): `a` and `b` unsigned, `c` the carry found. -/
def AluOp.exact (op : AluOp) (w a b c : Nat) : Int × Bool :=
  let x := toSigned w a
  let y := toSigned w b
  match op with
  | .add => (x + y, decide (2 ^ w ≤ a + b))
  | .addc => (x + y + c, decide (2 ^ w ≤ a + b + c))
  | .sub => (x - y, decide (a < b))
  | .subb => (x - y - c, decide (a < b + c))
  | .neg => (-x, decide (a ≠ 0))
  | .abs => (if 0 ≤ x then x else -x, false)
  | _ => (0, false)

/-- Whether a signed number fits `w` bits. -/
def fitsSigned (w : Nat) (v : Int) : Bool := -(2 ^ (w - 1) : Int) ≤ v && v < (2 ^ (w - 1) : Int)

/-- The signed number of `w` bits nearest to a number. -/
def holdSigned (w : Nat) (v : Int) : Int := max (-(2 ^ (w - 1) : Int)) (min ((2 ^ (w - 1) : Int) - 1) v)

/-- Result of a logical operation, of MIN, MAX and PASS on `w` bits (10 R207). -/
def AluOp.logic (op : AluOp) (w a b : Nat) : Nat :=
  match op with
  | .and => a &&& b
  | .or => a ||| b
  | .xor => a ^^^ b
  | .andn => a &&& (2 ^ w - 1 - b)
  | .not => 2 ^ w - 1 - a
  | .min => if toSigned w a ≤ toSigned w b then a else b
  | .max => if toSigned w a ≤ toSigned w b then b else a
  | .minu => Nat.min a b
  | .maxu => Nat.max a b
  | _ => a

/-- Result of an operation on `w` bits under SAT, as an unsigned number (10 R207, R208, R220). Out of range, NEG and ABS wrap to the operand itself. -/
def AluOp.result (op : AluOp) (w : Nat) (sat : Bool) (a b c : Nat) : Nat :=
  if op.arith then
    let e := (op.exact w a b c).1
    ofSigned w (if sat then holdSigned w e else e)
  else op.logic w a b

/-- Flags after an operation, as SV V C N Z, from those before it (10 R207, 09 R195). -/
def AluOp.flags (op : AluOp) (w : Nat) (sat : Bool) (a b : Nat) (f : BitVec 5) : BitVec 5 :=
  let r := op.result w sat a b (flgC f)
  let z := decide (r = 0)
  let n := decide (2 ^ (w - 1) ≤ r)
  if op.arith then
    let e := op.exact w a b (flgC f)
    let v := !fitsSigned w e.1
    BitVec.ofNat 5 (16 * bit01 (f.getLsbD 4 || v) + 8 * bit01 v + 4 * bit01 e.2 + 2 * bit01 n + bit01 z)
  else (f &&& 0b11100) ||| BitVec.ofNat 5 (2 * bit01 n + bit01 z)

/-- A result of `w` bits as a long result port shows it (10 R205). -/
def showResult (w r : Nat) : L48 := if w = 24 then longOf (BitVec.ofNat 24 r) else BitVec.ofNat 48 r

/-- An operation on an ALU: O1 latches the trigger value; the result and the flags are read from the next bundle on (10 R204, R207, 08 R158). When a
move of the same bundle wrote FLG (`moved`), its Z, N, C and V stand, and a set of SV wins (09 R194). -/
def Alu.run (x : Alu) (op : AluOp) (long sat moved : Bool) (v : L48) : Alu :=
  let w := if long then 48 else 24
  let a := v.toNat % 2 ^ w
  let b := x.o2.toNat % 2 ^ w
  let f := op.flags w sat a b x.flg
  { x with o1 := v, q := showResult w (op.result w sat a b (flgC x.flg)), flg := if moved then x.flg ||| (f &&& 0b10000) else f }

/-- A move writes FLG (09 R195): Z, N, C and V as written; SV is cleared by a 1. -/
def Alu.writeFlg (x : Alu) (v : W24) : Alu :=
  { x with flg := BitVec.ofNat 5 (16 * bit01 (x.flg.getLsbD 4 && !v.getLsbD 4) + v.toNat % 16) }

end Sys2Proof.Machine
end

