-- ==== Sys2Proof/Machine/Units.lean ====
section
/-! DEFINITION. MAC, SHF, CHK and DIV of an engine (10 R209 to R212, R219 to R224) with their chained state (09 R194): operations start from the state
that the operation triggered before leaves, and complete `k` unfrozen cycles on. -/

namespace Sys2Proof.Machine

/-! MAC (10 R209, R219). -/

/-- The accumulator that the next MAC operation starts from: what the last operation in flight leaves, unless a move has written the chained
state since (09 R194). -/
def Mac.start (x : Mac) : BitVec 56 :=
  match (x.fl.reverse.find? fun f => f.form ≠ 3) with
  | some f => if f.keep then x.acc else f.val
  | none => x.acc

/-- A MAC operation that sets the accumulator to an exact value: wrapped or held, with its flag and FORM (10 R219, 12 R263). -/
def Mac.accum (x : Mac) (sat : Bool) (e : Int) : Mac :=
  let past := !fitsSigned 56 e
  if sat then
    let h := holdSigned 56 e
    { x with fl := x.fl ++ [⟨3, BitVec.ofInt 56 h, past || !fitsSigned 48 h, 2, false⟩] }
  else { x with fl := x.fl ++ [⟨3, BitVec.ofInt 56 e, past, 1, false⟩] }

/-- Product of O and the trigger value, signed or unsigned. -/
def Mac.product (x : Mac) (signed : Bool) (y : W24) : Int := if signed then x.o.toInt * y.toInt else x.o.toNat * y.toNat

/-- MUL, MULU. -/
def Mac.mul (x : Mac) (signed sat : Bool) (y : W24) : Mac := x.accum sat (x.product signed y)

/-- MAC, MACU, MSU, MSUU. -/
def Mac.add (x : Mac) (signed sat sub : Bool) (y : W24) : Mac :=
  x.accum sat (if sub then x.start.toInt - x.product signed y else x.start.toInt + x.product signed y)

/-- CLR. -/
def Mac.clr (x : Mac) : Mac := { x with fl := x.fl ++ [⟨3, 0, false, 1, false⟩] }

/-- The accumulator rounded and shifted right by `s` (10 R209, R219). -/
def roundShift (acc : Int) (s : Nat) : Int :=
  if s = 0 then acc else if 56 ≤ s then (if acc < 0 then -1 else 0) else (acc + 2 ^ (s - 1)) / 2 ^ s

/-- RD: its result is the accumulator as it stands, rounded and shifted; the accumulator stays. -/
def Mac.rd (x : Mac) (sat : Bool) (y : W24) : Mac :=
  let r := roundShift x.start.toInt (y.toNat % 64)
  let h := if sat then holdSigned 48 r else r
  { x with fl := x.fl ++ [⟨3, BitVec.ofInt 56 h, decide (h ≠ r), 3, false⟩] }

/-- A MAC operation completes (12 R263). -/
def Mac.complete (x : Mac) (f : MacFl) : Mac :=
  let q : L48 := if f.form = 2 then BitVec.ofInt 48 (holdSigned 48 f.val.toInt) else f.val.setWidth 48
  if f.keep then { x with q := q }
  else { x with q := q, acc := if f.form = 3 then x.acc else f.val, v := f.v, sv := x.sv || f.v }

/-- One unfrozen cycle of the MAC pipeline (08 R158, R159); a set of SV that a move of the cycle met stands (00 R12). -/
def Mac.advance (x : Mac) : Mac :=
  let fl := x.fl.map fun f => { f with k := f.k - 1 }
  (fl.filter (·.k = 0)).foldl Mac.complete { x with fl := fl.filter (·.k ≠ 0), sv := x.sv || x.sets, sets := false }

/-- The operation that completes in the present cycle, unless a move has written the chained state since its trigger. -/
def Mac.ending (x : Mac) : Option MacFl := x.fl.find? fun f => f.k = 1 && !f.keep

/-- A move is about to write the chained state (09 R194): the fields that it does not write take what the operation completing in its cycle leaves, whose
set of SV wins over every move of the cycle (00 R12), and no operation in flight changes the state that it sets. -/
def Mac.chained (x : Mac) : Mac :=
  let y := match x.ending with
    | some f => { x with acc := if f.form = 3 then x.acc else f.val, v := f.v, sets := x.sets || f.v }
    | none => x
  { y with fl := y.fl.map fun f => { f with keep := true } }

/-- A move writes MAC.FLG (09 R196). -/
def Mac.writeFlg (x : Mac) (v : W24) : Mac := { x.chained with v := v.getLsbD 0, sv := x.sv && !v.getLsbD 1 }

/-- A move writes ACL, ACM or ACH (09 R197): part 0, 1, 2. -/
def Mac.writeAcc (x : Mac) (part : Nat) (v : W24) : Mac :=
  let y := x.chained
  let a := y.acc
  { y with
    acc :=
      if part = 0 then (a.extractLsb' 24 32 ++ v : BitVec 56)
      else if part = 1 then (a.extractLsb' 48 8 ++ v ++ a.extractLsb' 0 24 : BitVec 56)
      else (v.setWidth 8 ++ a.extractLsb' 0 48 : BitVec 56) }

/-! SHF (10 R210, R223). -/

/-- Operations of SHF, in the order of their subcodes. -/
inductive ShfOp where
  | shl
  | shr
  | sar
  | rol
  | ror
  | ext
  | exts
  | ins
  deriving DecidableEq, Repr

/-- `d` rotated left by `r` below the width. -/
def rotl (w d r : Nat) : Nat := (d * 2 ^ r + d / 2 ^ (w - r)) % 2 ^ w

/-- Result on `w` bits of data `d` under O2 (10 R210, R223). -/
def ShfOp.result (op : ShfOp) (w d : Nat) (o2 : W24) : Nat :=
  let s := o2.toNat % 64
  let len := bits o2.toNat 6 6
  let f := bits o2.toNat 12 12
  match op with
  | .shl => d * 2 ^ s % 2 ^ w
  | .shr => d / 2 ^ s
  | .sar => ofSigned w (toSigned w d / 2 ^ s)
  | .rol => rotl w d (s % w)
  | .ror => rotl w d ((w - s % w) % w)
  | .ext => d / 2 ^ s % 2 ^ len
  | .exts => if len = 0 then 0 else ofSigned w (toSigned len (d / 2 ^ s % 2 ^ len))
  | .ins => (d % 2 ^ s + f % 2 ^ len * 2 ^ s + d / 2 ^ (s + len) * 2 ^ (s + len)) % 2 ^ w

/-- An operation on SHF: O1 latches the data (10 R204). -/
def Shf.run (x : Shf) (op : ShfOp) (long : Bool) (v : L48) : Shf :=
  let w := if long then 48 else 24
  { x with o1 := v, q := showResult w (op.result w (v.toNat % 2 ^ w) x.o2) }

/-! CHK (10 R211, R224). -/

/-- The low `n` bits of a number in reverse order. -/
def revBits (n v : Nat) : Nat := (List.range n).foldl (fun r i => 2 * r + v / 2 ^ i % 2) 0

/-- One bit of a check step (10 R211): remainder of width `w`, polynomial. -/
def chkBit (w poly rem : Nat) (i : Bool) : Nat :=
  let f := (decide (rem / 2 ^ (w - 1) % 2 = 1)) != i
  let r := rem * 2 % 2 ^ w
  if f then r ^^^ (poly % 2 ^ w) else r

/-- The bits that a step feeds of one byte, in order: all 8, or the first `j` of a partial STEP8 (10 R224). -/
def stepBits (rin : Bool) (j : Nat) (b : Nat) : List Bool :=
  (List.range (if j = 0 then 8 else j)).map fun i => decide (b / 2 ^ (if rin then i else 7 - i) % 2 = 1)

/-- The remainder that the next step starts from (09 R194). -/
def Chk.start (x : Chk) : BitVec 32 :=
  match (x.fl.reverse.find? (·.step)) with
  | some f => if f.keep then x.crc else f.val
  | none => x.crc

/-- A check step over some bits (10 R211, R224). -/
def Chk.feed (x : Chk) (l : List Bool) : Chk :=
  let w := x.wm1.toNat + 1
  let r := l.foldl (chkBit w x.poly.toNat) (x.start.toNat % 2 ^ w)
  { x with fl := x.fl ++ [⟨2, BitVec.ofNat 32 r, true, false, x.wm1, x.xo, x.rout⟩] }

/-- STEP8, STEP16, STEP24 over `n` bytes of the trigger value, byte 0 first. -/
def Chk.step (x : Chk) (n : Nat) (v : W24) : Chk :=
  x.feed ((List.range n).flatMap fun k => stepBits x.rin (if n = 1 then x.o.toNat % 8 else 0) (bits v.toNat (8 * k) 8))

/-- A CHK operation that leaves the remainder alone, with its result. -/
def Chk.give (x : Chk) (r : Nat) : Chk := { x with fl := x.fl ++ [⟨2, BitVec.ofNat 32 r, false, false, x.wm1, x.xo, x.rout⟩] }

/-- Number of one bits among the low `n`. -/
def popBits (n v : Nat) : Nat := ((List.range n).map fun i => v / 2 ^ i % 2).sum

/-- Number of zero bits above the highest one bit of `n`. -/
def clzBits (n v : Nat) : Nat := n - (if v = 0 then 0 else Nat.log2 v + 1)

/-- PARB: the parity of each byte (10 R211). -/
def parBytes (v : Nat) : Nat := ((List.range 3).map fun k => popBits 8 (bits v (8 * k) 8) % 2 * 2 ^ k).sum

/-- REVB: each byte reversed in place. -/
def revBytes (v : Nat) : Nat := ((List.range 3).map fun k => revBits 8 (bits v (8 * k) 8) * 2 ^ (8 * k)).sum

/-- How CHK.Q presents a remainder (10 R224). -/
def chkPresent (f : ChkFl) : Nat :=
  let w := f.wm1.toNat + 1
  let r := if f.rout then revBits w f.val.toNat else f.val.toNat
  if f.xo then r ^^^ (2 ^ w - 1) else r

/-- A CHK operation completes (12 R263). -/
def Chk.complete (x : Chk) (f : ChkFl) : Chk :=
  if f.step then { x with q := BitVec.ofNat 48 (chkPresent f), crc := if f.keep then x.crc else f.val }
  else { x with q := f.val.setWidth 48 }

/-- One unfrozen cycle of the CHK pipeline. -/
def Chk.advance (x : Chk) : Chk :=
  let fl := x.fl.map fun f => { f with k := f.k - 1 }
  (fl.filter (·.k = 0)).foldl Chk.complete { x with fl := fl.filter (·.k ≠ 0) }

/-- A move writes CHK.CRC (09 R194, R198). -/
def Chk.writeCrc (x : Chk) (v : BitVec 32) : Chk := { x with crc := v, fl := x.fl.map fun f => { f with keep := true } }

/-- The values of a PRESET: width - 1, polynomial, initial remainder, RIN, ROUT, XO (09 R198). -/
def chkPreset (p : Nat) : Nat × BitVec 32 × BitVec 32 × Bool :=
  if p = 6 then (31, 0x1EDC6F41, 0xFFFFFFFF, true)
  else ([14, 16, 20, 12, 31].getD (p - 1) 0, (Config.canPreset p).1, (Config.canPreset p).2, false)

/-- A move writes CHK.CFG (09 R198): PRESET 1 to 6 replaces every field, POLY and the remainder. -/
def Chk.writeCfg (x : Chk) (v : W24) : Chk :=
  let p := bits v.toNat 8 3
  if 1 ≤ p && p ≤ 6 then
    let c := chkPreset p
    ({ x with wm1 := BitVec.ofNat 5 c.1, poly := c.2.1, rin := c.2.2.2, rout := c.2.2.2, xo := c.2.2.2 }).writeCrc c.2.2.1
  else { x with wm1 := v.setWidth 5, rin := v.getLsbD 5, rout := v.getLsbD 6, xo := v.getLsbD 7 }

/-- CHK.CFG as it reads: PRESET reads 0. -/
def Chk.cfg (x : Chk) : Nat := x.wm1.toNat + 32 * bit01 x.rin + 64 * bit01 x.rout + 128 * bit01 x.xo

/-! DIV (10 R212, R221). -/

/-- Quotient, remainder, V and DZ of a division on `w` bits (10 R212, R221). -/
def divide (signed : Bool) (w n m : Nat) : Nat × Nat × Bool × Bool :=
  if m = 0 then
    (if signed then (if n < 2 ^ (w - 1) then 2 ^ (w - 1) - 1 else 2 ^ (w - 1)) else 2 ^ w - 1, n, false, true)
  else if signed then
    let a := toSigned w n
    let b := toSigned w m
    (ofSigned w (Int.tdiv a b), ofSigned w (Int.tmod a b), !fitsSigned w (Int.tdiv a b), false)
  else (n / m, n % m, false, false)

/-- A division: one in flight is abandoned, and updates no chained state (08 R159, 10 R206). -/
def Div_.run (x : Div_) (signed long : Bool) (v : L48) : Div_ :=
  let w := if long then 48 else 24
  let r := divide signed w (v.toNat % 2 ^ w) (x.o.toNat % 2 ^ w)
  { x with sets := false, fl := some ⟨14, showResult w r.1, showResult w r.2.1, r.2.2.1, r.2.2.2, false⟩ }

/-- Whether a division takes the division trap under DZT (10 R222). -/
def Div_.traps (x : Div_) (long : Bool) : Bool := x.o.toNat % 2 ^ (if long then 48 else 24) = 0

/-- One unfrozen cycle of the divider; a division completes (12 R263). -/
def Div_.advance (x0 : Div_) : Div_ :=
  let x := { x0 with sdz := x0.sdz || x0.sets, sets := false }
  match x.fl with
  | none => x
  | some f =>
    if 1 < f.k then { x with fl := some { f with k := f.k - 1 } }
    else if f.keep then { x with fl := none, q := f.q, r := f.r }
    else { x with fl := none, q := f.q, r := f.r, v := f.v, dz := f.dz, sdz := x.sdz || f.dz }

/-- A move writes DIV.FLG (09 R196); a division that completes in its cycle sets SDZ all the same (00 R12, 09 R194). -/
def Div_.writeFlg (x : Div_) (v : W24) : Div_ :=
  { x with dz := v.getLsbD 0, v := v.getLsbD 1, sdz := x.sdz && !v.getLsbD 2, sets := x.sets || x.fl.any (fun f => f.k = 1 && !f.keep && f.dz),
           fl := x.fl.map fun f => { f with keep := true } }

end Sys2Proof.Machine
end

