-- ==== Sys2Proof/Machine/EngPorts.lean ====
section
/-! DEFINITION. What a move reads from a port of an engine, and what it writes to a port that only its engine's registers hold (09 R188 to R202, 11 R235,
R236, R246). -/

namespace Sys2Proof.Machine

/-! Reading (09 R190 to R202). -/

/-- CTL.MODE as it reads, from a mode coded as SUP IE DZT SAT (09 R200, 12 R262). -/
def modeRead (m : BitVec 4) : W24 :=
  BitVec.ofNat 24 (128 * bit01 (m.getLsbD 3) + 64 * bit01 (m.getLsbD 2) + 4 * bit01 (m.getLsbD 1) + 2 * bit01 (m.getLsbD 0))

/-- SMV's ports as the bundle of the present cycle sees them (11 R246). -/
def Smv.view (x : Smv) : SmvSeen :=
  match x.seen with
  | some v => v
  | none => ⟨x.q, x.src, x.dst, x.n, x.hit, x.act, none, []⟩

/-- Words of the output queue occupied (08 R179). -/
def Spu.occupancy (x : Spu) : Nat := ((x.done ++ x.build.toList).map fun b => b.words.length - b.moved).sum

/-- SPU.STAT (09 R202). -/
def Spu.stat (x : Spu) : Nat := (1024 - x.occupancy) * 4096 + min 4095 x.ring.length

/-- An LSU1 descriptor. -/
def Lsu1.descAt (x : Lsu1) (i : Nat) : Desc := x.desc.get {} i

/-- A control port as it reads; `n` is its port number. -/
def Engine.readControl (x : Engine) (n : Nat) : L48 :=
  let w := fun (v : Nat) => longOf (BitVec.ofNat 24 v)
  let d := x.lsu1.descAt x.lsu1.rsel.toNat
  if n = 0x0A8 then w x.alu0.flg.toNat
  else if n = 0x0E8 then w x.alu1.flg.toNat
  else if n = 0x128 then w (2 * bit01 x.mac.sv + bit01 x.mac.v)
  else if n = 0x129 then longOf (x.mac.acc.extractLsb' 0 24)
  else if n = 0x12A then longOf (x.mac.acc.extractLsb' 24 24)
  else if n = 0x12B then longOf ((x.mac.acc.extractLsb' 48 8).signExtend 24)
  else if n = 0x1A8 then x.chk.poly.setWidth 48
  else if n = 0x1A9 then w x.chk.cfg
  else if n = 0x1AA then BitVec.ofNat 48 (x.chk.crc.toNat % 2 ^ (x.chk.wm1.toNat + 1))
  else if n = 0x1E8 then w (4 * bit01 x.div.sdz + 2 * bit01 x.div.v + bit01 x.div.dz)
  else if n = 0x228 then w x.lsu0.sb.length
  else if n = 0x268 then w x.lsu1.rsel.toNat
  else if n = 0x269 then BitVec.ofNat 48 (d.base.toNat * 64)
  else if n = 0x26A then BitVec.ofNat 48 (d.limit.toNat * 64 + 63)
  else if n = 0x26B then w d.ctl.toNat
  else if n = 0x2A8 then longOf (modeRead x.ctl.mode)
  else if n = 0x2A9 then w x.ctl.gd.toNat
  else if n = 0x2AA then w x.ctl.link.toNat
  else if n = 0x2AB then w (x.ctl.tsp.toNat * 2)
  else if n = 0x2AC then w x.ctl.pc.toNat
  else if n = 0x2AD then w x.ctl.vbase.toNat
  else if n = 0x2AE then w x.ctl.cause.toNat
  else if n = 0x2E0 then w x.rpt.o.toNat
  else if n = 0x2E8 then (if x.rpt.n = 0 then 0 else if x.rpt.n = 1 then longOf x.rpt.c0 else longOf x.rpt.c1)
  else if n = 0x2E9 then w x.rpt.n.val
  else if n = 0x2EA then longOf x.rpt.c0
  else if n = 0x2EB then w x.rpt.s0.toNat
  else if n = 0x2EC then w x.rpt.e0.toNat
  else if n = 0x2ED then longOf x.rpt.c1
  else if n = 0x2EE then w x.rpt.s1.toNat
  else if n = 0x2EF then w x.rpt.e1.toNat
  else if n = 0x328 then w x.smv.view.src.toNat
  else if n = 0x329 then w x.smv.view.dst.toNat
  else if n = 0x32A then w x.smv.view.n.toNat
  else if n = 0x32B then longOf x.smv.pat
  else if n = 0x32C then w (2 * bit01 x.smv.view.hit + bit01 x.smv.view.act)
  else if n = 0x3A8 then w x.spu.rbase
  else if n = 0x3A9 then w x.spu.rsize
  else if n = 0x3AB then w x.spu.stat
  else 0

/-- A result port as it reads. -/
def Engine.readResult (x : Engine) (n : Nat) : L48 :=
  if n = 0x0A2 then x.alu0.q
  else if n = 0x0E2 then x.alu1.q
  else if n = 0x122 then x.mac.q
  else if n = 0x162 then x.shf.q
  else if n = 0x1A2 then x.chk.q
  else if n = 0x1E2 then x.div.q
  else if n = 0x1E3 then x.div.r
  else if n = 0x222 then x.lsu0.q
  else if n = 0x262 then x.lsu1.q
  else if n = 0x322 then longOf x.smv.view.q
  else if n = 0x362 then x.tsu.q
  else if n = 0x3A2 then longOf x.spu.q
  else 0

/-- A source port as it reads at the start of the cycle, words sign-extended (08 R153, R156, 09 R190). -/
def Engine.read (x : Engine) (n : Nat) : L48 :=
  if n < 8 then 0
  else if n < 0x10 then BitVec.ofNat 48 (bit01 (n = 8 || x.ctl.guards.getLsbD (n - 8)))
  else if n < 0x18 then x.lx.get 0 (n - 0x10)
  else if n < 0x20 then 0
  else if n < 0x40 then longOf (x.ga.get 0 (n - 0x20))
  else if n < 0x60 then longOf (x.gb.get 0 (n - 0x40))
  else if isResult n then x.readResult n
  else x.readControl n

/-! Writing. -/

/-- A guard takes bit 0 of a value; G0 stays 1 (08 R154, 09 R190). -/
def Ctl.setGuard (x : Ctl) (k : Nat) (b : Bool) : Ctl :=
  if k = 0 then x else { x with guards := (x.guards &&& ~~~(1#8 <<< k)) ||| (if b then 1#8 <<< k else 0) }

/-- A move writes CTL.MODE (09 R200, 12 R249): in task mode SUP and IE keep the mode in force. The change replaces a pending one and governs the
third unfrozen cycle on (08 R166, R167). -/
def Ctl.writeMode (x : Ctl) (v : W24) : Ctl :=
  let low := v.extractLsb' 1 2
  let top := if x.mode.getLsbD 3 then v.extractLsb' 6 2 else x.mode.extractLsb' 2 2
  { x with pend := some (3, (top ++ low : BitVec 4)) }

/-- A move writes RPT.C, C0 or C1: an active level's count-written flag is set (11 R235). -/
def Rpt.writeCount (x : Rpt) (level : Nat) (v : W24) : Rpt :=
  if level = 0 then { x with c0 := v, w0 := x.w0 || 1 ≤ x.n.val } else { x with c1 := v, w1 := x.w1 || x.n.val = 2 }

/-- A move writes a repeat port (09 R201, 11 R235, R236). -/
def Rpt.write (x : Rpt) (n : Nat) (v : W24) : Rpt :=
  if n = 0x2E0 then { x with o := v.setWidth 11 }
  else if n = 0x2E8 then (if x.n = 0 then x else x.writeCount (x.n.val - 1) v)
  else if n = 0x2EA then x.writeCount 0 v
  else if n = 0x2EB then { x with s0 := v.setWidth 11 }
  else if n = 0x2EC then { x with e0 := v.setWidth 11 }
  else if n = 0x2ED then x.writeCount 1 v
  else if n = 0x2EE then { x with s1 := v.setWidth 11 }
  else if n = 0x2EF then { x with e1 := v.setWidth 11 }
  else x

/-- A string operation ends (11 R243). -/
def Smv.finish (x : Smv) (early : Bool) : Smv :=
  { x with q := BitVec.ofNat 24 (x.n.toNat + 32768 * bit01 early), hit := early, act := false, fa := false, wait := 0 }

/-- Whether the step of the present cycle ended the operation by taking N to 0 (11 R243). -/
def Smv.ranOut (x : Smv) : Bool := x.seen.any (·.act) && !x.act && !x.hit

/-- A move writes an SMV port; N = 0 ends a running operation, and a step that took N to 0 in the same cycle ends none when the move writes another
value (11 R246). -/
def Smv.write (x : Smv) (n : Nat) (v : W24) : Smv :=
  if n = 0x328 then { x with src := v.setWidth 15 }
  else if n = 0x329 then { x with dst := v.setWidth 15 }
  else if n = 0x32A then
    let y := { x with n := v.setWidth 15 }
    if y.act && y.n = 0 then y.finish false
    else if x.ranOut && y.n ≠ 0 then { y with q := x.view.q, hit := x.view.hit, act := true }
    else y
  else if n = 0x32B then { x with pat := v }
  else x

/-- A move writes RBASE, RLIM or RCTL of the descriptor that RSEL selected at the start of the cycle (09 R199). -/
def Lsu1.writeDesc (x : Lsu1) (sel : Nat) (n : Nat) (v : L48) : Lsu1 :=
  let d := x.descAt sel
  { x with desc := x.desc.set sel (if n = 0x269 then { d with base := v.extractLsb' 6 34 } else if n = 0x26A then { d with limit := v.extractLsb' 6 34 }
      else { d with ctl := v.setWidth 3 }) }

/-- A move writes an operand port or a control port that its own engine holds; `sel` is RSEL at the start of the cycle. -/
def Engine.writeUnit (x : Engine) (sel n : Nat) (v : L48) : Engine :=
  let w := wordOf v
  if n = 0x0A0 then { x with alu0 := { x.alu0 with o1 := v } }
  else if n = 0x0A1 then { x with alu0 := { x.alu0 with o2 := v } }
  else if n = 0x0A8 then { x with alu0 := x.alu0.writeFlg w }
  else if n = 0x0E0 then { x with alu1 := { x.alu1 with o1 := v } }
  else if n = 0x0E1 then { x with alu1 := { x.alu1 with o2 := v } }
  else if n = 0x0E8 then { x with alu1 := x.alu1.writeFlg w }
  else if n = 0x120 then { x with mac := { x.mac with o := w } }
  else if n = 0x128 then { x with mac := x.mac.writeFlg w }
  else if n = 0x129 then { x with mac := x.mac.writeAcc 0 w }
  else if n = 0x12A then { x with mac := x.mac.writeAcc 1 w }
  else if n = 0x12B then { x with mac := x.mac.writeAcc 2 w }
  else if n = 0x160 then { x with shf := { x.shf with o1 := v } }
  else if n = 0x161 then { x with shf := { x.shf with o2 := w } }
  else if n = 0x1A0 then { x with chk := { x.chk with o := w } }
  else if n = 0x1A8 then { x with chk := { x.chk with poly := v.setWidth 32 } }
  else if n = 0x1A9 then { x with chk := x.chk.writeCfg w }
  else if n = 0x1AA then { x with chk := x.chk.writeCrc (v.setWidth 32) }
  else if n = 0x1E0 then { x with div := { x.div with o := v } }
  else if n = 0x1E8 then { x with div := x.div.writeFlg w }
  else if n = 0x220 then { x with lsu0 := { x.lsu0 with o := v } }
  else if n = 0x260 then { x with lsu1 := { x.lsu1 with o := v } }
  else if n = 0x268 then { x with lsu1 := { x.lsu1 with rsel := w.setWidth 3 } }
  else if 0x269 ≤ n && n ≤ 0x26B then { x with lsu1 := x.lsu1.writeDesc sel n v }
  else if n = 0x2A0 then { x with ctl := { x.ctl with o := v } }
  else if n = 0x2A8 then { x with ctl := x.ctl.writeMode w }
  else if n = 0x2A9 then { x with ctl := { x.ctl with gd := w.setWidth 3 } }
  else if n = 0x2AA then { x with ctl := { x.ctl with link := w.setWidth 11 } }
  else if n = 0x2AB then { x with ctl := { x.ctl with tsp := w.extractLsb' 1 18 } }
  else if n = 0x2AD then { x with ctl := { x.ctl with vbase := w.setWidth 11 } }
  else if n / 64 = 11 then { x with rpt := x.rpt.write n w }
  else if n / 64 = 12 then { x with smv := x.smv.write n w }
  else if n = 0x3A0 then { x with spu := { x.spu with o := w } }
  else x

/-- A move writes a guard, a register, an operand port or a control port that its own engine holds. -/
def Engine.write (x : Engine) (sel n : Nat) (v : L48) : Engine :=
  if n < 8 then x
  else if n < 0x10 then { x with ctl := x.ctl.setGuard (n - 8) (v.getLsbD 0) }
  else if n < 0x18 then { x with lx := x.lx.set (n - 0x10) v }
  else if n < 0x20 then x
  else if n < 0x40 then { x with ga := x.ga.set (n - 0x20) (wordOf v) }
  else if n < 0x60 then { x with gb := x.gb.set (n - 0x40) (wordOf v) }
  else x.writeUnit sel n v

end Sys2Proof.Machine
end

