-- ==== Sys2Proof/Machine/Xbar.lean ====
section
/-! DEFINITION. The crossbar (15): decode, region checks, error responses, configuration registers, arbitration, and what a granted request does. -/

namespace Sys2Proof.Machine

/-! Decode (15 R327 to R332). -/

/-- What an address is decoded to: a memory home with its alias operation, a register, a PCIe window, or nothing. -/
inductive Dest where
  | mem (a : Nat) (op : Fin 3)
  | reg (a : Nat)
  | pcie (k : Fin 2) (off : Nat)
  | none
  deriving DecidableEq, Repr

/-- Target of a home address. -/
def homeTarget (a : Nat) : Nat :=
  match memKind a with
  | .bootRom => 0
  | .msram => 1
  | .staging => 2 + (a - stagingBase) / 48 % 8
  | .pmem => 10 + (a - pmemBase) / 0x200000
  | .imem => 10 + (a - engBlock) / 0x800000
  | .dmem => 10 + (a - engBlock) / 0x800000
  | .dram => 42 + (a - dramBase) / 256 % 2
  | .absent => 55

/-- Target and destination of an address; `remap` is XB_MAP.REMAP (15 R327 to R331). -/
def decodeAddr (remap : Bool) (a : Nat) : Nat × Dest :=
  let mem := fun (h : Nat) (op : Fin 3) => if memKind h = .absent then (55, Dest.none) else (homeTarget h, Dest.mem h op)
  if a < 0x200000 then
    let o := a % 0x100000
    if (a < 0x100000) = (remap = false) then (if o < 0x40000 then (0, .mem o 0) else (55, .none))
    else if o < 786432 then (1, .mem (msramBase + o) 0) else (55, .none)
  else if 0x1000000 ≤ a && a < 0x1000000 + 786432 then (1, .mem (a - 0x1000000 + msramBase) 1)
  else if 0x1100000 ≤ a && a < 0x1100000 + 786432 then (1, .mem (a - 0x1100000 + msramBase) 2)
  else if 0x100000000 ≤ a && a < 0x100000000 + 75497472 then mem a 0
  else if 0x140000000 ≤ a && a < 0x140000000 + 75497472 then mem (a - 0x40000000) 1
  else if 0x180000000 ≤ a && a < 0x180000000 + 75497472 then mem (a - 0x80000000) 2
  else if 0x200000000 ≤ a && a < 0x204000000 then mem a 0
  else if 0x240000000 ≤ a && a < 0x244000000 then mem (a - 0x40000000) 1
  else if 0x280000000 ≤ a && a < 0x284000000 then mem (a - 0x80000000) 2
  else if 0x400000000 ≤ a && a < 0x409000000 then (46 + (a - 0x400000000) / 0x1000000, .reg a)
  else if engBlock ≤ a && a < 0x420000000 then
    let o := (a - engBlock) % 0x800000
    if 0x500000 ≤ o && o < 0x502000 then (10 + (a - engBlock) / 0x800000, .reg a) else mem a 0
  else if dramBase ≤ a && a < dramEnd then (42 + (a - dramBase) / 256 % 2, .mem a 0)
  else if 0x8000000000 ≤ a && a < 0xC000000000 then (44, .pcie 0 (a - 0x8000000000))
  else if 0xC000000000 ≤ a && a < 0x10000000000 then (45, .pcie 1 (a - 0xC000000000))
  else (55, .none)

/-! Region registers (14 R302 to R304). -/

/-- The value of a region register: written, or its reset value. -/
def State.rgn (s : State) (port desc reg : Nat) : BitVec 32 :=
  match Tab.find s.xbar.rgn (rgnKey port desc reg) with
  | some v => v
  | none => if 32 ≤ port && port ≤ 35 && desc = 0 then (if reg = 0 then 0 else if reg = 1 then 0xFFFFFFFF else 0xF) else 0

/-- Whether a descriptor of a port allows an access of a kind to a byte: right 1 R, 2 W, 4 X. -/
def State.rgnAllows (s : State) (port desc : Nat) (rights : Nat) (a : Nat) : Bool :=
  let c := (s.rgn port desc 2).toNat
  c / 8 % 2 = 1 && c % 8 &&& rights = rights && (s.rgn port desc 0).toNat * 256 ≤ a && a ≤ (s.rgn port desc 1).toNat * 256 + 255

/-- Rights that a request needs: only Pestle's fetches need X. -/
def xRights (write fetch : Bool) (master : Nat) : Nat := if write then 2 else if fetch && 32 ≤ master && master ≤ 35 then 5 else 1

/-- Whether every byte of an access is allowed by some descriptor of its master port. -/
def State.regionOk (s : State) (port : Nat) (rights a n : Nat) : Bool :=
  (List.range n).all fun i => (List.range 16).any fun d => s.rgnAllows port d rights (a + i)

/-! Configuration registers (15 R328 to R338, 14 R317, R318, 12 R253, R272, 18 R397, R398, R415, 19 R438, R440). -/

/-- Offset of a register in the core block, when it lies there. -/
def coreReg (a : Nat) : Option Nat := if 0x400000000 ≤ a && a < 0x401000000 then some (a - 0x400000000) else none

/-- Whether only the Pestle master ports may write a register (15 R333, CAUSE 3). -/
def pestleOnly (a : Nat) : Bool :=
  match coreReg a with
  | none => false
  | some o =>
    let r := o / 4 * 4
    r = 0 || (0x100 ≤ r && r < 0x1E0) || (0x10000 ≤ r && r < 0x10000 + 4 * 64 * 56 && (r - 0x10000) / 4 % 64 < 48) ||
    (0x20000 ≤ r && r < 0x23000 && r % 16 < 12) || r = 0x300004 || r = 0x300008 ||
    (0x100100 ≤ r && r < 0x100180) || (0x101000 ≤ r && r < 0x102000) || (0x200100 ≤ r && r < 0x200180)

/-- Reset value of XB_PRIO (15 R337). -/
def prioReset (m : Nat) : Nat :=
  if (36 ≤ m && m ≤ 40) || m = 43 then 15 else if m = 41 || m = 42 then 14 else if m < 32 then 8 else if 44 ≤ m && m ≤ 46 then 6 else if m = 47 then 1 else 4

/-- PRIO of a master at a target. -/
def State.prio (s : State) (t m : Nat) : Nat := (Tab.find s.xbar.prio (64 * t + m)).getD (prioReset m)

/-- Reset value of XB_PARK (15 R338). -/
def parkReset (t : Nat) : Nat := if 2 ≤ t && t ≤ 9 then 37 else if 42 ≤ t && t ≤ 45 then 40 else 32

/-- DEFM of a target. -/
def State.parkOf (s : State) (t : Nat) : Nat := (Tab.find s.xbar.park t).getD (parkReset t)

/-- A doorbell. -/
def State.door (s : State) (n : Nat) : Doorbell := s.pst.doors.get {} n

/-- PST_WDT as it reads: whole 10 ms periods since the last valid write, at most 10 (18 R398). -/
def State.wdtRead (s : State) (k : Nat) : Nat := min 10 ((s.now - s.pst.kicked.get s.pwr.releasedAt k) / msTicks 10)

/-- XB_ERR_INFO as it reads (15 R335). -/
def State.errInfo (s : State) : Nat :=
  match s.xbar.err.or s.xbar.lastErr with
  | none => 0
  | some e => 2 ^ 31 * bit01 s.xbar.err.isSome + e.cause.val * 65536 + 4096 * bit01 e.wr + 64 * e.master.val + e.target.val

/-- ADDR of the captured error, of 40 bits. -/
def State.errAddr (s : State) : Nat := ((s.xbar.err.or s.xbar.lastErr).map fun e => e.addr.toNat).getD 0

/-- ENG_IRQ as it reads (12 R253). -/
def Engine.irqRead (x : Engine) : Nat := 8 * bit01 x.exc.rie + 4 * bit01 (!x.spu.ring.isEmpty) + 2 * bit01 x.exc.ppend

/-- ENG_EXC as it reads (12 R272): RESUME reads 1 while the return it started runs (00 R11). -/
def Engine.excRead (x : Engine) : Nat := x.exc.esc.toNat * 256 + 64 * bit01 x.exc.handler + 16 * x.exc.st.val + bit01 x.exc.resuming

/-- A register at a multiple of 4 as it reads; none where the spec gives no register. -/
def State.regRead (s : State) (a : Nat) : Option Nat :=
  if engBlock ≤ a then
    let o := (a - engBlock) % 0x800000 - 0x500000
    let e := (a - engBlock) / 0x800000 * 32 + o / 256
    if o % 256 = 0 then some (s.engine e).irqRead else if o % 256 = 4 then some (s.engine e).excRead else none
  else if a = 0x407000000 then some (s.pwr.halt.val * 65536 + s.pwr.stepDone.val * 16)
  else match coreReg a with
  | none => none
  | some r =>
    if r = 0 then some (bit01 s.xbar.remap)
    else if r = 0x10 then some s.errInfo
    else if r = 0x14 then some (s.errAddr % 2 ^ 32)
    else if r = 0x18 then some (s.errAddr / 2 ^ 32)
    else if 0x100 ≤ r && r < 0x1E0 then some (s.parkOf ((r - 0x100) / 4))
    else if 0x10000 ≤ r && r < 0x10000 + 4 * 64 * 56 && (r - 0x10000) / 4 % 64 < 48 then some (s.prio ((r - 0x10000) / 256) ((r - 0x10000) / 4 % 64))
    else if 0x20000 ≤ r && r < 0x23000 && r % 16 < 12 then some (s.rgn ((r - 0x20000) / 256) (r / 16 % 16) (r % 16 / 4)).toNat
    else if 0x100000 ≤ r && r < 0x100010 then some (s.pst.fbase.get 0 ((r - 0x100000) / 4)).toNat
    else if 0x100010 ≤ r && r < 0x100020 then some (s.wdtRead ((r - 0x100010) / 4))
    else if 0x100100 ≤ r && r < 0x100180 then
      some ((List.range 32).foldl (fun v e => v + 2 ^ e * bit01 (s.door ((r - 0x100100) / 4 * 32 + e)).full) 0)
    else if 0x101000 ≤ r && r < 0x102000 then
      let d := s.door ((r - 0x101000) / 4)
      some (2 ^ 31 * bit01 d.full + 2 ^ 30 * bit01 d.ovr + d.msg.toNat)
    else if 0x200100 ≤ r && r < 0x200180 then some (s.pod ((r - 0x200100) / 4)).erst.toNat
    else if r = 0x300000 then some (s.mem.cel.length * 256 + 2 * bit01 s.mem.dlate + bit01 s.mem.slate)
    else if r = 0x300004 then some s.mem.injLo.toNat
    else if r = 0x300008 then some (s.mem.injHi.toNat % 2 ^ 31 + 2 ^ 31 * bit01 s.mem.inject)
    else none

/-- Home of the byte an injection names, when it lies in PMEM, the staging store, MSRAM or the IMEM window (14 R318). -/
def injHome (remap : Bool) (lo hi : BitVec 32) : Option Nat :=
  match decodeAddr remap (lo.toNat + 2 ^ 32 * (hi.toNat % 256)) with
  | (_, .mem h _) => if memKind h = .pmem || memKind h = .staging || memKind h = .msram || memKind h = .imem then some h else none
  | _ => none

/-- Home of the byte an armed injection waits for. -/
def State.armed (s : State) : Option Nat := if s.mem.inject then injHome s.xbar.remap s.mem.injLo s.mem.injHi else none

/-- Write ENG_IRQ (12 R253): W1C and PSET of PPEND, a set winning, and RIE; `mask` holds the bits of the bytes written. -/
def State.wEngIrq (s : State) (e v mask : Nat) : State :=
  let x := s.engine e
  let on := fun b => bits v b 1 = 1 && bits mask b 1 = 1
  s.setEngine e { x with exc := { x.exc with
    rie := if bits mask 3 1 = 1 then bits v 3 1 = 1 else x.exc.rie
    ppend := if on 0 then true else if on 1 then false else x.exc.ppend } }

/-- RESUME of an engine halted after escalation: the return of 12 R270, from its wait for outstanding work on, begins (12 R272). -/
def Engine.resume (x : Engine) : Engine :=
  if x.exc.st = 1 then { x with exc := { x.exc with st := 0, restore := true, resuming := true } } else x

/-- Write ENG_EXC (12 R272). -/
def State.wEngExc (s : State) (e v mask : Nat) : State :=
  let x := s.engine e
  let y := if bits mask 8 1 = 1 then { x with exc := { x.exc with esc := BitVec.ofNat 8 (v / 256) } } else x
  s.setEngine e (if bits v 0 1 = 1 && bits mask 0 1 = 1 then y.resume else y)

/-- Write GRN_INJ_HI (14 R318). -/
def State.wInjHi (s : State) (v mask : Nat) : State :=
  let hi := BitVec.ofNat 32 (v &&& 0x5E0000FF)
  let s1 := { s with mem := { s.mem with injHi := hi } }
  if bits v 31 1 = 1 && bits mask 31 1 = 1 && (injHome s.xbar.remap s.mem.injLo hi).isSome then { s1 with mem := { s1.mem with inject := true } } else s1

/-- Write a doorbell register: FULL and OVR are W1C (18 R415). -/
def State.wDoor (s : State) (n v mask : Nat) : State :=
  let d := s.door n
  let on := fun b => bits v b 1 = 1 && bits mask b 1 = 1
  { s with pst := { s.pst with doors := s.pst.doors.set n { d with full := d.full && !on 31, ovr := d.ovr && !on 30 } } }

/-- Write a register at a multiple of 4: `v` is its new value with the bytes not covered as they read, `mask` the bits of the bytes covered (15 R329).
Reserved and read-only fields keep. -/
def State.regWrite (s : State) (a v mask : Nat) : State :=
  if engBlock ≤ a then
    let o := (a - engBlock) % 0x800000 - 0x500000
    let e := (a - engBlock) / 0x800000 * 32 + o / 256
    if o % 256 = 0 then s.wEngIrq e v mask else if o % 256 = 4 then s.wEngExc e v mask else s
  else match coreReg a with
  | none => s
  | some r =>
    if r = 0 then { s with xbar := { s.xbar with remap := v % 2 = 1 } }
    else if r = 0x10 then (if bits v 31 1 = 1 && bits mask 31 1 = 1 then { s with xbar := { s.xbar with err := none, lastErr := s.xbar.err.or s.xbar.lastErr } } else s)
    else if 0x100 ≤ r && r < 0x1E0 then { s with xbar := { s.xbar with park := s.xbar.park.set ((r - 0x100) / 4) (v % 64) } }
    else if 0x10000 ≤ r && r < 0x10000 + 4 * 64 * 56 && (r - 0x10000) / 4 % 64 < 48 then
      { s with xbar := { s.xbar with prio := s.xbar.prio.set ((r - 0x10000) / 4) (v % 16) } }
    else if 0x20000 ≤ r && r < 0x23000 && r % 16 < 12 then
      { s with xbar := { s.xbar with rgn := s.xbar.rgn.set (r - 0x20000) (BitVec.ofNat 32 (if r % 16 = 8 then v % 16 else v)) } }
    else if 0x100000 ≤ r && r < 0x100010 then { s with pst := { s.pst with fbase := s.pst.fbase.set ((r - 0x100000) / 4) (BitVec.ofNat 25 v) } }
    else if 0x100010 ≤ r && r < 0x100020 then
      (if v % 256 = 0x5A && bits mask 0 1 = 1 then { s with pst := { s.pst with kicked := s.pst.kicked.set ((r - 0x100010) / 4) s.now } } else s)
    else if 0x101000 ≤ r && r < 0x102000 then s.wDoor ((r - 0x101000) / 4) v mask
    else if 0x200100 ≤ r && r < 0x200180 then s.setErst ((r - 0x200100) / 4) (BitVec.ofNat 32 v)
    else if r = 0x300000 then
      { s with mem := { s.mem with dlate := s.mem.dlate && !(bits v 1 1 = 1 && bits mask 1 1 = 1), slate := s.mem.slate && !(bits v 0 1 = 1 && bits mask 0 1 = 1) } }
    else if r = 0x300004 then { s with mem := { s.mem with injLo := BitVec.ofNat 32 v } }
    else if r = 0x300008 then s.wInjHi v mask
    else s

/-- Read bytes of configuration space; a byte where the spec gives no register is a free value. -/
def State.readRegs (s : State) (a n : Nat) : State × List Byte :=
  (List.range n).foldl (fun (t : State × List Byte) i =>
    match t.1.regRead ((a + i) / 4 * 4) with
    | some v => (t.1, t.2 ++ [BitVec.ofNat 8 (v / 256 ^ ((a + i) % 4))])
    | none => let d := t.1.draw 2
              (d.2, t.2 ++ [BitVec.ofNat 8 d.1])) (s, [])

/-- Write bytes of configuration space, register by register in address order, over at most `k` registers. -/
def State.writeRegs (s : State) (a : Nat) (l : List Byte) : Nat → State
  | 0 => s
  | k + 1 =>
    if l.isEmpty then s
    else
      let r := a / 4 * 4
      let m := min l.length (r + 4 - a)
      let old := leBytes 4 ((s.regRead r).getD 0)
      let new := old.take (a - r) ++ l.take m ++ old.drop (a - r + m)
      let mask := leNat (zeros (a - r) ++ List.replicate m 0xFF)
      State.writeRegs (s.regWrite r (leNat new) mask) (r + 4) (l.drop m) k

/-! Reads and writes of rows. -/

/-- Read `n` bytes from a home address on, row by row, over at most `k` rows. -/
def State.readRows (s : State) (a n : Nat) : Nat → State × Option (List Byte)
  | 0 => (s, some [])
  | k + 1 =>
    if n = 0 then (s, some [])
    else
      let r := memRow a
      let m := min n (r.1 + r.2 - a)
      match s.readMem a m with
      | (s1, none) => (s1, none)
      | (s1, some l) =>
        match State.readRows s1 (a + m) (n - m) k with
        | (s2, none) => (s2, none)
        | (s2, some t) => (s2, some (l ++ t))

/-- Write bytes from a home address on, row by row, through a window of an alias operation, over at most `k` rows. -/
def State.writeRows (s : State) (op a : Nat) (l : List Byte) : Nat → State × Bool
  | 0 => (s, true)
  | k + 1 =>
    if l.isEmpty then (s, true)
    else
      let r := memRow a
      let m := min l.length (r.1 + r.2 - a)
      match s.writeAlias s.armed op a (l.take m) with
      | (s1, false) => (s1, false)
      | (s1, true) => State.writeRows s1 op (a + m) (l.drop m) k

/-! LSU1 at the pod's own PMEM (08 R172 to R174). -/

/-- Add synchronous causes that fall due at the next boundary (12 R250). -/
def Engine.raise (x : Engine) (code : Byte) : Engine := { x with exc := { x.exc with due := x.exc.due ||| code } }

/-- The value that loaded bytes give (10 R213). -/
def loadValue (signed : Bool) (l : List Byte) : L48 :=
  if signed then BitVec.ofInt 48 (toSigned (8 * l.length) (leNat l)) else BitVec.ofNat 48 (leNat l)

/-- The home and alias operation of an access of `n` bytes that lies in the engine's own PMEM. -/
def ownPmem (remap : Bool) (e a n : Nat) : Option (Nat × Fin 3) :=
  match decodeAddr remap a with
  | (_, .mem h op) =>
    if e < 1024 && memKind h = .pmem && (h - pmemBase) / 0x200000 = e / 32 && memKind (h + n - 1) = .pmem then some (h, op) else none
  | _ => none

/-- An LSU1 access whose outcome has come: a load holds it for its count, and gives it at once when the engine waits for it; an error of a store is
raised, in an entry that runs by joining it (10 R214, 12 R250, R257). -/
def Engine.arrive1 (x : Engine) (f : L1Fl) (rest : List L1Fl) (err : Bool) (l : List Byte) : Engine :=
  let v := loadValue f.signed l
  let put := fun (y : Engine) (fl : List L1Fl) => { y with lsu1 := { y.lsu1 with fl := fl } }
  if f.load then
    if f.k = 0 then (if err then put (x.raise 64) rest else put { x with lsu1 := { x.lsu1 with q := v } } rest)
    else put x ({ f with st := if err then .busError else .data, val := v } :: rest)
  else
    let y := put x rest
    if err then
      match y.exc.entry with
      | some n => { y with exc := { y.exc with entry := some { n with irq := none, code := n.code ||| 0x80, detail := if n.irq.isSome then 0 else n.detail } } }
      | none => y.raise 0x80
    else y

/-- The outcome of an access is put where it stands among the others. -/
def Engine.settle1 (x : Engine) (pre : List L1Fl) (f : L1Fl) (post : List L1Fl) (err : Bool) (l : List Byte) : Engine :=
  let y := x.arrive1 f post err l
  { y with lsu1 := { y.lsu1 with fl := pre ++ y.lsu1.fl } }

/-- Whether an access still waits for responses, or is held behind one that does. -/
def L1Fl.open_ (f : L1Fl) : Bool := f.st = .waitData || f.st = .held

/-- The accesses of an engine complete in trigger order: one that was held is performed once no earlier one is open (08 R173); at most `k` of them. -/
def State.unhold (s : State) (e : Nat) : Nat → State
  | 0 => s
  | k + 1 =>
    let x := s.engine e
    let pre := x.lsu1.fl.takeWhile (!·.open_)
    match x.lsu1.fl.dropWhile (!·.open_) with
    | [] => s
    | f :: post =>
      if f.st = .held then
        match ownPmem s.xbar.remap e f.addr.toNat f.len with
        | none => s
        | some h =>
          if f.load then
            match s.readRows h.1 f.len 3 with
            | (s1, none) => s1
            | (s1, some l) => State.unhold (s1.setEngine e ((s1.engine e).settle1 pre f post false l)) e k
          else
            match s.writeRows h.2.val h.1 (leBytes f.len f.val.toNat) 3 with
            | (s1, false) => s1
            | (s1, true) => State.unhold (s1.setEngine e ((s1.engine e).settle1 pre f post false [])) e k
      else s

/-! Error responses (15 R333 to R335). -/

/-- Put bytes at an offset among those that came. -/
def putAt (l : List Byte) (o : Nat) (d : List Byte) : List Byte := slice l 0 o ++ d ++ l.drop (o + d.length)

/-- Deliver a response of the crossbar to an engine: it goes to the access whose request it answers, at the offset of the request's first byte; a store
whose last response carries no error is complete, and so is one that its engine's reset has left on its own (08 R157). -/
def giveResp (w : XReq) (err : Bool) (d : List Byte) : List L1Fl → List L1Fl
  | [] => []
  | f :: t =>
    let o := w.addr.toNat - f.addr.toNat
    if f.st = .waitData && f.tag = w.tag && f.need.contains o then
      let left := f.need.filter fun i => i < o || o + w.len.val ≤ i
      if !f.load && left.isEmpty && (f.past || (!err && !f.err)) then t
      else { f with need := left, err := f.err || err, got := putAt f.got o d } :: t
    else f :: giveResp w err d t

/-- A response to a master: to the engine whose LSU1 asked, or out of the model's view (15 R333). -/
def State.respond (s : State) (w : XReq) (eng : Option Nat) (err : Bool) (d : List Byte) : State :=
  match eng with
  | some e => let x := s.engine e
              (s.setEngine e { x with lsu1 := { x.lsu1 with fl := giveResp w err d x.lsu1.fl } }).unhold e 8
  | none => s.send (.response w.master.val w.tag err d)

/-- Subindex of the counter of a cause (15 R339). -/
def causeSub (c : Nat) : Nat := if c = 1 then 2 else if c = 2 then 3 else 1

/-- Whether a log limited to once per second under a key of a table is due. -/
def dueAt (now : Nat) (t : Tab Nat) (k : Nat) : Bool := onceASecond now (Tab.find t k)

/-- What an error response means to a data-plane master: its record or block is treated as an uncorrectable one on its path. That path is the staging store,
whose errors reset the chip, or DRAM, whose errors do so on the session-store path and for replay (15 R333, 14 R297, R313). -/
def State.dataFailed (s : State) (m a : Nat) : State :=
  if (36 ≤ m && m ≤ 40) || m = 43 || m = 45 || m = 46 then
    match decodeAddr s.xbar.remap a with
    | (_, .mem h _) => if memKind h = .dram && !s.dramPath m h then s else s.warmReset 2
    | _ => s.warmReset 2
  else s

/-- An error response: captured when nothing is, counted, logged at most once per master and second (15 R333, R335). -/
def State.xError (s : State) (w : XReq) (eng : Option Nat) (cause target : Nat) : State :=
  let m := w.master.val
  let s1 := match s.xbar.err with
    | some _ => s
    | none => { s with xbar := { s.xbar with err := some ⟨Fin.ofNat 4 cause, w.write, w.master, Fin.ofNat 56 target, w.addr⟩ } }
  let s2 := s1.bump 0x2950 (causeSub cause)
  let s3 := if dueAt s2.now s2.xbar.errLogAt m then
      ({ s2 with xbar := { s2.xbar with errLogAt := s2.xbar.errLogAt.set m s2.now } }).logCount 3 0x2950 (causeSub cause)
    else s2
  (s3.respond w eng true (if w.write then [] else zeros w.len.val)).dataFailed m w.addr.toNat

/-- Whether a target's port is closed: its domain is powered down (15 R334). -/
def State.targetClosed (s : State) (t : Nat) : Bool := s.xbar.closed.contains t || (10 ≤ t && t ≤ 41 && !(s.pod (t - 10)).powered)

/-- Whether a PCIe controller takes an outbound request (15 R332). -/
def pcieTakes (k : Fin 2) (off : Nat) : Bool := !Config.pcieEndpoint k.val && Config.pcieEnabled k.val off

/-- Why a target does not take a request: CAUSE 3 of R333. -/
def refusedByTarget (w : XReq) (d : Dest) : Bool :=
  match d with
  | .mem a _ => w.write && memKind a = .bootRom
  | .pcie k off => !pcieTakes k off
  | .reg a => w.write && (w.master.val < 32 || 35 < w.master.val) && (List.range w.len.val).any fun i => pestleOnly (a + i)
  | .none => false

/-- Whether requests that come from outside the engines are checked at their master port: not those of a pod's Mill and transfer engines (14 R302). -/
def checked (w : XReq) (eng : Option Nat) : Bool := eng.isSome || 32 ≤ w.master.val

/-- The cause of an error response to a request, the lowest-numbered that applies (15 R333). -/
def State.xCause (s : State) (w : XReq) (eng : Option Nat) : Option (Nat × Nat) :=
  let d := decodeAddr s.xbar.remap w.addr.toNat
  if d.2 = .none then some (0, 55)
  else if checked w eng && !s.regionOk w.master.val (xRights w.write w.fetch w.master.val) w.addr.toNat w.len.val then some (1, d.1)
  else if s.targetClosed d.1 then some (2, d.1)
  else if refusedByTarget w d.2 then some (3, d.1)
  else none

/-! Acceptance (15 R326). -/

/-- Whether a request is a crossbar transaction: 1 to 64 bytes within one aligned 64-byte block, with its data when it writes. -/
def xForm (w : XReq) : Bool :=
  1 ≤ w.len.val && w.addr.toNat / 64 = (w.addr.toNat + w.len.val - 1) / 64 && (if w.write then w.data.length = w.len.val else w.data = [])

/-- The parts of a staging-store request, one for each line it touches (15 R326). -/
def lineParts (w : XReq) (h : Nat) : List (XReq × Nat) :=
  let first := 48 - (h - stagingBase) % 48
  let n := w.len.val
  if n ≤ first then [(w, h)]
  else
    let cut := fun o m => ({ w with addr := w.addr + BitVec.ofNat 40 o, len := Fin.ofNat 65 m, data := (w.data.drop o).take m }, h + o)
    if n ≤ first + 48 then [cut 0 first, cut first (n - first)] else [cut 0 first, cut first 48, cut (first + 48) (n - first - 48)]

/-- Put a request among those waiting at a target. -/
def State.xWait (s : State) (t : Nat) (w : XWait) : State :=
  { s with xbar := { s.xbar with waiting := s.xbar.waiting.set t (Tab.get [] s.xbar.waiting t ++ [w]) } }

/-- A master port accepts a request: an error response, or it waits at its target (15 R326, R333). -/
def State.xAccept (s : State) (w : XReq) (eng : Option Nat) : State :=
  if xForm w then
    match s.xCause w eng with
    | some c => s.xError w eng c.1 c.2
    | none =>
      match decodeAddr s.xbar.remap w.addr.toNat with
      | (_, .mem h op) =>
        if memKind h = .staging then (lineParts w h).foldl (fun t p => t.xWait (homeTarget p.2) ⟨p.1, p.2, op, eng⟩) s
        else s.xWait (homeTarget h) ⟨w, h, op, eng⟩
      | (t, .reg a) => s.xWait t ⟨w, a, 0, eng⟩
      | (t, .pcie _ _) => s.xWait t ⟨w, w.addr.toNat, 0, eng⟩
      | (_, .none) => s
  else s

/-! What a granted request does. -/

/-- A granted request at the byte memory. -/
def State.xMemory (s : State) (w : XWait) : State :=
  if memKind w.home = .dram then
    if w.req.write then
      match s.writeDram w.home w.req.data 4 with
      | (s1, true) => s1.respond w.req w.eng false []
      | (s1, false) => (s1.dramFailed w.req.master.val w.home).respond w.req w.eng true []
    else
      match s.readDram w.home w.req.len.val 4 with
      | (s1, some l) => s1.respond w.req w.eng false l
      | (s1, none) => (s1.dramFailed w.req.master.val w.home).respond w.req w.eng true (zeros w.req.len.val)
  else if w.req.write then
    match s.writeRows w.op.val w.home w.req.data 16 with
    | (s1, true) => s1.respond w.req w.eng false []
    | (s1, false) => s1.respond w.req w.eng true []
  else
    match s.readRows w.home w.req.len.val 16 with
    | (s1, some l) => s1.respond w.req w.eng false l
    | (s1, none) => s1.respond w.req w.eng true (zeros w.req.len.val)

/-- Carry out a granted request (15 R326 to R332). The completion of an outbound PCIe read comes from outside. -/
def State.perform (s : State) (w : XWait) : State :=
  if 0x8000000000 ≤ w.home && w.home < 0x10000000000 then
    let s1 := s.send (.pcie (if w.home < 0xC000000000 then 0 else 1) w.req.write (w.home % 0x4000000000) w.req.data)
    if w.req.write then s1.respond w.req w.eng false [] else s1
  else if (0x400000000 ≤ w.home && w.home < 0x409000000) || (engBlock ≤ w.home && memKind w.home = .absent) then
    if w.req.write then (s.writeRegs w.home w.req.data 17).respond w.req w.eng false []
    else let r := s.readRegs w.home w.req.len.val
         r.1.respond w.req w.eng false r.2
  else s.xMemory w

/-! Arbitration (15 R336). -/

/-- The masters with a request waiting. -/
def waitMasters (l : List XWait) : List Nat := l.map fun w => w.req.master.val

/-- Highest priority among the masters waiting at a target. -/
def State.topPrio (s : State) (t : Nat) (l : List XWait) : Nat := ((waitMasters l).map (s.prio t)).foldl max 0

/-- Whether a request waits for a router write into the same engine's DMEM, which its bank serves first (14 R299). -/
def State.routerFirst (s : State) (h : Nat) : Bool :=
  memKind h = .dmem && h < pdmemBase && (s.pod ((h - engBlock) / 0x800000)).arrival.any fun q =>
    q.eng = (h - engBlock) / 0x800000 * 32 + ((h - engBlock) % 0x800000 - 0x100000) / 0x20000

/-- The master granted among those waiting: highest PRIO, then round-robin from after the one last granted at that PRIO. -/
def State.pickMaster (s : State) (t : Nat) (l : List XWait) : Option Nat :=
  let p := s.topPrio t l
  let c := (waitMasters l).filter fun m => s.prio t m = p
  let from_ := match Tab.find s.xbar.lastGrant (16 * t + p) with
    | some m => m + 1
    | none => 0
  ((List.range 48).map fun i => (from_ + i) % 48).find? fun m => c.contains m

/-- Take the oldest request of a master out of a waiting list. -/
def takeOf (m : Nat) : List XWait → Option (XWait × List XWait)
  | [] => none
  | w :: t =>
    if w.req.master.val = m then some (w, t)
    else match takeOf m t with
      | none => none
      | some r => some (r.1, w :: r.2)

/-- Grant a master's oldest request at a target. -/
def State.grantTo (s : State) (t m : Nat) : State :=
  match takeOf m (Tab.get [] s.xbar.waiting t) with
  | none => s
  | some r =>
    ({ s with xbar := { s.xbar with waiting := if r.2.isEmpty then s.xbar.waiting.erase t else s.xbar.waiting.set t r.2,
                                    lastGrant := s.xbar.lastGrant.set (16 * t + s.prio t m) m,
                                    granted := if s.xbar.granted.contains t then s.xbar.granted else t :: s.xbar.granted } }).perform r.1

/-- Whether the crossbar runs: from the release of reset on, and at a boot halt, for debug access (19 R440). -/
def State.xbarOn (s : State) : Bool := (s.pwr.boot = .up || s.pwr.boot = .halted) && s.pwr.st.val ≤ 1

/-- One cycle of a target port (15 R336): requests of this cycle arrive; of those waiting before it one is granted, or the park master's of this cycle
when the target was idle. An error of this cycle is captured although the granted request clears VALID (00 R12, 15 R335). -/
def State.xCycle (s : State) (t : Nat) (arrivals : List XReq) : State :=
  let before := Tab.get [] s.xbar.waiting t
  let idle := before.isEmpty && !s.xbar.granted.contains t
  let pick := s.pickMaster t (before.filter fun w => !s.routerFirst w.home)
  let s1 := ((List.range 48).flatMap fun m => arrivals.filter (·.master.val = m)).foldl (fun u w => u.xAccept w none)
    { s with xbar := { s.xbar with err := none } }
  let fresh := s1.xbar.err
  if !s1.xbarOn then s1
  else
    let s2 := { s1 with xbar := { s1.xbar with granted := s1.xbar.granted.filter (· != t), err := s.xbar.err.or fresh } }
    let s3 := match pick with
      | some m => s2.grantTo t m
      | none => if idle && (waitMasters (Tab.get [] s2.xbar.waiting t)).contains (s2.parkOf t) then s2.grantTo t (s2.parkOf t) else s2
    if s3.xbarOn then { s3 with xbar := { s3.xbar with err := s3.xbar.err.or fresh } } else s3

/-- XBAR_GRANT (15 R336). -/
def execXbarGrant (target : Fin 56) (arrivals : List XReq) (s : State) : Host.Outcome State Fault Refusal :=
  .next (if s.xbarOn then s.xCycle target.val arrivals else s)

/-- A request of a master has waited 65,536 cycles at a target (15 R336). -/
def State.starved (s : State) (t m : Nat) : State :=
  if (waitMasters (Tab.get [] s.xbar.waiting t)).contains m then
    let s1 := s.bump 0x2950 4
    if dueAt s1.now s1.xbar.starveLogAt t then
      ({ s1 with xbar := { s1.xbar with starveLogAt := s1.xbar.starveLogAt.set t s1.now } }).logCount 3 0x2950 4
    else s1
  else s

/-- XBAR_STARVATION (15 R336). -/
def execXbarStarvation (target : Fin 56) (master : MasterN) (s : State) : Host.Outcome State Fault Refusal := .next (s.starved target.val master.val)

/-- A router or inbound transfer has waited 65,536 pod cycles for a bank (14 R299). -/
def State.transferStarved (s : State) (p : Nat) : State :=
  let s1 := s.bump (0x2A01 + p) 7
  if dueAt s1.now s1.xbar.starveLogAt (64 + p) then
    ({ s1 with xbar := { s1.xbar with starveLogAt := s1.xbar.starveLogAt.set (64 + p) s1.now } }).logCount 3 (0x2A01 + p) 7
  else s1

/-- Whether a router or inbound transfer waits at a pod. -/
def State.transferWaits (s : State) (p : Nat) : Bool := !(s.pod p).arrival.isEmpty || !(Tab.get [] s.xbar.waiting (10 + p)).isEmpty

/-- TRANSFER_STARVATION (14 R299). -/
def execTransferStarvation (pod : PodN) (s : State) : Host.Outcome State Fault Refusal :=
  .next (if s.podUp pod.val && s.transferWaits pod.val then s.transferStarved pod.val else s)

/-! Register writes that are rows of their own: a granted write of one register by a master, with the checks of its port. -/

/-- A granted access of a master: an error response, or its effect. -/
def State.transact (s : State) (w : XReq) : State :=
  if s.xbarOn then
    match s.xCause w none with
    | some c => s.xError w none c.1 c.2
    | none =>
      match decodeAddr s.xbar.remap w.addr.toNat with
      | (_, .mem h op) =>
        if memKind h = .staging then (lineParts w h).foldl (fun t p => t.perform ⟨p.1, p.2, op, none⟩) s else s.perform ⟨w, h, op, none⟩
      | (_, .none) => s
      | (_, _) => s.perform ⟨w, w.addr.toNat, 0, none⟩
  else s

/-- A write of one 32-bit register. -/
def regReq (m : MasterN) (a : Nat) (v : BitVec 32) : XReq := ⟨m, BitVec.ofNat 40 a, true, false, 4, leBytes 4 v.toNat, 0⟩

/-- A write of one register by a master. -/
def State.wReg (s : State) (m : MasterN) (a : Nat) (v : BitVec 32) : State := s.transact (regReq m a v)

/-- XB_MAP_WRITE (15 R328). -/
def execXbMapWrite (master : MasterN) (v : BitVec 32) (s : State) : Host.Outcome State Fault Refusal := .next (s.wReg master 0x400000000 v)

/-- XB_RGN_WRITE (14 R304). -/
def execXbRgnWrite (master : MasterN) (port : MasterN) (desc : Fin 16) (reg : Fin 3) (v : BitVec 32) (s : State) : Host.Outcome State Fault Refusal :=
  .next (s.wReg master (0x400020000 + rgnKey port.val desc.val reg.val) v)

/-- XB_ARBITRATION_WRITE (15 R338): XB_PARK of a target, or XB_PRIO of a master at a target. -/
def execXbArbitrationWrite (master : MasterN) (park : Bool) (port : MasterN) (target : Fin 56) (v : BitVec 32) (s : State) :
    Host.Outcome State Fault Refusal :=
  .next (s.wReg master (if park then 0x400000100 + 4 * target.val else 0x400010000 + 4 * (64 * target.val + port.val)) v)

/-- XB_ERR_INFO_CLEAR (15 R335). -/
def execXbErrInfoClear (master : MasterN) (v : BitVec 32) (s : State) : Host.Outcome State Fault Refusal := .next (s.wReg master 0x400000010 v)

/-- GRN_INJ_ARM (14 R318): GRN_INJ_LO, then GRN_INJ_HI. -/
def execGrnInjArm (master : MasterN) (lo : BitVec 32) (hi : BitVec 32) (s : State) : Host.Outcome State Fault Refusal :=
  .next ((s.wReg master 0x400300004 lo).wReg master 0x400300008 hi)

/-- PCC_ERST_WRITE (19 R438). -/
def execPccErstWrite (master : MasterN) (pod : PodN) (v : BitVec 32) (s : State) : Host.Outcome State Fault Refusal :=
  .next (s.wReg master (0x400200100 + 4 * pod.val) v)

/-- PST_FBASE_WRITE (18 R397). -/
def execPstFbaseWrite (master : MasterN) (k : Fin 4) (v : BitVec 32) (s : State) : Host.Outcome State Fault Refusal :=
  .next (s.wReg master (0x400100000 + 4 * k.val) v)

/-- WATCHDOG_KICK (18 R398): Pestle engine `k` writes its watchdog register. -/
def execWatchdogKick (k : Fin 4) (v : BitVec 32) (s : State) : Host.Outcome State Fault Refusal :=
  .next (s.wReg ⟨32 + k.val, by omega⟩ (0x400100010 + 4 * k.val) v)

/-- Address of a register of an engine's control block (15 R329). -/
def engReg (e off : Nat) : Nat := engBlock + e / 32 * 0x800000 + 0x500000 + e % 32 * 0x100 + off

/-- ENG_IRQ_WRITE (12 R253). -/
def execEngIrqWrite (master : MasterN) (eng : Fin 1024) (v : BitVec 32) (s : State) : Host.Outcome State Fault Refusal :=
  .next (s.wReg master (engReg eng.val 0) v)

/-- ENG_EXC_RESUME (12 R272): RESUME is written with ESC as it stands. -/
def execEngExcResume (master : MasterN) (eng : Fin 1024) (s : State) : Host.Outcome State Fault Refusal :=
  .next (s.wReg master (engReg eng.val 4) (BitVec.ofNat 32 ((s.engine eng.val).exc.esc.toNat * 256 + 1)))

end Sys2Proof.Machine
end

