-- ==== Sys2Proof/Machine/EngMem.lean ====
section
/-! DEFINITION. LSU0, LSU1, SMV and SPU of an engine at the memories, the stream router and the output queue (08 R168 to R179, 10 R213, R214, R217, R218,
R226 to R231, 11 R241 to R247), doorbells (12 R274) and bundle fetch (08 R162). -/

namespace Sys2Proof.Machine

/-! Shared. -/

/-- Length in bytes and sign extension of an LSU subcode (10 R213). -/
def lsuForm (sub : Nat) : Nat × Bool :=
  match sub with
  | 0 => (1, true)
  | 1 => (1, false)
  | 2 => (3, true)
  | 3 => (6, false)
  | 8 => (1, false)
  | 9 => (3, false)
  | _ => (6, false)

/-- Whether an LSU subcode loads. -/
def lsuLoads (sub : Nat) : Bool := sub < 8

/-- Ring an engine's doorbell (12 R274, 18 R415). -/
def State.ring (s : State) (e : Nat) (msg : W24) : State :=
  if e < 1024 then
    let d := s.door e
    { s with pst := { s.pst with doors := s.pst.doors.set e ⟨true, d.ovr || d.full, msg⟩ } }
  else s

/-- Count router drops of an engine's pod (0x2A01:05 on). -/
def State.engDrops (s : State) (e n : Nat) : State := if e < 1024 then s.bumpBy (0x2A01 + e / 32) 5 4 n else s

/-! Fetch (08 R162, 18 R396, R397). -/

/-- What a read of 16 bytes gives as a bundle. -/
def asBundle (r : State × Option (List Byte)) : State × Option (BitVec 128) := (r.1, r.2.map fun l => BitVec.ofNat 128 (leNat l))

/-- The fetch request of a Pestle engine (15 R326). -/
def fetchReq (e a : Nat) : XReq := ⟨Fin.ofNat 48 (e - 1024 + 32), BitVec.ofNat 40 a, false, true, 16, [], 0⟩

/-- A fetch met an error response: the bundle does not come, and its boundary takes the bus-error exception (15 R333). -/
def State.fetchBad (s : State) (e n : Nat) : State := s.setEngine e { s.engine e with pfBad := some n }

/-- What a Pestle engine's fetch reads at a destination; none when no data comes. -/
def State.fetchFrom (s : State) (d : Dest) : State × Option (List Byte) :=
  match d with
  | .mem h _ => if memKind h = .dram then s.readDram h 16 4 else s.readRows h 16 8
  | .reg a => let r := s.readRegs a 16
              (r.1, some r.2)
  | _ => (s, none)

/-- Whether an earlier request of a master waits at a target: a later one to it is not served before (15 R326). -/
def State.behind (s : State) (m t : Nat) : Bool := (Tab.get [] s.xbar.waiting t).any fun w => w.req.master.val = m

/-- Read a bundle of an engine: from its IMEM, or, of a Pestle engine, through its master port with the X right, behind the requests that the port has
waiting at the target; none when it does not come. -/
def State.fetch (s : State) (e : Nat) (n : Nat) : State × Option (BitVec 128) :=
  if e < 1024 then asBundle (s.readMem (imemAddr e n 0) 16)
  else
    let a := (s.engine e).fbase.toNat * 32768 + 16 * n
    let d := decodeAddr s.xbar.remap a
    if (s.engine e).pfBad = some n || s.behind (e - 1024 + 32) d.1 then (s, none)
    else match s.xCause (fetchReq e a) none with
      | some c => ((s.xError (fetchReq e a) none c.1 c.2).fetchBad e n, none)
      | none =>
        match d.2, s.fetchFrom d.2 with
        | .mem h _, (s1, none) => if memKind h = .dram then ((s1.dramFailed (e - 1024 + 32) h).fetchBad e n, none) else (s1, none)
        | _, r => asBundle r

/-! LSU0 (08 R168 to R170, 10 R213, R226). -/

/-- DMEM bytes an LSU0 access covers, as offset and length; none when it is refused. -/
def lsu0Range (sub : Nat) (v : W24) : Option (Nat × Nat) :=
  let n := (lsuForm sub).1
  let w := v.toNat % 32768
  let k := bits v.toNat 15 2
  if n = 1 then (if w < 24576 && k < 3 then some (3 * w + k, 1) else none)
  else if 3 * w + n ≤ 73728 then some (3 * w, n) else none

/-- Whether an access is a split long access in DMEM (10 R226). -/
def dmemSplit (off len : Nat) : Bool := len = 6 && off / 3 % 2 = 1

/-- A store trigger: its entry joins the buffer, or waits for room (08 R168, R169). -/
def Engine.store0 (x : Engine) (e sub : Nat) (v : W24) : Engine :=
  match lsu0Range sub v with
  | none => x.raise 8
  | some r =>
    let b : SbEntry := ⟨dmemAddr e 0 r.1, leBytes r.2 x.lsu0.o.toNat, dmemSplit r.1 r.2⟩
    if x.lsu0.sb.length < 4 then { x with lsu0 := { x.lsu0 with sb := x.lsu0.sb ++ [b] } } else { x with lsu0 := { x.lsu0 with stWait := some b } }

/-- Whether a store-buffer entry shares a byte with an access. -/
def SbEntry.meets (b : SbEntry) (a n : Nat) : Bool := b.addr < a + n && a < b.addr + b.bytes.length

/-- Whether a store-buffer entry holds every byte of an access. -/
def SbEntry.holds (b : SbEntry) (a n : Nat) : Bool := b.addr ≤ a && a + n ≤ b.addr + b.bytes.length

/-- Position, counted from 1 at the oldest, of the newest entry that overlaps an access. -/
def newestOverlap (l : List SbEntry) (a n : Nat) : Option (Nat × SbEntry) :=
  (l.zipIdx.reverse.find? fun p => p.1.meets a n).map fun p => (p.2 + 1, p.1)

/-- A load is in flight with its data, 2 unfrozen cycles from its result at the next boundary (08 R158). -/
def Engine.loaded0 (x : Engine) (d : Option L48) : Engine := { x with lsu0 := { x.lsu0 with fl := x.lsu0.fl ++ [⟨2, d⟩] } }

/-- DMEM banks of the words that some bytes of an engine lie in (08 R171). -/
def dmemBanks (a n : Nat) : List Nat := [a % 0x20000 / 3 / 2 % 4, (a + n - 1) % 0x20000 / 3 / 2 % 4]

/-- The banks that SMV uses in the present cycle, or frees at its end (11 R245). -/
def Smv.banks (x : Smv) : List Nat := x.view.banks ++ x.meet

/-- An LSU0 access to DMEM meets the step that SMV makes in its cycle: the engine is frozen for one cycle, in which SMV has the bank (08 R160, 11 R245). -/
def Engine.meets (x : Engine) (banks l : List Nat) : Engine :=
  { x with smv := { x.smv with meet := banks.filter l.contains } }

/-- Read DMEM for a load; `old` is the word that SMV's step of the same cycle overwrote (11 R245). -/
def State.read0 (s : State) (e a n : Nat) (signed : Bool) (old : Option (Nat × List Byte)) : State :=
  match s.readRows a n 2 with
  | (s1, none) => s1
  | (s1, some l) =>
    let was := fun (i : Nat) (b : Byte) => match old with
      | some o => if o.1 ≤ a + i && a + i < o.1 + 3 then o.2.getD (a + i - o.1) 0 else b
      | none => b
    s1.setEngine e ((s1.engine e).loaded0 (some (loadValue signed (l.zipIdx.map fun p => was p.2 p.1))))

/-- A load trigger, once the cycle's other effects stand (08 R170); `old` and `banks` are of SMV's step of the cycle. -/
def State.load0 (s : State) (e sub : Nat) (v : W24) (old : Option (Nat × List Byte)) (banks : List Nat) : State :=
  let x := s.engine e
  let f := lsuForm sub
  match lsu0Range sub v with
  | none => s.setEngine e ((x.raise 8).loaded0 none)
  | some r =>
    let a := dmemAddr e 0 r.1
    match newestOverlap x.lsu0.sb a r.2 with
    | none => (s.setEngine e (x.meets banks (dmemBanks a r.2))).read0 e a r.2 f.2 old
    | some b =>
      if b.2.holds a r.2 then s.setEngine e (x.loaded0 (some (loadValue f.2 (slice b.2.bytes (a - b.2.addr) r.2))))
      else s.setEngine e { x with lsu0 := { x.lsu0 with ldWait := some ⟨b.1, a, r.2, f.2, old⟩ } }

/-- The word that a step overwrote, with what a store-buffer entry has written onto it since. -/
def SbEntry.onto (b : SbEntry) (o : Nat × List Byte) : Nat × List Byte :=
  (o.1, o.2.zipIdx.map fun p => if b.meets (o.1 + p.2) 1 then b.bytes.getD (o.1 + p.2 - b.addr) 0 else p.1)

/-! LSU1 (08 R171 to R174, 10 R214, R226, R227, 14 R300, R302). -/

/-- Whether some enabled descriptor of an engine allows an access to a byte: right 1 R, 2 W. -/
def Lsu1.allows (x : Lsu1) (right a : Nat) : Bool :=
  x.desc.any fun d => d.2.ctl.getLsbD 2 && d.2.ctl.toNat % 4 &&& right = right && d.2.base.toNat * 64 ≤ a && a ≤ d.2.limit.toNat * 64 + 63

/-- Offset of an address in a pod's PMEM window, plain or alias. -/
def pmemOffset (a : Nat) : Option Nat :=
  if (0x200000000 ≤ a && a < 0x204000000) || (0x240000000 ≤ a && a < 0x244000000) || (0x280000000 ≤ a && a < 0x284000000) then some (a % 0x200000)
  else none

/-- Whether LSU1 refuses an access (10 R214, 14 R302). -/
def Lsu1.refuses (x : Lsu1) (load : Bool) (a n : Nat) : Bool :=
  (n != 1 && (pmemOffset a).any fun o => o % 3 != 0) || !((List.range n).all fun i => x.allows (if load then 1 else 2) (a + i))

/-- An LSU1 trigger: the access is refused, or asks for its grant. -/
def Engine.trigger1 (x : Engine) (sub : Nat) (v : L48) : Engine :=
  let f := lsuForm sub
  let load := lsuLoads sub
  let a := v.toNat % 2 ^ 40
  let fl : L1Fl := ⟨6, .waitGrant, load, BitVec.ofNat 40 a, f.1, f.2, x.lsu1.o, [], false, [], 0, false⟩
  if x.lsu1.refuses load a f.1 then
    let y := x.raise 16
    if load then { y with lsu1 := { y.lsu1 with fl := y.lsu1.fl ++ [{ fl with st := .refused }] } } else y
  else { x with lsu1 := { x.lsu1 with fl := x.lsu1.fl ++ [fl] } }

/-- Change the oldest access that waits for its grant; none removes it. -/
def grantOne (g : L1Fl → Option L1Fl) : List L1Fl → List L1Fl
  | [] => []
  | f :: t => if f.st = .waitGrant then (g f).toList ++ t else f :: grantOne g t

/-- Apply a change to the oldest access of an engine that waits for its grant. -/
def Engine.granted (x : Engine) (g : L1Fl → Option L1Fl) : Engine := { x with lsu1 := { x.lsu1 with fl := grantOne g x.lsu1.fl } }

/-- The parts of an access at 64-byte blocks (10 R226): address and length. -/
def blockParts (a n : Nat) : List (Nat × Nat) :=
  let first := 64 - a % 64
  if n ≤ first then [(a, n)] else [(a, first), (a + first, n - first)]

/-- The crossbar request of a part of an access. -/
def partReq (e : Nat) (f : L1Fl) (p : Nat × Nat) : XReq :=
  ⟨Fin.ofNat 48 (if e < 1024 then e / 32 else e - 1024 + 32), BitVec.ofNat 40 p.1, !f.load, false, Fin.ofNat 65 p.2,
    if f.load then [] else slice (leBytes f.len f.val.toNat) (p.1 - f.addr.toNat) p.2, f.tag⟩

/-- The crossbar master port takes an access: both halves are checked before either goes on; when the regions refuse one, neither does (14 R302). -/
def State.acceptOut (s : State) (e : Nat) (f0 : L1Fl) : State :=
  let f := { f0 with tag := s.xbar.tags }
  let parts := (blockParts f.addr.toNat f.len).map (partReq e f)
  let bad := parts.find? fun w => !s.regionOk w.master.val (xRights w.write false w.master.val) w.addr.toNat w.len.val
  let out := fun (l : List Nat) => ({ s with xbar := { s.xbar with tags := s.xbar.tags + 1 } } : State).setEngine e
    ((s.engine e).granted fun _ => some { f with st := .waitData, need := l })
  match bad with
  | some w =>
    let c := (s.xCause w (some e)).getD (1, 55)
    (out ((List.range w.len.val).map (· + (w.addr.toNat - f.addr.toNat)))).xError w (some e) c.1 c.2
  | none => parts.foldl (fun t w => t.xAccept w (some e)) (out (List.range f.len))

/-- PMEM banks that an access to a pod's PMEM uses (08 R171, R173). -/
def pmemBanks (h n : Nat) : List Nat := [h % 0x200000 / 3 / 2 % 16, (h + n - 1) % 0x200000 / 3 / 2 % 16]

/-- The banks of its pod's PMEM that an engine's waiting request asks for; none while it waits for no bank. -/
def State.bankAsks (s : State) (e : Nat) : List Nat :=
  match (s.engine e).lsu1.fl.find? (·.st = .waitGrant) with
  | none => []
  | some f =>
    match ownPmem s.xbar.remap e f.addr.toNat f.len with
    | none => []
    | some h => pmemBanks h.1 f.len

/-- The engines of a pod that ask for banks of its PMEM, with the banks. -/
def State.bankAskers (s : State) (p : Nat) : List (Nat × List Nat) :=
  ((List.range 32).map fun i => (32 * p + i, s.bankAsks (32 * p + i))).filter fun x => !x.2.isEmpty

/-- The engine a bank grants, of some that ask: the first in round-robin order, from the engine after the one that the bank served last (08 R174). -/
def State.bankFirst (s : State) (p b : Nat) (l : List (Nat × List Nat)) : Option Nat :=
  let from_ := ((s.pod p).served.find b).elim 0 (· + 1)
  ((List.range 32).map fun i => 32 * p + (from_ + i) % 32).find? fun g => l.any fun x => x.1 = g && x.2.contains b

/-- The engines of a pod that its banks grant in one arbitration: the banks decide in turn, and an engine that one of them refuses asks no later one, so
that a split access has both of its banks or neither (08 R173, R174). -/
def State.bankWinners (s : State) (p : Nat) : List (Nat × List Nat) :=
  (List.range 16).foldl (fun l b => match s.bankFirst p b l with
    | some g => l.filter fun x => x.1 = g || !x.2.contains b
    | none => l) (s.bankAskers p)

/-- Whether the banks that an engine asks for grant it. -/
def State.bankGrants (s : State) (e : Nat) : Bool := (s.bankWinners (e / 32)).any (·.1 = e)

/-- The banks of a granted access have served its engine. -/
def State.bankServed (s : State) (e : Nat) (l : List Nat) : State :=
  let p := s.pod (e / 32)
  s.setPod (e / 32) { p with served := l.foldl (fun t b => t.set b (e % 32)) p.served }

/-- Target of an address. -/
def State.targetOf (s : State) (a : Nat) : Nat := (decodeAddr s.xbar.remap a).1

/-- The targets of an access, byte by byte. -/
def State.targetsOf (s : State) (f : L1Fl) : List Nat := (List.range f.len).map fun i => s.targetOf (f.addr.toNat + i)

/-- Whether the pod's master port keeps an access back: an earlier one of the engine is still open, and the two do not have one target alone (08 R173,
15 R326). -/
def State.keptBack (s : State) (e : Nat) (f : L1Fl) : Bool :=
  ((s.engine e).lsu1.fl.takeWhile (·.st ≠ .waitGrant)).any fun g =>
    g.open_ && (g.st = .held || (s.targetsOf g).any fun t => (s.targetsOf f).any (· != t))

/-- The waiting access of an engine is granted, when its turn has come (08 R172 to R174): in its own PMEM it is performed, or held behind earlier accesses
that are open, outside it the crossbar has it. -/
def State.grant1 (s : State) (e waited : Nat) : State :=
  match (s.engine e).lsu1.fl.find? (·.st = .waitGrant) with
  | none => s
  | some f =>
    match ownPmem s.xbar.remap e f.addr.toNat f.len with
    | none => if s.keptBack e f then s else s.acceptOut e f
    | some h =>
      if s.bankGrants e then
      let s0 := (if waited = 0 then s else s.bumpBy (0x2A01 + e / 32) 4 4 waited).bankServed e (s.bankAsks e)
      if (s.engine e).lsu1.fl.any (·.open_) then s0.setEngine e ((s0.engine e).granted fun f => some { f with st := .held })
      else if f.load then
        match s0.readRows h.1 f.len 3 with
        | (s1, none) => s1
        | (s1, some l) => s1.setEngine e ((s1.engine e).granted fun f => some { f with st := .data, val := loadValue f.signed l })
      else
        match s0.writeRows h.2.val h.1 (leBytes f.len f.val.toNat) 3 with
        | (s1, false) => s1
        | (s1, true) => s1.setEngine e ((s1.engine e).granted fun _ => none)
      else s

/-- Whether an access waits for nothing but completions from outside: the bytes still to come lie in a PCIe window, and their requests have been granted
(15 R332). -/
def State.outside1 (s : State) (e : Nat) (f : L1Fl) : Bool :=
  (f.need.all fun i => match decodeAddr s.xbar.remap (f.addr.toNat + i) with
    | (_, .pcie _ _) => true
    | _ => false) &&
  !(Tab.get [] s.xbar.waiting 44 ++ Tab.get [] s.xbar.waiting 45).any fun w => w.eng = some e && w.req.tag = f.tag

/-- The data or the error response of an LSU1 access arrives (08 R172, 10 R214); `err` and `ext` are what a PCIe completion brings. -/
def State.return1 (s : State) (e : Nat) (err : Bool) (ext : List Byte) : State :=
  let x := s.engine e
  let pre := x.lsu1.fl.takeWhile (!·.open_)
  match x.lsu1.fl.dropWhile (!·.open_) with
  | [] => s
  | f :: post =>
    if f.st = .held then s
    else if f.need.isEmpty then (s.setEngine e (x.settle1 pre f post f.err (slice f.got 0 f.len))).unhold e 8
    else if s.outside1 e f then
      let l := (List.range f.len).map fun i => if f.need.contains i then ext.getD i 0 else f.got.getD i 0
      (s.setEngine e (x.settle1 pre f post (f.err || err) l)).unhold e 8
    else s

/-! SMV (11 R241 to R247). -/

/-- Whether a string operation reads its source, and whether it uses its destination. -/
def smvUses (op : Fin 4) : Bool × Bool := (op ≠ 1, op ≠ 3)

/-- DMEM banks of the words of the next step (11 R244). -/
def Smv.stepBanks (x : Smv) : List Nat :=
  let u := smvUses x.op
  (if u.1 then [x.src.toNat / 2 % 4] else []) ++ (if u.2 then [x.dst.toNat / 2 % 4] else [])

/-- Read a DMEM word. -/
def State.dmemWord (s : State) (e w : Nat) : State × Option (List Byte) := s.readRows (dmemAddr e w 0) 3 1

/-- The state of SMV after a step that did not stop it (11 R241, R243). -/
def Smv.moveOn (x : Smv) : Smv :=
  let d : BitVec 15 := if x.down then -1 else 1
  let u := smvUses x.op
  let y := { x with fa := false, n := x.n - 1, src := if u.1 then x.src + d else x.src, dst := if u.2 then x.dst + d else x.dst }
  if y.n = 0 then y.finish false else y

/-- A word of DMEM when the step reads it, else no bytes. -/
def State.dmemMaybe (s : State) (b : Bool) (e w : Nat) : State × Option (List Byte) := if b then s.dmemWord e w else (s, some [])

/-- The words of a step are in reach: the step is performed (11 R241). -/
def State.smvDo (s : State) (e : Nat) : State × Bool :=
  let x := (s.engine e).smv
  let u := smvUses x.op
  match s.dmemMaybe u.1 e x.src.toNat with
  | (s1, none) => (s1, false)
  | (s1, some a) =>
    match s1.dmemMaybe (x.op = 2) e x.dst.toNat with
    | (s2, none) => (s2, false)
    | (s2, some b) =>
      let stop := if x.op = 2 then decide ((leNat a ^^^ leNat b) &&& x.pat.toNat ≠ 0)
                  else if x.op = 3 then (decide (leNat a = x.pat.toNat)) != x.ne else false
      let home := dmemAddr e x.dst.toNat 0
      let store := decide (x.op.val ≤ 1)
      let old := if store then some (home, (List.range 3).map fun i => (s2.mem.byte (home + i)).getD 0) else none
      let s3 := if store then { s2 with mem := s2.mem.writeBytes none home (if x.op = 0 then a else leBytes 3 x.pat.toNat) } else s2
      let y := if stop then x.finish true else x.moveOn
      (s3.setEngine e { s3.engine e with smv := { y with seen := some { x.view with old := old, banks := x.stepBanks } } }, true)

/-- The string operation's part of a cycle, once per cycle: nothing, a refused step, the first access of a two-cycle step, or a step; false when a memory
error reset the pod (11 R244, R247). -/
def State.smvCycle (s : State) (e : Nat) : State × Bool :=
  let x := (s.engine e).smv
  if !x.act || x.wait != 0 || x.bad || x.seen.isSome then (s, true)
  else
    let u := smvUses x.op
    let put := fun (y : Smv) (l : List Nat) => (s.setEngine e { s.engine e with smv := { y with seen := some { x.view with banks := l } } }, true)
    if (u.1 && 24576 ≤ x.src.toNat) || (u.2 && 24576 ≤ x.dst.toNat) then put { x with bad := true } []
    else if u.1 && u.2 && x.src.toNat / 2 % 4 = x.dst.toNat / 2 % 4 && !x.fa then put { x with fa := true } x.stepBanks
    else s.smvDo e

/-- A trigger of SMV (11 R242, R244, R246): a running operation is abandoned without a result; N = 0 ends at once. -/
def Engine.smvStart (x : Engine) (op : Fin 4) (v : W24) : Engine :=
  let m := x.smv
  let a := if m.view.act then { m with q := m.view.q, hit := m.view.hit } else m
  let y := { a with op := op, ne := v.getLsbD 1, down := v.getLsbD 0, fa := false, act := true,
                    wait := x.lsu0.sb.length + bit01 x.lsu0.stWait.isSome }
  { x with smv := if m.n = 0 then y.finish false else y }

/-! SPU (08 R177 to R179, 10 R217, R218, R229 to R231). -/

/-- What IN and POLL return for a record (10 R217, R229). -/
def RingRec.token (r : RingRec) : W24 := BitVec.ofNat 24 (r.addr + 32768 * r.kind.val)

/-- IN takes the next published record and releases the one before it; POLL looks at it. -/
def Spu.take (x : Spu) (isIn : Bool) : Spu :=
  match x.ring with
  | [] => if isIn then x else { x with q := 0xFFFFFF }
  | r :: t => if isIn then { x with q := r.token, cur := some r, ring := t } else { x with q := r.token }

/-- Whether an IN stands at count 2 with no record published (08 R160). -/
def Spu.starved (x : Spu) : Bool := x.fl.any (fun f => f.1 = 0 && f.2) && x.ring.isEmpty

/-- The IN and POLL that reach count 2 act; an IN whose ring is empty still waits (12 R264). -/
def Spu.atTwo (x : Spu) : Spu :=
  if x.starved then x else (x.fl.filter (·.1 = 0)).foldl (fun y f => y.take f.2) { x with fl := x.fl.filter (·.1 ≠ 0) }

/-- A word of a record. -/
def Build.word (b : Build) (i : Nat) : Nat := (b.words.getD i 0).toNat

/-- Length in words of an outgoing record, once its words tell (10 R218, R230). -/
def Build.length (b : Build) : Option Nat :=
  if b.out then some (if b.word 0 % 2048 = 0 || 1024 < b.word 0 % 2048 then 1 else b.word 0 % 2048)
  else if b.hdr.getLsbD 23 then (if b.words.length < 6 then none else some (8 + (min 9216 (bits (b.word 5) 8 16) + 2) / 3))
  else if b.words.length < 3 then none
  else if b.word 2 % 256 = 4 then (if b.words.length < 5 then none else some (6 + (min 3072 (b.word 4 % 65536) + 2) / 3))
  else some 6

/-- An OUT record that its first word spoils (10 R218). -/
def Build.badOut (b : Build) : Bool := b.out && (b.word 0 % 2048 = 0 || 1024 < b.word 0 % 2048)

/-- Append a word to the record being built, for which there is room; `o` is SPU.O. A record whose length is reached is complete, a spoilt OUT record
is discarded and counted (10 R218, R230, R231). -/
def State.appendWord (s : State) (e : Nat) (out : Bool) (v : W24) : State :=
  let x := s.engine e
  let spoilt := x.spu.build.any fun b => b.out != out
  let b : Build := match (if spoilt then none else x.spu.build) with
    | some b => { b with words := b.words ++ [v] }
    | none => ⟨out, x.spu.o, [v], 0⟩
  let s1 := s.engDrops e (bit01 spoilt + bit01 b.badOut)
  s1.setEngine e { x with spu :=
    if b.badOut then { x.spu with build := none }
    else if b.length = some b.words.length then { x.spu with build := none, done := x.spu.done ++ [b] }
    else { x.spu with build := some b } }

/-- A trigger of OUT or EMIT: an incomplete record of the other kind is discarded; without room the word waits (08 R179, 10 R231). A write into an empty
queue heals its rows (14 R308, log entry 67). -/
def State.pushWord (s : State) (e : Nat) (out : Bool) (v : W24) : State :=
  let x := s.engine e
  let spoilt := x.spu.build.any fun b => b.out != out
  let s0 := if x.spu.occupancy = 0 then s.healSides (isOutQueue e) else s
  let s1 := if spoilt then (s0.setEngine e { x with spu := { x.spu with build := none } }).engDrops e 1 else s0
  let y := s1.engine e
  if y.spu.occupancy < 1024 then s1.appendWord e out v else s1.setEngine e { y with spu := { y.spu with full := some (out, v) } }

/-- Bytes of a record's words. -/
def Build.bytes (b : Build) : List Byte := b.words.flatMap fun w => leBytes 3 w.toNat

/-- Count a dropped output record, logging at most once per second (05 R94). -/
def State.dropLate (s : State) : State :=
  let s1 := s.bump 0x2503 8
  if onceASecond s1.now s1.store.lateLogAt then ({ s1 with store := { s1.store with lateLogAt := some s1.now } }).logCount 1 0x2503 8 else s1

/-- An output record as it is laid out, whatever the engine gave in its fixed bytes (05 R90, 04 R80): the pod, the reserved bits [3:0] of byte 8 and 0 of
byte 9, and in a vector record bytes 14 to 17 and the bytes after its payload 0. -/
def outputForm (pod : Nat) (r : List Byte) : List Byte :=
  let x := ((r.set 7 (BitVec.ofNat 8 pod)).set 8 (r.getD 8 0 &&& 0xF0)).set 9 (r.getD 9 0 &&& 0xFE)
  if recType r = 4 then
    let n := 18 + leNat (slice r 12 2)
    x.take 14 ++ zeros 4 ++ slice x 18 (n - 18) ++ zeros (x.length - n)
  else x

/-- An output record enters its engine's lane (05 R90, R94, R101). -/
def State.outputRecord (s : State) (e : Nat) (r : List Byte) : State :=
  let lane := 0x1000 + e
  let t := recTick r
  let early := (s.recording || s.linkCar) && match (s.lane lane).lastTick with
    | some l => serial 48 l.toNat t = .earlier
    | none => false
  let far := decide ((secTicks : Int) < |fullCount s.now t - s.now|)
  if early || far then s.dropLate
  else (s.reachWrap lane (fullCount s.now t)).stage lane (outputForm (e / 32) r)

/-- Whether a port has an emit queue now (06 R119, R129). -/
def State.hasQueue (s : State) (p : Nat) : Bool :=
  s.capturing && ((s.acting 1 && s.portUse p = 1) || (s.acting 2 && s.portUse p = 2))

/-- A complete EMIT record at its destination (10 R230): its lane, or a port's emit queue; none when the queue has no room. -/
def State.emitDone (s : State) (e : Nat) (b : Build) : Option State :=
  let r := b.bytes
  if b.hdr.getLsbD 23 then
    let p := b.hdr.toNat % 256
    let body := r.drop 6
    if 9216 < bits (b.word 5) 8 16 || !s.hasQueue p then some (s.bump 0x2401 10)
    else if s.queueRoom p body then some (s.enqueue p (BitVec.ofNat 48 (leNat (slice r 0 6))) (fullCount s.now (recTick body)) body)
    else none
  else if 1024 ≤ e then some s
  else
    let ty := b.word 2 % 256
    if (ty != 3 && ty != 4) || (ty = 4 && 3072 < b.word 4 % 65536) then some (s.bump 0x2503 8) else some (s.outputRecord e r)

/-- A word that waited for room is appended once there is room. -/
def State.unfull (s : State) (e : Nat) : State :=
  let x := s.engine e
  match x.spu.full with
  | none => s
  | some f => if x.spu.occupancy < 1024 then (s.setEngine e { x with spu := { x.spu with full := none } }).appendWord e f.1 f.2 else s

/-- The head of an output queue moves on (08 R179): a complete OUT record to the stream network, a complete EMIT record to its destination, or the words
of an incomplete one to its assembly area. A complete record with an uncorrectable byte is dropped (14 R297). -/
def State.handOff (s0 : State) (e : Nat) : State :=
  let s := if (s0.engine e).spu.done.isEmpty then s0 else s0.readSides (isOutQueue e)
  let x := s.engine e
  match x.spu.done with
  | b :: t =>
    let rest := s.setEngine e { x with spu := { x.spu with done := t } }
    if s.sidesBad (isOutQueue e) then ((rest.engDrops e 1).healSides (isOutQueue e)).unfull e
    else if b.out then ({ rest with net := rest.net ++ [(⟨b.hdr.toNat % 1024, 3, b.bytes⟩ : StreamRec)] }).unfull e
    else match rest.emitDone e b with
      | some s1 => s1.unfull e
      | none => s0
  | [] =>
    match x.spu.build with
    | some b => if b.out then s else (s.setEngine e { x with spu := { x.spu with build := some { b with moved := b.words.length } } }).unfull e
    | none => s

/-- A move writes RBASE or RSIZE (09 R202): the ring's records, and those that arrived for it, are discarded and counted. -/
def State.ringWrite (s : State) (e : Nat) (size : Bool) (v : W24) : State :=
  let x := s.engine e
  let n := bits v.toNat 6 9 * 64
  let base := if size then x.spu.rbase else min n 24512
  let len := min (if size then max 64 (min n 12288) else x.spu.rsize) (24576 - base)
  let late := (s.arrivals e).length
  let s1 := s.engDrops e (x.spu.ring.length + late)
  let s2 := if e < 1024 then s1.setPod (e / 32) { s1.pod (e / 32) with arrival := (s1.pod (e / 32)).arrival.filter (·.eng ≠ e) } else s1
  s2.setEngine e { x with spu := { x.spu with rbase := base, rsize := len, ring := [], cur := none, tail := base } }

/-- Whether an engine owns a channel (09 R202): the active Signal Map names it as the owner, or its own output lane carries the channel. A channel that no
entry names and no other engine's lane carries is an output channel of the engine that gives it its order (DESIGN CHOICE, log entry 70). -/
def State.ownsChan (s : State) (e c : Nat) : Bool :=
  let named := (s.cls.activeBank.sm.filter fun n => bits n.2.toNat 98 16 = c).map fun n => bits n.2.toNat 88 10
  named.contains e || (s.lane (0x1000 + e)).chans.contains c ||
  (named.isEmpty && s.store.lanes.all fun l => l.1 < 0x1000 || !l.2.chans.contains c)

/-- A move writes PRED (09 R202): of a channel that the engine does not own it is ignored. -/
def State.predWrite (s : State) (e : Nat) (v : W24) : State :=
  let c := v.toNat % 65536
  if 1024 ≤ e || !s.ownsChan e c then s
  else
    let m := s.mill (e / 32)
    ({ s with store := { s.store with mills := s.store.mills.set (e / 32) { m with order := m.order.set c (bits v.toNat 16 2),
                                                                                    adapt := m.adapt.set c (v.getLsbD 19) } } }).tellBlocks (e / 32) c

end Sys2Proof.Machine
end

