-- ==== Sys2Proof/Machine/Ops.lean ====
section
/-! DEFINITION. One cycle of an engine (08 R153 to R167, 11 R232 to R239): freezes, boundaries, moves, triggers, repeat checks, jumps, pipelines; and the one
shared operation of every command that issues a bundle. -/

namespace Sys2Proof.Machine

/-! When an engine can go on. -/

/-- Whether an engine's units work: its pod is up and it is out of reset, halted or not (08 R157, 19 R438). -/
def State.engOn (s : State) (e : Nat) : Bool :=
  s.served && if e < 1024 then s.podUp (e / 32) && !(s.pod (e / 32)).erst.getLsbD (e % 32) else s.pst.running.mask.getLsbD (e - 1024)

/-- Whether what an engine has sent before goes on: its units work, or it is held in reset while its pod is up (08 R157). -/
def State.engFed (s : State) (e : Nat) : Bool := s.engOn e || (s.served && e < 1024 && s.podUp (e / 32))

/-- Whether an engine is out of reset and not halted. -/
def State.engRuns (s : State) (e : Nat) : Bool :=
  s.engOn e && (s.engine e).exc.st = 0

/-- Freezes of 08 R160 that run to their end whatever is pending. -/
def Engine.hardFrozen (x : Engine) : Bool :=
  x.lsu1.fl.any (fun f => f.st = .waitGrant || (f.load && f.k = 0 && f.open_)) || x.spu.full.isSome || x.lsu0.stWait.isSome ||
  x.lsu0.ldWait.isSome || !x.smv.meet.isEmpty

/-- Whether a WAIT stands at count 2 with its target not yet due (08 R160). -/
def Tsu.waiting (x : Tsu) (tick : Nat) : Bool := x.fl.any fun f => f.wait && f.k = 0 && !tickDue tick f.val.toNat

/-- The freezes of TSU.WAIT and SPU.IN at count 2, which an interrupt ends (08 R160, 12 R254). -/
def Engine.softFrozen (x : Engine) (tick : Nat) : Bool :=
  x.tsu.waiting tick || x.spu.starved

/-- Whether an interrupt is recognised at the boundary, other causes apart (12 R253). -/
def Engine.irqReady (x : Engine) : Bool :=
  x.ctl.mode.getLsbD 2 && !x.exc.handler && !x.exc.firstAfter && (x.exc.ppend || (x.exc.rie && !x.spu.ring.isEmpty))

/-- Whether the engine's next cycle can run: it runs, no entry or return is in progress, and nothing freezes it. -/
def State.canCycle (s : State) (e : Nat) : Bool :=
  let x := s.engine e
  s.engRuns e && x.exc.entry.isNone && !x.exc.restore && !x.hardFrozen && !x.softFrozen s.tb.tick.toNat

/-- Whether the bundle at the present address was lost to an error response of its fetch (15 R333). -/
def Engine.fetchDue (x : Engine) : Bool := x.pfBad = some x.ctl.pc.toNat

/-- Whether the next bundle issues: the cycle can run, it is no bubble, and no exception is due at the boundary; a cause that comes up in a cycle whose
string step has been made is of the next boundary (11 R248, 12 R256). -/
def State.ready (s : State) (e : Nat) : Bool :=
  let x := s.engine e
  s.canCycle e && !x.ctl.bubble && !x.fetchDue && ((x.exc.due = 0 && !x.irqReady) || x.smv.seen.isSome)

/-- The banks that the string operation claims in the present cycle: those of the step it has made, or, in a cycle that can run, of the step it is to
make (11 R244, R245). -/
def State.smvClaims (s : State) (e : Nat) : List Nat :=
  let x := (s.engine e).smv
  let next := s.ready e || ((s.engine e).ctl.bubble && s.canCycle e)
  x.banks ++ (if next && x.seen.isNone && x.act && x.wait = 0 && !x.bad then x.stepBanks else [])

/-- The oldest entry of the store buffer drains, unless SMV's access of the cycle, made or still to come, uses its bank (08 R168 to R170, 11 R245): a waiting store takes its room,
a waiting load counts it, a waiting string operation too (11 R244). -/
def State.drainOne (s : State) (e : Nat) : State :=
  match (s.engine e).lsu0.sb with
  | [] => s
  | b :: t =>
    if (dmemBanks b.addr b.bytes.length).any (s.smvClaims e).contains then s
    else
    let s1 := s.drainEntry b
    let x := s1.engine e
    let y := { x with lsu0 := { x.lsu0 with sb := t ++ x.lsu0.stWait.toList, stWait := none }, smv := { x.smv with wait := x.smv.wait - 1 } }
    match x.lsu0.ldWait with
    | none => s1.setEngine e y
    | some w =>
      if 1 < w.drains then s1.setEngine e { y with lsu0 := { y.lsu0 with ldWait := some { w with drains := w.drains - 1, old := w.old.map b.onto } } }
      else (s1.setEngine e { y with lsu0 := { y.lsu0 with ldWait := none } }).read0 e w.addr w.len w.signed (w.old.map b.onto)

/-! Triggers. -/

/-- The ALU operation of a subcode (09 R190). -/
def aluOpOf (n : Nat) : AluOp :=
  match n % 16 with
  | 0 => .add
  | 1 => .addc
  | 2 => .sub
  | 3 => .subb
  | 4 => .neg
  | 5 => .abs
  | 6 => .and
  | 7 => .or
  | 8 => .xor
  | 9 => .andn
  | 10 => .not
  | 11 => .min
  | 12 => .max
  | 13 => .minu
  | 14 => .maxu
  | _ => .pass

/-- The SHF operation of a subcode. -/
def shfOpOf (n : Nat) : ShfOp :=
  match n % 16 with
  | 0 => .shl
  | 1 => .shr
  | 2 => .sar
  | 3 => .rol
  | 4 => .ror
  | 5 => .ext
  | 6 => .exts
  | _ => .ins

/-- A MAC trigger (10 R209). -/
def Mac.trigger (x : Mac) (sub : Nat) (sat : Bool) (y : W24) : Mac :=
  match sub with
  | 0 => x.mul true sat y
  | 1 => x.mul false sat y
  | 2 => x.add true sat false y
  | 3 => x.add false sat false y
  | 4 => x.add true sat true y
  | 5 => x.add false sat true y
  | 6 => x.clr
  | _ => x.rd sat y

/-- A CHK trigger (10 R211, R224). -/
def Chk.trigger (x : Chk) (sub : Nat) (v : L48) : Chk :=
  let w := (wordOf v).toNat
  match sub with
  | 0 => x.step 1 (wordOf v)
  | 1 => x.step 2 (wordOf v)
  | 2 => x.step 3 (wordOf v)
  | 3 => x.give (popBits 24 w % 2)
  | 4 => x.give (parBytes w)
  | 5 => x.give (revBits 24 w)
  | 6 => x.give (revBytes w)
  | 7 => x.give (revBits (min 24 (x.o.toNat % 32)) w)
  | 8 => x.give (popBits 24 w)
  | 9 => x.give (clzBits 24 w)
  | 10 => x.give (popBits 48 v.toNat)
  | _ => x.give (clzBits 48 v.toNat)

/-- Outcome of a compare on `w` bits (10 R215, R225). -/
def compare_ (sub w a b : Nat) : Bool :=
  match sub % 8 with
  | 0 => a = b
  | 1 => a ≠ b
  | 2 => toSigned w a < toSigned w b
  | 3 => toSigned w a ≤ toSigned w b
  | 4 => a < b
  | 5 => a ≤ b
  | _ => a &&& b ≠ 0

/-- A CTL trigger (10 R215); `written` are the ports that moves of the bundle wrote, whose values stand. An RFE in a delay bundle of another changes
nothing: the return of the first begins after its own two delay bundles (12 R270). -/
def Engine.ctlTrigger (x : Engine) (written : List Nat) (sub : Nat) (v : L48) : Engine :=
  let c := x.ctl
  let w := wordOf v
  match sub with
  | 0 => { x with ctl := { c with jumps := c.jumps ++ [(3, w.setWidth 11)] } }
  | 1 => { x with ctl := { c with jumps := c.jumps ++ [(3, w.setWidth 11)], link := if written.contains 0x2AA then c.link else c.pc + 3 } }
  | 2 => { x with ctl := { c with jumps := c.jumps ++ [(3, c.link)] } }
  | 3 => { x.raise 2 with exc := { (x.raise 2).exc with detail := w.setWidth 8 } }
  | 4 => if x.exc.rfe.isSome then x else { x with exc := { x.exc with rfe := some 3 } }
  | _ =>
    let long := decide (0x10 ≤ sub)
    let n := if long then 48 else 24
    let b := compare_ sub n (v.toNat % 2 ^ n) (c.o.toNat % 2 ^ n)
    if written.contains (8 + c.gd.toNat) then x else { x with ctl := c.setGuard c.gd.toNat b }

/-- A TSU trigger at a full count (10 R216, R228, 12 R264): a WAIT in flight is abandoned. -/
def Tsu.trigger (x : Tsu) (sub now : Nat) (v : L48) : Tsu :=
  let fl := x.fl.filter (!·.wait)
  match sub with
  | 0 => { x with epl := BitVec.ofNat 32 (now / 2 ^ 48), fl := fl ++ [⟨2, false, BitVec.ofNat 48 now⟩] }
  | 1 => { x with fl := fl ++ [⟨2, false, x.epl.setWidth 48⟩] }
  | _ => { x with fl := fl ++ [⟨2, true, v⟩] }

/-- A trigger of a unit whose operation only the engine's own registers see; `sat` and `dzt` as in force for the bundle (10 R206). -/
def Engine.trigger (x : Engine) (e now : Nat) (written : List Nat) (sat dzt : Bool) (n : Nat) (v : L48) : Engine :=
  let sub := n % 64
  match n / 64 with
  | 2 => { x with alu0 := x.alu0.run (aluOpOf sub) (0x10 ≤ sub) sat (written.contains 0x0A8) v }
  | 3 => { x with alu1 := x.alu1.run (aluOpOf sub) (0x10 ≤ sub) sat (written.contains 0x0E8) v }
  | 4 => { x with mac := x.mac.trigger sub sat (wordOf v) }
  | 5 => { x with shf := x.shf.run (shfOpOf sub) (0x10 ≤ sub) v }
  | 6 => { x with chk := x.chk.trigger sub v }
  | 7 =>
    let y := { x with div := x.div.run (sub % 2 = 0) (0x10 ≤ sub) v }
    if dzt && x.div.traps (0x10 ≤ sub) then y.raise 4 else y
  | 8 => if lsuLoads sub then x else x.store0 e sub (wordOf v)
  | 9 => x.trigger1 sub v
  | 10 => x.ctlTrigger written sub v
  | 13 => { x with tsu := x.tsu.trigger sub now v }
  | 14 => if sub < 2 then { x with spu := { x.spu with fl := x.spu.fl ++ [(2, decide (sub = 0))] } } else x
  | _ => x

/-- A trigger in the first part of the end of a cycle; SMV, RPT and loads of LSU0 come after. -/
def State.trigger (s : State) (e : Nat) (written : List Nat) (sat dzt : Bool) (n : Nat) (v : L48) : State :=
  if n = bSPU + 2 || n = bSPU + 3 then s.pushWord e (n = bSPU + 2) (wordOf v)
  else s.setEngine e ((s.engine e).trigger e s.now written sat dzt n v)

/-! Repeat levels, jumps, modes (08 R164 to R167, 11 R232 to R239). -/

/-- The end check of one level (11 R234): whether it loops back. -/
def Rpt.checkLevel (x : Rpt) (level : Nat) : Rpt × Bool :=
  let c := if level = 0 then x.c0 else x.c1
  let w := if level = 0 then x.w0 else x.w1
  let loop := if w then c ≠ 0 else 2 ≤ c.toNat
  let c' := if w then c else if 2 ≤ c.toNat then c - 1 else 0
  let y := if level = 0 then { x with c0 := c', w0 := false } else { x with c1 := c', w1 := false }
  (if loop then y else { y with n := Fin.ofNat 3 level }, loop)

/-- The end checks at the issue of the bundle at `pc`, and the address they choose (11 R234, R238). -/
def Rpt.endCheck (x : Rpt) (pc : BitVec 11) : Rpt × BitVec 11 :=
  if x.n = 0 then (x, pc + 1)
  else if x.n = 1 then
    if x.e0 = pc then (let r := x.checkLevel 0
                       (r.1, if r.2 then x.s0 else pc + 1))
    else (x, pc + 1)
  else if x.e1 = pc then
    let r := x.checkLevel 1
    if r.2 then (r.1, x.s1)
    else if x.e0 = pc then (let q := r.1.checkLevel 0
                            (q.1, if q.2 then x.s0 else pc + 1))
    else (r.1, pc + 1)
  else (x, pc + 1)

/-- REP opens a level after the bundle at `pc` (11 R233). -/
def Rpt.open_ (x : Rpt) (pc : BitVec 11) (c : W24) : Rpt :=
  if x.n = 0 then { x with n := 1, s0 := pc + 1, e0 := x.o, c0 := c, w0 := false }
  else { x with n := 2, s1 := pc + 1, e1 := x.o, c1 := c, w1 := false }

/-- EXIT closes the innermost level (11 R236). -/
def Rpt.exit (x : Rpt) : Rpt := if x.n = 0 then x else { x with n := Fin.ofNat 3 (x.n.val - 1) }

/-- The repeat unit's turn at the end of a bundle's cycle, after the writes of its moves (11 R237): its trigger, if any, and the next address. -/
def Rpt.turn (x : Rpt) (pc : BitVec 11) (trig : Option (Nat × W24)) : Rpt × BitVec 11 :=
  match trig with
  | some (0, c) => let r := x.endCheck pc
                   (r.1.open_ pc c, r.2)
  | some _ => x.exit.endCheck pc
  | none => x.endCheck pc

/-- Pending jumps count one issued bundle; one whose delay bundles have issued is taken, and a bubble follows (08 R164, R165). -/
def Ctl.jump (x : Ctl) (next : BitVec 11) : Ctl :=
  match x.jumps.map fun j => (j.1 - 1, j.2) with
  | (0, t) :: l => { x with jumps := l, pc := t, bubble := true }
  | l => { x with jumps := l, pc := next }

/-- An issued bundle's effect on the order of execution: repeat levels, jumps, and RFE, whose return begins after two more bundles (12 R270). -/
def Engine.sequence (x : Engine) (trig : Option (Nat × W24)) : Engine :=
  let r := x.rpt.turn x.ctl.pc trig
  let c := x.ctl.jump r.2
  let ex := match x.exc.rfe with
    | none => { x.exc with firstAfter := false }
    | some k => if k ≤ 1 then { x.exc with firstAfter := false, rfe := none, restore := true } else { x.exc with firstAfter := false, rfe := some (k - 1) }
  { x with rpt := r.1, ctl := c, exc := ex, pfq := if c.bubble then [] else x.pfq, pfBad := if c.bubble then none else x.pfBad }

/-- A pending mode counts one unfrozen cycle (08 R166). -/
def Ctl.modeStep (x : Ctl) : Ctl :=
  match x.pend with
  | none => x
  | some (k, m) => if k ≤ 1 then { x with pend := none, mode := m } else { x with pend := some (k - 1, m) }

/-- One unfrozen cycle of LSU0's loads. -/
def Lsu0.advance (x : Lsu0) : Lsu0 :=
  let fl := x.fl.map fun f => { f with k := f.k - 1 }
  (fl.filter (·.k = 0)).foldl (fun y f => match f.data with
    | some d => { y with q := d }
    | none => y) { x with fl := fl.filter (·.k ≠ 0) }

/-- Whether a load of LSU1 is over at its count (12 R263). -/
def L1Fl.over (f : L1Fl) : Bool := f.load && f.k = 0 && (f.st = .data || f.st = .refused || f.st = .busError)

/-- One unfrozen cycle of LSU1's loads. -/
def Lsu1.advance (x : Lsu1) : Lsu1 :=
  let fl := x.fl.map fun f => { f with k := f.k - 1 }
  (fl.filter (·.over)).foldl (fun y f => if f.st = .data then { y with q := f.val } else y) { x with fl := fl.filter fun f => !f.over }

/-- Whether an LSU1 load meets its bus error at the boundary that this cycle ends at (12 R250, R263). -/
def Lsu1.busDue (x : Lsu1) : Bool := x.fl.any fun f => f.load && f.k ≤ 1 && f.st = .busError

/-- One unfrozen cycle of the TSU: a WAIT stays until its bundle issues. -/
def Tsu.advance (x : Tsu) : Tsu :=
  let fl := x.fl.map fun f => { f with k := f.k - 1 }
  (fl.filter (fun f => f.k = 0 && !f.wait)).foldl (fun y f => { y with q := f.val }) { x with fl := fl.filter (fun f => f.k ≠ 0 || f.wait) }

/-- One unfrozen cycle of every pipeline and of a pending mode change (08 R158, R166); a string step that failed falls due (11 R247). -/
def Engine.advance (x : Engine) : Engine :=
  let y := { x with mac := x.mac.advance, chk := x.chk.advance, div := x.div.advance, lsu0 := x.lsu0.advance, lsu1 := x.lsu1.advance,
                    tsu := x.tsu.advance, spu := { x.spu with fl := x.spu.fl.map fun (f : Nat × Bool) => (f.1 - 1, f.2) }, ctl := x.ctl.modeStep,
                    smv := { x.smv with seen := none, bad := false } }
  y.raise ((if x.lsu1.busDue then 64 else 0) ||| (if x.smv.bad then 32 else 0))

/-! The cycle. -/

/-- A write of one move to a port that is no trigger; `sel` is RSEL at the start of the cycle. -/
def State.writePort (s : State) (e : Nat) (sel : Nat) (n : Nat) (v : L48) : State :=
  if n = 0x2AF then s.ring e (wordOf v)
  else if n = 0x3A8 then s.ringWrite e false (wordOf v)
  else if n = 0x3A9 then s.ringWrite e true (wordOf v)
  else if n = 0x3AA then s.predWrite e (wordOf v)
  else s.setEngine e ((s.engine e).write sel n v)

/-- WAIT, IN and POLL at count 2 act in the cycle in which the bundle there issues (10 R216, R228, 12 R264); one whose freeze an interrupt has ended
is still waiting (12 R254). -/
def Engine.atTwo (x : Engine) (tick now : Nat) : Engine :=
  let t := if x.tsu.fl.any (fun f => f.wait && f.k = 0) && !x.tsu.waiting tick then
      { x.tsu with q := BitVec.ofNat 48 now, epl := BitVec.ofNat 32 (now / 2 ^ 48), fl := x.tsu.fl.filter fun f => !(f.wait && f.k = 0) }
    else x.tsu
  { x with tsu := t, spu := x.spu.atTwo }

/-- What stands at the start of an unfrozen cycle: the string operation's step, then what acts at count 2; false when a memory error reset the pod. -/
def State.beginCycle (s : State) (e : Nat) : State × Bool :=
  match s.smvCycle e with
  | (s1, false) => (s1, false)
  | (s1, true) => (s1.setEngine e ((s1.engine e).atTwo s1.tb.tick.toNat s1.now), true)

/-- The end of an unfrozen cycle with the surviving moves of its bundle, in slot order; none for a bubble (08 R153, 09 R192 to R194, 11 R237). -/
def State.endCycle (s : State) (e : Nat) (moves : Option (List (Nat × L48))) : State :=
  let x := s.engine e
  let l := moves.getD []
  let writes := l.filter fun m => !isTrigger m.1
  let trigs := l.filter fun m => isTrigger m.1
  let written := writes.map (·.1)
  let s1 := writes.foldl (fun t m => t.writePort e x.lsu1.rsel.toNat m.1 m.2) s
  let s3 := trigs.foldl (fun t m => t.trigger e written (x.ctl.mode.getLsbD 0) (x.ctl.mode.getLsbD 1) m.1 m.2) s1
  let y1 := s3.engine e
  let y2 := match trigs.find? fun m => m.1 / 64 = 12 with
    | some m => y1.smvStart (Fin.ofNat 4 (m.1 % 64)) (wordOf m.2)
    | none => y1
  let y3 := if moves.isSome then y2.sequence ((trigs.find? fun m => m.1 / 64 = 11).map fun m => (m.1 % 64, wordOf m.2))
            else { y2 with ctl := { y2.ctl with bubble := false } }
  let y4 := { y3.advance with fbase := if y3.ctl.bubble && 1024 ≤ e then s3.pst.fbase.get 0 (e - 1024) else y3.fbase }
  let s4 := s3.setEngine e y4
  match trigs.find? fun m => m.1 / 64 = 8 && lsuLoads (m.1 % 64) with
  | some m => s4.load0 e (m.1 % 64) (wordOf m.2) x.smv.view.old x.smv.view.banks
  | none => s4

/-- The frozen cycle in which SMV has the bank that it lost to LSU0 passes (11 R245). -/
def State.passMeet (s : State) (e : Nat) : State :=
  let x := s.engine e
  if s.engRuns e && !x.smv.meet.isEmpty then s.setEngine e { x with smv := { x.smv with meet := [] } } else s

/-- Whether the freeze of a WAIT or an IN has ended for a pending interrupt (12 R254). -/
def State.interrupted (s : State) (e : Nat) : Bool :=
  let x := s.engine e
  s.engRuns e && x.exc.entry.isNone && !x.exc.restore && !x.hardFrozen && x.exc.due = 0 && x.irqReady && x.smv.seen.isNone

/-- A pending bubble passes when its cycle can run, or when an interrupt has ended the freeze that began in it; fetch starts at the jump's target (08 R161,
R164, 12 R254). -/
def State.passBubble (s0 : State) (e : Nat) : State :=
  let s := s0.passMeet e
  if (s.engine e).ctl.bubble && (s.canCycle e || s.interrupted e) then
    match s.beginCycle e with
    | (s1, false) => s1
    | (s1, true) =>
      let s2 := s1.endCycle e none
      let pc := (s2.engine e).ctl.pc
      match s2.fetch e pc.toNat with
      | (s3, some b) => s3.setEngine e { s3.engine e with pfq := [(pc.toNat, b)] }
      | (s3, none) => s3
  else s

/-- SMV as it stood at the start of a cycle whose step has been made. -/
def Smv.before (x : Smv) (v : SmvSeen) : Smv :=
  let u := smvUses x.op
  { x with q := v.q, src := v.src, dst := v.dst, n := v.n, hit := v.hit, act := v.act, seen := none, bad := false,
           fa := if x.bad then x.fa else !x.fa && u.1 && u.2 && v.src.toNat / 2 % 4 = v.dst.toNat / 2 % 4 }

/-- A bundle that does not issue for an exception of its own has no cycle: the string step of that cycle is not performed (11 R248, 12 R256). -/
def State.unstep (s : State) (e : Nat) : State :=
  let x := s.engine e
  match x.smv.seen with
  | none => s
  | some v =>
    let s1 := match v.old with
      | some o => { s with mem := s.mem.writeBytes none o.1 o.2 }
      | none => s
    s1.setEngine e { x with smv := x.smv.before v }

/-- The bundle at the boundary faults: it does not issue. -/
def State.refuseBundle (s : State) (e : Nat) (g : Engine → Engine) : State := (s.unstep e).setEngine e (g ((s.unstep e).engine e))

/-- The port exception of the bundle at the boundary: none of its moves is performed (09 R187, 12 R250 to R252). -/
def Engine.portFault (x : Engine) (slot reason : Nat) : Engine :=
  let y := x.raise 1
  { y with exc := { y.exc with detail := if y.exc.due.getLsbD 1 then y.exc.detail else BitVec.ofNat 8 (8 * slot + reason) } }

/-! The prefetch queue (08 R162, R163). -/

/-- The copy of the bundle at an address that stands in the prefetch queue. -/
def Engine.queued (x : Engine) (a : Nat) : Option (BitVec 128) := (x.pfq.find? (·.1 = a)).map (·.2)

/-- The bundle that issues leaves the prefetch queue; every other copy stays, on a repeat's way back too (08 R163). -/
def Engine.popBundle (x : Engine) : Engine := { x with pfq := x.pfq.filter (·.1 ≠ x.ctl.pc.toNat) }

/-- The first address, of `k` from `a` on in order, that is not queued. -/
def Engine.nextFetch (x : Engine) (a : Nat) : Nat → Nat
  | 0 => a % 2048
  | k + 1 => if (x.queued (a % 2048)).isSome then Engine.nextFetch x (a + 1) k else a % 2048

/-- Fill the prefetch queue from an address on with up to `k` bundles; none is added once one does not come. -/
def State.fill (s : State) (e : Nat) (a : Nat) : Nat → State
  | 0 => s
  | k + 1 =>
    match s.fetch e (a % 2048) with
    | (s1, none) => s1
    | (s1, some b) => State.fill (s1.setEngine e { s1.engine e with pfq := (s1.engine e).pfq ++ [(a % 2048, b)] }) e (a + 1) k

/-- The bundle at the present address is queued, else it is fetched (08 R162). -/
def State.ahead (s : State) (e : Nat) : State :=
  let x := s.engine e
  if (x.queued x.ctl.pc.toNat).isSome then s else s.fill e x.ctl.pc.toNat 1

/-- The fetch of an unfrozen cycle in which a bundle issued and no jump was taken: one bundle, the next in order that is not queued (08 R162). -/
def State.prefetch (s : State) (e : Nat) : State :=
  let x := s.engine e
  if x.ctl.bubble || 4 ≤ x.pfq.length then s else s.fill e (x.nextFetch x.ctl.pc.toNat 4) 1

/-- A bundle issues with the moves given, which it performs, and the engine fetches on. -/
def State.issueMoves (s : State) (e : Nat) (moves : List (Nat × L48)) : State :=
  ((s.setEngine e (s.engine e).popBundle).endCycle e (some moves)).prefetch e

/-- Issue, at the present address, a bundle whose one performed move writes the value `v` to port `n`: what every command does that is one trigger or one port
write of an engine. The engine waits, with nothing changed, while it cannot issue. -/
def State.issue (s : State) (e n : Nat) (v : L48) : State :=
  let s1 := s.passBubble e
  if s1.ready e then
    let x := s1.engine e
    match moveFault (x.ctl.mode.getLsbD 3) x.rpt.n.val (.imm v) n with
    | some r => s1.refuseBundle e (·.portFault 0 r)
    | none =>
      match s1.beginCycle e with
      | (s2, false) => s2
      | (s2, true) => s2.issueMoves e [(n, v)]
  else s1

/-! ENGINE_MOVE. -/

/-- The port exception of the bundle at the boundary, if it has one. -/
def Engine.boundaryFault (x : Engine) : Option (Nat × Nat) :=
  (x.queued x.ctl.pc.toNat).bind fun b => (decodeBundle b).faultOf x.ctl.guards (x.ctl.mode.getLsbD 3) x.rpt.n.val

/-- Value of a source at the start of the cycle. -/
def Engine.value (x : Engine) : Src → L48
  | .imm v => v
  | .port n => x.read n

/-- Issue the bundle at the present address whole (08 R153, R154, 09 R187). -/
def State.issueBundle (s : State) (e : Nat) : State :=
  let s0 := s.passBubble e
  if s0.ready e then
    let s1 := s0.ahead e
    let x := s1.engine e
    match x.queued x.ctl.pc.toNat with
    | none => s1
    | some b =>
      let d := decodeBundle b
      match d.faultOf x.ctl.guards (x.ctl.mode.getLsbD 3) x.rpt.n.val with
      | some f => s1.refuseBundle e (·.portFault f.1 f.2)
      | none =>
        match s1.beginCycle e with
        | (s2, false) => s2
        | (s2, true) => s2.issueMoves e ((d.live (s2.engine e).ctl.guards).map fun m => (m.dst, (s2.engine e).value m.src))
  else s0

/-- ENGINE_MOVE (08 R153): a bundle issues. -/
def execEngineMove (eng : EngN) (s : State) : Host.Outcome State Fault Refusal := .next (s.issueBundle eng.val)

end Sys2Proof.Machine
end

