-- ==== Sys2Proof/Machine/PodRows.lean ====
section
/-! DEFINITION. Pod rows: the stream router takes and publishes records (08 R176 to R178), and the pod clock steps (08 R175, 18 R417, 19 R422, R435). -/

namespace Sys2Proof.Machine

/-! The stream router. -/

/-- The router of a record's pod takes it, drops it, or, for a replay entry, makes the feeder wait (08 R178). -/
def State.routerTake (s : State) (q : StreamRec) : Option State :=
  if s.routerRoom q.eng q.bytes then some (s.intoArrival q) else if q.kind = 2 then none else some (s.podDrop (q.eng / 32))

/-- The records on the stream network that the router of pod `p` can take next: the first for the pod, or, while that is a waiting replay entry, the first
that is none. -/
def State.nextFor (s : State) (p : Nat) : Option State :=
  match takeFor p s.net with
  | none => none
  | some (q, rest) =>
    match ({ s with net := rest } : State).routerTake q with
    | some t => some t
    | none =>
      match takeFor p (s.net.filter (·.kind != 2)) with
      | none => none
      | some (r, _) => ({ s with net := s.net.erase r } : State).routerTake r

/-- ROUTER_ACCEPT (08 R176, R178). -/
def execRouterAccept (pod : PodN) (s : State) : Host.Outcome State Fault Refusal := .next (if s.served then (s.nextFor pod.val).getD s else s)

/-- Bytes of a record as whole words; the bytes that fill its last word are free values (log entry 2). -/
def State.wholeWords (s : State) (r : List Byte) : State × List Byte :=
  let n := 3 * wordsOf r - r.length
  if n = 0 then (s, r) else let d := s.draw 4
                            (d.2, r ++ leBytes n d.1)

/-- Publish the first record in the arrival buffer for an engine (08 R177); one with an uncorrectable byte is dropped (14 R297). -/
def State.publish (s0 : State) (e : Nat) : State :=
  match s0.arrivals e with
  | [] => s0
  | q :: _ =>
    let s := s0.readSides (isArrival (e / 32))
    if s.sidesBad (isArrival (e / 32)) then
      let p := s.pod (e / 32)
      ((s.setPod (e / 32) { p with arrival := p.arrival.erase q }).healSides (isArrival (e / 32))).podDrop (e / 32)
    else
    let x := s.engine e
    match ringPlace x.spu.rbase x.spu.rsize x.spu.occupied x.spu.tail (wordsOf q.bytes) with
    | none => s0
    | some a =>
      let w := s.wholeWords q.bytes
      let s1 : State := { w.1 with mem := w.1.mem.writeBytes none (dmemAddr e a 0) w.2 }
      let p := s1.pod (e / 32)
      let s2 := s1.setPod (e / 32) { p with arrival := p.arrival.erase q }
      s2.setEngine e { x with spu := { x.spu with ring := x.spu.ring ++ [(⟨a, wordsOf q.bytes, Fin.ofNat 4 q.kind⟩ : RingRec)], tail := a + wordsOf q.bytes } }

/-- ROUTER_PUBLISH (08 R177). -/
def execRouterPublish (eng : EngN) (s : State) : Host.Outcome State Fault Refusal :=
  .next (if eng.val < 1024 && s.served && s.podUp (eng.val / 32) then s.publish eng.val else s)

/-! Clock steps. -/

/-- Mill rate of a pod in kB/s at each clock step: 4 GB/s x step / 1.25 GHz (19 R435). -/
def millRates : List Nat := [4000000, 3200000, 2560000, 2000000, 1000000]

/-- The lowest of the five steps whose Mill rate covers a load, which is the slowest that R435 (19) allows. -/
def slowestStep (load : Nat) : Nat := (([4, 3, 2, 1].find? fun k => load ≤ millRates.getD k 0)).getD 0

/-- Whether an engine of the pod runs (18 R417). -/
def State.podRuns (s : State) (p : Nat) : Bool := (List.range 32).any fun i => s.engRuns (32 * p + i)

/-- The failed pods whose lanes a pod codes in their place (05 R112). -/
def State.guests (s : State) (p : Nat) : List Nat := (List.range 32).filter fun q => (s.pod q).moved && s.cfg (0x2A40 + q) 2 = p

/-- Whether R435's minimum holds for the pod: RAWPOD of an enabled port, the link coding pod, or a standby pod that holds moved lanes (18 R417). -/
def State.codes (s : State) (p : Nat) : Bool :=
  (allPorts.any fun n => s.portCfg n 1 = 1 && s.portCfg n 2 = p) ||
  (s.cfg 0x2600 6 = p && (List.range 4).any fun k => s.cfg (0x2610 + k) 1 = 1) || !(s.guests p).isEmpty

/-- The load a pod's Mill has to cover: its own and that of the lanes moved to it. -/
def State.millLoad (s : State) (p : Nat) : Nat := podLoad s.cfg p + ((s.guests p).map (podLoad s.cfg)).sum

/-- The step that the throttle level gives a pod without lanes (19 R434). -/
def throttleStep (level : Nat) : Nat := if level = 0 then 0 else if level = 1 then 2 else 4

/-- Whether Pestle may choose a step for a pod (18 R417). -/
def State.stepAllowed (s : State) (p k : Nat) : Bool :=
  if s.codes p then decide (k ≤ slowestStep (s.millLoad p))
  else if s.podRuns p then decide (k = throttleStep s.pwr.throttle.val) else decide (k = 4)

/-- The core voltage in RUN, from the fastest running pod (19 R422). -/
def State.runVolts (s : State) : Nat :=
  let steps := ((List.range 32).filter fun p => (s.pod p).powered && !(s.pod p).bad).map fun p => (s.pod p).step.val
  if steps.contains 0 then 850 else if steps.contains 1 then 800 else if steps.contains 2 then 750 else 700

/-- The fastest step at which a powered pod runs. -/
def State.fastest (s : State) : Nat :=
  (((List.range 32).filter fun p => (s.pod p).powered && !(s.pod p).bad).map fun p => (s.pod p).step.val).foldl min 4

/-- Reverse body bias of a pod in mV, which follows its step and the state (19 R422). -/
def State.podBias (s : State) (p : Nat) : Nat := if s.pwr.st.val = 1 then 500 else min 300 (100 * ((s.pod p).step.val - s.fastest))

/-- Whether the read and write assist of the SRAMs is on (19 R422). -/
def State.assist (s : State) : Bool := s.pwr.st.val = 0 && s.pwr.vcore ≤ 750

/-- Whether the retention assist of the pod arrays is on (19 R422). -/
def State.holdAssist (s : State) : Bool := s.pwr.st.val = 1

/-- A new target for VCORE (19 R422). -/
def State.setVcore (s : State) (v : Nat) : State :=
  if v = s.pwr.vcore then s else { s with pwr := { s.pwr with vcore := v, vcoreWas := s.pwr.vcore, vcoreAt := s.now } }

/-- Set the core voltage for RUN. -/
def State.setVolts (s : State) : State := s.setVcore s.runVolts

/-- The step that R417 (18) gives a pod: of a pod that codes lanes the present one, unless it is too slow. -/
def State.fitStep (s : State) (p : Nat) : Nat :=
  if s.codes p then min (s.pod p).step.val (slowestStep (s.millLoad p)) else if s.podRuns p then throttleStep s.pwr.throttle.val else 4

/-- Every powered pod whose step is no longer allowed takes the one it is given, and the core voltage follows (18 R417, 19 R422, R434). -/
def State.fitPods (s : State) : State :=
  ((List.range 32).foldl (fun (t : State) p =>
    if (t.pod p).powered && !t.stepAllowed p (t.pod p).step.val then t.setPod p { t.pod p with step := Fin.ofNat 5 (t.fitStep p) } else t) s).setVolts

/-- POD_CLOCK_STEP (08 R175): a change that R417 (18) allows, between two cycles. -/
def execPodClockStep (pod : PodN) (step : Fin 5) (s : State) : Host.Outcome State Fault Refusal :=
  .next (if s.served && s.pwr.st.val = 0 && (s.pod pod.val).powered && s.stepAllowed pod.val step.val then
    (s.setPod pod.val { s.pod pod.val with step := step }).setVolts else s)

end Sys2Proof.Machine
end

