-- ==== Sys2Proof/Machine/Session.lean ====
section
/-! DEFINITION. Sessions (17 R375 to R379): ARM, START, STOP, DISARM, MARK, with pod power gating (19 R421) and the store restart (05 R107). -/

namespace Sys2Proof.Machine

/-! Pod power (19 R421). -/

/-- The pods that power gating keeps: those the profile names, and the standby pods of powered pods, however far that leads. -/
def State.podsNeeded (s : State) : Nat → List Nat
  | 0 => (List.range 32).filter s.podNamed
  | n + 1 =>
    let l := State.podsNeeded s n
    (List.range 32).filter fun p => l.contains p || l.any fun q => s.cfg (0x2A40 + q) 2 = p

/-- Power a pod off: what it holds is lost. -/
def State.podOff (s : State) (p : Nat) : State :=
  let s1 := s.setErst p 0xFFFFFFFF
  let s2 : State := { s1 with mem := s1.mem.forget (podHome p), eng := s1.eng.filter fun e => e.1 / 32 != p,
                              store := { s1.store with mills := s1.store.mills.erase p } }
  s2.setPod p { s2.pod p with powered := false, loaded := false, image := 0, arrival := [], erst := 0xFFFFFFFF }

/-- Power a pod on and load what it refers to. -/
def State.podOn (s : State) (p : Nat) : State := (s.setPod p { s.pod p with powered := true }).loadPod p

/-- Whether transfers to a target are in flight: requests that its port has accepted wait there (15 R334). -/
def State.inFlight (s : State) (t : Nat) : Bool := !(Tab.get [] s.xbar.waiting t).isEmpty

/-- Whether a pod has transfers in flight: requests at its target port, or stores of its engines' LSU1, which take effect before it goes down (19 R425, 08
R157). -/
def State.podBusy (s : State) (p : Nat) : Bool :=
  s.inFlight (10 + p) || s.eng.any fun e => e.1 / 32 = p && e.2.lsu1.fl.any fun f => !f.load

/-- Open the target port of a pod whose gating is given up. -/
def State.reopen (s : State) (p : Nat) : State :=
  { s with xbar := { s.xbar with closed := s.xbar.closed.filter (· != 10 + p) }, pwr := { s.pwr with gating := s.pwr.gating.filter (· != p) } }

/-- Power gating of one pod (19 R421, R425): its target port closes, and it goes down at its quiescence point, at once when nothing is in flight. -/
def State.gateOff (s : State) (p : Nat) : State :=
  if s.podBusy p then
    { s with xbar := { s.xbar with closed := (10 + p) :: s.xbar.closed.filter (· != 10 + p) },
             pwr := { s.pwr with gating := p :: s.pwr.gating.filter (· != p) } }
  else s.podOff p

/-- Power gating, at each transition to ARMED and each commit tick (19 R421). -/
def State.gatePods (s : State) : State :=
  let need := if s.cfg 0x2100 4 = 1 then s.podsNeeded 32 else List.range 32
  (List.range 32).foldl (fun (t : State) p =>
    if (t.pod p).bad then t
    else if need.contains p then (if (t.pod p).powered then (if t.pwr.gating.contains p then t.reopen p else t) else t.podOn p)
    else if (t.pod p).powered then t.gateOff p else t) s

/-- The pods whose gating waited for transfers that have completed go down (19 R425). -/
def State.gateDone (s : State) : State :=
  s.pwr.gating.foldl (fun (t : State) p => if t.podBusy p then t else (t.reopen p).podOff p) s

/-- Gating that did not reach quiescence within 100 µs is abandoned: the ports are reopened, the pods stay powered, and each is logged (19 R425). -/
def State.gateFail (s : State) : State :=
  s.pwr.gating.foldl (fun (t : State) p => (t.reopen p).logE 3 1 0x2A00 2 (podBits fun q => (t.pod q).powered)) s

/-! ARM. -/

/-- Clear the counters that each transition to ARMED clears (04 R88, 05 R113, 06 R133, 07 R152, 08 R180). -/
def State.clearForArm (s : State) : State :=
  let s1 := (((s.clearCounters 0x2301 1 7).clearCounters 0x2401 4 12).clearCounters 0x2503 7 9).clearCounters 0x2601 7 11
  (List.range 32).foldl (fun (t : State) p => t.clearCounters (0x2A01 + p) 4 7) s1

/-- Why an ARM in IDLE is refused, if it is, and the state with its cause published and logged. -/
def State.armCheck (s : State) (acts : Nat) : Option (BitVec 32) × State :=
  if !armCombos.contains acts then (some abState, s)
  else
    match profileCheck s.cfg with
    | some o => (some abConfig, s.logE 2 1 o.1 o.2 (s.cfg o.1 o.2))
    | none =>
      if s.podBars then (some abConfig, s)
      else if named acts 0 && s.setMode.isNone then
        let k := if s.namedSsds.contains 0 then 0 else 1
        (some abConfig, s.logE 1 1 0x2503 (3 + k) (s.ssd k).state.val)
      else
        let r := s.replayCause acts
        if r != 0 then (some abConfig, ({ s with rep := { s.rep with cause := Fin.ofNat 8 r } }).logE 1 1 0x2401 2 r)
        else
          let l := s.linkCause acts
          if l != 0 then (some abConfig, ({ s with link := { s.link with cause := Fin.ofNat 5 l } }).logE 1 1 0x2601 2 l)
          else (none, s)

/-- The transition to ARMED (17 R376). -/
def State.armEnter (s : State) (acts : Nat) : State :=
  let s0 := s.clearForArm
  let s1 := if s0.store.level = 0 then s0 else s0.logE 1 1 0x2503 2 0
  let mode := if named acts 0 then s.setMode.getD 255 else s.store.mode
  let s2 : State := { s1 with
    sess := { s1.sess with acts := BitVec.ofNat 5 acts }
    rep := { s1.rep with cause := 0 }
    link := { s1.link with cause := 0 }
    store := { s1.store with mills := [], mode := mode, drops := [], level := 0 }
    pods := s1.pods.map fun (e : Nat × Pod) => (e.1, { e.2 with moved := e.2.failed }) }
  let s3 := if named acts 0 && mode != s.cfg 0x2500 1 then s2.logE 1 1 0x2503 10 mode else s2
  let s4 := s3.gatePods
  let s5 := if named acts 1 then
      (if s4.cfg 0x2400 1 = 0 then s4.openSource else { s4 with rep := { s4.rep with st := 1 } })
    else s4
  s5.toState .armed 1

/-- A refused command (17 R378): shown in 0x2001:04 and :05, logged, and answered with its abort code. -/
def State.refuseCmd (s : State) (p : Path) (v : Nat) (code : BitVec 32) : State :=
  ({ s with sess := { s.sess with refused := BitVec.ofNat 32 v, refusedCode := code } }).refuseLog p 0x2010 1 v code

/-- A command value (17 R377). -/
def cmdValue (code p : Nat) : Nat := code + 256 * p

/-- ARM (17 R377 to R379): ARMED is entered at once, and the answer is owed. -/
def State.cArm (s : State) (p : Path) (v : Nat) : State :=
  let par := v / 256
  if 32 ≤ par then s.refuseCmd p v abRange
  else if s.sess.st != .idle || s.switchPending then s.refuseCmd p v abState
  else
    match s.armCheck par with
    | (some c, t) => t.refuseCmd p v c
    | (none, t) =>
      let t1 := t.armEnter par
      ({ t1 with sess := { t1.sess with armOwed := t1.sess.armOwed ++ [p] } }).owe 0x2010 1

/-- ARM (17 R376). -/
def execArm (path : Path) (p : W24) (s : State) : Host.Outcome State Fault Refusal :=
  .next (s.requestWrite path 0x2010 1 (leBytes 4 (cmdValue 1 p.toNat)) fun t => t.cArm path (cmdValue 1 p.toNat))

/-- The ARM accepted first of those still owed an answer has been carried out, and is answered (17 R379). -/
def State.armDone (s : State) : State :=
  match s.sess.armOwed with
  | [] => s
  | p :: t => (({ s with sess := { s.sess with armOwed := t } }).recallOn p 0x2010 1).answer p []

/-- ARM_COMPLETE (17 R379). -/
def execArmComplete (s : State) : Host.Outcome State Fault Refusal := .next s.armDone

/-! START. -/

/-- The entry of the change that altered the SSD set: the last change of the state of an SSD that was used and is not, or the other way round; of two such
the later (05 R107). -/
def State.setChange (s : State) (was is : BitVec 2) : BitVec 16 :=
  let l := ([0, 1].filter fun k => hasSsd (was ^^^ is) k).map fun k => (s.ssd k).changed
  l.foldl (fun b c => if (s.log.next - c).toNat ≤ (s.log.next - b).toNat then c else b) (l.headD 0)

/-- Causes of a store restart that have occurred, with the change of the SSD set (05 R107, R473). -/
def State.restartCauses (s : State) : Tab (BitVec 16) :=
  match s.store.usedLast with
  | none => s.store.restart
  | some was =>
    if was != modeSsds s.store.mode && (s.store.restart.find 3).isNone then s.store.restart.set 3 (s.setChange was (modeSsds s.store.mode))
    else s.store.restart

/-- A resume record (05 R91). DESIGN CHOICE (log entry 22): where no durable segment was found, ENDTICK and the epoch read 0 beside the SEQ of all ones. -/
def resumeRecord (tick : L48) (cause : Nat) (d : Option Durable) (seq : BitVec 16) : List Byte :=
  leBytes 6 tick.toNat ++ [0x14, BitVec.ofNat 8 cause] ++
  (match d with
    | none => leBytes 8 (2 ^ 64 - 1) ++ zeros 10
    | some x => leBytes 8 x.seq ++ leBytes 6 x.endTick.toNat ++ leBytes 4 x.endEpoch.toNat) ++
  leBytes 4 seq.toNat

/-- The store restart (05 R107): the ring continues behind its newest durable segment, or is new. -/
def State.storeRestart (s : State) (cause : Nat) (seq : BitVec 16) : State :=
  let s1 := match s.newestFound with
    | none => (s.logE 1 1 0x2503 5 0xFFFFFF, resumeRecord s.tb.tick 0 none s.log.next, 0, ([] : List Byte))
    | some d => (s, resumeRecord s.tb.tick cause (some d) seq, d.seq + 1, d.hash)
  let t := s1.1
  let t1 : State := { t with store := { t.store with nextSeq := s1.2.2.1, prevHash := s1.2.2.2, newest := s.newestFound, restart := [], usedLast := some (modeSsds t.store.mode) } }
  t1.finishSeg { t1.newSeg true false with blocks := [ctlBlock s1.2.1] } (some 2) false

/-- The session store at START (05 R103, R107). -/
def State.storeStart (s : State) : State :=
  let s1 : State := { s with store := { s.store with
    sigSegs := 0, sigAt := s.now, flushAt := s.now, sigDue := false, closing := false, failoverDue := false, seg := none,
    lanes := s.store.lanes.map fun (e : Nat × Lane) => (e.1, ({} : Lane)) } }
  match s1.restartCauses with
  | [] => s1
  | c :: _ => s1.storeRestart c.1 c.2

/-- START carried out (17 R376), as far as RUNNING: a session number, a store restart where one is due, S fixed; replay takes its offset (06 R114), and
the link begins. -/
def State.startRun (s : State) : State :=
  let s1 := ({ s with sess := { s.sess with counter := s.sess.counter + 1, startAt := s.now } } : State).wrote configCopies
  let s2 := s1.put 0x2503 6 s1.sess.counter.toNat
  let s3 := if s2.acting 0 then s2.storeStart else { s2 with store := { s2.store with lanes := [] } }
  (s3.toState .running 2).startLink.fixOffset.replayEnd

/-- Ports that are enabled raise their notices at START (03 R64). -/
def State.startNotices (s : State) : State :=
  allPorts.foldl (fun (t : State) p => if (s.port p).enabled && (t.port p).enabled then t.portNotices p else t) s.applyEnables

/-- START carried out, with its notices. -/
def State.startNow (s : State) : State := s.startRun.startNotices

/-! STOP, DISARM, MARK. -/

/-- Every lane reaches a wrap point it still owes and closes its block (05 R101, R106). -/
def State.closeLanes (s : State) : State :=
  s.store.lanes.foldl (fun (t : State) e =>
    let t1 := if (0x1000 ≤ e.1 || t.linkLane e.1) && (t.lane e.1).wrapDue.isSome then t.wrapPoint e.1 else t
    t1.closeBlock e.1) s

/-- At STOP every enabled port reports the records it has not accepted (03 R66). -/
def State.stopNotices (s : State) : State := allPorts.foldl (fun (t : State) p => if (t.port p).enabled then t.dropNotices p else t) s

/-- STOP in RUNNING (17 R376, 05 R106): unreported drops, then DRAINING; without record the session is over in the same step. -/
def State.drain (s : State) : State :=
  let s1 := s.stopNotices.drainBuffers
  let rec_ := s1.recording
  let s2 := if rec_ then s1.closeLanes else s1
  let s3 := (s2.stopLink.stopReplay).toState .draining 3
  if rec_ then
    let s4 := s3.closeSeg
    ({ s4 with store := { s4.store with closing := true } }).tryLast
  else s3.toIdle

/-- STOP in FAULT (17 R376): unreported drops first; the ring's contents are discarded. -/
def State.leaveFault (s : State) : State :=
  let s0 := s.stopNotices.stopLink.stopReplay
  let s1 := if s0.store.level = 0 then s0 else s0.logE 1 1 0x2503 2 0
  let s2 : State := { s1 with
    sess := { s1.sess with faultCause := 0 }
    store := { s1.store with seg := none, hashing := [], ring := [], level := 0, lanes := s1.store.lanes.map fun (e : Nat × Lane) => (e.1, ({} : Lane)) } }
  s2.toIdle

/-- STOP (17 R377, R378). -/
def State.cStop (s : State) (p : Path) (v : Nat) : State :=
  if v / 256 != 0 then s.refuseCmd p v abRange
  else
    match s.sess.st with
    | .running => s.drain.answer p []
    | .fault => s.leaveFault.answer p []
    | _ => s.refuseCmd p v abState

/-- STOP (17 R376). -/
def execStop (path : Path) (p : W24) (s : State) : Host.Outcome State Fault Refusal :=
  .next (s.requestWrite path 0x2010 1 (leBytes 4 (cmdValue 3 p.toNat)) fun t => t.cStop path (cmdValue 3 p.toNat))

/-- DISARM (17 R377, R378). -/
def State.cDisarm (s : State) (p : Path) (v : Nat) : State :=
  if v / 256 != 0 then s.refuseCmd p v abRange
  else if s.sess.st = .armed then s.stopReplay.toIdle.answer p []
  else s.refuseCmd p v abState

/-- DISARM (17 R376). -/
def execDisarm (path : Path) (p : W24) (s : State) : Host.Outcome State Fault Refusal :=
  .next (s.requestWrite path 0x2010 1 (leBytes 4 (cmdValue 4 p.toNat)) fun t => t.cDisarm path (cmdValue 4 p.toNat))

/-- A marker record (05 R91, 17 R379). -/
def markRecord (tick : L48) (path : Path) (n : Nat) : List Byte :=
  leBytes 6 tick.toNat ++ [0x17, BitVec.ofNat 8 (pathMark path)] ++ leBytes 2 n ++ [0, 0]

/-- MARK (17 R377 to R379). -/
def State.cMark (s : State) (p : Path) (v : Nat) : State :=
  if 65536 ≤ v / 256 then s.refuseCmd p v abRange
  else if s.sess.st = .running then (s.ctlPut (markRecord s.tb.tick p (v / 256))).answer p []
  else s.refuseCmd p v abState

/-- MARK (17 R379). -/
def execMark (path : Path) (p : W24) (s : State) : Host.Outcome State Fault Refusal :=
  .next (s.requestWrite path 0x2010 1 (leBytes 4 (cmdValue 5 p.toNat)) fun t => t.cMark path (cmdValue 5 p.toNat))

end Sys2Proof.Machine
end

