-- ==== Sys2Proof/Machine/Pestle.lean ====
section
/-! DEFINITION. Pestle's own work (18): watchdogs, doorbells, pod resets, re-homing, sensors and throttling (19 R434), the event-log service, firmware
updates, the image store and the image key. -/

namespace Sys2Proof.Machine

/-- Log an event of Pestle's that has neither a counter nor a status object (18 R408). -/
def State.logPestle (s : State) : State := s.logE 3 1 0x2900 0 0

/-! Resets that Pestle makes. -/

/-- POD_RESET (19 R437): a pod that is up is reset, for a cause that no rule numbers. -/
def execPodReset (pod : PodN) (s : State) : Host.Outcome State Fault Refusal :=
  .next (if s.served && s.podUp pod.val then (let c := s.freeCause
                                              c.2.podReset pod.val c.1) else s)

/-- 100 ms pass without a valid write to a watchdog register (18 R398). -/
def State.watchdog (s : State) (k : Nat) : State := (s.reach (s.pst.kicked.get s.pwr.releasedAt k + msTicks 100)).warmReset 3

/-- WATCHDOG_EXPIRY (18 R398). -/
def execWatchdogExpiry (k : Fin 4) (s : State) : Host.Outcome State Fault Refusal := .next (if s.served then s.watchdog k.val else s)

/-! Doorbells (18 R416). -/

/-- Log a software message, at most 64 in a second of chip time; one beyond that is counted. -/
def State.logDoor (s : State) (n : Nat) (msg : W24) : State :=
  let sec := s.now / secTicks
  let k := if s.pst.doorSecond = sec then s.pst.doorCount else 0
  if k < 64 then
    ({ s with pst := { s.pst with doorSecond := sec, doorCount := k + 1 } }).logE 3 5 (0x2A01 + n / 32) (n % 32) msg.toNat
  else s.bump 0x2900 3

/-- Pestle answers a doorbell: it clears the flags, counts an overrun, and logs the message; a halt also resets the pod. -/
def State.serveDoor (s : State) (n : Nat) : State :=
  let d := s.door n
  let x := s.engine n
  let s1 : State := { s with pst := { s.pst with doors := s.pst.doors.set n { d with full := false, ovr := false } } }
  let s2 := if d.ovr then s1.bump 0x2900 3 else s1
  if x.exc.st = 0 then (if d.full then s2.logDoor n d.msg else s2)
  else
    let c := s2.freeCause
    c.2.podResetWith (n / 32) c.1 fun t => t.logE 3 5 (0x2A01 + n / 32) (n % 32) d.msg.toNat

/-- DOORBELL_SERVICE (18 R416). -/
def execDoorbellService (eng : Fin 1024) (s : State) : Host.Outcome State Fault Refusal :=
  .next (if s.served && ((s.door eng.val).full || ((s.engine eng.val).exc.st != 0 && s.podUp (eng.val / 32))) then s.serveDoor eng.val else s)

/-! Re-homing (18 R417). -/

/-- A Signal Map entry with the owner pod changed (04 R76). -/
def rehomeEntry (p q : Nat) (e : BitVec 192) : BitVec 192 :=
  if bits e.toNat 93 5 = p then BitVec.ofNat 192 (e.toNat - p * 2 ^ 93 + q * 2 ^ 93) else e

/-- The active tables with every channel of a pod given to another. -/
def Bank.rehome (b : Bank) (p q : Nat) : Bank := { b with sm := b.sm.map fun (e : Nat × BitVec 192) => (e.1, rehomeEntry p q e.2) }

/-- Pestle writes the shadow bank from the active one, whose uncorrectable byte resets the chip (14 R297), and makes a commit request in IDLE; the change is
logged, a refusal as Pestle's. -/
def State.rehome (s0 : State) (p : Nat) : State :=
  let s := s0.readSides (sideInBank (!s0.cls.active))
  match s.badEntry with
  | some r => s.sideFailed r
  | none =>
  let b := s.cls.activeBank.rehome p (s.cfg (0x2A40 + p) 2)
  let s1 := (s.putShadow b).publishCheck b.check
  match b.check with
  | none => ({ s1 with cls := s1.cls.swap s1.now }).logPestle
  | some _ => s1.logRefusal 4 0x2300 1 1 abConfig

/-- REHOME_CHANNELS (18 R417): in IDLE, for a failed pod, when 0x2960:01 allows it. -/
def execRehomeChannels (pod : PodN) (s : State) : Host.Outcome State Fault Refusal :=
  .next (if s.served && s.sess.st = .idle && (s.pod pod.val).failed && s.cfg 0x2960 1 = 1 && !s.switchPending && !s.checking && !s.cls.copying then
    s.rehome pod.val else s)

/-! Sensors (18 R405, 20 R453) and throttling (19 R434). -/

/-- Window of a voltage monitor in mV; those of 0.475 to 0.525 V, 3.135 to 3.465 V lie within whole mV (20 R453). -/
def voltWindow (vcore m : Nat) : Nat × Nat :=
  if m ≤ 9 then ((vcore * 95 + 99) / 100, vcore * 105 / 100)
  else [(760, 840), (1710, 1890), (810, 890), (710, 790), (710, 790), (1140, 1260), (1000, 1100), (1000, 1100), (475, 525), (475, 525),
        (3135, 3465), (3135, 3465), (1710, 1890), (1710, 1890)].getD (m - 10) (0, 0)

/-- Whether a monitor's reading lies outside its window. -/
def outside (vcore m v : Nat) : Bool := v < (voltWindow vcore m).1 || (voltWindow vcore m).2 < v

/-- Whether a reading lies outside the window in force: for 100 µs after a change of the target of VCORE, that of both targets and what lies between
(20 R453, log entry 77). -/
def State.windowed (s : State) (m v : Nat) : Bool :=
  if m ≤ 9 && s.now < s.pwr.vcoreAt + usTicks 100 then
    v < (voltWindow (min s.pwr.vcore s.pwr.vcoreWas) m).1 || (voltWindow (max s.pwr.vcore s.pwr.vcoreWas) m).2 < v
  else outside s.pwr.vcore m v

/-- Take the reading of a voltage monitor, `o` when it lies outside its window: entering and leaving the window is logged. -/
def State.takeVolt (s : State) (m v : Nat) (o : Bool) : State :=
  if o = s.pst.windows.getD m false then s
  else ({ s with pst := { s.pst with windows := (List.range 24).map fun i => if i = m then o else s.pst.windows.getD i false } }).logE 3 1 0x2920 (0x11 + m) v

/-- The highest thermal reading, in 1/16 degree. -/
def hottest (l : List Int) : Int := l.foldl max (-640)

/-- The throttle level after an evaluation: it rises to the highest level met, and falls one level at a time. -/
def nextThrottle (level : Nat) (t : Int) : Nat :=
  let met := if 1920 ≤ t then 2 else if 1760 ≤ t then 1 else 0
  if level ≤ met then met
  else if level = 2 then (if t < 1840 then 1 else 2) else if t < 1680 then 0 else 1

/-- A throttle level comes into force (19 R434, 01 R22): it is logged, in RUN the pods take the steps it gives them, and the link's rates are held to its cap. -/
def State.setThrottle (s : State) (n : Nat) : State :=
  if n = s.pwr.throttle.val then s
  else
    let s1 := ({ s with pwr := { s.pwr with throttle := Fin.ofNat 3 n } }).logE 3 1 0x2101 4 n
    (if s1.pwr.st = 0 then s1.fitPods else s1).holdSum

/-- Evaluate the throttle level. -/
def State.throttle (s : State) : State := s.setThrottle (nextThrottle s.pwr.throttle.val (hottest s.pst.temps))

/-- Whether a thermal sensor has moved by 5 degrees since the last calibration (02 R31). -/
def State.tempMoved (s : State) : Bool := (List.zip s.pst.temps s.pst.calTemps).any fun x => 80 ≤ |x.1 - x.2|

/-- Pestle samples the sensors; a throttle change's entry (0x2101:04) comes before those of the voltage windows (0x2920), by REF (18 R409), and the
windows are those the readings were made under. -/
def State.sample (s : State) (temps : List Int) (volts clocks : List Nat) : State :=
  let s1 : State := { s with pst := { s.pst with temps := temps, volts := volts, clocks := clocks,
                                                 calTemps := if s.pst.calTemps.isEmpty then temps else s.pst.calTemps } }
  let s2 := if s1.tempMoved then s1.calibrate else s1
  volts.zipIdx.foldl (fun (t : State) v => t.takeVolt v.2 v.1 (s.windowed v.2 v.1)) s2.throttle

/-- SENSOR_SAMPLE (18 R405). -/
def execSensorSample (temps : List Int) (volts : List Nat) (clocks : List Nat) (s : State) : Host.Outcome State Fault Refusal :=
  .next (if s.served then s.sample temps volts clocks else s)

/-- RANDOM_SOURCE_HEALTH_TEST (18 R402): a failed test is logged, and random output is withheld until the next one passes. -/
def execRandomSourceHealthTest (pass : Bool) (s : State) : Host.Outcome State Fault Refusal :=
  .next (if s.served then (let t : State := { s with pst := { s.pst with rngOk := pass } }
                           if pass then t else t.logPestle) else s)

/-! The event-log service (18 R410). -/

/-- Entries that the log holds before position `n` and after, as a distance on the 16-bit sequence. -/
def seqDist (a b : BitVec 16) : Nat := (b - a).toNat

/-- A read of at most `want` bytes of 0x2930:03 on a path. -/
def State.rLog (s : State) (p : Path) (want : Nat) : State :=
  let c := s.acc.cursors.get 0 (pathCode p)
  match serial 16 s.log.next.toNat c.toNat with
  | .equal => s.refuse p 0x2930 3 0 abGeneral
  | .later => s.refuse p 0x2930 3 0 abGeneral
  | _ =>
    let oldest := s.log.next - BitVec.ofNat 16 s.log.rows.length
    let late := s.log.rows.length < seqDist c s.log.next
    let at_ := if late then oldest else c
    let skipped := if late then seqDist c oldest else 0
    let acc := { s.acc with cursors := s.acc.cursors.set (pathCode p) (at_ + 1),
                            passed := s.acc.passed.set (pathCode p) (satAdd (2 ^ 32 - 1) (s.acc.passed.get 0 (pathCode p)) skipped) }
    match s.log.rows[seqDist oldest at_]? with
    | some r =>
      let k : SideRow := .eventLog (Fin.ofNat 8192 r.seq.toNat)
      (({ s with acc := acc } : State).readSides (· = k)).answer p ((if s.sideBad k then r.damaged else r.bytes).take want)
    | none => s.refuse p 0x2930 3 0 abGeneral

/-- EVENT_LOG_READ (18 R410). -/
def execEventLogRead (path : Path) (s : State) : Host.Outcome State Fault Refusal := .next (s.requestRead path 0x2930 3 fun t => t.rLog path 4096)

/-! Firmware (18 R400, R401, R411, R412). -/

/-- A section entry of a firmware image alone (18 R401, 13 R285). -/
def Section.fwOk (x : Section) (nsec ilen : Nat) : Bool :=
  x.rights = 0 && x.resv = 0 && x.doff % 16 = 0 && 64 + 16 * nsec ≤ x.doff && x.doff + x.size 1 ≤ ilen - 96 &&
  (if x.stype = 2 then x.eng < 4 && x.addr + x.len ≤ 24576
   else if x.stype = 3 then x.eng = 0 && x.addr + x.len ≤ 262144
   else if x.stype = 5 then x.eng = 0 && x.addr = 0 && x.len = 2
   else x.stype = 6 && x.eng = 0 && x.addr = 0 && x.len = 33)

/-- The bytes of an image's first section of a type. -/
def fwSection (b : List Byte) (stype : Nat) : List Byte :=
  match (imgSections b).find? fun x => x.stype = stype with
  | some x => slice b x.doff (x.size 1)
  | none => []

/-- SVN of a firmware image. -/
def fwSvn (b : List Byte) : Nat := leNat (slice (fwSection b 5) 0 2)
/-- Version of a firmware image. -/
def fwVersion (b : List Byte) : Nat := leNat (slice (fwSection b 5) 2 4)

/-- Whether the sections of a firmware image meet R401 (18). -/
def fwSections (b : List Byte) : Bool :=
  let xs := imgSections b
  let one := fun t => (xs.filter fun x => x.stype = t).length = 1
  imgNsec b != 0 && imgNsec b ≤ 1024 && (firstBad (fun x => x.fwOk (imgNsec b) (imgLen b)) (fun x y => x.stype ≤ 3 && x.overlaps y) [] xs 0).isNone &&
  one 5 && one 6 && fwSvn b ≤ 64 && fwVersion b != 0 && slice (fwSection b 6) 97 2 = zeros 2 && imgMask b < 16 && imgMask b % 2 = 1

/-- The checks of R400 (18) on an image, as 0x2912:04 codes them. -/
def fwCheck (counter : Nat) (b : List Byte) : Nat :=
  let key := slice (fwSection b 6) 0 97
  if !imgCheck1 b then 2
  else if !imgCheck2 b then 3
  else if b.getD 5 0 != 1 then 5
  else if !(sha384 key = fit 48 Config.firmwareKeyHash && imgSigned key b) then 4
  else if !fwSections b then 12
  else if fwSvn b < counter then 11 else 1

/-- The firmware slot that a passing image makes. -/
def fwSlot (b : List Byte) : FwSlot :=
  { image := b, result := 1, svn := fwSvn b, version := BitVec.ofNat 32 (fwVersion b), mask := BitVec.ofNat 4 (imgMask b), tool := imgTool b }

/-- The code of R287 (13) for a result of the firmware check, when it has one: the rollback counter's has none (13 R296). -/
def fwCode (r : Nat) : Option Nat :=
  match r with
  | 2 => some 1
  | 3 => some 2
  | 4 => some 3
  | 5 => some 4
  | 12 => some 6
  | _ => none

/-- The first failing section of a firmware image. -/
def fwBadSection (b : List Byte) : Nat :=
  (firstBad (fun x => x.fwOk (imgNsec b) (imgLen b)) (fun x y => x.stype ≤ 3 && x.overlaps y) [] (imgSections b) 0).getD 0

/-- A firmware image that failed its check is recorded as the failed load of pod 255 (13 R287, R296, log entry 76). -/
def State.fwFailed (s : State) (b : List Byte) (r : Nat) : State :=
  match fwCode r with
  | none => s
  | some c => s.loadFailed 255 c (if c = 6 then fwBadSection b else 0)

/-- The firmware slot that is not active. -/
def Pestle.inactive (x : Pestle) : FwSlot := if x.activeB then x.slotA else x.slotB

/-- Change the firmware slot that is not active. -/
def Pestle.setInactive (x : Pestle) (f : FwSlot) : Pestle := if x.activeB then { x with slotA := f } else { x with slotB := f }

/-- Whether a write to 0x2912 is out of place: outside IDLE, during another path's update, or while the reset of step 3 is due. -/
def State.updateBars (s : State) (p : Path) : Bool :=
  s.sess.st != .idle || s.pst.updater.any (· != p) || s.pst.resetDue.isSome

/-- A piece of a firmware image (step 1): offset 0 erases the inactive slot, and the offsets rise without gaps; while trial firmware waits for step 4 it is
out of order. -/
def State.wFirmware (s : State) (p : Path) (off : Nat) (data : List Byte) : State :=
  if 4194304 < off + data.length then s.refuse p 0x2912 1 0 abLength
  else if s.updateBars p || s.pst.trial || (off != 0 && (off != s.pst.received || s.pst.updater.isNone)) then s.refuseLog p 0x2912 1 0 abState
  else
    let old := if off = 0 then [] else s.pst.inactive.image
    let x := s.pst.setInactive { image := old ++ data }
    ({ s with pst := { x with updater := some p, received := off + data.length, checked := 0 } }).answer p []

/-- Step 2: the checks of R400 on the inactive slot. -/
def State.updateCheck (s : State) : State :=
  let b := s.pst.inactive.image
  let r := fwCheck s.pst.rollback.val b
  let f : FwSlot := if r = 1 then fwSlot b else { image := b, result := r }
  ({ s with pst := { s.pst.setInactive f with checked := r } } : State).fwFailed b r

/-- Step 3: the slot becomes active on trial, and a chip warm reset follows in 100 ms. -/
def State.updateActivate (s : State) : State :=
  ({ s with pst := { s.pst with activeB := !s.pst.activeB, trial := true, attempts := 0, resetDue := some (s.now + msTicks 100) } } : State).wrote descriptorCopies

/-- Step 4: the trial firmware is confirmed, and the rollback counter reaches its SVN. -/
def State.updateConfirm (s : State) : State :=
  ({ s with pst := { s.pst with trial := false, runningTrial := false, updater := none,
                                rollback := if s.pst.rollback.val < s.pst.running.svn then Fin.ofNat 65 (min s.pst.running.svn 64)
                                            else s.pst.rollback } } : State).wrote descriptorCopies

/-- The update is abandoned: a trial slot is left for the other one. -/
def State.updateAbandon (s : State) : State :=
  let x : Pestle := { s.pst with runningTrial := false, updater := none, received := 0, checked := 0, resetDue := none }
  { s with pst := if s.pst.trial then ({ x with activeB := !x.activeB, trial := false, attempts := 0 } : Pestle).wrote descriptorCopies else x }

/-- A write to 0x2912:03 (18 R412). -/
def State.wUpdate (s : State) (p : Path) (v : Nat) : State :=
  let idle := s.sess.st = .idle && !s.pst.updater.any (· != p)
  let no := s.refuseLog p 0x2912 3 v abState
  if v = 0 || 4 < v then s.refuse p 0x2912 3 v abRange
  else if !idle then no
  else match v with
    | 1 => if s.pst.updater.isSome && !s.pst.trial && s.pst.resetDue.isNone then s.updateCheck.answer p [] else no
    | 2 => if s.pst.updater.isSome && !s.pst.trial && s.pst.checked = 1 && s.pst.resetDue.isNone then s.updateActivate.answer p [] else no
    | 3 => if s.pst.runningTrial && s.pst.trial && s.pst.resetDue.isNone then s.updateConfirm.answer p [] else no
    | _ => if s.pst.updater.isSome || s.pst.trial then s.updateAbandon.answer p [] else no

/-- FIRMWARE_IMAGE_WRITE (18 R412 step 1). -/
def execFirmwareImageWrite (path : Path) (off : Nat) (data : List Byte) (s : State) : Host.Outcome State Fault Refusal :=
  .next (s.request path true 0x2912 1 off 0 data fun t => t.wFirmware path off data)

/-- UPDATE_CHECK (18 R412 step 2). -/
def execUpdateCheck (path : Path) (s : State) : Host.Outcome State Fault Refusal := .next (s.requestWrite path 0x2912 3 [1] fun t => t.wUpdate path 1)

/-- UPDATE_ACTIVATE (18 R412 step 3). -/
def execUpdateActivate (path : Path) (s : State) : Host.Outcome State Fault Refusal := .next (s.requestWrite path 0x2912 3 [2] fun t => t.wUpdate path 2)

/-- UPDATE_CONFIRM (18 R411, R412 step 4). -/
def execUpdateConfirm (path : Path) (s : State) : Host.Outcome State Fault Refusal := .next (s.requestWrite path 0x2912 3 [3] fun t => t.wUpdate path 3)

/-- UPDATE_ABANDON (18 R412). -/
def execUpdateAbandon (path : Path) (s : State) : Host.Outcome State Fault Refusal := .next (s.requestWrite path 0x2912 3 [4] fun t => t.wUpdate path 4)

/-- The reset of step 3 falls due. -/
def State.updateReset (s : State) : State :=
  match s.pst.resetDue with
  | none => s
  | some t => (s.reach t).warmReset 8

/-- UPDATE_RESET_TIMER (18 R412 step 3). -/
def execUpdateResetTimer (s : State) : Host.Outcome State Fault Refusal := .next (if s.served then s.updateReset else s)

/-! Pod images and the image key (18 R404, R413). -/

/-- Image-store units that an image takes (18 R399). -/
def imageUnits (b : List Byte) : Nat := (b.length + 65535) / 65536

/-- Free image-store units. -/
def State.freeUnits (s : State) : Nat := Config.imageUnits - (s.pst.images.map fun e => imageUnits e.2).sum

/-- A whole pod image has arrived: it is verified, and stored under its BUILDID when it passes. -/
def State.storeImage (s : State) (p : Path) (b : List Byte) : State :=
  let r := podCheck s.pst.keyHash b []
  let s1 : State := { s with pst := { s.pst with upload := [] } }
  if r.1 != 0 then s1.refuse p 0x2913 1 0 abConfig
  else if s.freeUnits < imageUnits b then s1.refuse p 0x2913 1 0 abGeneral
  else ({ s1 with pst := { s1.pst with images := s1.pst.images.set (imgId b) b } }).answer p []

/-- A piece of a pod image, at rising offsets from 0; the image is whole once it holds ILEN bytes. -/
def State.wPodImage (s : State) (p : Path) (off : Nat) (data : List Byte) : State :=
  if 8388608 < off + data.length then s.refuse p 0x2913 1 0 abLength
  else if s.sess.st != .idle || (off != 0 && off != s.pst.upload.length) then s.refuseLog p 0x2913 1 0 abState
  else
    let b := (if off = 0 then [] else s.pst.upload) ++ data
    if 64 ≤ b.length && imgLen b ≤ b.length then s.storeImage p b else ({ s with pst := { s.pst with upload := b } }).answer p []

/-- POD_IMAGE_WRITE (18 R413). -/
def execPodImageWrite (path : Path) (off : Nat) (data : List Byte) (s : State) : Host.Outcome State Fault Refusal :=
  .next (s.request path true 0x2913 1 off 0 data fun t => t.wPodImage path off data)

/-- Whether a stored profile names an image. -/
def Profile.names (x : Profile) (id : Nat) : Bool := (List.range 32).any fun p => x.value (0x2A40 + p) 1 = id

/-- A write to 0x2913:03 (18 R413). -/
def State.wDeleteImage (s : State) (p : Path) (id : Nat) : State :=
  if s.sess.st != .idle || s.sw.slots.any (fun e => e.2.names id) then s.refuseLog p 0x2913 3 (id % 2 ^ 24) abState
  else ({ s with pst := { s.pst with images := s.pst.images.erase id } }).answer p []

/-- POD_IMAGE_DELETE (18 R413). -/
def execPodImageDelete (path : Path) (id : BitVec 64) (s : State) : Host.Outcome State Fault Refusal :=
  .next (s.requestWrite path 0x2913 3 (leBytes 8 id.toNat) fun t => t.wDeleteImage path id.toNat)

/-- A write to 0x2911:01 (18 R404): the image-key hash is fused once, in IDLE. -/
def State.wImageKey (s : State) (p : Path) (data : List Byte) : State :=
  if data.length != 48 then s.refuse p 0x2911 1 (leNat data % 2 ^ 24) abLength
  else if s.sess.st != .idle || s.pst.keyHash.isSome then s.refuseLog p 0x2911 1 (leNat data % 2 ^ 24) abState
  else ({ s with pst := { s.pst with keyHash := some data } }).answer p []

/-- IMAGE_KEY_FUSE (18 R404). -/
def execImageKeyFuse (path : Path) (data : List Byte) (s : State) : Host.Outcome State Fault Refusal :=
  .next (s.requestWrite path 0x2911 1 data fun t => t.wImageKey path data)

end Sys2Proof.Machine
end

