-- ==== Sys2Proof/Machine/FabPorts.lean ====
section
/-! DEFINITION. Fabric links (16 R340 to R349): training, receiving flits, retry, violations, quarantine. -/

namespace Sys2Proof.Machine

/-- Whether a port is enabled (16 R340). -/
def State.fabEnabled (s : State) (k : Nat) : Bool := s.cfg 0x2700 1 / 2 ^ k % 2 = 1

/-- Node ID mode 1, static (16 R350). -/
def State.fabStatic (s : State) : Bool := s.cfg 0x2700 2 = 1

/-- ROLE (16 R348). -/
def State.fabRole (s : State) : Nat := s.cfg 0x2700 5

/-- LRANK (16 R348): the rank of the device's own sources alone; holdover once one of them has been locked. -/
def State.lrank (s : State) : Nat :=
  let own := fun (k : Nat) => s.sourceOk k && (if s.tb.src.val = k then s.tb.lock = 2 else (s.tb.source k).ripe)
  if own 1 then 1 else if own 3 then 2 else if s.tb.ownLocked then 3 else 4

/-- HELLO byte 8 and ROUTE byte 10 (16 R343): LRANK, ROLE, static mode, node ID held. -/
def State.fabFlags (s : State) : Byte :=
  BitVec.ofNat 8 (s.lrank + 16 * s.fabRole + 64 * bit01 s.fabStatic + 128 * bit01 s.fab.node.isSome)

/-- The fabric state (16 R350, R363): off with no port enabled, 3 without a node ID, else `v`. -/
def State.setFabSt (s : State) (v : Fin 4) : State :=
  { s with fab := { s.fab with st := if s.cfg 0x2700 1 = 0 then 0 else if s.fab.node.isNone then 3 else v } }

/-- A HELLO (16 R343). -/
def State.helloFlit (s : State) (k : Nat) : Flit :=
  mkFlit 2 0 (leBytes 8 Config.uid.toNat ++ [s.fabFlags, s.nodeByte] ++ leBytes 2 s.fab.gen.toNat ++
    [BitVec.ofNat 8 k, BitVec.ofNat 8 s.sw.gen.toNat])

/-! Adverts (16 R343, R351). -/

/-- Whether the device of an advert holds its node ID (16 R343). -/
def Advert.held (a : Advert) : Bool := a.flags.getLsbD 7
/-- Static node ID mode. -/
def Advert.static_ (a : Advert) : Bool := a.flags.getLsbD 6
/-- ROLE. -/
def Advert.role (a : Advert) : Nat := a.flags.toNat / 16 % 4
/-- LRANK. -/
def Advert.lrank (a : Advert) : Nat := a.flags.toNat % 16

/-- Cost of a port's link (16 R341). -/
def FabPort.cost (x : FabPort) : Nat := if x.st = 4 then 2 else 1

/-- Up ports with their partners, as neighbour entries. -/
def State.neighbours (s : State) : List Neighbour :=
  (s.upPorts none).map fun k => ⟨(s.fport k).partner, k, (s.fport k).cost⟩

/-- This device's advert as of now. -/
def State.ownAdvert (s : State) : Advert :=
  ⟨Config.uid, s.fab.gen, s.fabFlags, s.nodeByte, BitVec.ofNat 8 (s.cfg 0x2700 4), s.neighbours, s.now⟩

/-- Keep an advert in the database in place of the device's older one. -/
def State.keepAdvert (s : State) (a : Advert) : State :=
  { s with fab := { s.fab with db := s.fab.db.filter (·.uid != a.uid) ++ [a] } }

/-- The advert of a device. -/
def State.advertOf (s : State) (uid : BitVec 64) : Option Advert := s.fab.db.find? (·.uid = uid)

/-- A neighbour entry of 9 bytes (16 R343). -/
def Neighbour.bytes (n : Neighbour) : List Byte := leBytes 8 n.uid.toNat ++ [BitVec.ofNat 8 (n.port + 8 * n.cost)]

/-- An advert's flits: entries 4 to 7 in the second (16 R343). -/
def advertFlits (a : Advert) : List Flit :=
  let head := leBytes 8 a.uid.toNat ++ leBytes 2 a.gen.toNat ++ [a.flags, a.node, a.prio, BitVec.ofNat 8 a.near.length]
  let f := mkFlit 4 1 (head ++ ((a.near.take 4).map Neighbour.bytes).flatten)
  if a.near.length ≤ 4 then [{ f with tspec := 0xC0 }]
  else [{ f with tspec := 0x80 }, { mkFlit 4 1 (((a.near.drop 4).map Neighbour.bytes).flatten) with tspec := 0x40 }]

/-! The time master (16 R355). -/

/-- Key of a candidate: LRANK, priority, UID. -/
def Advert.key (a : Advert) : Nat := (a.lrank * 256 + a.prio.toNat) * 2 ^ 64 + a.uid.toNat

/-- The device of ROLE 0 with the smallest key. -/
def bestMaster (db : List Advert) : Option Advert :=
  db.foldl (fun (b : Option Advert) a =>
    if a.role != 0 then b
    else match b with
      | none => some a
      | some c => if a.key < c.key then some a else b) none

/-! Paths (16 R352). -/

/-- The smaller of two path lengths (cost, hops). -/
def shorter (a b : Option (Nat × Nat)) : Option (Nat × Nat) :=
  match a, b with
  | none, x => x
  | x, none => x
  | some x, some y => if x.1 < y.1 || (x.1 = y.1 && x.2 ≤ y.2) then some x else some y

/-- One round of path lengths to `dest` by device; a device that does not carry traffic is no way on. -/
def pathRound (db : List Advert) (carries : Advert → Bool) (dest : Nat) (d : Tab (Nat × Nat)) : Tab (Nat × Nat) :=
  db.foldl (fun (t : Tab (Nat × Nat)) a =>
    let via := a.near.foldl (fun b n =>
      let v := n.uid.toNat
      if v = dest || db.any (fun c => c.uid = n.uid && carries c) then shorter b ((d.find v).map fun x => (x.1 + n.cost, x.2 + 1)) else b) none
    match shorter (d.find a.uid.toNat) via with
    | some x => t.set a.uid.toNat x
    | none => t) d

/-- Path lengths of at most `n` hops to `dest`, by device. -/
def paths (db : List Advert) (carries : Advert → Bool) (dest : Nat) : Nat → Tab (Nat × Nat)
  | 0 => [(dest, (0, 0))]
  | n + 1 => pathRound db carries dest (paths db carries dest n)

/-- Hops to the time master (0x2701:06), 255 with no path of at most 15. -/
def State.masterHops (s : State) (m : Option (BitVec 64)) : Nat :=
  match m with
  | none => 255
  | some u => (((paths s.fab.db (fun _ => true) u.toNat 15).find Config.uid.toNat).map (·.2)).getD 255

/-- A change of master: the follower has not yet joined its time (02 R40). -/
def State.setMaster (s : State) (m : Option (BitVec 64)) : State :=
  if s.fab.master = m then s
  else { s with fab := { s.fab with master := m, joined := false, hops := s.masterHops m } }

/-- Elect (16 R355): without a master in the database at once; a better one waits for MASTER_DISPLACEMENT. -/
def State.elect (s : State) : State :=
  let best := (bestMaster s.fab.db).map (·.uid)
  let present := s.fab.db.any fun a => some a.uid = s.fab.master && a.role = 0
  if present then { s with fab := { s.fab with better := if best = s.fab.master then none else best } }
  else let s1 := s.setMaster best
       { s1 with fab := { s1.fab with better := none } }

/-! Flooding (16 R351). -/

/-- Flood this device's own advert with the next generation. -/
def State.advertise (s : State) : State :=
  let s1 : State := { s with fab := { s.fab with gen := s.fab.gen + 1 } }
  let a := s1.ownAdvert
  ((s1.keepAdvert a).elect).floodOwn (advertFlits a)

/-- A port whose link has gone down is the last choice of its DATA routes from now on, until they are computed anew (16 R352, R353). -/
def State.demote (s : State) (k : Nat) : State :=
  { s with fab := { s.fab with dataRoutes := s.fab.dataRoutes.map fun (e : Nat × List Nat) =>
      (e.1, if e.2.contains k then e.2.filter (· != k) ++ [k] else e.2) } }

/-- A unicast flit that waited at a port whose link has gone down takes the alternate of its route (16 R352); without one it is lost. -/
def State.reroute (s : State) (q : Flit × Option Nat) : State :=
  let free := match q.2 with
    | some j => s.freeBuffer j q.1.vc.toNat
    | none => s
  if q.1.type.toNat < 5 then free
  else match s.routePort q.1.type.toNat q.1.dst.toNat with
    | some k => s.sendFrom q.2 k q.1
    | none => free

/-- The ports that were up before and are no longer: alternates take over at once (16 R352, R353). -/
def State.failLinks (s before : State) : State :=
  let lost := (before.upPorts none).filter fun k => !(s.fport k).isUp
  let s1 := lost.foldl State.demote s
  lost.foldl (fun (t : State) k => (before.fport k).txq.foldl State.reroute t) s1

/-- A link of the device has changed since the state before: alternates take over, and its advert is flooded at once (16 R351, R352, R354). -/
def State.linkChange (s before : State) : State := if s.neighbours = before.neighbours then s else (s.failLinks before).advertise

/-! Training and loss (16 R340, R341). -/

/-- Log a port's state, at most once a second for its training attempts (16 R340). -/
def State.logTrain (s : State) (k : Nat) : State :=
  let x := s.fport k
  if onceASecond s.now x.trainLogAt then
    (s.setFport k { x with trainLogAt := some s.now }).logE 1 1 (0x2710 + k) 1 x.st.val
  else s

/-- A port with the link state of a fresh training: what belongs to seconds of chip time stays. -/
def FabPort.fresh (x : FabPort) (st : Fin 7) (oneLane : Bool) : FabPort :=
  { st := st, oneLane := oneLane, partner := x.partner, violSecond := x.violSecond, violCount := x.violCount, checkSecond := x.checkSecond,
    checkCount := x.checkCount, trainLogAt := x.trainLogAt, violLogAt := x.violLogAt }

/-- Start training: the port sends its HELLO once the lanes are aligned (16 R340, R349). -/
def State.train (s : State) (k : Nat) (oneLane : Bool) : State :=
  let s1 := ((s.setFport k ((s.fport k).fresh 2 oneLane)).logTrain k).linkChange s
  s1.launch k (s1.helloFlit k)

/-- The link goes down (16 R341): flits in its replay buffer are discarded (16 R352). -/
def State.linkLost (s : State) (k : Nat) : State :=
  ((s.setFport k ((s.fport k).fresh 1 false)).logE 1 1 (0x2710 + k) 1 1).linkChange s

/-- Ports follow 0x2700:01, and the node ID its mode, when the fabric settings come into force; a dynamic ID is kept until the next reset, and a link that
goes away is a change of the device's own (16 R340, R350, R351). -/
def State.applyFabric (s : State) : State :=
  let s1 := (List.range 8).foldl (fun (t : State) k =>
    if t.fabEnabled k then (if (t.fport k).st = 0 then t.setFport k { st := 1 } else t)
    else if (t.fport k).st = 0 then t else t.setFport k {}) s
  let node : Option Byte := if !s1.fabStatic then s1.fab.node else if s1.cfg 0x2700 1 = 0 then none else some (BitVec.ofNat 8 (s1.cfg 0x2700 3))
  let s2 : State := { s1 with fab := { s1.fab with node := node } }
  let s3 := if node = s.fab.node then s2 else s2.logE 1 1 0x2701 2 (match node with | some n => n.toNat | none => 0xFFFF)
  (s3.linkChange s).setFabSt (if s3.fab.st = 2 then 2 else 1)

/-- Whether a port handles flits: enabled, training or up, while the core runs. -/
def State.fabHears (s : State) (k : Nat) : Bool := s.served && s.fabEnabled k && ((s.fport k).st = 2 || (s.fport k).isUp)

/-- SIGNAL_DETECT (16 R340). -/
def execSignalDetect (k : Fin 8) (s : State) : Host.Outcome State Fault Refusal :=
  .next (if s.served && s.fabEnabled k.val && (s.fport k.val).st = 1 then s.train k.val false else s)

/-- TRAINING_TIMEOUT (16 R340). -/
def execTrainingTimeout (k : Fin 8) (s : State) : Host.Outcome State Fault Refusal :=
  .next (if s.served && (s.fport k.val).st = 2 then s.train k.val false else s)

/-- FLIT_SILENCE_TIMEOUT (16 R341). -/
def execFlitSilenceTimeout (k : Fin 8) (s : State) : Host.Outcome State Fault Refusal :=
  .next (if s.served && (s.fport k.val).isUp then s.linkLost k.val else s)

/-- LANE_LOCK_LOSS (16 R341): on one lane the link retrains on the other, on both it goes down. -/
def execLaneLockLoss (k : Fin 8) (both : Bool) (s : State) : Host.Outcome State Fault Refusal :=
  .next (if s.fabHears k.val then (if both || (s.fport k.val).oneLane then s.linkLost k.val else s.train k.val true) else s)

/-- QUARANTINE_EXPIRY (16 R347). -/
def execQuarantineExpiry (k : Fin 8) (s : State) : Host.Outcome State Fault Refusal :=
  .next (if s.served && (s.fport k.val).st = 5 then s.train k.val false else s)

/-- LOOPED_RETRAIN_TIMER (16 R341). -/
def execLoopedRetrainTimer (k : Fin 8) (s : State) : Host.Outcome State Fault Refusal :=
  .next (if s.served && (s.fport k.val).st = 6 then s.train k.val false else s)

/-- FABRIC_HELLO_TIMER (16 R349): each port that is up, or whose training has reached its HELLO, sends one. -/
def State.hellos (s : State) : State :=
  (List.range 8).foldl (fun (t : State) k => if (t.fport k).isUp then t.sendSeq k (t.helloFlit k) else t) s

/-- FABRIC_HELLO_TIMER (16 R349). -/
def execFabricHelloTimer (s : State) : Host.Outcome State Fault Refusal := .next (if s.served then s.hellos else s)

/-! Retry (16 R345). -/

/-- A NAK flit: reason, expected SEQ, dropped SEQ (16 R343). -/
def State.fabNak (s : State) (k : Nat) (reason : Nat) (dropped : Byte) : State :=
  s.sendPlain k (mkFlit 1 0 [BitVec.ofNat 8 reason, (s.fport k).rxNext, dropped])

/-- A check failure or a SEQ ahead: one NAK for each expected SEQ (16 R345). -/
def State.nakOnce (s : State) (k reason : Nat) (dropped : Byte) : State :=
  let x := s.fport k
  if (x.nakFor.map (·.1)) = some x.rxNext then s
  else (s.setFport k { x with nakFor := some (x.rxNext, BitVec.ofNat 8 reason, dropped) }).fabNak k reason dropped

/-- Count a violation in its second of chip time; the 65th quarantines the link (16 R346, R347). -/
def State.countViolation (s : State) (k : Nat) : State :=
  let sec := s.now / secTicks
  let x := s.fport k
  let n := if x.violSecond = sec then x.violCount + 1 else 1
  let s1 := (s.setFport k { x with violSecond := sec, violCount := n }).bump (0x2710 + k) 6
  let s2 := if onceASecond s.now x.violLogAt then
      (s1.setFport k { s1.fport k with violLogAt := some s.now }).logCount 1 (0x2710 + k) 6
    else s1
  if n = 65 then (((s2.setFport k ((s2.fport k).fresh 5 false)).bump (0x2710 + k) 7).logCount 3 (0x2710 + k) 7).linkChange s else s2

/-- A partner violation (16 R346): the flit is dropped, a NAK with the reason goes back, and it is counted. -/
def State.violate (s : State) (k reason : Nat) (f : Flit) : State := (s.fabNak k reason f.seq).countViolation k

/-- Runaway retry (16 R346 reason 7): a violation; the link retrains at once and the replay buffer is discarded. -/
def State.runaway (s : State) (k : Nat) : State :=
  let s1 := (s.fabNak k 7 0).countViolation k
  if (s1.fport k).st = 5 then s1 else s1.train k false

/-- Send the replay buffer again from its flit number `from_` on (16 R345); a flit sent 16 times already is a runaway retry. -/
def State.resend (s : State) (k from_ : Nat) : State :=
  let x := s.fport k
  if (x.unacked.drop from_).any fun u => 16 ≤ u.sent then s.runaway k
  else if (x.unacked.drop from_).isEmpty then s
  else
    let x1 := { x with unacked := x.unacked.take from_ ++ (x.unacked.drop from_).map fun u => { u with sent := u.sent + 1 } }
    (x.unacked.drop from_).foldl (fun (t : State) u => t.emitFlit k u.flit) ((s.setFport k x1).bump (0x2710 + k) 5)

/-- The SEQ of the oldest flit not acknowledged, or the next one to send. -/
def FabPort.base (x : FabPort) : Byte := ((x.unacked.head?).map fun u => u.flit.seq).getD x.txSeq

/-- How many flits an ACK releases; none when it names no outstanding SEQ and is not the last one acknowledged (16 R342, R346). -/
def FabPort.ackCount (x : FabPort) (ack : Byte) : Option Nat :=
  let n := (ack + 1 - x.base).toNat
  if n ≤ x.unacked.length then some n else none

/-- Take the ACK and the credits of a flit that arrived (16 R344, R345). -/
def State.takeAck (s : State) (k : Nat) (f : Flit) (n : Nat) : State :=
  let x := s.fport k
  let cr := if f.cvc = 3 then x.credits else x.credits.set f.cvc.toNat (Tab.get 64 x.credits f.cvc.toNat + f.ccnt.toNat)
  ((s.setFport k { x with unacked := x.unacked.drop n, credits := cr }).flushTx k 64).drainExports

/-- The link is up once each side has a valid HELLO of the other: this side's is acknowledged (16 R340). -/
def State.tryUp (s : State) (k : Nat) : State :=
  let x := s.fport k
  if x.st = 2 && x.helloSeen && x.unacked.isEmpty then
    ((s.setFport k { x with st := if x.oneLane then 4 else 3 }).logE 1 1 (0x2710 + k) 1 (if x.oneLane then 4 else 3)).linkChange s
  else s

/-! Receiving (16 R342 to R346). -/

/-- Whether a type is sequenced (16 R343). -/
def seqFlit (f : Flit) : Bool := f.type = 2 || (4 ≤ f.type.toNat && f.type.toNat ≤ 7)

/-- Virtual channel of a type (16 R343). -/
def typeVc (t : Nat) : Nat := if t ≤ 3 then 0 else if t ≤ 6 then 1 else 2

/-- Whether a type has messages of several flits (16 R343). -/
def multiFlit (f : Flit) : Bool := f.type = 4 || f.type = 6 || f.type = 7

/-- Malformed (16 R346 reason 2), as far as one flit shows. -/
def badFlit (f : Flit) : Bool :=
  52 < f.plen.toNat || f.vc = 3 || f.tspec.toNat % 64 != 0 || (!multiFlit f && f.tspec != 0) || f.vc.toNat != typeVc f.type.toNat ||
  (f.type = 6 && f.tspec.toNat / 128 = 1 && 4 < (f.payload.getD 0 0).toNat)

/-- The reason a flit is a violation, if it is one (16 R346); the lowest reason number counts. -/
def State.violation (s : State) (k : Nat) (f : Flit) : Option Nat :=
  let x := s.fport k
  let ser := serial 8 x.rxNext.toNat f.seq.toNat
  if 8 ≤ f.type.toNat then some 3
  else if badFlit f then some 2
  else if seqFlit f && f.type != 2 && !x.helloSeen then some 3
  else if (x.ackCount f.ack).isNone || (seqFlit f && ser = Serial.unordered) then some 4
  else if seqFlit f && ser = Serial.equal && Tab.get 64 x.space f.vc.toNat = 0 then some 5
  else none

/-- Accept a sequenced flit: the next SEQ is expected, a credit is used and, the flit being consumed, owed back (16 R344). -/
def State.acceptSeq (s : State) (k : Nat) (f : Flit) : State :=
  let x := s.fport k
  let v := f.vc.toNat
  s.setFport k { x with rxNext := x.rxNext + 1, nakFor := none, space := x.space.set v (Tab.get 64 x.space v - 1),
                        owed := x.owed.set v (Tab.get 0 x.owed v + 1) }

/-- An idle flit goes out when nothing else has: it carries the ACK and the credits (16 R343). -/
def State.idleAfter (s : State) (k n : Nat) : State := if s.out.length = n && s.fabHears k then s.sendPlain k (mkFlit 0 0 []) else s

/-- A flit with a good check arrives on a port, and `act` is what an accepted flit of the awaited types does. The second part says whether it was
accepted. -/
def State.rx (s : State) (k : Nat) (want : Nat → Bool) (f : Flit) (act : State → State) : State × Bool :=
  if s.fabHears k && (want f.type.toNat || 8 ≤ f.type.toNat) then
    match s.violation k f with
    | some r => (s.violate k r f, false)
    | none =>
      let s1 := s.takeAck k f (((s.fport k).ackCount f.ack).getD 0)
      let n := s1.out.length
      if seqFlit f then
        match serial 8 (s1.fport k).rxNext.toNat f.seq.toNat with
        | .equal => (((act (s1.acceptSeq k f)).tryUp k).idleAfter k n, true)
        | .later => (s1.nakOnce k 6 f.seq, false)
        | _ => (s1, false)
      else ((act s1).tryUp k, true)
  else (s, false)

/-- The used payload bytes of a flit (16 R342). -/
def usedBytes (f : Flit) : List Byte := fit f.plen.toNat f.payload

/-- What an accepted HELLO does (16 R341, R349). -/
def State.fabHelloIn (s : State) (k : Nat) (f : Flit) : State :=
  let b := usedBytes f
  let uid := BitVec.ofNat 64 (leNat (slice b 0 8))
  let flags := b.getD 8 0
  let x := s.fport k
  if uid = Config.uid then
    ((s.setFport k { x.fresh 6 false with partner := uid }).logE 1 1 (0x2710 + k) 1 6).linkChange s
  else if x.isUp && x.partner != uid then (s.setFport k { x with partner := uid }).train k false
  else
    s.setFport k { x with helloSeen := true, partner := uid, partnerRole := BitVec.ofNat 2 (flags.toNat / 16),
                          partnerNode := if flags.toNat / 128 = 1 then some (b.getD 9 0) else none }

/-- HELLO_FLIT_RECEIVED (16 R341). -/
def execHelloFlitReceived (k : Fin 8) (flit : Flit) (s : State) : Host.Outcome State Fault Refusal :=
  .next (s.rx k.val (· = 2) flit fun t => t.fabHelloIn k.val flit).1

/-- What a NAK does: the buffer goes again from the expected SEQ, and the burst is logged (16 R345, R347). -/
def State.fabNakIn (s : State) (k : Nat) (f : Flit) : State :=
  let x := s.fport k
  let n := (((usedBytes f).getD 1 0) - x.base).toNat
  if n < x.unacked.length then
    let s1 := s.resend k n
    s1.logCount 1 (0x2710 + k) 5
  else s

/-- NAK_FLIT_RECEIVED (16 R345). -/
def execNakFlitReceived (k : Fin 8) (flit : Flit) (s : State) : Host.Outcome State Fault Refusal :=
  .next (s.rx k.val (· = 1) flit fun t => t.fabNakIn k.val flit).1

/-- RETRY_TIMEOUT (16 R345): a NAK whose expected SEQ has not come is repeated, and the replay buffer goes again from its oldest flit. -/
def State.retry (s : State) (k : Nat) : State :=
  if s.fabHears k then
    (match (s.fport k).nakFor with
      | some r => s.fabNak k r.2.1.toNat r.2.2
      | none => s).resend k 0
  else s

/-- RETRY_TIMEOUT (16 R345). -/
def execRetryTimeout (k : Fin 8) (s : State) : Host.Outcome State Fault Refusal := .next (s.retry k.val)

/-- A flit whose check fails (16 R345, R346): dropped, counted, NAK reason 1; the 10,001st of a second retrains the link. -/
def State.checkFailed (s : State) (k : Nat) : State :=
  if s.fabHears k then
    let sec := s.now / secTicks
    let x := s.fport k
    let n := if x.checkSecond = sec then x.checkCount + 1 else 1
    let s1 := (s.setFport k { x with checkSecond := sec, checkCount := n }).bump (0x2710 + k) 4
    if n = 10001 then s1.train k false else s1.nakOnce k 1 0
  else s

/-- FLIT_CHECK_FAILED (16 R345). -/
def execFlitCheckFailed (k : Fin 8) (s : State) : Host.Outcome State Fault Refusal := .next (s.checkFailed k.val)

/-- IDLE_FLIT_RECEIVED (16 R344). -/
def execIdleFlitReceived (k : Fin 8) (flit : Flit) (s : State) : Host.Outcome State Fault Refusal :=
  .next (s.rx k.val (· = 0) flit id).1

/-! Unicast flits. -/

/-- Whether this device takes unicast flits for itself: it holds the node ID, and its ROLE is not 2 (16 R348, R350). -/
def State.fabMine (s : State) (f : Flit) : Bool := s.fab.node = some f.dst && s.fabRole != 2

/-- A flit that goes on stays in the receive buffer of the port it came by until it leaves: the credit that its arrival owed is taken back (16 R344). -/
def State.keepBuffer (s : State) (k v : Nat) : State :=
  let x := s.fport k
  s.setFport k { x with owed := x.owed.set v (Tab.get 0 x.owed v - 1) }

/-- A unicast flit for another device that came by port `k` goes on, or is dropped at the hop limit (16 R344, R352). -/
def State.forward (s : State) (k : Nat) (f : Flit) : State :=
  if s.fabRole = 2 then s
  else if f.hops = 15 then
    let s1 := s.bump 0x2701 9
    if onceASecond s.now s.fab.hopLogAt then
      ({ s1 with fab := { s1.fab with hopLogAt := some s.now } }).logCount 1 0x2701 9
    else s1
  else
    match s.routePort f.type.toNat f.dst.toNat with
    | some j => (s.keepBuffer k f.vc.toNat).sendFrom (some k) j { f with hops := f.hops + 1 }
    | none => s

/-- A flooded message goes on through every up port but the one it came by (16 R343). -/
def State.floodOn (s : State) (k : Nat) (fs : List Flit) : State :=
  if (fs.all fun f => f.hops.toNat < 15) then s.flood (some k) (fs.map fun f => { f with hops := f.hops + 1 }) else s

/-- The flits of one message arrive in order; each for another device goes on. The second part says that all were accepted. -/
def State.rxAll (s : State) (k type : Nat) (flooded : Bool) : List Flit → State × Bool
  | [] => (s, true)
  | f :: t =>
    let r := s.rx k (· = type) f fun u => if flooded || u.fabMine f then u else u.forward k f
    let q := State.rxAll r.1 k type flooded t
    (q.1, r.2 && q.2)

/-- Whether the flits of a message break FIRST and LAST order (16 R346 reason 2): a FIRST flit, middle ones, a LAST one. -/
def orderOk (fs : List Flit) : Bool :=
  (fs.zipIdx).all fun p => p.1.tspec.toNat = 128 * bit01 (p.2 = 0) + 64 * bit01 (p.2 + 1 = fs.length)

/-- A whole message of a type on a port: `act` serves it when all its flits were accepted in order and it is for this device. -/
def State.rxMessage (s : State) (k type : Nat) (flooded : Bool) (fs : List Flit) (act : State → State) : State :=
  match fs with
  | [] => s
  | f :: _ =>
    if orderOk fs || fs.any (fun g => g.type.toNat != type) then
      let r := s.rxAll k type flooded fs
      if r.2 && (flooded || r.1.fabMine f) then act r.1 else r.1
    else if s.fabHears k then s.violate k 2 f else s

end Sys2Proof.Machine
end

