-- ==== Sys2Proof/Machine/FabRoutes.lean ====
section
/-! DEFINITION. The fabric's database, routes, node IDs and time master (16 R350 to R355). -/

namespace Sys2Proof.Machine

/-! Adverts (16 R343, R351). -/

/-- Read an advert from its flits. -/
def readAdvert (now : Nat) (fs : List Flit) : Advert :=
  let b := fit 50 ((fs.head?.map usedBytes).getD [])
  let e := slice b 14 36 ++ fit 36 (((fs.drop 1).head?.map usedBytes).getD [])
  let entry := fun (i : Nat) =>
    let v := (e.getD (9 * i + 8) 0).toNat
    (⟨BitVec.ofNat 64 (leNat (slice e (9 * i) 8)), v % 8, v / 8 % 16⟩ : Neighbour)
  ⟨BitVec.ofNat 64 (leNat (slice b 0 8)), BitVec.ofNat 16 (leNat (slice b 8 2)), b.getD 10 0, b.getD 11 0, b.getD 12 0,
    (List.range (min 8 (b.getD 13 0).toNat)).map entry, now⟩

/-! The time master (16 R355). -/

/-- MASTER_DISPLACEMENT (16 R355). -/
def execMasterDisplacement (s : State) : Host.Outcome State Fault Refusal :=
  .next (if s.served && s.fab.better.isSome then
      let s1 := s.setMaster s.fab.better
      { s1 with fab := { s1.fab with better := none } }
    else s)

/-! Routes (16 R352). -/

/-- The ports of a route: the up ports that reach `dest`, by cost and number; after the first only those whose neighbour is nearer (16 R352). -/
def State.routeTo (s : State) (dest : Nat) : List Nat :=
  let d := paths s.fab.db (fun a => a.role != 2) dest 14
  let me := (((paths s.fab.db (fun a => a.role != 2) dest 15).find Config.uid.toNat).map (·.1)).getD 0
  let ok := fun (k : Nat) => (s.fport k).partnerRole != 2 || (s.fport k).partner.toNat = dest
  let cands : List (Nat × Nat) := (s.upPorts none).filterMap fun k =>
    if ok k then (d.find (s.fport k).partner.toNat).map fun x => (k, x.1) else none
  let order := cands.mergeSort fun a b => a.2 + (s.fport a.1).cost ≤ b.2 + (s.fport b.1).cost
  match order with
  | [] => []
  | p :: t => p.1 :: ((t.filter fun q => q.2 < me).take 4).map (·.1)

/-- Keep a destination's next hop for DATA outside IDLE while its port is up (16 R353). -/
def State.dataRoute (s : State) (node : Nat) (ports : List Nat) : List Nat :=
  match s.routePort 7 node with
  | some k => if s.sess.st = .idle then ports else k :: ports.filter (· != k)
  | none => ports

/-- Devices that a path of links leads to, in at most `n` more hops. -/
def reachable (db : List Advert) (have_ : List Nat) : Nat → List Nat
  | 0 => have_
  | n + 1 =>
    let more := (db.filter fun a => have_.contains a.uid.toNat).flatMap fun a => a.near.map (·.uid.toNat)
    reachable db (have_ ++ more.eraseDups.filter fun u => !have_.contains u) n

/-- Recompute the routes (16 R352, R353): adverts that no path reaches leave, and the tables are written anew. -/
def State.recompute (s : State) : State :=
  let live := reachable s.fab.db (Config.uid.toNat :: s.neighbours.map (·.uid.toNat)) 256
  let s1 : State := { s with fab := { s.fab with db := s.fab.db.filter fun a => live.contains a.uid.toNat } }
  let dests := s1.fab.db.filter fun a => a.held && a.role != 2 && a.uid != Config.uid
  let tabs : List (Nat × List Nat) := dests.map fun a => (a.node.toNat, s1.routeTo a.uid.toNat)
  let routes := tabs.foldl (fun (t : Tab (List Nat)) e => t.set e.1 e.2) []
  let dataRoutes := tabs.foldl (fun (t : Tab (List Nat)) e => t.set e.1 (s1.dataRoute e.1 e.2)) []
  let s2 : State := { s1 with fab := { s1.fab with routes := routes, dataRoutes := dataRoutes } }
  let s3 := (s2.bump 0x2701 8).elect
  (({ s3 with fab := { s3.fab with hops := s3.masterHops s3.fab.master } }).setFabSt 2).drainExports

/-- ROUTE_RECOMPUTE (16 R352). -/
def execRouteRecompute (s : State) : Host.Outcome State Fault Refusal :=
  .next (if s.served && s.cfg 0x2700 1 != 0 then s.recompute else s)

/-! Node IDs (16 R350). -/

/-- Log and take a change of node ID. -/
def State.setNode (s : State) (n : Option Byte) : State :=
  if s.fab.node = n then s
  else
    let s1 : State := { s with fab := { s.fab with node := n } }
    (s1.logE 1 1 0x2701 2 (match n with | some v => v.toNat | none => 0xFFFF)).setFabSt 1

/-- Whether this device gives up its node ID to another that holds the same one (16 R350). -/
def State.losesTo (s : State) (a : Advert) : Bool :=
  a.uid != Config.uid && a.held && s.fab.node = some a.node &&
  (if s.fabStatic then a.static_ && Config.uid.toNat > a.uid.toNat
   else a.static_ || a.uid.toNat < Config.uid.toNat)

/-- The dynamic ID this device takes: devices in dynamic mode without one, in ascending UID order, take the lowest IDs that no device holds. -/
def State.dynamicId (s : State) : Option Nat :=
  let others := s.fab.db.filter fun a => a.uid != Config.uid
  let held := (others.filter Advert.held).map (·.node.toNat)
  let free := (List.range 256).filter fun n => !held.contains n
  let before := (others.filter fun a => !a.held && !a.static_ && a.uid.toNat < Config.uid.toNat).length
  free[before]?

/-- NODE_ID_TIMER (16 R350). -/
def execNodeIdTimer (s : State) : Host.Outcome State Fault Refusal :=
  .next (if s.served && s.cfg 0x2700 1 != 0 && !s.fabStatic && s.fab.node.isNone then s.setNode (s.dynamicId.map (BitVec.ofNat 8)) else s)

/-! Flooding (16 R351). -/

/-- ROUTE_ADVERT_TIMER (16 R351). -/
def execRouteAdvertTimer (s : State) : Host.Outcome State Fault Refusal :=
  .next (if s.served && s.cfg 0x2700 1 != 0 then s.advertise else s)

/-- An advert arrives (16 R351): stored and flooded on when later; an own one that is later or unordered raises this device's generation. -/
def State.advertIn (s : State) (k : Nat) (fs : List Flit) : State :=
  let a := readAdvert s.now fs
  if a.uid = Config.uid then
    match serial 16 s.fab.gen.toNat a.gen.toNat with
    | .later => { s with fab := { s.fab with gen := a.gen } }.advertise
    | .unordered => { s with fab := { s.fab with gen := a.gen } }.advertise
    | _ => s
  else
    let later := match s.advertOf a.uid with
      | none => true
      | some b => serial 16 b.gen.toNat a.gen.toNat = Serial.later
    if later then
      let changed := match s.advertOf a.uid with
        | none => true
        | some b => b.flags != a.flags || b.node != a.node || b.near != a.near
      let s1 := (s.keepAdvert a).floodOn k fs
      let s2 := if changed then s1.setFabSt 1 else s1
      (if s2.losesTo a then s2.setNode none else s2).elect
    else s

/-- ROUTE_ADVERT_RECEIVED (16 R351). -/
def execRouteAdvertReceived (k : Fin 8) (flits : List Flit) (s : State) : Host.Outcome State Fault Refusal :=
  .next (s.rxMessage k.val 4 true flits fun t => t.advertIn k.val flits)

/-- ADVERT_AGE_EXPIRY (16 R351). -/
def execAdvertAgeExpiry (uid : BitVec 64) (s : State) : Host.Outcome State Fault Refusal :=
  .next (match s.advertOf uid with
    | none => s
    | some a =>
      if s.served && uid != Config.uid then
        let s1 := s.reach (a.since + 3 * secTicks)
        ({ s1 with fab := { s1.fab with db := s1.fab.db.filter (·.uid != uid) } }).elect.setFabSt 1
      else s)

/-! Fabric time (16 R356, R357). -/

/-- Epoch and tick of a signed full count (16 R343). -/
def timeBytesI (c : Int) : List Byte := let w := ofSigned 80 c; leBytes 4 (w / 2 ^ 48) ++ leBytes 6 w

/-- Epoch and tick of a full count (16 R343). -/
def timeBytes (c : Nat) : List Byte := leBytes 4 (c / 2 ^ 48) ++ leBytes 6 c

/-- The full count ten bytes spell. -/
def readTime (b : List Byte) (o : Nat) : Nat := leNat (slice b o 4) * 2 ^ 48 + leNat (slice b (o + 4) 6)

/-- Calibrated time of a flit's first bit at a fabric port (16 R356, 02 R30). -/
def State.flitTime (s : State) (k : Nat) (e : Stamp) : Int := (e.count + e.phase.val : Nat) - (Config.inputDelay (0x200 + k) s.tb.calGen : Int)

/-- Calibrated time at the pins of the first bit of a flit that leaves now (16 R356, 02 R30). -/
def State.flitOut (s : State) (k : Nat) : Nat := s.now + Config.outputDelay (0x200 + k) s.tb.calGen

/-- Send TIME REQ on every up port (16 R356). -/
def State.timeReqs (s : State) : State :=
  (s.upPorts none).foldl (fun (t : State) k =>
    (t.setFport k { t.fport k with req := some (t.flitOut k) }).sendPlain k (mkFlit 3 0 (0 :: timeBytes (t.flitOut k)))) s

/-- TIME_REQ_TIMER (16 R356). -/
def execTimeReqTimer (s : State) : Host.Outcome State Fault Refusal := .next (if s.served then s.timeReqs else s)

/-- TIME_REQ_RECEIVED (16 R356): a RESP with t1, t2 and t3. -/
def execTimeReqReceived (k : Fin 8) (flit : Flit) (edge : Stamp) (s : State) : Host.Outcome State Fault Refusal :=
  .next ((s.reach edge.count).rx k.val (· = 3) flit fun t =>
    if (usedBytes flit).getD 0 0 = 0 then
      t.sendPlain k.val (mkFlit 3 0 (1 :: (slice (usedBytes flit) 1 10 ++ timeBytesI (t.flitTime k.val edge) ++ timeBytes (t.flitOut k.val))))
    else t).1

/-- The upstream port (16 R357): the up port on the shortest path to the master, the lowest of equal ones. -/
def State.upstream (s : State) : Option Nat :=
  match s.fab.master with
  | none => none
  | some m =>
    if m = Config.uid then none
    else
      let d := paths s.fab.db (fun _ => true) m.toNat 14
      let cost := fun (k : Nat) => (d.find (s.fport k).partner.toNat).map fun x => x.1 + (s.fport k).cost
      (s.upPorts none).foldl (fun (b : Option Nat) k =>
        match b with
        | none => if (cost k).isSome then some k else none
        | some j => match cost k, cost j with
          | some x, some y => if x < y then some k else b
          | _, _ => b) none

/-- Median of a list, the lower of the two middle ones. -/
def median (l : List Int) : Int := ((l.mergeSort fun a b => a ≤ b)[(l.length - 1) / 2]?).getD 0

/-- A follower's mapping is its master's, with the UTC offset, whenever the two differ (02 R40, R41). -/
def State.masterMap (s : State) (x : TaiMap) : State :=
  let m : Mapping := ⟨x.c0e, x.c0t, x.t0s, x.t0ns, x.t0q⟩
  if s.tb.map = m && s.tb.validity = 3 && s.cfg 0x2210 6 = x.utc.toNat then s else (s.put 0x2210 6 x.utc.toNat).setMap m 3

/-- An exchange with the upstream neighbour disciplines chip time (16 R357, 02 R34, R35, R40, R41). -/
def State.fabricTime (s : State) (k : Nat) (map : TaiMap) : State :=
  let x := s.fport k
  if s.upstream = some k && 16 ≤ x.exchanges then
    let th := median x.thetas
    let f := s.tb.fabric
    let s1 := (s.setSource .fabric { f with since := some (f.since.getD s.now), last := some (s.now : Int), offset := th }).masterMap map
    let s2 := if s1.fab.joined then s1 else s1.joinFabric th
    (if s2.tb.src = 2 then { s2 with tb := { s2.tb with rate := rateFor s2.tb.srcRate s2.tb.fabric.offset } } else s2).noteApart
  else s

/-- A RESP to the REQ in flight (16 R356); after 100 us it is discarded. -/
def State.timeResp (s : State) (k : Nat) (b : List Byte) (e : Stamp) (map : TaiMap) : State :=
  let x := s.fport k
  let t1 := readTime b 1
  let t4 : Int := s.flitTime k e
  if x.req = some t1 && t4 ≤ (t1 : Int) + usTicks 100 then
    let t2 : Int := readTime b 11
    let t3 : Int := readTime b 21
    let d := ((t4 - t1) - (t3 - t2)) / 2
    let theta := ((t2 - t1) + (t3 - t4)) / 2 - s.cfgInt 16 0x2700 (7 + k)
    let s1 := s.setFport k { x with req := none, exchanges := x.exchanges + 1, thetas := ((theta :: x.thetas).take 15) }
    ((s1.put (0x2710 + k) 8 (ofSigned 32 d)).fabricTime k map)
  else s.setFport k { x with req := if x.req = some t1 then none else x.req }

/-- TIME_RESP_RECEIVED (16 R356). -/
def execTimeRespReceived (k : Fin 8) (flit : Flit) (time : FabTime) (s : State) : Host.Outcome State Fault Refusal :=
  .next ((s.reach time.edge.count).rx k.val (· = 3) flit fun t =>
    if (usedBytes flit).getD 0 0 = 1 then t.timeResp k.val (usedBytes flit) time.edge time.map else t).1

/-! Exported records (16 R353, R360). -/

/-- A complete exported record enters the destination pod's stream router (16 R360, 08 R178). -/
def State.importRecord (s : State) (fs : List Flit) : State :=
  let b := (fs.map usedBytes).flatten
  let e := (b.getD 0 0).toNat % 32 * 32 + (b.getD 1 0).toNat % 32
  s.deliver e ((b.getD 2 0).toNat % 2) (b.drop 4)

/-- A DATA flit for this device (16 R353): a FIRST flit discards an incomplete record of its source, which is counted under 04 R83. -/
def State.fabDataIn (s : State) (k : Nat) (f : Flit) : State :=
  let have_ := Tab.get [] s.fab.parts f.src.toNat
  let first := f.tspec.getLsbD 7
  if !first && have_.isEmpty then s.violate k 2 f
  else
    let s1 := if first && !have_.isEmpty then s.bump 0x2301 6 else s
    let fs := (if first then [] else have_) ++ [f]
    if f.tspec.getLsbD 6 then ({ s1 with fab := { s1.fab with parts := s1.fab.parts.erase f.src.toNat } }).importRecord fs
    else { s1 with fab := { s1.fab with parts := s1.fab.parts.set f.src.toNat fs } }

/-- DATA_FLIT_RECEIVED (16 R360). -/
def execDataFlitReceived (k : Fin 8) (flit : Flit) (s : State) : Host.Outcome State Fault Refusal :=
  .next (s.rx k.val (· = 7) flit fun t => if t.fabMine flit then t.fabDataIn k.val flit else t.forward k.val flit).1

/-! Management requests sent (16 R358, 17 R374). -/

/-- Take an outstanding request. -/
def State.takeOut (s : State) (node tag : Byte) : Option (MgmtOut × State) :=
  (s.fab.out.find? fun o => o.node = node && o.tag = tag).map fun o => (o, { s with fab := { s.fab with out := s.fab.out.erase o } })

/-- MGMT_REQUEST_TIMEOUT (16 R358). -/
def execMgmtRequestTimeout (node : Byte) (tag : Byte) (s : State) : Host.Outcome State Fault Refusal :=
  .next (if s.served then
      match s.takeOut node tag with
      | none => s
      | some r => (r.2.bump 0x2701 11).refuse r.1.path r.1.idx.toNat r.1.sub.toNat 0 abTimeout
    else s)

/-- What an answer does (16 R358, 17 R374): the next piece of a piecewise request, or the answer to the caller. A late answer is discarded. -/
def State.mgmtAnswered (s : State) (node : Byte) (b : List Byte) : State :=
  match s.takeOut node (b.getD 1 0) with
  | none => s
  | some (o, s1) =>
    let status := leNat (slice b 4 4)
    let data := (b.drop 12).take (leNat (slice b 2 2))
    if status != 0 then s1.refuse o.path o.idx.toNat o.sub.toNat 0 (BitVec.ofNat 32 status)
    else if o.write then
      if o.rest.isEmpty then s1.answer o.path [] else s1.mgmtSend { o with off := o.off + 3316 }
    else
      let got := o.got ++ data
      if data.length < 3316 || o.want ≤ 3316 then s1.answer o.path got
      else s1.mgmtSend { o with got := got, off := o.off + data.length, want := o.want - data.length }

/-- MGMT_ANSWER_RECEIVED (16 R358). -/
def execMgmtAnswerReceived (k : Fin 8) (flits : List Flit) (s : State) : Host.Outcome State Fault Refusal :=
  .next (match flits with
    | [] => s
    | f :: _ =>
      if (usedBytes f).getD 0 0 = 4 then
        s.rxMessage k.val 6 false flits fun t => t.mgmtAnswered f.src ((flits.map usedBytes).flatten)
      else s)

end Sys2Proof.Machine
end

