-- ==== Sys2Proof/Machine/Profiles.lean ====
section
/-! DEFINITION. Profiles and switching at a tick (17 R385 to R395, 16 R361, R362): preparation, commit, split, revert, save. -/

namespace Sys2Proof.Machine

/-! Profiles as values. -/

/-- Whether a key of the dictionary store is profile-scoped (17 R385). -/
def scopedKey (k : Nat) : Bool := profileScoped (k / 256) (k % 256)

/-- The profile in force: the values that reads return, and the active bank of the classifier (17 R386). -/
def State.profileNow (s : State) : Profile :=
  { vals := s.od.filter fun e => scopedKey e.1, fkt := s.cls.activeBank.fkt, sm := s.cls.activeBank.sm }

/-- The unit that an object's setting belongs to (17 R390); settings of no unit named there belong to the power behaviour, a core unit. -/
def keyUnit (k : Nat) : Nat :=
  let idx := k / 256
  if 0x2310 ≤ idx && idx < 0x23D0 then portUnit (idx - 0x2310)
  else if idx = 0x3400 || idx = 0x3401 then portUnit ((idx - 0x3400) * 128 + k % 256 - 1)
  else if 0x2A40 ≤ idx && idx ≤ 0x2A5F then 144 + (idx - 0x2A40)
  else if idx = 0x2200 then 211
  else if idx = 0x2400 || idx = 0x2500 || idx = 0x2502 then 212
  else if (0x2600 ≤ idx && idx ≤ 0x2620) || (0x3600 ≤ idx && idx ≤ 0x361F) then 213
  else if idx = 0x2700 || (0x3700 ≤ idx && idx ≤ 0x3707) then 214
  else 215

/-- The units of a device by code, the core units among them. -/
def allUnits : List Nat := List.range 216

/-- Put the settings of some units at a profile's values. -/
def State.takeProfile (s : State) (x : Profile) (units : List Nat) : State :=
  let mine := fun (k : Nat) => scopedKey k && units.contains (keyUnit k)
  let kept := s.od.filter fun e => !mine e.1
  { s with od := (x.vals.filter fun e => mine e.1).foldl (fun (t : Tab Nat) e => t.set e.1 e.2) kept }

/-- Whether a setting in force differs from a profile's. -/
def State.differs (s : State) (x : Profile) (idx sub : Nat) : Bool := s.cfg idx sub != x.value idx sub

/-! What follows a change of settings in force. -/

/-- The CAN path takes its port and node ID; a segmented transfer on the old port ends without an answer (17 R370). -/
def State.takeCanPath (s : State) : State :=
  let p := s.cfg 0x2002 1
  let n := s.cfg 0x2002 2
  if s.acc.canPort = p && s.acc.canNode = n then s
  else { s with acc := { s.acc with canPort := p, canNode := n, transfer := none } }

/-- The link takes a new fixed code level (07 R151). -/
def State.takeLevel (s : State) : State :=
  if s.link.role.isSome && s.cfg 0x2600 5 != 6 then { s with link := { s.link with level := Fin.ofNat 6 (s.cfg 0x2600 5) } } else s

/-- A running pod whose image reference has changed is reset and loaded anew, with the copy held for it (13 R289). -/
def State.takeImage (s : State) (old : Profile) (images : Tab (List Byte)) (p : Nat) : State :=
  if !s.differs old (0x2A40 + p) 1 || !(s.pod p).powered || (s.pod p).bad then s
  else let c := (s.setPod p { s.pod p with copy := Tab.find images p }).freeCause
       c.2.podReset p c.1

/-- A link path whose settings have changed resolves its next hop anew (07 R152). -/
def State.takePath (s : State) (old : Profile) (k : Nat) : State :=
  if (List.range 9).any fun j => s.differs old (0x2610 + k) (j + 1) then s.setLpath k { s.lpath k with neighbour := false } else s

/-- Settings of committed units come into force in their units. -/
def State.settingsTaken (s : State) (old : Profile) (units : List Nat) (images : Tab (List Byte)) : State :=
  let s1 := (List.range 4).foldl (fun (t : State) k => t.takePath old k) (s.applyEnables.takeCanPath).takeLevel
  let s2 := if units.contains 214 then s1.applyFabric else s1
  ((List.range 32).foldl (fun (t : State) p => if units.contains (144 + p) then t.takeImage old images p else t) s2).gatePods

/-! Generations (17 R388, R391). -/

/-- Units take a generation from a count on. -/
def State.unitsTake (s : State) (units : List Nat) (g : BitVec 4) (at_ : Nat) : State :=
  { s with sw := { s.sw with units := units.foldl (fun (t : Tab UnitGen) u =>
      let x := t.get {} u
      t.set u { gen := g, old := x.gen, since := at_, commits := x.commits + 1 }) s.sw.units } }

/-- Whether a generation would leave a unit more than 7 behind (17 R388). -/
def State.genTooFar (s : State) (g : BitVec 4) : Bool := allUnits.any fun u => 7 < (g - (s.sw.units.get {} u).gen).toNat

/-! Acceptance (17 R389, 16 R361). -/

/-- Whether this device takes part in switches of its fabric: a node ID, and ROLE 0 or 1 (16 R361). -/
def State.inFabric (s : State) : Bool := s.cfg 0x2700 1 != 0 && s.fab.node.isSome && s.fabRole != 2

/-- A COMMIT flit (16 R343). -/
def commitFlit (kind slot reason : Nat) (coord : BitVec 64) (t : Nat) (old new : BitVec 4) (more : List Byte) : Flit :=
  mkFlit 5 1 ([BitVec.ofNat 8 (kind + 4 * slot + 32 * reason)] ++ leBytes 8 coord.toNat ++ timeBytes t ++ [new ++ old] ++ more)

/-- Begin to prepare a switch: the classifier's check is in progress from now on (04 R86, 17 R390). -/
def State.prepare (s : State) (w : PendingSwitch) : State :=
  let s1 : State := { s with sw := { s.sw with pending := some w, issued := w.newGen, st := 1, lastT := w.commitAt } }
  s1

/-- The slot a switch names, when it holds a profile that passes the profile check (17 R389, R471). -/
def State.goodSlot (s : State) (slot : Nat) : Option Profile :=
  (s.sw.slots.find slot).bind fun x => if (profileCheck x.value).isNone then some x else none

/-- SWITCH_PROFILE (17 R377, R378, R389). -/
def State.cSwitch (s : State) (p : Path) (v : Nat) : State :=
  let par := v / 256
  let slot := par % 8
  let ms := bits par 4 14
  if bits par 3 1 = 1 || bits par 18 6 != 0 || 10000 < ms then s.refuseCmd p v abRange
  else if !(s.sess.st = .idle || s.sess.st = .armed || s.sess.st = .running) || s.switchPending then s.refuseCmd p v abState
  else if (s.goodSlot slot).isNone || s.genTooFar (s.sw.issued + 1) then s.refuseCmd p v abConfig
  else
    let t := s.now + msTicks (if ms = 0 then s.cfg 0x2800 5 else max 10 ms)
    let new := s.sw.issued + 1
    let w : PendingSwitch := ⟨Config.uid, true, t, slot, s.sw.gen, new, [], [], [], [], [], false, false, false, [], (s.goodSlot slot).getD {}, none⟩
    let s1 := s.prepare w
    let s2 := if s1.inFabric then
        let f := commitFlit 0 slot 0 Config.uid t w.oldGen new []
        s1.floodOwn [f]
      else s1
    s2.answer p []

/-- SWITCH_PROFILE (17 R389). -/
def execSwitchProfile (path : Path) (p : W24) (s : State) : Host.Outcome State Fault Refusal :=
  .next (s.requestWrite path 0x2010 1 (leBytes 4 (cmdValue 6 p.toNat)) fun t => t.cSwitch path (cmdValue 6 p.toNat))

/-! Preparation (17 R390). -/

/-- Fields of a replay port entry that may not change at a commit: USE, SRCPORT, PARTNER, MDELAY, QSIZE (06 R131). -/
def frozenEntry (e : Nat) : Nat × Nat × Nat × Nat × Nat := (bits e 7 3, bits e 24 8, bits e 32 8, bits e 72 24, bits e 40 16)

/-- Whether a port's new entry keeps what may not change during a session (06 R131). -/
def State.portPrepared (s : State) (x : Profile) (p : Nat) : Bool :=
  s.sess.st = .idle || frozenEntry (s.repEntry p) = frozenEntry (entryIn x.value p)

/-- Whether the link's new settings keep paths, trusted peers, maximum body and coding pod (07 R151). -/
def State.linkPrepared (s : State) (x : Profile) : Bool :=
  s.sess.st = .idle ||
  !((List.range 4).any (fun k => (List.range 9).any fun j => s.differs x (0x2610 + k) (j + 1)) ||
    (List.range 4).any (fun k => s.differs x 0x2620 (k + 1)) || s.differs x 0x2600 3 || s.differs x 0x2600 6)

/-- A pod's new image, when the profile changes it: its bytes, and the outcome of R287 beside the other images of the new profile (13). -/
def State.newImage (s : State) (x : Profile) (p : Nat) : Option (List Byte × Nat × Nat) :=
  let id := x.value (0x2A40 + p) 1
  let others := ((List.range 32).filter (· != p)).filterMap fun q => s.pst.images.find (x.value (0x2A40 + q) 1)
  if id = 0 || id = s.imageRef p then none
  else match s.pst.images.find id with
    | none => some ([], 1, 0)
    | some b => some (b, podCheck s.pst.keyHash b others)

/-- Ports of a unit. -/
def unitPorts (u : Nat) : List Nat := allPorts.filter fun p => portUnit p = u

/-- Whether no entry of a profile's fabric export table holds SPACE 3 (16 R360). -/
def exportsOk (x : Profile) : Bool := x.vals.all fun e => e.1 < 0x3700 * 256 || 0x3708 * 256 ≤ e.1 || bits e.2 46 2 != 3

/-- Whether a unit can commit a profile; the classifier and the pods have their own checks. -/
def State.unitReady (s : State) (x : Profile) (u : Nat) : Bool :=
  if u < 144 || u = 209 || u = 210 then (unitPorts u).all (s.portPrepared x)
  else if u = 213 then s.linkPrepared x
  else if u = 214 then exportsOk x
  else true

/-- The node of a device by its advert. -/
def State.nodeOf (s : State) (uid : BitVec 64) : Option Nat :=
  (s.fab.db.find? fun a => a.uid = uid && a.held).map fun a => a.node.toNat

/-- Answer a coordinator: kind 1 READY, 2 NOTREADY with a reason (16 R361, R362). -/
def State.tellCoord (s : State) (w : PendingSwitch) (kind reason : Nat) : State :=
  match s.nodeOf w.coord with
  | none => s
  | some n => (s.sendTo n [commitFlit kind w.slot reason w.coord w.commitAt w.oldGen w.newGen []]).1

/-- Record a unit's preparation; a peer answers READY with its last one, NOTREADY reason 1 with the first that cannot be (16 R361). -/
def State.noteUnit (s : State) (w : PendingSwitch) (u : Nat) (ok : Bool) : State :=
  let w1 := if ok then { w with prepared := w.prepared ++ [u] } else { w with refusedUnits := w.refusedUnits ++ [u] }
  let s1 : State := { s with sw := { s.sw with pending := some w1 } }
  if w.local_ then s1
  else if ok then (if w1.prepared.length = 216 then s1.tellCoord w1 1 0 else s1)
  else if w.refusedUnits.isEmpty then s1.tellCoord w1 2 1 else s1

/-- The classifier prepares: the profile's tables in the shadow bank, with the check of R86. -/
def State.classifierPrepares (s : State) (w : PendingSwitch) (x : Profile) : State :=
  if s.cls.checking.isSome || s.cls.copying then s
  else
    let b : Bank := ⟨x.fkt, x.sm⟩
    let s1 := s.putShadow b
    let f := s1.checkShadow
    (s1.publishCheck f).noteUnit w 208 f.isNone

/-- A pod prepares: its new image is verified, and held from now on; a failure is recorded as that of a load (13 R287, R289, R296). -/
def State.podPrepares (s : State) (w : PendingSwitch) (x : Profile) (p : Nat) : State :=
  match s.newImage x p with
  | none => s.noteUnit w (144 + p) true
  | some r =>
    if r.2.1 = 0 then s.noteUnit { w with images := w.images.set p r.1 } (144 + p) true
    else (s.loadFailed p r.2.1 r.2.2).noteUnit w (144 + p) false

/-- A unit has finished preparing for the pending switch: its shadow holds what the slot held when the switch was accepted (17 R390). -/
def State.unitPrepared (s : State) (u : Nat) : State :=
  match s.sw.pending with
  | none => s
  | some w =>
    if w.done || w.prepared.contains u || w.refusedUnits.contains u then s
    else if u = 208 then s.classifierPrepares w w.profile
    else if 144 ≤ u && u < 176 then s.podPrepares w w.profile (u - 144)
    else s.noteUnit w u (s.unitReady w.profile u)

/-- UNIT_PREPARED (17 R390). -/
def execUnitPrepared (unit : Unit_) (s : State) : Host.Outcome State Fault Refusal := .next (if s.served then s.unitPrepared (unitCode unit) else s)

/-! Commit, split and revert (17 R391 to R393). -/

/-- One bit for each of `n` codes from `base` on, in bytes. -/
def unitBits (base n : Nat) (l : List Nat) : List Byte :=
  leBytes (n / 8) ((List.range n).map fun i => if l.contains (base + i) then 2 ^ i else 0).sum

/-- Units of a switch that are not prepared: all of them when a core unit is not (17 R390). -/
def PendingSwitch.lacking (w : PendingSwitch) : List Nat :=
  let l := allUnits.filter fun u => !w.prepared.contains u
  if l.any (209 ≤ ·) then allUnits else l

/-- A profile-split record (05 R91). -/
def splitRecord (tick : L48) (outcome : Nat) (w : PendingSwitch) : List Byte :=
  let l := w.lacking
  leBytes 6 tick.toNat ++ [0x12, BitVec.ofNat 8 outcome] ++ leBytes 6 w.commitAt ++ [w.newGen ++ w.oldGen] ++
  unitBits 0 96 l ++ unitBits 96 32 l ++ unitBits 128 16 l ++ unitBits 144 32 l ++ unitBits 176 32 l ++
  [BitVec.ofNat 8 (bit01 (l.contains 208))] ++ unitBits 0 256 w.notReady ++ [0]

/-- The switch has split: record, state 3 and a log entry (17 R392). -/
def State.splitWritten (s : State) (w : PendingSwitch) : State :=
  let s1 := s.ctlPut (splitRecord s.tb.tick 0 w)
  ({ s1 with sw := { s1.sw with st := 3, pending := some { w with split := true, settled := true } } }).logE 2 1 0x2800 10 3

/-- A commit without a split is logged, and the entry enters the session as a health record (17 R391). -/
def State.commitLogged (s : State) (w : PendingSwitch) : State :=
  ({ s with sw := { s.sw with st := 2, pending := some { w with settled := true } } }).logHealth 2 1 0x2800 10 2 []

/-- What is known of the nodes has been settled: the split record, or the entry of the commit. -/
def State.settleSwitch (s : State) (w : PendingSwitch) (nodes : List Nat) : State :=
  let w1 := { w with notReady := nodes }
  if w1.lacking.isEmpty && nodes.isEmpty then s.commitLogged w1 else s.splitWritten w1

/-- The classifier's banks swap with a commit or a revert that includes it (04 R81, R85). -/
def State.swapWith (s : State) (units : List Nat) (at_ : Nat) : State := if units.contains 208 then { s with cls := s.cls.swap at_ } else s

/-- The prepared units commit (17 R391); none when a core unit is not prepared. -/
def State.commitUnits (s : State) (w : PendingSwitch) : State :=
  let units := allUnits.filter fun u => !w.lacking.contains u
  match units with
  | _ :: _ =>
    let old := s.profileNow
    let s1 := ((s.unitsTake units w.newGen w.commitAt).takeProfile w.profile units).swapWith units w.commitAt
    let s2 : State := { s1 with sw := { s1.sw with gen := w.newGen, slot := w.slot, slotBefore := s.sw.slot, shadow := old,
                                                   pending := some { w with committed := units, done := true } } }
    s2.settingsTaken old units w.images
  | [] => { s with sw := { s.sw with pending := some { w with done := true } } }

/-- Nodes that have not answered READY: of the database, other than this one (16 R361). -/
def State.nodesLacking (s : State) (w : PendingSwitch) : List Nat :=
  ((s.fab.db.filter fun a => a.held && a.role != 2 && a.uid != Config.uid).map (·.node.toNat)).filter fun n =>
    w.notReady.contains n || !w.ready.contains n

/-- Commit at T (17 R391, R392); a coordinator floods OUTCOME, a peer waits for it (16 R361). -/
def State.commitTick (s : State) : State :=
  match s.sw.pending with
  | none => s
  | some w =>
    if w.done then s
    else
      let s0 := s.reachTick w.commitAt
      let s1 := s0.commitUnits w
      let w1 := s1.sw.pending.getD w
      if s1.inFabric then
        if w.local_ then
          let nodes := s1.nodesLacking w ++ (if w.lacking.isEmpty then [] else [s1.nodeByte.toNat])
          let f := commitFlit 3 w.slot 0 w.coord w.commitAt w.oldGen w.newGen (unitBits 0 256 nodes)
          (s1.floodOwn [f]).settleSwitch w1 nodes
        else match w1.outcome with
          | some l => s1.settleSwitch w1 l
          | none => s1
      else s1.settleSwitch w1 []

/-- PROFILE_COMMIT_TICK (17 R391). -/
def execProfileCommitTick (s : State) : Host.Outcome State Fault Refusal := .next (if s.served then s.commitTick else s)

/-- Committed units swap their shadow back (17 R393). -/
def State.revertUnits (s : State) (w : PendingSwitch) : State :=
  match w.committed with
  | [] => s
  | _ =>
    let old := s.sw.shadow
    let now := s.profileNow
    let at_ := w.commitAt + msTicks 100
    let s1 := ((s.unitsTake w.committed w.oldGen at_).takeProfile old w.committed).swapWith w.committed at_
    let s2 : State := { s1 with sw := { s1.sw with gen := w.oldGen, slot := s.sw.slotBefore, shadow := now } }
    s2.settingsTaken now w.committed []

/-- T + 100 ms (17 R389, R393): the switch is no longer pending, and a split reverts under policy 0 with a second record. -/
def State.revertTick (s : State) : State :=
  match s.sw.pending with
  | none => s
  | some w =>
    if !w.done then s
    else
      let s0 := s.reachTick (w.commitAt + msTicks 100)
      let s1 := if w.split && s0.cfg 0x2800 6 = 0 then
          let t := (s0.revertUnits w).ctlPut (splitRecord s0.tb.tick 1 w)
          ({ t with sw := { t.sw with st := 4 } }).logE 2 1 0x2800 10 4
        else s0
      { s1 with sw := { s1.sw with pending := none } }

/-- PROFILE_REVERT_TICK (17 R393). -/
def execProfileRevertTick (s : State) : Host.Outcome State Fault Refusal := .next (if s.served then s.revertTick else s)

/-! Switches of other coordinators (16 R361, R362). -/

/-- Coordinator, T, slot and generations of a COMMIT payload. -/
def readCommit (b : List Byte) : PendingSwitch :=
  let g := b.getD 19 0
  ⟨BitVec.ofNat 64 (leNat (slice b 1 8)), false, readTime b 9, (b.getD 0 0).toNat / 4 % 8, g.setWidth 4, BitVec.ofNat 4 (g.toNat / 16), [], [], [], [], [],
    false, false, false, [], {}, none⟩

/-- Whether two switches are the same: coordinator and T (16 R361). -/
def PendingSwitch.same (a b : PendingSwitch) : Bool := a.coord = b.coord && a.commitAt = b.commitAt

/-- Whether switch `b` is kept against `a`: the earlier T, or the lower coordinator (16 R362). -/
def PendingSwitch.beats (b a : PendingSwitch) : Bool :=
  b.commitAt < a.commitAt || (b.commitAt = a.commitAt && b.coord.toNat < a.coord.toNat)

/-- Refuse a PREPARE with NOTREADY reason 2, which is counted (16 R362). -/
def State.refusePrepare (s : State) (w : PendingSwitch) : State := (s.tellCoord w 2 2).bump 0x2701 12

/-- Begin the switch of another coordinator; a slot that is empty or fails gives NOTREADY reason 3, and no unit prepares (16 R362). -/
def State.joinSwitch (s : State) (w : PendingSwitch) : State :=
  match s.goodSlot w.slot with
  | some x => s.prepare { w with profile := x }
  | none =>
    let w1 := { w with refusedUnits := allUnits }
    (s.prepare w1).tellCoord w1 2 3

/-- A PREPARE that has not been seen before (16 R361, R362). -/
def State.prepareIn (s : State) (w : PendingSwitch) : State :=
  match s.sw.pending with
  | none => s.joinSwitch w
  | some a =>
    if a.done || !w.beats a then s.refusePrepare w
    else (s.refusePrepare a).joinSwitch w

/-- PREPARE_RECEIVED (16 R361): flooded on once; a device with a node ID and ROLE 0 or 1 takes part. -/
def State.onPrepare (s : State) (k : Nat) (f : Flit) : State :=
  let w := readCommit (usedBytes f)
  if w.coord = Config.uid || s.sw.prepSeen.contains (w.coord, w.commitAt) || s.fabRole = 2 then s
  else
    let s1 := ({ s with sw := { s.sw with prepSeen := (w.coord, w.commitAt) :: s.sw.prepSeen } }).floodOn k [f]
    if s1.inFabric then s1.prepareIn w else s1

/-- The kind of a COMMIT flit. -/
def commitKind (f : Flit) : Nat := ((usedBytes f).getD 0 0).toNat % 4

/-- PREPARE_RECEIVED (16 R361). -/
def execPrepareReceived (k : Fin 8) (flit : Flit) (s : State) : Host.Outcome State Fault Refusal :=
  .next (if commitKind flit = 0 then (s.rx k.val (· = 5) flit fun t => t.onPrepare k.val flit).1 else s)

/-- READY or NOTREADY at the coordinator, before T (16 R361, R362). -/
def State.onReady (s : State) (f : Flit) : State :=
  match s.sw.pending with
  | none => s
  | some w =>
    let n := f.src.toNat
    if w.local_ && w.same { readCommit (usedBytes f) with local_ := true } && !w.done && s.now < w.commitAt then
      let w1 := if commitKind f = 1 then { w with ready := n :: w.ready.filter (· != n) }
        else { w with notReady := n :: w.notReady.filter (· != n) }
      { s with sw := { s.sw with pending := some w1 } }
    else s

/-- READY_RECEIVED (16 R361). -/
def execReadyReceived (k : Fin 8) (flit : Flit) (s : State) : Host.Outcome State Fault Refusal :=
  .next (if commitKind flit = 1 || commitKind flit = 2 then
      (s.rx k.val (· = 5) flit fun t => if t.fabMine flit then t.onReady flit else t.forward k.val flit).1
    else s)

/-- Nodes of an OUTCOME bitmap. -/
def outcomeNodes (b : List Byte) : List Nat := (List.range 256).filter fun n => (b.getD (20 + n / 8) 0).getLsbD (n % 8)

/-- OUTCOME at a peer (16 R361): flooded on once, and its bitmap goes into the split record; one that comes before the own commit is kept for it. -/
def State.onOutcome (s : State) (k : Nat) (f : Flit) : State :=
  let b := usedBytes f
  let w := readCommit b
  if w.coord = Config.uid || s.sw.outSeen.contains (w.coord, w.commitAt) || s.fabRole = 2 then s
  else
    let s1 := ({ s with sw := { s.sw with outSeen := (w.coord, w.commitAt) :: s.sw.outSeen } }).floodOn k [f]
    match s1.sw.pending with
    | some a =>
      if !a.same w || a.settled then s1
      else if a.done then s1.settleSwitch a (outcomeNodes b)
      else { s1 with sw := { s1.sw with pending := some { a with outcome := some (outcomeNodes b) } } }
    | none => s1

/-- OUTCOME_RECEIVED (16 R361). -/
def execOutcomeReceived (k : Fin 8) (flit : Flit) (s : State) : Host.Outcome State Fault Refusal :=
  .next (if commitKind flit = 3 then (s.rx k.val (· = 5) flit fun t => t.onOutcome k.val flit).1 else s)

/-- No OUTCOME by T + 50 ms (16 R362): a split record with every node but this one. -/
def State.noOutcome (s : State) : State :=
  match s.sw.pending with
  | none => s
  | some w =>
    if w.done && !w.settled then
      (s.reach (w.commitAt + msTicks 50)).settleSwitch w ((List.range 256).filter fun n => some (BitVec.ofNat 8 n) != s.fab.node)
    else s

/-- OUTCOME_TIMEOUT (16 R362). -/
def execOutcomeTimeout (s : State) : Host.Outcome State Fault Refusal := .next (if s.served then s.noOutcome else s)

/-! Saving (17 R386). -/

/-- A write to 0x2800:03: the profile in force goes to a slot's older copy, behind saves still being written; the answer is owed. An uncorrectable byte of
the active bank, which it reads, resets the chip (14 R297). -/
def State.wSave (s : State) (p : Path) (v : Nat) : State :=
  if 7 < v then s.refuse p 0x2800 3 v abRange
  else if s.sess.st != .idle || s.switchPending then s.refuseLog p 0x2800 3 v abState
  else
    let t := s.readSides (sideInBank (!s.cls.active))
    match t.badEntry with
    | some r => t.sideFailed r
    | none => ({ t with sw := { t.sw with saving := t.sw.saving ++ [(p, v, t.profileNow)] } }).owe 0x2800 3

/-- PROFILE_SAVE (17 R386). -/
def execProfileSave (path : Path) (v : Byte) (s : State) : Host.Outcome State Fault Refusal :=
  .next (s.requestWrite path 0x2800 3 [v] fun t => t.wSave path v.toNat)

/-- The copy in flash of the oldest save is durable, and the save is answered (17 R386). -/
def State.saveDone (s : State) : State :=
  match s.sw.saving with
  | [] => s
  | (p, v, x) :: l => ((({ s with sw := { s.sw with saving := l, slots := s.sw.slots.set v x } }).wrote (profileCopies v)).recallOn p 0x2800 3).answer p []

/-- FLASH_WRITE_COMPLETE (17 R386). -/
def execFlashWriteComplete (s : State) : Host.Outcome State Fault Refusal := .next (if s.served then s.saveDone else s)

end Sys2Proof.Machine
end

