-- ==== Sys2Proof/Machine/Boot.lean ====
section
/-! DEFINITION. The boot sequence (19 R439, R440, 17 R387, 18 R400, R412) and the configuration that a wake shares with it (19 R431). -/

namespace Sys2Proof.Machine

/-! Firmware (18 R400, R412). -/

/-- The image a slot holds; a valid slot that nothing was written to holds the delivered firmware (log entry 4). -/
def FwSlot.bytes (x : FwSlot) : List Byte := if x.image.isEmpty then Config.deliveredImage else x.image

/-- Whether the boot ROM accepts a slot. -/
def FwSlot.accepted (x : FwSlot) (counter : Nat) : Bool :=
  if x.image.isEmpty then x.result = 1 && counter ≤ x.svn else fwCheck counter x.image = 1

/-- What the boot ROM knows of the slot it starts. -/
def FwSlot.started (x : FwSlot) : FwSlot :=
  if x.image.isEmpty then { x with tool := imgTool x.bytes, version := Config.deliveredVersion } else fwSlot x.image

/-- The boot descriptor after trial firmware has had two attempts: the other slot is active again. -/
def Pestle.fallBack (x : Pestle) : Pestle :=
  if x.trial && x.attempts = 2 then ({ x with activeB := !x.activeB, trial := false, attempts := 0, updater := none } : Pestle).wrote descriptorCopies else x

/-- The active firmware slot. -/
def Pestle.active (x : Pestle) : FwSlot := if x.activeB then x.slotB else x.slotA

/-- The boot ROM chooses firmware: the active slot, whose trial attempt is counted, or else the other; none when both fail. -/
def Pestle.chooseFirmware (x : Pestle) : Option Pestle :=
  if x.active.accepted x.rollback.val then
    let y : Pestle := { x with running := x.active.started, runningTrial := x.trial }
    some (if x.trial then ({ y with attempts := x.attempts + 1 } : Pestle).wrote descriptorCopies else y)
  else if x.inactive.accepted x.rollback.val then some { x with running := x.inactive.started, runningTrial := false }
  else none

/-- Write the sections of the running firmware into MSRAM and the Pestle engines' DMEM (18 R400, R401). -/
def State.loadFirmware (s : State) : State :=
  let b := s.pst.running.bytes
  { s with mem := (imgSections b).foldl (fun m x =>
      if x.stype = 2 then m.writeBytes none (dmemAddr (1024 + x.eng) x.addr 0) (slice b x.doff (x.size 1))
      else if x.stype = 3 then m.writeBytes none (msramBase + 3 * x.addr) (slice b x.doff (x.size 1)) else m) s.mem }

/-! Configuration. -/

/-- A profile's values take the place of the profile-scoped ones, and its tables go into the shadow bank; none gives every default (17 R387). -/
def State.loadProfile (s : State) (slot : Nat) : State :=
  match s.sw.slots.find slot with
  | some x =>
    let s1 := s.takeProfile x allUnits
    (({ s1 with sw := { s1.sw with slot := slot } } : State)).putShadow ⟨x.fkt, x.sm⟩
  | none =>
    let s1 := s.takeProfile {} allUnits
    (({ s1 with sw := { s1.sw with slot := 255 } } : State)).putShadow {}

/-- Region descriptor `i` of master 44 from its remote memory window (16 R359). -/
def State.windowRegion (s : State) (r : Tab (BitVec 32)) (i : Nat) : Tab (BitVec 32) :=
  let v := s.cfg 0x2702 (i + 1)
  let rw := bits v 80 2
  if rw = 0 then r.set (rgnKey 44 i 2) 0
  else ((r.set (rgnKey 44 i 0) (BitVec.ofNat 32 (bits v 8 32))).set (rgnKey 44 i 1) (BitVec.ofNat 32 (bits v 48 32))).set (rgnKey 44 i 2)
    (BitVec.ofNat 32 (8 + rw))

/-- Program master 44's regions from 0x2702 (16 R359). -/
def State.remoteWindows (s : State) : State :=
  { s with xbar := { s.xbar with rgn := (List.range 16).foldl s.windowRegion s.xbar.rgn } }

/-- The classifier's tables come into force when they pass the check of R86 (04); a failure is logged. -/
def State.tablesIn (s : State) : State :=
  let f := s.checkShadow
  let s1 := (s.readSides (sideInBank s.cls.active)).publishCheck f
  match f with
  | none => { s1 with cls := s1.cls.install }
  | some x => s1.logE 3 1 0x2300 3 x.1

/-- Ports, tables, fabric and the CAN path are configured (19 R439 step 8, R431). -/
def State.configure (s : State) : State := (((s.tablesIn.remoteWindows).takeCanPath).applyFabric).applyEnables

/-- Pods are powered, except those that cannot be repaired, and load their images (19 R439 step 9, 13 R288). -/
def State.bootPods (s : State) : State :=
  (List.range 32).foldl (fun (t : State) p => if (t.pod p).bad || (t.pod p).failed then t else t.podOn p) s

/-! The boot (19 R439, R440). -/

/-- A boot halts: the core stays powered with only the crossbar and debug access, FAULT_N falls, and HSK_BOOT holds the halt. -/
def State.bootHalt (s : State) (k : Fin 4) (step : Fin 16) : State :=
  ({ s with pwr := { s.pwr with boot := .halted, halt := k, stepDone := step, faultN := false } }).logE 3 1 0x2103 3 k.val

/-- Pods that the power-on memory test finds beyond repair stay in reset and unpowered; each is logged (14 R321). -/
def State.markBad (s : State) (l : List Nat) : State :=
  l.foldl (fun (t : State) p => (t.setPod p { t.pod p with bad := true }).logE 3 1 0x2A00 2 0) s

/-- The entries of the repair record that the fuse loader passed over are logged once Pestle runs (14 R320). -/
def State.logSkipped (s : State) : State := s.mem.skipped.foldl (fun (t : State) _ => t.logE 1 1 0x2940 0 0) s

/-- What the check of a slot gave that the boot ROM did not accept: an erased slot fails the first check. -/
def FwSlot.failure (x : FwSlot) (counter : Nat) : Nat := if x.image.isEmpty then 2 else fwCheck counter x.image

/-- Steps 3 to 6: firmware, memory fill, REMAP, the Pestle engines. The load is logged with its BUILDID (13 R284); that the active slot failed before is
recorded after it (13 R296). -/
def State.bootFirmware (s : State) : Option State :=
  let p := s.pst.fallBack
  p.chooseFirmware.map fun q =>
    let s1 : State := { ({ s with pst := q } : State).loadFirmware with xbar := { s.xbar with remap := true }, pwr := { s.pwr with releasedAt := s.now } }
    let s2 := (s1.loadLogged 255 (imgId s1.pst.running.bytes)).logSkipped
    if p.active.accepted p.rollback.val then s2 else s2.fwFailed p.active.image (p.active.failure p.rollback.val)

/-- Steps 7 and 8: the slot of the pins or of 0x2800:09; a slot without a valid copy and a profile that fails its check are logged. -/
def State.bootProfile (s : State) (straps : Fin 8) : State :=
  let n := if s.cfg 0x2800 9 < 8 then s.cfg 0x2800 9 else straps.val
  let s1 := ({ s with sw := { s.sw with straps := straps } }).loadProfile n
  let s2 := if s1.sw.slot = 255 then s1.logE 3 1 0x2800 1 255 else s1
  let s3 := match profileCheck s2.cfg with
    | some o => s2.logE 2 1 o.1 o.2 (s2.cfg o.1 o.2)
    | none => s2
  s3.configure.calibrate

/-- Once the boot has reached IDLE the repair record is written back with what the test found; a missing one, or one of another device, is replaced by an
empty one (14 R320, R321, 13 R295). -/
def State.ownRepair (s : State) : State :=
  let r := s.mem.ownRecord
  if r.test || s.mem.record.all (·.other.isSome) then { s with mem := { s.mem.writeRecord r.test (r.entries ++ s.mem.found) with found := [] } } else s

/-- Boot step 1: the record's spares are assigned, and the power-on memory test runs when the record asks for it (14 R320, R321); with the macros that
cannot be repaired. -/
def State.fuseLoad (s : State) (columns : List (BitVec 24 × Nat)) : State × List Nat :=
  let m := s.mem.assignRecord
  let r := if m.ownRecord.test then m.testColumns columns else (m, [])
  ({ s with mem := r.1 }, r.2)

/-- Step 10: IDLE, and the boot-up message (17 R368). -/
def State.bootIdle (s0 : State) (from_ us : Nat) : State :=
  let s := s0.ownRepair
  let s1 := (s.reach (from_ + usTicks us)).put 0x2103 1 (us % 2 ^ 32)
  ({ s1 with pwr := { s1.pwr with boot := .up, stepDone := 10 } } : State).canOwn (0x700 + s1.acc.canNode) [0]

/-- Step 11: ARM of 0x2800:07, when it is not 0; a refusal leaves IDLE and is logged (17 R376). -/
def State.bootArm (s : State) (from_ us : Nat) : State :=
  let acts := if s.sw.slot = 255 then 0 else s.cfg 0x2800 7
  let none_ := s.put 0x2103 2 0
  if acts = 0 then none_
  else
    let s1 : State := { none_ with pwr := { none_.pwr with stepDone := 11 } }
    match s1.armCheck acts with
    | (some c, t) => t.logRefusal 4 0x2010 1 (cmdValue 1 acts) c
    | (none, t) => ((t.reach (from_ + usTicks us)).armEnter acts).put 0x2103 2 (us % 2 ^ 32)

/-- The boot sequence from reset release: the flash leaves reset, is read in 1S-1S-1S mode for the repair record, and in 8D-8D-8D mode from the firmware on
(14 R320, 20 R460). -/
def State.boot (s : State) (f : BootFacts) : State :=
  let at_ := s.now
  let s0 : State := { s with pwr := { s.pwr with stepDone := 0, faultN := true }, pst := { s.pst with flash := .serial } }
  let t := s0.fuseLoad f.columns
  if t.2.any fun m => (macroPod m).isNone then t.1.bootHalt 1 0
  else
    let s1 := t.1.markBad (t.2.filterMap macroPod)
    if !f.pllLocked then s1.bootHalt 2 1
    else
      let s2 : State := { s1 with tb := { s1.tb with husk := s1.pwr.refLost && s1.pwr.xtalOk }, pst := { s1.pst with flash := .octal } }
      match s2.bootFirmware with
      | none => s2.bootHalt 3 3
      | some s3 =>
        let fell := s.pst.trial && s.pst.attempts = 2
        let s4 := (s3.bootProfile f.straps).bootPods
        let s5 := if fell then s4.logE 3 1 0x2912 5 (bit01 s4.pst.activeB) else s4
        (s5.bootIdle at_ f.idleUs).bootArm at_ f.armUs

/-- RESET_RELEASE (19 R439): the core is held in reset, or all rails are in window after a power-up. -/
def execResetRelease (facts : BootFacts) (s : State) : Host.Outcome State Fault Refusal :=
  .next (if s.pwr.boot = .held || (s.pwr.boot = .rails && s.pwr.rails = 4 && s.pwr.st = 0) then s.boot facts else s)

end Sys2Proof.Machine
end

