-- ==== Sys2Proof/Machine/Grinder.lean ====
section
/-! DEFINITION. The Grinder and the repair record (14 R315 to R323). -/

namespace Sys2Proof.Machine

/-! The banks of an SRAM pass (14 R297, R315). -/

/-- A bank that the SRAM pass reads. -/
inductive GrindBank where
  | imem (eng : Nat)
  | dmem (unit bank : Nat)
  | pmem (pod bank : Nat)
  | staging (bank : Nat)
  | msram (bank : Nat)
  | rom
  | fkt (bankB : Bool)
  | sm (bankB : Bool)
  | lastValue
  | eventLog
  deriving DecidableEq, Repr

/-- Number of a bank among all. -/
def GrindBank.key : GrindBank → Nat
  | .imem e => e
  | .dmem u b => 0x100000 + 4 * u + b
  | .pmem p b => 0x200000 + 16 * p + b
  | .staging b => 0x300000 + b
  | .msram b => 0x400000 + b
  | .rom => 0x500000
  | .fkt b => 0x600000 + bit01 b
  | .sm b => 0x600002 + bit01 b
  | .lastValue => 0x600004
  | .eventLog => 0x700000

/-- Rows of a bank (14 R297). -/
def GrindBank.rows : GrindBank → Nat
  | .imem _ => 2048
  | .dmem _ _ => 3072
  | .pmem _ _ => 12288
  | .staging _ => 196608
  | .msram _ => 32768
  | .rom => 16384
  | .fkt _ => 16384
  | .sm _ => 65536
  | .lastValue => 65536
  | .eventLog => 8192

/-- Row `n` of a bank. -/
def GrindBank.row (n : Nat) : GrindBank → RowId
  | .imem e => .home (imemAddr e n 0)
  | .dmem u b => .home (dmemAddr u (8 * n + 2 * b) 0)
  | .pmem p b => .home (pmemAddr p (32 * n + 2 * b) 0)
  | .staging b => .home (stagingBase + 48 * (8 * n + b))
  | .msram b => .home (msramBase + 3 * (8 * n + 2 * b))
  | .rom => .home (16 * n)
  | .fkt b => .side (.fkt b (Fin.ofNat 16384 n))
  | .sm b => .side (.sm b (Fin.ofNat 65536 n))
  | .lastValue => .side (.lastValue (Fin.ofNat 65536 n))
  | .eventLog => .side (.eventLog (Fin.ofNat 8192 n))

/-- The bank that holds a home address; DRAM has none. -/
def bankOf (a : Nat) : Option GrindBank :=
  match memKind a with
  | .bootRom => some .rom
  | .msram => some (.msram ((a - msramBase) / 6 % 4))
  | .staging => some (.staging ((a - stagingBase) / 48 % 8))
  | .pmem => some (.pmem ((a - pmemBase) / 0x200000) ((a - pmemBase) % 0x200000 / 6 % 16))
  | .imem => some (.imem (32 * ((a - engBlock) / 0x800000) + (a - engBlock) % 0x800000 / 0x8000))
  | .dmem =>
    if pdmemBase ≤ a then some (.dmem (1024 + (a - pdmemBase) / 0x20000) ((a - pdmemBase) % 0x20000 / 6 % 4))
    else
      let o := (a - engBlock) % 0x800000 - 0x100000
      some (.dmem (32 * ((a - engBlock) / 0x800000) + o / 0x20000) (o % 0x20000 / 6 % 4))
  | _ => none

/-- The bank of a row outside the address map; the buffers and queues have none, since no pass reads them (14 R315). -/
def sideBank : SideRow → Option GrindBank
  | .fkt b _ => some (.fkt b)
  | .sm b _ => some (.sm b)
  | .lastValue _ => some .lastValue
  | .eventLog _ => some .eventLog
  | _ => none

/-- The banks of a pod, which a pass reads while the pod has power and its target is open. -/
def podBanks (p : Nat) : List GrindBank :=
  (List.range 32).flatMap (fun e => .imem (32 * p + e) :: (List.range 4).map (.dmem (32 * p + e))) ++ (List.range 16).map (.pmem p)

/-- The pod a bank lies in. -/
def GrindBank.pod : GrindBank → Option Nat
  | .imem e => some (e / 32)
  | .dmem u _ => if u < 1024 then some (u / 32) else none
  | .pmem p _ => some p
  | _ => none

/-- Whether the Grinder can reach a bank. -/
def State.reaches (s : State) (b : GrindBank) : Bool := b.pod.all fun p => !s.targetClosed (10 + p)

/-- Every bank that the pass in progress reads. -/
def State.passBanks (s : State) : List GrindBank :=
  ((List.range 32).filter fun p => !s.targetClosed (10 + p)).flatMap podBanks ++
  (List.range 4).flatMap (fun k => (List.range 4).map (.dmem (1024 + k))) ++ (List.range 8).map .staging ++ (List.range 4).map .msram ++
  [.rom, .fkt false, .fkt true, .sm false, .sm true, .lastValue, .eventLog]

/-- Whether router writes or inbound requests wait for the bank of a row, which go before the Grinder (14 R299). -/
def State.bankBusy (s : State) : RowId → Bool
  | .side _ => false
  | .home a =>
    match bankOf a with
    | some (.dmem u b) =>
      u < 1024 && (!(s.arrivals u).isEmpty || (Tab.get [] s.xbar.waiting (10 + u / 32)).any fun w => bankOf w.home = some (.dmem u b))
    | some (.pmem p b) => (Tab.get [] s.xbar.waiting (10 + p)).any fun w => bankOf w.home = some (.pmem p b)
    | _ => false

/-! What a visit finds, and column repair (14 R316, R319, R322). -/

/-- One second and 24 hours are the intervals of 14 R317 and R322. -/
def dayTicks : Nat := 86400 * secTicks

/-- The places of a row whose stored codeword is not that of the corrected byte, each with the bits in error and the corrected codeword. -/
def wrongPlaces (stored : List (BitVec 13)) (fixed : List Byte) : List (Nat × BitVec 13 × BitVec 13) :=
  ((stored.zip (fixed.map codeword)).zipIdx.filter fun x => x.1.1 != x.1.2).map fun x => (x.2, x.1.1 ^^^ x.1.2, x.1.2)

/-- The corrected bytes of a row of the byte memory, the check bytes of a line last. -/
def rowFixed (row : Nat) (stored : List (BitVec 13)) : List Byte :=
  if memKind row = .staging then (lineDecode stored).elim [] (·.1) else stored.map fun c => (innerDecode c).val

/-- The places in error of a row of the byte memory. -/
def Memory.rowWrong (m : Memory) (row : Nat) : List (Nat × BitVec 13 × BitVec 13) :=
  let l := (m.rowCodes row (memRow row).2).map (·.2)
  wrongPlaces l (rowFixed row l)

/-- The places in error of a row outside the address map, whose bytes as meant stand as 0: a place's codeword is its wrong bits alone. -/
def State.sideWrong (s : State) (r : SideRow) : List (Nat × BitVec 13 × BitVec 13) :=
  (s.side.filter fun e => e.1 = r && !sideLost e.2.2).map fun e => (e.2.1.toNat, e.2.2, 0)

/-- Note a corrected error of a column and row (14 R322): macro, column, row, time. -/
def Memory.noteColumn (m : Memory) (now mac row col : Nat) : Memory :=
  let keep := m.columns.filter fun e => now < e.2.2.2 + dayTicks && !(e.1 = mac && e.2.1 = col && e.2.2.1 = row)
  { m with columns := keep ++ [(mac, col, row, now)] }

/-- The spare that a column receives at the next boot, when it has become a candidate: three rows within a day, a spare free, not yet repaired (14 R322). -/
def Memory.candidate (m : Memory) (mac col : Nat) : Option (Fin 4) :=
  if 3 ≤ (m.columns.filter fun e => e.1 = mac && e.2.1 = col).length && !repaired m.taken mac col then freeSpare m.taken mac else none

/-- Note one column in which the Grinder corrected an error; a candidate is counted and logged (14 R322, R323). -/
def State.noteCol (s : State) (mac row col : Nat) : State :=
  let m := s.mem.noteColumn s.now mac row col
  match m.candidate mac col with
  | none => { s with mem := m }
  | some k =>
    (({ s with mem := { m with candidates := m.candidates ++ [⟨BitVec.ofNat 24 mac, col, k, 1⟩] } } : State).bumpBy 0x2940 9 2 1).logCount 1 0x2940 9

/-- Note the columns of a row that the Grinder corrected (14 R319, R322). -/
def State.noteColumns (s : State) (mr : Nat × Nat) (wrong : List (Nat × BitVec 13 × BitVec 13)) : State :=
  (wrong.flatMap fun x => ((List.range 13).filter fun j => x.2.1.getLsbD j).map fun j => 13 * x.1 + j).foldl
    (fun (t : State) c => t.noteCol mr.1 mr.2 c) s

/-- A row waits to be written back (14 R316). -/
def Memory.toRewrite (m : Memory) (r : RowId) (l : List (Nat × BitVec 13)) : Memory :=
  { m with rewrite := m.rewrite.filter (·.1 ≠ r) ++ [(r, l)] }

/-- Set the wrong bits of a DRAM byte or check byte. -/
def Memory.setWrong (m : Memory) (home : Nat) (v : Byte) : Memory :=
  { m with dbad := if v = 0 then Tab.erase m.dbad home else Tab.set m.dbad home v }

/-! Upsets. -/

/-- Wrong bits of a byte of a row outside the address map: those that decode to a wrong value count for nothing (DESIGN CHOICE, log entry 67). -/
def State.sideUpset (s : State) (r : SideRow) (b : Byte) (m : BitVec 13) : State :=
  let mac := (sideMacro r).1
  let old := (s.side.find? fun e => e.1 = r && e.2.1 = b).elim 0 (·.2.2)
  let new := old ^^^ s.mem.liveBits mac b.toNat m
  let rest := s.side.filter fun e => !(e.1 = r && e.2.1 = b)
  if !(macroColumns mac).any (13 * b.toNat < ·) then s
  else if new = 0 then { s with side := rest }
  else if sideLost new || (innerDecode new).val = 0 then { s with side := (r, b, new) :: rest }
  else s

/-- Turn bits of a DRAM byte or check byte over; a block never written has none that count. -/
def State.dramUpset (s : State) (a home : Nat) (m : Byte) : State :=
  if memKind a != .dram || s.mem.blockFresh (a / 32 * 32) then s else { s with mem := s.mem.setWrong home (s.mem.dbad.get 0 home ^^^ m) }

/-- Bits of the memories turn over (log entry 67). A macro's own cells in a column that a spare has taken over are read no more (14 R319). -/
def State.upset (s : State) : Upset → State
  | .sram a m =>
    match decodeAddr s.xbar.remap a.toNat with
    | (_, .mem h _) =>
      if memKind h = .dram then s
      else { s with mem := s.mem.setBad h (s.mem.bad.get 0 h ^^^ s.mem.liveBits (memMacro h).1 (h - (memRow h).1) m) }
    | _ => s
  | .check n b m =>
    let line := stagingBase + 48 * n.val
    let h := checkHome line b.val
    { s with mem := s.mem.setBad h (s.mem.bad.get 0 h ^^^ s.mem.liveBits (memMacro line).1 (48 + b.val) m) }
  | .dram a =>
    match decodeAddr s.xbar.remap a.toNat with
    | (_, .mem h _) => if memKind h = .dram && !s.mem.dramBad.contains (h / 32 * 32) then { s with mem := { s.mem with dramBad := h / 32 * 32 :: s.mem.dramBad } }
                       else s
    | _ => s
  | .dramByte a m => s.dramUpset a.toNat a.toNat m
  | .dramCheck a b m => s.dramUpset a.toNat (dramCheck (a.toNat / 32 * 32) b.val) m
  | .side r b m => s.sideUpset r b m

/-! DRAM (14 R312, R315, R316). -/

/-- The DRAM blocks that a pass reads, as ranges of addresses: the ring, the read-ahead region and the windows of the images loaded. -/
def State.dramRanges (s : State) : List (Nat × Nat) :=
  (dramBase + Config.ringFrom, s.cfg 0x2500 7 * 1048576) :: (dramBase + Config.readAheadFrom, s.cfg 0x2400 13 * 1048576) ::
  (s.pods.filter fun e => e.2.loaded).flatMap fun e => (imgWindows (Tab.get [] s.pst.images e.2.image.toNat)).map fun w => (w.2.1, w.2.2.1)

/-- The first block of a range that a pass reads from block `from_` on. -/
def blockFrom (from_ : Nat) (r : Nat × Nat) : Option Nat :=
  let b := max from_ (max dramBase r.1 / 32 * 32)
  if b < min (r.1 + r.2) dramEnd then some b else none

/-- The first block that a pass reads from block `from_` on. -/
def State.dramNext (s : State) (from_ : Nat) : Option Nat := (s.dramRanges.filterMap (blockFrom from_)).min?

/-- First byte of the image window that holds a block, over the pods with an image loaded. -/
def State.windowOf (s : State) (a : Nat) : Option Nat :=
  (s.pods.filter fun e => e.2.loaded).findSome? fun e =>
    ((imgWindows (Tab.get [] s.pst.images e.2.image.toNat)).find? fun w => w.2.1 < a + 32 && a < w.2.1 + w.2.2.1).map (·.2.1)

/-- The bytes of a DRAM block and its check bytes as they are stored. -/
def Memory.blockStored (m : Memory) (block : Nat) : List Byte :=
  let l := m.blockMeant block
  List.zipWith (· ^^^ ·) (l ++ rsCheck l) ((blockHomes block).map (m.dbad.get 0))

/-- Store 36 bytes as they stand, the data as `l` gives its writer's meaning. -/
def Memory.storeBlock (m : Memory) (block : Nat) (l stored : List Byte) : Memory :=
  let wrong := List.zipWith (· ^^^ ·) stored (l ++ rsCheck l)
  ((blockHomes block).zip wrong).foldl (fun (t : Memory) x => t.setWrong x.1 x.2) (l.zipIdx.foldl (fun (t : Memory) x => t.setByte (block + x.2) x.1) m)

/-- The places of a block in error, with the corrected bytes; none when the block is beyond correction. -/
def Memory.blockWrong (m : Memory) (block : Nat) : List (Nat × BitVec 13) :=
  let stored := m.blockStored block
  match rsDecode 36 stored [] with
  | none => []
  | some w => ((stored.zip w.1).zipIdx.filter fun x => x.1.1 != x.1.2).map fun x => (x.2, x.1.2.setWidth 13)

/-- A visit of a DRAM block (14 R312, R316). -/
def State.grindDram (s : State) (r : Nat) : State :=
  match s.readBlock r with
  | (s1, some _) =>
    if s1.mem.dbad.isEmpty || s1.mem.blockFresh r then s1
    else
      let l := s1.mem.blockWrong r
      if l.isEmpty then s1 else { s1 with mem := s1.mem.toRewrite (.home r) l }
  | (s1, none) =>
    let s2 := s1.bumpBy 0x2940 4 2 1
    if s2.inRing r || s2.inReadAhead r then (s2.logCount 1 0x2940 4).warmReset 2
    else match s2.windowOf r with
      | none => s2
      | some w => if s2.mem.dramLogged.contains w then s2
                  else ({ s2 with mem := { s2.mem with dramLogged := w :: s2.mem.dramLogged } }).logCount 1 0x2940 4

/-! Visits (14 R315 to R317). -/

/-- A visit of an SRAM or ROM row (14 R316): a correctable row is to be rewritten, but for the boot ROM, whose errors are only counted. -/
def State.grindSram (s : State) (r : Nat) : State :=
  let x := s.mem.readRow r (memRow r).2
  let s1 := if x.inner then s.bump 0x2940 1 else s
  let s2 := if x.outer then s1.bump 0x2940 2 else s1
  match x.fail with
  | some b => s2.memFailed b
  | none =>
    if !(x.inner || x.outer) || memKind r = .bootRom then s2
    else
      let l := s2.mem.rowWrong r
      let s3 := s2.noteColumns (memMacro r) l
      { s3 with mem := s3.mem.toRewrite (.home r) (l.map fun x => (x.1, x.2.2)) }

/-- A visit of a row outside the address map (14 R316): an uncorrectable byte in the active bank resets the chip, any other is left and counted. -/
def State.grindSide (s : State) (r : SideRow) : State :=
  if s.sideBad r then (if sideInBank (!s.cls.active) r then s.sideFailed r else s.bumpBy 0x2940 4 2 1)
  else
    let l := s.sideWrong r
    if l.isEmpty then s
    else
      let s1 := (s.bump 0x2940 1).noteColumns (sideMacro r) l
      { s1 with mem := s1.mem.toRewrite (.side r) (l.map fun x => (x.1, x.2.1)) }

/-- A visit of a row. -/
def State.grindRow (s : State) : RowId → State
  | .home a => if memKind a = .dram then s.grindDram a else s.grindSram a
  | .side r => s.grindSide r

/-- The SRAM pass ends once every bank has been read (14 R315): it is counted, and the first one that took too long is logged (R317). -/
def State.sramDone (s : State) : State :=
  if (s.passBanks.all fun b => b.rows ≤ s.mem.sramAt.get 0 b.key) then
    let late := decide (2 * secTicks < s.now - s.mem.sramFrom.getD s.now) && !s.mem.slate
    let s1 := ({ s with mem := { s.mem with sramAt := [], sramFrom := none, slate := s.mem.slate || late } }).bump 0x2940 5
    if late then s1.logE 1 1 0x2940 0 0 else s1
  else s

/-- The pass reads the next row of a bank (14 R315). -/
def State.sramNext (s : State) (b : GrindBank) : State :=
  let n := s.mem.sramAt.get 0 b.key
  if !s.reaches b then s
  else if b.rows ≤ n then s.sramDone
  else if s.bankBusy (b.row n) then s
  else
    let s1 : State := { s with mem := { s.mem with sramAt := s.mem.sramAt.set b.key (n + 1), sramFrom := some (s.mem.sramFrom.getD s.now) } }
    (if n + 1 = b.rows then s1.sramDone else s1).grindRow (b.row n)

/-- The DRAM pass ends (14 R315, R317). -/
def State.dramDone (s : State) : State :=
  let late := decide (7200 * secTicks < s.now - s.mem.dramFrom) && !s.mem.dlate
  let s1 := ({ s with mem := { s.mem with dramLast := none, dlate := s.mem.dlate || late, dramLogged := [] } }).bump 0x2940 6
  if late then s1.logE 1 1 0x2940 0 0 else s1

/-- The DRAM pass reads a block, and ends with the last. -/
def State.dramBlock (s : State) (b : Nat) : State :=
  let s1 : State := { s with mem := { s.mem with dramLast := some b, dramFrom := if s.mem.dramLast.isSome then s.mem.dramFrom else s.now } }
  let s2 := s1.grindRow (.home b)
  if s2.mem.dramLast = some b && (s2.dramNext (b + 32)).isNone then s2.dramDone else s2

/-- The DRAM pass reads a block, or ends where none is left. -/
def State.dramVisit (s : State) : Option Nat → State
  | none => if s.mem.dramLast.isSome then s.dramDone else s
  | some b => s.dramBlock b

/-- The DRAM pass reads its next block (14 R315). -/
def State.dramStep (s : State) : State := s.dramVisit (s.dramNext (s.mem.dramLast.elim 0 (· + 32)))

/-- The next row of the pass, in a bank with a free cycle. -/
def State.passNext (s : State) : GrindAt → State
  | .home a =>
    match decodeAddr s.xbar.remap a.toNat with
    | (_, .mem h _) => if memKind h = .dram then s.dramStep else (bankOf h).elim s s.sramNext
    | _ => s
  | .pestle k b => s.sramNext (.dmem (1024 + k.val) b.val)
  | .side r => (sideBank r).elim s s.sramNext

/-- One visit of the Grinder: the first row of the list, when there is one (14 R315). -/
def State.grind (s : State) (b : GrindAt) : State :=
  match s.mem.cel with
  | [] => s.passNext b
  | r :: t => if s.bankBusy r then s else ({ s with mem := { s.mem with cel := t } } : State).grindRow r

/-- GRINDER_VISIT (14 R316). -/
def execGrinderVisit (visit : GrindVisit) (s : State) : Host.Outcome State Fault Refusal :=
  let s1 := visit.upsets.foldl State.upset s
  .next (if s1.served then s1.grind visit.bank else s1)

/-! Write-back (14 R316). -/

/-- Corrected bytes of a row of the byte memory are written, each by its place; every other byte of the row, check bytes included, stays as it is stored. -/
def Memory.rewriteRow (m : Memory) (row : Nat) (l : List (Nat × BitVec 13)) : Memory :=
  let len := (memRow row).2
  let checks := m.checkStored row
  let m1 := l.foldl (fun t x => if x.1 < len then (t.setByte (row + x.1) (x.2.setWidth 8)).setBad (row + x.1) 0 else t) m
  if memKind row = .staging then m1.setChecks row (checks.zipIdx.map fun c => (Tab.find l (48 + c.2)).getD c.1) else m1

/-- Corrected bytes of a DRAM block are written. -/
def Memory.rewriteBlock (m : Memory) (block : Nat) (l : List (Nat × BitVec 13)) : Memory :=
  let stored := (m.blockStored block).zipIdx.map fun x => ((Tab.find l x.2).map (·.setWidth 8)).getD x.1
  let meant := (m.blockMeant block).zipIdx.map fun x => ((Tab.find l x.2).map (·.setWidth 8)).getD x.1
  m.storeBlock block meant stored

/-- The Grinder rewrites the bytes found in error of the first row that waits, with corrected values. A row outside the address map that has been written
since, so that not every one of its wrong bits still stands, is visited again instead. -/
def State.writeBack (s : State) : State :=
  match s.mem.rewrite with
  | [] => s
  | (r, l) :: t =>
    let m : Memory := { s.mem with rewrite := t }
    match r with
    | .home a => { s with mem := if memKind a = .dram then m.rewriteBlock a l else m.rewriteRow a l }
    | .side q =>
      if l.all fun x => s.side.contains (q, BitVec.ofNat 8 x.1, x.2) then
        { s with mem := m, side := s.side.filter fun e => !(e.1 = q && l.contains (e.2.1.toNat, e.2.2)) }
      else { s with mem := m.listRow r }

/-- GRINDER_WRITEBACK (14 R316). -/
def execGrinderWriteback (s : State) : Host.Outcome State Fault Refusal := .next (if s.served then s.writeBack else s)

/-! The repair record (14 R322, R323). -/

/-- The count from which the repair record may be written again, at most once an hour (14 R322). -/
def Memory.repairDue (m : Memory) : Nat :=
  match m.repairAt with
  | none => 0
  | some t => t + 3600 * secTicks

/-- The held candidates go into the repair record, an hour after the last such write at the earliest (14 R322). -/
def State.writeRepair (s : State) : State :=
  if s.mem.candidates.isEmpty then s
  else
    let s1 := s.reach s.mem.repairDue
    let r := s1.mem.ownRecord
    { s1 with mem := { s1.mem.writeRecord r.test (r.entries ++ s1.mem.candidates) with candidates := [], repairAt := some s1.now } }

/-- REPAIR_RECORD_WRITE (14 R322). -/
def execRepairRecordWrite (s : State) : Host.Outcome State Fault Refusal := .next (if s.served then s.writeRepair else s)

/-- A write to 0x2940:08 (14 R323): the TEST flag of the repair record, in IDLE only. -/
def State.wMemTest (s : State) (p : Path) (v : Nat) : State :=
  if 1 < v then s.refuse p 0x2940 8 v abRange
  else if s.sess.st != .idle then s.refuseLog p 0x2940 8 v abState
  else ({ s with mem := s.mem.writeRecord (v = 1) s.mem.ownRecord.entries } : State).answer p []

/-- MEMORY_TEST_ENABLE_WRITE (14 R323). -/
def execMemoryTestEnableWrite (path : Path) (v : Byte) (s : State) : Host.Outcome State Fault Refusal :=
  .next (s.requestWrite path 0x2940 8 [v] fun t => t.wMemTest path v.toNat)

end Sys2Proof.Machine
end

