-- ==== Sys2Proof/Machine/Power.lean ====
section
/-! DEFINITION. Power states (19 R420 to R433): entry, its abandonment, wake, Husk capture, and the merge of its records. -/

namespace Sys2Proof.Machine

/-! Entry (19 R423 to R426). -/

/-- Step E1 holds the engines of every powered pod in engine reset, and remembers what PCC_ERST held; in PARK they are held already. -/
def State.holdPods (s : State) : State :=
  if s.pwr.st.val = 1 then s else
  let l := ((List.range 32).filter fun p => (s.pod p).powered).map fun p => (p, (s.pod p).erst)
  let t := l.foldl (fun (t : State) e => t.setErst e.1 0xFFFFFFFF) s
  { t with pwr := { t.pwr with held := l } }

/-- What E1 held in reset is released again. -/
def State.freePods (s : State) : State :=
  let t := s.pwr.held.foldl (fun (t : State) e => t.setErst e.1 e.2) s
  { t with pwr := { t.pwr with held := [] } }

/-- Arm or end Husk capture with an empty buffer (19 R430). -/
def Power.husk (x : Power) (on : Bool) : Power := { x with capture := on, huskBuf := [], huskUsed := 0, huskGap := false, huskLost := 0 }

/-- Answer the POWER commands of an entry: that of the entry itself, then those accepted while it ran. -/
def State.entryOutcome (s : State) (e : PowerEntry) (give : State → Path → State) : State :=
  (e.path :: s.pwr.entryAlso).foldl (fun (t : State) p => give (t.recallOn p 0x2101 1) p) { s with pwr := { s.pwr with entryAlso := [] } }

/-- Answer the POWER commands of an entry with success (19 R424, R426). -/
def State.entryAnswer (s : State) (e : PowerEntry) : State := s.entryOutcome e fun t p => t.answer p []

/-- Answer the POWER command of the entry that was in progress, if there was one. -/
def State.entryDone (s : State) : Option PowerEntry → State
  | none => s
  | some e => s.entryAnswer e

/-- An entry is abandoned: its steps are undone, and 0x2101:02, :03 and the log keep the trace (19 R425, R426). -/
def State.abandon (s : State) (how point : Nat) : State :=
  let t := if s.pwr.st.val = 1 then s else s.freePods
  let s1 : State := { t with pwr := { (t.pwr.husk false) with entry := none } }
  ((s1.put 0x2101 2 how).put 0x2101 3 point).logE 3 1 0x2101 2 how

/-- A POWER command is accepted: step E1, with Husk capture armed from A1 on. -/
def State.enter (s : State) (p : Path) (target : Fin 5) : State :=
  let s1 := s.holdPods
  ({ s1 with pwr := { (s1.pwr.husk true) with entry := some ⟨target, p⟩ } } : State).owe 0x2101 1

/-- A wake begins at chip time now (19 R429, R430). -/
def State.wakeFrom (s : State) (sources : BitVec 14) (qualified : Bool) : State :=
  { s with pwr := { (s.pwr.husk true) with wake := some ⟨s.now, sources, qualified⟩ } }

/-- A wake event abandons an entry at an abort point; one that began in PARK then goes on as a wake from PARK, so that the device returns to RUN (19 R426). -/
def State.turnBack (s : State) (point : Nat) (sources : BitVec 14) (qualified : Bool) : State :=
  let s1 := s.abandon 2 point
  if s1.pwr.st.val = 1 then s1.wakeFrom sources qualified else s1

/-- POWER to RUN or START wakes the device from PARK, and needs no qualification (19 R423, R429). -/
def State.parkWake (s : State) : State :=
  match s.pwr.wake with
  | some w => { s with pwr := { s.pwr with wake := some { w with qualified := true } } }
  | none => s.wakeFrom 0 true

/-- POWER to another state while an entry runs: the entry goes on to the state commanded last, and every command is answered at quiescence (log entry
43). -/
def State.retarget (s : State) (e : PowerEntry) (p : Path) (target : Fin 5) : State :=
  ({ s with pwr := { s.pwr with entry := some { e with target := target }, entryAlso := s.pwr.entryAlso ++ [p] } } : State).owe 0x2101 1

/-- POWER to another state while a wake from PARK runs: its entry meets the wake at A1, is abandoned there, and the wake goes on (19 R426, log entry
43). -/
def State.enterWaking (s : State) (p : Path) : State := (((s.put 0x2101 2 2).put 0x2101 3 1).logE 3 1 0x2101 2 2).answer p []

/-- POWER (17 R377, R378, 19 R423): `v` is the command value. -/
def State.cPower (s : State) (p : Path) (v : Nat) : State :=
  let par := v / 256
  if 4 < par then s.refuseCmd p v abRange
  else if par != 0 && (!(s.sess.st = .idle || s.sess.st = .armed) || s.switchPending) then s.refuseCmd p v abState
  else if par = s.pwr.st.val then s.answer p []
  else if par = 0 then
    let t := if s.pwr.entry.isSome then s.turnBack 1 0 true else s.parkWake
    (({ t with pwr := { t.pwr with runOwed := t.pwr.runOwed ++ [p] } } : State).owe 0x2101 1).entryDone s.pwr.entry
  else
    match s.pwr.entry, s.pwr.wake with
    | some e, _ => s.retarget e p (Fin.ofNat 5 par)
    | none, some _ => s.enterWaking p
    | none, none => s.enter p (Fin.ofNat 5 par)

/-- START (17 R377, R378): in PARK it wakes the device and takes effect once RUN is reached; during an entry it is a wake event (19 R423, R426, R429). -/
def State.cStart (s : State) (p : Path) (v : Nat) : State :=
  if v / 256 != 0 then s.refuseCmd p v abRange
  else if s.sess.st != .armed then s.refuseCmd p v abState
  else
    let t := if s.pwr.entry.isSome then s.turnBack 1 0 true else if s.pwr.st.val = 1 then s.parkWake else s
    (if t.pwr.st.val = 1 then ({ t with pwr := { t.pwr with startOwed := t.pwr.startOwed ++ [p] } } : State).owe 0x2010 1
     else t.startNow.answer p []).entryDone s.pwr.entry

/-- START (17 R376). -/
def execStart (path : Path) (p : W24) (s : State) : Host.Outcome State Fault Refusal :=
  .next (s.requestWrite path 0x2010 1 (leBytes 4 (cmdValue 2 p.toNat)) fun t => t.cStart path (cmdValue 2 p.toNat))

/-! States below RUN (19 R421, R424, R427). -/

/-- What the Husk's wake logic and capture need of the profile while the core is off (19 R429, R430). -/
def wakeObject (key : Nat) : Bool :=
  key / 256 = 0x2100 || (0x2310 ≤ key / 256 && key / 256 ≤ 0x2317) || key = odKey 0x2700 1

/-- The core's domains lose power: what the Husk, flash and fuses hold stays, and the place of the session store (19 R421, R427). -/
def State.coreLost (s : State) (keepDram : Bool) : State :=
  let t := s.keepFlash State.reset
  { t with
    tb := s.timeKept s.pwr.xtalOk
    log := s.log
    od := s.od.filter fun e => inFlash e.1 || lastingCounter e.1 || huskObject e.1 || wakeObject e.1
    ports := s.pinLevels
    store := { t.store with restart := s.store.restart, nextSeq := s.store.nextSeq, prevHash := s.store.prevHash, mode := s.store.mode,
                            ssd0 := { t.store.ssd0 with changed := s.store.ssd0.changed, trimmed := s.store.ssd0.trimmed },
                            ssd1 := { t.store.ssd1 with changed := s.store.ssd1.changed, trimmed := s.store.ssd1.trimmed } }
    sw := { t.sw with straps := s.sw.straps }
    pods := s.pods.map fun (e : Nat × Pod) => (e.1, { ({} : Pod) with failed := e.2.failed, moved := e.2.moved, bad := e.2.bad, resetAt := e.2.resetAt })
    mem := { t.mem with cells := if keepDram then s.mem.cells.filter fun e => inDram e.1 else [], dramBad := if keepDram then s.mem.dramBad else [],
                        dbad := if keepDram then s.mem.dbad else [] }
    side := s.side.filter fun e => isLogRow e.1
    pst := { t.pst with running := s.pst.running, runningTrial := s.pst.runningTrial }
    pwr := { t.pwr with xtalOk := s.pwr.xtalOk, halt := s.pwr.halt, stepDone := s.pwr.stepDone, refLost := s.pwr.refLost, resetDomain := s.pwr.resetDomain,
                        resetCause := s.pwr.resetCause, resetSeq := s.pwr.resetSeq } }

/-- The retention record (19 R427). -/
def State.retention (s : State) : Retention :=
  ⟨s.sess.st, s.sess.acts, s.sw.slot, s.sw.gen, s.tb.map, s.tb.validity, s.store.newest, s.od.filter fun e => lastingCounter e.1, s.sw.issued⟩

/-- Steps E3 to E5 into PARK: the pods go into retention behind closed target ports (19 R421, R424, R425). -/
def State.enterPark (s : State) (r : Retention) : State :=
  ({ s with xbar := { s.xbar with closed := s.xbar.closed ++ (List.range 32).map (10 + ·) },
            pwr := { (s.pwr.husk false) with st := 1, entry := none, retention := some r } } : State).setVcore 600

/-- Steps E3 to E5 into STANDBY or SLEEP: the Husk holds chip time and the retention record; PEN_DRAM stays high in STANDBY (20 R449). -/
def State.enterDeep (s : State) (r : Retention) (target : Fin 5) : State :=
  let t := ((s.deleteQueues 0).deleteQueues 1).coreLost (target = 2)
  { t with pwr := { t.pwr with st := target, vcore := 0, retention := some r, dramRail := decide (target = 2) } }

/-- OFF: nothing but flash and fuses stays (19 R421). -/
def State.enterOff (s : State) : State :=
  let t := ((s.deleteQueues 0).deleteQueues 1).powerOn
  { t with pwr := { t.pwr with st := 4, vcore := 0 }, log := {}, store := { t.store with restart := [] } }

/-- The state to be entered is entered, and the entry has completed (0x2101:02). -/
def State.enterState (s : State) (target : Fin 5) : State :=
  let r := s.retention
  if target = 1 then (s.enterPark r).put 0x2101 2 1
  else if target = 4 then s.enterOff
  else (s.enterDeep r target).put 0x2101 2 1

/-- Whether a wake source is enabled (19 R429). -/
def State.wakeOn (s : State) (b : Nat) : Bool := s.cfg 0x2100 1 / 2 ^ b % 2 = 1

/-- An entry that cannot go on is abandoned busy, with the abort of the command (19 R425, 20 R451). -/
def State.busy (s : State) (e : PowerEntry) : State :=
  (s.abandon 3 0).entryOutcome e fun t p => t.refuse p 0x2101 1 e.target.val abGeneral

/-- Whether transfers are in flight in a domain that a state takes down: the pods for PARK, the whole core for the others (19 R421, R425). -/
def State.unquiet (s : State) (target : Fin 5) : Bool :=
  if target = 1 then (List.range 32).any s.podBusy
  else (s.xbar.waiting.any fun e => !e.2.isEmpty) || s.eng.any fun e => e.2.lsu1.fl.any fun f => !f.load

/-- Quiescence is reached (19 R424): the command is answered, and the entry runs on to the state or to the abort point A2, A3 or A4 at which a
latched wake is acted on (19 R426). Before the crystal runs, STANDBY and SLEEP are abandoned busy (20 R451). While transfers are in flight there is no
quiescence. Pods whose power gating waits for it go down too (R421). -/
def State.quiescent (s0 : State) (wake : Option (Fin 3 × Fin 14)) : State :=
  let s := s0.gateDone
  match s.pwr.entry with
  | none => s
  | some e =>
    if s.unquiet e.target then s
    else if (e.target = 2 || e.target = 3) && !s.pwr.xtalOk then s.busy e
    else
      let s1 := s.entryAnswer e
      match wake with
      | some w => if s1.wakeOn w.2.val then s1.turnBack (w.1.val + 2) (BitVec.ofNat 14 (2 ^ w.2.val)) false else s1.enterState e.target
      | none => s1.enterState e.target

/-- QUIESCENCE_REACHED (19 R424). -/
def execQuiescenceReached (wake : Option (Fin 3 × Fin 14)) (s : State) : Host.Outcome State Fault Refusal := .next (s.quiescent wake)

/-- QUIESCENCE_TIMEOUT (19 R425). -/
def execQuiescenceTimeout (s : State) : Host.Outcome State Fault Refusal :=
  .next (match s.pwr.entry with
    | none => s.gateFail
    | some e => s.busy e)

/-! Wake (19 R428 to R432). -/

/-- The enable bit of a source, as a mask; none for POWER and START. -/
def wakeBit : WakeSrc → BitVec 14
  | .pin b => BitVec.ofNat 14 (2 ^ b.val)
  | _ => 0

/-- Whether a source can wake the device now. -/
def State.canWake (s : State) : WakeSrc → Bool
  | .pin b => s.wakeOn b.val
  | _ => s.pwr.st.val = 1

/-- A wake edge (19 R426, R429): during an entry it is acted on at A1; in PARK, STANDBY or SLEEP it begins a wake, or joins the one in progress. -/
def State.wakeEdge (s : State) (w : WakeSrc) : State :=
  if !s.canWake w then s
  else
    match s.pwr.entry, s.pwr.wake with
    | some e, _ => (s.turnBack 1 (wakeBit w) (wakeBit w = 0)).entryAnswer e
    | none, some x => { s with pwr := { s.pwr with wake := some { x with sources := x.sources ||| wakeBit w, qualified := x.qualified || wakeBit w = 0 } } }
    | none, none => if 1 ≤ s.pwr.st.val && s.pwr.st.val ≤ 3 then s.wakeFrom (wakeBit w) (wakeBit w = 0) else s

/-- WAKE_EDGE (19 R429). -/
def execWakeEdge (src : WakeSrc) (s : State) : Host.Outcome State Fault Refusal := .next (s.wakeEdge src)

/-- A source of the wake in progress passes its qualification. -/
def State.qualify (s : State) (w : WakeSrc) : State :=
  match s.pwr.wake with
  | none => s
  | some x => if x.sources &&& wakeBit w = 0 then s else { s with pwr := { s.pwr with wake := some { x with qualified := true } } }

/-- WAKE_QUALIFIED (19 R429). -/
def execWakeQualified (src : WakeSrc) (s : State) : Host.Outcome State Fault Refusal := .next (s.qualify src)

/-- A source fails its qualification: with no other left the wake ends, its records are discarded without being counted, and rails that came up
fall (19 R429). -/
def State.unqualify (s : State) (w : WakeSrc) : State :=
  match s.pwr.wake with
  | none => s
  | some x =>
    let left := x.sources &&& ~~~wakeBit w
    if x.qualified || x.sources &&& wakeBit w = 0 then s
    else if left != 0 then { s with pwr := { s.pwr with wake := some { x with sources := left } } }
    else
      let fell := s.pwr.dramRail || (s.pwr.st.val = 2 && 2 ≤ s.pwr.rails.val)
      let w := s.pwr.husk false
      { s with pwr := { w with wake := none, rails := 0, retry := false, dramRail := fell } }

/-- WAKE_QUALIFICATION_FAILED (19 R429). -/
def execWakeQualificationFailed (src : WakeSrc) (s : State) : Host.Outcome State Fault Refusal := .next (s.unqualify src)

/-! Husk capture (19 R430). -/

/-- Generation of a Husk record: the one in force, which the retention record holds while the core is off. -/
def State.huskGen (s : State) (p : Nat) (c : Nat) : Nat :=
  match s.pwr.retention with
  | some r => r.gen.toNat
  | none => s.genAt (portUnit p) c

/-- Whether the Husk receives a frame: classic, or FD with a data phase of up to 5 Mbit/s. -/
def State.huskTakes (s : State) (p : Nat) (f : CanFrame) : Bool :=
  match f.fmt with
  | .classic => true
  | .fd => !f.brs || s.portCfg p 8 ≤ 5000
  | .xl => false

/-- The raw record of a frame caught by the Husk, in Husk time; a frame it does not receive gives a bus event of code 6 with no bytes, whose field and bit
position are free values (log entry 2). -/
def State.huskRecord (s : State) (p : Nat) (e : Stamp) (f : CanFrame) (drops : Bool) : State × List Byte :=
  let fl := flHusk + flDrops * bit01 drops
  let g := s.huskGen p e.count
  if s.huskTakes p f then (s, rawRecord e.count p (canKind f) g (canAux f) fl (canId f) (canPayload f))
  else
    let d := s.draw 1
    let field := d.1 / 65536 % 6
    (d.2, rawRecord e.count p 5 g (6 + 16 * field) (fl + flErr) (if field = 0 || field = 5 then 0 else canId f)
      (leBytes 2 (d.1 % 65536) ++ (s.port p).counts))

/-- A frame reaches the Husk's buffer, whose rows it writes (14 R308); one that finds no room is counted, and the next record carries DROPS. -/
def State.huskKeep (s : State) (p : Nat) (e : Stamp) (f : CanFrame) : State :=
  let r := s.huskRecord p e f s.pwr.huskGap
  if 65536 < s.pwr.huskUsed + r.2.length then { s with pwr := { s.pwr with huskGap := true, huskLost := s.pwr.huskLost + 1 } }
  else
    let row := fun (x : SideRow) => match x with
      | .husk n => s.pwr.huskUsed ≤ 16 * n.val + 15 && 16 * n.val < s.pwr.huskUsed + r.2.length
      | _ => false
    { r.1.healSides row with pwr := { s.pwr with huskBuf := s.pwr.huskBuf ++ [(p, r.2)], huskUsed := s.pwr.huskUsed + r.2.length, huskGap := false } }

/-- The records before the first of a later tick, and that one with what follows it. -/
def cutByTick (ref : Int) (r : List Byte) (l : List (List Byte)) : List (List Byte) × List (List Byte) :=
  let early := fun (x : List Byte) => !decide (fullCount ref (recTick r) < fullCount ref (recTick x))
  (l.takeWhile early, l.dropWhile early)

/-- A record enters a raw lane's open block ahead of those with later ticks; the block closes first where the limits of a block ask for it (05 R95, R96). -/
def State.intoByTick (s : State) (lane : Nat) (r : List Byte) : State :=
  match (s.lane lane).block with
  | none => s.laneAppend lane r
  | some b =>
    let c := cutByTick s.now r b.recs
    (r :: c.2).foldl (fun (t : State) x => t.laneAppend lane x) (s.setLane lane { s.lane lane with block := some { b with recs := c.1 } })

/-- A frame takes its place among those of its port that wait for the classifier, by start edge (04 R82). -/
def frameByEdge (x : ClassIn) (l : List ClassIn) : List ClassIn :=
  let early := fun (y : ClassIn) => !(y.port = x.port && decide (x.edge < y.edge))
  l.takeWhile early ++ x :: l.dropWhile early

/-- The record of a frame in progress at H goes into its raw lane ahead of what the port captured from H on, and to the classifier (19 R430, R432). -/
def State.huskLate (s : State) (p : Nat) (e : Stamp) (f : CanFrame) : State :=
  let r := s.huskRecord p e f false
  let lane := 0x100 + p
  let s1 := (if r.1.recording then r.1.intoByTick lane r.2 else r.1).linkSelect lane r.2
  let s2 := if rawKind r.2 = 5 then s1 else { s1 with cls := { s1.cls with inq := frameByEdge ⟨p, (e.count : Int), r.2⟩ s1.cls.inq } }
  s2.put 0x2102 3 (min 65535 (s2.cfg 0x2102 3 + 1))

/-- A frame while the Husk captures: one that starts less than 2 µs after the wake edge is lost. -/
def State.huskCatch (s : State) (p : Nat) (e : Stamp) (f : CanFrame) : State :=
  if s.pwr.wake.any fun w => decide (e.count < w.since + usTicks 2) then { s with pwr := { s.pwr with huskLost := s.pwr.huskLost + 1 } }
  else s.huskKeep p e f

/-- A frame on a wake-capable CAN port, seen by the Husk. -/
def State.huskFrame (s : State) (p : Nat) (e : Stamp) (f : CanFrame) : State :=
  if s.portCfg p 15 != 1 then s
  else if s.pwr.capture then (s.reach e.count).huskCatch p e f
  else if s.pwr.handover.any (fun h => e.count < h && s.sess.startAt = h) && s.capturing && (s.port p).enabled then s.huskLate p e f
  else s

/-- HUSK_FRAME_CAPTURE (19 R430). -/
def execHuskFrameCapture (port : Fin 8) (edge : Stamp) (frame : CanFrame) (s : State) : Host.Outcome State Fault Refusal :=
  .next (s.huskFrame port.val edge frame)

/-! The end of a wake (19 R431, R432). -/

/-- What the Husk and the retention record hold comes back into the core (19 R427, R431). -/
def State.retained (s : State) (r : Retention) : State :=
  { s with
    tb := { s.tb with husk := s.pwr.refLost && s.pwr.xtalOk, map := r.map, validity := r.validity }
    od := r.counters.foldl (fun (t : Tab Nat) e => t.set e.1 e.2) s.od
    store := { s.store with newest := r.newest, headerDue := r.newest.isSome }
    xbar := { s.xbar with remap := true }
    mem := s.mem.assignRecord
    pst := { s.pst with flash := .octal }
    pwr := { s.pwr with boot := .up, st := 0, releasedAt := s.now, dramRail := false } }

/-- Every unit at one generation. -/
def State.unitsAt (s : State) (g : BitVec 4) : State :=
  { s with sw := { s.sw with units := allUnits.foldl (fun (t : Tab UnitGen) u => t.set u { gen := g, old := g }) s.sw.units } }

/-- The session's state, its activities and the generation come back. -/
def State.sessionBack (s : State) (r : Retention) : State :=
  { s with
    sw := { s.sw with gen := r.gen, issued := r.issued }
    sess := { s.sess with st := r.st, acts := r.acts } }

/-- A replay that was armed waits again for its start. -/
def State.replayBack (s : State) : State := if s.cfg 0x2400 1 = 0 then s.openSource else { s with rep := { s.rep with st := 1 } }

/-- The core comes back from STANDBY or SLEEP: firmware, whose BUILDID is logged (13 R284), profile slot and retention record, then the pods that power
gating leaves on (19 R431, R421). -/
def State.restoreCore (s : State) (r : Retention) : State :=
  let t := (s.retained r).loadFirmware
  let s1 := (t.loadLogged 255 (imgId t.pst.running.bytes)).logSkipped.loadProfile r.slot
  let s2 := (((s1.unitsAt r.gen).configure.calibrate).sessionBack r).bootPods
  let s3 := if r.st = .armed then s2.gatePods else s2
  if r.st = .armed && r.acts.getLsbD 1 then s3.replayBack else s3

/-- SSDs of an armed recording start their bring-up after the core's return; their readiness is waited for (19 R432). -/
def State.wakeSsds (s : State) : State :=
  if s.acting 0 then s.namedSsds.foldl (fun (t : State) k => t.setSsd k { t.ssd k with state := 2 }) s else s

/-- RUN again from PARK: the pods leave retention. -/
def State.leavePark (s : State) : State :=
  { s with xbar := { s.xbar with closed := s.xbar.closed.filter fun t => !(10 ≤ t && t ≤ 41) }, pwr := { s.pwr with st := 0 } }.freePods

/-- A record as it is read from the Husk frame buffer, where it begins at byte `off`: it ends before a byte that fails (14 R297). -/
def State.huskRead (s : State) (off : Nat) (r : List Byte) : List Byte :=
  match s.side.findSome? (fun e => match e.1 with
    | .husk n => let k := 16 * n.val + e.2.1.toNat % 16
                 if sideLost e.2.2 && off ≤ k && k < off + r.length then some (k - off) else none
    | _ => none) with
  | none => r
  | some k => cutRecord r (k - 18)

/-- Husk records enter their ports' raw lanes and the classifier, in tick order (19 R432). -/
def State.mergeHusk (s0 : State) (l : List (Nat × List Byte)) : State :=
  let s := s0.readSides isHusk
  (l.foldl (fun (x : State × Nat) e =>
    let r := x.1.huskRead x.2 e.2
    (x.1.putRaw e.1 (fullCount x.1.now (recTick r)) r, x.2 + e.2.length)) (s, 0)).1

/-- The counters of 0x2102 (19 R441). -/
def State.wakeCounts (s : State) (w : Wake) (merged lost : Nat) : State :=
  (((s.put 0x2102 1 w.sources.toNat).put 0x2102 2 (min (2 ^ 32 - 1) ((s.now - w.since) / 4000))).put 0x2102 3 (min 65535 merged)).put 0x2102 4
    (min 65535 lost)

/-- Commands that waited for RUN: START takes effect unless start-on-wake made it, and POWER to RUN is answered (19 R423). -/
def State.payOwed (s : State) (started : Bool) (starts runs : List Path) : State :=
  let begun := started || s.sess.st = .armed
  let s0 := if !starts.isEmpty && !started && begun then s.startNow else s
  let s1 := starts.foldl (fun (t : State) p =>
    let u := t.recallOn p 0x2010 1
    if begun then u.answer p [] else u.refuseCmd p 2 abState) s0
  runs.foldl (fun (t : State) p => (t.recallOn p 0x2101 1).answer p []) s1

/-- The wake ends in RUN; with start-on-wake and ARMED it ends with START, whose tick is the handover tick H (19 R431, R432). -/
def State.endWake (s : State) (w : Wake) : State :=
  let x := s.pwr
  let s1 : State := { s with pwr := { (s.pwr.husk false) with wake := none, retention := none, startOwed := [], runOwed := [], handover := some s.now } }
  let s2 := s1.setVolts
  let start := s2.cfg 0x2100 3 = 1 && s2.sess.st = .armed
  let s3 := if start then ((s2.startRun.mergeHusk x.huskBuf).startNotices).wakeCounts w x.huskBuf.length x.huskLost
            else s2.wakeCounts w 0 (x.huskLost + x.huskBuf.length)
  s3.payOwed start x.startOwed x.runOwed

/-- A qualified wake reaches RUN: from PARK at once, from STANDBY and SLEEP once every rail is in window. -/
def State.wakeDone (s : State) : State :=
  match s.pwr.wake with
  | none => s
  | some w =>
    if !w.qualified then s
    else if s.pwr.st.val = 1 then s.leavePark.endWake w
    else
      match s.pwr.retention with
      | some r => if s.pwr.rails = 4 then ((s.restoreCore r).wakeSsds).endWake w else s
      | none => s

/-- WAKE_COMPLETE (19 R431). -/
def execWakeComplete (s : State) : Host.Outcome State Fault Refusal := .next s.wakeDone

end Sys2Proof.Machine
end

