-- ==== Sys2Proof/Machine/Supply.lean ====
section
/-! DEFINITION. Supplies, clocks, pins and test access: power-up (20 R450, R451), reset pins (R452), the resets of 18 R406 and 19 R436, R437, PMBus (20 R462),
the test port and debug access (20 R461). -/

namespace Sys2Proof.Machine

/-- Whether the core has its supplies: in RUN or PARK, past the release of the rails. -/
def State.corePowered (s : State) : Bool := s.pwr.boot != .rails && s.pwr.boot != .tripped && s.pwr.st.val ≤ 1

/-- Whether the rails of PEN_IO are on, with those of the enables before it, so that the test port works (20 R445, R449, R450). -/
def State.ioOn (s : State) : Bool := s.corePowered || (s.pwr.boot = .rails && s.pwr.rails = 4)

/-! Power-up (20 R450). -/

/-- Whether the Husk raises rails: at power-up, or in a wake from STANDBY or SLEEP. -/
def State.railsRise (s : State) : Bool := s.pwr.boot = .rails && !s.pwr.retry && (s.pwr.st = 0 || s.pwr.wake.isSome)

/-- A group of rails reaches its window; the DRAM rails may have stayed on in STANDBY, and their enable is then passed over. -/
def State.railUp (s : State) (g : Nat) : State :=
  if s.railsRise && g = s.pwr.rails.val then
    if g = 0 && s.pwr.dramRail then { s with pwr := { s.pwr with rails := 2, dramRail := false } }
    else { s with pwr := { s.pwr with rails := s.pwr.rails + 1 } }
  else s

/-- RAIL_IN_WINDOW (20 R450). -/
def execRailInWindow (group : Fin 4) (s : State) : Host.Outcome State Fault Refusal := .next (s.railUp group.val)

/-- Group of enables of a voltage monitor's rail (18 R405, 20 R449): CORE, DRAM, SERDES, IO; none for the Husk's own supplies. -/
def railGroup (m : Nat) : Option Nat :=
  if m ≤ 9 || m = 12 then some 0
  else if 13 ≤ m && m ≤ 15 then some 2
  else if 16 ≤ m && m ≤ 19 then some 1
  else if 20 ≤ m && m ≤ 23 then some 3
  else none

/-- Every enable is lowered, and with that of the DRAM rails DRAM's contents go; the attempt is logged. -/
def State.railsFail (s : State) (m mv : Nat) : State :=
  let lost := s.pwr.dramRail || 2 ≤ s.pwr.rails.val
  let s1 : State := { s with mem := if lost then { s.mem with cells := [], dramBad := [], dbad := [] } else s.mem, pwr := { s.pwr with rails := 0, retry := true, dramRail := false } }
  s1.logE 3 1 0x2920 (0x11 + m) mv

/-- RAIL_ENABLE_TIMEOUT (20 R450). -/
def execRailEnableTimeout (monitor : Fin 24) (mv : Nat) (s : State) : Host.Outcome State Fault Refusal :=
  .next (if s.railsRise && railGroup monitor.val = some s.pwr.rails.val then s.railsFail monitor.val mv else s)

/-- RAIL_RETRY_TIMER (20 R450). -/
def execRailRetryTimer (s : State) : Host.Outcome State Fault Refusal := .next { s with pwr := { s.pwr with retry := false } }

/-- CRYSTAL_RUNNING (20 R451); in OFF the Husk is unpowered. -/
def execCrystalRunning (s : State) : Host.Outcome State Fault Refusal :=
  .next (if s.pwr.st = 4 then s else { s with pwr := { s.pwr with xtalOk := true } })

/-! Resets and their causes. -/

/-- POWER_ON_RESET (20 R452). -/
def execPowerOnReset (s : State) : Host.Outcome State Fault Refusal := .next s.powerOn

/-- A cold reset by RESET_N or by debug access; OFF is left only by power-on (19 R421). -/
def State.coldPin (s : State) (cause : Nat) : State := if s.pwr.st = 4 then s else s.coldReset cause

/-- COLD_RESET (20 R452, 18 R406). -/
def execColdReset (debug : Bool) (s : State) : Host.Outcome State Fault Refusal := .next (s.coldPin (if debug then 9 else 1))

/-- CHIP_WARM_RESET (19 R437): causes 2 to 8 of 18 R406. -/
def execChipWarmReset (cause : Fin 10) (s : State) : Host.Outcome State Fault Refusal :=
  .next (if s.corePowered && 2 ≤ cause.val && cause.val ≤ 8 then s.warmReset cause.val else s)

/-- CORE_BROWNOUT (18 R406). -/
def execCoreBrownout (s : State) : Host.Outcome State Fault Refusal := .next (if s.corePowered then s.warmReset 5 else s)

/-- The reference clock is lost: warm reset, and the Husk carries chip time while its crystal runs (18 R406, 20 R451). -/
def State.clockLost (s : State) : State :=
  let t := ({ s with tb := { s.tb with husk := s.pwr.xtalOk }, pwr := { s.pwr with refLost := true } } : State)
  t.warmReset 4

/-- REFCLK_LOSS (18 R406). -/
def execRefclkLoss (s : State) : Host.Outcome State Fault Refusal := .next (if s.corePowered then s.clockLost else s)

/-- REFERENCE_CLOCK_RETURN (18 R406): with the core powered, chip time passes back to the 1 GHz counter. -/
def execReferenceClockReturn (s : State) : Host.Outcome State Fault Refusal :=
  .next { s with tb := { s.tb with husk := s.tb.husk && !s.corePowered }, pwr := { s.pwr with refLost := false } }

/-- Every rail but the Husk's is cut, whatever is in progress (19 R436). -/
def State.trip (s : State) : State :=
  let t := s.coreLost false
  ({ t with test := s.test, pwr := { t.pwr with boot := .tripped, thermTripN := false, vcore := 0 } } : State).logE 3 1 0x2100 0 0

/-! POWER, and a management request in the same cycle (01 R21). -/

/-- A protective request, of a hard throttle or a thermal trip, is carried out before a host command of the same cycle (01 R21). -/
def State.protect (s : State) : Option MgmtReq → State
  | some .hard => if s.served then s.setThrottle 2 else s
  | some .trip => if s.pwr.boot = .tripped || s.pwr.st = 4 then s else s.trip
  | _ => s

/-- A soft throttle, a change to level 1, is carried out after it (19 R434). -/
def State.soften (s : State) : Option MgmtReq → State
  | some .soft => if s.served then s.setThrottle 1 else s
  | _ => s

/-- POWER (19 R423). -/
def execPower (path : Path) (req : PowerReq) (s : State) : Host.Outcome State Fault Refusal :=
  let v := cmdValue 7 req.p.toNat
  .next (((s.protect req.same).requestWrite path 0x2010 1 (leBytes 4 v) fun t => t.cPower path v).soften req.same)

/-- THERMAL_TRIP (19 R436). -/
def execThermalTrip (s : State) : Host.Outcome State Fault Refusal := .next (if s.pwr.boot = .tripped || s.pwr.st = 4 then s else s.trip)

/-- The trip is released: as after a warm reset with cause 6, the rails first. -/
def State.untrip (s : State) : State :=
  let t := s.warmReset 6
  { t with pwr := { t.pwr with boot := .rails, rails := 0, thermTripN := true } }

/-- THERMAL_TRIP_RELEASE (19 R436). -/
def execThermalTripRelease (s : State) : Host.Outcome State Fault Refusal := .next (if s.pwr.boot = .tripped then s.untrip else s)

/-! PMBus, debug access and the test port. -/

/-- PMB_ALERT_N falls: every regulator's STATUS_WORD is read, and each fault found is logged (20 R462). -/
def State.pmbusAlert (s : State) (faults : List (Nat × Nat)) : State :=
  (faults.filter fun f => f.1 < 24).foldl (fun (t : State) f => t.logE 3 1 0x2920 (0x11 + f.1) f.2) (s.send .pmbus)

/-- PMBUS_ALERT (20 R462). -/
def execPmbusAlert (faults : List (Nat × Nat)) (s : State) : Host.Outcome State Fault Refusal := .next (if s.served then s.pmbusAlert faults else s)

/-- JTAG_DEBUG_ACCESS (20 R461, 15 R324). -/
def execJtagDebugAccess (coldReset : Bool) (req : XReq) (s : State) : Host.Outcome State Fault Refusal :=
  .next (if !s.ioOn then s else if coldReset then s.coldPin 9 else if s.xbarOn then s.transact { req with master := 47 } else s)

/-- IDCODE (20 R461). -/
def idCode : BitVec 32 := 0x110249AF

/-- What is shifted out under an instruction: IDCODE, the bypass bit, or the cells captured at the balls, which are free values (log entry 2). -/
def State.captured (s : State) (i : TestInstr) (data : List Bool) : State × List Bool :=
  match i with
  | .idcode => (s, (List.range 32).map idCode.getLsbD)
  | .bypass | .clamp | .highz => (s, (false :: data).take data.length)
  | .sample | .preload | .extest | .extestPulse | .extestTrain =>
    let d := s.draw 5
    (d.2, (List.range data.length).map d.1.testBit)

/-- Whether an instruction loads the boundary register from what is shifted in. -/
def loadsBoundary : TestInstr → Bool
  | .preload | .extest | .extestPulse | .extestTrain => true
  | _ => false

/-- An instruction of the test port with one scan. -/
def State.scan (s : State) (i : TestInstr) (data : List Bool) : State :=
  let c := s.captured i data
  ({ c.1 with test := { instr := i, boundary := if loadsBoundary i then data else s.test.boundary } } : State).send (.scan c.2)

/-- TEST_PORT_INSTRUCTION (20 R461): the port is powered in RUN and PARK, and while rails are up. -/
def execTestPortInstruction (instr : TestInstr) (data : List Bool) (s : State) : Host.Outcome State Fault Refusal :=
  .next (if s.ioOn then s.scan instr data else s)

end Sys2Proof.Machine
end

