-- ==== Sys2Proof/Machine/Dictionary.lean ====
section
/-! DEFINITION. Serving reads and writes of every object of the dictionary, with the checks of 17 R470 in their order. -/

namespace Sys2Proof.Machine

/-! Reads (17 R364, R366, 00 R11). -/

/-- Code of a session state (17 R380). -/
def sessCode : SessSt → Nat
  | .idle => 0
  | .armed => 1
  | .running => 2
  | .draining => 3
  | .fault => 4

/-- Stepping code (17 R381). -/
def steppingCode : Nat := if Config.isB0 then 2 else 1

/-- Engines of a pod that run, as bits (08 R180). -/
def State.runBits (s : State) (p : Nat) : Nat := ((List.range 32).map fun i => 2 ^ i * bit01 (s.engRuns (32 * p + i))).sum

/-- 17 R380, R381: communication, identity and session objects that are computed. -/
def State.readIdent (s : State) (idx sub : Nat) : Option Nat :=
  match idx, sub with
  | 0x1001, _ => some (bit01 (s.sess.st = .fault))
  | 0x1018, 3 => some (steppingCode * 65536)
  | 0x1018, 4 => some (Config.uid.toNat % 2 ^ 32)
  | 0x2000, 1 => some Config.uid.toNat
  | 0x2000, 3 => some steppingCode
  | 0x2000, 4 => some s.pst.running.version.toNat
  | 0x2000, 5 => some Config.bootRomVersion.toNat
  | 0x2001, 1 => some (sessCode s.sess.st)
  | 0x2001, 2 => some s.sess.acts.toNat
  | 0x2001, 3 => some s.sess.faultCause.val
  | 0x2001, 4 => some s.sess.refused.toNat
  | 0x2001, 5 => some s.sess.refusedCode.toNat
  | _, _ => none

/-- 19 R441, 02 R43: power, boot and time objects that are computed. -/
def State.readTime (s : State) (idx sub : Nat) : Option Nat :=
  match idx, sub with
  | 0x2101, 1 => some s.pwr.st.val
  | 0x2101, 4 => some s.pwr.throttle.val
  | 0x2101, 5 => some s.pwr.vcore
  | 0x2103, 3 => some s.pwr.halt.val
  | 0x2201, 1 => some s.tbStat
  | 0x2201, 2 => some (ofSigned 32 s.publishedOffset)
  | 0x2201, 3 => some (ofSigned 32 s.tb.rate)
  | 0x2210, 7 => some s.tb.validity.val
  | _, _ => none

/-- 06 R133, 05 R113, 07 R152: replay, store and link objects that are computed. -/
def State.readPlane (s : State) (idx sub : Nat) : Option Nat :=
  match idx, sub with
  | 0x2401, 1 => some s.rep.st.val
  | 0x2401, 2 => some s.rep.cause.val
  | 0x2401, 3 => some (ofSigned 64 s.rep.offset)
  | 0x2503, 1 => some s.occupancy
  | 0x2503, 2 => some s.store.level.val
  | 0x2503, 3 => some s.store.ssd0.state.val
  | 0x2503, 4 => some s.store.ssd1.state.val
  | 0x2503, 5 => some (match s.store.newest with
    | some d => d.seq
    | none => 2 ^ 64 - 1)
  | 0x2503, 10 => some s.store.mode
  | 0x2601, 1 => some s.link.st.val
  | 0x2601, 2 => some s.link.cause.val
  | 0x2601, 3 => some (min 2000000 ((s.link.paths.map fun e => if e.2.up then e.2.rate else 0).sum / 1000))
  | 0x2601, 4 => some s.link.level.val
  | 0x2601, 5 => some s.link.keyno.toNat
  | 0x2601, 6 => some (ofSigned 64 (s.link.offset.getD 0))
  | _, _ => none

/-- 0xFFFF where there is no node. -/
def nodeWord (n : Option Nat) : Nat := n.getD 0xFFFF

/-- 16 R363, 17 R395: fabric and profile objects that are computed. -/
def State.readFab (s : State) (idx sub : Nat) : Option Nat :=
  match idx, sub with
  | 0x2701, 1 => some s.fab.st.val
  | 0x2701, 2 => some (nodeWord (s.fab.node.map BitVec.toNat))
  | 0x2701, 3 => some (min 256 s.fab.db.length)
  | 0x2701, 4 => some ((s.fab.master.map BitVec.toNat).getD 0)
  | 0x2701, 5 => some (nodeWord (s.fab.master.bind s.nodeOf))
  | 0x2701, 6 => some s.fab.hops
  | 0x2701, 7 => some s.fab.gen.toNat
  | 0x2800, 1 => some s.sw.slot
  | 0x2800, 2 => some s.sw.gen.toNat
  | 0x2800, 4 => some ((List.range 8).map fun k => 2 ^ k * bit01 (s.sw.slots.find k).isSome).sum
  | 0x2800, 8 => some s.sw.straps.val
  | 0x2800, 10 => some s.sw.st.val
  | 0x2800, 11 => some (s.sw.lastT / 2 ^ 48)
  | 0x2800, 12 => some (s.sw.lastT % 2 ^ 48)
  | _, _ => if 0x2710 ≤ idx && idx ≤ 0x2717 then
      let x := s.fport (idx - 0x2710)
      if sub = 1 then some x.st.val
      else if sub = 2 then some x.partner.toNat
      else if sub = 3 then some (nodeWord (x.partnerNode.map BitVec.toNat))
      else none
    else none

/-- 18 R419, 04 R88: Pestle's and the classifier's objects that are computed. -/
def State.readPestle (s : State) (p : Path) (idx sub : Nat) : Option Nat :=
  match idx, sub with
  | 0x2300, 3 => if s.checking then some 1 else none
  | 0x2900, 1 => some ((List.range 4).map fun k => 2 ^ k * bit01 (s.engRuns (1024 + k))).sum
  | 0x2900, 2 => some (ofSigned 16 (hottest s.pst.temps))
  | 0x2901, 1 => some s.pwr.resetDomain.val
  | 0x2901, 2 => some s.pwr.resetCause.val
  | 0x2910, 1 => some Config.uid.toNat
  | 0x2910, 2 => some (leNat (fit 97 Config.identityKey))
  | 0x2910, 3 => some (leNat (sha384 (fit 97 Config.identityKey)))
  | 0x2911, 1 => some (leNat (s.pst.keyHash.getD []))
  | 0x2911, 2 => some (leNat (fit 48 Config.firmwareKeyHash))
  | 0x2912, 2 => some s.pst.received
  | 0x2912, 4 => some s.pst.checked
  | 0x2912, 5 => some (bit01 s.pst.activeB)
  | 0x2912, 6 => some (128 * bit01 s.pst.trial + s.pst.attempts.val)
  | 0x2912, 7 => some s.pst.rollback.val
  | 0x2913, 2 => some s.freeUnits
  | 0x2930, 1 => some s.log.next.toNat
  | 0x2930, 2 => some (s.acc.cursors.get 0 (pathCode p)).toNat
  | 0x2930, 4 => some (s.acc.passed.get 0 (pathCode p))
  | 0x2930, 5 => some s.log.rows.length
  | 0x2940, 7 => some s.mem.assigned
  | 0x2940, 8 => some (bit01 s.mem.ownRecord.test)
  | 0x2A00, 1 => some (podBits fun q => s.runBits q != 0)
  | 0x2A00, 2 => some (podBits fun q => (s.pod q).powered)
  | _, _ =>
    if idx = 0x2920 && 1 ≤ sub && sub ≤ 16 then some (ofSigned 16 (s.pst.temps.getD (sub - 1) 0))
    else if idx = 0x2920 && 17 ≤ sub && sub ≤ 40 then some (s.pst.volts.getD (sub - 17) 0)
    else if idx = 0x2920 && 41 ≤ sub then some (s.pst.clocks.getD (sub - 41) 0)
    else if 0x2A01 ≤ idx && idx ≤ 0x2A20 && sub = 1 then some (s.pod (idx - 0x2A01)).step.val
    else if 0x2A01 ≤ idx && idx ≤ 0x2A20 && sub = 2 then some (s.runBits (idx - 0x2A01))
    else none

/-- The value of an object on a path: what the device's state gives, a table entry of the shadow bank, or the value stored. -/
def State.objNat (s : State) (p : Path) (idx sub : Nat) : Nat :=
  match s.readIdent idx sub with
  | some v => v
  | none =>
  match s.readTime idx sub with
  | some v => v
  | none =>
  match s.readPlane idx sub with
  | some v => v
  | none =>
  match s.readFab idx sub with
  | some v => v
  | none =>
  match s.readPestle p idx sub with
  | some v => v
  | none => if 0x3000 ≤ idx && sub != 0 then s.windowEntry idx sub else s.cfg idx sub

/-- Device name (17 R381): Capizo TF1024. -/
def deviceName : List Byte := [0x43, 0x61, 0x70, 0x69, 0x7A, 0x6F, 0x20, 0x54, 0x46, 0x31, 0x30, 0x32, 0x34]

/-- The bytes that a read of an object returns; a WO object reads 0 (00 R11). -/
def State.objBytes (s : State) (p : Path) (r : DictRow) (idx sub : Nat) : List Byte :=
  if r.acc = .wo then zeros (max 1 r.size)
  else if idx = 0x1008 then deviceName
  else if idx = 0x2910 && sub = 4 then Config.certificate.take 65536
  else leBytes r.size (s.objNat p idx sub)

/-- Whether an object is a DOMAIN, which alone has byte offsets (17 R371, 16 R358). -/
def isDomain (idx sub : Nat) : Bool := (idx = 0x2910 && sub = 4) || (idx = 0x2912 && sub = 1) || (idx = 0x2913 && sub = 1)

/-- The row of the shadow bank that a subindex of a table window reads. -/
def State.windowRow (s : State) (idx sub : Nat) : Option SideRow :=
  if sub = 0 then none
  else if 0x3000 ≤ idx && idx < 0x3080 then some (.fkt s.cls.active (Fin.ofNat 16384 ((idx - 0x3000) * 128 + sub - 1)))
  else if 0x3100 ≤ idx && idx < 0x3300 then some (.sm s.cls.active (Fin.ofNat 65536 ((idx - 0x3100) * 128 + sub - 1)))
  else none

/-- Whether that row holds an uncorrectable byte (14 R297). -/
def State.windowBad (s : State) (idx sub : Nat) : Bool := (s.windowRow idx sub).any s.sideBad

/-- The row is read (14 R307, R323). -/
def State.readWindow (s : State) (idx sub : Nat) : State := s.readSides fun r => s.windowRow idx sub = some r

/-- Serve a read of at most `want` bytes from byte `off` (17 R470, 16 R358). -/
def State.rObject (s : State) (p : Path) (idx sub off want : Nat) : State :=
  match dictRow idx sub with
  | none => s.refuse p idx sub 0 (if dictHasIndex idx then abNoSub else abNoObject)
  | some r =>
    if (windowLen idx).isSome && sub != 0 && want < r.size then s.refuse p idx sub 0 abLength
    else if off != 0 && !isDomain idx sub then s.refuse p idx sub 0 abRange
    else if s.windowBad idx sub then (s.readWindow idx sub).refuse p idx sub 0 abHardware
    else if idx = 0x2202 && sub = 1 then s.rEpoch p want
    else if idx = 0x2202 && sub = 2 then s.rTick p want
    else if idx = 0x2930 && sub = 3 then s.rLog p want
    else (s.readWindow idx sub).answer p (((s.objBytes p r idx sub).drop off).take want)

/-! Writes (17 R470). -/

/-- A command value written to 0x2010:01 (17 R377). -/
def State.command (s : State) (p : Path) (v : Nat) : State :=
  match v % 256 with
  | 1 => s.cArm p v
  | 2 => s.cStart p v
  | 3 => s.cStop p v
  | 4 => s.cDisarm p v
  | 5 => s.cMark p v
  | 6 => s.cSwitch p v
  | 7 => s.cPower p v
  | _ => s.refuseCmd p v abRange

/-- Whether a value of an object's row lies in its range, its field rules included (17 R470 check 5). -/
def DictRow.takes (r : DictRow) (idx sub v : Nat) : Bool :=
  let x : Int := if r.signed then toSigned (8 * r.size) v else (v : Int)
  r.lo ≤ x && x ≤ r.hi && fieldOk idx sub v

/-- Whether a first block lies within its namespace, and a number of slots within its size (05 R113, 06 R133). -/
def State.inNamespace (s : State) (idx sub v : Nat) : Bool :=
  let first := fun k => decide (v < Config.namespaceLbas k)
  let slots := fun k => v = 0 || decide (v ≤ namespaceSlots k)
  match idx, sub with
  | 0x2502, 2 => first 0
  | 0x2502, 3 => slots 0
  | 0x2502, 5 => first 1
  | 0x2502, 6 => slots 1
  | 0x2400, 4 => first (s.cfg 0x2400 2 % 2)
  | 0x2400, 5 => slots (s.cfg 0x2400 2 % 2)
  | 0x2400, 15 => first 1
  | 0x2400, 16 => slots 1
  | _, _ => true

/-- Whether the session state or a pending switch bars a write (17 R385, 18 R419, 14 R323, 16 R363). -/
def State.writeBarred (s : State) (idx sub : Nat) : Bool :=
  (profileScoped idx sub && (s.sess.st != .idle || s.switchPending)) || (deviceIdleOnly idx sub && s.sess.st != .idle)

/-- An image reference changed in IDLE: the pod is loaded anew when it is powered (13 R288). -/
def State.imageChanged (s : State) (p old : Nat) : State :=
  if s.imageRef p = old || !(s.pod p).powered || (s.pod p).bad || (s.pod p).failed then s else s.loadPod p

/-- What follows a stored value: port enables, a CAN port's mode, fabric settings, remote windows, the next hop of a link path and image references take effect at once in
IDLE. -/
def State.stored (s : State) (idx sub old : Nat) : State :=
  if 0x2310 ≤ idx && idx ≤ 0x23CF && sub = 1 then s.applyEnables
  else if 0x2310 ≤ idx && idx ≤ 0x23CF && sub = 5 then s.restPort (idx - 0x2310)
  else if idx = 0x2700 then s.applyFabric
  else if idx = 0x2702 then s.remoteWindows
  else if 0x2610 ≤ idx && idx ≤ 0x2613 then s.setLpath (idx - 0x2610) { s.lpath (idx - 0x2610) with neighbour := false }
  else if 0x2A40 ≤ idx && idx ≤ 0x2A5F && sub = 1 then s.imageChanged (idx - 0x2A40) old
  else s

/-- A stored value is kept in the configuration store, when it has its place there (17 R385, 18 R399). -/
def State.saved (s : State) (idx sub : Nat) : State := if inFlash (idx * 256 + sub) then s.wrote configCopies else s

/-- A write whose checks up to the value have passed, to an object without an action of its own. -/
def State.wPlain (s : State) (p : Path) (idx sub v : Nat) : State :=
  if s.writeBarred idx sub then s.refuseLog p idx sub v abState
  else (((s.put idx sub v).saved idx sub).stored idx sub (s.cfg idx sub)).answer p []

/-- A write whose checks up to the value have passed. -/
def State.wValue (s : State) (p : Path) (idx sub v : Nat) : State :=
  match idx, sub with
  | 0x2010, 1 => s.command p v
  | 0x2101, 1 => s.cPower p (cmdValue 7 v)
  | 0x2210, 6 => s.wUtc p v
  | 0x2210, 8 => s.wCommitMap p v
  | 0x2300, 1 => s.wCommitTables p v
  | 0x2300, 2 => s.wCopyTables p v
  | 0x2800, 3 => s.wSave p v
  | 0x2912, 3 => s.wUpdate p v
  | 0x2913, 3 => s.wDeleteImage p v
  | 0x2930, 2 => ({ s with acc := { s.acc with cursors := s.acc.cursors.set (pathCode p) (BitVec.ofNat 16 v) } } : State).answer p []
  | 0x2940, 8 => s.wMemTest p v
  | _, _ => s.wPlain p idx sub v

/-- Serve a write at byte `off` of an object (17 R470). -/
def State.wObject (s : State) (p : Path) (idx sub off : Nat) (data : List Byte) : State :=
  let v := leNat data
  match dictRow idx sub with
  | none => s.refuse p idx sub (v % 2 ^ 24) (if dictHasIndex idx then abNoSub else abNoObject)
  | some r =>
    if r.acc = .ro then s.refuse p idx sub (v % 2 ^ 24) abReadOnly
    else if idx = 0x2912 && sub = 1 then s.wFirmware p off data
    else if idx = 0x2913 && sub = 1 then s.wPodImage p off data
    else if data.length != r.size then s.refuse p idx sub (v % 2 ^ 24) abLength
    else if off != 0 || !r.takes idx sub v || !s.inNamespace idx sub v then s.refuse p idx sub (v % 2 ^ 24) abRange
    else if idx = 0x2911 && sub = 1 then s.wImageKey p data
    else if (windowLen idx).isSome then s.wWindow p idx sub data
    else s.wValue p idx sub v

/-- OBJECT_WRITE (17 R470). -/
def execObjectWrite (path : Path) (idx : BitVec 16) (sub : Byte) (data : List Byte) (s : State) : Host.Outcome State Fault Refusal :=
  .next (s.requestWrite path idx.toNat sub.toNat data fun t => t.wObject path idx.toNat sub.toNat 0 data)

/-! The CANopen path (17 R368, R369). -/

/-- Whether the CAN path serves: enabled, with its port in normal mode (17 R370). -/
def State.canPathOn (s : State) : Bool := s.served && s.cfg 0x2002 3 = 1 && s.portCfg s.acc.canPort 5 = 2

/-- A transfer in progress ends with an abort. -/
def State.endTransfer (s : State) (code : BitVec 32) : State :=
  match s.acc.transfer with
  | none => s
  | some t => ({ s with acc := { s.acc with transfer := none } } : State).refuse .can t.idx.toNat t.sub.toNat 0 code

/-- A segment of a download: in order it joins the transfer, and the last one makes the write. -/
def State.usdoSegment (s : State) (n : Byte) (data : List Byte) (last : Bool) : State :=
  match s.acc.transfer with
  | none => s.refuse .can 0 0 0 abSequence
  | some t =>
    if !t.write || n != t.next then s.endTransfer abSequence
    else if last then
      ({ s with acc := { s.acc with transfer := none } } : State).requestWrite .can t.idx.toNat t.sub.toNat (t.data ++ data) fun u =>
        u.wObject .can t.idx.toNat t.sub.toNat 0 (t.data ++ data)
    else ({ s with acc := { s.acc with transfer := some { t with data := t.data ++ data, next := n + 1 } } } : State).answer .can []

/-- The next segment of an upload is asked for. -/
def State.usdoUpload (s : State) (n : Byte) : State :=
  match s.acc.transfer with
  | none => s.refuse .can 0 0 0 abSequence
  | some t =>
    if t.write || n != t.next then s.endTransfer abSequence
    else
      let k := max 1 Config.usdoSegment
      let rest := t.data.drop k
      let tr := if rest.isEmpty then none else some { t with data := rest, next := n + 1 }
      (({ s with acc := { s.acc with transfer := tr } } : State).send (.answer .can (t.data.take k))).usdoAnswer none (t.data.take k)

/-- A USDO frame of the client: a new request aborts a transfer in progress. -/
def State.usdo (s : State) : Usdo → State
  | .malformed => ({ s with acc := { s.acc with transfer := none } } : State).refuse .can 0 0 0 abSpecifier
  | .upload idx sub =>
    (s.endTransfer abGeneral).request .can false idx.toNat sub.toNat 0 65536 [] fun t => t.rObject .can idx.toNat sub.toNat 0 65536
  | .download idx sub data =>
    (s.endTransfer abGeneral).requestWrite .can idx.toNat sub.toNat data fun t => t.wObject .can idx.toNat sub.toNat 0 data
  | .downloadInit idx sub =>
    let t := s.endTransfer abGeneral
    ({ t with acc := { t.acc with transfer := some ⟨true, idx, sub, [], 0⟩ } } : State).answer .can []
  | .segment n data last => s.usdoSegment n data last
  | .uploadSegment n => s.usdoUpload n

/-- USDO_REQUEST (17 R369). -/
def execUsdoRequest (frame : Usdo) (s : State) : Host.Outcome State Fault Refusal := .next (if s.canPathOn then s.usdo frame else s)

/-- USDO_SEGMENT_TIMEOUT (17 R369). -/
def execUsdoSegmentTimeout (s : State) : Host.Outcome State Fault Refusal := .next (if s.canPathOn then s.endTransfer abTimeout else s)

/-- HEARTBEAT_PRODUCER_TIMER (17 R368): state operational. -/
def execHeartbeatProducerTimer (s : State) : Host.Outcome State Fault Refusal :=
  .next (if s.canPathOn && s.cfg 0x1017 0 != 0 then s.canOwn (0x700 + s.acc.canNode) [5] else s)

/-! The PCIe mailbox (17 R371, R372). -/

/-- Access path of a PCIe controller. -/
def boxPath (ctl : Bool) : Path := if ctl then .pcie1 else .pcie0

/-- Host writes of MBX_STAT, MBX_LEN, MBX_OFF, MBX_REQ and the buffer. -/
def Mailbox.take (b : Mailbox) (stat req : BitVec 32) (len : BitVec 13) (off : BitVec 32) (data : List Byte) : Mailbox :=
  { b with req := req &&& 0xC0FFFFFF, len := len, off := off, buf := data ++ b.buf.drop data.length, done := b.done && !stat.getLsbD 31,
           ie := stat.getLsbD 0 }

/-- A mailbox request whose LEN exceeds the buffer: existence and access are checked before the length (17 R470, R371). -/
def State.boxLong (s : State) (p : Path) (write : Bool) (idx sub : Nat) : State :=
  match dictRow idx sub with
  | none => s.refuse p idx sub 0 (if dictHasIndex idx then abNoSub else abNoObject)
  | some r => s.refuse p idx sub 0 (if write && r.acc = .ro then abReadOnly else abLength)

/-- The mailbox request with GO set. -/
def State.boxServe (s : State) (ctl : Bool) (req : BitVec 32) : State :=
  let k := bit01 ctl
  let p := boxPath ctl
  let b := s.box k
  let idx := (req.extractLsb' 0 16).toNat
  let sub := (req.extractLsb' 16 8).toNat
  let n := b.len.toNat
  if 4096 < n then (if idx = 0x2020 || (s.remote p).isNone then s.boxLong p (req.getLsbD 30) idx sub else s.refuse p idx sub 0 abLength)
  else if req.getLsbD 30 then
    let d := slice b.buf 0 n
    s.request p true idx sub b.off.toNat 0 d fun t => t.wObject p idx sub b.off.toNat d
  else s.request p false idx sub b.off.toNat 4096 [] fun t => t.rObject p idx sub b.off.toNat 4096

/-- The host's writes of the mailbox that end with MBX_REQ; while GO reads 1 they are ignored, and logged once per request (17 R372). -/
def State.boxGo (s : State) (ctl : Bool) (stat req : BitVec 32) (len : BitVec 13) (off : BitVec 32) (data : List Byte) : State :=
  let k := bit01 ctl
  let b := s.box k
  if b.req.getLsbD 31 then
    if b.logged then s else (s.setBox k { b with logged := true }).logE 2 1 0x1000 0 0
  else
    let s1 := s.setBox k (b.take stat req len off (data.take 4096))
    if req.getLsbD 31 then s1.boxServe ctl req else s1

/-- MBX_GO (17 R371). -/
def execMbxGo (ctl : Bool) (stat : BitVec 32) (req : BitVec 32) (len : BitVec 13) (off : BitVec 32) (data : List Byte) (s : State) :
    Host.Outcome State Fault Refusal :=
  .next (if s.served && Config.pcieEndpoint (bit01 ctl) then s.boxGo ctl stat req len off data else s)

/-! Management requests from the fabric (16 R358, R359, 17 R373). -/

/-- Data and error of the responses that a crossbar access of master 44 met. -/
def respData : List Output → Bool × List Byte
  | [] => (false, [])
  | .response _ _ e d :: t => (e || (respData t).1, d ++ (respData t).2)
  | _ :: t => respData t

/-- One crossbar transaction for a memory request: the error's CAUSE, or the bytes read. The CAUSE of an uncorrectable error and bytes
read from a PCIe device are free values (log entry 2). -/
def State.xMgmt (s : State) (w : XReq) : State × Option Nat × List Byte :=
  match s.xCause w none with
  | some c => (s.transact w, some c.1, [])
  | none =>
    let t := s.transact w
    let r := respData (t.out.drop s.out.length)
    if r.1 then (let d := t.draw 6
                 (d.2, some (d.1 % 4), []))
    else if w.write then (t, none, [])
    else if r.2.length = w.len.val then (t, none, r.2)
    else (let d := t.draw 7
          (d.2, none, leBytes w.len.val d.1))

/-- A memory request from address `a` on, block by block: the STATUS, the bytes completed, and the data read. -/
def State.mgmtMemory (s : State) (write : Bool) (a n : Nat) (data got : List Byte) (done : Nat) : Nat → State × Nat × Nat × List Byte
  | 0 => (s, 0, done, got)
  | k + 1 =>
    if n = 0 then (s, 0, done, got)
    else if 2 ^ 40 ≤ a then (s, 0x01000000, done, got)
    else
      let m := min n (64 - a % 64)
      match s.xMgmt ⟨44, BitVec.ofNat 40 a, write, false, Fin.ofNat 65 m, if write then data.take m else [], 0⟩ with
      | (s1, some c, _) => (s1, 0x01000000 + c, done, got)
      | (s1, none, d) => State.mgmtMemory s1 write (a + m) (n - m) (data.drop m) (got ++ d) (done + m) k

/-- Whether every remote memory window is unused (16 R359). -/
def State.noWindow (s : State) : Bool := (List.range 16).all fun i => bits (s.cfg 0x2702 (i + 1)) 80 2 = 0

/-- Serve a memory request: the answer's LEN gives the bytes completed; with every window unused it gets CAUSE 1 whatever it asks for. -/
def State.serveMemory (s : State) (node tag : Byte) (write : Bool) (a n : Nat) (data : List Byte) : State :=
  let r := if s.noWindow then (s, 0x01000001, 0, []) else s.mgmtMemory write a n data [] 0 64
  if r.1.served then
    (r.1.sendTo node.toNat (mgmtFlits 4 tag r.2.2.1 (leBytes 4 r.2.1) r.2.2.2)).1
  else r.1

/-- Serve an MGMT request from its bytes. -/
def State.serveMgmt (s : State) (node : Byte) (b : List Byte) : State :=
  let kind := (b.getD 0 0).toNat
  let tag := b.getD 1 0
  let n := leNat (slice b 2 2)
  let data := fit n (b.drop 12)
  if 2 ≤ kind then s.serveMemory node tag (kind = 3) (leNat (slice b 4 5)) (min n 3316) data
  else
    let idx := leNat (slice b 4 2)
    let sub := leNat (slice b 6 1)
    let off := leNat (slice b 7 4)
    let s1 : State := { s with acc := { s.acc with caller := some (node, tag) } }
    if kind = 0 then s1.rObject .fabric idx sub off (min n 3316) else s1.wObject .fabric idx sub off data

/-- MGMT_REQUEST_RECEIVED (16 R358): a KIND that is not produced is a malformed message (16 R346). -/
def execMgmtRequestReceived (k : Fin 8) (flits : List Flit) (s : State) : Host.Outcome State Fault Refusal :=
  .next (match flits with
    | [] => s
    | f :: _ =>
      let kind := ((usedBytes f).getD 0 0).toNat
      if kind < 4 then s.rxMessage k.val 6 false flits fun t => t.serveMgmt f.src ((flits.map usedBytes).flatten)
      else if 4 < kind && s.fabHears k.val then s.violate k.val 2 f
      else s)

end Sys2Proof.Machine
end

