-- ==== Sys2Proof/Machine/EngAlu.lean ====
section
/-! DEFINITION. The ALU commands (10 R205 to R208): each is the trigger of its operation on one ALU. -/

namespace Sys2Proof.Machine

/-- An ALU trigger: unit ALU1 when `u`, the long form when `long` (09 R190, R192). -/
def State.aluRow (s : State) (e : EngN) (u long : Bool) (sub : Nat) (a : L48) : State :=
  s.issue e.val ((if u then bALU1 else bALU0) + (if long then 0x10 else 0) + sub) a

/-- ALU ADD (10 R205 to R208, R220). -/
def execAluAdd (eng : EngN) (u : Bool) (long : Bool) (a : L48) (s : State) : Host.Outcome State Fault Refusal := .next (s.aluRow eng u long 0 a)

/-- ALU ADDC (10 R205 to R208, R220). -/
def execAluAddc (eng : EngN) (u : Bool) (long : Bool) (a : L48) (s : State) : Host.Outcome State Fault Refusal := .next (s.aluRow eng u long 1 a)

/-- ALU SUB (10 R205 to R208, R220). -/
def execAluSub (eng : EngN) (u : Bool) (long : Bool) (a : L48) (s : State) : Host.Outcome State Fault Refusal := .next (s.aluRow eng u long 2 a)

/-- ALU SUBB (10 R205 to R208, R220). -/
def execAluSubb (eng : EngN) (u : Bool) (long : Bool) (a : L48) (s : State) : Host.Outcome State Fault Refusal := .next (s.aluRow eng u long 3 a)

/-- ALU NEG (10 R205 to R208, R220). -/
def execAluNeg (eng : EngN) (u : Bool) (long : Bool) (a : L48) (s : State) : Host.Outcome State Fault Refusal := .next (s.aluRow eng u long 4 a)

/-- ALU ABS (10 R205 to R208, R220). -/
def execAluAbs (eng : EngN) (u : Bool) (long : Bool) (a : L48) (s : State) : Host.Outcome State Fault Refusal := .next (s.aluRow eng u long 5 a)

/-- ALU AND (10 R205 to R208, R220). -/
def execAluAnd (eng : EngN) (u : Bool) (long : Bool) (a : L48) (s : State) : Host.Outcome State Fault Refusal := .next (s.aluRow eng u long 6 a)

/-- ALU OR (10 R205 to R208, R220). -/
def execAluOr (eng : EngN) (u : Bool) (long : Bool) (a : L48) (s : State) : Host.Outcome State Fault Refusal := .next (s.aluRow eng u long 7 a)

/-- ALU XOR (10 R205 to R208, R220). -/
def execAluXor (eng : EngN) (u : Bool) (long : Bool) (a : L48) (s : State) : Host.Outcome State Fault Refusal := .next (s.aluRow eng u long 8 a)

/-- ALU ANDN (10 R205 to R208, R220). -/
def execAluAndn (eng : EngN) (u : Bool) (long : Bool) (a : L48) (s : State) : Host.Outcome State Fault Refusal := .next (s.aluRow eng u long 9 a)

/-- ALU NOT (10 R205 to R208, R220). -/
def execAluNot (eng : EngN) (u : Bool) (long : Bool) (a : L48) (s : State) : Host.Outcome State Fault Refusal := .next (s.aluRow eng u long 10 a)

/-- ALU MIN (10 R205 to R208, R220). -/
def execAluMin (eng : EngN) (u : Bool) (long : Bool) (a : L48) (s : State) : Host.Outcome State Fault Refusal := .next (s.aluRow eng u long 11 a)

/-- ALU MAX (10 R205 to R208, R220). -/
def execAluMax (eng : EngN) (u : Bool) (long : Bool) (a : L48) (s : State) : Host.Outcome State Fault Refusal := .next (s.aluRow eng u long 12 a)

/-- ALU MINU (10 R205 to R208, R220). -/
def execAluMinu (eng : EngN) (u : Bool) (long : Bool) (a : L48) (s : State) : Host.Outcome State Fault Refusal := .next (s.aluRow eng u long 13 a)

/-- ALU MAXU (10 R205 to R208, R220). -/
def execAluMaxu (eng : EngN) (u : Bool) (long : Bool) (a : L48) (s : State) : Host.Outcome State Fault Refusal := .next (s.aluRow eng u long 14 a)

/-- ALU PASS (10 R205 to R208, R220). -/
def execAluPass (eng : EngN) (u : Bool) (long : Bool) (a : L48) (s : State) : Host.Outcome State Fault Refusal := .next (s.aluRow eng u long 15 a)

end Sys2Proof.Machine
end

