-- ==== Sys2Proof/Machine/EngArith.lean ====
section
/-! DEFINITION. The MAC, SHF, CHK and DIV commands (10 R209 to R212): each is one trigger. -/

namespace Sys2Proof.Machine

/-- MAC MUL (10 R209, R219). -/
def execMacMul (eng : EngN) (y : W24) (s : State) : Host.Outcome State Fault Refusal := .next (s.issue eng.val (bMAC + 0) (longOf y))

/-- MAC MULU (10 R209, R219). -/
def execMacMulu (eng : EngN) (y : W24) (s : State) : Host.Outcome State Fault Refusal := .next (s.issue eng.val (bMAC + 1) (longOf y))

/-- MAC MAC (10 R209, R219). -/
def execMacMac (eng : EngN) (y : W24) (s : State) : Host.Outcome State Fault Refusal := .next (s.issue eng.val (bMAC + 2) (longOf y))

/-- MAC MACU (10 R209, R219). -/
def execMacMacu (eng : EngN) (y : W24) (s : State) : Host.Outcome State Fault Refusal := .next (s.issue eng.val (bMAC + 3) (longOf y))

/-- MAC MSU (10 R209, R219). -/
def execMacMsu (eng : EngN) (y : W24) (s : State) : Host.Outcome State Fault Refusal := .next (s.issue eng.val (bMAC + 4) (longOf y))

/-- MAC MSUU (10 R209, R219). -/
def execMacMsuu (eng : EngN) (y : W24) (s : State) : Host.Outcome State Fault Refusal := .next (s.issue eng.val (bMAC + 5) (longOf y))

/-- MAC CLR (10 R209, R219). -/
def execMacClr (eng : EngN) (y : W24) (s : State) : Host.Outcome State Fault Refusal := .next (s.issue eng.val (bMAC + 6) (longOf y))

/-- MAC RD (10 R209, R219). -/
def execMacRd (eng : EngN) (y : W24) (s : State) : Host.Outcome State Fault Refusal := .next (s.issue eng.val (bMAC + 7) (longOf y))

/-- A SHF trigger, the long form when `long`. -/
def State.shfRow (s : State) (e : EngN) (long : Bool) (sub : Nat) (v : L48) : State := s.issue e.val (bSHF + (if long then 0x10 else 0) + sub) v

/-- SHF SHL (10 R210, R221). -/
def execShfShl (eng : EngN) (long : Bool) (d : L48) (s : State) : Host.Outcome State Fault Refusal := .next (s.shfRow eng long 0 d)

/-- SHF SHR (10 R210, R221). -/
def execShfShr (eng : EngN) (long : Bool) (d : L48) (s : State) : Host.Outcome State Fault Refusal := .next (s.shfRow eng long 1 d)

/-- SHF SAR (10 R210, R221). -/
def execShfSar (eng : EngN) (long : Bool) (d : L48) (s : State) : Host.Outcome State Fault Refusal := .next (s.shfRow eng long 2 d)

/-- SHF ROL (10 R210, R221). -/
def execShfRol (eng : EngN) (long : Bool) (d : L48) (s : State) : Host.Outcome State Fault Refusal := .next (s.shfRow eng long 3 d)

/-- SHF ROR (10 R210, R221). -/
def execShfRor (eng : EngN) (long : Bool) (d : L48) (s : State) : Host.Outcome State Fault Refusal := .next (s.shfRow eng long 4 d)

/-- SHF EXT (10 R210, R221). -/
def execShfExt (eng : EngN) (long : Bool) (d : L48) (s : State) : Host.Outcome State Fault Refusal := .next (s.shfRow eng long 5 d)

/-- SHF EXTS (10 R210, R221). -/
def execShfExts (eng : EngN) (long : Bool) (d : L48) (s : State) : Host.Outcome State Fault Refusal := .next (s.shfRow eng long 6 d)

/-- SHF INS (10 R210, R221). -/
def execShfIns (eng : EngN) (long : Bool) (d : L48) (s : State) : Host.Outcome State Fault Refusal := .next (s.shfRow eng long 7 d)

/-- CHK STEP8 (10 R211, R222 to R224). -/
def execChkStep8 (eng : EngN) (v : W24) (s : State) : Host.Outcome State Fault Refusal := .next (s.issue eng.val (bCHK + 0) (longOf v))

/-- CHK STEP16 (10 R211, R222 to R224). -/
def execChkStep16 (eng : EngN) (v : W24) (s : State) : Host.Outcome State Fault Refusal := .next (s.issue eng.val (bCHK + 1) (longOf v))

/-- CHK STEP24 (10 R211, R222 to R224). -/
def execChkStep24 (eng : EngN) (v : W24) (s : State) : Host.Outcome State Fault Refusal := .next (s.issue eng.val (bCHK + 2) (longOf v))

/-- CHK PAR (10 R211, R222 to R224). -/
def execChkPar (eng : EngN) (v : W24) (s : State) : Host.Outcome State Fault Refusal := .next (s.issue eng.val (bCHK + 3) (longOf v))

/-- CHK PARB (10 R211, R222 to R224). -/
def execChkParb (eng : EngN) (v : W24) (s : State) : Host.Outcome State Fault Refusal := .next (s.issue eng.val (bCHK + 4) (longOf v))

/-- CHK REV (10 R211, R222 to R224). -/
def execChkRev (eng : EngN) (v : W24) (s : State) : Host.Outcome State Fault Refusal := .next (s.issue eng.val (bCHK + 5) (longOf v))

/-- CHK REVB (10 R211, R222 to R224). -/
def execChkRevb (eng : EngN) (v : W24) (s : State) : Host.Outcome State Fault Refusal := .next (s.issue eng.val (bCHK + 6) (longOf v))

/-- CHK REVN (10 R211, R222 to R224). -/
def execChkRevn (eng : EngN) (v : W24) (s : State) : Host.Outcome State Fault Refusal := .next (s.issue eng.val (bCHK + 7) (longOf v))

/-- CHK POP, of a word or a long (10 R211). -/
def execChkPop (eng : EngN) (long : Bool) (v : L48) (s : State) : Host.Outcome State Fault Refusal := .next (s.issue eng.val (bCHK + if long then 10 else 8) v)

/-- CHK CLZ, of a word or a long (10 R211). -/
def execChkClz (eng : EngN) (long : Bool) (v : L48) (s : State) : Host.Outcome State Fault Refusal := .next (s.issue eng.val (bCHK + if long then 11 else 9) v)

/-- DIV DIV: signed (10 R212). -/
def execDivDiv (eng : EngN) (long : Bool) (n : L48) (s : State) : Host.Outcome State Fault Refusal := .next (s.issue eng.val (bDIV + if long then 0x10 else 0) n)

/-- DIV DIVU: unsigned (10 R212). -/
def execDivDivu (eng : EngN) (long : Bool) (n : L48) (s : State) : Host.Outcome State Fault Refusal := .next (s.issue eng.val (bDIV + 1 + if long then 0x10 else 0) n)

end Sys2Proof.Machine
end

