-- ==== Sys2Proof/Machine/EngCtl.lean ====
section
/-! DEFINITION. The CTL, RPT, SMV, TSU and SPU commands (08 R164 to R167, R177 to R179, 10 R215 to R218, R228 to R231, 11). -/

namespace Sys2Proof.Machine

/-- The head of an output queue moves on, and the cycles that a full queue froze its engine for are counted (08 R179, R180). -/
def State.queueMove (s : State) (e waited : Nat) : State :=
  let t := s.handOff e
  if (s.engine e).spu.full.isSome && (t.engine e).spu.full.isNone && e < 1024 then t.bumpBy (0x2A01 + e / 32) 6 4 waited else t

/-- SMV_STEP: the access that SMV makes in a cycle frozen for it, or the step of the cycle, when the cycle can run: one step a cycle, and none in the cycle
of a bundle whose own exception keeps it from issuing (11 R241, R244, R245, R248, 12 R256). -/
def State.stepString (s : State) (e : Nat) : State :=
  let x := s.engine e
  if s.engRuns e && !x.smv.meet.isEmpty then s.passMeet e
  else if x.ctl.bubble then (if s.canCycle e then (s.smvCycle e).1 else s)
  else if s.ready e then
    let s1 := s.ahead e
    if (s1.engine e).boundaryFault.isSome then s1 else (s1.smvCycle e).1
  else s

/-- Chip time at which a WAIT that freezes the engine is due; none when no WAIT does (10 R216, 02 R46). -/
def Engine.waitTarget (x : Engine) (now : Nat) : Option Nat :=
  match x.tsu.fl.find? fun f => f.wait && f.k = 0 with
  | none => none
  | some f => if tickDue (now % 2 ^ 48) f.val.toNat then none else some (now + (f.val.toNat + 2 ^ 48 - now % 2 ^ 48) % 2 ^ 48)

/-- Chip time reaches the target of an engine's WAIT. -/
def State.waitDue (s : State) (e : Nat) : State :=
  if s.engRuns e then
    match (s.engine e).waitTarget s.now with
    | some c => s.reach c
    | none => s
  else s

/-- CTL JMP (10 R215, 08 R164, R165). -/
def execCtlJmp (eng : EngN) (v : W24) (s : State) : Host.Outcome State Fault Refusal := .next (s.issue eng.val (bCTL + 0) (longOf v))

/-- CTL CALL (10 R215, 08 R164). -/
def execCtlCall (eng : EngN) (v : W24) (s : State) : Host.Outcome State Fault Refusal := .next (s.issue eng.val (bCTL + 1) (longOf v))

/-- CTL RET (10 R215, 08 R164). -/
def execCtlRet (eng : EngN) (v : W24) (s : State) : Host.Outcome State Fault Refusal := .next (s.issue eng.val (bCTL + 2) (longOf v))

/-- CTL TRAP (10 R215, 12 R250, R252). -/
def execCtlTrap (eng : EngN) (v : W24) (s : State) : Host.Outcome State Fault Refusal := .next (s.issue eng.val (bCTL + 3) (longOf v))

/-- CTL RFE (10 R215, 12 R270). -/
def execCtlRfe (eng : EngN) (v : W24) (s : State) : Host.Outcome State Fault Refusal := .next (s.issue eng.val (bCTL + 4) (longOf v))

/-- A compare, the long form when `long` (10 R215, R225). -/
def State.cmpRow (s : State) (e : EngN) (long : Bool) (sub : Nat) (a : L48) : State := s.issue e.val (bCTL + (if long then 0x10 else 8) + sub) a

/-- CTL CMP.EQ (10 R215, R225). -/
def execCtlCmpEq (eng : EngN) (long : Bool) (a : L48) (s : State) : Host.Outcome State Fault Refusal := .next (s.cmpRow eng long 0 a)

/-- CTL CMP.NE (10 R215, R225). -/
def execCtlCmpNe (eng : EngN) (long : Bool) (a : L48) (s : State) : Host.Outcome State Fault Refusal := .next (s.cmpRow eng long 1 a)

/-- CTL CMP.LT (10 R215, R225). -/
def execCtlCmpLt (eng : EngN) (long : Bool) (a : L48) (s : State) : Host.Outcome State Fault Refusal := .next (s.cmpRow eng long 2 a)

/-- CTL CMP.LE (10 R215, R225). -/
def execCtlCmpLe (eng : EngN) (long : Bool) (a : L48) (s : State) : Host.Outcome State Fault Refusal := .next (s.cmpRow eng long 3 a)

/-- CTL CMP.LTU (10 R215, R225). -/
def execCtlCmpLtu (eng : EngN) (long : Bool) (a : L48) (s : State) : Host.Outcome State Fault Refusal := .next (s.cmpRow eng long 4 a)

/-- CTL CMP.LEU (10 R215, R225). -/
def execCtlCmpLeu (eng : EngN) (long : Bool) (a : L48) (s : State) : Host.Outcome State Fault Refusal := .next (s.cmpRow eng long 5 a)

/-- CTL CMP.BIT (10 R215). -/
def execCtlCmpBit (eng : EngN) (a : W24) (s : State) : Host.Outcome State Fault Refusal := .next (s.issue eng.val (bCTL + 0xE) (longOf a))

/-- RPT REP: a repeat level opens (11 R232, R233). -/
def execRptRep (eng : EngN) (c : W24) (s : State) : Host.Outcome State Fault Refusal := .next (s.issue eng.val bRPT (longOf c))

/-- RPT EXIT: the innermost level closes (11 R236). -/
def execRptExit (eng : EngN) (v : W24) (s : State) : Host.Outcome State Fault Refusal := .next (s.issue eng.val (bRPT + 1) (longOf v))

/-- SMV COPY: a string operation starts (11 R241, R242). -/
def execSmvCopy (eng : EngN) (v : W24) (s : State) : Host.Outcome State Fault Refusal := .next (s.issue eng.val (bSMV + 0) (longOf v))

/-- SMV FILL: a string operation starts (11 R241, R242). -/
def execSmvFill (eng : EngN) (v : W24) (s : State) : Host.Outcome State Fault Refusal := .next (s.issue eng.val (bSMV + 1) (longOf v))

/-- SMV CMP: a string operation starts (11 R241, R242). -/
def execSmvCmp (eng : EngN) (v : W24) (s : State) : Host.Outcome State Fault Refusal := .next (s.issue eng.val (bSMV + 2) (longOf v))

/-- SMV SCAN: a string operation starts (11 R241, R242). -/
def execSmvScan (eng : EngN) (v : W24) (s : State) : Host.Outcome State Fault Refusal := .next (s.issue eng.val (bSMV + 3) (longOf v))

/-- SMV_STEP (11 R241 to R247): the string operation makes its step of the cycle. -/
def execSmvStep (eng : EngN) (s : State) : Host.Outcome State Fault Refusal := .next (s.stepString eng.val)

/-- TSU NOW (10 R216, R228). -/
def execTsuNow (eng : EngN) (v : L48) (s : State) : Host.Outcome State Fault Refusal := .next (s.issue eng.val bTSU v)

/-- TSU EP (10 R228). -/
def execTsuEp (eng : EngN) (v : L48) (s : State) : Host.Outcome State Fault Refusal := .next (s.issue eng.val (bTSU + 1) v)

/-- TSU WAIT (10 R216, 02 R46). -/
def execTsuWait (eng : EngN) (v : L48) (s : State) : Host.Outcome State Fault Refusal := .next (s.issue eng.val (bTSU + 2) v)

/-- WAIT_TARGET_DUE (08 R160, 02 R46): chip time reaches the target for which the engine waits. -/
def execWaitTargetDue (eng : EngN) (s : State) : Host.Outcome State Fault Refusal := .next (s.waitDue eng.val)

/-- SPU IN (10 R217). -/
def execSpuIn (eng : EngN) (v : W24) (s : State) : Host.Outcome State Fault Refusal := .next (s.issue eng.val (bSPU + 0) (longOf v))

/-- SPU POLL (10 R217). -/
def execSpuPoll (eng : EngN) (v : W24) (s : State) : Host.Outcome State Fault Refusal := .next (s.issue eng.val (bSPU + 1) (longOf v))

/-- SPU OUT (10 R218, 08 R179). -/
def execSpuOut (eng : EngN) (v : W24) (s : State) : Host.Outcome State Fault Refusal := .next (s.issue eng.val (bSPU + 2) (longOf v))

/-- SPU EMIT (10 R230, R231). -/
def execSpuEmit (eng : EngN) (v : W24) (s : State) : Host.Outcome State Fault Refusal := .next (s.issue eng.val (bSPU + 3) (longOf v))

/-- OUTPUT_QUEUE_HANDOFF (08 R179, R180): the head of the output queue moves on; an engine that its full queue froze for `waited` cycles goes on when room appears. -/
def execOutputQueueHandoff (eng : EngN) (waited : Nat) (s : State) : Host.Outcome State Fault Refusal := .next (if s.engOn eng.val then s.queueMove eng.val waited else s)

end Sys2Proof.Machine
end

