-- ==== Sys2Proof/Machine/EngExc.lean ====
section
/-! DEFINITION. Exceptions of an engine (12): entry, the task-state block, handler state, escalation, double and TSB faults, and the return. -/

namespace Sys2Proof.Machine

/-! Halts (12 R272 to R274). -/

/-- CTL.CAUSE of a cause (12 R251). -/
def causeOf (code detail : Byte) : BitVec 16 := detail ++ code

/-- An engine halts with a state and tells Pestle; in place of states 2 and 3 a Pestle engine resets the chip (18 R396). -/
def State.halt (s : State) (e : Nat) (st : Fin 4) : State :=
  if 1024 ≤ e && st ≠ 1 then s.warmReset 7
  else
    let x := s.engine e
    let s1 := s.setEngine e { x with exc := { x.exc with st := st, entry := none, restore := false, resuming := false, due := 0 } }
    s1.ring e (BitVec.ofNat 24 ((if st = 1 then 2 else 3) * 2 ^ 22 + x.ctl.cause.toNat))

/-! Entry (12 R250 to R257). -/

/-- The engine at its boundary, with the port exception of its bundle, or the bus error that its fetch met, among the causes due (12 R250, 15 R333; DEDUCED,
log entry 55: the bus error of a fetch is a load's). -/
def Engine.withFault (x : Engine) : Engine :=
  if x.fetchDue then x.raise 64
  else match x.boundaryFault with
    | some f => x.portFault f.1 f.2
    | none => x

/-- An entry begins: b does not issue and the prefetch queue is flushed (12 R257). -/
def Engine.enter (x : Engine) (n : Entry) : Engine := { x with exc := { x.exc with entry := some n, due := 0 }, pfq := [], pfBad := none }

/-- Every cause due at the boundary is taken in one entry; in handler state it is a double fault; without one an interrupt is taken (12 R251, R253, R254,
R273). While the string step of the present cycle has been made, its bundle issues first (11 R248). -/
def State.enterException (s : State) (e : Nat) : State :=
  let s1 := s.passBubble e
  let x1 := s1.engine e
  if s1.engRuns e && x1.exc.entry.isNone && !x1.exc.restore && !x1.ctl.bubble && !x1.hardFrozen then
    let s2 := s1.ahead e
    let x := (s2.engine e).withFault
    let soft := x.softFrozen s2.tb.tick.toNat
    if x.smv.seen.isSome then s2
    else if x.exc.due ≠ 0 then
      if soft then s2
      else if x.exc.handler then
        (s2.setEngine e { x with ctl := { x.ctl with cause := causeOf x.exc.due (if x.exc.due.toNat % 4 = 0 then 0 else x.exc.detail) } }).halt e 2
      else s2.setEngine e (x.enter ⟨none, x.exc.due, if x.exc.due.toNat % 4 = 0 then 0 else x.exc.detail⟩)
    else if x.irqReady then s2.setEngine e (x.enter ⟨some (if x.exc.ppend then 1 else 2), 0, 0⟩)
    else s2
  else s1

/-- EXCEPTION_ENTRY (12 R257). -/
def execExceptionEntry (eng : EngN) (s : State) : Host.Outcome State Fault Refusal := .next (s.enterException eng.val)

/-! The task-state block (12 R259 to R263). -/

/-- Home of the block's first byte: PMEM of the engine's pod, of a Pestle engine MSRAM; none when it is out of range (12 R259, 18 R396). -/
def Engine.tsbHome (x : Engine) (e : Nat) : Option Nat :=
  let w := 2 * x.ctl.tsp.toNat
  if e < 1024 then (if w + 159 ≤ 393215 then some (pmemAddr (e / 32) w 0) else none)
  else if w + 159 ≤ 262143 then some (msramBase + 3 * w) else none

/-- A number as `n` words, bits [23:0] first (12 R260). -/
def wordsOfNat (n v : Nat) : List Nat := (List.range n).map fun i => bits v (24 * i) 24

/-- A MAC slot: its VALUE and its four flag bits (12 R262). -/
def Mac.slot (x : Mac) (k : Nat) : Nat × Nat :=
  match x.fl.find? (·.k = k) with
  | some f => (f.val.toNat, 8 * bit01 f.keep + 4 * bit01 f.v + f.form.val)
  | none => (0, 0)

/-- Field CF (12 R261). -/
def Engine.fieldCF (x : Engine) : Nat :=
  let c := match x.chk.fl.find? (·.k = 1) with
    | some f => f.val.toNat + 2 ^ 32 * (1 + 2 * bit01 f.step + 4 * bit01 f.keep + 8 * bit01 f.rout + 16 * bit01 f.xo + 32 * f.wm1.toNat)
    | none => 0
  let d := match x.div.fl with
    | some f => f.k + 16 * bit01 f.dz + 32 * bit01 f.v + 64 * bit01 f.keep
    | none => 0
  x.chk.q.toNat % 2 ^ 32 + 2 ^ 32 * x.chk.crc.toNat + 2 ^ 64 * c + 2 ^ 106 * (x.chk.o.toNat % 32) + 2 ^ 111 * d

/-- Code of an SPU operation in flight at a count (12 R261). -/
def Spu.code (x : Spu) (k : Nat) : Nat :=
  match x.fl.find? (·.1 = k) with
  | some f => if f.2 then 1 else 2
  | none => 0

/-- Field SF (12 R261). -/
def Spu.fieldSF (x : Spu) : Nat :=
  (if x.q = 0xFFFFFF then 2 ^ 17 else x.q.toNat % 2 ^ 17) + 2 ^ 18 * (x.o.toNat % 1024) + 2 ^ 28 * bits x.o.toNat 23 1 +
  2 ^ 29 * x.code 0 + 2 ^ 31 * x.code 1

/-- Data of an LSU0 slot and what LSU0.Q holds after it: a refused load shows Q unchanged (12 R263). -/
def Lsu0.slot (x : Lsu0) (k : Nat) (q : L48) : Nat × Bool × L48 :=
  match x.fl.find? (·.k = k) with
  | some f => let v := f.data.getD q
              (v.toNat, true, v)
  | none => (0, false, q)

/-- State code of an LSU1 access in flight (12 R263). -/
def L1Fl.code (f : L1Fl) : Nat :=
  match f.st with
  | .refused => 2
  | .busError => 3
  | _ => 1

/-- Data and state of an LSU1 slot. -/
def Lsu1.slot (x : Lsu1) (k : Nat) : Nat × Nat :=
  match x.fl.find? (fun f => f.load && f.k = k) with
  | some f => (if f.st = .data then f.val.toNat else 0, f.code)
  | none => (0, 0)

/-- TSUS and the TSU slot's value (12 R262). -/
def Tsu.slot (x : Tsu) : Nat × Nat :=
  match x.fl with
  | [] => (0, 0)
  | f :: _ => (if f.wait then (if f.k = 0 then 3 else 2) else 1, f.val.toNat)

/-- JREM, JTGT and JTGT2 (12 R262, R266). -/
def Ctl.jumpCode (x : Ctl) : Nat × Nat × Nat :=
  match x.jumps with
  | [] => (0, 0, 0)
  | [j] => (j.1, j.2.toNat, 0)
  | j :: k :: _ => (3, j.2.toNat, k.2.toNat)

/-- State words SW0 to SW10 (12 R262). -/
def Engine.stateWords (x : Engine) : List Nat :=
  let j := x.ctl.jumpCode
  let m := x.smv
  let p := match x.ctl.pend with
    | some (k, v) => (k, v.toNat)
    | none => (0, 0)
  let l0 := fun k => bit01 (x.lsu0.fl.any (·.k = k))
  [ j.1 * 2 ^ 22 + j.2.1 * 2048 + x.ctl.pc.toNat,
    l0 2 * 2 ^ 23 + l0 1 * 2 ^ 22 + x.tsu.slot.1 * 2 ^ 20 + p.1 * 2 ^ 18 + x.ctl.guards.toNat / 2 * 2048 + j.2.2,
    x.rpt.n.val * 2 ^ 22 + x.rpt.o.toNat * 2048 + x.ctl.link.toNat,
    bit01 x.rpt.w1 * 2 ^ 23 + bit01 x.rpt.w0 * 2 ^ 22 + x.rpt.e0.toNat * 2048 + x.rpt.s0.toNat,
    x.rpt.e1.toNat * 2048 + x.rpt.s1.toNat,
    bit01 x.mac.sv * 2 ^ 22 + bit01 x.mac.v * 2 ^ 21 + bit01 m.fa * 2 ^ 20 + bit01 m.act * 2 ^ 19 + bit01 m.down * 2 ^ 18 + bit01 m.ne * 2 ^ 17 +
      m.op.val * 2 ^ 15 + m.src.toNat,
    p.2 * 2 ^ 19 + x.ctl.mode.toNat * 2 ^ 15 + m.dst.toNat,
    bit01 x.div.sdz * 2 ^ 22 + bit01 x.div.v * 2 ^ 21 + bit01 x.div.dz * 2 ^ 20 + x.alu0.flg.toNat * 2 ^ 15 + m.n.toNat,
    (x.mac.slot 2).2 * 2 ^ 20 + (x.mac.slot 1).2 * 2 ^ 16 + m.q.toNat % 65536,
    x.tsu.epl.toNat % 2 ^ 24,
    x.alu1.flg.toNat * 2 ^ 18 + ((List.range 5).map fun i => (x.lsu1.slot (i + 1)).2 * 4 ^ i).sum * 256 + x.tsu.epl.toNat / 2 ^ 24 ]

/-- The 160 words of the block (12 R260). -/
def Engine.tsbWords (x : Engine) : List Nat :=
  let two := fun (v : L48) => wordsOfNat 2 v.toNat
  let a := x.lsu0.slot 1 x.lsu0.q
  let b := x.lsu0.slot 2 a.2.2
  let d := x.div.fl
  ((List.range 32).map fun i => (x.ga.get 0 i).toNat) ++ ((List.range 32).map fun i => (x.gb.get 0 i).toNat) ++
  ((List.range 8).flatMap fun i => two (x.lx.get 0 i)) ++
  two x.ctl.o ++ two x.alu0.o2 ++ two x.alu0.q ++ two x.alu1.o2 ++ two x.alu1.q ++ [x.shf.o2.toNat] ++ two x.shf.q ++ [x.mac.o.toNat] ++ two x.mac.q ++
  wordsOfNat 7 (x.mac.acc.toNat + 2 ^ 56 * (x.mac.slot 1).1 + 2 ^ 112 * (x.mac.slot 2).1) ++
  wordsOfNat 5 x.fieldCF ++
  two x.div.o ++ two x.div.q ++ two x.div.r ++ two ((d.map (·.q)).getD 0) ++ two ((d.map (·.r)).getD 0) ++
  two x.lsu0.o ++ two x.lsu0.q ++ wordsOfNat 2 a.1 ++ wordsOfNat 2 b.1 ++
  two x.lsu1.o ++ two x.lsu1.q ++ ((List.range 5).flatMap fun i => wordsOfNat 2 (x.lsu1.slot (i + 1)).1) ++
  two x.tsu.q ++ wordsOfNat 2 x.tsu.slot.2 ++ wordsOfNat 2 x.spu.fieldSF ++
  [x.rpt.c0.toNat, x.rpt.c1.toNat, x.smv.pat.toNat] ++ x.stateWords

/-! Handler state (12 R257, R258). -/

/-- Whether the store buffer is empty and no LSU1 or SPU request is outstanding (12 R257, R270). -/
def Engine.settled (x : Engine) : Bool :=
  x.lsu0.sb.isEmpty && !x.hardFrozen && !(x.lsu1.fl.any fun f => f.open_ || f.st = .waitGrant)

/-- The state a handler starts in (12 R258): what was in flight is held in the block alone. -/
def Engine.handlerStart (x : Engine) : Engine :=
  { x with
    mac := { x.mac with fl := [] }, chk := { x.chk with fl := [] }, div := { x.div with fl := none },
    lsu0 := { x.lsu0 with fl := [] }, lsu1 := { x.lsu1 with fl := [] }, tsu := { x.tsu with fl := [] }, spu := { x.spu with fl := [] },
    rpt := { x.rpt with n := 0, w0 := false, w1 := false },
    smv := { x.smv with act := false, fa := false, wait := 0, seen := none, bad := false, meet := [] },
    ctl := { x.ctl with mode := 8, pend := none, jumps := [], bubble := false } }

/-- The first bundle from an address on is fetched (12 R257, R270). -/
def State.fetchFirst (s : State) (e : Nat) : State :=
  let pc := (s.engine e).ctl.pc.toNat
  match (s.setEngine e { s.engine e with pfq := [], pfBad := none }).fetch e pc with
  | (s1, some b) => s1.setEngine e { s1.engine e with pfq := [(pc, b)] }
  | (s1, none) => s1

/-- The 80 rows of a task-state block pass every PMEM bank of the pod, each an access of the engine (08 R174, 12 R257, R270). -/
def State.rowsServed (s : State) (e : Nat) : State := if e < 1024 then s.bankServed e (List.range 16) else s

/-- The block and CTL.CAUSE are written; the handler starts at its vector, or the engine halts after an escalated entry (12 R257, R272). -/
def State.saveTask (s : State) (e : Nat) : State :=
  let x := s.engine e
  match x.exc.entry with
  | none => s
  | some n =>
    if s.engRuns e && x.settled then
      let code := n.code
      let detail := match n.irq with
        | some d => d
        | none => n.detail
      let y := { x with ctl := { x.ctl with cause := causeOf code detail } }
      match x.tsbHome e with
      | none => (s.setEngine e y).halt e 3
      | some a =>
        let s1 := ({ s with mem := s.mem.writeBytes s.armed a (x.tsbWords.flatMap (leBytes 3)) } : State).rowsServed e
        let h := y.handlerStart
        if n.irq.isNone && code &&& x.exc.esc ≠ 0 then (s1.setEngine e { h with exc := { h.exc with rfe := none } }).halt e 1
        else
          (s1.setEngine e { h with
            ctl := { h.ctl with pc := if n.irq.isSome then h.ctl.vbase + 4 else h.ctl.vbase }
            exc := { h.exc with entry := none, rfe := none, handler := true, firstAfter := false,
                                ppend := if n.irq = some 1 then false else h.exc.ppend } }).fetchFirst e
    else s

/-- TSB_SAVE (12 R257). -/
def execTsbSave (eng : EngN) (s : State) : Host.Outcome State Fault Refusal := .next (s.saveTask eng.val)

/-! Return (12 R263, R264, R270, R271). -/

/-- A word of a block. -/
def tw (l : List Nat) (i : Nat) : Nat := l.getD i 0
/-- A long at a word of a block. -/
def tl (l : List Nat) (i : Nat) : L48 := BitVec.ofNat 48 (tw l i + 2 ^ 24 * tw l (i + 1))
/-- A field of `n` words of a block. -/
def tf (l : List Nat) (i n : Nat) : Nat := (List.range n).foldr (fun k v => tw l (i + k) + 2 ^ 24 * v) 0
/-- One bit of a word of a block. -/
def tb (l : List Nat) (i b : Nat) : Bool := bits (tw l i) b 1 = 1

/-- MAC from a block. -/
def Mac.restore (x : Mac) (l : List Nat) : Mac :=
  let mf := tf l 96 7
  let fl := fun (k f v : Nat) => if f % 4 = 0 then [] else [(⟨k, BitVec.ofNat 56 v, bits f 2 1 = 1, Fin.ofNat 4 (f % 4), bits f 3 1 = 1⟩ : MacFl)]
  { x with o := BitVec.ofNat 24 (tw l 93), q := tl l 94, acc := BitVec.ofNat 56 mf, sv := tb l 154 22, v := tb l 154 21,
           fl := fl 1 (bits (tw l 157) 16 4) (bits mf 56 56) ++ fl 2 (bits (tw l 157) 20 4) (bits mf 112 56) }

/-- CHK from a block. -/
def Chk.restore (x : Chk) (l : List Nat) : Chk :=
  let cf := tf l 103 5
  { x with q := BitVec.ofNat 48 (bits cf 0 32), crc := BitVec.ofNat 32 (bits cf 32 32), o := BitVec.ofNat 24 (bits cf 106 5),
           fl := if bits cf 96 1 = 1 then
               [⟨1, BitVec.ofNat 32 (bits cf 64 32), bits cf 97 1 = 1, bits cf 98 1 = 1, BitVec.ofNat 5 (bits cf 101 5), bits cf 100 1 = 1, bits cf 99 1 = 1⟩]
             else [] }

/-- DIV from a block. -/
def Div_.restore (_x : Div_) (l : List Nat) : Div_ :=
  let cf := tf l 103 5
  let k := bits cf 111 4
  { o := tl l 108, q := tl l 110, r := tl l 112, sdz := tb l 156 22, v := tb l 156 21, dz := tb l 156 20,
    fl := if 1 ≤ k && k ≤ 13 then some ⟨k, tl l 114, tl l 116, bits cf 116 1 = 1, bits cf 115 1 = 1, bits cf 117 1 = 1⟩ else none }

/-- LSU1's flights from a block. -/
def lsu1Flights (l : List Nat) : List L1Fl :=
  (List.range 5).filterMap fun i =>
    let st := bits (tw l 159) (8 + 2 * i) 2
    let f := fun (v : L1St) => (⟨i + 1, v, true, 0, 6, false, tl l (130 + 2 * i), [], false, [], 0, false⟩ : L1Fl)
    match st with
    | 0 => none
    | 1 => some (f .data)
    | 2 => some (f .refused)
    | _ => some (f .busError)

/-- TSU from a block. -/
def Tsu.restore (_x : Tsu) (l : List Nat) : Tsu :=
  let c := bits (tw l 150) 20 2
  { q := tl l 140, epl := BitVec.ofNat 32 (tw l 158 + 2 ^ 24 * bits (tw l 159) 0 8),
    fl := if c = 0 then [] else [⟨if c = 3 then 0 else 1, 2 ≤ c, tl l 142⟩] }

/-- SPU's registers and pending operations from a block. -/
def Spu.restore (x : Spu) (l : List Nat) : Spu :=
  let sf := tf l 144 2
  let op := fun (k c : Nat) => if c = 1 then [(k, true)] else if c = 2 then [(k, false)] else []
  { x with q := if bits sf 17 1 = 1 then 0xFFFFFF else BitVec.ofNat 24 (bits sf 0 17), o := BitVec.ofNat 24 (bits sf 18 10 + 2 ^ 23 * bits sf 28 1),
           fl := op 0 (bits sf 29 2) ++ op 1 (bits sf 31 2) }

/-- RPT from a block. -/
def Rpt.restore (_x : Rpt) (l : List Nat) : Rpt :=
  let n := bits (tw l 151) 22 2
  { o := BitVec.ofNat 11 (bits (tw l 151) 11 11), n := if n < 3 then Fin.ofNat 3 n else 0,
    c0 := BitVec.ofNat 24 (tw l 146), s0 := BitVec.ofNat 11 (bits (tw l 152) 0 11), e0 := BitVec.ofNat 11 (bits (tw l 152) 11 11), w0 := tb l 152 22,
    c1 := BitVec.ofNat 24 (tw l 147), s1 := BitVec.ofNat 11 (bits (tw l 153) 0 11), e1 := BitVec.ofNat 11 (bits (tw l 153) 11 11), w1 := tb l 152 23 }

/-- SMV from a block (11 R248): a saved N of 0 cancels the operation (R247). -/
def Smv.restore (_x : Smv) (l : List Nat) : Smv :=
  let n := BitVec.ofNat 15 (bits (tw l 156) 0 15)
  let x : Smv := { q := BitVec.ofNat 24 (bits (tw l 157) 0 16), hit := tb l 157 15, src := BitVec.ofNat 15 (bits (tw l 154) 0 15),
                   dst := BitVec.ofNat 15 (bits (tw l 155) 0 15), n := n, pat := BitVec.ofNat 24 (tw l 148), act := tb l 154 19,
                   op := Fin.ofNat 4 (bits (tw l 154) 15 2), ne := tb l 154 17, down := tb l 154 18, fa := tb l 154 20 }
  if x.act && n = 0 then x.finish false else x

/-- CTL from a block: jumps (12 R266), guards, LINK, modes (R267). -/
def Ctl.restore (x : Ctl) (l : List Nat) : Ctl :=
  let j := bits (tw l 149) 22 2
  let t := BitVec.ofNat 11 (bits (tw l 149) 11 11)
  let m := bits (tw l 150) 18 2
  { x with
    o := tl l 80, link := BitVec.ofNat 11 (bits (tw l 151) 0 11), pc := BitVec.ofNat 11 (bits (tw l 149) 0 11), bubble := false,
    guards := BitVec.ofNat 8 (2 * bits (tw l 150) 11 7 + 1),
    jumps := if j = 0 then [] else if j = 3 then [(1, t), (2, BitVec.ofNat 11 (bits (tw l 150) 0 11))] else [(j, t)],
    mode := BitVec.ofNat 4 (bits (tw l 155) 15 4),
    pend := if m = 1 || m = 2 then some (m, BitVec.ofNat 4 (bits (tw l 155) 19 4)) else none }

/-- State as a block gives it; what the handler left in flight is discarded (12 R260 to R264, R270). -/
def Engine.restoreFrom (x : Engine) (l : List Nat) : Engine :=
  let regs := fun (o : Nat) => (List.range 32).map fun i => (i, BitVec.ofNat 24 (tw l (o + i)))
  let l0 := fun (k b : Nat) => if tb l 150 b then [(⟨k, some (tl l (120 + 2 * k))⟩ : L0Fl)] else []
  { x with
    ga := regs 0, gb := regs 32, lx := (List.range 8).map fun i => (i, tl l (64 + 2 * i))
    alu0 := { x.alu0 with o2 := tl l 82, q := tl l 84, flg := BitVec.ofNat 5 (bits (tw l 156) 15 5) }
    alu1 := { x.alu1 with o2 := tl l 86, q := tl l 88, flg := BitVec.ofNat 5 (bits (tw l 159) 18 5) }
    shf := { x.shf with o2 := BitVec.ofNat 24 (tw l 90), q := tl l 91 }
    mac := x.mac.restore l, chk := x.chk.restore l, div := x.div.restore l
    lsu0 := { x.lsu0 with o := tl l 118, q := tl l 120, fl := l0 1 22 ++ l0 2 23 }
    lsu1 := { x.lsu1 with o := tl l 126, q := tl l 128, fl := lsu1Flights l }
    ctl := x.ctl.restore l, rpt := x.rpt.restore l, smv := x.smv.restore l, tsu := x.tsu.restore l, spu := x.spu.restore l
    exc := { x.exc with handler := false, firstAfter := true, restore := false, resuming := false, rfe := none } }

/-- Words of some bytes. -/
def natWords (l : List Byte) : List Nat := (List.range 160).map fun i => leNat (slice l (3 * i) 3)

/-- The return, once nothing is outstanding (12 R270, R273). -/
def State.restoreTask (s0 : State) (e : Nat) : State :=
  let s := s0.passMeet e
  let x := s.engine e
  if s.engRuns e && x.exc.restore && x.settled then
    match x.tsbHome e with
    | none => s.halt e 3
    | some a =>
      match s.readRows a 480 81 with
      | (s1, none) => s1
      | (s1, some l) => ((s1.rowsServed e).setEngine e (((s1.rowsServed e).engine e).restoreFrom (natWords l))).fetchFirst e
  else s

/-- TSB_RESTORE (12 R270). -/
def execTsbRestore (eng : EngN) (s : State) : Host.Outcome State Fault Refusal := .next (s.restoreTask eng.val)

end Sys2Proof.Machine
end

