-- ==== Sys2Proof/Machine/EngLsu.lean ====
section
/-! DEFINITION. The load and store commands (08 R168 to R174, 10 R213, R214). -/

namespace Sys2Proof.Machine

/-- LSU0 LD.B: DMEM through LSU0 (10 R213, 08 R168 to R170). -/
def execLsu0LdB (eng : EngN) (a : W24) (s : State) : Host.Outcome State Fault Refusal := .next (s.issue eng.val (bLSU0 + 0) (longOf a))

/-- LSU0 LD.BU: DMEM through LSU0 (10 R213, 08 R168 to R170). -/
def execLsu0LdBu (eng : EngN) (a : W24) (s : State) : Host.Outcome State Fault Refusal := .next (s.issue eng.val (bLSU0 + 1) (longOf a))

/-- LSU0 LD.W: DMEM through LSU0 (10 R213, 08 R168 to R170). -/
def execLsu0LdW (eng : EngN) (a : W24) (s : State) : Host.Outcome State Fault Refusal := .next (s.issue eng.val (bLSU0 + 2) (longOf a))

/-- LSU0 LD.L: DMEM through LSU0 (10 R213, 08 R168 to R170). -/
def execLsu0LdL (eng : EngN) (a : W24) (s : State) : Host.Outcome State Fault Refusal := .next (s.issue eng.val (bLSU0 + 3) (longOf a))

/-- LSU0 ST.B: DMEM through LSU0 (10 R213, 08 R168 to R170). -/
def execLsu0StB (eng : EngN) (a : W24) (s : State) : Host.Outcome State Fault Refusal := .next (s.issue eng.val (bLSU0 + 8) (longOf a))

/-- LSU0 ST.W: DMEM through LSU0 (10 R213, 08 R168 to R170). -/
def execLsu0StW (eng : EngN) (a : W24) (s : State) : Host.Outcome State Fault Refusal := .next (s.issue eng.val (bLSU0 + 9) (longOf a))

/-- LSU0 ST.L: DMEM through LSU0 (10 R213, 08 R168 to R170). -/
def execLsu0StL (eng : EngN) (a : W24) (s : State) : Host.Outcome State Fault Refusal := .next (s.issue eng.val (bLSU0 + 10) (longOf a))

/-- LSU1 LD.B: an access checked by the regions (10 R214, 09 R199); it waits for its grant. -/
def execLsu1LdB (eng : EngN) (a : L48) (s : State) : Host.Outcome State Fault Refusal := .next (s.issue eng.val (bLSU1 + 0) a)

/-- LSU1 LD.BU: an access checked by the regions (10 R214, 09 R199); it waits for its grant. -/
def execLsu1LdBu (eng : EngN) (a : L48) (s : State) : Host.Outcome State Fault Refusal := .next (s.issue eng.val (bLSU1 + 1) a)

/-- LSU1 LD.W: an access checked by the regions (10 R214, 09 R199); it waits for its grant. -/
def execLsu1LdW (eng : EngN) (a : L48) (s : State) : Host.Outcome State Fault Refusal := .next (s.issue eng.val (bLSU1 + 2) a)

/-- LSU1 LD.L: an access checked by the regions (10 R214, 09 R199); it waits for its grant. -/
def execLsu1LdL (eng : EngN) (a : L48) (s : State) : Host.Outcome State Fault Refusal := .next (s.issue eng.val (bLSU1 + 3) a)

/-- LSU1 ST.B: an access checked by the regions (10 R214, 09 R199); it waits for its grant. -/
def execLsu1StB (eng : EngN) (a : L48) (s : State) : Host.Outcome State Fault Refusal := .next (s.issue eng.val (bLSU1 + 8) a)

/-- LSU1 ST.W: an access checked by the regions (10 R214, 09 R199); it waits for its grant. -/
def execLsu1StW (eng : EngN) (a : L48) (s : State) : Host.Outcome State Fault Refusal := .next (s.issue eng.val (bLSU1 + 9) a)

/-- LSU1 ST.L: an access checked by the regions (10 R214, 09 R199); it waits for its grant. -/
def execLsu1StL (eng : EngN) (a : L48) (s : State) : Host.Outcome State Fault Refusal := .next (s.issue eng.val (bLSU1 + 10) a)

/-- LSU1_REQUEST_GRANTED (08 R160, R172 to R174): the waiting request is granted after `waited` cycles. -/
def execLsu1RequestGranted (eng : EngN) (waited : Nat) (s : State) : Host.Outcome State Fault Refusal := .next (if s.engFed eng.val then s.grant1 eng.val waited else s)

/-- LSU1_DATA_RETURN (08 R172, 10 R214, 15 R333): the data or the error response of an access outside the pod arrives. -/
def execLsu1DataReturn (eng : EngN) (err : Bool) (ext : List Byte) (s : State) : Host.Outcome State Fault Refusal := .next (if s.engFed eng.val then s.return1 eng.val err ext else s)

/-- STORE_BUFFER_DRAIN (08 R168): the oldest entry reaches DMEM. -/
def execStoreBufferDrain (eng : EngN) (s : State) : Host.Outcome State Fault Refusal := .next (if s.engOn eng.val then s.drainOne eng.val else s)

end Sys2Proof.Machine
end

