-- ==== Sys2Proof/Machine/EngPortRows.lean ====
section
/-! DEFINITION. The commands that write one port of an engine by a move (09 R194 to R202, 11 R232, R241). -/

namespace Sys2Proof.Machine

/-- Ports of chained state (09 R194). -/
def chainedPorts : List Nat := [0x0A8, 0x0E8, 0x128, 0x129, 0x12A, 0x12B, 0x1AA, 0x1E8]
/-- The count ports of the repeat unit (11 R232). -/
def rptCountPorts : List Nat := [0x2E8, 0x2EA, 0x2ED]
/-- The address ports of the repeat unit (11 R232). -/
def rptBoundPorts : List Nat := [0x2E0, 0x2EB, 0x2EC, 0x2EE, 0x2EF]
/-- The control ports of SMV (11 R241). -/
def smvPorts : List Nat := [0x328, 0x329, 0x32A, 0x32B]

/-- A write to one of the ports that a command names; of another port it is no such command, and has no effect. -/
def State.portRow (s : State) (e : EngN) (ports : List Nat) (port : BitVec 10) (v : L48) : State :=
  if ports.contains port.toNat then s.issue e.val port.toNat v else s

/-- CTL_MODE_WRITE: a move writes CTL.MODE (09 R200, 08 R166). -/
def execCtlModeWrite (eng : EngN) (v : W24) (s : State) : Host.Outcome State Fault Refusal := .next (s.issue eng.val 0x2A8 (longOf v))

/-- CTL_DOOR_WRITE: a move writes CTL.DOOR (09 R200, 18 R415). -/
def execCtlDoorWrite (eng : EngN) (v : W24) (s : State) : Host.Outcome State Fault Refusal := .next (s.issue eng.val 0x2AF (longOf v))

/-- CHK_CFG_WRITE: a move writes CHK.CFG (09 R198). -/
def execChkCfgWrite (eng : EngN) (v : W24) (s : State) : Host.Outcome State Fault Refusal := .next (s.issue eng.val 0x1A9 (longOf v))

/-- CHAINED_STATE_WRITE: a move writes a port of chained state (09 R194, R196 to R198). -/
def execChainedStateWrite (eng : EngN) (port : BitVec 10) (v : L48) (s : State) : Host.Outcome State Fault Refusal := .next (s.portRow eng chainedPorts port v)

/-- RPT_COUNT_WRITE: a move writes N or a count of the repeat unit (11 R232, R239). -/
def execRptCountWrite (eng : EngN) (port : BitVec 10) (v : W24) (s : State) : Host.Outcome State Fault Refusal := .next (s.portRow eng rptCountPorts port (longOf v))

/-- RPT_BOUNDS_WRITE: a move writes a start or end address of the repeat unit, or its operand (11 R232, R239). -/
def execRptBoundsWrite (eng : EngN) (port : BitVec 10) (v : W24) (s : State) : Host.Outcome State Fault Refusal := .next (s.portRow eng rptBoundPorts port (longOf v))

/-- SMV_PORT_WRITE: a move writes SRC, DST, N or PAT (11 R241, R246). -/
def execSmvPortWrite (eng : EngN) (port : BitVec 10) (v : W24) (s : State) : Host.Outcome State Fault Refusal := .next (s.portRow eng smvPorts port (longOf v))

/-- SPU_RING_WRITE: a move writes RBASE or RSIZE (09 R202). -/
def execSpuRingWrite (eng : EngN) (size : Bool) (v : W24) (s : State) : Host.Outcome State Fault Refusal := .next (s.issue eng.val (if size then 0x3A9 else 0x3A8) (longOf v))

/-- SPU_PRED_WRITE: a move writes PRED (09 R202, 05 R97). -/
def execSpuPredWrite (eng : EngN) (v : W24) (s : State) : Host.Outcome State Fault Refusal := .next (s.issue eng.val 0x3AA (longOf v))

end Sys2Proof.Machine
end

