-- ==== Sys2Proof/Machine/Pins.lean ====
section
/-! DEFINITION. Balls and pins: the ball map (20 R442 to R444), the rail of each signal ball (R445, R449) and the level of each output pin (R446). These are
views of the state; no command acts on them alone. -/

namespace Sys2Proof.Machine

/-- A rail of the device (20 R448). -/
inductive Rail where
  | vcore
  | vddPll
  | vddSerdes
  | vddhSerdes
  | vddDphy
  | vddqDram
  | vioCan
  | vioLs
  | vioXspi
  | vioMgmt
  | vddHusk
  | vioHusk
  deriving DecidableEq, Repr

/-- What a ball carries (20 R443). `pos` is the positive or the negative one of a pair, `tx` a transmitter or a receiver; a DRAM signal has its place in the list
of R444 within its subchannel; the others count in the order in which R443 names them. -/
inductive Ball where
  | canTx (n : Nat)
  | canRx (n : Nat)
  | eth (n : Nat) (tx pos : Bool)
  | fabric (port lane : Nat) (tx pos : Bool)
  | pcie (ctl lane : Nat) (tx pos : Bool)
  | pcieClk (ctl : Nat) (out pos : Bool)
  | refclk (pos : Bool)
  | dram (sub k : Nat)
  | dramResetN
  | dramZq (k : Nat)
  | smp (k j : Nat)
  | evt (n : Nat)
  | xspi (k : Nat)
  | ppsIn
  | xtal (out : Bool)
  | lspA (n : Nat)
  | lspB (n : Nat)
  | mgmt (k : Nat)
  | husk (k : Nat)
  | supply (r : Rail)
  | vss
  deriving DecidableEq, Repr

/-- The columns of the Ethernet lanes: c1, c2 transmit, c4, c5 receive. -/
def ethBall (i c : Nat) : Ball :=
  if i % 2 = 1 then (if c = 3 then .supply .vddSerdes else if c = 6 then .supply .vddhSerdes else .vss)
  else
    let n := (i - 8) / 2
    if c = 1 then .eth n true true else if c = 2 then .eth n true false else if c = 4 then .eth n false true
    else if c = 5 then .eth n false false else .vss

/-- The columns of the fabric lanes. -/
def fabricBall (i c : Nat) : Ball :=
  if i % 2 = 1 then (if c = 46 then .supply .vddSerdes else if c = 43 then .supply .vddhSerdes else .vss)
  else
    let j := (i - 8) / 2
    if c = 48 then .fabric (j / 2) (j % 2) true true else if c = 47 then .fabric (j / 2) (j % 2) true false
    else if c = 45 then .fabric (j / 2) (j % 2) false true else if c = 44 then .fabric (j / 2) (j % 2) false false else .vss

/-- The columns of the PCIe lanes and clocks. -/
def pcieBall (i c : Nat) : Ball :=
  if i % 2 = 1 then (if c = 40 then .supply .vddSerdes else if c = 37 then .supply .vddhSerdes else .vss)
  else if i = 30 then (if 38 ≤ c && c ≤ 41 then .supply .vddPll else .vss)
  else if i = 28 then (if c = 42 then .refclk true else if c = 41 then .refclk false else .vss)
  else if 24 ≤ i then
    let k := (i - 24) / 2
    if c = 42 then .pcieClk k false true else if c = 41 then .pcieClk k false false
    else if c = 39 then .pcieClk k true true else if c = 38 then .pcieClk k true false else .vss
  else
    let j := (i - 8) / 2
    if c = 42 then .pcie (j / 4) (j % 4) true true else if c = 41 then .pcie (j / 4) (j % 4) true false
    else if c = 39 then .pcie (j / 4) (j % 4) false true else if c = 38 then .pcie (j / 4) (j % 4) false false else .vss

/-- The columns of the DRAM subchannels (20 R443, R444). -/
def dramBall (i c : Nat) : Ball :=
  if i = 40 then (if c = 8 then .dramResetN else if c = 9 then .dramZq 0 else if c = 10 then .dramZq 1 else .vss)
  else if i % 2 = 0 && c = 7 then .supply .vddDphy
  else if i % 2 = 0 && c = 13 then .supply .vddqDram
  else if 8 ≤ c && c ≤ 12 then
    let k := (i - 8) % 8 * 5 + (c - 8)
    if k < 37 then .dram ((i - 8) / 8) k else .vss
  else .vss

/-- Rows BE to BK (20 R443). -/
def edgeBall (i c : Nat) : Ball :=
  if i = 43 then .smp ((c - 1) / 6) ((c - 1) % 6)
  else if i = 44 then
    (if c % 2 = 0 then .vss else if c ≤ 31 then .supply .vioLs else if c ≤ 39 then .supply .vioXspi else .supply .vioMgmt)
  else if i = 45 then (if c ≤ 32 then .evt (c - 1) else if c ≤ 44 then .xspi (c - 33) else if c = 45 then .ppsIn else .vss)
  else if i = 46 then
    (if c = 41 then .xtal false else if c = 42 then .xtal true
     else if c % 2 = 0 || 39 < c then .vss else if c ≤ 31 then .supply .vioLs else if c ≤ 35 then .supply .vddHusk else .supply .vioHusk)
  else if i = 47 then (if c ≤ 32 then .lspB (c - 1) else if c ≤ 41 then .mgmt (c - 33) else .husk (c - 42))
  else if c ≤ 32 then .lspA (c - 1) else .husk (c - 33 + 7)

/-- The ball map: the first row of R443 (20) that names ball (i, c), with rows and columns from 1 to 48. -/
def ballAt (i c : Nat) : Ball :=
  if i = 1 then .canTx (c - 1)
  else if i = 2 then .canRx (c - 1)
  else if i = 3 then (if c % 2 = 1 then .supply .vioCan else .vss)
  else if i = 4 then .canTx (c + 47)
  else if i = 5 then .canRx (c + 47)
  else if 43 ≤ i then edgeBall i c
  else if c ≤ 6 && 7 ≤ i && i ≤ 39 then ethBall i c
  else if 43 ≤ c && 7 ≤ i && i ≤ 39 then fabricBall i c
  else if 37 ≤ c && c ≤ 42 && 7 ≤ i && i ≤ 30 then pcieBall i c
  else if 7 ≤ c && c ≤ 14 && 8 ≤ i && i ≤ 40 then dramBall i c
  else if 15 ≤ c && c ≤ 36 && 7 ≤ i && (i + c) % 2 = 0 then .supply .vcore
  else .vss

/-- The I/O rail of a single-ended ball (20 R445); the others follow their own rails and standards. -/
def ballRail : Ball → Option Rail
  | .canTx _ => some .vioCan
  | .canRx _ => some .vioCan
  | .smp _ _ => some .vioLs
  | .evt _ => some .vioLs
  | .ppsIn => some .vioLs
  | .lspA _ => some .vioLs
  | .lspB _ => some .vioLs
  | .xspi _ => some .vioXspi
  | .mgmt _ => some .vioMgmt
  | .husk _ => some .vioHusk
  | .xtal _ => some .vddHusk
  | _ => none

/-- Group of enables of a rail in the order of R450 (20 R449): CORE, DRAM, SERDES, IO; none for the Husk's own, which are always on. -/
def railPen : Rail → Option Nat
  | .vcore => some 0
  | .vddPll => some 0
  | .vddDphy => some 1
  | .vddqDram => some 1
  | .vddSerdes => some 2
  | .vddhSerdes => some 2
  | .vioCan => some 3
  | .vioLs => some 3
  | .vioXspi => some 3
  | .vioMgmt => some 3
  | .vddHusk => none
  | .vioHusk => none

/-- Whether an enable is high: PEN_CORE, PEN_DRAM, PEN_SERDES or PEN_IO (20 R446, R449, R450). -/
def State.penHigh (s : State) (g : Nat) : Bool := s.corePowered || (s.railsRise && decide (g ≤ s.pwr.rails.val)) || (g = 1 && s.pwr.dramRail)

/-- An output pin or a group of them (20 R446). -/
inductive OutPin where
  | canTx
  | port
  | sampleClock
  | lanes
  | dram
  | xspiCs
  | pen (g : Nat)
  | thermTrip
  | fault
  deriving DecidableEq, Repr

/-- What an output pin shows (20 R446): what its unit drives, a fixed level, the idle level of the profile, electrical idle, self-refresh with DRAM_RESET_N
high, nothing, or an open-drain pin left free. -/
inductive PinLevel where
  | driven
  | high
  | low
  | idle
  | electricalIdle
  | selfRefresh
  | highZ
  | off
  | released
  deriving DecidableEq, Repr

/-- A pin that is high or low. -/
def levelOf (b : Bool) : PinLevel := if b then .high else .low

/-- The level of an output pin in each power state (20 R446). In SLEEP the DRAM rails are off and DRAM_RESET_N floats. -/
def State.outLevel (s : State) : OutPin → PinLevel
  | .canTx => if s.pwr.st.val = 0 then .driven else if s.pwr.st.val = 1 then .high else .highZ
  | .port => if s.pwr.st.val = 0 then .driven else if s.pwr.st.val = 1 then .idle else .highZ
  | .sampleClock => if s.pwr.st.val = 0 then .driven else if s.pwr.st.val = 1 then .low else .highZ
  | .lanes => if s.pwr.st.val = 0 then .driven else if s.pwr.st.val = 1 then .electricalIdle else .off
  | .dram => if s.pwr.st.val = 0 then .driven else if 3 ≤ s.pwr.st.val then .highZ else .selfRefresh
  | .xspiCs => if s.pwr.st.val = 0 then .driven else if s.pwr.st.val = 1 then .high else .highZ
  | .pen g => levelOf (s.penHigh g)
  | .thermTrip => if s.pwr.st.val = 4 then .released else if s.pwr.thermTripN then .released else .low
  | .fault => if s.pwr.st.val ≤ 1 && !s.pwr.faultN then .low else .released

end Sys2Proof.Machine
end

