-- ==== Sys2Proof/Machine/StoreDone.lean ====
section
/-! DEFINITION. Completion of NVMe commands (05 R109), with the check of the retained ring position after a wake (19 R427). -/

namespace Sys2Proof.Machine

/-- A closed segment that nothing has written yet takes the next SEQ and the hash of its new predecessor; its signature is made anew (05 R102, R105). -/
def State.rechain (s : State) (g : Seg) : State :=
  let head := slice g.bytes 0 20 ++ leBytes 8 s.store.nextSeq ++ slice g.bytes 28 23 ++ [(segmentSsds s.store.mode s.store.nextSeq).zeroExtend 8] ++
    fit 48 s.store.prevHash ++ slice g.bytes 100 40
  let front := head ++ leBytes 4 (crc32c head).toNat ++ slice g.bytes 144 (g.bytes.length - 144 - (if g.hasSig then 180 else 0))
  let old := (g.bytes.drop (g.bytes.length - 180))
  let h := slice old 18 8 ++ leBytes 8 s.store.nextSeq
  let bytes := if g.hasSig then
      front ++ old.take 18 ++ h ++ sha384 front ++ fit 96 (Config.ecdsaSign (sha384 front ++ h) s.free) ++ [0, 0]
    else front
  { s with
    free := s.free + bit01 g.hasSig
    store := { s.store with
      hashing := s.store.hashing ++ [{ g with seq := s.store.nextSeq, bytes := bytes, need := segmentSsds s.store.mode s.store.nextSeq, written := 0, durable := 0 }]
      nextSeq := s.store.nextSeq + 1, prevHash := sha384 bytes } }

/-- A store restart with cause 3 under a session that records: its segment comes before those that wait to be written, which follow it in the chain; the open
segment goes on (19 R427). -/
def State.restartUnder (s : State) (n : BitVec 16) : State :=
  let wait := s.store.ring ++ s.store.hashing
  let s1 := ({ s with store := { s.store with ring := [], hashing := [], seg := none } }).storeRestart 3 n
  let s2 := wait.foldl State.rechain s1
  { s2 with store := { s2.store with seg := s.store.seg } }

/-- The slot header at the retained position has been read (19 R427): a mismatch is logged, and a store restart with cause 3 follows, at once in a session
that records, before its first segment is written, else at the next START. -/
def State.headerRead (s0 : State) (ok : Bool) (seq : Nat) (data : List Byte) : State :=
  let s : State := { s0 with store := { s0.store with headerOut := false } }
  if ok && slice data 0 4 = [0x43, 0x50, 0x5A, 0x53] && leNat (slice data 20 8) = seq then (s.writeOwed 0).writeOwed 1
  else
    let n := s.log.next
    let s1 := s.logE 1 1 0x2503 5 seq
    if s1.recording then s1.restartUnder n
    else { s1 with store := { s1.store with restart := s1.store.restart.set 3 n } }

/-- An NVMe command completes (05 R109). A Write, Flush or deallocation that completes with an error status is logged and issued again (log entry 11). -/
def State.nvmeDone (s : State) (k cid : Nat) (d : NvmeDone) : State :=
  let x := s.ssd k
  match x.cmds.find cid with
  | none => s
  | some c =>
    let s1 := s.setSsd k { x with cmds := x.cmds.erase cid, issued := x.issued.erase cid }
    match c with
    | .read _ seq => s1.readDone seq d.ok d.data
    | .header _ seq => s1.headerRead d.ok seq d.data
    | .abort _ => s1
    | .logPage _ => s1
    | .write seq slot => if d.ok then s1.writeDone k seq slot else (s1.logE 1 1 0x2503 (3 + k) x.state.val).nvme k c
    | .flush seqs => if d.ok then s1.flushDone k seqs else (s1.logE 1 1 0x2503 (3 + k) x.state.val).nvme k c
    | .dealloc slots => if d.ok then s1.offMedium k slots else (s1.logE 1 1 0x2503 (3 + k) x.state.val).nvme k c
    | .identify _ => s1
    | .createQueue _ => s1
    | .deleteQueue _ => s1
    | .setFeature _ => s1
    | .getFeature _ => s1

/-- NVME_COMMAND_COMPLETE (05 R109). -/
def execNvmeCommandComplete (ssd : Fin 2) (cid : Nat) (done : NvmeDone) (s : State) : Host.Outcome State Fault Refusal :=
  .next (s.nvmeDone ssd.val cid done)

end Sys2Proof.Machine
end

