-- ==== Sys2Proof/Machine/Dispatch.lean ====
section
/-! DEFINITION. exec: one arm per command, one direct call of its meaning. -/

namespace Sys2Proof.Machine

/-- The effect of a command on everything but the queue. -/
def exec (i : Instr) (s : State) : Host.Outcome State Fault Refusal :=
  match i with
  | .tickWrap busy => Sys2Proof.Machine.execTickWrap busy s
  | .calibration => Sys2Proof.Machine.execCalibration s
  | .sourceSelection => Sys2Proof.Machine.execSourceSelection s
  | .sourceQualified src => Sys2Proof.Machine.execSourceQualified src s
  | .sourceLost src => Sys2Proof.Machine.execSourceLost src s
  | .ppsPulse rising edge => Sys2Proof.Machine.execPpsPulse rising edge s
  | .gptpMessage mac edge msg => Sys2Proof.Machine.execGptpMessage mac edge msg s
  | .commitShadowMapping path v => Sys2Proof.Machine.execCommitShadowMapping path v s
  | .utcOffsetWrite path v => Sys2Proof.Machine.execUtcOffsetWrite path v s
  | .chipTimeSnapshotRead path => Sys2Proof.Machine.execChipTimeSnapshotRead path s
  | .snapshotTickRead path => Sys2Proof.Machine.execSnapshotTickRead path s
  | .canFrameReceived port edge frame => Sys2Proof.Machine.execCanFrameReceived port edge frame s
  | .canBusEvent port edge ev => Sys2Proof.Machine.execCanBusEvent port edge ev s
  | .busOffRecovery port edge => Sys2Proof.Machine.execBusOffRecovery port edge s
  | .ethernetFrameReceived mac edge frame => Sys2Proof.Machine.execEthernetFrameReceived mac edge frame s
  | .ethLinkUp mac rate => Sys2Proof.Machine.execEthLinkUp mac rate s
  | .ethLinkDown mac => Sys2Proof.Machine.execEthLinkDown mac s
  | .sentFrameReceived lsp edge frame => Sys2Proof.Machine.execSentFrameReceived lsp edge frame s
  | .psi5FrameReceived lsp edge frame => Sys2Proof.Machine.execPsi5FrameReceived lsp edge frame s
  | .linFrameReceived lsp edge frame => Sys2Proof.Machine.execLinFrameReceived lsp edge frame s
  | .edgeLevelAccepted port edge level => Sys2Proof.Machine.execEdgeLevelAccepted port edge level s
  | .pwmMeasurement lsp edge period high => Sys2Proof.Machine.execPwmMeasurement lsp edge period high s
  | .samplePortFrame smp edge lines => Sys2Proof.Machine.execSamplePortFrame smp edge lines s
  | .classifyFrame port => Sys2Proof.Machine.execClassifyFrame port s
  | .siftFrame => Sys2Proof.Machine.execSiftFrame s
  | .commitShadowTables path v => Sys2Proof.Machine.execCommitShadowTables path v s
  | .tableCheckComplete => Sys2Proof.Machine.execTableCheckComplete s
  | .copyActiveToShadow path v => Sys2Proof.Machine.execCopyActiveToShadow path v s
  | .tableCopyComplete => Sys2Proof.Machine.execTableCopyComplete s
  | .tableWindowWrite path idx sub data => Sys2Proof.Machine.execTableWindowWrite path idx sub data s
  | .blockClose lane => Sys2Proof.Machine.execBlockClose lane s
  | .blockAgeExpiry lane => Sys2Proof.Machine.execBlockAgeExpiry lane s
  | .outputLaneWrapTimeout eng => Sys2Proof.Machine.execOutputLaneWrapTimeout eng s
  | .segmentAgeExpiry => Sys2Proof.Machine.execSegmentAgeExpiry s
  | .signatureTimeDue => Sys2Proof.Machine.execSignatureTimeDue s
  | .segmentHashComplete => Sys2Proof.Machine.execSegmentHashComplete s
  | .nvmeCommandComplete ssd cid done => Sys2Proof.Machine.execNvmeCommandComplete ssd cid done s
  | .flushIntervalExpiry => Sys2Proof.Machine.execFlushIntervalExpiry s
  | .nvmeHealthPoll pages => Sys2Proof.Machine.execNvmeHealthPoll pages s
  | .nvmeCommandTimeout ssd cid => Sys2Proof.Machine.execNvmeCommandTimeout ssd cid s
  | .controllerResetComplete ssd ok => Sys2Proof.Machine.execControllerResetComplete ssd ok s
  | .ssdBringupRetry up0 up1 => Sys2Proof.Machine.execSsdBringupRetry up0 up1 s
  | .feedEmitEntry port => Sys2Proof.Machine.execFeedEmitEntry port s
  | .emitCountReached entry => Sys2Proof.Machine.execEmitCountReached entry s
  | .holdResume => Sys2Proof.Machine.execHoldResume s
  | .canBusIdleTx port won => Sys2Proof.Machine.execCanBusIdleTx port won s
  | .frameTransmitted port edge => Sys2Proof.Machine.execFrameTransmitted port edge s
  | .linkBlockAgeExpiry lane cls => Sys2Proof.Machine.execLinkBlockAgeExpiry lane cls s
  | .linkFrameSend path => Sys2Proof.Machine.execLinkFrameSend path s
  | .linkRecordShed cls => Sys2Proof.Machine.execLinkRecordShed cls s
  | .codeGroupTimeout => Sys2Proof.Machine.execCodeGroupTimeout s
  | .helloTimer => Sys2Proof.Machine.execHelloTimer s
  | .linkHelloReceived path frame => Sys2Proof.Machine.execLinkHelloReceived path frame s
  | .linkAnswerReceived path frame => Sys2Proof.Machine.execLinkAnswerReceived path frame s
  | .rekeyIntervalExpiry => Sys2Proof.Machine.execRekeyIntervalExpiry s
  | .oldKeyExpiry => Sys2Proof.Machine.execOldKeyExpiry s
  | .reportIntervalExpiry path => Sys2Proof.Machine.execReportIntervalExpiry path s
  | .linkReportReceived path frame => Sys2Proof.Machine.execLinkReportReceived path frame s
  | .pathReportTimeout path => Sys2Proof.Machine.execPathReportTimeout path s
  | .nakTimer keyno seq => Sys2Proof.Machine.execNakTimer keyno seq s
  | .linkNakReceived path frame => Sys2Proof.Machine.execLinkNakReceived path frame s
  | .linkDataFrameReceived path frame => Sys2Proof.Machine.execLinkDataFrameReceived path frame s
  | .recordRelease => Sys2Proof.Machine.execRecordRelease s
  | .linkCloseReceived path frame => Sys2Proof.Machine.execLinkCloseReceived path frame s
  | .pathCloseExpiry path => Sys2Proof.Machine.execPathCloseExpiry path s
  | .engineMove eng => Sys2Proof.Machine.execEngineMove eng s
  | .ctlModeWrite eng v => Sys2Proof.Machine.execCtlModeWrite eng v s
  | .ctlDoorWrite eng v => Sys2Proof.Machine.execCtlDoorWrite eng v s
  | .chkCfgWrite eng v => Sys2Proof.Machine.execChkCfgWrite eng v s
  | .chainedStateWrite eng port v => Sys2Proof.Machine.execChainedStateWrite eng port v s
  | .rptCountWrite eng port v => Sys2Proof.Machine.execRptCountWrite eng port v s
  | .rptBoundsWrite eng port v => Sys2Proof.Machine.execRptBoundsWrite eng port v s
  | .smvPortWrite eng port v => Sys2Proof.Machine.execSmvPortWrite eng port v s
  | .spuRingWrite eng size v => Sys2Proof.Machine.execSpuRingWrite eng size v s
  | .spuPredWrite eng v => Sys2Proof.Machine.execSpuPredWrite eng v s
  | .aluAdd eng u long a => Sys2Proof.Machine.execAluAdd eng u long a s
  | .aluAddc eng u long a => Sys2Proof.Machine.execAluAddc eng u long a s
  | .aluSub eng u long a => Sys2Proof.Machine.execAluSub eng u long a s
  | .aluSubb eng u long a => Sys2Proof.Machine.execAluSubb eng u long a s
  | .aluNeg eng u long a => Sys2Proof.Machine.execAluNeg eng u long a s
  | .aluAbs eng u long a => Sys2Proof.Machine.execAluAbs eng u long a s
  | .aluAnd eng u long a => Sys2Proof.Machine.execAluAnd eng u long a s
  | .aluOr eng u long a => Sys2Proof.Machine.execAluOr eng u long a s
  | .aluXor eng u long a => Sys2Proof.Machine.execAluXor eng u long a s
  | .aluAndn eng u long a => Sys2Proof.Machine.execAluAndn eng u long a s
  | .aluNot eng u long a => Sys2Proof.Machine.execAluNot eng u long a s
  | .aluMin eng u long a => Sys2Proof.Machine.execAluMin eng u long a s
  | .aluMax eng u long a => Sys2Proof.Machine.execAluMax eng u long a s
  | .aluMinu eng u long a => Sys2Proof.Machine.execAluMinu eng u long a s
  | .aluMaxu eng u long a => Sys2Proof.Machine.execAluMaxu eng u long a s
  | .aluPass eng u long a => Sys2Proof.Machine.execAluPass eng u long a s
  | .macMul eng y => Sys2Proof.Machine.execMacMul eng y s
  | .macMulu eng y => Sys2Proof.Machine.execMacMulu eng y s
  | .macMac eng y => Sys2Proof.Machine.execMacMac eng y s
  | .macMacu eng y => Sys2Proof.Machine.execMacMacu eng y s
  | .macMsu eng y => Sys2Proof.Machine.execMacMsu eng y s
  | .macMsuu eng y => Sys2Proof.Machine.execMacMsuu eng y s
  | .macClr eng y => Sys2Proof.Machine.execMacClr eng y s
  | .macRd eng y => Sys2Proof.Machine.execMacRd eng y s
  | .shfShl eng long d => Sys2Proof.Machine.execShfShl eng long d s
  | .shfShr eng long d => Sys2Proof.Machine.execShfShr eng long d s
  | .shfSar eng long d => Sys2Proof.Machine.execShfSar eng long d s
  | .shfRol eng long d => Sys2Proof.Machine.execShfRol eng long d s
  | .shfRor eng long d => Sys2Proof.Machine.execShfRor eng long d s
  | .shfExt eng long d => Sys2Proof.Machine.execShfExt eng long d s
  | .shfExts eng long d => Sys2Proof.Machine.execShfExts eng long d s
  | .shfIns eng long d => Sys2Proof.Machine.execShfIns eng long d s
  | .chkStep8 eng v => Sys2Proof.Machine.execChkStep8 eng v s
  | .chkStep16 eng v => Sys2Proof.Machine.execChkStep16 eng v s
  | .chkStep24 eng v => Sys2Proof.Machine.execChkStep24 eng v s
  | .chkPar eng v => Sys2Proof.Machine.execChkPar eng v s
  | .chkParb eng v => Sys2Proof.Machine.execChkParb eng v s
  | .chkRev eng v => Sys2Proof.Machine.execChkRev eng v s
  | .chkRevb eng v => Sys2Proof.Machine.execChkRevb eng v s
  | .chkRevn eng v => Sys2Proof.Machine.execChkRevn eng v s
  | .chkPop eng long v => Sys2Proof.Machine.execChkPop eng long v s
  | .chkClz eng long v => Sys2Proof.Machine.execChkClz eng long v s
  | .divDiv eng long n => Sys2Proof.Machine.execDivDiv eng long n s
  | .divDivu eng long n => Sys2Proof.Machine.execDivDivu eng long n s
  | .lsu0LdB eng a => Sys2Proof.Machine.execLsu0LdB eng a s
  | .lsu0LdBu eng a => Sys2Proof.Machine.execLsu0LdBu eng a s
  | .lsu0LdW eng a => Sys2Proof.Machine.execLsu0LdW eng a s
  | .lsu0LdL eng a => Sys2Proof.Machine.execLsu0LdL eng a s
  | .lsu0StB eng a => Sys2Proof.Machine.execLsu0StB eng a s
  | .lsu0StW eng a => Sys2Proof.Machine.execLsu0StW eng a s
  | .lsu0StL eng a => Sys2Proof.Machine.execLsu0StL eng a s
  | .lsu1LdB eng a => Sys2Proof.Machine.execLsu1LdB eng a s
  | .lsu1LdBu eng a => Sys2Proof.Machine.execLsu1LdBu eng a s
  | .lsu1LdW eng a => Sys2Proof.Machine.execLsu1LdW eng a s
  | .lsu1LdL eng a => Sys2Proof.Machine.execLsu1LdL eng a s
  | .lsu1StB eng a => Sys2Proof.Machine.execLsu1StB eng a s
  | .lsu1StW eng a => Sys2Proof.Machine.execLsu1StW eng a s
  | .lsu1StL eng a => Sys2Proof.Machine.execLsu1StL eng a s
  | .lsu1RequestGranted eng waited => Sys2Proof.Machine.execLsu1RequestGranted eng waited s
  | .lsu1DataReturn eng err ext => Sys2Proof.Machine.execLsu1DataReturn eng err ext s
  | .storeBufferDrain eng => Sys2Proof.Machine.execStoreBufferDrain eng s
  | .ctlJmp eng v => Sys2Proof.Machine.execCtlJmp eng v s
  | .ctlCall eng v => Sys2Proof.Machine.execCtlCall eng v s
  | .ctlRet eng v => Sys2Proof.Machine.execCtlRet eng v s
  | .ctlTrap eng v => Sys2Proof.Machine.execCtlTrap eng v s
  | .ctlRfe eng v => Sys2Proof.Machine.execCtlRfe eng v s
  | .ctlCmpEq eng long a => Sys2Proof.Machine.execCtlCmpEq eng long a s
  | .ctlCmpNe eng long a => Sys2Proof.Machine.execCtlCmpNe eng long a s
  | .ctlCmpLt eng long a => Sys2Proof.Machine.execCtlCmpLt eng long a s
  | .ctlCmpLe eng long a => Sys2Proof.Machine.execCtlCmpLe eng long a s
  | .ctlCmpLtu eng long a => Sys2Proof.Machine.execCtlCmpLtu eng long a s
  | .ctlCmpLeu eng long a => Sys2Proof.Machine.execCtlCmpLeu eng long a s
  | .ctlCmpBit eng a => Sys2Proof.Machine.execCtlCmpBit eng a s
  | .rptRep eng c => Sys2Proof.Machine.execRptRep eng c s
  | .rptExit eng v => Sys2Proof.Machine.execRptExit eng v s
  | .smvCopy eng v => Sys2Proof.Machine.execSmvCopy eng v s
  | .smvFill eng v => Sys2Proof.Machine.execSmvFill eng v s
  | .smvCmp eng v => Sys2Proof.Machine.execSmvCmp eng v s
  | .smvScan eng v => Sys2Proof.Machine.execSmvScan eng v s
  | .smvStep eng => Sys2Proof.Machine.execSmvStep eng s
  | .tsuNow eng v => Sys2Proof.Machine.execTsuNow eng v s
  | .tsuEp eng v => Sys2Proof.Machine.execTsuEp eng v s
  | .tsuWait eng v => Sys2Proof.Machine.execTsuWait eng v s
  | .waitTargetDue eng => Sys2Proof.Machine.execWaitTargetDue eng s
  | .spuIn eng v => Sys2Proof.Machine.execSpuIn eng v s
  | .spuPoll eng v => Sys2Proof.Machine.execSpuPoll eng v s
  | .spuOut eng v => Sys2Proof.Machine.execSpuOut eng v s
  | .spuEmit eng v => Sys2Proof.Machine.execSpuEmit eng v s
  | .outputQueueHandoff eng waited => Sys2Proof.Machine.execOutputQueueHandoff eng waited s
  | .routerAccept pod => Sys2Proof.Machine.execRouterAccept pod s
  | .routerPublish eng => Sys2Proof.Machine.execRouterPublish eng s
  | .podClockStep pod step => Sys2Proof.Machine.execPodClockStep pod step s
  | .exceptionEntry eng => Sys2Proof.Machine.execExceptionEntry eng s
  | .tsbSave eng => Sys2Proof.Machine.execTsbSave eng s
  | .tsbRestore eng => Sys2Proof.Machine.execTsbRestore eng s
  | .engIrqWrite master eng v => Sys2Proof.Machine.execEngIrqWrite master eng v s
  | .engExcResume master eng => Sys2Proof.Machine.execEngExcResume master eng s
  | .pccErstWrite master pod v => Sys2Proof.Machine.execPccErstWrite master pod v s
  | .podReset pod => Sys2Proof.Machine.execPodReset pod s
  | .xbarGrant target arrivals => Sys2Proof.Machine.execXbarGrant target arrivals s
  | .xbarStarvation target master => Sys2Proof.Machine.execXbarStarvation target master s
  | .transferStarvation pod => Sys2Proof.Machine.execTransferStarvation pod s
  | .xbMapWrite master v => Sys2Proof.Machine.execXbMapWrite master v s
  | .xbRgnWrite master port desc reg v => Sys2Proof.Machine.execXbRgnWrite master port desc reg v s
  | .xbArbitrationWrite master park port target v => Sys2Proof.Machine.execXbArbitrationWrite master park port target v s
  | .grnInjArm master lo hi => Sys2Proof.Machine.execGrnInjArm master lo hi s
  | .grinderVisit visit => Sys2Proof.Machine.execGrinderVisit visit s
  | .grinderWriteback => Sys2Proof.Machine.execGrinderWriteback s
  | .repairRecordWrite => Sys2Proof.Machine.execRepairRecordWrite s
  | .pstFbaseWrite master k v => Sys2Proof.Machine.execPstFbaseWrite master k v s
  | .watchdogKick k v => Sys2Proof.Machine.execWatchdogKick k v s
  | .watchdogExpiry k => Sys2Proof.Machine.execWatchdogExpiry k s
  | .doorbellService eng => Sys2Proof.Machine.execDoorbellService eng s
  | .rehomeChannels pod => Sys2Proof.Machine.execRehomeChannels pod s
  | .sensorSample temps volts clocks => Sys2Proof.Machine.execSensorSample temps volts clocks s
  | .coreBrownout => Sys2Proof.Machine.execCoreBrownout s
  | .refclkLoss => Sys2Proof.Machine.execRefclkLoss s
  | .thermalTrip => Sys2Proof.Machine.execThermalTrip s
  | .thermalTripRelease => Sys2Proof.Machine.execThermalTripRelease s
  | .pmbusAlert faults => Sys2Proof.Machine.execPmbusAlert faults s
  | .signalDetect k => Sys2Proof.Machine.execSignalDetect k s
  | .trainingTimeout k => Sys2Proof.Machine.execTrainingTimeout k s
  | .flitSilenceTimeout k => Sys2Proof.Machine.execFlitSilenceTimeout k s
  | .laneLockLoss k both => Sys2Proof.Machine.execLaneLockLoss k both s
  | .helloFlitReceived k flit => Sys2Proof.Machine.execHelloFlitReceived k flit s
  | .fabricHelloTimer => Sys2Proof.Machine.execFabricHelloTimer s
  | .nakFlitReceived k flit => Sys2Proof.Machine.execNakFlitReceived k flit s
  | .retryTimeout k => Sys2Proof.Machine.execRetryTimeout k s
  | .quarantineExpiry k => Sys2Proof.Machine.execQuarantineExpiry k s
  | .loopedRetrainTimer k => Sys2Proof.Machine.execLoopedRetrainTimer k s
  | .nodeIdTimer => Sys2Proof.Machine.execNodeIdTimer s
  | .routeAdvertReceived k flits => Sys2Proof.Machine.execRouteAdvertReceived k flits s
  | .routeAdvertTimer => Sys2Proof.Machine.execRouteAdvertTimer s
  | .advertAgeExpiry uid => Sys2Proof.Machine.execAdvertAgeExpiry uid s
  | .routeRecompute => Sys2Proof.Machine.execRouteRecompute s
  | .masterDisplacement => Sys2Proof.Machine.execMasterDisplacement s
  | .timeReqTimer => Sys2Proof.Machine.execTimeReqTimer s
  | .timeReqReceived k flit edge => Sys2Proof.Machine.execTimeReqReceived k flit edge s
  | .timeRespReceived k flit time => Sys2Proof.Machine.execTimeRespReceived k flit time s
  | .mgmtRequestReceived k flits => Sys2Proof.Machine.execMgmtRequestReceived k flits s
  | .mgmtAnswerReceived k flits => Sys2Proof.Machine.execMgmtAnswerReceived k flits s
  | .mgmtRequestTimeout node tag => Sys2Proof.Machine.execMgmtRequestTimeout node tag s
  | .dataFlitReceived k flit => Sys2Proof.Machine.execDataFlitReceived k flit s
  | .prepareReceived k flit => Sys2Proof.Machine.execPrepareReceived k flit s
  | .readyReceived k flit => Sys2Proof.Machine.execReadyReceived k flit s
  | .outcomeReceived k flit => Sys2Proof.Machine.execOutcomeReceived k flit s
  | .outcomeTimeout => Sys2Proof.Machine.execOutcomeTimeout s
  | .usdoRequest frame => Sys2Proof.Machine.execUsdoRequest frame s
  | .usdoSegmentTimeout => Sys2Proof.Machine.execUsdoSegmentTimeout s
  | .mbxGo ctl stat req len off data => Sys2Proof.Machine.execMbxGo ctl stat req len off data s
  | .objectWrite path idx sub data => Sys2Proof.Machine.execObjectWrite path idx sub data s
  | .arm path p => Sys2Proof.Machine.execArm path p s
  | .start path p => Sys2Proof.Machine.execStart path p s
  | .stop path p => Sys2Proof.Machine.execStop path p s
  | .disarm path p => Sys2Proof.Machine.execDisarm path p s
  | .mark path p => Sys2Proof.Machine.execMark path p s
  | .switchProfile path p => Sys2Proof.Machine.execSwitchProfile path p s
  | .power path req => Sys2Proof.Machine.execPower path req s
  | .unitPrepared unit => Sys2Proof.Machine.execUnitPrepared unit s
  | .profileCommitTick => Sys2Proof.Machine.execProfileCommitTick s
  | .profileRevertTick => Sys2Proof.Machine.execProfileRevertTick s
  | .profileSave path v => Sys2Proof.Machine.execProfileSave path v s
  | .flashWriteComplete => Sys2Proof.Machine.execFlashWriteComplete s
  | .eventLogRead path => Sys2Proof.Machine.execEventLogRead path s
  | .firmwareImageWrite path off data => Sys2Proof.Machine.execFirmwareImageWrite path off data s
  | .updateCheck path => Sys2Proof.Machine.execUpdateCheck path s
  | .updateActivate path => Sys2Proof.Machine.execUpdateActivate path s
  | .updateConfirm path => Sys2Proof.Machine.execUpdateConfirm path s
  | .updateAbandon path => Sys2Proof.Machine.execUpdateAbandon path s
  | .updateResetTimer => Sys2Proof.Machine.execUpdateResetTimer s
  | .podImageWrite path off data => Sys2Proof.Machine.execPodImageWrite path off data s
  | .podImageDelete path id => Sys2Proof.Machine.execPodImageDelete path id s
  | .imageKeyFuse path data => Sys2Proof.Machine.execImageKeyFuse path data s
  | .memoryTestEnableWrite path v => Sys2Proof.Machine.execMemoryTestEnableWrite path v s
  | .quiescenceReached wake => Sys2Proof.Machine.execQuiescenceReached wake s
  | .quiescenceTimeout => Sys2Proof.Machine.execQuiescenceTimeout s
  | .wakeEdge src => Sys2Proof.Machine.execWakeEdge src s
  | .wakeQualified src => Sys2Proof.Machine.execWakeQualified src s
  | .huskFrameCapture port edge frame => Sys2Proof.Machine.execHuskFrameCapture port edge frame s
  | .wakeComplete => Sys2Proof.Machine.execWakeComplete s
  | .ssdReadyTimeout ssd => Sys2Proof.Machine.execSsdReadyTimeout ssd s
  | .railEnableTimeout monitor mv => Sys2Proof.Machine.execRailEnableTimeout monitor mv s
  | .railRetryTimer => Sys2Proof.Machine.execRailRetryTimer s
  | .powerOnReset => Sys2Proof.Machine.execPowerOnReset s
  | .coldReset debug => Sys2Proof.Machine.execColdReset debug s
  | .chipWarmReset cause => Sys2Proof.Machine.execChipWarmReset cause s
  | .resetRelease facts => Sys2Proof.Machine.execResetRelease facts s
  | .jtagDebugAccess coldReset req => Sys2Proof.Machine.execJtagDebugAccess coldReset req s
  | .armComplete => Sys2Proof.Machine.execArmComplete s
  | .heartbeatProducerTimer => Sys2Proof.Machine.execHeartbeatProducerTimer s
  | .arpNdFrameReceived mac isReply addr => Sys2Proof.Machine.execArpNdFrameReceived mac isReply addr s
  | .gptpSyncTimer mac pdelay => Sys2Proof.Machine.execGptpSyncTimer mac pdelay s
  | .flitCheckFailed k => Sys2Proof.Machine.execFlitCheckFailed k s
  | .idleFlitReceived k flit => Sys2Proof.Machine.execIdleFlitReceived k flit s
  | .referenceClockReturn => Sys2Proof.Machine.execReferenceClockReturn s
  | .crystalRunning => Sys2Proof.Machine.execCrystalRunning s
  | .railInWindow group => Sys2Proof.Machine.execRailInWindow group s
  | .wakeQualificationFailed src => Sys2Proof.Machine.execWakeQualificationFailed src s
  | .xbErrInfoClear master v => Sys2Proof.Machine.execXbErrInfoClear master v s
  | .randomSourceHealthTest pass => Sys2Proof.Machine.execRandomSourceHealthTest pass s
  | .testPortInstruction instr data => Sys2Proof.Machine.execTestPortInstruction instr data s

end Sys2Proof.Machine
end

