-- ==== Sys2Proof/Machine/Step.lean ====
section
/-! DEFINITION. One step: the command at the front of the queue, or a counter period when none waits. -/

namespace Sys2Proof.Machine

/-- One step (log entry 1): take the command at the front of the queue and run it on the state with the queue's rest; with no command waiting,
chip time runs on by one period of its counter. -/
def step (s : State) : Host.Outcome State Fault Refusal :=
  match s.pending with
  | [] => .next s.idle
  | c :: t => exec c { s with pending := t }

/-- The state with the command that a table word spells put at the front of its queue. No word spells a command. -/
def State.withFetchWord (s : State) (nbits w : Nat) : State :=
  match decodeTableWord nbits w with
  | none => s
  | some c => { s with pending := c :: s.pending }

end Sys2Proof.Machine
end

