-- ==== Sys2Proof/Safety.lean ====
section
/-! DEFINITION. What statements about the whole block speak of: the parts of its state, what a command leaves unchanged, and the invariants. -/

namespace Sys2Proof.Machine

/-- The parts of the state, the queue apart. The correctable-error list, which a corrected read anywhere may lengthen (14 R307), is a part beside the memory. -/
inductive Part where
  | tb
  | log
  | sess
  | od
  | acc
  | ports
  | cls
  | store
  | rep
  | link
  | fab
  | sw
  | eng
  | pods
  | net
  | xbar
  | mem
  | cel
  | side
  | pst
  | pwr
  | test
  | out
  | free
  deriving DecidableEq, Repr

/-- A part has the same value in two states. -/
@[reducible] def Part.same (p : Part) (s t : State) : Prop :=
  match p with
  | .tb => t.tb = s.tb
  | .log => t.log = s.log
  | .sess => t.sess = s.sess
  | .od => t.od = s.od
  | .acc => t.acc = s.acc
  | .ports => t.ports = s.ports
  | .cls => t.cls = s.cls
  | .store => t.store = s.store
  | .rep => t.rep = s.rep
  | .link => t.link = s.link
  | .fab => t.fab = s.fab
  | .sw => t.sw = s.sw
  | .eng => t.eng = s.eng
  | .pods => t.pods = s.pods
  | .net => t.net = s.net
  | .xbar => t.xbar = s.xbar
  | .mem => { t.mem with cel := [] } = { s.mem with cel := [] }
  | .cel => t.mem.cel = s.mem.cel
  | .side => t.side = s.side
  | .pst => t.pst = s.pst
  | .pwr => t.pwr = s.pwr
  | .test => t.test = s.test
  | .out => t.out = s.out
  | .free => t.free = s.free

/-- Everything but the test port: what a command may change that can end in a reset. -/
abbrev Part.chip : List Part :=
  [.tb, .log, .sess, .od, .acc, .ports, .cls, .store, .rep, .link, .fab, .sw, .eng, .pods, .net, .xbar, .mem, .cel, .side, .pst, .pwr, .out, .free]

/-- The same of an operation that sends nothing. -/
abbrev Part.core : List Part :=
  [.tb, .log, .sess, .od, .acc, .ports, .cls, .store, .rep, .link, .fab, .sw, .eng, .pods, .net, .xbar, .mem, .cel, .side, .pst, .pwr, .free]

/-- What a log entry may change: the log, and, as a health record, the session store and the link with their counters (18 R407, R409, 07 R135). -/
abbrev Part.logging : List Part := [.log, .od, .store, .link, .side, .free]

/-- Every part but the listed ones has the same value in two states. -/
def SameBut (l : List Part) (s t : State) : Prop := ∀ p, p ∉ l → p.same s t

/-- The live rows of the event log are at most 8,192 and bear consecutive SEQs that end just before the next one (18 R407). -/
def EventLog.wf (l : EventLog) : Prop :=
  l.rows.length ≤ 8192 ∧ ∀ i (h : i < l.rows.length), (l.rows[i]).seq = l.next - BitVec.ofNat 16 (l.rows.length - i)

/-- What every state of a run has: the byte memory in its canonical form, the event log in order. -/
def Inv (s : State) : Prop := s.mem.wf = true ∧ s.log.wf

/-! Engines. -/

/-- What an engine holds that changes only by a write or by the result of ALU0, ALU1 or SHF: registers, latches, settings, guards, and those
results with the ALUs' flags. -/
structure Held where
  ga : Tab W24
  gb : Tab W24
  lx : Tab L48
  alu0 : L48 × L48 × L48 × BitVec 5
  alu1 : L48 × L48 × L48 × BitVec 5
  macO : W24
  shf : Shf
  chkO : W24
  chkPoly : BitVec 32
  chkCfg : Nat
  divO : L48
  lsu0O : L48
  lsu1O : L48
  rsel : BitVec 3
  desc : Tab Desc
  ctlO : L48
  gd : BitVec 3
  link : BitVec 11
  tsp : BitVec 18
  vbase : BitVec 11
  cause : BitVec 16
  guards : Byte
  rptO : BitVec 11
  smvPat : W24
  spuO : W24
  rbase : Nat
  rsize : Nat
  deriving DecidableEq, Repr

/-- O1, O2, Q and FLG of an ALU. -/
def Alu.view (a : Alu) : L48 × L48 × L48 × BitVec 5 := (a.o1, a.o2, a.q, a.flg)

/-- What an engine holds. -/
def Engine.held (x : Engine) : Held where
  ga := x.ga
  gb := x.gb
  lx := x.lx
  alu0 := x.alu0.view
  alu1 := x.alu1.view
  macO := x.mac.o
  shf := x.shf
  chkO := x.chk.o
  chkPoly := x.chk.poly
  chkCfg := x.chk.cfg
  divO := x.div.o
  lsu0O := x.lsu0.o
  lsu1O := x.lsu1.o
  rsel := x.lsu1.rsel
  desc := x.lsu1.desc
  ctlO := x.ctl.o
  gd := x.ctl.gd
  link := x.ctl.link
  tsp := x.ctl.tsp
  vbase := x.ctl.vbase
  cause := x.ctl.cause
  guards := x.ctl.guards
  rptO := x.rpt.o
  smvPat := x.smv.pat
  spuO := x.spu.o
  rbase := x.spu.rbase
  rsize := x.spu.rsize

/-- No step of a string operation is due in the engine's next cycle: none runs, its entries still drain, or the step was made (11 R244). -/
def Smv.still (x : Smv) : Bool := !x.act || x.wait != 0 || x.bad || x.seen.isSome

/-- Whatever else an engine holds, a bundle that it fetches through the window in force brings no memory error and no other effect (08 R162). -/
def State.fetchesQuietly (s : State) (e : Nat) : Prop :=
  ∀ (y : Engine) (n : Nat), y.fbase = (s.engine e).fbase → n < 2048 → ((s.setEngine e y).fetch e n).1 = s.setEngine e y

/-- The engine issues a bundle in its next cycle, no string step is due first, and it fetches on without a memory error. -/
def State.issues (s : State) (e : Nat) : Prop := s.ready e = true ∧ (s.engine e).smv.still = true ∧ s.fetchesQuietly e

/-- Nothing but one engine has changed. -/
def OnlyEngine (e : Nat) (s t : State) : Prop := SameBut [.eng] s t ∧ ∀ j, j ≠ e → t.engine j = s.engine j

/-- O1, O2, Q and FLG of an ALU after an operation on a trigger value (10 R204, R207). -/
def aluAfter (v : L48 × L48 × L48 × BitVec 5) (op : AluOp) (long sat : Bool) (a : L48) : L48 × L48 × L48 × BitVec 5 :=
  let w := if long then 48 else 24
  let x := a.toNat % 2 ^ w
  let y := v.2.1.toNat % 2 ^ w
  (a, v.2.1, showResult w (op.result w sat x y (flgC v.2.2.2)), op.flags w sat x y v.2.2.2)

/-- The command answers a next state in which one ALU of an engine shows the operation done, and all else that the engine holds is as before. -/
def AluDoes (s : State) (e : EngN) (u long : Bool) (a : L48) (op : AluOp) (c : Instr) : Prop :=
  let h := (s.engine e.val).held
  let sat := (s.engine e.val).ctl.mode.getLsbD 0
  ∃ t, exec c s = .next t ∧ OnlyEngine e.val s t ∧
    (t.engine e.val).held = if u then { h with alu1 := aluAfter h.alu1 op long sat a } else { h with alu0 := aluAfter h.alu0 op long sat a }

/-- The command answers a next state that differs in one engine only, which then holds `h` and satisfies `p`. -/
def EngineDoes (s : State) (e : EngN) (c : Instr) (h : Held) (p : Engine → Prop) : Prop :=
  ∃ t, exec c s = .next t ∧ OnlyEngine e.val s t ∧ (t.engine e.val).held = h ∧ p (t.engine e.val)

/-- The bytes a memory keeps from a home address on. -/
def Memory.bytes (m : Memory) (a n : Nat) : List Byte := (List.range n).map fun i => (m.byte (a + i)).getD 0

/-- No byte from a home address on bears an inverted bit. -/
def Memory.sound (m : Memory) (a n : Nat) : Bool := (List.range n).all fun i => m.bad.get 0 (a + i) = 0

/-- A memory holds some bytes from a home address on and is otherwise as it was. -/
def Memory.Holds (m k : Memory) (a : Nat) (l : List Byte) : Prop :=
  ∀ b, k.byte b = if a ≤ b ∧ b < a + l.length then some (l.getD (b - a) 0) else m.byte b

/-! What each command can change. -/

/-- The parts of the state that a command can change. -/
def touches : Instr → List Part
  | .tickWrap .. => [.tb, .ports, .store, .free]
  | .calibration => [.tb, .pst]
  | .sourceSelection => [.tb, .log, .od, .ports, .cls, .store, .link, .fab, .sw, .pods, .mem, .cel, .side, .pst, .pwr, .free]
  | .sourceQualified .. => [.tb]
  | .sourceLost .. => [.tb, .log, .od, .ports, .cls, .store, .link, .fab, .sw, .pods, .mem, .cel, .side, .pst, .pwr, .free]
  | .ppsPulse .. => [.tb, .log, .od, .store, .link, .side, .free]
  | .gptpMessage .. => [.tb, .log, .od, .ports, .cls, .store, .rep, .link, .fab, .net, .cel, .side, .out, .free]
  | .commitShadowMapping .. => [.tb, .log, .od, .acc, .store, .rep, .link, .fab, .side, .out, .free]
  | .utcOffsetWrite .. => [.log, .od, .acc, .store, .rep, .link, .fab, .side, .out, .free]
  | .chipTimeSnapshotRead .. => [.log, .od, .acc, .store, .rep, .link, .fab, .side, .out, .free]
  | .snapshotTickRead .. => [.log, .od, .acc, .store, .rep, .link, .fab, .side, .out, .free]
  | .canFrameReceived .. => [.tb, .log, .od, .ports, .cls, .store, .rep, .link, .fab, .net, .cel, .side, .out, .free]
  | .canBusEvent .. => [.tb, .log, .od, .ports, .cls, .store, .rep, .link, .fab, .net, .cel, .side, .out, .free]
  | .busOffRecovery .. => [.tb, .log, .od, .ports, .cls, .store, .rep, .link, .fab, .net, .cel, .side, .out, .free]
  | .ethernetFrameReceived .. => [.tb, .log, .od, .ports, .cls, .store, .rep, .link, .fab, .net, .cel, .side, .out, .free]
  | .ethLinkUp .. => [.log, .od, .ports, .cls, .store, .rep, .link, .fab, .net, .side, .out, .free]
  | .ethLinkDown .. => [.log, .od, .ports, .cls, .store, .rep, .link, .fab, .net, .side, .out, .free]
  | .sentFrameReceived .. => [.tb, .log, .od, .ports, .cls, .store, .rep, .link, .fab, .net, .cel, .side, .out, .free]
  | .psi5FrameReceived .. => [.tb, .log, .od, .ports, .cls, .store, .rep, .link, .fab, .net, .cel, .side, .out, .free]
  | .linFrameReceived .. => [.tb, .log, .od, .ports, .cls, .store, .rep, .link, .fab, .net, .cel, .side, .out, .free]
  | .edgeLevelAccepted .. => [.tb, .log, .od, .ports, .cls, .store, .rep, .link, .fab, .net, .cel, .side, .out, .free]
  | .pwmMeasurement .. => [.tb, .log, .od, .ports, .cls, .store, .rep, .link, .fab, .net, .cel, .side, .out, .free]
  | .samplePortFrame .. => [.tb, .log, .od, .ports, .cls, .store, .rep, .link, .fab, .net, .cel, .side, .out, .free]
  | .classifyFrame .. => Part.core
  | .siftFrame => [.log, .od, .cls, .store, .link, .fab, .pods, .cel, .side, .out, .free]
  | .commitShadowTables .. => [.log, .od, .acc, .cls, .store, .rep, .link, .fab, .side, .out, .free]
  | .tableCheckComplete => [.log, .od, .acc, .cls, .store, .rep, .link, .fab, .cel, .side, .out, .free]
  | .copyActiveToShadow .. => [.log, .od, .acc, .cls, .store, .rep, .link, .fab, .side, .out, .free]
  | .tableCopyComplete => Part.core
  | .tableWindowWrite .. => [.log, .od, .acc, .cls, .store, .rep, .link, .fab, .side, .out, .free]
  | .blockClose .. => [.store, .free]
  | .blockAgeExpiry .. => [.tb, .store, .free]
  | .outputLaneWrapTimeout .. => [.tb, .store, .free]
  | .segmentAgeExpiry => [.tb, .store, .free]
  | .signatureTimeDue => [.tb, .store, .free]
  | .segmentHashComplete => [.log, .od, .ports, .store, .link, .side, .out, .free]
  | .nvmeCommandComplete .. => [.tb, .log, .sess, .od, .ports, .cls, .store, .rep, .link, .fab, .sw, .pods, .mem, .cel, .side, .pst, .pwr, .out, .free]
  | .flushIntervalExpiry => [.tb, .store, .out]
  | .nvmeHealthPoll .. => [.log, .od, .store, .link, .side, .out, .free]
  | .nvmeCommandTimeout .. => [.tb, .log, .sess, .od, .ports, .cls, .store, .rep, .link, .fab, .sw, .pods, .mem, .cel, .side, .pst, .pwr, .out, .free]
  | .controllerResetComplete .. => [.tb, .log, .sess, .od, .ports, .cls, .store, .rep, .link, .fab, .sw, .pods, .mem, .cel, .side, .pst, .pwr, .out, .free]
  | .ssdBringupRetry .. => [.log, .od, .store, .link, .side, .out, .free]
  | .feedEmitEntry .. => [.log, .od, .store, .rep, .link, .pods, .side, .out, .free]
  | .emitCountReached .. => [.tb, .log, .od, .store, .rep, .link, .cel, .side, .out, .free]
  | .holdResume => [.tb, .log, .od, .store, .rep, .link, .side, .free]
  | .canBusIdleTx .. => [.log, .od, .store, .rep, .link, .side, .out, .free]
  | .frameTransmitted .. => [.tb, .log, .od, .ports, .cls, .store, .rep, .link, .fab, .net, .cel, .side, .out, .free]
  | .linkBlockAgeExpiry .. => [.tb, .log, .od, .store, .link, .side, .free]
  | .linkFrameSend .. => [.tb, .od, .link, .out]
  | .linkRecordShed .. => [.tb, .od, .link]
  | .codeGroupTimeout => [.tb, .link]
  | .helloTimer => [.tb, .link, .out, .free]
  | .linkHelloReceived .. => [.log, .od, .store, .link, .side, .out, .free]
  | .linkAnswerReceived .. => Part.logging
  | .rekeyIntervalExpiry => [.tb, .link]
  | .oldKeyExpiry => [.tb, .link]
  | .reportIntervalExpiry .. => [.tb, .link, .out]
  | .linkReportReceived .. => [.log, .od, .store, .link, .side, .out, .free]
  | .pathReportTimeout .. => [.tb, .log, .od, .store, .link, .side, .free]
  | .nakTimer .. => [.tb, .link, .out]
  | .linkNakReceived .. => [.log, .od, .store, .link, .side, .out, .free]
  | .linkDataFrameReceived .. => [.log, .od, .store, .rep, .link, .side, .out, .free]
  | .recordRelease => [.tb, .log, .od, .store, .rep, .link, .side, .free]
  | .linkCloseReceived .. => [.log, .od, .store, .link, .side, .out, .free]
  | .pathCloseExpiry .. => [.tb, .log, .od, .store, .link, .side, .free]
  | .engineMove .. => Part.chip
  | .ctlModeWrite .. => Part.chip
  | .ctlDoorWrite .. => Part.chip
  | .chkCfgWrite .. => Part.chip
  | .chainedStateWrite .. => Part.chip
  | .rptCountWrite .. => Part.chip
  | .rptBoundsWrite .. => Part.chip
  | .smvPortWrite .. => Part.chip
  | .spuRingWrite .. => Part.chip
  | .spuPredWrite .. => Part.chip
  | .aluAdd .. => Part.chip
  | .aluAddc .. => Part.chip
  | .aluSub .. => Part.chip
  | .aluSubb .. => Part.chip
  | .aluNeg .. => Part.chip
  | .aluAbs .. => Part.chip
  | .aluAnd .. => Part.chip
  | .aluOr .. => Part.chip
  | .aluXor .. => Part.chip
  | .aluAndn .. => Part.chip
  | .aluNot .. => Part.chip
  | .aluMin .. => Part.chip
  | .aluMax .. => Part.chip
  | .aluMinu .. => Part.chip
  | .aluMaxu .. => Part.chip
  | .aluPass .. => Part.chip
  | .macMul .. => Part.chip
  | .macMulu .. => Part.chip
  | .macMac .. => Part.chip
  | .macMacu .. => Part.chip
  | .macMsu .. => Part.chip
  | .macMsuu .. => Part.chip
  | .macClr .. => Part.chip
  | .macRd .. => Part.chip
  | .shfShl .. => Part.chip
  | .shfShr .. => Part.chip
  | .shfSar .. => Part.chip
  | .shfRol .. => Part.chip
  | .shfRor .. => Part.chip
  | .shfExt .. => Part.chip
  | .shfExts .. => Part.chip
  | .shfIns .. => Part.chip
  | .chkStep8 .. => Part.chip
  | .chkStep16 .. => Part.chip
  | .chkStep24 .. => Part.chip
  | .chkPar .. => Part.chip
  | .chkParb .. => Part.chip
  | .chkRev .. => Part.chip
  | .chkRevb .. => Part.chip
  | .chkRevn .. => Part.chip
  | .chkPop .. => Part.chip
  | .chkClz .. => Part.chip
  | .divDiv .. => Part.chip
  | .divDivu .. => Part.chip
  | .lsu0LdB .. => Part.chip
  | .lsu0LdBu .. => Part.chip
  | .lsu0LdW .. => Part.chip
  | .lsu0LdL .. => Part.chip
  | .lsu0StB .. => Part.chip
  | .lsu0StW .. => Part.chip
  | .lsu0StL .. => Part.chip
  | .lsu1LdB .. => Part.chip
  | .lsu1LdBu .. => Part.chip
  | .lsu1LdW .. => Part.chip
  | .lsu1LdL .. => Part.chip
  | .lsu1StB .. => Part.chip
  | .lsu1StW .. => Part.chip
  | .lsu1StL .. => Part.chip
  | .lsu1RequestGranted .. => Part.chip
  | .lsu1DataReturn .. => Part.core
  | .storeBufferDrain .. => Part.core
  | .ctlJmp .. => Part.chip
  | .ctlCall .. => Part.chip
  | .ctlRet .. => Part.chip
  | .ctlTrap .. => Part.chip
  | .ctlRfe .. => Part.chip
  | .ctlCmpEq .. => Part.chip
  | .ctlCmpNe .. => Part.chip
  | .ctlCmpLt .. => Part.chip
  | .ctlCmpLe .. => Part.chip
  | .ctlCmpLtu .. => Part.chip
  | .ctlCmpLeu .. => Part.chip
  | .ctlCmpBit .. => Part.chip
  | .rptRep .. => Part.chip
  | .rptExit .. => Part.chip
  | .smvCopy .. => Part.chip
  | .smvFill .. => Part.chip
  | .smvCmp .. => Part.chip
  | .smvScan .. => Part.chip
  | .smvStep .. => Part.chip
  | .tsuNow .. => Part.chip
  | .tsuEp .. => Part.chip
  | .tsuWait .. => Part.chip
  | .waitTargetDue .. => [.tb]
  | .spuIn .. => Part.chip
  | .spuPoll .. => Part.chip
  | .spuOut .. => Part.chip
  | .spuEmit .. => Part.chip
  | .outputQueueHandoff .. => [.log, .od, .store, .rep, .link, .eng, .net, .cel, .side, .free]
  | .routerAccept .. => [.od, .pods, .net, .side]
  | .routerPublish .. => [.od, .eng, .pods, .mem, .cel, .side, .free]
  | .podClockStep .. => [.pods, .pwr]
  | .exceptionEntry .. => Part.chip
  | .tsbSave .. => Part.chip
  | .tsbRestore .. => Part.chip
  | .engIrqWrite .. => Part.chip
  | .engExcResume .. => Part.chip
  | .pccErstWrite .. => Part.chip
  | .podReset .. => [.log, .od, .store, .link, .eng, .pods, .xbar, .mem, .cel, .side, .free]
  | .xbarGrant .. => Part.chip
  | .xbarStarvation .. => [.log, .od, .store, .link, .xbar, .side, .free]
  | .transferStarvation .. => [.log, .od, .store, .link, .xbar, .side, .free]
  | .xbMapWrite .. => Part.chip
  | .xbRgnWrite .. => Part.chip
  | .xbArbitrationWrite .. => Part.chip
  | .grnInjArm .. => Part.chip
  | .grinderVisit .. => Part.core
  | .grinderWriteback => [.mem, .cel, .side]
  | .repairRecordWrite => [.tb, .mem, .cel]
  | .pstFbaseWrite .. => Part.chip
  | .watchdogKick .. => Part.chip
  | .watchdogExpiry .. => Part.core
  | .doorbellService .. => [.log, .od, .store, .link, .eng, .pods, .xbar, .mem, .cel, .side, .pst, .free]
  | .rehomeChannels .. => Part.core
  | .sensorSample .. => [.tb, .log, .od, .store, .link, .pods, .side, .pst, .pwr, .free]
  | .coreBrownout => Part.core
  | .refclkLoss => Part.core
  | .thermalTrip => [.tb, .log, .sess, .od, .acc, .ports, .cls, .store, .rep, .link, .fab, .sw, .eng, .pods, .net, .xbar, .mem, .cel, .side, .pst, .pwr, .test, .free]
  | .thermalTripRelease => Part.core
  | .pmbusAlert .. => [.log, .od, .store, .link, .side, .out, .free]
  | .signalDetect .. => [.log, .od, .store, .link, .fab, .side, .out, .free]
  | .trainingTimeout .. => [.log, .od, .store, .link, .fab, .side, .out, .free]
  | .flitSilenceTimeout .. => [.log, .od, .store, .link, .fab, .side, .out, .free]
  | .laneLockLoss .. => [.log, .od, .store, .link, .fab, .side, .out, .free]
  | .helloFlitReceived .. => [.log, .od, .store, .link, .fab, .side, .out, .free]
  | .fabricHelloTimer => [.fab, .out]
  | .nakFlitReceived .. => [.log, .od, .store, .link, .fab, .side, .out, .free]
  | .retryTimeout .. => [.log, .od, .store, .link, .fab, .side, .out, .free]
  | .quarantineExpiry .. => [.log, .od, .store, .link, .fab, .side, .out, .free]
  | .loopedRetrainTimer .. => [.log, .od, .store, .link, .fab, .side, .out, .free]
  | .nodeIdTimer => [.log, .od, .store, .link, .fab, .side, .free]
  | .routeAdvertReceived .. => [.log, .od, .store, .link, .fab, .side, .out, .free]
  | .routeAdvertTimer => [.fab, .out]
  | .advertAgeExpiry .. => [.tb, .fab]
  | .routeRecompute => [.od, .fab, .out]
  | .masterDisplacement => [.fab]
  | .timeReqTimer => [.fab, .out]
  | .timeReqReceived .. => [.tb, .log, .od, .store, .link, .fab, .side, .out, .free]
  | .timeRespReceived .. => [.tb, .log, .od, .ports, .cls, .store, .link, .fab, .sw, .pods, .mem, .cel, .side, .pst, .pwr, .out, .free]
  | .mgmtRequestReceived .. => Part.chip
  | .mgmtAnswerReceived .. => [.log, .od, .acc, .store, .rep, .link, .fab, .side, .out, .free]
  | .mgmtRequestTimeout .. => [.log, .od, .acc, .store, .rep, .link, .fab, .side, .out, .free]
  | .dataFlitReceived .. => [.log, .od, .cls, .store, .link, .fab, .pods, .side, .out, .free]
  | .prepareReceived .. => [.log, .od, .store, .link, .fab, .sw, .side, .out, .free]
  | .readyReceived .. => [.log, .od, .store, .link, .fab, .sw, .side, .out, .free]
  | .outcomeReceived .. => [.log, .od, .store, .link, .fab, .sw, .side, .out, .free]
  | .outcomeTimeout => [.tb, .log, .od, .store, .link, .sw, .side, .free]
  | .usdoRequest .. => Part.chip
  | .usdoSegmentTimeout => [.log, .od, .acc, .store, .rep, .link, .fab, .side, .out, .free]
  | .mbxGo .. => Part.chip
  | .objectWrite .. => Part.chip
  | .arm .. => [.log, .sess, .od, .acc, .store, .rep, .link, .fab, .eng, .pods, .xbar, .mem, .cel, .side, .pwr, .out, .free]
  | .start .. => [.log, .sess, .od, .acc, .ports, .cls, .store, .rep, .link, .fab, .eng, .pods, .net, .mem, .cel, .side, .pst, .pwr, .out, .free]
  | .stop .. => [.tb, .log, .sess, .od, .acc, .ports, .cls, .store, .rep, .link, .fab, .sw, .pods, .net, .mem, .cel, .side, .pst, .pwr, .out, .free]
  | .disarm .. => [.tb, .log, .sess, .od, .acc, .ports, .cls, .store, .rep, .link, .fab, .sw, .pods, .mem, .cel, .side, .pst, .pwr, .out, .free]
  | .mark .. => [.log, .sess, .od, .acc, .store, .rep, .link, .fab, .side, .out, .free]
  | .switchProfile .. => [.log, .sess, .od, .acc, .store, .rep, .link, .fab, .sw, .side, .out, .free]
  | .power .. => [.tb, .log, .sess, .od, .acc, .ports, .cls, .store, .rep, .link, .fab, .sw, .eng, .pods, .net, .xbar, .mem, .cel, .side, .pst, .pwr, .test, .out, .free]
  | .unitPrepared .. => [.log, .od, .cls, .store, .link, .fab, .sw, .side, .out, .free]
  | .profileCommitTick => [.tb, .log, .od, .acc, .ports, .cls, .store, .rep, .link, .fab, .sw, .eng, .pods, .net, .xbar, .mem, .cel, .side, .pwr, .out, .free]
  | .profileRevertTick => [.tb, .log, .od, .acc, .ports, .cls, .store, .rep, .link, .fab, .sw, .eng, .pods, .net, .xbar, .mem, .cel, .side, .pwr, .out, .free]
  | .profileSave .. => Part.chip
  | .flashWriteComplete => [.acc, .rep, .fab, .sw, .pst, .out, .free]
  | .eventLogRead .. => [.log, .od, .acc, .store, .rep, .link, .fab, .cel, .side, .out, .free]
  | .firmwareImageWrite .. => [.log, .od, .acc, .store, .rep, .link, .fab, .side, .pst, .out, .free]
  | .updateCheck .. => [.log, .od, .acc, .store, .rep, .link, .fab, .side, .pst, .out, .free]
  | .updateActivate .. => [.log, .od, .acc, .store, .rep, .link, .fab, .side, .pst, .out, .free]
  | .updateConfirm .. => [.log, .od, .acc, .store, .rep, .link, .fab, .side, .pst, .out, .free]
  | .updateAbandon .. => [.log, .od, .acc, .store, .rep, .link, .fab, .side, .pst, .out, .free]
  | .updateResetTimer => Part.core
  | .podImageWrite .. => [.log, .od, .acc, .store, .rep, .link, .fab, .side, .pst, .out, .free]
  | .podImageDelete .. => [.log, .od, .acc, .store, .rep, .link, .fab, .side, .pst, .out, .free]
  | .imageKeyFuse .. => [.log, .od, .acc, .store, .rep, .link, .fab, .side, .pst, .out, .free]
  | .memoryTestEnableWrite .. => [.log, .od, .acc, .store, .rep, .link, .fab, .mem, .cel, .side, .out, .free]
  | .quiescenceReached .. => [.tb, .log, .sess, .od, .acc, .ports, .cls, .store, .rep, .link, .fab, .sw, .eng, .pods, .net, .xbar, .mem, .cel, .side, .pst, .pwr, .test, .out, .free]
  | .quiescenceTimeout => [.log, .od, .acc, .store, .rep, .link, .fab, .eng, .pods, .xbar, .mem, .cel, .side, .pwr, .out, .free]
  | .wakeEdge .. => [.log, .od, .acc, .store, .rep, .link, .fab, .eng, .pods, .mem, .cel, .side, .pwr, .out, .free]
  | .wakeQualified .. => [.pwr]
  | .huskFrameCapture .. => [.tb, .log, .od, .cls, .store, .link, .side, .pwr, .free]
  | .wakeComplete => Part.chip
  | .ssdReadyTimeout .. => [.tb, .log, .sess, .od, .ports, .cls, .store, .rep, .link, .fab, .sw, .pods, .mem, .cel, .side, .pst, .pwr, .out, .free]
  | .railEnableTimeout .. => [.log, .od, .store, .link, .mem, .cel, .side, .pwr, .free]
  | .railRetryTimer => [.pwr]
  | .powerOnReset => [.tb, .log, .sess, .od, .acc, .ports, .cls, .store, .rep, .link, .fab, .sw, .eng, .pods, .net, .xbar, .mem, .cel, .side, .pst, .pwr, .test]
  | .coldReset .. => [.tb, .log, .sess, .od, .acc, .ports, .cls, .store, .rep, .link, .fab, .sw, .eng, .pods, .net, .xbar, .mem, .cel, .side, .pst, .pwr]
  | .chipWarmReset .. => Part.core
  | .resetRelease .. => Part.chip
  | .jtagDebugAccess .. => Part.chip
  | .armComplete => [.sess, .acc, .rep, .fab, .out, .free]
  | .heartbeatProducerTimer => [.rep]
  | .arpNdFrameReceived .. => [.link, .out]
  | .gptpSyncTimer .. => [.out]
  | .flitCheckFailed .. => [.log, .od, .store, .link, .fab, .side, .out, .free]
  | .idleFlitReceived .. => [.log, .od, .store, .link, .fab, .side, .out, .free]
  | .referenceClockReturn => [.tb, .pwr]
  | .crystalRunning => [.pwr]
  | .railInWindow .. => [.pwr]
  | .wakeQualificationFailed .. => [.pwr]
  | .xbErrInfoClear .. => Part.chip
  | .randomSourceHealthTest .. => [.log, .od, .store, .link, .side, .pst, .free]
  | .testPortInstruction .. => [.test, .out, .free]

/-! Capture and logging. -/

/-- A port takes a record now without reporting drops: within its rate limit, staging open, its receive buffer sound, nothing unreported, no frame cut by a
wrap (03 R66, R67, 05 R101). -/
def State.takes (s : State) (p : Nat) : Bool :=
  let q := s.port p
  decide (q.debt ≤ 63 * ratePeriod p) && q.lost0 = 0 && q.lost1 = 0 && !q.inFrame && !s.stagingFull && (s.bufferFail p).isNone

/-- FLAGS of a record of a pin timestamp, with UNCAL before the first calibration (02 R32). -/
def State.pinFlags (s : State) (flags : Nat) : Nat := flags + bit01 (!s.tb.cal)

/-- A raw record of a port under a generation stands behind those for the classifier, unless it is a bus event or notice, and last in the open block of the
port's raw lane while frames are recorded (01 R16, 04 R74, 05 R95). -/
def Recorded (s t : State) (p gen : Nat) (edge : Int) (kind aux flags ident : Nat) (payload : List Byte) : Prop :=
  let r := rawRecord edge p kind gen aux flags ident payload
  (kind ≠ 5 → kind ≠ 13 → t.cls.inq = s.cls.inq ++ [⟨p, edge, r⟩]) ∧
  (s.recording = true → ∃ b, (t.lane (256 + p)).block = some b ∧ b.recs.getLast? = some r)

/-- A notice of a port, raised now (03 R51, R70). -/
def Noticed (s t : State) (p aux : Nat) (payload : List Byte) : Prop :=
  Recorded s t p (s.genAt (portUnit p) s.now) s.now 13 aux 0 0 payload

/-- The last entry of the event log is one of a kind, object and value (18 R407), where no link takes copies of entries. -/
def Logged (s t : State) (kind idx sub val : Nat) : Prop :=
  s.linkCar = false → ∃ r, t.log.rows.getLast? = some r ∧ r.kind = BitVec.ofNat 8 kind ∧ r.refIdx = BitVec.ofNat 16 idx ∧
    r.refSub = BitVec.ofNat 8 sub ∧ r.value = BitVec.ofNat 24 val

/-- A frame reaches its end of the link on an open path of a session and is well formed (07 R138, R150). -/
def State.linkHears (s : State) (p : Nat) (f : LinkFrame) : Bool :=
  s.link.role.isSome && s.inSession && s.linkPaths.contains p && !(s.lpath p).closed && frameOk f

/-- A flit of a type that a port handles: no violation, and nothing of the port's own waits for a credit (16 R344, R346). -/
def State.flitTaken (s : State) (k : Nat) (f : Flit) (type : BitVec 4) : Bool :=
  s.fabHears k && f.type = type && (s.violation k f).isNone && (s.fport k).txq.isEmpty

/-- The same of a sequenced flit that is the next one expected (16 R345). -/
def State.flitNext (s : State) (k : Nat) (f : Flit) (type : BitVec 4) : Bool :=
  s.flitTaken k f type && serial 8 (s.fport k).rxNext.toNat f.seq.toNat = .equal

/-- A flit of a type for some payload left through a fabric port, as its 64 bytes (16 R342). -/
def SentFlit (t : State) (k : Nat) (type : BitVec 4) (p : List Byte → Prop) : Prop :=
  ∃ g, Output.flit k g (flitBytes g) ∈ t.out ∧ g.type = type ∧ p g.payload

/-! Resets and power. -/

/-- What lasts through every reset and power state: flash with its write counts, the fuses' key and counter, what the SSDs' slots hold, the session counter (18 R399, R403,
R411, 19 R437). -/
def Lasting (s t : State) : Prop :=
  t.pst.images = s.pst.images ∧ t.pst.keyHash = s.pst.keyHash ∧ t.pst.rollback = s.pst.rollback ∧ t.pst.slotA = s.pst.slotA ∧ t.pst.slotB = s.pst.slotB ∧
  t.pst.activeB = s.pst.activeB ∧ t.sw.slots = s.sw.slots ∧ t.mem.recA = s.mem.recA ∧ t.mem.recB = s.mem.recB ∧ t.sess.counter = s.sess.counter ∧
  t.pst.writes = s.pst.writes ∧ t.store.ssd0.slots = s.store.ssd0.slots ∧ t.store.ssd1.slots = s.store.ssd1.slots

/-- A state is the one after a chip warm reset with a cause: the core held, the session over, engines cleared, chip time and its TAI mapping kept, DRAM
kept, the cause in the retention registers and in the event log (19 R437, 18 R406). -/
def WarmAfter (s t : State) (cause : Nat) : Prop :=
  Lasting s t ∧ t.pwr.boot = .held ∧ t.pwr.resetCause.val = cause ∧ t.pwr.resetDomain = 2 ∧ t.pwr.resetSeq = s.log.next ∧ t.sess.st = .idle ∧ t.eng = [] ∧
  t.now = s.now ∧ t.tb.map = s.tb.map ∧ t.tb.validity = s.tb.validity ∧ (∀ a, inDram a = true → t.mem.byte a = s.mem.byte a) ∧
  t.log.next = s.log.next + 1 ∧ ∃ r, t.log.rows.getLast? = some r ∧ r.seq = s.log.next ∧ r.kind = 3 ∧ r.refIdx = 0x2901 ∧ r.refSub = 1 ∧
    r.value = BitVec.ofNat 24 (2 * 65536 + cause)

/-- What the retention record takes at the entry to a state below RUN, in the fields that say where the session and the profile stood (19 R427). -/
def Retained (s t : State) : Prop :=
  ∃ r, t.pwr.retention = some r ∧ r.st = s.sess.st ∧ r.acts = s.sess.acts ∧ r.slot = s.sw.slot ∧ r.gen = s.sw.gen ∧ r.map = s.tb.map ∧
    r.validity = s.tb.validity ∧ r.newest = s.store.newest ∧ r.issued = s.sw.issued

/-- Every bank of its pod's PMEM has served an engine last, and nothing else of the pods has changed; a Pestle engine has no pod (08 R174). -/
def State.banksServed (s t : State) (e : Nat) : Prop :=
  (∀ j, e < 1024 → j ≠ e / 32 → t.pod j = s.pod j) ∧ (1024 ≤ e → t.pods = s.pods) ∧
  (e < 1024 → t.pod (e / 32) = { s.pod (e / 32) with served := (t.pod (e / 32)).served } ∧ ∀ b < 16, (t.pod (e / 32)).served.find b = some (e % 32))

/-- The object is a counter of four bytes: it rises by one and holds at its maximum. -/
def Counted (s t : State) (idx sub : Nat) : Prop := t.cfg idx sub = min (2 ^ 32 - 1) (s.cfg idx sub + 1)

/-- Objects whose write has an action of its own, apart from the table windows. -/
def actingObjects : List (Nat × Nat) :=
  [(0x2010, 1), (0x2101, 1), (0x2210, 6), (0x2210, 8), (0x2300, 1), (0x2300, 2), (0x2800, 3), (0x2911, 1), (0x2912, 1), (0x2912, 3), (0x2913, 1),
    (0x2913, 3), (0x2930, 2), (0x2940, 8)]

/-- A closed segment of a sequence number is the last one whose hash is awaited; the next one is open to be started under the next number. -/
def SegClosed (s t : State) (signed : Bool) : Prop :=
  ∃ g, t.store.hashing = s.store.hashing ++ [g] ∧ g.seq = s.store.nextSeq ∧ g.hasSig = signed ∧ g.last = false ∧ t.store.seg = none ∧
    t.store.nextSeq = s.store.nextSeq + 1 ∧ t.store.prevHash = sha384 g.bytes

/-- A reset of its pod has cleared an engine: nothing stays but the stores of its LSU1 that leave the pod, whose outcome is nobody's now; one of them that was
on its way while the engine ran is still there (08 R157, 18 R416). -/
def EngineCleared (s t : State) (e : Nat) : Prop :=
  t.engine e = { lsu1 := { fl := (t.engine e).lsu1.fl } } ∧ (∀ f ∈ (t.engine e).lsu1.fl, inPmem (e / 32) f.addr.toNat = false) ∧
  ((s.pod (e / 32)).erst.getLsbD (e % 32) = false → ∀ f ∈ (s.engine e).lsu1.fl, f.load = false → inPmem (e / 32) f.addr.toNat = false →
    { f with past := true } ∈ (t.engine e).lsu1.fl)

/-- The bank whose next row a visit names reads, if it is one of an SRAM pass (14 R315). -/
def State.bankAt (s : State) : GrindAt → Option GrindBank
  | .home a => match decodeAddr s.xbar.remap a.toNat with
    | (_, .mem h _) => if memKind h = .dram then none else bankOf h
    | _ => none
  | .pestle k b => some (.dmem (1024 + k.val) b.val)
  | .side r => sideBank r

/-- A row holds no byte in error. -/
def State.rowClean (s : State) : RowId → Prop
  | .home _ => s.mem.bad = []
  | .side r => ∀ e ∈ s.side, e.1 ≠ r

end Sys2Proof.Machine
end

