-- ==== Sys2Proof/Certificates/Slice0/Obligations.lean ====
section
/-! DEFINITION. What is to be proved of the model: the statements O1 to O60 of OBLIGATIONS.json, in its order. -/

section Statements

open Sys2Proof Sys2Proof.Machine

/-- A step runs the command at the front of the queue, as its effect on the state with the queue's rest. -/
def Obligations.StepRunsFront : Prop :=
  ∀ (c : Instr) (l : List Instr) (s : State), s.pending = c :: l → step s = exec c { s with pending := l }

/-- With no command waiting a step lets chip time run on by one period of its counter and changes nothing else (log entry 1): with the core up on the reference
clock, no rate correction and no wrap near, four ticks. -/
def Obligations.StepIdles : Prop :=
  ∀ (s : State), s.pending = [] → step s = .next s.idle ∧ SameBut [.tb, .ports, .store, .free] s s.idle ∧ s.idle.pending = [] ∧
    (s.pwr.boot = .up → s.pwr.refLost = false → s.tb.husk = false → s.tb.rate = 0 → s.tb.acc = 0 → s.tb.tick.toNat + 4 < 2 ^ 48 → s.idle.now = s.now + 4)

/-- A command leaves the queue to the step, changes no part of the state but those listed for it (`touches`), and what has been sent stays sent. -/
def Obligations.CommandsKeepToTheirParts : Prop :=
  ∀ (c : Instr) (s t : State), exec c s = .next t → t.pending = s.pending ∧ SameBut (touches c) s t ∧ s.out <+: t.out

/-- The reset state has the invariant: memory in its canonical form, the event log in order. -/
def Obligations.ResetHasInvariant : Prop :=
  Inv State.reset

/-- Every step keeps the invariant: the byte memory stays in its canonical form, and the live rows of the event log stay at most 8,192 with consecutive SEQs that
end just before the next one (18 R407). -/
def Obligations.StepKeepsInvariant : Prop :=
  ∀ (s t : State), Inv s → step s = .next t → Inv t

/-- No step changes a fused image-key hash, and none lowers the rollback counter (18 R404, R411). -/
def Obligations.FusesStay : Prop :=
  ∀ (s t : State), step s = .next t → (∀ k, s.pst.keyHash = some k → t.pst.keyHash = some k) ∧ s.pst.rollback.val ≤ t.pst.rollback.val

/-- The state after power-on reset as the spec states it: chip time 0 : 0 (02 R26), IDLE with no activities (17 R375), no engine and no pod running, the event log
with the entry of the reset under SEQ 0 (18 R407), a store restart with cause 2 due (05 R107), no rail up and no command waiting. The values of state that the
spec gives no reset value are the model's: log entries 62, 4. -/
def Obligations.ResetStates : Prop :=
  let s := State.reset
  s.now = 0 ∧ s.tb.cal = false ∧ s.sess.st = .idle ∧ s.sess.acts = 0 ∧ s.sess.counter = 0 ∧ s.log.next = 1 ∧
    s.log.rows = [⟨0, 0, 0xC0, 3, 0x2901, 1, 0⟩] ∧ s.store.restart = [(2, 0)] ∧ s.store.ring = [] ∧ s.rep.st = 0 ∧ s.link.role = none ∧
    s.fab.node = none ∧ s.sw.gen = 0 ∧ (∀ e < 1028, s.engine e = {}) ∧ (∀ e < 1028, s.engRuns e = false) ∧ (∀ p < 32, (s.pod p).powered = false ∧ (s.pod p).erst = 0xFFFFFFFF) ∧
    s.xbar.remap = false ∧ s.mem.cells = [] ∧ s.mem.bad = [] ∧ s.side = [] ∧ s.mem.inject = false ∧ s.pst.keyHash = none ∧ s.pst.rollback = 0 ∧ s.pst.images = [] ∧ s.pst.writes = [] ∧
    s.pwr.boot = .rails ∧ s.pwr.rails = 0 ∧ s.pwr.st = 0 ∧ s.pwr.resetCause = 0 ∧ s.pwr.faultN = true ∧ s.pwr.thermTripN = true ∧ s.test.instr = .idcode ∧
    s.out = [] ∧ s.pending = []

/-- The comparison of two values of an n-bit wrapping counter by their distance (02 R45). -/
def Obligations.SerialComparison : Prop :=
  (∀ (n a b : Nat), 1 ≤ n → a < 2 ^ n → b < 2 ^ n → let d := (b + 2 ^ n - a) % 2 ^ n
    (serial n a b = .equal ↔ a = b) ∧ (serial n a b = .later ↔ 1 ≤ d ∧ d ≤ 2 ^ (n - 1) - 1) ∧
    (serial n a b = .earlier ↔ 2 ^ (n - 1) + 1 ≤ d) ∧ (serial n a b = .unordered ↔ d = 2 ^ (n - 1)) ∧
    (serial n a b = .later → serial n b a = .earlier)) ∧
  (∀ (now t : Nat), now < 2 ^ 48 → t < 2 ^ 48 → (tickDue now t = true ↔ ¬(now < t ∧ t - now < 2 ^ 47) ∧ ¬(t < now ∧ 2 ^ 47 < now - t)))

/-- The image key (18 R404): its 48-byte hash is fused once, in IDLE, and a second write is refused with 0x0800_0022; while it is unfused every pod image that is
whole fails check 3, and once it is fused an image passes check 3 exactly when the key of that hash signed it. The key of a hash and the signature check are
constants without a body: log entry 60. -/
def Obligations.ImageKeyFusedOnce : Prop :=
  ∀ (s : State) (p : Path) (l : List Byte), s.served = true → s.remote p = none → l.length = 48 →
    (s.sess.st = .idle → s.pst.keyHash = none →
      ∃ t, exec (.imageKeyFuse p l) s = .next (t.answer p []) ∧ SameBut [.pst] s t ∧ t.pst = { s.pst with keyHash := some l } ∧
        ∀ (m : List Byte), m.length = 48 → exec (.imageKeyFuse p m) (t.answer p []) =
          .next ((t.answer p []).refuseLog p 0x2911 1 (leNat m % 2 ^ 24) 0x08000022)) ∧
    (s.pst.keyHash.isSome = true → exec (.imageKeyFuse p l) s = .next (s.refuseLog p 0x2911 1 (leNat l % 2 ^ 24) 0x08000022)) ∧
    (∀ (b : List Byte) (others : List (List Byte)), imgCheck1 b = true → imgCheck2 b = true →
      podCheck none b others = (3, 0) ∧ ((podCheck (some l) b others).1 = 3 ↔ imgSigned (Config.imageKey l) b = false))

/-- NEG and ABS of the most negative value: itself with SAT = 0, +max with SAT = 1, and V set in both, in both widths (10 R220). With SAT = 1 a sum or difference
of ADD, ADDC, SUB and SUBB that overflows becomes +max when the exact result is positive and the most negative value when it is negative, V is set, and C is
the same with and without SAT (10 R208). -/
def Obligations.NegAbsAndSaturation : Prop :=
  (∀ (w : Nat) (op : AluOp) (b : BitVec w) (f : BitVec 5) (sat : Bool), w = 24 ∨ w = 48 → op = .neg ∨ op = .abs →
     BitVec.ofNat w (op.result w sat (BitVec.intMin w).toNat b.toNat (flgC f)) = (if sat then BitVec.intMax w else BitVec.intMin w) ∧
     (op.flags w sat (BitVec.intMin w).toNat b.toNat f).getLsbD 3 = true) ∧
  (∀ (w : Nat) (op : AluOp) (a b : BitVec w) (f : BitVec 5), w = 24 ∨ w = 48 → op ∈ [AluOp.add, .addc, .sub, .subb] →
     let exact : Int := match op with
       | .add => a.toInt + b.toInt
       | .addc => a.toInt + b.toInt + flgC f
       | .sub => a.toInt - b.toInt
       | _ => a.toInt - b.toInt - flgC f
     let r := BitVec.ofNat w (op.result w true a.toNat b.toNat (flgC f))
     let g := op.flags w true a.toNat b.toNat f
     (exact = (BitVec.ofInt w exact).toInt → r = BitVec.ofInt w exact ∧ g.getLsbD 3 = false) ∧
     (exact ≠ (BitVec.ofInt w exact).toInt → r = (if 0 < exact then BitVec.intMax w else BitVec.intMin w) ∧ g.getLsbD 3 = true) ∧
     g.getLsbD 2 = (op.flags w false a.toNat b.toNat f).getLsbD 2)

/-- Every ALU command at an engine that issues: O1 latches the trigger value, Q and FLG are those of the operation under the SAT in force (10 R204, R206, R207,
R208, R220, 09 R190); whatever else the engine holds, every other engine and every other part of the block stay as they are. The model's choices: log entry 52
says what a command of one trigger stands for. -/
def Obligations.AluCommandsComplete : Prop :=
  ∀ (s : State) (e : EngN) (u long : Bool) (a : L48), s.issues e.val →
    AluDoes s e u long a .add (.aluAdd e u long a) ∧ AluDoes s e u long a .addc (.aluAddc e u long a) ∧
    AluDoes s e u long a .sub (.aluSub e u long a) ∧ AluDoes s e u long a .subb (.aluSubb e u long a) ∧
    AluDoes s e u long a .neg (.aluNeg e u long a) ∧ AluDoes s e u long a .abs (.aluAbs e u long a) ∧
    AluDoes s e u long a .and (.aluAnd e u long a) ∧ AluDoes s e u long a .or (.aluOr e u long a) ∧
    AluDoes s e u long a .xor (.aluXor e u long a) ∧ AluDoes s e u long a .andn (.aluAndn e u long a) ∧
    AluDoes s e u long a .not (.aluNot e u long a) ∧ AluDoes s e u long a .min (.aluMin e u long a) ∧
    AluDoes s e u long a .max (.aluMax e u long a) ∧ AluDoes s e u long a .minu (.aluMinu e u long a) ∧
    AluDoes s e u long a .maxu (.aluMaxu e u long a) ∧ AluDoes s e u long a .pass (.aluPass e u long a)

/-- The results of the ALU operations on `w` bits, 24 or 48, with SAT = 0, as sums, differences and bit patterns (10 R207). The flags of the ALU operations on `w`
bits, 24 or 48, with SAT = 0 (10 R207): SV V C N Z from bit 4 down. -/
def Obligations.AluResultsAndFlags : Prop :=
  (∀ (w : Nat) (a b : BitVec w) (c : Bool), w = 24 ∨ w = 48 →
     let r := fun (op : AluOp) => BitVec.ofNat w (op.result w false a.toNat b.toNat (bit01 c))
     let k := if c then 1#w else 0#w
     r .add = a + b ∧ r .addc = a + b + k ∧ r .sub = a - b ∧ r .subb = a - b - k ∧ r .neg = -a ∧ r .abs = (if a.msb then -a else a) ∧
     r .and = a &&& b ∧ r .or = a ||| b ∧ r .xor = a ^^^ b ∧ r .andn = a &&& ~~~b ∧ r .not = ~~~a ∧
     r .min = (if a.sle b then a else b) ∧ r .max = (if a.sle b then b else a) ∧ r .minu = (if a.ule b then a else b) ∧
     r .maxu = (if a.ule b then b else a) ∧ r .pass = a) ∧
  (∀ (w : Nat) (op : AluOp) (a b : BitVec w) (f : BitVec 5), w = 24 ∨ w = 48 →
     let r := BitVec.ofNat w (op.result w false a.toNat b.toNat (flgC f))
     let g := op.flags w false a.toNat b.toNat f
     g.getLsbD 0 = (r == 0#w) ∧ g.getLsbD 1 = r.msb ∧
     (op.arith = false → g.getLsbD 2 = f.getLsbD 2 ∧ g.getLsbD 3 = f.getLsbD 3 ∧ g.getLsbD 4 = f.getLsbD 4) ∧
     (op.arith = true → g.getLsbD 4 = (f.getLsbD 4 || g.getLsbD 3)) ∧
     (op = .add → g.getLsbD 2 = decide (2 ^ w ≤ a.toNat + b.toNat) ∧ g.getLsbD 3 = a.saddOverflow b) ∧
     (op = .sub → g.getLsbD 2 = a.ult b ∧ g.getLsbD 3 = a.ssubOverflow b) ∧
     (op = .addc → g.getLsbD 2 = decide (2 ^ w ≤ a.toNat + b.toNat + flgC f)) ∧
     (op = .subb → g.getLsbD 2 = decide (a.toNat < b.toNat + flgC f)) ∧
     (op = .neg → g.getLsbD 2 = (a != 0#w) ∧ g.getLsbD 3 = (a == BitVec.intMin w)) ∧
     (op = .abs → g.getLsbD 2 = false ∧ g.getLsbD 3 = (a == BitVec.intMin w)))

/-- Every MAC command at an engine that issues enters the pipeline with its result due after three cycles, this one among them: what ACC becomes, V, and how Q is
formed (10 R209, R219, 08 R158, 12 R263); what the engine holds stays. The model's choices: log entry 52. -/
def Obligations.MacCommandsComplete : Prop :=
  ∀ (s : State) (e : EngN) (y : W24), s.issues e.val →
    let h := (s.engine e.val).held
    let m := (s.engine e.val).mac
    let sat := (s.engine e.val).ctl.mode.getLsbD 0
    let gives := fun (c : Instr) (exact : Int) =>
      EngineDoes s e c h fun x => x.mac.fl.getLast? = some ⟨2, BitVec.ofInt 56 (if sat then holdSigned 56 exact else exact),
        !fitsSigned 56 exact || (sat && !fitsSigned 48 (holdSigned 56 exact)), if sat then 2 else 1, false⟩
    gives (.macMul e y) (m.o.toInt * y.toInt) ∧ gives (.macMulu e y) (m.o.toNat * y.toNat) ∧
    gives (.macMac e y) (m.start.toInt + m.o.toInt * y.toInt) ∧ gives (.macMacu e y) (m.start.toInt + m.o.toNat * y.toNat) ∧
    gives (.macMsu e y) (m.start.toInt - m.o.toInt * y.toInt) ∧ gives (.macMsuu e y) (m.start.toInt - m.o.toNat * y.toNat) ∧
    (EngineDoes s e (.macClr e y) h fun x => x.mac.fl.getLast? = some ⟨2, 0, false, 1, false⟩) ∧
    (EngineDoes s e (.macRd e y) h fun x =>
      let r := roundShift m.start.toInt (y.toNat % 64)
      let h := if sat then holdSigned 48 r else r
      x.mac.fl.getLast? = some ⟨2, BitVec.ofInt 56 h, decide (h ≠ r), 3, false⟩)

/-- Every SHF command at an engine that issues: O1 latches the data and Q shows the result on 24 or 48 bits (10 R204, R210, R223). Shifts and rotates take their
amount `s` from O2[5:0]: at `s` of the width or more SHL and SHR give 0, SAR copies of the top bit, ROL and ROR the rotation by `s` mod `w` (10 R223). The
model's choices: log entry 52. -/
def Obligations.ShfCommandsComplete : Prop :=
  (∀ (s : State) (e : EngN) (long : Bool) (d : L48), s.issues e.val →
     let h := (s.engine e.val).held
     let w := if long then 48 else 24
     let gives := fun (c : Instr) (op : ShfOp) => ∃ t, exec c s = .next t ∧ OnlyEngine e.val s t ∧
       (t.engine e.val).held = { h with shf := ⟨d, h.shf.o2, showResult w (op.result w (d.toNat % 2 ^ w) h.shf.o2)⟩ }
     gives (.shfShl e long d) .shl ∧ gives (.shfShr e long d) .shr ∧ gives (.shfSar e long d) .sar ∧ gives (.shfRol e long d) .rol ∧
     gives (.shfRor e long d) .ror ∧ gives (.shfExt e long d) .ext ∧ gives (.shfExts e long d) .exts ∧ gives (.shfIns e long d) .ins) ∧
  (∀ (w : Nat) (d : BitVec w) (o2 : W24), w = 24 ∨ w = 48 →
     let s := o2.toNat % 64
     let r := fun (op : ShfOp) => BitVec.ofNat w (op.result w d.toNat o2)
     r .shl = (if w ≤ s then 0#w else d <<< s) ∧ r .shr = (if w ≤ s then 0#w else d >>> s) ∧
     r .sar = (if w ≤ s then (if d.msb then -1#w else 0#w) else d.sshiftRight s) ∧ r .rol = d.rotateLeft (s % w) ∧ r .ror = d.rotateRight (s % w))

/-- Every CHK command at an engine that issues enters the pipeline with its result due after two cycles, this one among them: the steps with the remainder they
leave, the others with their result (10 R211, R224, 08 R158, 12 R263); what the engine holds stays. The model's choices: log entry 52. -/
def Obligations.ChkCommandsComplete : Prop :=
  ∀ (s : State) (e : EngN) (v : W24) (long : Bool) (l : L48), s.issues e.val →
    let h := (s.engine e.val).held
    let c := (s.engine e.val).chk
    let step := fun (i : Instr) (n : Nat) =>
      EngineDoes s e i h fun x => x.chk.fl.getLast? = some ⟨1, BitVec.ofNat 32 ((((List.range n).flatMap fun k =>
        stepBits c.rin (if n = 1 then c.o.toNat % 8 else 0) (bits v.toNat (8 * k) 8)).foldl (chkBit (c.wm1.toNat + 1) c.poly.toNat)
          (c.start.toNat % 2 ^ (c.wm1.toNat + 1)))), true, false, c.wm1, c.xo, c.rout⟩
    let gives := fun (i : Instr) (r : Nat) =>
      EngineDoes s e i h fun x => x.chk.fl.getLast? = some ⟨1, BitVec.ofNat 32 r, false, false, c.wm1, c.xo, c.rout⟩
    step (.chkStep8 e v) 1 ∧ step (.chkStep16 e v) 2 ∧ step (.chkStep24 e v) 3 ∧
    gives (.chkPar e v) (popBits 24 v.toNat % 2) ∧ gives (.chkParb e v) (parBytes v.toNat) ∧ gives (.chkRev e v) (revBits 24 v.toNat) ∧
    gives (.chkRevb e v) (revBytes v.toNat) ∧ gives (.chkRevn e v) (revBits (min 24 (c.o.toNat % 32)) v.toNat) ∧
    gives (.chkPop e long l) (popBits (if long then 48 else 24) (l.toNat % 2 ^ (if long then 48 else 24))) ∧
    gives (.chkClz e long l) (clzBits (if long then 48 else 24) (l.toNat % 2 ^ (if long then 48 else 24)))

/-- DIV and DIVU at an engine that issues enter the divider with 14 cycles to their results, this one among them, and abandon a division in flight; a divisor of 0
makes the division trap due under DZT only (10 R212, R221, R222, 08 R158, R159). The quotients, remainders and flags V and DZ of DIV and DIVU on `w` bits, 24
or 48 (10 R212, R221). The model's choices: log entry 52. -/
def Obligations.DivCommandsComplete : Prop :=
  (∀ (s : State) (e : EngN) (long : Bool) (n : L48), s.issues e.val →
     let x0 := s.engine e.val
     let h := x0.held
     let w := if long then 48 else 24
     let m := x0.div.o.toNat % 2 ^ w
     let gives := fun (c : Instr) (signed : Bool) =>
       EngineDoes s e c h fun x =>
         let r := divide signed w (n.toNat % 2 ^ w) m
         x.div.fl = some ⟨13, showResult w r.1, showResult w r.2.1, r.2.2.1, r.2.2.2, false⟩ ∧
         x.exc.due.getLsbD 2 = (x0.exc.due.getLsbD 2 || (decide (m = 0) && x0.ctl.mode.getLsbD 1))
     gives (.divDiv e long n) true ∧ gives (.divDivu e long n) false) ∧
  (∀ (w : Nat) (n m : BitVec w), w = 24 ∨ w = 48 →
     (m ≠ 0 → divide false w n.toNat m.toNat = ((n / m).toNat, (n % m).toNat, false, false)) ∧
     (m = 0 → divide false w n.toNat m.toNat = ((BitVec.allOnes w).toNat, n.toNat, false, true)) ∧
     (m = 0 → divide true w n.toNat m.toNat = ((if n.msb then BitVec.intMin w else BitVec.intMax w).toNat, n.toNat, false, true)) ∧
     (m ≠ 0 → ¬(n = BitVec.intMin w ∧ m = BitVec.allOnes w) → divide true w n.toNat m.toNat = ((n.sdiv m).toNat, (n.srem m).toNat, false, false)) ∧
     divide true w (BitVec.intMin w).toNat (BitVec.allOnes w).toNat = ((BitVec.intMin w).toNat, 0, true, false))

/-- The LSU0 stores at an engine that issues (10 R213, 08 R168, R169): an access in reach enters the store buffer as its newest entry, or waits when the buffer is
full; one out of reach makes the memory-region exception due. Memory and what the engine holds stay. STORE_BUFFER_DRAIN at a working engine with a buffered
store whose banks no string operation uses in the cycle or is still to use in it (08 R168, R169, 11 R245): the oldest entry's bytes reach DMEM and no other
byte of memory changes; the entry leaves the buffer and a store that waits for room takes it. The model's choices: log entries 52, 53. -/
def Obligations.Lsu0StoresAndDrain : Prop :=
  (∀ (s : State) (e : EngN) (a : W24), s.issues e.val →
     let x0 := s.engine e.val
     let h := x0.held
     let gives := fun (c : Instr) (sub n : Nat) =>
       (∀ r, lsu0Range sub a = some r → x0.lsu0.sb.length < 4 → EngineDoes s e c h fun x =>
         x.lsu0.sb = x0.lsu0.sb ++ [⟨dmemAddr e.val 0 r.1, leBytes n x0.lsu0.o.toNat, dmemSplit r.1 r.2⟩] ∧ r.2 = n) ∧
       (∀ r, lsu0Range sub a = some r → ¬x0.lsu0.sb.length < 4 → EngineDoes s e c h fun x =>
         x.lsu0.sb = x0.lsu0.sb ∧ x.lsu0.stWait = some ⟨dmemAddr e.val 0 r.1, leBytes n x0.lsu0.o.toNat, dmemSplit r.1 r.2⟩) ∧
       (lsu0Range sub a = none → EngineDoes s e c h fun x => x.lsu0.sb = x0.lsu0.sb ∧ x.exc.due.getLsbD 3 = true)
     gives (.lsu0StB e a) 8 1 ∧ gives (.lsu0StW e a) 9 3 ∧ gives (.lsu0StL e a) 10 6) ∧
  (∀ (s : State) (e : EngN) (b : SbEntry) (l : List SbEntry), s.engOn e.val = true → (s.engine e.val).lsu0.sb = b :: l →
     (s.engine e.val).lsu0.ldWait = none → (dmemBanks b.addr b.bytes.length).any (s.smvClaims e.val).contains = false → s.mem.wf = true →
     ∃ t, exec (.storeBufferDrain e) s = .next t ∧ SameBut [.eng, .mem] s t ∧ (∀ j, j ≠ e.val → t.engine j = s.engine j) ∧
       (t.engine e.val).held = (s.engine e.val).held ∧ (t.engine e.val).lsu0.sb = l ++ (s.engine e.val).lsu0.stWait.toList ∧
       (t.engine e.val).lsu0.stWait = none ∧ s.mem.Holds t.mem b.addr b.bytes)

/-- The LSU0 loads at an engine that issues and has no string step in this cycle (10 R213, 08 R158, R170): the data come from DMEM when no buffered store overlaps
them, from the newest overlapping entry when it holds them all, and otherwise the load waits for that entry to drain; an access out of reach makes the
memory-region exception due. The result stands three cycles on, this one among them. Which bytes of DMEM an LSU0 access reaches (10 R213): a byte by word and
byte number, a word, or a long of two words; none at or above word 24,576 or at byte 3 of a word. The model's choices: log entries 52, 53, 75. -/
def Obligations.Lsu0LoadsAndReach : Prop :=
  (∀ (s : State) (e : EngN) (a : W24), s.issues e.val → (s.engine e.val).smv.seen = none →
     let x0 := s.engine e.val
     let h := x0.held
     let gives := fun (c : Instr) (sub n : Nat) (signed : Bool) =>
       (∀ r, lsu0Range sub a = some r → newestOverlap x0.lsu0.sb (dmemAddr e.val 0 r.1) n = none → s.mem.sound (dmemAddr e.val 0 r.1) n = true →
         EngineDoes s e c h fun x => x.lsu0.fl.getLast? = some ⟨2, some (loadValue signed (s.mem.bytes (dmemAddr e.val 0 r.1) n))⟩) ∧
       (∀ r b, lsu0Range sub a = some r → newestOverlap x0.lsu0.sb (dmemAddr e.val 0 r.1) n = some b → b.2.holds (dmemAddr e.val 0 r.1) n = true →
         EngineDoes s e c h fun x =>
           x.lsu0.fl.getLast? = some ⟨2, some (loadValue signed (slice b.2.bytes (dmemAddr e.val 0 r.1 - b.2.addr) n))⟩) ∧
       (∀ r b, lsu0Range sub a = some r → newestOverlap x0.lsu0.sb (dmemAddr e.val 0 r.1) n = some b → b.2.holds (dmemAddr e.val 0 r.1) n = false →
         EngineDoes s e c h fun x => x.lsu0.ldWait = some ⟨b.1, dmemAddr e.val 0 r.1, n, signed, none⟩) ∧
       (lsu0Range sub a = none → EngineDoes s e c h fun x => x.lsu0.fl.getLast? = some ⟨2, none⟩ ∧ x.exc.due.getLsbD 3 = true)
     gives (.lsu0LdB e a) 0 1 true ∧ gives (.lsu0LdBu e a) 1 1 false ∧ gives (.lsu0LdW e a) 2 3 true ∧ gives (.lsu0LdL e a) 3 6 false) ∧
  (∀ (a : W24), let w := a.toNat % 32768
     let k := a.toNat / 32768 % 4
     (∀ sub, sub = 0 ∨ sub = 1 ∨ sub = 8 → lsu0Range sub a = if w < 24576 ∧ k < 3 then some (3 * w + k, 1) else none) ∧
     (∀ sub, sub = 2 ∨ sub = 9 → lsu0Range sub a = if w < 24576 then some (3 * w, 3) else none) ∧
     (∀ sub, sub = 3 ∨ sub = 10 → lsu0Range sub a = if w + 1 < 24576 then some (3 * w, 6) else none))

/-- The LSU1 commands at an engine that issues (10 R214, 14 R302): an access that a region refuses, or one of a word or long at a PMEM byte offset that is no
multiple of 3, makes the memory-region exception due; any other waits for its grant, with O as the value to store. LSU1 refuses what no enabled descriptor of
the engine allows, byte by byte, and what lies askew in a PMEM window (10 R214, 09 R199, 14 R302). The model's choices: log entry 52. -/
def Obligations.Lsu1CommandsAndRegions : Prop :=
  (∀ (s : State) (e : EngN) (v : L48), s.issues e.val →
     let x0 := s.engine e.val
     let h := x0.held
     let a := v.toNat % 2 ^ 40
     let gives := fun (c : Instr) (load : Bool) (n : Nat) (signed : Bool) =>
       (x0.lsu1.refuses load a n = true → EngineDoes s e c h fun x => x.exc.due.getLsbD 4 = true ∧
         (load = true → x.lsu1.fl.getLast? = some ⟨5, .refused, true, BitVec.ofNat 40 a, n, signed, x0.lsu1.o, [], false, [], 0, false⟩)) ∧
       (x0.lsu1.refuses load a n = false → EngineDoes s e c h fun x =>
         x.lsu1.fl.getLast? = some ⟨5, .waitGrant, load, BitVec.ofNat 40 a, n, signed, x0.lsu1.o, [], false, [], 0, false⟩)
     gives (.lsu1LdB e v) true 1 true ∧ gives (.lsu1LdBu e v) true 1 false ∧ gives (.lsu1LdW e v) true 3 true ∧ gives (.lsu1LdL e v) true 6 false ∧
     gives (.lsu1StB e v) false 1 false ∧ gives (.lsu1StW e v) false 3 false ∧ gives (.lsu1StL e v) false 6 false) ∧
  (∀ (x : Lsu1) (load : Bool) (a n : Nat), 1 ≤ n →
     (x.refuses load a n = false ↔
       (∀ i < n, ∃ d ∈ x.desc, d.2.ctl.getLsbD 2 = true ∧ d.2.ctl.getLsbD (if load then 0 else 1) = true ∧
         d.2.base.toNat * 64 ≤ a + i ∧ a + i ≤ d.2.limit.toNat * 64 + 63) ∧
       (n ≠ 1 → ∀ o, pmemOffset a = some o → o % 3 = 0)))

/-- LSU1_REQUEST_GRANTED at a working engine whose oldest waiting access lies in its own PMEM, when each bank that it asks for serves the engine next, it did not
wait, and no other access of the engine is open (08 R172 to R174): a load takes the bytes there; a store through the plain window writes them there and
nowhere else, and is over; the banks have then served this engine last. Of the engines that ask for one PMEM bank of a pod at most one is granted, and of
those that ask for that bank alone one is (08 R174): the first in round-robin order from the engine after the one that the bank served last. Of the engines of
a pod that ask for any bank one is always granted. LSU1_DATA_RETURN at a working engine whose responses have all come for the oldest access that waits for
them (08 R172, 10 R214, 12 R250, R257): a load keeps its value for its count or gives it at once to the engine that waits for it; an error makes the bus-error
exception due, of a load with its result unchanged, or stays with the load until its count; a store's error joins an entry that runs, in place of an
interrupt. The model's choices: log entries 53, 75. -/
def Obligations.Lsu1GrantAndReturn : Prop :=
  (∀ (s : State) (e : EngN) (f : L1Fl) (l : List L1Fl) (home : Nat), s.engOn e.val = true → (s.engine e.val).lsu1.fl = f :: l → f.st = .waitGrant →
     (∀ g ∈ l, g.open_ = false) → s.bankGrants e.val = true → ownPmem s.xbar.remap e.val f.addr.toNat f.len = some (home, 0) → f.len ≤ 6 →
     let p := e.val / 32
     let gives := fun (parts : List Part) (q : State → Prop) => ∃ t, exec (.lsu1RequestGranted e 0) s = .next t ∧ SameBut parts s t ∧
       (∀ j, j ≠ e.val → t.engine j = s.engine j) ∧ (t.engine e.val).held = (s.engine e.val).held ∧ (∀ j, j ≠ p → t.pod j = s.pod j) ∧
       t.pod p = { s.pod p with served := (t.pod p).served } ∧
       (∀ b, (t.pod p).served.find b = if b ∈ pmemBanks home f.len then some (e.val % 32) else (s.pod p).served.find b) ∧ q t
     (f.load = true → s.mem.sound home f.len = true → gives [.eng, .pods] fun t =>
       (t.engine e.val).lsu1.fl = { f with st := .data, val := loadValue f.signed (s.mem.bytes home f.len) } :: l) ∧
     (f.load = false → s.mem.inject = false → s.mem.wf = true → gives [.eng, .pods, .mem] fun t =>
       (t.engine e.val).lsu1.fl = l ∧ s.mem.Holds t.mem home (leBytes f.len f.val.toNat))) ∧
  (∀ (s : State) (p b : Nat), p < 32 →
     (∀ e g, e / 32 = p → g / 32 = p → b ∈ s.bankAsks e → b ∈ s.bankAsks g → s.bankGrants e = true → s.bankGrants g = true → e = g) ∧
     ((∃ e, e / 32 = p ∧ b ∈ s.bankAsks e) → (∀ e, e / 32 = p → b ∈ s.bankAsks e → ∀ c ∈ s.bankAsks e, c = b) →
       ∃ e, e / 32 = p ∧ b ∈ s.bankAsks e ∧ s.bankGrants e = true) ∧
     ((∃ e, e / 32 = p ∧ s.bankAsks e ≠ []) → ∃ e, e / 32 = p ∧ s.bankGrants e = true)) ∧
  (∀ (s : State) (e : EngN) (pre post : List L1Fl) (f : L1Fl) (err : Bool) (ext : List Byte), s.engOn e.val = true →
     (s.engine e.val).lsu1.fl = pre ++ f :: post → (∀ g ∈ pre, g.open_ = false) → (∀ g ∈ post, g.st ≠ .held) → f.st = .waitData → f.need = [] →
     let x0 := s.engine e.val
     let v := loadValue f.signed (slice f.got 0 f.len)
     let gives := fun (p : Engine → Prop) => EngineDoes s e (.lsu1DataReturn e err ext) x0.held p
     (f.load = true → f.k ≠ 0 → gives fun x => x.lsu1.q = x0.lsu1.q ∧
       x.lsu1.fl = pre ++ { f with st := if f.err then .busError else .data, val := v } :: post) ∧
     (f.load = true → f.k = 0 → f.err = false → gives fun x => x.lsu1.q = v ∧ x.lsu1.fl = pre ++ post) ∧
     (f.load = true → f.k = 0 → f.err = true → gives fun x => x.lsu1.q = x0.lsu1.q ∧ x.lsu1.fl = pre ++ post ∧ x.exc.due.getLsbD 6 = true) ∧
     (f.load = false → f.err = false → gives fun x => x.lsu1.fl = pre ++ post ∧ x.exc = x0.exc) ∧
     (f.load = false → f.err = true → x0.exc.entry = none → gives fun x => x.lsu1.fl = pre ++ post ∧ x.exc.due.getLsbD 7 = true) ∧
     (∀ n, f.load = false → f.err = true → x0.exc.entry = some n → gives fun x => x.lsu1.fl = pre ++ post ∧
       x.exc.entry = some ⟨none, n.code ||| 0x80, if n.irq = none then n.detail else 0⟩))

/-- The CTL triggers at an engine that issues (10 R215, 08 R164, 12 R250, R252, R270), while no earlier jump takes effect and no repeat level is open: JMP, CALL
and RET make a jump pending behind two more bundles, CALL with LINK at the bundle after them; TRAP makes its exception due with its detail; RFE, in supervisor
mode, returns after two more bundles, and in the first delay bundle of another RFE changes nothing. A jump whose two delay bundles have issued with this
bundle is taken (08 R164, R165): the address becomes its target, a bubble follows, and the prefetch queue is empty. Shown at a JMP in the second delay bundle,
whose own jump waits for two more bundles. The model's choices: log entry 52. -/
def Obligations.CtlTriggersAndJumps : Prop :=
  (∀ (s : State) (e : EngN) (v : W24), s.issues e.val →
     let x0 := s.engine e.val
     let h := x0.held
     (∀ j ∈ x0.ctl.jumps.head?, 2 ≤ j.1) → x0.rpt.n = 0 →
     let waits := fun (x : Engine) (l : List (Nat × BitVec 11)) => x.ctl.jumps = (x0.ctl.jumps ++ l).map (fun j => (j.1 - 1, j.2)) ∧
       x.ctl.pc = x0.ctl.pc + 1 ∧ x.ctl.bubble = false
     (EngineDoes s e (.ctlJmp e v) h fun x => waits x [(3, v.setWidth 11)]) ∧
     (EngineDoes s e (.ctlCall e v) { h with link := x0.ctl.pc + 3 } fun x => waits x [(3, v.setWidth 11)]) ∧
     (EngineDoes s e (.ctlRet e v) h fun x => waits x [(3, x0.ctl.link)]) ∧
     (EngineDoes s e (.ctlTrap e v) h fun x => waits x [] ∧ x.exc.due.getLsbD 1 = true ∧ x.exc.detail = v.setWidth 8) ∧
     (x0.ctl.mode.getLsbD 3 = true → x0.exc.rfe = none → EngineDoes s e (.ctlRfe e v) h fun x =>
       waits x [] ∧ x.exc.rfe = some 2 ∧ x.exc.restore = x0.exc.restore) ∧
     (∀ k, x0.ctl.mode.getLsbD 3 = true → x0.exc.rfe = some (k + 2) → EngineDoes s e (.ctlRfe e v) h fun x =>
       waits x [] ∧ x.exc.rfe = some (k + 1) ∧ x.exc.restore = x0.exc.restore)) ∧
  (∀ (s : State) (e : EngN) (v : W24) (t : BitVec 11), s.issues e.val → (s.engine e.val).ctl.jumps = [(1, t)] →
     EngineDoes s e (.ctlJmp e v) (s.engine e.val).held fun x =>
       x.ctl.pc = t ∧ x.ctl.bubble = true ∧ x.ctl.jumps = [(2, v.setWidth 11)] ∧ x.pfq = [])

/-- The compares at an engine that issues (10 R215, R225): the guard that GD selects takes the outcome on 24 or 48 bits; guard 0 stays 1. A guard written: guard
`k` other than 0 takes the value, every other guard stays, and guard 0 always stays 1 (08 R154, 09 R190). The model's choices: log entry 52. -/
def Obligations.ComparesAndGuards : Prop :=
  (∀ (s : State) (e : EngN) (long : Bool) (a : L48) (v : W24), s.issues e.val →
     let x0 := s.engine e.val
     let h := x0.held
     let w := if long then 48 else 24
     let p : BitVec w := a.setWidth w
     let q : BitVec w := x0.ctl.o.setWidth w
     let gives := fun (c : Instr) (b : Bool) => EngineDoes s e c { h with guards := (x0.ctl.setGuard x0.ctl.gd.toNat b).guards } fun _ => True
     gives (.ctlCmpEq e long a) (p == q) ∧ gives (.ctlCmpNe e long a) (p != q) ∧ gives (.ctlCmpLt e long a) (p.slt q) ∧
     gives (.ctlCmpLe e long a) (p.sle q) ∧ gives (.ctlCmpLtu e long a) (p.ult q) ∧ gives (.ctlCmpLeu e long a) (p.ule q) ∧
     gives (.ctlCmpBit e v) (v &&& x0.ctl.o.setWidth 24 != 0#24)) ∧
  (∀ (c : Ctl) (k : Nat) (b : Bool), k < 8 → ∀ j < 8, (c.setGuard k b).guards.getLsbD j = if j = k ∧ k ≠ 0 then b else c.guards.getLsbD j)

/-- REP and EXIT at an engine that issues (11 R233, R236): REP opens a level whose body begins at the next bundle and ends at the address in O, with the trigger
value as count; EXIT closes the innermost level. The address is that of the next bundle, where this bundle ends no body. The end check of the innermost level,
at the bundle at its end address (11 R234, R235): a count of 2 or more is lowered by 1 and the body begins again; a count of 1 or 0 closes the level with its
count at 0; a count a move wrote in the body stays as written and loops unless it is 0. The model's choices: log entry 52. -/
def Obligations.RepeatTriggersAndEndCheck : Prop :=
  (∀ (s : State) (e : EngN) (c : W24), s.issues e.val →
     let x0 := s.engine e.val
     let h := x0.held
     let r := x0.rpt
     (r.n = 0 → EngineDoes s e (.rptRep e c) h fun x =>
       x.rpt = { r with n := 1, c0 := c, s0 := x0.ctl.pc + 1, e0 := r.o, w0 := false } ∧ (x0.ctl.jumps = [] → x.ctl.pc = x0.ctl.pc + 1)) ∧
     (r.n = 1 → r.e0 ≠ x0.ctl.pc → EngineDoes s e (.rptRep e c) h fun x =>
       x.rpt = { r with n := 2, c1 := c, s1 := x0.ctl.pc + 1, e1 := r.o, w1 := false } ∧ (x0.ctl.jumps = [] → x.ctl.pc = x0.ctl.pc + 1)) ∧
     (r.n = 0 → EngineDoes s e (.rptExit e c) h fun x => x.rpt = r) ∧ (r.n = 1 → EngineDoes s e (.rptExit e c) h fun x => x.rpt = { r with n := 0 }) ∧
     (r.n = 2 → r.e0 ≠ x0.ctl.pc → EngineDoes s e (.rptExit e c) h fun x => x.rpt = { r with n := 1 })) ∧
  (∀ (r : Rpt) (pc : BitVec 11), r.n = 1 → r.e0 = pc →
     (r.w0 = false → 2 ≤ r.c0.toNat → r.endCheck pc = ({ r with c0 := r.c0 - 1 }, r.s0)) ∧
     (r.w0 = false → r.c0.toNat < 2 → r.endCheck pc = ({ r with c0 := 0, n := 0 }, pc + 1)) ∧
     (r.w0 = true → r.c0 ≠ 0 → r.endCheck pc = ({ r with w0 := false }, r.s0)) ∧
     (r.w0 = true → r.c0 = 0 → r.endCheck pc = ({ r with w0 := false, n := 0 }, pc + 1)))

/-- The SMV triggers at an engine that issues and makes no step in this cycle (11 R242, R243, R244): with N of 1 or more the operation runs, having the buffered
stores to wait for; with N = 0 it ends at once with Q = 0 and HIT = 0. SMV_STEP of a string operation that waits for nothing, in the cycle of a jump's bubble
or of a bundle without a port exception, at words of DMEM that lie in reach, in different banks or in the second cycle of their step, and bear no inverted bit
(11 R241, R243, R244): what each operation reads and writes, where it goes on, and where it stops. In the cycle of a bundle whose own exception keeps it from
issuing no step is made (11 R248, 12 R256). The model's choices: log entries 52, 56, 75. -/
def Obligations.StringCommandsComplete : Prop :=
  (∀ (s : State) (e : EngN) (v : W24), s.issues e.val → (s.engine e.val).smv.seen = none →
     let x0 := s.engine e.val
     let gives := fun (c : Instr) (op : Fin 4) =>
       (x0.smv.n ≠ 0 → EngineDoes s e c x0.held fun x => x.smv = { x0.smv with
         op := op, ne := v.getLsbD 1, down := v.getLsbD 0, fa := false, act := true, bad := false, wait := x0.lsu0.sb.length }) ∧
       (x0.smv.n = 0 → EngineDoes s e c x0.held fun x => x.smv.q = 0 ∧ x.smv.hit = false ∧ x.smv.act = false)
     gives (.smvCopy e v) 0 ∧ gives (.smvFill e v) 1 ∧ gives (.smvCmp e v) 2 ∧ gives (.smvScan e v) 3) ∧
  (∀ (s : State) (e : EngN), s.canCycle e.val = true →
     let x0 := s.engine e.val
     let m := x0.smv
     let fault := (x0.queued x0.ctl.pc.toNat).map fun b => (decodeBundle b).faultOf x0.ctl.guards (x0.ctl.mode.getLsbD 3) x0.rpt.n.val
     let d : BitVec 15 := if m.down then -1 else 1
     let src := dmemAddr e.val m.src.toNat 0
     let dst := dmemAddr e.val m.dst.toNat 0
     let a := leNat (s.mem.bytes src 3)
     let b := leNat (s.mem.bytes dst 3)
     let gives := fun (l : List Part) (mem : State → Prop) (p : Smv → Prop) => ∃ t, exec (.smvStep e) s = .next t ∧ SameBut l s t ∧
       (∀ j, j ≠ e.val → t.engine j = s.engine j) ∧ (t.engine e.val).held = x0.held ∧ mem t ∧ p (t.engine e.val).smv
     let goesOn := fun (usesSrc usesDst : Bool) (y : Smv) => y.n = m.n - 1 ∧ y.act = decide (m.n ≠ 1) ∧
       y.src = (if usesSrc then m.src + d else m.src) ∧ y.dst = (if usesDst then m.dst + d else m.dst) ∧ (m.n = 1 → y.q = 0 ∧ y.hit = false)
     let stops := fun (y : Smv) => y.n = m.n ∧ y.src = m.src ∧ y.dst = m.dst ∧ y.act = false ∧ y.hit = true ∧ y.q = BitVec.ofNat 24 (m.n.toNat + 32768)
     (∀ f, s.ready e.val = true → fault = some (some f) → exec (.smvStep e) s = .next s) ∧
     (x0.ctl.bubble = true ∨ (s.ready e.val = true ∧ fault = some none) →
     m.act = true → m.wait = 0 → m.bad = false → m.seen = none → s.mem.wf = true →
     (m.src.toNat < 24576 → s.mem.sound src 3 = true →
       (m.op = 0 → m.dst.toNat < 24576 → m.src.toNat / 2 % 4 ≠ m.dst.toNat / 2 % 4 ∨ m.fa = true →
         gives [.eng, .mem] (fun t => s.mem.Holds t.mem dst (s.mem.bytes src 3)) (goesOn true true)) ∧
       (m.op = 2 → m.dst.toNat < 24576 → m.src.toNat / 2 % 4 ≠ m.dst.toNat / 2 % 4 ∨ m.fa = true → s.mem.sound dst 3 = true →
         ((a ^^^ b) &&& m.pat.toNat = 0 → gives [.eng] (fun _ => True) (goesOn true true)) ∧
         ((a ^^^ b) &&& m.pat.toNat ≠ 0 → gives [.eng] (fun _ => True) stops)) ∧
       (m.op = 3 → (decide (a = m.pat.toNat) = m.ne → gives [.eng] (fun _ => True) (goesOn true false)) ∧
         (decide (a = m.pat.toNat) ≠ m.ne → gives [.eng] (fun _ => True) stops))) ∧
     (m.op = 1 → m.dst.toNat < 24576 → gives [.eng, .mem] (fun t => s.mem.Holds t.mem dst (leBytes 3 m.pat.toNat)) (goesOn false true))))

/-- The TSU triggers at an engine that issues (10 R216, R228, 12 R264): each enters with two cycles to its outcome, this one among them, and ends a WAIT in
flight; NOW takes the tick and the epoch of this cycle together, EP the epoch latch, WAIT its target. WAIT_TARGET_DUE of a running engine that a WAIT freezes
(08 R160, 02 R46): chip time runs on to the target, where that lies in the present epoch, and nothing else changes. The model's choices: log entries 5, 52,
55. -/
def Obligations.TimeUnitCommandsComplete : Prop :=
  (∀ (s : State) (e : EngN) (v : L48), s.issues e.val →
     let x0 := (s.engine e.val).atTwo s.tb.tick.toNat s.now
     let h := x0.held
     let gives := fun (c : Instr) (p : Tsu → Prop) => EngineDoes s e c h fun x => p x.tsu
     gives (.tsuNow e v) (fun y => y.fl.getLast? = some ⟨1, false, s.tb.tick⟩ ∧ y.epl = s.tb.epoch) ∧
     gives (.tsuEp e v) (fun y => y.fl.getLast? = some ⟨1, false, x0.tsu.epl.setWidth 48⟩ ∧ y.epl = x0.tsu.epl) ∧
     gives (.tsuWait e v) (fun y => y.fl.filter (·.wait) = [⟨1, true, v⟩] ∧ y.epl = x0.tsu.epl)) ∧
  (∀ (s : State) (e : EngN) (f : TsuFl), s.engRuns e.val = true → (s.engine e.val).tsu.fl.find? (fun g => g.wait && g.k = 0) = some f →
     tickDue s.tb.tick.toNat f.val.toNat = false → s.tb.tick.toNat < f.val.toNat →
     ∃ t, exec (.waitTargetDue e) s = .next t ∧ SameBut [.tb] s t ∧ t.tb = { s.tb with tick := f.val })

/-- The SPU triggers at an engine that issues and has nothing being built (10 R217, R218, R230, 08 R179): IN and POLL act two cycles on; the first word of an EMIT
record opens it with the routing word in O; the first word of an OUT record opens it, is the whole record when it names length 1, and is discarded and counted
as a router drop of the pod when it names length 0 or above 1,024. A word written into an empty queue heals the queue's rows (14 R308). OUTPUT_QUEUE_HANDOFF
at a working engine whose output queue has a complete OUT record at its head, bears no inverted bit, and does not freeze the engine (08 R176, R179, 10 R218):
the record goes onto the stream network for the engine that O named. ROUTER_ACCEPT of a pod with a record at the head of the stream network and room for it,
and ROUTER_PUBLISH of an engine with a record in its pod's arrival buffer and a place for it in its ring, while no row of that buffer bears an inverted bit
(08 R176, R177, R178, R180): the record enters the buffer, of which a write into the empty one heals the rows (14 R308), or the ring and DMEM, whole; without
room a record of no replay entry is dropped and counted. The model's choices: log entries 34, 52, 63. -/
def Obligations.StreamCommandsComplete : Prop :=
  (∀ (s : State) (e : EngN) (v : W24), s.issues e.val →
     let x0 := (s.engine e.val).atTwo s.tb.tick.toNat s.now
     let h := x0.held
     let q := x0.spu
     let gives := fun (c : Instr) (l : List Part) (p : State → Prop) => ∃ t, exec c s = .next t ∧ SameBut l s t ∧ (∀ j, j ≠ e.val → t.engine j = s.engine j) ∧
       (t.engine e.val).held = h ∧ t.side = (if q.occupancy = 0 then s.side.filter fun r => !isOutQueue e.val r.1 else s.side) ∧ p t
     (EngineDoes s e (.spuIn e v) h fun x => x.spu.fl.getLast? = some (1, true)) ∧
     (EngineDoes s e (.spuPoll e v) h fun x => x.spu.fl.getLast? = some (1, false)) ∧
     (q.build = none → q.occupancy < 1024 →
       (gives (.spuEmit e v) [.eng, .side] fun t => (t.engine e.val).spu.build = some ⟨false, q.o, [v], 0⟩ ∧ (t.engine e.val).spu.done = q.done) ∧
       (1 < v.toNat % 2048 → v.toNat % 2048 ≤ 1024 → gives (.spuOut e v) [.eng, .side] fun t =>
         (t.engine e.val).spu.build = some ⟨true, q.o, [v], 0⟩ ∧ (t.engine e.val).spu.done = q.done) ∧
       (v.toNat % 2048 = 1 → gives (.spuOut e v) [.eng, .side] fun t =>
         (t.engine e.val).spu.build = none ∧ (t.engine e.val).spu.done = q.done ++ [⟨true, q.o, [v], 0⟩]) ∧
       (v.toNat % 2048 = 0 ∨ 1024 < v.toNat % 2048 → e.val < 1024 → gives (.spuOut e v) [.eng, .side, .od] fun t =>
         (t.engine e.val).spu.build = none ∧ (t.engine e.val).spu.done = q.done ∧
           ∀ idx sub, sub < 256 → t.cfg idx sub = if idx = 0x2A01 + e.val / 32 ∧ sub = 5 then min (2 ^ 32 - 1) (s.cfg idx sub + 1) else s.cfg idx sub))) ∧
  (∀ (s : State) (e : EngN) (b : Build) (l : List Build) (waited : Nat), s.engOn e.val = true → (s.engine e.val).spu.done = b :: l → b.out = true →
     (s.engine e.val).spu.full = none → (∀ r ∈ s.side, isOutQueue e.val r.1 = false) →
     ∃ t, exec (.outputQueueHandoff e waited) s = .next t ∧ SameBut [.eng, .net] s t ∧ (∀ j, j ≠ e.val → t.engine j = s.engine j) ∧
       (t.engine e.val).held = (s.engine e.val).held ∧ (t.engine e.val).spu.done = l ∧ t.net = s.net ++ [⟨b.hdr.toNat % 1024, 3, b.bytes⟩]) ∧
  ((∀ (s : State) (p : PodN) (q : StreamRec) (l : List StreamRec), s.served = true → s.net = q :: l → q.eng / 32 = p.val →
     (s.routerRoom q.eng q.bytes = true → ∃ t, exec (.routerAccept p) s = .next t ∧ SameBut [.pods, .net, .side] s t ∧ t.net = l ∧
       t.side = (if (s.pod p.val).arrival = [] then s.side.filter fun r => !isArrival p.val r.1 else s.side) ∧
       (t.pod p.val).arrival = (s.pod p.val).arrival ++ [q]) ∧
     (s.routerRoom q.eng q.bytes = false → q.kind ≠ 2 → ∃ t, exec (.routerAccept p) s = .next t ∧ SameBut [.od, .net] s t ∧ t.net = l ∧
       t.cfg (0x2A01 + p.val) 5 = min (2 ^ 32 - 1) (s.cfg (0x2A01 + p.val) 5 + 1))) ∧
   (∀ (s : State) (e : EngN) (q : StreamRec) (l : List StreamRec) (a : Nat), e.val < 1024 → s.served = true → s.podUp (e.val / 32) = true →
     (∀ r ∈ s.side, isArrival (e.val / 32) r.1 = false) → s.arrivals e.val = q :: l → q.bytes.length % 3 = 0 → s.mem.wf = true → let u := (s.engine e.val).spu
     ringPlace u.rbase u.rsize u.occupied u.tail (wordsOf q.bytes) = some a →
     ∃ t, exec (.routerPublish e) s = .next t ∧ SameBut [.eng, .pods, .mem] s t ∧ s.mem.Holds t.mem (dmemAddr e.val a 0) q.bytes ∧
       (t.engine e.val).held = (s.engine e.val).held ∧ (t.engine e.val).spu.ring = u.ring ++ [⟨a, wordsOf q.bytes, Fin.ofNat 4 q.kind⟩] ∧
       (t.pod (e.val / 32)).arrival = (s.pod (e.val / 32)).arrival.erase q))

/-- ENGINE_MOVE at an engine that issues, with its bundle in the prefetch queue (08 R153, R155, R163): moves to registers are performed together; each register
takes the value its source showed at the start of the cycle, as a word, and all else the engine holds stays. -/
def Obligations.BundleMovesRegisters : Prop :=
  ∀ (s : State) (e : EngN) (b : BitVec 128), s.issues e.val →
    let x0 := (s.engine e.val).atTwo s.tb.tick.toNat s.now
    let moves := (decodeBundle b).live x0.ctl.guards
    x0.queued x0.ctl.pc.toNat = some b → (decodeBundle b).faultOf x0.ctl.guards (x0.ctl.mode.getLsbD 3) x0.rpt.n.val = none →
    (∀ m ∈ moves, 0x20 ≤ m.dst ∧ m.dst < 0x60) →
    ∃ t, exec (.engineMove e) s = .next t ∧ OnlyEngine e.val s t ∧ { (t.engine e.val).held with ga := x0.ga, gb := x0.gb } = x0.held ∧
      ∀ n, 0x20 ≤ n → n < 0x60 → (t.engine e.val).read n = match moves.find? (·.dst = n) with
        | some m => longOf (wordOf (x0.value m.src))
        | none => x0.read n

/-- CTL_MODE_WRITE, CTL_DOOR_WRITE and CHK_CFG_WRITE at an engine that issues (08 R166, R167, 09 R198, R200, 12 R249, R274): the new mode waits for two more
cycles after this one and keeps SUP and IE in task mode; a supervisor's message stands in the doorbell register, with OVR when one stood there; a CFG without
PRESET sets its fields, and PRESET 6 the CRC of 09 R198. CHAINED_STATE_WRITE at an engine that issues (09 R194 to R198, 00 R12): each port of chained state
takes what is written; SV and SDZ fall where a 1 is written to them, unless an operation that completes in the cycle sets them; what such an operation leaves
stands in the parts that are not written. The model's choices: log entries 52, 55. -/
def Obligations.ControlAndChainedWrites : Prop :=
  (∀ (s : State) (e : EngN) (v : W24), s.issues e.val →
     let x0 := s.engine e.val
     let h := x0.held
     (EngineDoes s e (.ctlModeWrite e v) h fun x => x.ctl.pend = some (2,
       (if x0.ctl.mode.getLsbD 3 then v.extractLsb' 6 2 else x0.ctl.mode.extractLsb' 2 2) ++ v.extractLsb' 1 2)) ∧
     (x0.ctl.mode.getLsbD 3 = true → e.val < 1024 → ∃ t, exec (.ctlDoorWrite e v) s = .next t ∧ SameBut [.eng, .pst] s t ∧
       (t.engine e.val).held = h ∧ t.pst = { s.pst with doors := s.pst.doors.set e.val ⟨true, (s.door e.val).ovr || (s.door e.val).full, v⟩ }) ∧
     (¬(1 ≤ v.toNat / 256 % 8 ∧ v.toNat / 256 % 8 ≤ 6) → EngineDoes s e (.chkCfgWrite e v) { h with chkCfg := v.toNat % 256 } fun _ => True) ∧
     (v.toNat / 256 % 8 = 6 → x0.chk.fl = [] → EngineDoes s e (.chkCfgWrite e v) { h with chkCfg := 31 + 32 + 64 + 128, chkPoly := 0x1EDC6F41 } fun x =>
       x.chk.crc = 0xFFFFFFFF)) ∧
  (∀ (s : State) (e : EngN) (v : L48), s.issues e.val →
     let x0 := s.engine e.val
     let h := x0.held
     let flg := fun (f : BitVec 5) => (f.getLsbD 4 && !v.getLsbD 4, v.getLsbD 3, v.getLsbD 2, v.getLsbD 1, v.getLsbD 0)
     let five := fun (f : BitVec 5) => (f.getLsbD 4, f.getLsbD 3, f.getLsbD 2, f.getLsbD 1, f.getLsbD 0)
     let mac := x0.mac.fl.find? fun f => f.k = 1 && !f.keep
     let acc := mac.elim x0.mac.acc fun f => if f.form = 3 then x0.mac.acc else f.val
     (∃ g, five g = flg x0.alu0.flg ∧
       EngineDoes s e (.chainedStateWrite e 0x0A8 v) { h with alu0 := (h.alu0.1, h.alu0.2.1, h.alu0.2.2.1, g) } fun _ => True) ∧
     (∃ g, five g = flg x0.alu1.flg ∧
       EngineDoes s e (.chainedStateWrite e 0x0E8 v) { h with alu1 := (h.alu1.1, h.alu1.2.1, h.alu1.2.2.1, g) } fun _ => True) ∧
     (EngineDoes s e (.chainedStateWrite e 0x128 v) h fun x => x.mac.v = v.getLsbD 0 ∧ x.mac.sv = ((x0.mac.sv && !v.getLsbD 1) || x0.mac.sets || mac.any (·.v))) ∧
     (EngineDoes s e (.chainedStateWrite e 0x129 v) h fun x => x.mac.acc = acc.extractLsb' 24 32 ++ v.setWidth 24) ∧
     (EngineDoes s e (.chainedStateWrite e 0x12A v) h fun x => x.mac.acc = acc.extractLsb' 48 8 ++ v.setWidth 24 ++ acc.extractLsb' 0 24) ∧
     (EngineDoes s e (.chainedStateWrite e 0x12B v) h fun x => x.mac.acc = v.setWidth 8 ++ acc.extractLsb' 0 48) ∧
     (EngineDoes s e (.chainedStateWrite e 0x1AA v) h fun x => x.chk.crc = v.setWidth 32) ∧
     (EngineDoes s e (.chainedStateWrite e 0x1E8 v) h fun x => x.div.dz = v.getLsbD 0 ∧ x.div.v = v.getLsbD 1 ∧
       x.div.sdz = ((x0.div.sdz && !v.getLsbD 2) || x0.div.sets || x0.div.fl.any fun f => f.k = 1 && !f.keep && f.dz)))

/-- RPT_COUNT_WRITE, RPT_BOUNDS_WRITE and SMV_PORT_WRITE at an engine that issues, where this bundle ends no repeat body and no string operation runs (11 R232,
R235, R236, R241): the port named takes the value; a count of an active level is marked as written. SPU_RING_WRITE by a supervisor and SPU_PRED_WRITE at an
engine of a pod that issues (09 R202, 05 R97, R100): base and size in 64-word blocks, held inside DMEM, and an empty ring at the base, the records in it or on
their way to it counted as router drops; the predictor settings of a channel stand in the pod's Mill when the active Signal Map names the engine as its owner
or the engine's own lane carries it, and a channel that it names for other engines alone is left as it is. The model's choices: log entries 52, 55, 57, 70. -/
def Obligations.RepeatStringStreamPorts : Prop :=
  (∀ (s : State) (e : EngN) (v : W24), s.issues e.val →
     let x0 := s.engine e.val
     let h := x0.held
     let r := x0.rpt
     let m := x0.smv
     (r.n = 0 →
       (EngineDoes s e (.rptCountWrite e 0x2E8 v) h fun x => x.rpt = r) ∧ (EngineDoes s e (.rptCountWrite e 0x2EA v) h fun x => x.rpt = { r with c0 := v }) ∧
       (EngineDoes s e (.rptCountWrite e 0x2ED v) h fun x => x.rpt = { r with c1 := v }) ∧
       (EngineDoes s e (.rptBoundsWrite e 0x2E0 v) { h with rptO := v.setWidth 11 } fun x => x.rpt = { r with o := v.setWidth 11 }) ∧
       (EngineDoes s e (.rptBoundsWrite e 0x2EB v) h fun x => x.rpt = { r with s0 := v.setWidth 11 }) ∧
       (EngineDoes s e (.rptBoundsWrite e 0x2EC v) h fun x => x.rpt = { r with e0 := v.setWidth 11 }) ∧
       (EngineDoes s e (.rptBoundsWrite e 0x2EE v) h fun x => x.rpt = { r with s1 := v.setWidth 11 }) ∧
       (EngineDoes s e (.rptBoundsWrite e 0x2EF v) h fun x => x.rpt = { r with e1 := v.setWidth 11 })) ∧
     (r.n = 1 → r.e0 ≠ x0.ctl.pc →
       (EngineDoes s e (.rptCountWrite e 0x2E8 v) h fun x => x.rpt = { r with c0 := v, w0 := true }) ∧
       (EngineDoes s e (.rptCountWrite e 0x2EA v) h fun x => x.rpt = { r with c0 := v, w0 := true }) ∧
       (EngineDoes s e (.rptCountWrite e 0x2ED v) h fun x => x.rpt = { r with c1 := v })) ∧
     (m.act = false → m.seen = none → m.bad = false →
       (EngineDoes s e (.smvPortWrite e 0x328 v) h fun x => x.smv = { m with src := v.setWidth 15 }) ∧
       (EngineDoes s e (.smvPortWrite e 0x329 v) h fun x => x.smv = { m with dst := v.setWidth 15 }) ∧
       (EngineDoes s e (.smvPortWrite e 0x32A v) h fun x => x.smv = { m with n := v.setWidth 15 }) ∧
       (EngineDoes s e (.smvPortWrite e 0x32B v) { h with smvPat := v } fun x => x.smv = { m with pat := v }))) ∧
  (∀ (s : State) (e : EngN) (v : W24), s.issues e.val → e.val < 1024 →
     let x0 := (s.engine e.val).atTwo s.tb.tick.toNat s.now
     let n := v.toNat / 64 % 512 * 64
     let lost := x0.spu.ring.length + (s.arrivals e.val).length
     let emptied := fun (t : State) (base : Nat) => SameBut [.eng, .pods, .od] s t ∧ (t.engine e.val).spu.tail = base ∧ (t.engine e.val).spu.cur = none ∧
       (t.engine e.val).spu.ring = [] ∧ t.arrivals e.val = [] ∧
       t.cfg (0x2A01 + e.val / 32) 5 = if lost = 0 then s.cfg (0x2A01 + e.val / 32) 5 else min (2 ^ 32 - 1) (s.cfg (0x2A01 + e.val / 32) 5 + lost)
     (x0.ctl.mode.getLsbD 3 = true →
       let base := min n 24512
       (∃ t, exec (.spuRingWrite e false v) s = .next t ∧ (t.engine e.val).held = { x0.held with rbase := base, rsize := min x0.spu.rsize (24576 - base) } ∧
         emptied t base) ∧
       (∃ t, exec (.spuRingWrite e true v) s = .next t ∧
         (t.engine e.val).held = { x0.held with rsize := min (max 64 (min n 12288)) (24576 - x0.spu.rbase) } ∧ emptied t x0.spu.rbase)) ∧
     (let c := v.toNat % 65536
      let named := fun (g : Nat) => ∃ m ∈ s.cls.activeBank.sm, bits m.2.toNat 98 16 = c ∧ bits m.2.toNat 88 10 = g
      let own := named e.val ∨ c ∈ (s.lane (0x1000 + e.val)).chans
      (own → ∃ t, exec (.spuPredWrite e v) s = .next t ∧ SameBut [.eng, .store, .link] s t ∧ (t.engine e.val).held = x0.held ∧
         Tab.get 2 (t.mill (e.val / 32)).order c = v.toNat / 65536 % 4 ∧ Tab.get true (t.mill (e.val / 32)).adapt c = v.getLsbD 19) ∧
      (¬own → (∃ g, named g) → EngineDoes s e (.spuPredWrite e v) x0.held fun _ => True)))

/-- EXCEPTION_ENTRY of a running engine at a boundary whose bundle stands in the prefetch queue, with nothing that runs to its end freezing it (12 R250 to R257,
R273): every cause due is taken in one entry, with the port exception of the bundle among them; without one a recognised interrupt is, a WAIT or an IN that
freezes the engine notwithstanding; a cause in handler state is a double fault, which writes CAUSE and halts the engine in state 2 with its doorbell rung. A
bundle whose fetch met an error response enters with the bus error (15 R333). In a cycle whose string step has been made no entry begins: its bundle issues
first (11 R248). The model's choices: log entry 54. -/
def Obligations.ExceptionEntryBegins : Prop :=
  ∀ (s : State) (e : EngN) (b : BitVec 128), s.engRuns e.val = true →
    let x0 := s.engine e.val
    let soft := x0.softFrozen s.tb.tick.toNat
    x0.exc.entry = none → x0.exc.restore = false → x0.ctl.bubble = false → x0.hardFrozen = false →
    let f := (decodeBundle b).faultOf x0.ctl.guards (x0.ctl.mode.getLsbD 3) x0.rpt.n.val
    let entered := fun (n : Entry) => EngineDoes s e (.exceptionEntry e) x0.held fun x =>
      x.exc.entry = some n ∧ x.exc.due = 0 ∧ x.pfq = [] ∧ x.ctl = x0.ctl ∧ x.rpt = x0.rpt
    (x0.fetchDue = true → x0.smv.seen = none → soft = false → x0.exc.handler = false → x0.exc.due = 0 → entered ⟨none, 64, 0⟩) ∧
    (x0.queued x0.ctl.pc.toNat = some b → x0.smv.seen.isSome = true → exec (.exceptionEntry e) s = .next s) ∧
    (x0.queued x0.ctl.pc.toNat = some b → x0.fetchDue = false → x0.smv.seen = none →
    (x0.exc.handler = false →
      (∀ slot reason, soft = false → f = some (slot, reason) → x0.exc.due = 0 → entered ⟨none, 1, BitVec.ofNat 8 (8 * slot + reason)⟩) ∧
      (soft = false → f = none → x0.exc.due ≠ 0 → x0.exc.due.getLsbD 0 = false →
        entered ⟨none, x0.exc.due, if x0.exc.due.getLsbD 1 then x0.exc.detail else 0⟩) ∧
      (f = none → x0.exc.due = 0 → x0.ctl.mode.getLsbD 2 = true → x0.exc.firstAfter = false →
        (x0.exc.ppend = true → entered ⟨some 1, 0, 0⟩) ∧
        (x0.exc.ppend = false → x0.exc.rie = true → x0.spu.ring ≠ [] → entered ⟨some 2, 0, 0⟩))) ∧
    (x0.exc.handler = true → e.val < 1024 → soft = false → f = none → x0.exc.due ≠ 0 → x0.exc.due.getLsbD 0 = false →
      let cause : BitVec 16 := (if x0.exc.due.getLsbD 1 then x0.exc.detail else 0) ++ x0.exc.due
      ∃ t, exec (.exceptionEntry e) s = .next t ∧ SameBut [.eng, .pst] s t ∧ (∀ j, j ≠ e.val → t.engine j = s.engine j) ∧
        (t.engine e.val).held = { x0.held with cause := cause } ∧ (t.engine e.val).exc.st = 2 ∧
        t.door e.val = ⟨true, (s.door e.val).ovr || (s.door e.val).full, BitVec.ofNat 24 (3 * 2 ^ 22 + cause.toNat)⟩))

/-- Where a block lies (12 R259, 18 R396): at word 2 x TSP of the PMEM of the engine's pod, of a Pestle engine of MSRAM, when all of it lies there. TSB_SAVE of a
running engine whose entry has nothing left to wait for, and whose handler is fetched without a memory error (12 R257, R258, R259, R272, R273, 18 R396): the
160 words of the block are written, CAUSE is written, and the handler starts at VBASE, or at VBASE + 4 for an interrupt, in supervisor mode with interrupts
off and nothing in flight; an escalated entry halts in state 1 instead; a TSP out of range halts an engine of a pod in state 3 with no word written. The rows
of the block pass every bank of the pod's PMEM, which has then served the engine last (08 R174). The model's choices: log entry 54. -/
def Obligations.TaskStateSaved : Prop :=
  (∀ (x : Engine) (e : Nat), let w := 2 * x.ctl.tsp.toNat
     (e < 1024 → x.tsbHome e = if w + 159 < 393216 then some (pmemAddr (e / 32) w 0) else none) ∧
     (1024 ≤ e → x.tsbHome e = if w + 159 < 262144 then some (msramBase + 3 * w) else none)) ∧
  (∀ (s : State) (e : EngN) (n : Entry), s.engRuns e.val = true → (s.engine e.val).exc.entry = some n → (s.engine e.val).settled = true →
     s.mem.wf = true → s.mem.inject = false →
     let x0 := s.engine e.val
     let cause : BitVec 16 := (n.irq.getD n.detail) ++ n.code
     let block := x0.tsbWords.flatMap (leBytes 3)
     let esc := n.irq = none ∧ n.code &&& x0.exc.esc ≠ 0
     (∀ a, x0.tsbHome e.val = some a → (({ s with mem := s.mem.writeBytes none a block } : State).rowsServed e.val).fetchesQuietly e.val →
       ∃ t, exec (.tsbSave e) s = .next t ∧ SameBut (if esc then [.eng, .pods, .mem, .pst] else [.eng, .pods, .mem]) s t ∧ s.banksServed t e.val ∧
       (∀ j, j ≠ e.val → t.engine j = s.engine j) ∧ s.mem.Holds t.mem a block ∧
       (t.engine e.val).held = { x0.held with cause := cause } ∧ (t.engine e.val).exc.entry = none ∧
       (t.engine e.val).ctl.mode = 8 ∧ (t.engine e.val).ctl.pend = none ∧ (t.engine e.val).ctl.jumps = [] ∧ (t.engine e.val).rpt.n = 0 ∧
       (t.engine e.val).smv.act = false ∧ (t.engine e.val).mac.fl = [] ∧ (t.engine e.val).chk.fl = [] ∧ (t.engine e.val).div.fl = none ∧
       (¬esc → (t.engine e.val).exc.handler = true ∧
         (t.engine e.val).ctl.pc = if n.irq = none then x0.ctl.vbase else x0.ctl.vbase + 4) ∧
       (esc → (t.engine e.val).exc.st = 1 ∧
         (e.val < 1024 → (t.door e.val).full = true ∧ (t.door e.val).msg = BitVec.ofNat 24 (2 * 2 ^ 22 + cause.toNat)))) ∧
     (x0.tsbHome e.val = none → e.val < 1024 → ∃ t, exec (.tsbSave e) s = .next t ∧ SameBut [.eng, .pst] s t ∧ (t.engine e.val).exc.st = 3 ∧
       (t.engine e.val).held = { x0.held with cause := cause } ∧ (t.door e.val).msg = BitVec.ofNat 24 (3 * 2 ^ 22 + cause.toNat)))

/-- TSB_RESTORE of a running engine that returns, has nothing left to wait for, and reads its block and its next bundle without a memory error (12 R260, R263,
R270, R273): the state of the block stands again and handler state is over; a TSP out of range halts an engine of a pod in state 3. The block holds the task
(12 R260 to R262): what it is filled with from an engine and what an engine takes from it again agree in registers, latches, results, accumulator, remainder,
flags, guards, modes, repeat levels, string ports and addresses; of CHK.O the five bits, of SPU.O the eleven that operations use. The model's choices: log
entry 54. -/
def Obligations.TaskStateRestored : Prop :=
  (∀ (s : State) (e : EngN), s.engRuns e.val = true → (s.engine e.val).exc.restore = true → (s.engine e.val).settled = true →
     (s.rowsServed e.val).fetchesQuietly e.val →
     let x0 := s.engine e.val
     (∀ a, x0.tsbHome e.val = some a → s.mem.sound a 480 = true →
       let word := fun (i : Nat) => leNat (s.mem.bytes (a + 3 * i) 3)
       ∃ t, exec (.tsbRestore e) s = .next t ∧ SameBut [.eng, .pods] s t ∧ (∀ j, j ≠ e.val → t.engine j = s.engine j) ∧ s.banksServed t e.val ∧
       (t.engine e.val).exc.handler = false ∧
       (t.engine e.val).exc.restore = false ∧ (t.engine e.val).exc.firstAfter = true ∧ (t.engine e.val).ctl.pc = BitVec.ofNat 11 (word 149) ∧
       (t.engine e.val).ctl.mode = BitVec.ofNat 4 (word 155 / 2 ^ 15) ∧ (t.engine e.val).ctl.link = BitVec.ofNat 11 (word 151) ∧
       (∀ i < 32, (t.engine e.val).ga.get 0 i = BitVec.ofNat 24 (word i) ∧ (t.engine e.val).gb.get 0 i = BitVec.ofNat 24 (word (32 + i))) ∧
       (∀ i < 8, (t.engine e.val).lx.get 0 i = BitVec.ofNat 48 (word (64 + 2 * i) + 2 ^ 24 * word (65 + 2 * i)))) ∧
     (x0.tsbHome e.val = none → e.val < 1024 → ∃ t, exec (.tsbRestore e) s = .next t ∧ SameBut [.eng, .pst] s t ∧ (t.engine e.val).exc.st = 3 ∧
       (t.engine e.val).held = x0.held ∧ (t.door e.val).msg = BitVec.ofNat 24 (3 * 2 ^ 22 + x0.ctl.cause.toNat))) ∧
  (∀ (x : Engine), x.ctl.guards.getLsbD 0 = true → x.spu.q = 0xFFFFFF ∨ x.spu.q.toNat < 2 ^ 17 → x.smv.n ≠ 0 ∨ x.smv.act = false →
     x.smv.hit = x.smv.q.getLsbD 15 → x.smv.q.toNat < 2 ^ 16 → x.chk.q.toNat < 2 ^ 32 →
     let y := x.restoreFrom x.tsbWords
     (∀ i < 32, y.ga.get 0 i = x.ga.get 0 i ∧ y.gb.get 0 i = x.gb.get 0 i) ∧ (∀ i < 8, y.lx.get 0 i = x.lx.get 0 i) ∧
     y.alu0.o2 = x.alu0.o2 ∧ y.alu0.q = x.alu0.q ∧ y.alu0.flg = x.alu0.flg ∧ y.alu1.o2 = x.alu1.o2 ∧ y.alu1.q = x.alu1.q ∧ y.alu1.flg = x.alu1.flg ∧
     y.shf.o2 = x.shf.o2 ∧ y.shf.q = x.shf.q ∧ y.mac.o = x.mac.o ∧ y.mac.q = x.mac.q ∧ y.mac.acc = x.mac.acc ∧ y.mac.sv = x.mac.sv ∧ y.mac.v = x.mac.v ∧
     y.chk.q = x.chk.q ∧ y.chk.crc = x.chk.crc ∧ y.chk.o = x.chk.o &&& 0x1F ∧ y.div.o = x.div.o ∧ y.div.q = x.div.q ∧ y.div.r = x.div.r ∧
     y.div.sdz = x.div.sdz ∧ y.div.v = x.div.v ∧ y.div.dz = x.div.dz ∧ y.lsu0.o = x.lsu0.o ∧ y.lsu0.q = x.lsu0.q ∧ y.lsu1.o = x.lsu1.o ∧
     y.lsu1.q = x.lsu1.q ∧ y.ctl.o = x.ctl.o ∧ y.ctl.link = x.ctl.link ∧ y.ctl.pc = x.ctl.pc ∧ y.ctl.guards = x.ctl.guards ∧ y.ctl.mode = x.ctl.mode ∧
     y.rpt = x.rpt ∧ y.smv.q = x.smv.q ∧ y.smv.src = x.smv.src ∧ y.smv.dst = x.smv.dst ∧ y.smv.n = x.smv.n ∧ y.smv.pat = x.smv.pat ∧
     y.smv.act = x.smv.act ∧ y.smv.op = x.smv.op ∧ y.smv.ne = x.smv.ne ∧ y.smv.down = x.smv.down ∧ y.smv.hit = x.smv.hit ∧
     y.tsu.q = x.tsu.q ∧ y.tsu.epl = x.tsu.epl ∧ y.spu.q = x.spu.q ∧ y.spu.o = x.spu.o &&& 0x8003FF)

/-- A register write of a master that its port, its target and the register's owner allow (15 R328, R335, R337, R338, 14 R304, R318, 12 R253, R272, 18 R397, R398,
19 R438): the register takes the value in its writable fields, and the master gets an answer without error. GRN_INJ_ARM by a master that may write both
registers (14 R318): ADDR, TWO and BIT are held, and with ARM at an address in PMEM, the staging store, MSRAM or the IMEM window the injection is armed; of
any other address it is not. The model's choices: log entry 30. -/
def Obligations.RegisterWritesComplete : Prop :=
  (∀ (s : State) (m : MasterN) (v : BitVec 32), s.xbarOn = true →
     let ok := fun (t : State) => t.send (.response m.val 0 false [])
     let may := fun (k : MasterN) (a : Nat) => s.xCause (regReq k a v) none = none
     (may m 0x400000000 → exec (.xbMapWrite m v) s = .next (ok { s with xbar := { s.xbar with remap := v.getLsbD 0 } })) ∧
     (∀ (p : MasterN) (d : Fin 16) (r : Fin 3), may m (0x400020000 + rgnKey p.val d.val r.val) →
       let w := if r = 2 then v &&& 0xF else v
       exec (.xbRgnWrite m p d r v) s = .next (ok { s with xbar := { s.xbar with rgn := s.xbar.rgn.set (rgnKey p.val d.val r.val) w } })) ∧
     (∀ (p : MasterN) (t : Fin 56), may m (0x400000100 + 4 * t.val) →
       exec (.xbArbitrationWrite m true p t v) s = .next (ok { s with xbar := { s.xbar with park := s.xbar.park.set t.val (v.toNat % 64) } })) ∧
     (∀ (p : MasterN) (t : Fin 56), may m (0x400010000 + 4 * (64 * t.val + p.val)) →
       exec (.xbArbitrationWrite m false p t v) s = .next (ok { s with xbar := { s.xbar with prio := s.xbar.prio.set (64 * t.val + p.val) (v.toNat % 16) } })) ∧
     (may m 0x400000010 → exec (.xbErrInfoClear m v) s = .next (ok (if v.getLsbD 31 then
         { s with xbar := { s.xbar with err := none, lastErr := s.xbar.err.or s.xbar.lastErr } } else s))) ∧
     (∀ (k : Fin 4), may m (0x400100000 + 4 * k.val) →
       exec (.pstFbaseWrite m k v) s = .next (ok { s with pst := { s.pst with fbase := s.pst.fbase.set k.val (v.setWidth 25) } })) ∧
     (∀ (k : Fin 4), may ⟨32 + k.val, by omega⟩ (0x400100010 + 4 * k.val) →
       let t := if v.toNat % 256 = 0x5A then { s with pst := { s.pst with kicked := s.pst.kicked.set k.val s.now } } else s
       exec (.watchdogKick k v) s = .next (t.send (.response (32 + k.val) 0 false []))) ∧
     (∀ (g : Fin 1024), may m (engReg g.val 0) → let x := s.engine g.val
       let p := if v.getLsbD 0 then true else if v.getLsbD 1 then false else x.exc.ppend
       exec (.engIrqWrite m g v) s = .next (ok (s.setEngine g.val { x with exc := { x.exc with rie := v.getLsbD 3, ppend := p } }))) ∧
     (∀ (g : Fin 1024), let x := s.engine g.val
       s.xCause (regReq m (engReg g.val 4) (BitVec.ofNat 32 (x.exc.esc.toNat * 256 + 1))) none = none → x.exc.st = 1 →
       exec (.engExcResume m g) s = .next (ok (s.setEngine g.val { x with exc := { x.exc with st := 0, restore := true, resuming := true } }))) ∧
     (∀ (p : PodN), may m (0x400200100 + 4 * p.val) → ∃ t, exec (.pccErstWrite m p v) s = .next t ∧ (t.pod p.val).erst = v ∧
       ∀ i < 32, t.engine (32 * p.val + i) = if v.getLsbD i && !(s.pod p.val).erst.getLsbD i then
         ({ spu := { done := (s.engine (32 * p.val + i)).spu.done }, lsu1 := { fl := (s.engine (32 * p.val + i)).lsu1.lasting } } : Engine) else s.engine (32 * p.val + i))) ∧
  (∀ (s : State) (m : MasterN) (lo hi : BitVec 32), s.xbarOn = true → s.xCause (regReq m 0x400300004 lo) none = none →
     s.xCause (regReq m 0x400300008 hi) none = none → s.mem.inject = false →
     let h := hi &&& 0x5E0000FF
     ∃ t, exec (.grnInjArm m lo hi) s = .next t ∧ SameBut [.mem, .out] s t ∧
       t.mem = { s.mem with injLo := lo, injHi := h, inject := hi.getLsbD 31 && (injHome s.xbar.remap lo h).isSome } ∧
       t.out = s.out ++ [.response m.val 0 false [], .response m.val 0 false []])

/-- A request that meets a cause of R333 at its master port gets an error response with zero data, is captured when nothing is, is counted by its cause, and is an
uncorrectable error on its path to a data-plane master (15 R333, R335, R339). Shown at a write of XB_MAP by a master outside 32 to 35, which R328 reserves to
Pestle, when this master's error was logged less than a second ago. XBAR_GRANT of a target at which one request to MSRAM waits (15 R326, R336): a read answers
the bytes there, a write through the plain window writes them there and nowhere else. Of several requests the one granted has the highest PRIO among those
waiting. XBAR_STARVATION of a master that waits at a target and TRANSFER_STARVATION of a pod that is up and at which a router or inbound transfer waits, when
such an event was logged less than a second ago (15 R336, 14 R299): the counter rises by one and holds at its maximum, and nothing else changes. The model's
choices: log entries 29, 30. -/
def Obligations.CrossbarServesRequests : Prop :=
  (∀ (s : State) (m : MasterN) (v : BitVec 32), s.xbarOn = true → m.val < 32 ∨ 35 < m.val →
     (m.val < 32 ∨ s.regionOk m.val 2 0x400000000 4 = true) → s.xbar.closed.contains 46 = false → dueAt s.now s.xbar.errLogAt m.val = false →
     exec (.xbMapWrite m v) s = .next ((((match s.xbar.err with
       | some _ => s
       | none => { s with xbar := { s.xbar with err := some ⟨3, true, m, 46, 0x400000000⟩ } }).bump 0x2950 1).send
       (.response m.val 0 true [])).dataFailed m.val 0x400000000)) ∧
  ((∀ (s : State) (w : XWait), s.xbarOn = true → Tab.get [] s.xbar.waiting 1 = [w] → w.op = 0 → w.eng = none → msramBase ≤ w.home →
     w.home + w.req.len.val ≤ msramBase + 786432 → w.req.len.val ≤ 64 →
     (w.req.write = false → s.mem.sound w.home w.req.len.val = true → ∃ t, exec (.xbarGrant 1 []) s = .next t ∧ SameBut [.xbar, .out] s t ∧
       t.xbar.waiting = s.xbar.waiting.erase 1 ∧ t.out = s.out ++ [.response w.req.master.val w.req.tag false (s.mem.bytes w.home w.req.len.val)]) ∧
     (w.req.write = true → w.req.data.length = w.req.len.val → s.mem.inject = false → s.mem.wf = true →
       ∃ t, exec (.xbarGrant 1 []) s = .next t ∧ SameBut [.xbar, .out, .mem] s t ∧ t.xbar.waiting = s.xbar.waiting.erase 1 ∧
         s.mem.Holds t.mem w.home w.req.data ∧ t.out = s.out ++ [.response w.req.master.val w.req.tag false []])) ∧
   (∀ (s : State) (t m : Nat) (l : List XWait), s.pickMaster t l = some m →
     (∃ w ∈ l, w.req.master.val = m) ∧ ∀ w ∈ l, s.prio t w.req.master.val ≤ s.prio t m)) ∧
  ((∀ (s : State) (t : Fin 56) (m : MasterN), (waitMasters (Tab.get [] s.xbar.waiting t.val)).contains m.val = true →
     dueAt s.now s.xbar.starveLogAt t.val = false →
     ∃ u, exec (.xbarStarvation t m) s = .next u ∧ SameBut [.od] s u ∧ u.cfg 0x2950 4 = min (2 ^ 32 - 1) (s.cfg 0x2950 4 + 1)) ∧
   (∀ (s : State) (p : PodN), s.podUp p.val = true → s.transferWaits p.val = true →
     dueAt s.now s.xbar.starveLogAt (64 + p.val) = false →
     ∃ u, exec (.transferStarvation p) s = .next u ∧ SameBut [.od] s u ∧
       u.cfg (0x2A01 + p.val) 7 = min (2 ^ 32 - 1) (s.cfg (0x2A01 + p.val) 7 + 1)))

/-- POD_CLOCK_STEP of a powered pod in RUN to a step that the pod may take (08 R175, 18 R417, 19 R422): the pod runs at it, and the core voltage is that of the
fastest running pod. The model's choices: log entry 35. -/
def Obligations.ClockStepTaken : Prop :=
  ∀ (s : State) (p : PodN) (k : Fin 5), s.served = true → s.pwr.st.val = 0 → (s.pod p.val).powered = true → s.stepAllowed p.val k.val = true →
    ∃ t, exec (.podClockStep p k) s = .next t ∧ SameBut [.pods, .pwr] s t ∧ (∀ j, j ≠ p.val → t.pod j = s.pod j) ∧
      t.pod p.val = { s.pod p.val with step := k } ∧
      t.pwr = if t.runVolts = s.pwr.vcore then s.pwr else { s.pwr with vcore := t.runVolts, vcoreWas := s.pwr.vcore, vcoreAt := s.now }

/-- The time base's events (02 R28, R31, R34 to R39). TICK_WRAP with the corrections within R27's bounds: the tick restarts near 0 and the epoch is one more.
CALIBRATION: CAL is 1 and the constants are new. SOURCE_SELECTION: in IDLE the source that R34 puts first is followed and locked, the count being stepped
where it is more than 1 us off; outside IDLE it is followed up to 1 ms and held beyond, while the present source is followed on (R36); with none the base is
in holdover or free-running. SOURCE_QUALIFIED, SOURCE_LOST: the source may displace, or is gone. PPS_PULSE: three in time qualify, one out of time counts.
GPTP_MESSAGE with time for the follower port: it stands qualified with its offset and rate. GPTP_SYNC_TIMER of a grandmaster: a peer-delay request leaves, or
the priority values, a Sync and its follow-up. The model's choices: log entries 5, 9, 13. -/
def Obligations.TimeBaseEventsComplete : Prop :=
  ∀ (s : State),
    (∀ (l : List PortN), s.tb.rate.natAbs ≤ 200000 → s.tb.acc.natAbs < 1000000000 →
      ∃ t, exec (.tickWrap l) s = .next t ∧ SameBut [.tb, .ports, .store, .free] s t ∧ t.tb.epoch = s.tb.epoch + 1 ∧
        t.tb.tick.toNat < (if s.tb.husk then 122100 else 5)) ∧
    (s.served = true → exec .calibration s =
      .next { s with tb := { s.tb with cal := true, calGen := s.tb.calGen + 1 }, pst := { s.pst with calTemps := s.pst.temps } }) ∧
    (s.served = true → ∃ t, exec .sourceSelection s = .next t ∧
      SameBut ([.tb, .ports, .cls, .fab, .sw, .pods, .mem, .pst, .pwr] ++ Part.logging) s t ∧
      let k := s.wanted
      let off := (s.tb.source k).offset
      (k ≠ 0 → s.sourceOk k = true) ∧
      (k = 0 ∨ s.sess.st ≠ .idle ∨ off.natAbs ≤ 4000 → SameBut (.tb :: Part.logging) s t) ∧
      (k ≠ 0 → s.sess.st = .idle → t.tb.src.val = k ∧ t.tb.lock = 2 ∧ t.tb.held = false ∧
        (4000 < off.natAbs → t.now = (((s.now : Int) + off) % 2 ^ 80).toNat) ∧ (off.natAbs ≤ 4000 → t.now = s.now)) ∧
      (k ≠ 0 → s.sess.st ≠ .idle → t.now = s.now ∧
        (off.natAbs ≤ 4000000 → t.tb.src.val = k ∧ t.tb.held = false ∧ t.tb.lock = (if off.natAbs ≤ 4000 then 2 else 1) ∧
          t.tb.rate = rateFor (s.tb.source k).rate off) ∧
        (4000000 < off.natAbs → t.tb.held = true ∧ (s.tb.src.val = k → t.tb.src = 0) ∧
          (s.tb.src.val ≠ k → s.sourceOk s.tb.src.val = true → t.tb.src = s.tb.src ∧
            t.tb.rate = rateFor (s.tb.source s.tb.src.val).rate (s.tb.source s.tb.src.val).offset))) ∧
      (k = 0 → t.now = s.now ∧ t.tb.src = 0 ∧ t.tb.held = false ∧ t.tb.lock = (if s.tb.wasLocked = true then 3 else 0) ∧
        t.tb.rate = clampRate s.tb.srcRate)) ∧
    (∀ (k : TimeSrc) (c : Nat), (s.tb.source (srcCode k)).since = some c → c + 3 * secTicks < (s.tb.epoch.toNat + 1) * 2 ^ 48 →
      ∃ t, exec (.sourceQualified k) s = .next t ∧ SameBut [.tb] s t ∧ t.now = max s.now (c + 3 * secTicks) ∧
        t.tb.source (srcCode k) = { s.tb.source (srcCode k) with ripe := true }) ∧
    (∀ (k : TimeSrc), ∃ t, exec (.sourceLost k) s = .next t ∧
      SameBut ([.tb, .ports, .cls, .fab, .sw, .pods, .mem, .pst, .pwr] ++ Part.logging) s t ∧
      (t.tb.source (srcCode k)).since = none ∧ (t.tb.source (srcCode k)).ripe = false ∧ t.tb.src.val ≠ srcCode k) ∧
    (∀ (r : Bool) (d : Stamp), s.served = true → (s.cfg 0x2200 2 = 0 ↔ r = true) → ∃ t, exec (.ppsPulse r d) s = .next t ∧
      SameBut (.tb :: Part.logging) s t ∧
      let c := s.ppsTime d
      (s.tb.ppsLast = none → t.tb.ppsValid = 1 ∧ t.tb.ppsLast = some c ∧ t.tb.pps.since = s.tb.pps.since) ∧
      (∀ l, s.tb.ppsLast = some l → ppsInTime l c = true → t.tb.ppsLast = some c ∧ t.tb.ppsValid = min 3 (s.tb.ppsValid + 1) ∧
        (s.tb.ppsValid = 2 → t.tb.pps.since = some c)) ∧
      (∀ l, s.tb.ppsLast = some l → ppsInTime l c = false → c ≤ l + 2 * secTicks → t.tb.ppsBad = s.tb.ppsBad + 1 ∧ t.tb.ppsLast = some l ∧
        t.tb.ppsValid = s.tb.ppsValid ∧ t.tb.pps = s.tb.pps) ∧
      (∀ l, s.tb.ppsLast = some l → l + 2 * secTicks < c → s.tb.pps.since = none → t.tb.ppsValid = 1 ∧ t.tb.ppsLast = some c)) ∧
    (∀ (i : Fin 16) (d : Stamp) (m : GptpMsg), s.served = true → (s.port (macPort i.val)).link.isSome = true → m.kind = .sync →
      s.gptpFollows i.val = true → s.cfg 0x2200 4 = m.domain.val →
      ∃ t, exec (.gptpMessage i d m) s = .next t ∧
        let c := (s.reach d.count).pinTime (macPort i.val) d
        t.tb.gptp.offset = m.offset ∧ t.tb.gptp.rate = m.ratePpb ∧ t.tb.gptp.last = some c ∧
        t.tb.gptp.since = some (s.tb.gptp.since.getD c) ∧ t.tb.pps = s.tb.pps ∧ t.tb.fabric = s.tb.fabric) ∧
    (∀ (i : Fin 16), s.served = true → (s.port (macPort i.val)).link.isSome = true → s.gptpMaster = true →
      let d := s.cfg 0x2200 4
      exec (.gptpSyncTimer i true) s = .next { s with out := s.out ++ [.gptp i.val (.pdelayReq d)] } ∧
      exec (.gptpSyncTimer i false) s = .next { s with out := s.out ++ [.gptp i.val (.announce d Config.gptpPriority.1 Config.gptpPriority.2),
        .gptp i.val (.sync d), .gptp i.val (.followUp d (s.tb.map.tai (s.macOut i.val)))] })

/-- The requests to the time base of a path that targets this device (02 R41, R43): the shadow mapping comes into force, or is refused while the mapping is set
from 802.1AS or the fabric; the UTC offset changes at once; a read of the epoch takes a snapshot for its path, whose tick the other read answers, and without
one that read aborts with 0x0800_0022. -/
def Obligations.TimeBaseRequestsComplete : Prop :=
  ∀ (s : State) (p : Path), s.served = true → s.remote p = none →
    (s.sess.st = .idle → s.tb.src ≠ 3 → s.isFollower = false →
      exec (.commitShadowMapping p 1) s = .next (({ s with tb := { s.tb with map := s.shadowMap, validity := 1 } } : State).answer p [])) ∧
    (s.tb.src = 3 ∨ s.isFollower = true → exec (.commitShadowMapping p 1) s = .next (s.refuseLog p 0x2210 8 1 abState)) ∧
    (∀ v, s.sess.st = .idle → s.isFollower = false → exec (.utcOffsetWrite p v) s = .next ((s.put 0x2210 6 v.toNat).answer p [])) ∧
    (∀ v, s.isFollower = true → exec (.utcOffsetWrite p v) s = .next (s.refuseLog p 0x2210 6 v.toNat abState)) ∧
    (exec (.chipTimeSnapshotRead p) s = .next (({ s with
      acc := { s.acc with snaps := s.acc.snaps.set (pathCode p) (s.tb.epoch, s.tb.tick) } } : State).answer p (leBytes 4 s.tb.epoch.toNat))) ∧
    (∀ x, s.acc.snaps.find (pathCode p) = some x → exec (.snapshotTickRead p) s = .next (s.answer p (leBytes 6 x.2.toNat))) ∧
    (s.acc.snaps.find (pathCode p) = none → exec (.snapshotTickRead p) s = .next (s.refuse p 0x2202 2 0 0x08000022))

/-- CAN capture at a port that takes records and captured at the frame's start edge (03 R50, R53 to R57, R70, R472). A frame becomes a record with its pin time,
kind, identifier and payload, lowers the receive error count of an active node and is acknowledged except in monitoring mode and in bus-off; an XL frame at a
port with XL disabled becomes a bus event instead, at a bit position that is free. A bus event is recorded with the port's error counts, which it sets in
normal mode, unless a commit has ended that mode since, and with TX when it failed a frame of this device; an error has an active node send an error frame;
recovery from bus-off clears the counts and is logged. Ethernet capture (03 R52, R58 to R60, R70): a frame at a MAC that captured at its start edge and whose
link is up becomes a record of its count, tags, flags and bytes; link up and down change the port's link and, at an enabled port that carries no link (01
R18), raise their notices. Capture on low-speed ports, event pins and sample ports that take records (03 R50, R61 to R65, R70): each mode's frames become
records; a LIN responder sends its stored response, recorded with TX, and a response to a header that this device sent completes the sending; an accepted
level becomes the present level and its edge is recorded when selected; sample-port frames are numbered. The model's choices: log entries 7, 14, 18, 19, 62,
65. -/
def Obligations.CaptureCompletes : Prop :=
  (∀ (s : State) (i : Fin 96) (d : Stamp), let p := i.val
     s.takes p = true → s.heard p d = true →
     let c := s.pinTime p d
     let g := s.frameGen p d
     (∀ (f : CanFrame), f.fmt ≠ .xl ∨ s.setting p d 10 ≠ 0 → ∃ t, exec (.canFrameReceived i d f) s = .next t ∧
       Recorded s t p g c (canKind f) (canAux f) (s.pinFlags 0) (canId f) (canPayload f) ∧
       (t.port p).rec_ = (if s.canActive p d && s.portCfg p 5 = 2 then (if 127 < (s.port p).rec_ then 119 else (s.port p).rec_ - 1) else (s.port p).rec_) ∧
       (s.canMode p d ≠ 0 → (s.port p).errState ≠ 2 → t.out.getLast? = some (.canAck p))) ∧
     (∀ (f : CanFrame), f.fmt = .xl → s.setting p d 10 = 0 → ∃ t n, exec (.canFrameReceived i d f) s = .next t ∧
       (s.setting p d 13 = 1 → Recorded s t p g c 5 22 (s.pinFlags 8) (canId f) (leBytes 2 (min n 65535) ++ (s.port p).counts)) ∧
       (s.setting p d 13 ≠ 1 → Recorded s t p g c 5 19 (s.pinFlags 8) (canId f) (leBytes 2 (min n 65535) ++ (t.port p).counts) ∧
         (t.port p).rec_ = (s.port p).rec_ + (if s.canActive p d && s.portCfg p 5 = 2 then 1 else 0))) ∧
     (∀ (ev : CanEvent), ev.code.val < 7 ∨ s.canMode p d = 2 → ∃ t, exec (.canBusEvent i d ev) s = .next t ∧
       let code := if ev.code.val = 6 ∧ s.setting p d 13 = 0 then 3 else ev.code.val
       Recorded s t p g c 5 (code + 16 * ev.field.val) (s.pinFlags ((if code ≤ 4 ∨ code = 6 then 8 else 0) +
           (if ev.own = true ∧ code ≤ 4 then (s.reach d.count).failedFlags p d else 0)))
         (if ev.field.val = 0 ∨ ev.field.val = 5 then 0 else ev.ident.toNat) (leBytes 2 (min ev.bitPos 65535) ++ (t.port p).counts ++ ev.bytes) ∧
       let moves := s.canMode p d = 2 ∧ s.portCfg p 5 = 2
       (t.port p).rec_ = (if moves then ev.rec_ else (s.port p).rec_) ∧
       (t.port p).tec = (if moves then ev.tec else (s.port p).tec) ∧
       (t.port p).errState = (if moves then stateOfCode code (s.port p).errState else (s.port p).errState) ∧
       (code ≤ 4 → ev.xlData = false → s.canActive p d = true → t.out.getLast? = some (.canErrorFrame p)) ∧
       (7 ≤ code → Logged s t 1 0x2310 0 0)) ∧
     (s.canMode p d = 2 → (s.port p).errState = 2 → ∃ t, exec (.busOffRecovery i d) s = .next t ∧
       Recorded s t p g c 5 89 (s.pinFlags 0) 0 [0, 0, 0, 0] ∧ (t.port p).rec_ = 0 ∧ (t.port p).tec = 0 ∧ (t.port p).errState = 0 ∧
       Logged s t 1 0x2310 0 0)) ∧
  (∀ (s : State) (m : Fin 16), let p := macPort m.val
     (∀ (d : Stamp) (f : EthFrame) (r : Fin 6), s.takes p = true → s.heard p d = true → (s.port p).link = some r → s.portUse p ≠ 3 →
       ∃ t, exec (.ethernetFrameReceived m d f) s = .next t ∧
         Recorded s t p (s.frameGen p d) (s.pinTime p d) 6 ((ethTags (ethKept f) 12 3).1 + 4 * r.val) (s.pinFlags (ethFlags f))
           (min f.wireLen 65535 * 65536 + ethTci (ethKept f)) (ethKept f)) ∧
     (∀ (r : Fin 6), ∃ t q, exec (.ethLinkUp m r) s = .next t ∧ (t.port p).link = some q ∧
       q.val = (if 1 ≤ s.portCfg p 5 ∧ s.portCfg p 5 ≤ 6 then s.portCfg p 5 - 1 else r.val) ∧
       (s.takes p = true → (s.port p).enabled = true → s.portUse p ≠ 3 → Noticed s t p 2 [BitVec.ofNat 8 q.val])) ∧
     ((s.port p).link.isSome = true → ∃ t, exec (.ethLinkDown m) s = .next t ∧ (t.port p).link = none ∧
       (s.takes p = true → (s.port p).enabled = true → s.portUse p ≠ 3 → Noticed s t p 3 []))) ∧
  (∀ (s : State) (d : Stamp),
     (∀ (i : Fin 32), let p := lspPort i.val
       s.takes p = true → let c := s.pinTime p d
       let g := s.frameGen p d
       (s.lspOn p d 0 = true → ∀ f, ∃ t, exec (.sentFrameReceived i d f) s = .next t ∧
         Recorded s t p g c 7 f.kind.val (s.pinFlags ((if f.crcBad then 16 else 0) + (if f.pulseBad then 64 else 0))) f.clockPs (sentPayload f)) ∧
       (s.lspOn p d 1 = true → ∀ f, ∃ t, exec (.psi5FrameReceived i d f) s = .next t ∧
         Recorded s t p g c 8 (f.nbits.val + 32 * f.slot.val) (s.pinFlags ((if f.checkBad then 16 else 0) + (if f.manchesterBad then 64 else 0)))
           (if s.setting p d 8 % 2 = 1 then f.syncTicks.toNat else 0) (leBytes 4 f.data.toNat ++ [f.check])) ∧
       (s.lspOn p d 2 = true ∨ s.lspOn p d 3 = true → ∀ f,
         (s.linHeader p f = none → ∃ t, exec (.linFrameReceived i d f) s = .next t ∧
           let own := s.linAnswer p d f
           let aux := bits (s.setting p d 9) (f.pid.toNat % 64) 1 + 2 * bit01 (f.resp.isNone && own.isNone) + 4 * bit01 f.headerTx + 8 * bit01 own.isSome
           (∀ b l n, own = some (b, l, n) → Recorded s t p g c 9 aux (s.pinFlags (256 + n)) f.pid.toNat l ∧ Output.linResponse p b l ∈ t.out) ∧
           (own = none → Recorded s t p g c 9 aux (s.pinFlags ((if f.sumBad then 16 else 0) + (if f.framingBad then 64 else 0) +
             (if f.headerTx then 256 else 0))) f.pid.toNat (f.resp.getD []))) ∧
         (∀ w, s.linHeader p f = some w → ∃ t, exec (.linFrameReceived i d f) s = .next t ∧ (t.tx p).started = (s.tx p).started.tail)) ∧
       (s.lspOn p d 5 = true → s.setting p d 6 = 0 → ∀ w h, ∃ t, exec (.pwmMeasurement i d w h) s = .next t ∧
         Recorded s t p g c 11 0 (s.pinFlags 0) 0 (leBytes 4 w.toNat ++ leBytes 4 h.toNat))) ∧
     (∀ (p : PortN) (b : Bool), s.takes p.val = true → portKind p.val = .evt ∨ portKind p.val = .lsp → (s.port p.val).level ≠ b →
       ∃ t, exec (.edgeLevelAccepted p d b) s = .next t ∧ (t.port p.val).level = b ∧
         (s.edgeOn p.val d = true → s.edgeSelected p.val d b = true →
           Recorded s t p.val (s.frameGen p.val d) (s.pinTime p.val d) 10 (bit01 b) (s.pinFlags 0) 0 [])) ∧
     (∀ (i : Fin 8) (l : List (List (BitVec 32))), let p := smpPort i.val
       s.takes p = true → s.heard p d = true → ∃ t, exec (.samplePortFrame i d l) s = .next t ∧ (t.port p).frames = (s.port p).frames + 1 ∧
         Recorded s t p (s.frameGen p d) (s.pinTime p d) 12 (s.port p).frames.toNat (s.pinFlags 0) 0 (smpPayload (s.setting p d 5) (s.setting p d 6) l)))

/-- CLASSIFY_FRAME on the oldest waiting record of a port, the Sifter queue having room, the table entries that it reads sound and the record without an error
that bars it (04 R73 to R75, R82): on a hit with no multiplexer, the frame joins the Sifter queue with the entries of its run and counts as a hit; on a miss
it counts as a miss. SIFT_FRAME of a frame with one entry that gives a sample and no frame copy (04 R79 to R83): the sample goes to its engine's router, which
has room, and into the port's sample lane as the entry asks; an unchanged value of an entry that suppresses goes nowhere, and a frame of the bank before a
swap leaves the last values alone. The model's choices: log entries 57, 62. -/
def Obligations.ClassifyAndSiftComplete : Prop :=
  ∀ (s : State),
    (∀ (p : PortN) (c : ClassIn) (l : List ClassIn), takePort p.val s.cls.inq = some (c, l) → s.cls.siftq.length < 8192 →
      bits (rawFlags c.bytes) 3 1 = 0 → bits (rawFlags c.bytes) 6 1 = 0 → ∀ k, s.keyId c.port c.edge c.bytes = some k → s.tableBad c k = none →
      let b := s.cls.bankAt c.edge
      (∀ e, b.probe c.port k 0 false = some e → bits (rawFlags c.bytes) 4 1 = 0 ∨ bits e 85 1 = 1 → bits e 17 5 = 0 →
        ∃ t, exec (.classifyFrame p) s = .next t ∧ t.cls.inq = l ∧ Counted s t 0x2301 1 ∧
          t.cls.siftq = s.cls.siftq ++ [⟨c.bytes, baseByte c.bytes (bits e 50 14),
            if bits e 84 1 = 1 then some (bits e 79 5 * 32 + bits e 74 5) else none, runOf b e,
              s.cls.swaps - (s.cls.after c.edge).length⟩]) ∧
      (b.probe c.port k 0 false = none →
        ∃ t, exec (.classifyFrame p) s = .next t ∧ t.cls.inq = l ∧ Counted s t 0x2301 2 ∧ t.cls.siftq = s.cls.siftq)) ∧
    (∀ (q : SiftIn) (l : List SiftIn) (n : Nat) (e : BitVec 192) (v f : Nat), s.cls.siftq = q :: l → s.sidesBad isFrameQueue = false →
      q.copyTo = none → q.entries = [(n, e)] → (∀ up, siftEntry q.bytes q.base e.toNat up = .sample v f) → f < 256 → v < 2 ^ 48 →
      let key := BitVec.ofNat 52 (v * 16 + f / 16)
      let r := sampleRecord q.bytes (bits e.toNat 98 16) v f
      let g := bits e.toNat 93 5 * 32 + bits e.toNat 88 5
      let w := 512 + recPort q.bytes
      let same := bits e.toNat 83 1 = 1 ∧ q.era = s.cls.swaps ∧ s.lastIs n key = true
      (¬same → ∃ t, exec .siftFrame s = .next t ∧ t.cls.siftq = l ∧
        (q.era = s.cls.swaps → t.cls.last.find n = some key) ∧ (q.era ≠ s.cls.swaps → t.cls.last = s.cls.last) ∧
        (bits e.toNat 87 1 = 1 → s.routerRoom g r = true → s.cls.dropsOwed.contains g = false →
          (t.pod (g / 32)).arrival = (s.pod (g / 32)).arrival ++ [⟨g, 0, r⟩]) ∧
        (bits e.toNat 87 1 = 0 → t.pods = s.pods) ∧
        (bits e.toNat 86 1 = 1 → s.recording = true → s.laneStopped w = false → (s.lane w).wrapDue = none →
          ∃ b, (t.lane w).block = some b ∧ b.recs.getLast? = some r)) ∧
      (same → ∃ t, exec .siftFrame s = .next t ∧ t.cls.siftq = l ∧ t.cls.last = s.cls.last ∧ t.pods = s.pods))

/-- The classifier's tables (04 R85 to R88). A commit in IDLE starts the check and owes its answer, elsewhere it is refused. The check of a sound shadow bank
swaps the banks now and forgets the last values; of an unsound one it shows the failure and leaves the banks. A copy makes the shadow bank equal the active
one. A window write in IDLE, right in length and fields, puts one whole entry, which reads back but for its reserved bits; entries of the two classifier
tables go into the shadow bank alone. -/
def Obligations.TableCommandsComplete : Prop :=
  ∀ (s : State) (p : Path),
    (s.served = true → s.remote p = none →
      (s.sess.st = .idle → s.cls.copying = false → s.checking = false → s.switchPending = false → exec (.commitShadowTables p 1) s =
        .next ((({ s with cls := { s.cls with checking := some p } } : State).put 0x2300 3 1).owe 0x2300 1)) ∧
      (s.sess.st ≠ .idle → exec (.commitShadowTables p 1) s = .next (s.refuseLog p 0x2300 1 1 abState)) ∧
      (s.switchPending = false → s.checking = false → exec (.copyActiveToShadow p 1) s =
        .next ((({ s with cls := { s.cls with copying := true } } : State).put 0x2300 2 1).answer p [])) ∧
      (∀ (x : BitVec 16) (sub : Byte) (l : List Byte) (n : Nat), windowLen x.toNat = some n → 1 ≤ sub.toNat → sub.toNat ≤ 128 → l.length = n →
        fieldOk x.toNat sub.toNat (leNat l) = true → s.sess.st = .idle → s.switchPending = false →
        (x.toNat < 0x3300 → s.cls.copying = false ∧ s.checking = false) →
        exec (.tableWindowWrite p x sub l) s = .next ((s.storeEntry x.toNat sub.toNat (leNat l)).answer p []) ∧
        (∀ w, w = (if x.toNat < 0x3080 then (BitVec.ofNat 144 (leNat l) &&& ~~~((0x3FF : BitVec 144) <<< 64)).toNat
            else if x.toNat < 0x3300 then (BitVec.ofNat 192 (leNat l) &&& ~~~(0xFFFFFFFFF : BitVec 192)).toNat else leNat l) →
          w ≠ 0 → (s.storeEntry x.toNat sub.toNat (leNat l)).windowEntry x.toNat sub.toNat = w) ∧
        (s.storeEntry x.toNat sub.toNat (leNat l)).cls.activeBank = s.cls.activeBank)) ∧
    (s.cls.checking = some p → s.acc.owed = [] → s.acc.caller = none → ∃ t, exec .tableCheckComplete s = .next t ∧
      (s.checkShadow = none → t.cls = ({ s.cls with checking := none } : Classifier).swap s.now ∧ t.cls.active = !s.cls.active ∧ t.cls.last = [] ∧
        t.cfg 0x2300 3 = 0 ∧ t.cfg 0x2300 4 = 0) ∧
      (∀ f, s.checkShadow = some f → t.cls = { s.cls with checking := none } ∧ t.cfg 0x2300 3 = f.1 ∧ t.cfg 0x2300 4 = f.2)) ∧
    (s.cls.copying = true → s.badEntry = none → ∃ t, exec .tableCopyComplete s = .next t ∧ SameBut [.cls, .od, .side, .cel] s t ∧ t.cls.copying = false ∧
      t.cls.shadowBank = s.cls.activeBank ∧ t.cls.activeBank = s.cls.activeBank ∧ t.cfg 0x2300 2 = 0)

/-- The session commands of a path that targets this device (17 R376 to R379, 05 R106, R107, 06 R114). ARM in IDLE whose checks pass enters ARMED with its
activities and their counters at 0, its answer owed after those owed before, the first of which ARM_COMPLETE gives. START in ARMED and RUN enters RUNNING
under the next session number, fixes S, restarts the store where that is due and fixes the replay offset (a source that has failed stays so, one that has
nothing left to send ends). STOP in RUNNING drains a session that records and ends another; STOP in FAULT discards the ring and ends it. DISARM returns from
ARMED to IDLE. MARK in RUNNING puts its record into the control lane. In any other state of the session each is refused with 0x0800_0022. The model's choices:
log entries 16, 18, 23. -/
def Obligations.SessionCommandsComplete : Prop :=
  ∀ (s : State) (p : Path), s.served = true → s.remote p = none →
    (∀ (a : W24), a.toNat < 32 → s.sess.st = .idle → s.switchPending = false → (s.armCheck a.toNat).1 = none →
      ∃ t, exec (.arm p a) s = .next t ∧ t.sess.st = .armed ∧ t.sess.acts = BitVec.ofNat 5 a.toNat ∧ t.sess.armOwed = s.sess.armOwed ++ [p] ∧
        (∀ k, 1 ≤ k → k ≤ 7 → t.cfg 0x2301 k = dictDefault 0x2301 k) ∧ t.rep.cause = 0 ∧ t.link.cause = 0 ∧ t.store.level = 0) ∧
    (∀ (a : W24), a.toNat < 32 → s.sess.st ≠ .idle → exec (.arm p a) s = .next (s.refuseCmd p (cmdValue 1 a.toNat) abState)) ∧
    (s.sess.st = .armed → s.pwr.st.val = 0 → s.pwr.entry = none → ∃ t, exec (.start p 0) s = .next t ∧
      t.sess.st = .running ∧ t.sess.acts = s.sess.acts ∧ t.sess.counter = s.sess.counter + 1 ∧ t.sess.startAt = s.now ∧
      t.cfg 0x2503 6 = (s.sess.counter + 1).toNat ∧
      (s.acting 0 = true → ∀ c n l d, s.restartCauses = (c, n) :: l → s.newestFound = some d →
        t.store.restart = [] ∧ ∃ g ∈ t.store.hashing, g.seq = d.seq + 1 ∧ g.hasSig = true) ∧
      (s.acting 1 = true → s.cfg 0x2400 1 = 0 → s.rep.offset0 = none → ∀ q, s.startPoint = some q →
        t.rep.offset = (s.now : Int) + s.leadMax - q ∧
        t.rep.st = (if s.rep.st = 6 then 6 else if s.rep.sourceDone && s.replayPorts.all fun j => (s.tx j).spent then 5 else 3))) ∧
    (s.sess.st ≠ .armed → exec (.start p 0) s = .next (s.refuseCmd p 2 abState)) ∧
    (s.sess.st = .running → ∃ t, exec (.stop p 0) s = .next t ∧ t.rep.st = 0 ∧ t.link.role = none ∧
      (s.acting 0 = true → t.sess.st = .draining ∧ t.sess.acts = s.sess.acts ∧ t.store.seg = none ∧ ∀ l, (t.lane l).block = none) ∧
      (s.acting 0 = false → t.sess.st = .idle ∧ t.sess.acts = 0)) ∧
    (s.sess.st = .fault → ∃ t, exec (.stop p 0) s = .next t ∧ t.sess.st = .idle ∧ t.sess.acts = 0 ∧ t.sess.faultCause = 0 ∧
      t.store.ring = [] ∧ t.store.hashing = [] ∧ t.store.seg = none) ∧
    (s.sess.st ≠ .running → s.sess.st ≠ .fault → exec (.stop p 0) s = .next (s.refuseCmd p 3 abState)) ∧
    (s.sess.st = .armed → ∃ t, exec (.disarm p 0) s = .next t ∧ t.sess.st = .idle ∧ t.sess.acts = 0 ∧ t.rep.st = 0) ∧
    (s.sess.st ≠ .armed → exec (.disarm p 0) s = .next (s.refuseCmd p 4 abState)) ∧
    (∀ (n : W24), n.toNat < 65536 → s.sess.st = .running →
      let r := markRecord s.tb.tick p n.toNat
      exec (.mark p n) s = .next ((s.ctlPut r).answer p []) ∧
      (s.acting 0 = true → s.linkCar = false → ∀ g, s.store.seg = some g → s.blockFits g (ctlBlock r).length = true →
        (s.ctlPut r).store.seg = some { g with blocks := g.blocks ++ [ctlBlock r] })) ∧
    (∀ (n : W24), n.toNat < 65536 → s.sess.st ≠ .running → exec (.mark p n) s = .next (s.refuseCmd p (cmdValue 5 n.toNat) abState)) ∧
    (∀ l, s.sess.armOwed = p :: l → s.acc.owed = [] → exec .armComplete s =
      .next (({ s with sess := { s.sess with armOwed := l } } : State).answer p []))

/-- OBJECT_WRITE on a path that targets this device (17 R367, R470): the checks in their order, each with its abort code, and the store. After the checks an
object with no action of its own holds the value; port enables, fabric settings, remote windows and image references take effect in the same step. The model's
choices: log entries 49, 51. -/
def Obligations.ObjectWriteChecked : Prop :=
  ∀ (s : State) (p : Path) (i : BitVec 16) (b : Byte) (l : List Byte), s.served = true → (i = 0x2020 ∨ s.remote p = none) →
    let idx := i.toNat
    let sub := b.toNat
    let v := leNat l
    let gives := fun (c : BitVec 32) => exec (.objectWrite p i b l) s = .next (s.refuse p idx sub (v % 2 ^ 24) c)
    (dictRow idx sub = none → dictHasIndex idx = false → gives 0x06020000) ∧
    (dictRow idx sub = none → dictHasIndex idx = true → gives 0x06090011) ∧
    (∀ r, dictRow idx sub = some r →
      (r.acc = .ro → gives 0x06010002) ∧
      (r.acc ≠ .ro → (idx, sub) ∉ actingObjects → (l.length ≠ r.size → gives 0x06070010) ∧
        (l.length = r.size → (r.takes idx sub v = false ∨ s.inNamespace idx sub v = false → gives 0x06090030) ∧
          (r.takes idx sub v = true → s.inNamespace idx sub v = true → windowLen idx = none →
            (s.writeBarred idx sub = true → exec (.objectWrite p i b l) s = .next (s.refuseLog p idx sub v 0x08000022)) ∧
            (s.writeBarred idx sub = false →
              exec (.objectWrite p i b l) s = .next ((((s.put idx sub v).saved idx sub).stored idx sub (s.cfg idx sub)).answer p []) ∧
              (s.put idx sub v).cfg idx sub = v ∧ ∀ j k, k < 256 → (j, k) ≠ (idx, sub) → (s.put idx sub v).cfg j k = s.cfg j k)))))

/-- The CANopen path that serves, with no remote target (17 R367 to R369): an upload answers the object's bytes, a download is an object write, a segmented
download gathers its segments and writes at the last, an upload in segments goes on where it stands; a segment out of order, a malformed frame and a timeout
abort with their codes; the heartbeat waits for the bus as a frame of the device's own, sent once the bus admits it. The model's choices: log entry 50. -/
def Obligations.CanopenPathCompletes : Prop :=
  ∀ (s : State), s.canPathOn = true → s.remote .can = none →
    (s.acc.transfer = none →
      (∀ (i : BitVec 16) (b : Byte) (r : DictRow), dictRow i.toNat b.toNat = some r →
        (i, b) ∉ [((0x2202 : BitVec 16), (1 : Byte)), (0x2202, 2), (0x2930, 3)] → s.windowBad i.toNat b.toNat = false →
        exec (.usdoRequest (.upload i b)) s = .next ((s.readWindow i.toNat b.toNat).answer .can ((s.objBytes .can r i.toNat b.toNat).take 65536))) ∧
      (∀ (i : BitVec 16) (b : Byte) (l : List Byte), exec (.usdoRequest (.download i b l)) s = exec (.objectWrite .can i b l) s) ∧
      (∀ (i : BitVec 16) (b : Byte), exec (.usdoRequest (.downloadInit i b)) s =
        .next (({ s with acc := { s.acc with transfer := some ⟨true, i, b, [], 0⟩ } } : State).answer .can [])) ∧
      (∀ (n : Byte) (l : List Byte) (e : Bool), exec (.usdoRequest (.segment n l e)) s = .next (s.refuse .can 0 0 0 0x05040003))) ∧
    (∀ x, s.acc.transfer = some x →
      let o := { s with acc := { s.acc with transfer := none } }
      (x.write = true → ∀ (l : List Byte),
        exec (.usdoRequest (.segment x.next l false)) s =
          .next (({ s with acc := { s.acc with transfer := some { x with data := x.data ++ l, next := x.next + 1 } } } : State).answer .can []) ∧
        exec (.usdoRequest (.segment x.next l true)) s = exec (.objectWrite .can x.idx x.sub (x.data ++ l)) o) ∧
      (x.write = false →
        let k := max 1 Config.usdoSegment
        let rest := if (x.data.drop k).isEmpty then none else some { x with data := x.data.drop k, next := x.next + 1 }
        exec (.usdoRequest (.uploadSegment x.next)) s = .next ((({ s with acc := { s.acc with transfer := rest } } : State).send
          (.answer .can (x.data.take k))).usdoAnswer none (x.data.take k))) ∧
      (∀ (n : Byte) (l : List Byte) (e : Bool), n ≠ x.next →
        exec (.usdoRequest (.segment n l e)) s = .next (State.refuse o .can x.idx.toNat x.sub.toNat 0 0x05040003)) ∧
      exec .usdoSegmentTimeout s = .next (State.refuse o .can x.idx.toNat x.sub.toNat 0 0x05040000)) ∧
    exec (.usdoRequest .malformed) s =
      .next (({ s with acc := { s.acc with transfer := none } } : State).refuse .can 0 0 0 0x05040001) ∧
    (s.cfg 0x1017 0 ≠ 0 → s.acc.canNode ≤ 127 → ∃ t, exec .heartbeatProducerTimer s = .next t ∧ SameBut [.rep] s t ∧
      ∃ x, (t.tx s.acc.canPort).waiting = (s.tx s.acc.canPort).waiting ++ [x] ∧ x.own = true ∧ rawId x.bytes = 0x700 + s.acc.canNode ∧
        rawPayload x.bytes = [5])

/-- MBX_GO at the mailbox of an endpoint that serves this device (17 R371, R372): a read leaves the object's bytes in the buffer with their length, DONE set, ERR
and GO clear; of an object that does not exist, ERR and the abort code; a LEN above 4,096, ERR and the code of existence, access or length, checked in this
order; a write that is stored leaves DONE set and ERR clear. While GO reads 1 the host's writes have no effect, and the first is logged. The model's choices:
log entries 49, 59. -/
def Obligations.MailboxCompletes : Prop :=
  ∀ (s : State) (ctl : Bool) (stat req : BitVec 32) (len : BitVec 13) (off : BitVec 32) (l : List Byte),
    s.served = true → Config.pcieEndpoint (bit01 ctl) = true → s.remote (boxPath ctl) = none →
    let k := bit01 ctl
    let b := s.box k
    let i := req.toNat % 65536
    let j := req.toNat / 65536 % 256
    let done := fun (t : State) => exec (.mbxGo ctl stat req len off l) s = .next t ∧ (t.box k).done = true ∧ (t.box k).req.getLsbD 31 = false
    (b.req.getLsbD 31 = false → req.getLsbD 31 = true → len.toNat ≤ 4096 →
      (req.getLsbD 30 = false → ∀ r, dictRow i j = some r → (i, j) ∉ [(0x2202, 1), (0x2202, 2), (0x2930, 3)] → s.windowBad i j = false → off = 0 →
        ∃ t, done t ∧ (t.box k).err = false ∧ (t.box k).len = BitVec.ofNat 13 ((s.objBytes (boxPath ctl) r i j).take 4096).length ∧
          (t.box k).buf.take ((s.objBytes (boxPath ctl) r i j).take 4096).length = (s.objBytes (boxPath ctl) r i j).take 4096) ∧
      (dictRow i j = none → dictHasIndex i = false → ∃ t, done t ∧ (t.box k).err = true ∧ (t.box k).code = 0x06020000) ∧
      (req.getLsbD 30 = true → ∀ r, dictRow i j = some r → r.acc ≠ .ro → (i, j) ∉ actingObjects → windowLen i = none → off = 0 → l.length = r.size →
        len.toNat = r.size → r.takes i j (leNat l) = true → s.inNamespace i j (leNat l) = true → s.writeBarred i j = false → i < 0x2310 →
        ∃ t, done t ∧ (t.box k).err = false ∧ t.cfg i j = leNat l)) ∧
    (b.req.getLsbD 31 = false → req.getLsbD 31 = true → 4096 < len.toNat → ∃ t, done t ∧ (t.box k).err = true ∧
      (t.box k).code = (match dictRow i j with
        | none => if dictHasIndex i then 0x06090011 else 0x06020000
        | some r => if req.getLsbD 30 && r.acc = .ro then 0x06010002 else 0x06070010)) ∧
    (b.req.getLsbD 31 = true → ∃ t, exec (.mbxGo ctl stat req len off l) s = .next t ∧ t.box k = { b with logged := true } ∧
      (b.logged = true → t = s) ∧ (b.logged = false → Logged s t 1 0x1000 0 0))

/-- Blocks and segments (05 R95, R96, R101 to R105). BLOCK_CLOSE and BLOCK_AGE_EXPIRY code the open block of a lane, which joins an open segment with room for it;
OUTPUT_LANE_WRAP_TIMEOUT gives a lane that owes it a wrap record of its own. SEGMENT_AGE_EXPIRY closes the open segment, signed when that is due;
SIGNATURE_TIME_DUE in a session that records closes it signed. SEGMENT_HASH_COMPLETE moves the oldest closed segment into a ring with room and writes it to
each ready SSD that it needs. The model's choices: log entries 10, 14, 68, 71. -/
def Obligations.BlocksAndSegmentsComplete : Prop :=
  ∀ (s : State),
    (∀ (l : BitVec 16) (b : OpenBlock), (s.lane l.toNat).block = some b →
      let k := makeBlock l.toNat (fun ch => Tab.get 2 b.orders ch) b.recs
      let closed := fun (t : State) => (t.lane l.toNat).block = none ∧
        ∀ g, s.store.seg = some g → s.blockFits g k.length = true → t.store.seg = some { g with blocks := g.blocks ++ [k] }
      (∃ t, exec (.blockClose l) s = .next t ∧ SameBut [.store, .free] s t ∧ closed t) ∧
      (∃ t, exec (.blockAgeExpiry l) s = .next t ∧ SameBut [.tb, .store, .free] s t ∧ closed t)) ∧
    (∀ (e : Fin 1024) (n : BitVec 32), (s.lane (4096 + e.val)).wrapDue = some n → (s.lane (4096 + e.val)).block = none →
      (∀ h ∈ s.link.held, h.lane = 4096 + e.val → ((s.tb.epoch.toNat * 2 ^ 48 : Nat) : Int) ≤ h.count + s.link.offset.getD 0) →
      let k := padWord (blockHeader 0 (4096 + e.val) 0 1 18 18 ++ wrapRecord n (4096 + e.val))
      ∃ t, exec (.outputLaneWrapTimeout e) s = .next t ∧ (t.lane (4096 + e.val)).wrapDue = none ∧
        ∀ g, s.store.seg = some g → s.blockFits g k.length = true → t.store.seg = some { g with blocks := g.blocks ++ [k] }) ∧
    (∀ g, s.store.seg = some g → ∃ t, exec .segmentAgeExpiry s = .next t ∧ SegClosed s t s.sigIsDue) ∧
    (s.acting 0 = true → s.inSession = true →
      (∀ g, s.store.seg = some g → g.used + 180 ≤ 4194303 → g.blocks.length + 1 ≤ 65535 → ∃ t, exec .signatureTimeDue s = .next t ∧
        SegClosed s t true ∧ t.store.sigSegs = 0 ∧ t.store.sigAt = t.now ∧ t.store.sigDue = false) ∧
      (s.store.seg = none → ∃ t, exec .signatureTimeDue s = .next t ∧ t.store = { s.store with sigDue := true })) ∧
    (∀ (g : Seg) (l : List Seg), s.store.hashing = g :: l → s.ringFull = false → s.store.headerOut = false → ∃ t m, exec .segmentHashComplete s = .next t ∧
      t.store.ring = s.store.ring ++ [g] ∧ t.store.hashing = l ++ m ∧
      ∀ (k : Fin 2), hasSsd g.need k.val = true → hasSsd g.durable k.val = false → (s.ssd k.val).state = 1 →
        ∃ c i b, Output.nvme k.val c (.write g.seq (s.slotOf g.seq)) i b ∈ t.out)

/-- The SSDs (05 R109, R110, R473, 19 R432). A Write or Flush that ends well and makes a segment durable everywhere it must be frees it, and the LAST one ends a
draining session; an error repeats the command. FLUSH_INTERVAL_EXPIRY, an interval after the last, flushes each SSD of the session, the poll reads two log
pages of each ready SSD and logs them. A first timeout resets the controller, a second within 60 s fails the SSD; a reset within 2 s restores it with its
commands issued again, or fails it; in IDLE an SSD that comes up with a usable namespace is ready. A failed SSD of a running session drops the set to the
other one, or ends recording in FAULT. The model's choices: log entries 10, 11, 68. -/
def Obligations.SsdCommandsComplete : Prop :=
  ∀ (s : State) (k : Fin 2),
    let x := s.ssd k.val
    let failed := fun (t : State) => (t.ssd k.val).state = 3 ∧ (t.ssd k.val).cmds = [] ∧
      (s.usesSsd k.val = true → s.sess.st = .running →
        (s.store.mode < 2 → t.sess.st = .fault ∧ t.sess.faultCause = 1) ∧
        (2 ≤ s.store.mode → (s.ssd (1 - k.val)).state = 1 → t.sess.st = .running ∧ t.store.mode = 1 - k.val ∧ t.cfg 0x2503 9 = 1))
    (∀ (c n m : Nat) (d : NvmeDone), x.cmds.find c = some (.write n m) →
      (d.ok = true → m = s.slotOf n → Config.volatileCache k.val = false → ∀ g ∈ s.store.ring, g.seq = n →
        g.need &&& ~~~(g.durable ||| ssdMask k.val) = 0 → ∃ t, exec (.nvmeCommandComplete k c d) s = .next t ∧ (∀ y ∈ t.store.ring, y.seq ≠ n) ∧
          (g.last = true → s.sess.st = .draining → t.sess.st = .idle ∧ t.sess.acts = 0)) ∧
      (d.ok = false → x.state = 1 → ∃ t i o b, exec (.nvmeCommandComplete k c d) s = .next t ∧
        t.out.getLast? = some (.nvme k.val i (.write n m) o b) ∧ Logged s t 1 0x2503 (3 + k.val) 1)) ∧
    (∀ (c : Nat) (l : List Nat) (d : NvmeDone), x.cmds.find c = some (.flush l) → d.ok = true → ∀ g ∈ s.store.ring, l.contains g.seq = true →
      hasSsd g.written k.val = true → g.need &&& ~~~(g.durable ||| ssdMask k.val) = 0 →
      ∃ t, exec (.nvmeCommandComplete k c d) s = .next t ∧ ∀ y ∈ t.store.ring, y.seq ≠ g.seq) ∧
    (∀ (c : Nat) (d : NvmeDone), let u := s.setSsd k.val { x with cmds := x.cmds.erase c, issued := x.issued.erase c }
      (∀ n, x.cmds.find c = some (.abort n) → exec (.nvmeCommandComplete k c d) s = .next u) ∧
      (∀ l, x.cmds.find c = some (.dealloc l) → d.ok = true → exec (.nvmeCommandComplete k c d) s = .next (u.offMedium k.val l))) ∧
    (∃ t, exec .flushIntervalExpiry s = .next t ∧ SameBut [.tb, .store, .out] s t ∧ (s.usesSsd k.val = true → t.store.flushAt = t.now ∧
      t.now = (s.reach (s.store.flushAt + msTicks (s.cfg 0x2500 6))).now ∧
      (x.state = 1 → ∃ c i b, Output.nvme k.val c (.flush (s.unflushed k.val)) i b ∈ t.out))) ∧
    (∀ (l : List (List Byte)), ∃ t, exec (.nvmeHealthPoll l) s = .next t ∧
      t.out = s.out ++ (((s.readySsds.flatMap fun j => [(j, (0 : Nat)), (j, 1)]).zip l).map fun y =>
        .nvme y.1.1 ((s.ssd y.1.1).nextCid + y.1.2) (.logPage (if y.1.2 = 0 then 1 else 2)) 0 []) ∧
      t.log.next = s.log.next + BitVec.ofNat 16 ((l.take (2 * s.readySsds.length)).map fun y => (y.length + 2) / 3).sum) ∧
    (∀ (c : Nat), (x.cmds.find c).isSome = true →
      let now := (s.reach (x.issued.get 0 c + msTicks (s.cfg 0x2500 8))).now
      ((∀ a, x.timeoutAt = some a → a + 60 * secTicks ≤ now) → ∃ t, exec (.nvmeCommandTimeout k c) s = .next t ∧
        (t.ssd k.val).state = 2 ∧ t.now = now ∧ (t.ssd k.val).timeoutAt = some now ∧ t.out.getLast? = some (.ssdReset k.val)) ∧
      (∀ a, x.timeoutAt = some a → now < a + 60 * secTicks → ∃ t, exec (.nvmeCommandTimeout k c) s = .next t ∧ failed t)) ∧
    (x.state = 2 → ((∀ a, x.timeoutAt = some a → s.now ≤ a + 2 * secTicks) → ∃ t, exec (.controllerResetComplete k true) s = .next t ∧
        (t.ssd k.val).state = 1 ∧ ∀ y ∈ x.cmds, ∀ m n, y.2 = .write m n ∨ y.2 = .read m n → ∃ i o b, Output.nvme k.val i y.2 o b ∈ t.out) ∧
      (∃ t, exec (.controllerResetComplete k false) s = .next t ∧ failed t)) ∧
    (∀ (a b : Bool), s.sess.st = .idle → s.served = true → k.val ∈ s.namedSsds → x.state ≠ 1 → ∃ t, exec (.ssdBringupRetry a b) s = .next t ∧
      (t.ssd k.val).state = if (if k.val = 0 then a else b) then (if s.usable k.val then 1 else 3) else x.state) ∧
    (s.usesSsd k.val = true → x.state ≠ 1 → ∃ t, exec (.ssdReadyTimeout k) s = .next t ∧ failed t)

/-- Replay and mirror at a port in a capturing session (06 R116 to R125). The feeder places the next source record at the tail of an emit queue with room, at its
count under the offset; an altering engine gets it instead. An entry that reached the queue 1 us before its count, with no HOLD port dry, starts at it: on a
MAC it leaves, on CAN it waits for the bus; one that an uncorrectable byte of the transmit buffer spoils is discarded and counted (14 R297), and so is a dry
one under DROP; a dry HOLD port holds first. A hold whose conditions are met ends at R and shifts the offset by its length. A CAN frame that wins its bus
leaves; one that loses tries again with ARB. A frame sent is recorded with TX. The model's choices: log entries 58, 66. -/
def Obligations.ReplayCommandsComplete : Prop :=
  ∀ (s : State) (p : PortN), s.capturing = true →
    let x := s.tx p.val
    (∀ (d c : Int) (r : List Byte) (l : List (Int × List Byte)), s.rep.offset0 = some d → x.source = (c, r) :: l →
      c + d + s.rep.holdTotal ≤ (s.now : Int) + 80000000 → let e := rawAtCount r (c + d)
      (s.alterEngine p.val = none → s.queueRoom p.val e = true → c + d ∉ x.gone → ∃ t, exec (.feedEmitEntry p) s = .next t ∧
        (t.tx p.val).source = l ∧ (t.tx p.val).queue = x.queue ++ [⟨sourceCtl p.val r, e, c + d, s.now⟩]) ∧
      (∀ n, s.alterEngine p.val = some n → s.routerRoom n (entryBytes (sourceCtl p.val r) e) = true → ∃ t, exec (.feedEmitEntry p) s = .next t ∧
        (t.tx p.val).source = l ∧ (t.pod (n / 32)).arrival = (s.pod (n / 32)).arrival ++ [⟨n, 2, entryBytes (sourceCtl p.val r) e⟩])) ∧
    (∀ (n : BitVec 80) (e : Emit) (l : List Emit), x.queue = e :: l → let c := s.shifted p.val e.count
      c ≤ n.toNat → s.heldBack p.val c = false →
      ((s.portUse p.val = 1 → s.dryHold c = none) →
        (e.ready ≤ c → e.ctl.toNat % 16 < 4 → s.emitFits p.val e.bytes = true → (∀ r ∈ s.side, isTransmit p.val r.1 = false) →
          ∃ t, exec (.emitCountReached ⟨p, n⟩) s = .next t ∧ (t.tx p.val).queue = l ∧
          let from_ := max c ((s.reachInt c).now : Int)
          let on := if x.started.isEmpty then some from_ else none
          (portKind p.val = .mac → t.out = s.out ++
              [.frame p.val (s.txLaunch p.val e.ctl (on.map fun _ => s.launchAt p.val (s.place5 p.val from_ / 5)) e.bytes)] ∧
            (t.tx p.val).started = x.started ++ [⟨e.ctl, e.bytes, c, false, false, on⟩]) ∧
          (portKind p.val = .can → t.out = s.out ∧ (t.tx p.val).waiting = x.waiting ++ [⟨e.ctl, e.bytes, c, false, false, none⟩])) ∧
        (e.ready ≤ c → s.sidesBad (isTransmit p.val) = true → ∃ t, exec (.emitCountReached ⟨p, n⟩) s = .next t ∧ (t.tx p.val).queue = l ∧ t.out = s.out ∧
          t.cfg 0x2401 10 = min (2 ^ 32 - 1) (s.cfg 0x2401 10 + 1)) ∧
        (c < e.ready → s.dryPolicy p.val = 1 → ∃ t, exec (.emitCountReached ⟨p, n⟩) s = .next t ∧ (t.tx p.val).queue = l ∧
          t.out = s.out ∧ t.cfg 0x2401 6 = min (2 ^ 32 - 1) (s.cfg 0x2401 6 + 1))) ∧
      (∀ h q, s.portUse p.val = 1 → s.dryHold c = some (h, q) → ∃ t, exec (.emitCountReached ⟨p, n⟩) s = .next t ∧ t.rep.held = some (h, q) ∧
        t.rep.st = 4 ∧ (t.tx p.val).queue = x.queue ∧ t.cfg 0x2401 7 = min (2 ^ 32 - 1) (s.cfg 0x2401 7 + 1))) ∧
    (∀ (h : Int) (j r : Nat), s.rep.held = some (h, j) → s.resumeAt h j = some r → ∃ t, exec .holdResume s = .next t ∧ t.rep = { s.rep with
        held := none, st := if s.rep.st = 4 then 3 else s.rep.st, holdTotal := s.rep.holdTotal + ((r : Int) - h).toNat, offset := s.rep.offset + ((r : Int) - h) }) ∧
    (∀ (i : Fin 96) (w : Sending) (l : List Sending), (s.tx i.val).waiting = w :: l → (s.port i.val).errState ≠ 2 →
      (∃ t, exec (.canBusIdleTx i true) s = .next t ∧ (t.tx i.val).waiting = l ∧
        let on := if (s.tx i.val).started.isEmpty && !w.own && !w.arb && decide ((s.now : Int) ≤ w.due) then some w.due else none
        (t.tx i.val).started = (s.tx i.val).started ++ [{ w with on := on }] ∧
        t.out = s.out ++ [if w.own then .canOwn i.val (rawId w.bytes) (rawPayload w.bytes)
          else .frame i.val (s.txLaunch i.val w.ctl (on.map (s.launchAt i.val)) w.bytes)]) ∧
      (∃ t, exec (.canBusIdleTx i false) s = .next t ∧ SameBut [.rep, .od] s t ∧ (t.tx i.val).waiting = { w with arb := true } :: l ∧
        t.cfg 0x2401 9 = min (2 ^ 32 - 1) (s.cfg 0x2401 9 + 1))) ∧
    (∀ (d : Stamp) (w : Sending) (l : List Sending), x.started = w :: l → w.own = false → s.takes p.val = true →
      let c := s.startTime p.val w d
      let m : Int := c + s.phyOut p.val
      let b := s.sentBytes p.val w.ctl w.bytes
      ∃ t, exec (.frameTransmitted p d) s = .next t ∧ (t.tx p.val).started = l ∧ t.cfg 0x2401 4 = min (2 ^ 32 - 1) (s.cfg 0x2401 4 + 1) ∧
        (((s.sw.units.get {} (portUnit p.val)).since : Int) ≤ m → (s.port p.val).enabled = true ∨ s.portUse p.val = 1 ∨ s.portUse p.val = 2 → s.portUse p.val ≠ 3 →
          Recorded s t p.val (s.genAt (portUnit p.val) m) m (rawKind w.bytes) (s.sentAux p.val w.bytes b.1)
            (s.pinFlags (256 + (if s.isLate p.val c w.due then 512 else 0) + (if w.arb then 1024 else 0) + b.2)) (sentId w.bytes b.1) b.1))

/-- The car sends (07 R136 to R141). LINK_BLOCK_AGE_EXPIRY runs to the age of an open block and queues it, coded, in its class. LINK_FRAME_SEND, once the path's
rate lets it and its turn in the group has come, sends a waiting repair frame under its group's SEQ, else a retransmission, else whole blocks of the first
class that has any, sealed under the newest key. LINK_RECORD_SHED sheds and counts the one record that has waited longest in its class, and codes its block
again. CODE_GROUP_TIMEOUT closes the group with its actual K. A NAK has the kept frame sent again behind its original SEQ, at once on a path that is up and
free while no group is open, else as the next retransmission. The handshake and its keys (07 R142 to R144, R150). HELLO_TIMER, 200 ms after the last, sends
the handshake in progress on every enabled open path, each under its direction's next SEQ. A trusted HELLO at the pit fixes keys under the next KEYNO and is
answered on its path; the first valid ANSWER fixes the car's, every path without a rate is up at the start rate, and the mapping record stands first in class
0. The rekey interval starts a new handshake; the old keys end, and what was received under them is forgotten; a close frame sets link state 1 and the car
shakes anew. The model's choices: log entries 27, 28, 72, 73. -/
def Obligations.LinkSendingAndKeys : Prop :=
  (∀ (s : State),
     (∀ (l : BitVec 16) (c : Fin 4) (r : LinkRec) (m : List LinkRec),
       let o := Tab.get {} s.link.opened (l.toNat * 4 + c.val)
       let b := linkBlock l.toNat o.orders o.recs
       let q := Tab.get [] s.link.queues c.val
       o.recs = r :: m → (c.val ≠ 0 ∨ (q.map (·.bytes.length)).sum + b.bytes.length ≤ 4194304) → ∃ t, exec (.linkBlockAgeExpiry l c) s = .next t ∧
         t.tb = (s.reach (r.since + msTicks (s.cfg 0x2600 9))).tb ∧ t.link.queues = s.link.queues.set c.val (q ++ [b]) ∧
         t.link.opened = s.link.opened.erase (l.toNat * 4 + c.val)) ∧
     (∀ (p : Fin 4) (ks : LinkKeys), s.linkCar = true → s.linkPaths.contains p.val = true → (s.lpath p.val).closed = false → s.link.keys = some ks →
       2 ≤ s.link.st.val → s.link.role = some true → (s.lpath p.val).neighbour = true → let u := s.reach (s.lpath p.val).freeAt
       (∀ b l, s.link.repair = b :: l → (s.lpath p.val).up = true → s.inTurn p.val = true → ∃ t, exec (.linkFrameSend p) s = .next t ∧
         SameBut [.tb, .link, .out] s t ∧ t.link.repair = l ∧ t.link.txSeq = s.link.txSeq ∧
         (t.lpath p.val).inGroup = (s.lpath p.val).inGroup + 1 ∧ t.out = s.out ++ [.datagram p.val (sealedFrame true ks.carToPit
           (linkHeader 1 0 p.val b.body.length ks.keyno.toNat b.seq (linkRef u.now b.oldest) b.k b.m b.idx) b.body b.seq)]) ∧
       (∀ k l, s.link.repair = [] → s.link.group = [] → s.link.mapDue = false → s.link.resend = k :: l → (s.lpath p.val).up = true → ∃ t,
         exec (.linkFrameSend p) s = .next t ∧ SameBut [.tb, .link, .od, .out] s t ∧ t.link.resend = l ∧ t.link.txSeq = s.link.txSeq + 1 ∧
         t.cfg 0x2601 10 = min (2 ^ 32 - 1) (s.cfg 0x2601 10 + 1) ∧ t.out = s.out ++ [.datagram p.val (sealedFrame true ks.carToPit
           (linkHeader 0 32 p.val (8 + k.body.length) ks.keyno.toNat s.link.txSeq (linkRef u.now k.oldest) 1 0 0) (beBytes 8 k.seq ++ k.body)
           s.link.txSeq)]) ∧
       (∀ c b l, ((s.lpath p.val).up = true → s.link.repair = [] ∧ s.link.resend = []) → s.nextClass p.val = some c →
         Tab.get [] s.link.queues c = b :: l → let g := if s.link.group.isEmpty then codeLevel s.link.level.val else (s.link.groupK, s.link.groupM)
         b.bytes.length ≤ s.bodyRoom c g.2 → ∃ t, exec (.linkFrameSend p) s = .next t ∧ SameBut [.tb, .link, .out] s t ∧
         let ref := linkRef u.now b.since
         let r := takeBlocks (s.bodyRoom c g.2) (ref + 2 ^ 46) (b :: l)
         let body := (r.1.map (·.bytes)).flatten
         t.link.queues = s.link.queues.set c r.2 ∧ (c = 0 → ⟨ks.keyno, s.link.txSeq, u.now, body, b.since⟩ ∈ t.link.kept ∧ t.link.mapDue = false) ∧
         t.link.txSeq = s.link.txSeq + 1 + (if s.link.group.length + 1 = g.1 then g.2 else 0) ∧
         t.out = s.out ++ [.datagram p.val (sealedFrame true ks.carToPit
           (linkHeader 0 (64 * c) p.val body.length ks.keyno.toNat s.link.txSeq ref g.1 g.2 s.link.group.length) body s.link.txSeq)])) ∧
     (∀ (c : Fin 4) (n : Nat), c.val ≠ 0 → let q := Tab.get [] s.link.queues c.val
       let qs := earliest (q.filterMap fun b => b.recs.head?.map (·.since))
       let os := earliest ((s.link.opened.filter fun e => e.1 % 4 = c.val).filterMap fun e => e.2.recs.head?.map (·.since))
       earliest (qs.toList ++ os.toList) = some n →
       ∃ t, exec (.linkRecordShed c) s = .next t ∧ SameBut [.tb, .link, .od] s t ∧ t.tb = (s.reach (n + msTicks 100)).tb ∧
         t.cfg 0x2601 7 = min (2 ^ 32 - 1) (s.cfg 0x2601 7 + 1) ∧
         (∀ q1 b q2, q = q1 ++ b :: q2 → b.recs.head?.map (·.since) = some n → (∀ x ∈ q1, x.recs.head?.map (·.since) ≠ some n) →
           let rest := if b.recs.length ≤ 1 then [] else [linkBlock b.lane b.orders (b.recs.drop 1)]
           t.link = { s.link with queues := s.link.queues.set c.val (q1 ++ rest ++ q2) }) ∧
         (qs ≠ some n → t.link = { s.link with opened := shedOpen c.val n s.link.opened })) ∧
     (s.link.group ≠ [] → ∃ t, exec .codeGroupTimeout s = .next t ∧ SameBut [.tb, .link] s t ∧ t.tb = (s.reach (s.link.groupAt + msTicks 20)).tb ∧
       let k := s.link.group.length
       t.link.group = [] ∧ t.link.groupK = k ∧ t.link.txSeq = s.link.txSeq + s.link.groupM ∧ t.link.repair = s.link.repair ++
         (List.range s.link.groupM).map fun j => ⟨s.link.txSeq + j, k, s.link.groupM, k + j, repairBody s.link.group j, s.link.groupOld⟩) ∧
     (∀ (p : Fin 4) (f : LinkFrame) (u : State) (b : List Byte) (n : Nat × Nat) (k : KeptFrame), s.linkHears p.val f = true →
       s.link.role = some true → s.link.keys.isSome = true → f.type = 3 → s.openFrame f = (u, some b) → Config.nakRead b = some n →
       s.link.kept.find? (fun k => k.keyno.toNat = n.1 && k.seq = n.2 && s.now < k.since + 3 * secTicks) = some k →
       let sends := (s.lpath p.val).up = true ∧ s.link.group = [] ∧ s.link.mapDue = false ∧ (s.lpath p.val).freeAt ≤ s.now
       ∃ t, exec (.linkNakReceived p f) s = .next t ∧
         (¬ sends → t.link.txSeq = s.link.txSeq ∧
           t.link.resend = (if s.link.resend.any fun r => r.keyno = k.keyno && r.seq = k.seq then s.link.resend else s.link.resend ++ [k])) ∧
         (sends → t.cfg 0x2601 10 = min (2 ^ 32 - 1) (s.cfg 0x2601 10 + 1) ∧ t.link.txSeq = s.link.txSeq + 1 ∧
           ((s.lpath p.val).neighbour = true → ∃ h, t.out = s.out ++ [.datagram p.val h])))) ∧
  (∀ (s : State),
     (∀ b, s.link.role = some true → s.link.shaking = true → s.inSession = true → s.link.hello = some b →
       (∀ p ∈ s.linkPaths, (s.lpath p).neighbour = true) → let u := (s.link.helloAt.map fun a => s.reach (a + msTicks 200)).getD s
       let ps := u.linkPaths.filter fun p => !(u.lpath p).closed
       exec .helloTimer s = .next { u with
         link := { u.link with helloAt := some u.now, shakeSeq := u.link.shakeSeq + ps.length }
         out := u.out ++ ps.zipIdx.map fun x => .datagram x.1 (shakeFrame 4 x.1 (u.link.shakeSeq + x.2) u.now b) }) ∧
     (∀ (p : Fin 4) (f : LinkFrame), s.linkHears p.val f = true → s.link.role = some false → f.type = 4 → shakeForm 0 f.body = true →
       s.shakeTrusted f.body = true → s.link.hello ≠ some f.body → s.pst.rngOk = true → (s.lpath p.val).neighbour = true →
       let b := f.body
       let a := shakeBody 1 s.free (slice b 12 32)
       let k := linkKeys (s.link.keyno + 1) s.free (slice b 44 97) (slice b 12 32) (slice a 12 32) (slice b 0 8) (slice a 0 8)
       ∃ t, exec (.linkHelloReceived p f) s = .next t ∧ t.link.keys = some k ∧ t.link.oldKeys = s.link.keys ∧ t.link.keyno = s.link.keyno + 1 ∧
         t.link.txSeq = 0 ∧ t.link.st = 2 ∧ t.link.answer = some a ∧ t.out = s.out ++ [.datagram p.val (shakeFrame 5 p.val s.link.shakeSeq s.now a)] ∧
         t.link.shakeSeq = s.link.shakeSeq + 1) ∧
     (∀ (p : Fin 4) (f : LinkFrame) (h : List Byte), s.linkHears p.val f = true → s.link.role = some true → s.link.hello = some h →
       s.link.shaking = true → f.type = 5 → shakeForm 1 f.body = true → s.shakeTrusted f.body = true → slice f.body 238 32 = slice h 12 32 →
       let b := f.body
       let k := linkKeys (s.link.keyno + 1) s.link.ephem (slice b 44 97) (slice h 12 32) (slice b 12 32) (slice h 0 8) (slice b 0 8)
       ∃ t, exec (.linkAnswerReceived p f) s = .next t ∧ t.link.keys = some k ∧ t.link.keyno = s.link.keyno + 1 ∧ t.link.shaking = false ∧
         t.link.keysAt = s.now ∧ t.link.txSeq = 0 ∧ 2 ≤ t.link.st.val ∧
         (∀ q ∈ s.linkPaths, (s.lpath q).rate = 0 → (t.lpath q).up = true ∧ (t.lpath q).lastReport = some s.now) ∧
         (∀ q, s.linkPaths = [q] → (s.lpath q).rate = 0 → (t.lpath q).rate = max 64000 (min (s.clampRate q (s.cfg 0x2600 2 * 1000)) s.linkCeiling)) ∧
         t.link.mapDue = true ∧ (Tab.get [] t.link.queues 0).head? = some (linkBlock 0 [] [⟨0, 0, s.now, s.mapRecord⟩])) ∧
     (s.link.role = some true → s.link.keys.isSome = true → s.link.shaking = false →
       let u := s.reach (s.link.keysAt + s.cfg 0x2600 7 * secTicks)
       exec .rekeyIntervalExpiry s = .next { u with link := { u.link with shaking := true, hello := none, helloAt := none } }) ∧
     (∀ a k, s.link.oldUntil = some a → s.link.oldKeys = some k → ∃ t, exec .oldKeyExpiry s = .next t ∧ SameBut [.tb, .link] s t ∧
       t.tb = (s.reach a).tb ∧ t.link = { s.link with oldKeys := none, oldUntil := none, seen := s.link.seen.filter fun e => e.1 != k.keyno }) ∧
     (∀ (p : Fin 4) (f : LinkFrame) (u : State) (b : List Byte), s.linkHears p.val f = true → f.type = 6 → s.openFrame f = (u, some b) →
       ∃ t, exec (.linkCloseReceived p f) s = .next t ∧ t.link.st = 1 ∧ t.link.keys = s.link.keys ∧ t.link.hello = none ∧
         (t.link.shaking = true ↔ s.link.role = some true)))

/-- Paths and rates (07 R145, R150, R152, 19 R434). The pit, at its interval, reports a path and starts a new interval. A report at the car brings the path up and
sets its rate, by the report's losses and delay, within the carrier's and the ceiling's share; 500 ms without one take it down. A closed path reopens 1 s
later, which is logged. A request for a path's local address on its MAC is answered, and an answer for its gateway or remote address resolves it. The pit
receives (07 R139, R141, R146 to R148). A new data frame is remembered by KEYNO and SEQ and counted on its path, and each of its records that is not late
waits for its release time; a retransmission brings the frame whose SEQ it gives, and ends its NAKs; of a frame received before nothing is taken. NAK_TIMER
asks for a frame whose group is lost. RECORD_RELEASE takes, of the records first in their lanes, the one whose time comes first, and stores it under its
rewritten TICK in a lane of no own port. The model's choices: log entries 27, 28, 71, 72, 74. -/
def Obligations.LinkPathsAndReceiving : Prop :=
  (∀ (s : State) (p : Fin 4), let x := s.lpath p.val
     (∀ ks, s.link.role = some false → s.link.keys = some ks → s.inSession = true → s.linkPaths.contains p.val = true → x.neighbour = true →
       let u := (x.reportAt.map fun a => s.reach (a + msTicks (s.cfg 0x2600 8))).getD s
       let b := [BitVec.ofNat 8 p.val, 0, 0, 0] ++ beBytes 4 x.received ++ beBytes 4 x.missing ++ beBytes 8 x.highest.2 ++
         beBytes 4 (ofSigned 32 (x.delayChange u.now)) ++ beBytes 4 x.malformed
       ∃ t, exec (.reportIntervalExpiry p) s = .next t ∧ SameBut [.tb, .link, .out] s t ∧
         t.lpath p.val = { x with received := 0, missing := 0, malformed := 0, reportAt := some u.now } ∧ t.link.txSeq = s.link.txSeq + 1 ∧
         t.out = s.out ++ [.datagram p.val (sealedFrame false ks.pitToCar
           (linkHeader 2 0 p.val b.length ks.keyno.toNat s.link.txSeq u.now 1 0 0) b s.link.txSeq)]) ∧
     (∀ (f : LinkFrame) (u : State) (b : List Byte), s.linkHears p.val f = true → s.link.role = some true → f.type = 2 → s.openFrame f = (u, some b) →
       b.length = 28 → slice b 0 4 = [BitVec.ofNat 8 p.val, 0, 0, 0] → s.linkPaths = [p.val] →
       let r := if x.up then adaptRate x.rate (beNat (slice b 4 4)) (beNat (slice b 8 4)) (toSigned 32 (beNat (slice b 20 4))) else s.cfg 0x2600 2 * 1000
       ∃ t, exec (.linkReportReceived p f) s = .next t ∧ (t.lpath p.val).up = true ∧ (t.lpath p.val).lastReport = some s.now ∧
         (t.lpath p.val).rate = max 64000 (min (s.clampRate p.val r) s.linkCeiling)) ∧
     (∀ a, s.link.role = some true → x.up = true → x.lastReport = some a → ∃ t, exec (.pathReportTimeout p) s = .next t ∧
       t.tb = (s.reach (a + msTicks 500)).tb ∧ t.lpath p.val = { x with up := false } ∧ ∀ j, j ≠ p.val → t.lpath j = s.lpath j) ∧
     (x.closed = true → exec (.pathCloseExpiry p) s =
       .next (((s.reach (x.closedAt + secTicks)).setLpath p.val { x with closed := false }).linkEvent s.link.st)) ∧
     (∀ (m : Fin 16) (a : List Byte), s.portUse (macPort m.val) = 3 → s.served = true → s.cfg (pathIdx p.val) 1 = 1 → s.cfg (pathIdx p.val) 2 = m.val →
       (a = s.localAddr p.val → exec (.arpNdFrameReceived m false a) s = .next { s with out := s.out ++ [.neighbour m.val true a] }) ∧
       (a = s.nextHop p.val → ∃ t, exec (.arpNdFrameReceived m true a) s = .next t ∧ SameBut [.link] s t ∧ t.lpath p.val = { x with neighbour := true }))) ∧
  (∀ (s : State),
     (∀ (p : Fin 4) (f : LinkFrame) (u : State), s.linkHears p.val f = true → s.link.role = some false → f.type.toNat ≤ 1 →
       (s.openFrame f = (u, none) → exec (.linkDataFrameReceived p f) s = .next u) ∧
       (∀ b, s.openFrame f = (u, some b) → ∃ t, exec (.linkDataFrameReceived p f) s = .next t ∧ (f.keyno, f.seq.toNat) ∈ t.link.seen ∧
         (t.lpath p.val).received = (s.lpath p.val).received + 1 ∧
         (f.type = 0 → f.fflags.getLsbD 5 = false → s.link.offset.isSome = true → ∀ k ∈ cutBlocks b.length b, ∀ r ∈ (decodeBlock k).getD [],
           Tab.find s.link.released (blockLane k) = none →
           ⟨s.now + msTicks (s.cfg 0x2600 4), s.now, blockLane k, fullCount (f.refep.toNat * 2 ^ 48 + f.reftick.toNat : Nat) (recTick r), r⟩ ∈
             t.link.held) ∧
         (f.fflags.getLsbD 5 = true → let o := beNat (b.take 8)
           let n := s.link.origKey f.keyno o
           (n, o) ∉ s.link.seen → (n, o) ≠ (f.keyno, f.seq.toNat) → (n, o) ∈ t.link.seen ∧
             t.link.naks = s.link.naks.filter fun e => !(e.keyno = n && e.seq = o)))) ∧
     (∀ (n : BitVec 32) (q : BitVec 64) (p : Nat), s.link.role = some false → s.link.keys.isSome = true → s.inSession = true →
       s.link.seen.contains (n, q.toNat) = false → s.groupLost n q.toNat = true → s.linkPaths.find? (fun p => !(s.lpath p).closed) = some p →
       s.link.naks.find? (fun e => e.keyno = n && e.seq = q.toNat) = none → (s.lpath p).neighbour = true →
       ∃ t d, exec (.nakTimer n q) s = .next t ∧ SameBut [.link, .out] s t ∧ ⟨n, q.toNat, s.now, s.now⟩ ∈ t.link.naks ∧
         t.link.txSeq = s.link.txSeq + 1 ∧ t.out = s.out ++ [.datagram p d]) ∧
     (∀ (h : HeldRec), s.link.role = some false → s.inSession = true →
       firstRelease (s.link.held.filter fun h => laneFirst h.lane s.link.held = some h) = some h →
       ∃ t, exec .recordRelease s = .next t ∧ t.link.held = s.link.held.erase h ∧ Tab.find t.link.released h.lane = some h.count ∧
         let r := leBytes 6 (ofSigned 48 (h.count + s.link.offset.getD 0)) ++ h.bytes.drop 6
         (s.recording = true → h.lane ≠ 0 → s.ownLane h.lane = false → 8 ≤ h.bytes.length → recType h.bytes ≠ 4 →
           h.lane < 512 ∨ s.laneStopped h.lane = false → ∃ b, (t.lane h.lane).block = some b ∧ b.recs.getLast? = some r)))

/-- Fabric ports (16 R340, R341, R344 to R349). Signal, the training time limit, a quarantine's and a looped port's second start training, with HELLO first of a
fresh replay buffer; silence and the loss of both lanes take the link down, of one lane retrain it on the other. An awaited HELLO counts as the partner's and,
with this side's acknowledged, brings the link up; one with the own UID shows a loop; another partner's retrains an up link. An IDLE flit releases what its
ACK names, returns its credits, and brings a link up whose HELLO it acknowledges. A NAK, or a retry timeout, sends the replay buffer again and counts it; a
retry timeout repeats the NAK whose expected SEQ has not come, reason and dropped SEQ with it. A failed check is counted and answered with one NAK for each
expected SEQ. The model's choices: log entry 24. -/
def Obligations.FabricPortsComplete : Prop :=
  ∀ (s : State) (k : Fin 8),
    let x := s.fport k.val
    let trains := fun (c : Instr) (one : Bool) => ∃ t g h, exec c s = .next t ∧ (t.fport k.val).st = 2 ∧ (t.fport k.val).oneLane = one ∧
      (t.fport k.val).helloSeen = false ∧ (t.fport k.val).unacked = [⟨h, 1⟩] ∧ h.type = 2 ∧ h.seq = 0 ∧ Output.flit k.val g (flitBytes g) ∈ t.out ∧
      g.payload = h.payload ∧ (x.isUp = false → t.out = s.out ++ [.flit k.val g (flitBytes g)] ∧ ∀ j, j ≠ k.val → t.fport j = s.fport j)
    let down := fun (c : Instr) => ∃ t, exec c s = .next t ∧ (t.fport k.val).st = 1 ∧ (t.fport k.val).unacked = [] ∧ (x.isUp = false → t.out = s.out) ∧
      Logged s t 1 (0x2710 + k.val) 1 1
    let again := fun (c : Instr) (n e : Nat) => ∃ t, exec c s = .next t ∧ t.out.length = s.out.length + e + (x.unacked.length - n) ∧
      (t.fport k.val).unacked = x.unacked.take n ++ (x.unacked.drop n).map (fun u => { u with sent := u.sent + 1 }) ∧
      t.cfg (0x2710 + k.val) 5 = min (2 ^ 32 - 1) (s.cfg (0x2710 + k.val) 5 + 1)
    (s.served = true →
      (s.fabEnabled k.val = true → x.st = 1 → trains (.signalDetect k) false) ∧ (x.st = 2 → trains (.trainingTimeout k) false) ∧
      (x.st = 5 → trains (.quarantineExpiry k) false) ∧ (x.st = 6 → trains (.loopedRetrainTimer k) false) ∧
      (x.isUp = true → down (.flitSilenceTimeout k)) ∧
      (∃ t, exec .fabricHelloTimer s = .next t ∧ (x.isUp = true → x.txq = [] → x.maySend (s.helloFlit k.val) = true →
        (t.fport k.val).txSeq = x.txSeq + 1 ∧ SentFlit t k.val 2 fun p => p = (s.helloFlit k.val).payload))) ∧
    (s.fabHears k.val = true →
      down (.laneLockLoss k true) ∧ (x.oneLane = false → trains (.laneLockLoss k false) true) ∧
      (x.unacked ≠ [] → (∀ u ∈ x.unacked, u.sent < 16) → again (.retryTimeout k) 0 (if x.nakFor.isSome then 1 else 0)) ∧
      (∀ r, x.nakFor = some r → (∀ u ∈ x.unacked, u.sent < 16) → ∃ t, exec (.retryTimeout k) s = .next t ∧
        SentFlit t k.val 1 fun p => p = [r.2.1, x.rxNext, r.2.2]) ∧
      ((if x.checkSecond = s.now / secTicks then x.checkCount + 1 else 1) ≠ 10001 → ∃ t, exec (.flitCheckFailed k) s = .next t ∧
        t.cfg (0x2710 + k.val) 4 = min (2 ^ 32 - 1) (s.cfg (0x2710 + k.val) 4 + 1) ∧
        (x.nakFor = none → (t.fport k.val).nakFor = some (x.rxNext, 1, 0) ∧ SentFlit t k.val 1 fun p => p = [1, x.rxNext, 0]))) ∧
    (∀ (f : Flit) (n : Nat), x.ackCount f.ack = some n →
      (s.flitTaken k.val f 0 = true →
        (x.isUp = true → s.fab.exports = [] → ∃ t, exec (.idleFlitReceived k f) s = .next t ∧ (t.fport k.val).unacked = x.unacked.drop n ∧
          t.out = s.out ∧ (f.cvc ≠ 3 → Tab.get 64 (t.fport k.val).credits f.cvc.toNat = Tab.get 64 x.credits f.cvc.toNat + f.ccnt.toNat)) ∧
        (x.st = 2 → x.helloSeen = true → x.unacked.length = n → ∃ t, exec (.idleFlitReceived k f) s = .next t ∧
          (t.fport k.val).st = (if x.oneLane then 4 else 3))) ∧
      (s.flitTaken k.val f 1 = true → n = 0 → s.fab.exports = [] → (∀ u ∈ x.unacked, u.sent < 16) → let m := (((usedBytes f).getD 1 0) - x.base).toNat
        m < x.unacked.length → again (.nakFlitReceived k f) m 0) ∧
      (s.flitNext k.val f 2 = true →
        let b := usedBytes f
        let u := BitVec.ofNat 64 (leNat (slice b 0 8))
        (u = Config.uid → ∃ t, exec (.helloFlitReceived k f) s = .next t ∧ (t.fport k.val).st = 6) ∧
        (u ≠ Config.uid → x.isUp = true → x.partner ≠ u → ∃ t, exec (.helloFlitReceived k f) s = .next t ∧ (t.fport k.val).st = 2 ∧
          (t.fport k.val).partner = u) ∧
        (u ≠ Config.uid → x.isUp = false ∨ x.partner = u → ∃ t, exec (.helloFlitReceived k f) s = .next t ∧ (t.fport k.val).helloSeen = true ∧
          (t.fport k.val).partner = u ∧ (t.fport k.val).rxNext = x.rxNext + 1 ∧
          (t.fport k.val).partnerNode = (if (b.getD 8 0).toNat / 128 = 1 then some (b.getD 9 0) else none) ∧
          (x.st = 2 → x.unacked.length = n → (t.fport k.val).st = if x.oneLane then 4 else 3))))

/-- Node IDs, routes and fabric time (16 R350 to R357). A dynamic device without a node ID takes the lowest free one in UID order. Its own advert gets the next
generation and is flooded; a later one of another device is kept, an older one is not; an advert not refreshed leaves. The recomputation keeps what a path
reaches, has a route to every device that holds a node ID, over ports that are up, counts itself and the hops to the master. A better master displaces the one
in force, with its hops. A TIME REQ on every up port is answered with its times; the answer to it gives delay and offset. Messages of the fabric (16 R353,
R358, R360, 08 R178). A management read of an object of this device, whose answer fits one flit, is answered to its source; an answer reaches the caller of
its request, as data or as the abort it names; a request without one for 100 ms is aborted with 0x0504_0000 and counted. A DATA record in one flit for an
engine with room enters its pod's router, one for another device goes on with one hop more. The model's choices: log entries 25, 26. -/
def Obligations.FabricRoutesAndMessages : Prop :=
  (∀ (s : State), s.served = true →
     (∀ n, s.cfg 0x2700 1 ≠ 0 → s.fabStatic = false → s.fab.node = none → s.dynamicId = some n → ∃ t, exec .nodeIdTimer s = .next t ∧
       t.fab.node = some (BitVec.ofNat 8 n) ∧ (n < 256 → Logged s t 1 0x2701 2 n)) ∧
     (s.cfg 0x2700 1 ≠ 0 → ∃ t, exec .routeAdvertTimer s = .next t ∧ t.fab.gen = s.fab.gen + 1 ∧
       (∃ a ∈ t.fab.db, a.uid = Config.uid ∧ a.gen = s.fab.gen + 1 ∧ a.near = s.neighbours) ∧
       ∀ k < 8, (s.fport k).isUp = true → (s.fport k).txq = [] → (s.fport k).maySend (mkFlit 4 1 []) = true → SentFlit t k 4 fun _ => True) ∧
     (∀ (k : Fin 8) (f : Flit), s.flitNext k.val f 4 = true → f.tspec = 0xC0 → let a := readAdvert s.now [f]
       a.uid ≠ Config.uid →
       ((∀ b, s.advertOf a.uid = some b → serial 16 b.gen.toNat a.gen.toNat = .later) → ∃ t, exec (.routeAdvertReceived k [f]) s = .next t ∧
         t.advertOf a.uid = some a) ∧
       (∀ b, s.advertOf a.uid = some b → serial 16 b.gen.toNat a.gen.toNat ≠ .later → ∃ t, exec (.routeAdvertReceived k [f]) s = .next t ∧
         t.advertOf a.uid = some b)) ∧
     (∀ u a, s.advertOf u = some a → u ≠ Config.uid → ∃ t, exec (.advertAgeExpiry u) s = .next t ∧ t.fab.db = s.fab.db.filter (·.uid != u) ∧
       t.tb = (s.reach (a.since + 3 * secTicks)).tb) ∧
     (s.cfg 0x2700 1 ≠ 0 → ∃ t, exec .routeRecompute s = .next t ∧
       t.fab.db = s.fab.db.filter (fun a => (reachable s.fab.db (Config.uid.toNat :: s.neighbours.map (·.uid.toNat)) 256).contains a.uid.toNat) ∧
       (∀ a ∈ t.fab.db, a.held = true → a.role ≠ 2 → a.uid ≠ Config.uid → ∃ l, t.fab.routes.find a.node.toNat = some l ∧
         ∀ k ∈ l, (s.fport k).isUp = true) ∧
       t.cfg 0x2701 8 = min (2 ^ 32 - 1) (s.cfg 0x2701 8 + 1) ∧ t.fab.hops = t.masterHops t.fab.master) ∧
     (∀ u, s.fab.better = some u → ∃ t, exec .masterDisplacement s = .next t ∧ SameBut [.fab] s t ∧ t.fab.master = some u ∧ t.fab.better = none ∧
       (s.fab.master ≠ some u → t.fab.hops = s.masterHops (some u))) ∧
     (∃ t, exec .timeReqTimer s = .next t ∧ SameBut [.fab, .out] s t ∧
       ∀ k < 8, (s.fport k).isUp = true → (t.fport k).req = some (s.flitOut k) ∧ SentFlit t k 3 fun p => p = 0 :: timeBytes (s.flitOut k)) ∧
     (∀ (k : Fin 8) (f : Flit) (d : Stamp) (map : TaiMap), s.flitTaken k.val f 3 = true →
       ((usedBytes f).getD 0 0 = 0 → ∃ t, exec (.timeReqReceived k f d) s = .next t ∧ SentFlit t k.val 3 fun p =>
         p = 1 :: (slice (usedBytes f) 1 10 ++ timeBytesI (s.flitTime k.val d) ++ timeBytes ((s.reach d.count).flitOut k.val))) ∧
       ((usedBytes f).getD 0 0 = 1 → let b := usedBytes f
         (s.fport k.val).req = some (readTime b 1) → s.flitTime k.val d ≤ (readTime b 1 : Int) + usTicks 100 →
         let delay : Int := ((s.flitTime k.val d - readTime b 1) - ((readTime b 21 : Int) - readTime b 11)) / 2
         ∃ t, exec (.timeRespReceived k f ⟨d, map⟩) s = .next t ∧ (t.fport k.val).req = none ∧ (t.fport k.val).exchanges = (s.fport k.val).exchanges + 1 ∧
           t.cfg (0x2710 + k.val) 8 = ofSigned 32 delay))) ∧
  (∀ (s : State) (k : Fin 8) (f : Flit), (s.fport k.val).isUp = true →
     let b := usedBytes f
     (s.flitNext k.val f 6 = true → f.tspec = 0xC0 → s.fabMine f = true →
       (b.getD 0 0 = 0 → let i := leNat (slice b 4 2)
         let j := leNat (slice b 6 1)
         ∀ r n, dictRow i j = some r → (i, j) ∉ [(0x2202, 1), (0x2202, 2), (0x2930, 3)] → leNat (slice b 7 4) = 0 →
           ((windowLen i).isSome = true → j ≠ 0 → r.size ≤ min (leNat (slice b 2 2)) 3316) → s.windowBad i j = false → s.fab.exports = [] →
           s.routePort 6 f.src.toNat = some n → n < 8 → (s.fport n).txq = [] → (s.fport n).maySend (mkFlit 6 1 []) = true →
           let d := (s.objBytes .fabric r i j).take (min (leNat (slice b 2 2)) 3316)
           d.length ≤ 40 → ∃ t, exec (.mgmtRequestReceived k [f]) s = .next t ∧
             SentFlit t n 6 fun p => p = [4, b.getD 1 0] ++ leBytes 2 d.length ++ zeros 8 ++ d) ∧
       (b.getD 0 0 = 4 → ∀ o ∈ s.fab.out, s.fab.out.find? (fun o => o.node = f.src && o.tag = b.getD 1 0) = some o →
         let st := leNat (slice b 4 4)
         let d := (b.drop 12).take (leNat (slice b 2 2))
         ∃ t, exec (.mgmtAnswerReceived k [f]) s = .next t ∧
           (st ≠ 0 → Output.abort o.path (BitVec.ofNat 32 st) ∈ t.out) ∧
           (st = 0 → o.write = true → o.rest = [] → Output.answer o.path [] ∈ t.out) ∧
           (st = 0 → o.write = false → o.path ≠ .can → Output.answer o.path (o.got ++ d) ∈ t.out))) ∧
     (s.served = true → ∀ o ∈ s.fab.out, s.fab.out.find? (fun p => p.node = o.node && p.tag = o.tag) = some o →
       ∃ t, exec (.mgmtRequestTimeout o.node o.tag) s = .next t ∧ t.fab.out = s.fab.out.erase o ∧ Output.abort o.path 0x05040000 ∈ t.out ∧
         t.cfg 0x2701 11 = min (2 ^ 32 - 1) (s.cfg 0x2701 11 + 1)) ∧
     (s.flitNext k.val f 7 = true →
       (s.fabMine f = true → f.tspec = 0xC0 → Tab.get [] s.fab.parts f.src.toNat = [] → s.cls.dropsOwed = [] →
         let e := (b.getD 0 0).toNat % 32 * 32 + (b.getD 1 0).toNat % 32
         s.routerRoom e (b.drop 4) = true → ∃ t, exec (.dataFlitReceived k f) s = .next t ∧
           (t.pod (e / 32)).arrival = (s.pod (e / 32)).arrival ++ [⟨e, (b.getD 2 0).toNat % 2, b.drop 4⟩]) ∧
       (∀ n, s.fab.exports = [] → s.fabMine f = false → s.fabRole ≠ 2 → f.hops.toNat < 15 → s.routePort 7 f.dst.toNat = some n → n ≠ k.val → (s.fport n).txq = [] →
         (s.fport n).maySend f = true → ∃ t g, exec (.dataFlitReceived k f) s = .next t ∧
           Output.flit n g (flitBytes g) ∈ t.out ∧ g.type = 7 ∧
           g.payload = f.payload ∧ g.dst = f.dst ∧ g.hops = f.hops + 1)))

/-- Switching and saving on this device (17 R386, R389 to R393). An accepted SWITCH_PROFILE is pending from now on with its tick T and what the slot holds. A unit
that can load the profile counts as prepared, another as not; a pod verifies and holds its new image; the classifier loads the shadow bank and checks it. At T
with every unit prepared all take the new generation, the profile's values are in force and the banks have swapped; with a core unit lacking nothing changes.
At T + 100 ms the switch is over, a split one under policy 0 is back at the old generation and slot. A save to a slot in IDLE is owed its answer until the
flash write, in the order of the saves; an uncorrectable entry of the active bank, which it reads, resets the chip. Switches of a fabric (16 R361, R362). A
PREPARE of another coordinator for a slot that passes its check is pending here too, a copy of it that comes later does nothing; READY and NOTREADY before T
are noted at the coordinator by node; an OUTCOME for the switch that has been committed settles it, by a commit without split or by a split record with the
nodes it names, and one that comes before the commit is kept for it; with none by T + 50 ms it counts as split with every other node. The model's choices: log
entries 21, 22. -/
def Obligations.ProfileSwitchCompletes : Prop :=
  (∀ (s : State), s.served = true →
     (∀ (p : Path) (a : W24), s.remote p = none → bits a.toNat 3 1 = 0 → bits a.toNat 18 6 = 0 → bits a.toNat 4 14 ≤ 10000 →
       s.sess.st = .idle ∨ s.sess.st = .armed ∨ s.sess.st = .running → s.switchPending = false →
       ∀ x, s.goodSlot (a.toNat % 8) = some x →
       s.genTooFar (s.sw.issued + 1) = false → ∃ t, exec (.switchProfile p a) s = .next t ∧ t.sw.st = 1 ∧ t.sw.issued = s.sw.issued + 1 ∧
         t.sw.pending = some ⟨Config.uid, true, s.now + msTicks (if bits a.toNat 4 14 = 0 then s.cfg 0x2800 5 else max 10 (bits a.toNat 4 14)),
           a.toNat % 8, s.sw.gen, s.sw.issued + 1, [], [], [], [], [], false, false, false, [], x, none⟩) ∧
     (∀ (p : Path) (a : W24), s.remote p = none → bits a.toNat 3 1 = 0 → bits a.toNat 18 6 = 0 → bits a.toNat 4 14 ≤ 10000 → s.switchPending = true →
       exec (.switchProfile p a) s = .next (s.refuseCmd p (cmdValue 6 a.toNat) abState)) ∧
     (∀ (w : PendingSwitch), s.sw.pending = some w → w.done = false → let x := w.profile
       (∀ (i : Unit_), let u := unitCode i
         w.prepared.contains u = false → w.refusedUnits.contains u = false →
         (u < 144 ∨ 176 ≤ u → u ≠ 208 → ∃ t, exec (.unitPrepared i) s = .next t ∧ t.sw.pending = some (if s.unitReady x u then
           { w with prepared := w.prepared ++ [u] } else { w with refusedUnits := w.refusedUnits ++ [u] })) ∧
         (144 ≤ u → u < 176 → ∃ t, exec (.unitPrepared i) s = .next t ∧
           (s.newImage x (u - 144) = none → t.sw.pending = some { w with prepared := w.prepared ++ [u] }) ∧
           (∀ b d, s.newImage x (u - 144) = some (b, 0, d) →
             t.sw.pending = some { w with images := w.images.set (u - 144) b, prepared := w.prepared ++ [u] }) ∧
           (∀ b c d, s.newImage x (u - 144) = some (b, c, d) → c ≠ 0 → t.sw.pending = some { w with refusedUnits := w.refusedUnits ++ [u] } ∧
             t.cfg 0x2A21 1 = c))) ∧
       (w.prepared.contains 208 = false → w.refusedUnits.contains 208 = false → s.cls.checking = none → s.cls.copying = false →
         ∃ t, exec (.unitPrepared .classifier) s = .next t ∧ t.cls = s.cls.setShadow ⟨x.fkt, x.sm⟩ ∧
           ((⟨x.fkt, x.sm⟩ : Bank).check = none → t.sw.pending = some { w with prepared := w.prepared ++ [208] }) ∧
           ((⟨x.fkt, x.sm⟩ : Bank).check ≠ none → t.sw.pending = some { w with refusedUnits := w.refusedUnits ++ [208] })) ∧
       (∃ t, exec .profileCommitTick s = .next t ∧ (t.sw.pending.map (·.done)) = some true ∧
         (w.lacking = [] → t.sw.gen = w.newGen ∧ t.sw.slot = w.slot ∧ t.sw.slotBefore = s.sw.slot ∧ t.cls.active = !s.cls.active ∧
           (∀ u < 216, (t.sw.units.get {} u).gen = w.newGen ∧ (t.sw.units.get {} u).old = (s.sw.units.get {} u).gen ∧
             (t.sw.units.get {} u).since = w.commitAt) ∧
           ((x.vals.map (·.1)).Nodup → ∀ i j, j < 256 → profileScoped i j = true → t.cfg i j = x.value i j) ∧
           (s.inFabric = false → t.inFabric = false → t.sw.st = 2)) ∧
         (w.lacking = allUnits → t.sw.gen = s.sw.gen ∧ t.sw.slot = s.sw.slot ∧ t.sw.units = s.sw.units ∧ t.cls.active = s.cls.active ∧
           (s.inFabric = false → t.sw.st = 3)))) ∧
     (∀ (w : PendingSwitch), s.sw.pending = some w → w.done = true → ∃ t, exec .profileRevertTick s = .next t ∧ t.sw.pending = none ∧
       (w.split = true → s.cfg 0x2800 6 = 0 → w.committed ≠ [] → t.sw.st = 4 ∧ t.sw.gen = w.oldGen ∧ t.sw.slot = s.sw.slotBefore) ∧
       (w.split = false → t.sw.gen = s.sw.gen ∧ t.sw.slot = s.sw.slot ∧ t.sw.st = s.sw.st)) ∧
     (∀ (p : Path) (v : Byte), s.remote p = none → v.toNat ≤ 7 → s.sess.st = .idle → s.switchPending = false →
       let r := s.readSides (sideInBank (!s.cls.active))
       (r.badEntry = none → exec (.profileSave p v) s =
         .next (({ r with sw := { r.sw with saving := r.sw.saving ++ [(p, v.toNat, r.profileNow)] } } : State).owe 0x2800 3)) ∧
       (∀ e, r.badEntry = some e → exec (.profileSave p v) s = .next (r.sideFailed e))) ∧
     (∀ p v x l, s.sw.saving = (p, v, x) :: l → s.acc.owed = [] → exec .flashWriteComplete s =
       .next ((({ s with sw := { s.sw with saving := l, slots := s.sw.slots.set v x } } : State).wrote (profileCopies v)).answer p []))) ∧
  (∀ (s : State) (k : Fin 8) (f : Flit), let b := usedBytes f
     let w := readCommit b
     (s.flitNext k.val f 5 = true →
       (commitKind f = 0 → w.coord ≠ Config.uid → s.sw.pending = none → s.inFabric = true → s.sw.prepSeen.contains (w.coord, w.commitAt) = false →
         ∀ x, s.goodSlot w.slot = some x → ∃ t, exec (.prepareReceived k f) s = .next t ∧ t.sw.pending = some { w with profile := x } ∧ t.sw.st = 1 ∧
           t.sw.issued = w.newGen ∧ t.sw.lastT = w.commitAt ∧ t.sw.prepSeen = (w.coord, w.commitAt) :: s.sw.prepSeen) ∧
       (commitKind f = 0 → s.sw.prepSeen.contains (w.coord, w.commitAt) = true → ∃ t, exec (.prepareReceived k f) s = .next t ∧ t.sw = s.sw) ∧
       (commitKind f = 1 ∨ commitKind f = 2 → s.fabMine f = true → ∀ a, s.sw.pending = some a → a.local_ = true → a.coord = w.coord →
         a.commitAt = w.commitAt → a.done = false → s.now < a.commitAt → ∃ t, exec (.readyReceived k f) s = .next t ∧
           t.sw.pending = some (if commitKind f = 1 then { a with ready := f.src.toNat :: a.ready.filter (· != f.src.toNat) }
             else { a with notReady := f.src.toNat :: a.notReady.filter (· != f.src.toNat) })) ∧
       (commitKind f = 3 → w.coord ≠ Config.uid → s.fabRole ≠ 2 → s.sw.outSeen.contains (w.coord, w.commitAt) = false →
         ∀ a, s.sw.pending = some a → a.coord = w.coord → a.commitAt = w.commitAt → a.settled = false →
         (a.done = false → ∃ t, exec (.outcomeReceived k f) s = .next t ∧ t.sw.pending = some { a with outcome := some (outcomeNodes b) }) ∧
         (a.done = true → ∃ t, exec (.outcomeReceived k f) s = .next t ∧
           (a.lacking = [] → outcomeNodes b = [] → t.sw.st = 2 ∧ t.sw.pending = some { a with notReady := [], settled := true }) ∧
           (a.lacking ≠ [] ∨ outcomeNodes b ≠ [] → t.sw.st = 3 ∧
             t.sw.pending = some { a with notReady := outcomeNodes b, split := true, settled := true })))) ∧
     (∀ a, s.served = true → s.sw.pending = some a → a.done = true → a.settled = false → ∃ t, exec .outcomeTimeout s = .next t ∧
       t.sw.st = 3 ∧ ∃ l, t.sw.pending = some { a with notReady := l, split := true, settled := true } ∧
         ∀ n < 256, n ∈ l ↔ s.fab.node ≠ some (BitVec.ofNat 8 n)))

/-- Pestle's own events while it serves (18 R398, R402, R405, R416, R417, 19 R434, R437): a pod reset clears the pod's engines but for stores that leave the pod,
its router and Mill, counts and logs, and loads the pod again or leaves it held once it has failed; a watchdog resets the chip; a doorbell answered falls,
with its message logged within 64 a second and counted beyond, and a halt resets the pod; channels of a failed pod go to its standby pod, unless an entry of
the active bank is uncorrectable, which resets the chip; a sample of the sensors sets readings, windows, throttle level and calibration; a health test decides
whether random output is given. The model's choices: log entries 14, 33, 38, 39, 69. -/
def Obligations.PestleServicesComplete : Prop :=
  ∀ (s : State), s.served = true →
    (∀ (k : PodN), s.podUp k.val = true → (s.pod k.val).copy = none →
      let p := k.val
      let dead := decide (s.cfg 0x2960 2 ≤ (recentResets s.now (s.pod p).resetAt).length)
      ∃ t, exec (.podReset k) s = .next t ∧ t.cfg (0x2A01 + p) 3 = min 65535 (s.cfg (0x2A01 + p) 3 + 1) ∧ (∀ i < 32, EngineCleared s t (32 * p + i)) ∧
        (t.pod p).arrival = [] ∧ t.store.mills = s.store.mills.erase p ∧ (t.pod p).resetAt = recentResets s.now (s.pod p).resetAt ∧ (t.pod p).failed = dead ∧
        (dead = true ∨ s.imageRef p = 0 → (t.pod p).erst = 0xFFFFFFFF ∧ (t.pod p).loaded = false) ∧
        (dead = false → ∀ b, s.imageRef p ≠ 0 → Tab.find s.pst.images (s.imageRef p) = some b → (podCheck s.pst.keyHash b (s.otherImages p)).1 = 0 →
          (t.pod p).loaded = true ∧ (t.pod p).erst = ~~~(BitVec.ofNat 32 (imgMask b)))) ∧
    (∀ (k : Fin 4), ∃ t, exec (.watchdogExpiry k) s = .next t ∧ WarmAfter (s.reach (s.pst.kicked.get s.pwr.releasedAt k.val + 400000000)) t 3) ∧
    (∀ (e : Fin 1024), (s.engine e.val).exc.st = 0 → (s.door e.val).full = true →
      let n := if s.pst.doorSecond = s.now / secTicks then s.pst.doorCount else 0
      ∃ t, exec (.doorbellService e) s = .next t ∧ t.door e.val = { s.door e.val with full := false, ovr := false } ∧
        (n < 64 → Logged s t 5 (0x2A01 + e.val / 32) (e.val % 32) (s.door e.val).msg.toNat ∧ t.pst.doorCount = n + 1 ∧
          t.pst.doorSecond = s.now / secTicks) ∧
        (64 ≤ n → t.log = s.log ∧ t.cfg 0x2900 3 = min (2 ^ 32 - 1) (s.cfg 0x2900 3 + 1 + bit01 (s.door e.val).ovr))) ∧
    (∀ (e : Fin 1024), (s.engine e.val).exc.st ≠ 0 → s.podUp (e.val / 32) = true → ∃ t, exec (.doorbellService e) s = .next t ∧
      (t.door e.val).full = false ∧ (∀ i < 32, EngineCleared s t (e.val / 32 * 32 + i)) ∧
      t.cfg (0x2A01 + e.val / 32) 3 = min 65535 (s.cfg (0x2A01 + e.val / 32) 3 + 1)) ∧
    (∀ (k : PodN), s.sess.st = .idle → (s.pod k.val).failed = true → s.cfg 0x2960 1 = 1 → s.switchPending = false → s.checking = false →
      s.cls.copying = false → let b := s.cls.activeBank.rehome k.val (s.cfg (0x2A40 + k.val) 2)
      let r := s.readSides (sideInBank (!s.cls.active))
      (∀ e, r.badEntry = some e → exec (.rehomeChannels k) s = .next (r.sideFailed e)) ∧
      (r.badEntry = none → ∃ t, exec (.rehomeChannels k) s = .next t ∧ SameBut (.cls :: .cel :: Part.logging) s t ∧
        (b.check = none → t.cls = (s.cls.setShadow b).swap s.now ∧ Logged s t 1 0x2900 0 0) ∧ (b.check ≠ none → t.cls = s.cls.setShadow b))) ∧
    (∀ (l : List Int) (v c : List Nat), v.length = 24 → ∃ t, exec (.sensorSample l v c) s = .next t ∧ t.pst.temps = l ∧ t.pst.volts = v ∧ t.pst.clocks = c ∧
      (∀ m < 24, t.pst.windows.getD m false = s.windowed m (v.getD m 0)) ∧
      t.pwr.throttle.val = nextThrottle s.pwr.throttle.val (hottest l) ∧
      (s.pst.calTemps ≠ [] → ((List.zip l s.pst.calTemps).any fun x => 80 ≤ |x.1 - x.2|) = true →
        t.tb.calGen = s.tb.calGen + 1 ∧ t.pst.calTemps = l)) ∧
    (∀ (ok : Bool), ∃ t, exec (.randomSourceHealthTest ok) s = .next t ∧ SameBut (.pst :: Part.logging) s t ∧ t.pst = { s.pst with rngOk := ok } ∧
      (ok = false → Logged s t 1 0x2900 0 0)) ∧
    (∀ (p : Path) (r : LogRow), s.remote p = none → s.log.wf →
      let c := s.acc.cursors.get 0 (pathCode p)
      let n := (s.log.next - c).toNat
      n ≤ s.log.rows.length → s.log.rows[s.log.rows.length - n]? = some r → 0 < n →
        let k : SideRow := .eventLog (Fin.ofNat 8192 r.seq.toNat)
        ∃ a, a.cursors = s.acc.cursors.set (pathCode p) (c + 1) ∧ exec (.eventLogRead p) s =
          .next ((({ s with acc := a } : State).readSides fun x => x = k).answer p (if s.sideBad k then r.damaged else r.bytes))) ∧
    (∀ (p : Path), s.remote p = none → s.acc.cursors.get 0 (pathCode p) = s.log.next →
      exec (.eventLogRead p) s = .next (s.refuse p 0x2930 3 0 abGeneral))

/-- Firmware, pod images and the image key on a path that targets this device, in IDLE (18 R404, R411 to R413): a piece of an image goes into the slot that is not
active, the check leaves its result, a checked slot is activated on trial and the chip is reset 100 ms later; until then no other image is taken: confirmation
ends the trial and raises the rollback counter, abandonment turns the slots back; a pod image is stored once whole and checked, and deleted unless a profile
names it; the image key is fused once. Out of IDLE each is refused with 0x0800_0022. The model's choices: log entries 40, 41, 42, 76. -/
def Obligations.FirmwareAndImagesComplete : Prop :=
  ∀ (s : State) (p : Path), s.served = true → s.remote p = none →
    (∀ (off : Nat) (l : List Byte), off + l.length ≤ 4194304 → s.sess.st = .idle → s.pst.updater = none ∨ s.pst.updater = some p → s.pst.resetDue = none →
      s.pst.trial = false → off = 0 ∨ (off = s.pst.received ∧ s.pst.updater = some p) →
      let x := s.pst.setInactive { image := (if off = 0 then [] else s.pst.inactive.image) ++ l }
      exec (.firmwareImageWrite p off l) s =
        .next (({ s with pst := { x with updater := some p, received := off + l.length, checked := 0 } } : State).answer p [])) ∧
    (∀ (off : Nat) (l : List Byte), off + l.length ≤ 4194304 → s.sess.st ≠ .idle ∨ s.pst.trial = true →
      exec (.firmwareImageWrite p off l) s = .next (s.refuseLog p 0x2912 1 0 abState)) ∧
    (s.sess.st = .idle → s.pst.updater = some p → s.pst.resetDue = none → s.pst.trial = false →
      (∃ t, exec (.updateCheck p) s = .next (t.answer p []) ∧ SameBut (.pst :: Part.logging) s t ∧ t.pst.checked = fwCheck s.pst.rollback.val s.pst.inactive.image ∧
        t.pst.inactive.image = s.pst.inactive.image ∧ t.pst.inactive.result = t.pst.checked ∧
        (∀ c, fwCode t.pst.checked = some c → t.cfg 0x2A21 1 = c ∧ t.cfg 0x2A21 2 = 255)) ∧
      (s.pst.checked = 1 → exec (.updateActivate p) s = .next ((({ s with pst :=
        { s.pst with activeB := !s.pst.activeB, trial := true, attempts := 0, resetDue := some (s.now + 400000000) } } : State).wrote
          descriptorCopies).answer p [])) ∧
      (s.pst.checked ≠ 1 → exec (.updateActivate p) s = .next (s.refuseLog p 0x2912 3 2 abState))) ∧
    (s.sess.st = .idle → s.pst.updater = none ∨ s.pst.updater = some p → s.pst.resetDue = none → s.pst.trial = true → s.pst.runningTrial = true →
      ∃ t, exec (.updateConfirm p) s = .next (t.answer p []) ∧ SameBut [.pst] s t ∧ t.pst.trial = false ∧ t.pst.updater = none ∧
        (s.pst.running.svn ≤ 64 → t.pst.rollback.val = max s.pst.rollback.val s.pst.running.svn)) ∧
    (s.sess.st = .idle → s.pst.updater = some p → ∃ t, exec (.updateAbandon p) s = .next (t.answer p []) ∧ SameBut [.pst] s t ∧ t.pst.updater = none ∧
      t.pst.resetDue = none ∧ t.pst.trial = false ∧ t.pst.rollback = s.pst.rollback ∧ (t.pst.activeB = if s.pst.trial then !s.pst.activeB else s.pst.activeB)) ∧
    (s.sess.st ≠ .idle ∨ s.pst.trial = true → exec (.updateCheck p) s = .next (s.refuseLog p 0x2912 3 1 abState) ∧
      exec (.updateActivate p) s = .next (s.refuseLog p 0x2912 3 2 abState)) ∧
    (s.sess.st ≠ .idle → exec (.updateConfirm p) s = .next (s.refuseLog p 0x2912 3 3 abState) ∧ exec (.updateAbandon p) s = .next (s.refuseLog p 0x2912 3 4 abState)) ∧
    (∀ c, s.pst.resetDue = some c → ∃ t, exec .updateResetTimer s = .next t ∧ WarmAfter (s.reach c) t 8) ∧
    (∀ (off : Nat) (l : List Byte), off + l.length ≤ 8388608 → s.sess.st = .idle → off = 0 ∨ off = s.pst.upload.length →
      let b := (if off = 0 then [] else s.pst.upload) ++ l
      let run := exec (.podImageWrite p off l) s
      (b.length < 64 ∨ b.length < imgLen b → run = .next (({ s with pst := { s.pst with upload := b } } : State).answer p [])) ∧
      (64 ≤ b.length → imgLen b ≤ b.length → let t : State := { s with pst := { s.pst with upload := [] } }
        ((podCheck s.pst.keyHash b []).1 ≠ 0 → run = .next (t.refuse p 0x2913 1 0 abConfig)) ∧
        ((podCheck s.pst.keyHash b []).1 = 0 → imageUnits b ≤ s.freeUnits → run =
          .next (({ s with pst := { s.pst with upload := [], images := s.pst.images.set (imgId b) b } } : State).answer p [])))) ∧
    (∀ (i : BitVec 64), s.sess.st = .idle → (s.sw.slots.any fun e => e.2.names i.toNat) = false →
      exec (.podImageDelete p i) s = .next (({ s with pst := { s.pst with images := s.pst.images.erase i.toNat } } : State).answer p [])) ∧
    (∀ (i : BitVec 64), (s.sw.slots.any fun e => e.2.names i.toNat) = true →
      exec (.podImageDelete p i) s = .next (s.refuseLog p 0x2913 3 (i.toNat % 2 ^ 24) abState)) ∧
    (∀ (l : List Byte), l.length = 48 →
      (s.sess.st = .idle → s.pst.keyHash = none →
        exec (.imageKeyFuse p l) s = .next (({ s with pst := { s.pst with keyHash := some l } } : State).answer p [])) ∧
      (s.sess.st ≠ .idle ∨ s.pst.keyHash ≠ none → exec (.imageKeyFuse p l) s = .next (s.refuseLog p 0x2911 1 (leNat l % 2 ^ 24) abState)))

/-- Entry to a power state and its abandonment, and the wake (19 R421 to R432). An accepted POWER holds the engines of every powered pod and arms Husk capture;
one accepted during the entry gives it another target, one during a wake is abandoned by that; at quiescence, when no transfer is in flight, the state is
entered with its retention record, or a latched wake abandons the entry; a wake edge during an entry abandons it at A1 and below RUN begins a wake, which a
qualification lets run and a failed one ends with its last source; the Husk buffers frames in that time; the end of a qualified wake is RUN with the session,
generation and profile of the record. The model's choices: log entries 43, 44, 45, 77. -/
def Obligations.PowerStatesComplete : Prop :=
  ∀ (s : State),
    (∀ (p : Path) (k : Fin 5), s.served = true → s.remote p = none → let w : W24 := BitVec.ofNat 24 k.val
      let run := exec (.power p ⟨w, none⟩) s
      (k = s.pwr.st → k = 0 ∨ ((s.sess.st = .idle ∨ s.sess.st = .armed) ∧ s.switchPending = false) → run = .next (s.answer p [])) ∧
      (k ≠ 0 → k ≠ s.pwr.st → s.sess.st = .idle ∨ s.sess.st = .armed → s.switchPending = false → s.pwr.entry = none → s.pwr.wake = none →
        ∃ t, run = .next t ∧ t.pwr.entry = some ⟨k, p⟩ ∧ t.pwr.st = s.pwr.st ∧ t.pwr.capture = true ∧ t.pwr.huskBuf = [] ∧
          (s.pwr.st ≠ 1 → ∀ q < 32, (s.pod q).powered = true → (t.pod q).erst = 0xFFFFFFFF)) ∧
      (k ≠ 0 → k ≠ s.pwr.st → s.sess.st = .idle ∨ s.sess.st = .armed → s.switchPending = false →
        (∀ e, s.pwr.entry = some e → run = .next (({ s with pwr :=
          { s.pwr with entry := some { e with target := k }, entryAlso := s.pwr.entryAlso ++ [p] } } : State).owe 0x2101 1)) ∧
        (s.pwr.entry = none → s.pwr.wake.isSome = true → ∃ t, run = .next t ∧ t.pwr = s.pwr ∧ t.cfg 0x2101 2 = 2 ∧ t.cfg 0x2101 3 = 1)) ∧
      (k ≠ 0 → s.sess.st ≠ .idle → s.sess.st ≠ .armed → run = .next (s.refuseCmd p (cmdValue 7 k.val) abState)) ∧
      (k = 0 → s.pwr.st = 1 → s.pwr.wake = none ∨ s.pwr.entry.isSome = true → ∃ t, run = .next t ∧ t.pwr.wake = some ⟨s.now, 0, true⟩ ∧ t.pwr.capture = true ∧
        t.pwr.entry = none ∧ t.pwr.runOwed = s.pwr.runOwed ++ [p] ∧ (s.pwr.entry.isSome = true → t.cfg 0x2101 2 = 2 ∧ t.cfg 0x2101 3 = 1))) ∧
    (∀ e, s.pwr.entry = some e → s.pwr.gating = [] →
      (∀ w, s.unquiet e.target = true → exec (.quiescenceReached w) s = .next s) ∧
      (s.unquiet e.target = false → (e.target = 1 → ∃ t, exec (.quiescenceReached none) s = .next t ∧ t.pwr.st = 1 ∧ t.pwr.entry = none ∧ t.pwr.vcore = 600 ∧ Retained s t ∧
        t.cfg 0x2101 2 = 1 ∧ t.sess = s.sess ∧ ∀ q < 32, t.xbar.closed.contains (10 + q) = true) ∧
      (e.target = 2 ∨ e.target = 3 → s.pwr.xtalOk = true → ∃ t, exec (.quiescenceReached none) s = .next t ∧ t.pwr.st = e.target ∧ t.pwr.entry = none ∧
        t.pwr.vcore = 0 ∧ Retained s t ∧ Lasting s t ∧ t.cfg 0x2101 2 = 1 ∧ t.now = s.now ∧ t.eng = [] ∧
        (e.target = 2 → ∀ a, inDram a = true → t.mem.byte a = s.mem.byte a)) ∧
      (e.target = 4 → ∃ t, exec (.quiescenceReached none) s = .next t ∧ t.pwr.st = 4 ∧ Lasting s t ∧ t.eng = [] ∧ t.log.rows = [] ∧ t.mem.cells = []) ∧
      (∀ (a : Fin 3) (b : Fin 14), (e.target = 2 ∨ e.target = 3 → s.pwr.xtalOk = true) → s.wakeOn b.val = true → ∃ t, exec (.quiescenceReached (some (a, b))) s = .next t ∧
        t.pwr.st = s.pwr.st ∧ t.pwr.entry = none ∧ t.pwr.capture = decide (s.pwr.st = 1) ∧ t.cfg 0x2101 2 = 2 ∧ t.cfg 0x2101 3 = a.val + 2 ∧
        (s.pwr.st = 1 → t.pwr.wake = some ⟨s.now, BitVec.ofNat 14 (2 ^ b.val), false⟩))) ∧
      (∃ t, exec .quiescenceTimeout s = .next t ∧ t.pwr.st = s.pwr.st ∧ t.pwr.entry = none ∧ (s.pwr.st ≠ 1 → t.pwr.held = []) ∧ t.pwr.capture = false ∧
        t.cfg 0x2101 2 = 3 ∧ t.cfg 0x2101 3 = 0) ∧
      (∀ (b : Fin 14), s.wakeOn b.val = true → ∃ t, exec (.wakeEdge (.pin b)) s = .next t ∧ t.pwr.st = s.pwr.st ∧ t.pwr.entry = none ∧
        t.cfg 0x2101 2 = 2 ∧ t.cfg 0x2101 3 = 1)) ∧
    (∀ (b : Fin 14), let m := BitVec.ofNat 14 (2 ^ b.val)
      (s.wakeOn b.val = true → s.pwr.entry = none →
        (s.pwr.wake = none → 1 ≤ s.pwr.st.val → s.pwr.st.val ≤ 3 → let x := s.pwr.husk true
          exec (.wakeEdge (.pin b)) s = .next { s with pwr := { x with wake := some ⟨s.now, m, false⟩ } }) ∧
        (∀ x, s.pwr.wake = some x → exec (.wakeEdge (.pin b)) s = .next { s with pwr := { s.pwr with wake := some { x with sources := x.sources ||| m } } })) ∧
      (∀ x, s.pwr.wake = some x → x.sources &&& m ≠ 0 →
        exec (.wakeQualified (.pin b)) s = .next { s with pwr := { s.pwr with wake := some { x with qualified := true } } } ∧
        (x.qualified = false →
          (x.sources &&& ~~~m ≠ 0 →
            exec (.wakeQualificationFailed (.pin b)) s = .next { s with pwr := { s.pwr with wake := some { x with sources := x.sources &&& ~~~m } } }) ∧
          (x.sources &&& ~~~m = 0 → ∃ t, exec (.wakeQualificationFailed (.pin b)) s = .next t ∧ SameBut [.pwr] s t ∧ t.pwr.wake = none ∧
            t.pwr.st = s.pwr.st ∧ t.pwr.huskBuf = [] ∧ t.pwr.huskLost = 0 ∧ t.pwr.capture = false)))) ∧
    (∀ (p : Fin 8) (e : Stamp) (f : CanFrame), s.portCfg p.val 15 = 1 → s.pwr.capture = true → (∀ w, s.pwr.wake = some w → w.since + 8000 ≤ e.count) →
      s.huskTakes p.val f = true →
      let r := rawRecord e.count p.val (canKind f) (s.huskGen p.val e.count) (canAux f) (flHusk + flDrops * bit01 s.pwr.huskGap) (canId f) (canPayload f)
      ∃ t, exec (.huskFrameCapture p e f) s = .next t ∧ SameBut [.tb, .pwr, .side] s t ∧
        (s.pwr.huskUsed + r.length ≤ 65536 → t.pwr = { s.pwr with huskBuf := s.pwr.huskBuf ++ [(p.val, r)], huskUsed := s.pwr.huskUsed + r.length, huskGap := false }) ∧
        (65536 < s.pwr.huskUsed + r.length → t.pwr = { s.pwr with huskGap := true, huskLost := s.pwr.huskLost + 1 })) ∧
    (∀ w, s.pwr.wake = some w → w.qualified = true →
      (s.pwr.st = 1 → ∃ t, exec .wakeComplete s = .next t ∧ t.pwr.st = 0 ∧ t.pwr.wake = none ∧ t.pwr.retention = none ∧ t.pwr.capture = false ∧
        t.pwr.handover = some s.now ∧ t.cfg 0x2102 1 = w.sources.toNat ∧ (∀ q < 32, t.xbar.closed.contains (10 + q) = false) ∧
        (s.cfg 0x2100 3 = 1 → s.sess.st = .armed → t.sess.st = .running ∧ t.sess.startAt = s.now ∧ t.sess.counter = s.sess.counter + 1) ∧
        (s.cfg 0x2100 3 ≠ 1 → s.pwr.startOwed = [] → t.sess = s.sess ∧ t.cfg 0x2102 3 = 0)) ∧
      (∀ r, 2 ≤ s.pwr.st.val → s.pwr.retention = some r → s.pwr.rails = 4 → ∃ t, exec .wakeComplete s = .next t ∧ t.pwr.st = 0 ∧ t.pwr.boot = .up ∧
        t.pwr.wake = none ∧ t.pwr.retention = none ∧ t.cfg 0x2102 1 = w.sources.toNat ∧ t.xbar.remap = true ∧ t.tb.map = r.map ∧
        t.sw.gen = r.gen ∧ t.sw.issued = r.issued ∧ (r.st = .idle → t.sess.st = .idle ∧ t.sess.acts = r.acts)))

/-- Supplies, clocks and the pins of test and alert (20 R450, R451, R461, R462, 18 R406, 19 R436): a rail group in its window lets the next one rise, a rail late
lowers every enable until the retry; the crystal counts as running; a thermal trip cuts the core and its release resets it with cause 6; the returned
reference clock takes chip time back; an alert reads the regulators and logs each fault; the test port shifts out the identity code or takes the boundary
register; debug access acts as crossbar master 47. The model's choices: log entries 14, 47, 48. -/
def Obligations.SuppliesAndTestComplete : Prop :=
  ∀ (s : State),
    (∀ (g : Fin 4), s.pwr.boot = .rails → s.pwr.retry = false → s.pwr.st = 0 ∨ s.pwr.wake.isSome = true → g.val = s.pwr.rails.val →
      let up := if g = 0 ∧ s.pwr.dramRail = true then { s.pwr with rails := 2, dramRail := false } else { s.pwr with rails := s.pwr.rails + 1 }
      exec (.railInWindow g) s = .next { s with pwr := up }) ∧
    (∀ (m : Fin 24) (mv : Nat), s.pwr.boot = .rails → s.pwr.retry = false → s.pwr.st = 0 ∨ s.pwr.wake.isSome = true →
      railGroup m.val = some s.pwr.rails.val → ∃ t, exec (.railEnableTimeout m mv) s = .next t ∧ t.pwr.rails = 0 ∧ t.pwr.retry = true ∧
        t.pwr.boot = .rails ∧ Logged s t 1 0x2920 (0x11 + m.val) mv) ∧
    (exec .railRetryTimer s = .next { s with pwr := { s.pwr with retry := false } }) ∧
    (s.pwr.st ≠ 4 → exec .crystalRunning s = .next { s with pwr := { s.pwr with xtalOk := true } }) ∧
    (s.pwr.boot ≠ .tripped → s.pwr.st ≠ 4 → ∃ t, exec .thermalTrip s = .next t ∧ Lasting s t ∧ t.pwr.boot = .tripped ∧ t.pwr.thermTripN = false ∧
      t.pwr.vcore = 0 ∧ t.eng = [] ∧ t.mem.cells = [] ∧ t.now = s.now ∧ ∃ r, t.log.rows.getLast? = some r ∧ r.kind = 1 ∧ r.refIdx = 0x2100) ∧
    (s.pwr.boot = .tripped → ∃ t, exec .thermalTripRelease s = .next t ∧ Lasting s t ∧ t.pwr.boot = .rails ∧ t.pwr.rails = 0 ∧ t.pwr.thermTripN = true ∧
      t.pwr.resetCause = 6 ∧ t.pwr.resetDomain = 2 ∧ t.sess.st = .idle ∧ t.now = s.now) ∧
    (exec .referenceClockReturn s = .next { s with tb := { s.tb with husk := s.tb.husk && !s.corePowered }, pwr := { s.pwr with refLost := false } }) ∧
    (s.served = true → (∃ t, exec (.pmbusAlert []) s = .next t ∧ SameBut [.out] s t ∧ t.out = s.out ++ [.pmbus]) ∧
      (∀ m < 24, ∀ v, ∃ t, exec (.pmbusAlert [(m, v)]) s = .next t ∧ SameBut (.out :: Part.logging) s t ∧ t.out = s.out ++ [.pmbus] ∧
        Logged s t 1 0x2920 (0x11 + m) v)) ∧
    (∀ (l : List Bool), s.ioOn = true → let o := s.out ++ [.scan ((List.range 32).map (0x110249AF : BitVec 32).getLsbD)]
      exec (.testPortInstruction .idcode l) s = .next { s with test := { s.test with instr := .idcode }, out := o }) ∧
    (∀ (i : TestInstr) (l : List Bool), i ∈ [TestInstr.preload, .extest, .extestPulse, .extestTrain] → s.ioOn = true → ∃ t o, exec (.testPortInstruction i l) s = .next t ∧
      SameBut [.test, .out, .free] s t ∧ t.test = ⟨i, l⟩ ∧ o.length = l.length ∧ t.out = s.out ++ [.scan o]) ∧
    (∀ (q : XReq), s.ioOn = true → s.xbarOn = true → exec (.jtagDebugAccess false q) s = .next (s.transact { q with master := 47 })) ∧
    (∀ (q : XReq), s.ioOn = true → exec (.jtagDebugAccess true q) s = exec (.coldReset true) s)

/-- Resets and the boot (18 R400, R406, 19 R437, R439, R440, 20 R452): each reset leaves what its kind keeps with its cause and the core held; released, with the
PLL locked, no bad macro found and firmware accepted, the device boots that firmware from its slot or the other and stands in IDLE, and otherwise it halts
with FAULT_N low and the halt's number. The model's choices: log entries 3, 4, 36, 46. -/
def Obligations.ResetsAndBootComplete : Prop :=
  ∀ (s : State),
    (∃ t, exec .powerOnReset s = .next t ∧ Lasting s t ∧ t.pwr = State.reset.pwr ∧ t.tb = State.reset.tb ∧ t.log = State.reset.log ∧ t.eng = [] ∧ t.mem.cells = [] ∧
      t.sess.st = .idle ∧ t.xbar = State.reset.xbar) ∧
    (∀ (d : Bool), s.pwr.st ≠ 4 → ∃ t, exec (.coldReset d) s = .next t ∧ Lasting s t ∧ t.pwr.resetCause = (if d then 9 else 1) ∧ t.pwr.resetDomain = 1 ∧
      t.now = 0 ∧ t.log.rows.length = 1 ∧ t.log.next = 1 ∧ t.eng = [] ∧ t.sess.st = .idle ∧ (∀ a, inDram a = true → t.mem.byte a = s.mem.byte a) ∧
      (s.pwr.boot ≠ .rails → s.pwr.boot ≠ .tripped → s.pwr.st.val ≤ 1 → t.pwr.boot = .held)) ∧
    (s.corePowered = true →
      (∀ (k : Fin 10), 2 ≤ k.val → k.val ≤ 8 → ∃ t, exec (.chipWarmReset k) s = .next t ∧ WarmAfter s t k.val ∧ t.tb.husk = s.tb.husk) ∧
      (∃ t, exec .coreBrownout s = .next t ∧ WarmAfter s t 5) ∧
      (∃ t, exec .refclkLoss s = .next t ∧ WarmAfter s t 4 ∧ t.tb.husk = s.pwr.xtalOk ∧ t.pwr.refLost = true)) ∧
    (∀ (f : BootFacts), let bad := (s.fuseLoad f.columns).2.any fun m => (macroPod m).isNone
      s.pwr.boot = .held ∨ (s.pwr.boot = .rails ∧ s.pwr.rails = 4 ∧ s.pwr.st = 0) →
      (bad = true → ∃ t, exec (.resetRelease f) s = .next t ∧ t.pwr.boot = .halted ∧ t.pwr.halt = 1 ∧ t.pwr.faultN = false) ∧
      (bad = false → f.pllLocked = false → ∃ t, exec (.resetRelease f) s = .next t ∧ t.pwr.boot = .halted ∧
        t.pwr.halt = 2 ∧ t.pwr.faultN = false) ∧
      (bad = false → f.pllLocked = true → s.pst.fallBack.chooseFirmware = none →
        ∃ t, exec (.resetRelease f) s = .next t ∧ t.pwr.boot = .halted ∧ t.pwr.halt = 3 ∧ t.pwr.faultN = false) ∧
      (∀ q, bad = false → f.pllLocked = true → s.pst.fallBack.chooseFirmware = some q → s.sess.st = .idle →
        ∃ t, exec (.resetRelease f) s = .next t ∧ t.pwr.boot = .up ∧ t.pwr.faultN = true ∧ t.pst.running = q.running ∧ t.pst.activeB = q.activeB ∧
          t.pst.attempts = q.attempts ∧ t.xbar.remap = true ∧ 10 ≤ t.pwr.stepDone.val ∧ (t.sess.st = .idle ∨ t.sess.st = .armed) ∧
          (t.sw.slot = 255 → t.sess.st = .idle)))

/-- The Grinder's visits (14 R315 to R317). With nothing listed a visit reads the next row of the bank it names, which moves the pass alone when the row is clean.
A listed row is visited first: one that the code corrects is counted and waits to be rewritten with the corrected codewords of its wrong bytes, the boot ROM
excepted; rows of the tables, the last-value store and the log likewise, by their wrong bits, while an uncorrectable one is counted and left, and in the
active bank resets the chip. The DRAM pass reads the next block of its regions, counts a correction and has it rewritten. What the Grinder writes, and the
repair record (14 R316, R320, R322, R323). A write-back takes the first row that waits: the wrong bytes of a row get the corrected ones, every other byte
stays; the wrong bits of a row outside the address map go, but a row written since is listed again. Held candidates go into the repair record, an hour after
the last time at the earliest; the test flag is written in IDLE. Each write makes the record that counts. The model's choices: log entries 31, 61, 67. -/
def Obligations.GrinderAndRepairComplete : Prop :=
  (∀ (s : State), s.served = true →
     (∀ (a : GrindAt) (g : GrindBank), s.mem.cel = [] → s.bankAt a = some g → s.reaches g = true → s.bankBusy (g.row (s.mem.sramAt.get 0 g.key)) = false →
       let n := s.mem.sramAt.get 0 g.key
       n + 1 < g.rows → s.rowClean (g.row n) → ∃ t, exec (.grinderVisit ⟨a, []⟩) s = .next t ∧ SameBut [.mem] s t ∧
         t.mem = { s.mem with sramAt := s.mem.sramAt.set g.key (n + 1), sramFrom := some (s.mem.sramFrom.getD s.now) }) ∧
     (∀ (a : GrindAt) (r : Nat) (l : List RowId), s.mem.cel = .home r :: l → memKind r ≠ .dram → s.bankBusy (.home r) = false →
       let x := s.mem.readRow r (memRow r).2
       x.fail = none → x.inner = true ∨ x.outer = true → ∃ t, exec (.grinderVisit ⟨a, []⟩) s = .next t ∧ t.mem.cel = l ∧ t.mem.bad = s.mem.bad ∧
         t.mem.cells = s.mem.cells ∧ (x.inner = true → t.cfg 0x2940 1 = min (2 ^ 32 - 1) (s.cfg 0x2940 1 + 1)) ∧
         (x.outer = true → t.cfg 0x2940 2 = min (2 ^ 32 - 1) (s.cfg 0x2940 2 + 1)) ∧
         (memKind r = .bootRom → t.mem.rewrite = s.mem.rewrite) ∧
         (memKind r ≠ .bootRom → (.home r, (s.mem.rowWrong r).map fun y => (y.1, y.2.2)) ∈ t.mem.rewrite)) ∧
     (∀ (a : GrindAt) (r : SideRow) (l : List RowId), s.mem.cel = .side r :: l →
       let run := exec (.grinderVisit ⟨a, []⟩) s
       let u : State := { s with mem := { s.mem with cel := l } }
       (s.sideBad r = false → s.sideWrong r = [] → run = .next u) ∧
       (s.sideBad r = false → s.sideWrong r ≠ [] → ∃ t, run = .next t ∧
         t.cfg 0x2940 1 = min (2 ^ 32 - 1) (s.cfg 0x2940 1 + 1) ∧ (.side r, (s.sideWrong r).map fun y => (y.1, y.2.1)) ∈ t.mem.rewrite) ∧
       (s.sideBad r = true → sideInBank (!s.cls.active) r = false → ∃ t, run = .next t ∧ SameBut [.cel, .od] s t ∧
         t.cfg 0x2940 4 = min 65535 (s.cfg 0x2940 4 + 1)) ∧
       (s.sideBad r = true → sideInBank (!s.cls.active) r = true → run = .next (u.sideFailed r))) ∧
     (∀ (a : BitVec 40) (h j b : Nat) (o : Fin 3) (d : List Byte), s.mem.cel = [] → decodeAddr s.xbar.remap a.toNat = (j, .mem h o) → memKind h = .dram →
       s.dramNext (s.mem.dramLast.elim 0 (· + 32)) = some b → s.mem.blockFresh b = false → s.mem.decodeBlock b = some (d, true) →
       ∃ t, exec (.grinderVisit ⟨.home a, []⟩) s = .next t ∧ t.cfg 0x2940 3 = min (2 ^ 32 - 1) (s.cfg 0x2940 3 + 1) ∧
         (s.mem.blockWrong b ≠ [] → (.home b, s.mem.blockWrong b) ∈ t.mem.rewrite))) ∧
  (∀ (s : State), s.served = true →
     (∀ (r : Nat) (p : List (Nat × BitVec 13)) (l : List (RowId × List (Nat × BitVec 13))), s.mem.rewrite = (.home r, p) :: l →
       ∃ t, exec .grinderWriteback s = .next t ∧ SameBut [.mem] s t ∧ t.mem.rewrite = l ∧
         (memKind r ≠ .dram → memKind r ≠ .staging → (p.map (·.1)).Nodup → s.mem.wf = true → (s.mem.bad.map (·.1)).Nodup → ∀ b,
           (∀ i c, (i, c) ∈ p → i < (memRow r).2 → b = r + i → t.mem.bad.get 0 b = 0 ∧ t.mem.meant b = c.setWidth 8) ∧
           ((∀ i c, (i, c) ∈ p → i < (memRow r).2 → b ≠ r + i) → t.mem.bad.get 0 b = s.mem.bad.get 0 b ∧ t.mem.byte b = s.mem.byte b))) ∧
     (∀ (q : SideRow) (p : List (Nat × BitVec 13)) (l : List (RowId × List (Nat × BitVec 13))), s.mem.rewrite = (.side q, p) :: l →
       ((∀ x ∈ p, (q, BitVec.ofNat 8 x.1, x.2) ∈ s.side) → ∃ t, exec .grinderWriteback s = .next t ∧ SameBut [.mem, .side] s t ∧
         t.mem = { s.mem with rewrite := l } ∧ ∀ e, e ∈ t.side ↔ e ∈ s.side ∧ ¬ (e.1 = q ∧ (e.2.1.toNat, e.2.2) ∈ p)) ∧
       ((∃ x ∈ p, (q, BitVec.ofNat 8 x.1, x.2) ∉ s.side) → exec .grinderWriteback s =
         .next { s with mem := ({ s.mem with rewrite := l } : Memory).listRow (.side q) })) ∧
     (s.mem.candidates ≠ [] → let u := s.reach s.mem.repairDue
       let r := s.mem.ownRecord
       let m := s.mem.writeRecord r.test (r.entries ++ s.mem.candidates)
       exec .repairRecordWrite s = .next { u with mem := { m with candidates := [], repairAt := some u.now } }) ∧
     (∀ (b : Bool) (l : List RepairEntry), (s.mem.writeRecord b l).ownRecord.test = b ∧ (s.mem.writeRecord b l).ownRecord.entries = l.take 2048) ∧
     (∀ (p : Path) (v : Byte), s.remote p = none →
       (v.toNat ≤ 1 → s.sess.st = .idle → exec (.memoryTestEnableWrite p v) s =
         .next (({ s with mem := s.mem.writeRecord (decide (v.toNat = 1)) s.mem.ownRecord.entries } : State).answer p [])) ∧
       (v.toNat ≤ 1 → s.sess.st ≠ .idle → exec (.memoryTestEnableWrite p v) s = .next (s.refuseLog p 0x2940 8 v.toNat abState)) ∧
       (1 < v.toNat → exec (.memoryTestEnableWrite p v) s = .next (s.refuse p 0x2940 8 v.toNat abRange))))

/-- Every command of the link completes (07 R136 to R146, R150, R152), where its own effect is due: an aged block is queued, a waiting repair frame leaves, a
record is shed, a group closes, HELLO, keys and reports take their course, a path goes down, reopens or resolves its next hop, a frame is noted as received, a
held record is released. Every command of the fabric completes (16 R341 to R360), where its own effect is due: a port trains, falls, comes up, counts and
acknowledges; node ID, adverts, routes, master and time are renewed; a request is answered, given up or answered to its caller, a record reaches its pod. The
model's choices: log entries 24, 25, 26, 27, 28, 72, 73, 74. -/
def Obligations.LinkAndFabricCommandsComplete : Prop :=
  (∀ (s : State) (p : Fin 4) (f : LinkFrame) (u : State) (b : List Byte),
     let x := s.lpath p.val
     let hears := fun (car : Bool) (n : Nat) => s.linkHears p.val f = true ∧ s.link.role = some car ∧ f.type.toNat = n
     let opens := s.openFrame f = (u, some b)
     (∀ (l : BitVec 16) (c : Fin 4), let n := l.toNat * 4 + c.val
       c.val ≠ 0 → (Tab.get {} s.link.opened n).recs ≠ [] → ∃ t, exec (.linkBlockAgeExpiry l c) s = .next t ∧ t.link.opened = s.link.opened.erase n) ∧
     (∀ r l, s.linkCar = true → s.linkPaths.contains p.val = true → x.closed = false → x.up = true → s.inTurn p.val = true → s.link.keys.isSome = true →
       2 ≤ s.link.st.val → s.link.repair = r :: l → ∃ t, exec (.linkFrameSend p) s = .next t ∧ t.link.repair = l) ∧
     (∀ (c : Fin 4) (q : LinkBlock), c.val ≠ 0 → q ∈ Tab.get [] s.link.queues c.val → q.recs ≠ [] → ∃ t, exec (.linkRecordShed c) s = .next t ∧
       t.cfg 0x2601 7 = min (2 ^ 32 - 1) (s.cfg 0x2601 7 + 1)) ∧
     (s.link.group ≠ [] → ∃ t, exec .codeGroupTimeout s = .next t ∧ t.link.group = [] ∧ t.link.groupK = s.link.group.length) ∧
     (s.link.role = some true → s.link.shaking = true → s.inSession = true → ∃ t, exec .helloTimer s = .next t ∧ t.link.helloAt = some t.now) ∧
     (hears false 4 → shakeForm 0 f.body = true → s.shakeTrusted f.body = true → s.link.hello ≠ some f.body → s.pst.rngOk = true →
       ∃ t, exec (.linkHelloReceived p f) s = .next t ∧ t.link.hello = some f.body ∧ t.link.keyno = s.link.keyno + 1 ∧ t.link.st = 2) ∧
     (∀ h, hears true 5 → s.link.hello = some h → s.link.shaking = true → shakeForm 1 f.body = true → s.shakeTrusted f.body = true →
       slice f.body 238 32 = slice h 12 32 →
       ∃ t, exec (.linkAnswerReceived p f) s = .next t ∧ t.link.keyno = s.link.keyno + 1 ∧ t.link.shaking = false ∧ t.link.hello = none) ∧
     (s.link.role = some true → s.link.keys.isSome = true → s.link.shaking = false → ∃ t, exec .rekeyIntervalExpiry s = .next t ∧
       t.link.shaking = true ∧ t.link.hello = none) ∧
     (s.link.oldUntil.isSome = true → ∃ t, exec .oldKeyExpiry s = .next t ∧ t.link.oldKeys = none ∧ t.link.oldUntil = none ∧ t.link.keys = s.link.keys) ∧
     (s.link.role = some false → s.link.keys.isSome = true → s.inSession = true → s.linkPaths.contains p.val = true →
       ∃ t, exec (.reportIntervalExpiry p) s = .next t ∧ (t.lpath p.val).received = 0 ∧ (t.lpath p.val).reportAt = some t.now) ∧
     (hears true 2 → opens → b.length = 28 → slice b 0 4 = [BitVec.ofNat 8 p.val, 0, 0, 0] →
       ∃ t, exec (.linkReportReceived p f) s = .next t ∧ (t.lpath p.val).up = true ∧ (t.lpath p.val).lastReport = some s.now) ∧
     (s.link.role = some true → x.up = true → x.lastReport.isSome = true → ∃ t, exec (.pathReportTimeout p) s = .next t ∧ (t.lpath p.val).up = false) ∧
     (∀ n k, hears true 3 → opens → Config.nakRead b = some n → s.link.group ≠ [] →
       s.link.kept.find? (fun k => k.keyno.toNat = n.1 && k.seq = n.2 && s.now < k.since + 3 * secTicks) = some k →
       ∃ t, exec (.linkNakReceived p f) s = .next t ∧ t.link.resend =
         if s.link.resend.any (fun r => r.keyno = k.keyno && r.seq = k.seq) then s.link.resend else s.link.resend ++ [k]) ∧
     (∀ (n : BitVec 32) (q : BitVec 64), s.link.role = some false → s.link.keys.isSome = true → s.inSession = true →
       s.link.seen.contains (n, q.toNat) = false → s.groupLost n q.toNat = true → (s.linkPaths.any fun p => !(s.lpath p).closed) = true →
       s.link.naks.find? (fun e => e.keyno = n && e.seq = q.toNat) = none →
       ∃ t, exec (.nakTimer n q) s = .next t ∧ ⟨n, q.toNat, s.now, s.now⟩ ∈ t.link.naks) ∧
     (hears false 0 ∨ hears false 1 → opens →
       ∃ t, exec (.linkDataFrameReceived p f) s = .next t ∧ (f.keyno, f.seq.toNat) ∈ t.link.seen ∧ (t.lpath p.val).received = x.received + 1) ∧
     (∀ h, s.link.role = some false → s.inSession = true →
       firstRelease (s.link.held.filter fun h => laneFirst h.lane s.link.held = some h) = some h →
       ∃ t, exec .recordRelease s = .next t ∧ t.link.held = s.link.held.erase h ∧ Tab.find t.link.released h.lane = some h.count) ∧
     (s.linkHears p.val f = true → f.type.toNat = 6 → opens → ∃ t, exec (.linkCloseReceived p f) s = .next t ∧ t.link.st = 1 ∧ t.link.hello = none) ∧
     (x.closed = true → ∃ t, exec (.pathCloseExpiry p) s = .next t ∧ (t.lpath p.val).closed = false ∧ (t.lpath p.val).rate = x.rate) ∧
     (∀ (m : Fin 16), s.portUse (macPort m.val) = 3 → s.served = true → s.cfg (pathIdx p.val) 1 = 1 → s.cfg (pathIdx p.val) 2 = m.val →
       ∃ t, exec (.arpNdFrameReceived m true (s.nextHop p.val)) s = .next t ∧ (t.lpath p.val).neighbour = true)) ∧
  (∀ (s : State) (k : Fin 8) (f : Flit), s.served = true →
     let x := s.fport k.val
     let b := usedBytes f
     let port := fun (c : Instr) (q : FabPort → Prop) => ∃ t, exec c s = .next t ∧ q (t.fport k.val)
     let counts := fun (c : Instr) (i j : Nat) => ∃ t, exec c s = .next t ∧ t.cfg i j = min (2 ^ 32 - 1) (s.cfg i j + 1)
     (s.fabEnabled k.val = true → x.st = 1 → port (.signalDetect k) fun y => y.st = 2 ∧ y.helloSeen = false) ∧
     (x.st = 2 → port (.trainingTimeout k) fun y => y.st = 2 ∧ y.helloSeen = false) ∧
     (x.st = 5 → port (.quarantineExpiry k) fun y => y.st = 2 ∧ y.helloSeen = false) ∧
     (x.st = 6 → port (.loopedRetrainTimer k) fun y => y.st = 2 ∧ y.helloSeen = false) ∧
     (x.isUp = true → port (.flitSilenceTimeout k) fun y => y.st = 1 ∧ y.unacked = []) ∧
     (s.fabHears k.val = true → port (.laneLockLoss k true) fun y => y.st = 1 ∧ y.unacked = []) ∧
     (x.isUp = true → x.txq = [] → x.maySend (s.helloFlit k.val) = true → port .fabricHelloTimer fun y => y.txSeq = x.txSeq + 1) ∧
     (s.flitNext k.val f 2 = true → (x.ackCount f.ack).isSome = true → BitVec.ofNat 64 (leNat (slice b 0 8)) = Config.uid →
       port (.helloFlitReceived k f) fun y => y.st = 6) ∧
     (s.flitTaken k.val f 1 = true → x.ackCount f.ack = some 0 → s.fab.exports = [] → (∀ u ∈ x.unacked, u.sent < 16) →
       (((usedBytes f).getD 1 0) - x.base).toNat < x.unacked.length → counts (.nakFlitReceived k f) (0x2710 + k.val) 5) ∧
     (s.fabHears k.val = true → x.unacked ≠ [] → (∀ u ∈ x.unacked, u.sent < 16) → counts (.retryTimeout k) (0x2710 + k.val) 5) ∧
     (s.fabHears k.val = true → (if x.checkSecond = s.now / secTicks then x.checkCount + 1 else 1) ≠ 10001 →
       counts (.flitCheckFailed k) (0x2710 + k.val) 4) ∧
     (s.flitTaken k.val f 0 = true → x.st = 2 → x.helloSeen = true → x.ackCount f.ack = some x.unacked.length →
       port (.idleFlitReceived k f) fun y => y.st = if x.oneLane then 4 else 3) ∧
     (∀ n, s.cfg 0x2700 1 ≠ 0 → s.fabStatic = false → s.fab.node = none → s.dynamicId = some n → ∃ t, exec .nodeIdTimer s = .next t ∧
       t.fab.node = some (BitVec.ofNat 8 n)) ∧
     (s.cfg 0x2700 1 ≠ 0 → ∃ t, exec .routeAdvertTimer s = .next t ∧ t.fab.gen = s.fab.gen + 1) ∧
     (s.flitNext k.val f 4 = true → f.tspec = 0xC0 → let a := readAdvert s.now [f]
       a.uid ≠ Config.uid → s.advertOf a.uid = none → ∃ t, exec (.routeAdvertReceived k [f]) s = .next t ∧ t.advertOf a.uid = some a) ∧
     (∀ u, (s.advertOf u).isSome = true → u ≠ Config.uid → ∃ t, exec (.advertAgeExpiry u) s = .next t ∧ t.fab.db = s.fab.db.filter (·.uid != u)) ∧
     (s.cfg 0x2700 1 ≠ 0 → counts .routeRecompute 0x2701 8) ∧
     (∀ u, s.fab.better = some u → ∃ t, exec .masterDisplacement s = .next t ∧ t.fab.master = some u ∧ t.fab.better = none) ∧
     (x.isUp = true → port .timeReqTimer fun y => y.req = some (s.flitOut k.val)) ∧
     (∀ d, s.flitTaken k.val f 3 = true → b.getD 0 0 = 0 → ∃ t, exec (.timeReqReceived k f d) s = .next t ∧ SentFlit t k.val 3 fun p => p.getD 0 0 = 1) ∧
     (∀ d map, s.flitTaken k.val f 3 = true → b.getD 0 0 = 1 → x.req = some (readTime b 1) → s.flitTime k.val d ≤ (readTime b 1 : Int) + usTicks 100 →
       port (.timeRespReceived k f ⟨d, map⟩) fun y => y.req = none ∧ y.exchanges = x.exchanges + 1) ∧
     (x.isUp = true → s.flitNext k.val f 6 = true → f.tspec = 0xC0 → s.fabMine f = true →
       (∀ r n, b.getD 0 0 = 0 → let i := leNat (slice b 4 2)
         let j := leNat (slice b 6 1)
         dictRow i j = some r → (windowLen i).isSome = false → (i, j) ∉ [(0x2202, 1), (0x2202, 2), (0x2930, 3)] → leNat (slice b 7 4) = 0 →
         s.windowBad i j = false → s.fab.exports = [] → s.routePort 6 f.src.toNat = some n → n < 8 → (s.fport n).txq = [] →
         (s.fport n).maySend (mkFlit 6 1 []) = true → ((s.objBytes .fabric r i j).take (min (leNat (slice b 2 2)) 3316)).length ≤ 40 →
         ∃ t, exec (.mgmtRequestReceived k [f]) s = .next t ∧ SentFlit t n 6 fun p => p.take 2 = [4, b.getD 1 0]) ∧
       (∀ o ∈ s.fab.out, b.getD 0 0 = 4 → s.fab.out.find? (fun o => o.node = f.src && o.tag = b.getD 1 0) = some o → leNat (slice b 4 4) ≠ 0 →
         ∃ t, exec (.mgmtAnswerReceived k [f]) s = .next t ∧ Output.abort o.path (BitVec.ofNat 32 (leNat (slice b 4 4))) ∈ t.out)) ∧
     (∀ o ∈ s.fab.out, s.fab.out.find? (fun p => p.node = o.node && p.tag = o.tag) = some o → ∃ t, exec (.mgmtRequestTimeout o.node o.tag) s = .next t ∧
       t.fab.out = s.fab.out.erase o) ∧
     (x.isUp = true → s.flitNext k.val f 7 = true → s.fabMine f = true → f.tspec = 0xC0 → Tab.get [] s.fab.parts f.src.toNat = [] → s.cls.dropsOwed = [] →
       let e := (b.getD 0 0).toNat % 32 * 32 + (b.getD 1 0).toNat % 32
       s.routerRoom e (b.drop 4) = true → ∃ t, exec (.dataFlitReceived k f) s = .next t ∧
         (t.pod (e / 32)).arrival = (s.pod (e / 32)).arrival ++ [⟨e, (b.getD 2 0).toNat % 2, b.drop 4⟩]))

/-- Every command of a profile switch and of the profiles' flash completes (16 R361, R362, 17 R386, R389 to R393), where its own effect is due: a switch is
accepted, prepared, committed and over; the messages of a fabric switch are noted; a save is owed its answer until it is written. Every command of the
firmware update, of the pod images and of the power states completes (18 R411 to R413, 19 R421 to R432), where its own effect is due. The model's choices: log
entries 21, 22, 40, 41, 43, 44, 45, 76. -/
def Obligations.SwitchFirmwarePowerCommandsComplete : Prop :=
  (∀ (s : State) (p : Path) (k : Fin 8) (f : Flit), s.served = true → s.remote p = none →
     let w := readCommit (usedBytes f)
     (∀ (n : Fin 8), s.sess.st = .idle → s.switchPending = false → (s.goodSlot n.val).isSome = true → s.genTooFar (s.sw.issued + 1) = false →
       ∃ t, exec (.switchProfile p (BitVec.ofNat 24 n.val)) s = .next t ∧ t.sw.st = 1 ∧ t.sw.issued = s.sw.issued + 1 ∧ t.sw.pending.isSome = true) ∧
     (∀ (v : Byte), v.toNat ≤ 7 → s.sess.st = .idle → s.switchPending = false →
       let r := s.readSides (sideInBank (!s.cls.active))
       r.badEntry = none → ∃ t, exec (.profileSave p v) s = .next t ∧ t.sw.saving = s.sw.saving ++ [(p, v.toNat, r.profileNow)]) ∧
     (∀ v x l, s.sw.saving = (p, v, x) :: l → s.acc.owed = [] →
       ∃ t, exec .flashWriteComplete s = .next t ∧ t.sw.saving = l ∧ t.sw.slots = s.sw.slots.set v x) ∧
     (∀ a, s.sw.pending = some a → a.done = false →
       (∀ (i : Unit_), let u := unitCode i
         u < 144 ∨ 176 ≤ u → u ≠ 208 → a.prepared.contains u = false → a.refusedUnits.contains u = false → s.unitReady a.profile u = true →
         ∃ t, exec (.unitPrepared i) s = .next t ∧ t.sw.pending = some { a with prepared := a.prepared ++ [u] }) ∧
       (a.lacking = [] → ∃ t, exec .profileCommitTick s = .next t ∧ t.sw.gen = a.newGen ∧ t.sw.slot = a.slot)) ∧
     (∀ a, s.sw.pending = some a → a.done = true → ∃ t, exec .profileRevertTick s = .next t ∧ t.sw.pending = none) ∧
     (s.flitNext k.val f 5 = true →
       (∀ x, commitKind f = 0 → w.coord ≠ Config.uid → s.sw.prepSeen.contains (w.coord, w.commitAt) = false → s.sw.pending = none → s.inFabric = true →
         s.goodSlot w.slot = some x → ∃ t, exec (.prepareReceived k f) s = .next t ∧ t.sw.pending = some { w with profile := x } ∧ t.sw.st = 1) ∧
       (∀ a, commitKind f = 1 → s.fabMine f = true → s.sw.pending = some a → a.local_ = true → a.coord = w.coord → a.commitAt = w.commitAt →
         a.done = false → s.now < a.commitAt → ∃ t, exec (.readyReceived k f) s = .next t ∧
           t.sw.pending = some { a with ready := f.src.toNat :: a.ready.filter (· != f.src.toNat) }) ∧
       (∀ a, commitKind f = 3 → w.coord ≠ Config.uid → s.sw.outSeen.contains (w.coord, w.commitAt) = false → s.fabRole ≠ 2 → s.sw.pending = some a → a.coord = w.coord → a.commitAt = w.commitAt →
         a.done = true → a.settled = false → a.lacking = [] → outcomeNodes (usedBytes f) = [] →
         ∃ t, exec (.outcomeReceived k f) s = .next t ∧ t.sw.st = 2 ∧ t.sw.pending = some { a with notReady := [], settled := true })) ∧
     (∀ a, s.sw.pending = some a → a.done = true → a.settled = false → ∃ t, exec .outcomeTimeout s = .next t ∧ t.sw.st = 3 ∧
       (t.sw.pending.map (·.settled)) = some true)) ∧
  (∀ (s : State) (p : Path),
     (s.served = true → s.remote p = none → s.sess.st = .idle →
       (∀ l, l.length ≤ 4194304 → s.pst.updater = none → s.pst.trial = false → s.pst.resetDue = none → ∃ t, exec (.firmwareImageWrite p 0 l) s = .next t ∧
         t.pst.inactive.image = l ∧ t.pst.updater = some p ∧ t.pst.received = l.length ∧ t.pst.checked = 0) ∧
       (s.pst.updater = some p → s.pst.trial = false → s.pst.resetDue = none →
         (∃ t, exec (.updateCheck p) s = .next t ∧ t.pst.checked = fwCheck s.pst.rollback.val s.pst.inactive.image) ∧
         (s.pst.checked = 1 → ∃ t, exec (.updateActivate p) s = .next t ∧ t.pst.activeB = !s.pst.activeB ∧ t.pst.trial = true ∧
           t.pst.resetDue = some (s.now + 400000000))) ∧
       (s.pst.updater = none → s.pst.resetDue = none → s.pst.trial = true → s.pst.runningTrial = true →
         ∃ t, exec (.updateConfirm p) s = .next t ∧ t.pst.trial = false) ∧
       (s.pst.updater = some p → ∃ t, exec (.updateAbandon p) s = .next t ∧ t.pst.updater = none ∧ t.pst.trial = false ∧ t.pst.resetDue = none) ∧
       (∀ l, l.length < 64 → ∃ t, exec (.podImageWrite p 0 l) s = .next t ∧ t.pst.upload = l) ∧
       (∀ i, (s.sw.slots.any fun e => e.2.names i.toNat) = false → ∃ t, exec (.podImageDelete p i) s = .next t ∧
         t.pst.images = s.pst.images.erase i.toNat)) ∧
     (∀ c, s.served = true → s.pst.resetDue = some c → ∃ t, exec .updateResetTimer s = .next t ∧ WarmAfter (s.reach c) t 8) ∧
     (∀ (k : Fin 5), s.served = true → s.remote p = none → k ≠ 0 → k ≠ s.pwr.st → s.sess.st = .idle → s.switchPending = false → s.pwr.entry = none →
       s.pwr.wake = none → ∃ t, exec (.power p ⟨BitVec.ofNat 24 k.val, none⟩) s = .next t ∧ t.pwr.entry = some ⟨k, p⟩ ∧ t.pwr.capture = true) ∧
     (∀ e, s.pwr.entry = some e →
       (e.target = 1 → s.pwr.gating = [] → s.unquiet 1 = false → ∃ t, exec (.quiescenceReached none) s = .next t ∧ t.pwr.st = 1 ∧ t.pwr.entry = none) ∧
       (∃ t, exec .quiescenceTimeout s = .next t ∧ t.pwr.entry = none ∧ t.pwr.st = s.pwr.st ∧ t.cfg 0x2101 2 = 3)) ∧
     (∀ (b : Fin 14), s.wakeOn b.val = true → s.pwr.entry = none → s.pwr.wake = none → 1 ≤ s.pwr.st.val → s.pwr.st.val ≤ 3 →
       ∃ t, exec (.wakeEdge (.pin b)) s = .next t ∧ t.pwr.wake = some ⟨s.now, BitVec.ofNat 14 (2 ^ b.val), false⟩) ∧
     (∀ (b : Fin 14) x, s.pwr.wake = some x → x.sources &&& BitVec.ofNat 14 (2 ^ b.val) ≠ 0 →
       (∃ t, exec (.wakeQualified (.pin b)) s = .next t ∧ t.pwr.wake = some { x with qualified := true }) ∧
       (x.qualified = false → x.sources = BitVec.ofNat 14 (2 ^ b.val) →
         ∃ t, exec (.wakeQualificationFailed (.pin b)) s = .next t ∧ t.pwr.wake = none ∧ t.pwr.st = s.pwr.st)) ∧
     (∀ (q : Fin 8) (e : Stamp) (f : CanFrame), s.portCfg q.val 15 = 1 → s.pwr.capture = true → s.pwr.wake = none → s.huskTakes q.val f = true →
       ∃ t, exec (.huskFrameCapture q e f) s = .next t ∧
         (t.pwr.huskBuf.length = s.pwr.huskBuf.length + 1 ∨ (t.pwr.huskGap = true ∧ t.pwr.huskLost = s.pwr.huskLost + 1))) ∧
     (∀ w, s.pwr.wake = some w → w.qualified = true → s.pwr.st = 1 →
       ∃ t, exec .wakeComplete s = .next t ∧ t.pwr.st = 0 ∧ t.pwr.wake = none ∧ t.cfg 0x2102 1 = w.sources.toNat))

end Statements
end

