-- ==== Sys2Proof/Laws/Memory.lean ====
section
/-! SUPPORT. Laws of the tables by key and of the byte memory: reads after writes, and that every memory operation keeps the canonical form. -/

namespace Sys2Proof

open Machine

variable {α : Type}

theorem Tab.find_set (l : Tab α) (k : Nat) (v : α) (j : Nat) : (l.set k v).find j = if j = k then some v else l.find j := by
  induction l with
  | nil => simp only [Tab.set, Tab.find, eq_comm]
  | cons x t ih =>
    obtain ⟨i, w⟩ := x
    simp only [Tab.set]
    by_cases hj : j = k
    · subst hj
      by_cases h1 : j < i
      · simp [h1, Tab.find]
      · by_cases h2 : j = i
        · simp [h2, Tab.find]
        · have h3 : ¬i = j := fun e => h2 e.symm
          simp [h1, h2, h3, Tab.find, ih]
    · have hk : ¬k = j := fun e => hj e.symm
      by_cases h1 : k < i
      · simp [h1, Tab.find, hj, hk]
      · by_cases h2 : k = i
        · subst h2; simp [Tab.find, hj, hk]
        · simp [h1, h2, Tab.find, ih, hj]

/-- The key just written reads as written. -/
@[simp] theorem Tab.find_set_self (l : Tab α) (k : Nat) (v : α) : (l.set k v).find k = some v := by simp [Tab.find_set]

/-- Every other key reads as before. -/
theorem Tab.find_set_ne (l : Tab α) {k j : Nat} (v : α) (h : j ≠ k) : (l.set k v).find j = l.find j := by simp [Tab.find_set, h]

theorem Tab.get_eq (d : α) (l : Tab α) (k : Nat) : l.get d k = (l.find k).getD d := by
  induction l with
  | nil => rfl
  | cons x t ih => simp only [Tab.get, Tab.find]; split <;> simp_all

@[simp] theorem Tab.get_set_self (d : α) (l : Tab α) (k : Nat) (v : α) : (l.set k v).get d k = v := by
  simp only [Tab.get_eq, Tab.find_set_self, Option.getD_some]

theorem Tab.get_set_ne (d : α) (l : Tab α) {k j : Nat} (v : α) (h : j ≠ k) : (l.set k v).get d j = l.get d j := by
  simp only [Tab.get_eq, Tab.find_set_ne l v h]

end Sys2Proof

namespace Sys2Proof.Machine

theorem rising_tail {x : Nat × Byte} {t : List (Nat × Byte)} (h : rising (x :: t) = true) : rising t = true := by
  cases t with
  | nil => rfl
  | cons y t => simp only [rising, Bool.and_eq_true] at h; exact h.2

theorem rising_iff (x : Nat × Byte) (t : List (Nat × Byte)) :
    rising (x :: t) = true ↔ (∀ e ∈ t, x.1 < e.1) ∧ rising t = true := by
  induction t generalizing x with
  | nil => simp [rising]
  | cons y t ih =>
    simp only [rising, Bool.and_eq_true, decide_eq_true_eq, List.mem_cons, forall_eq_or_imp]
    refine ⟨fun h => ⟨⟨h.1, fun e he => Nat.lt_trans h.1 ((ih y).1 h.2 |>.1 e he)⟩, h.2⟩, fun h => ⟨h.1.1, h.2⟩⟩

theorem mem_set {l : List (Nat × Byte)} {k : Nat} {v : Byte} {e : Nat × Byte} (h : e ∈ Tab.set l k v) : e = (k, v) ∨ e ∈ l := by
  induction l with
  | nil => simpa [Tab.set] using h
  | cons x t ih =>
    obtain ⟨j, w⟩ := x
    simp only [Tab.set] at h
    split at h
    · simpa using h
    · split at h
      · rcases List.mem_cons.1 h with h | h
        · exact .inl h
        · exact .inr (List.mem_cons_of_mem _ h)
      · rcases List.mem_cons.1 h with h | h
        · exact .inr (h ▸ List.mem_cons_self)
        · exact (ih h).imp id (List.mem_cons_of_mem _)

theorem rising_set {l : List (Nat × Byte)} (k : Nat) (v : Byte) (h : rising l = true) : rising (Tab.set l k v) = true := by
  induction l with
  | nil => rfl
  | cons x t ih =>
    obtain ⟨j, w⟩ := x
    simp only [Tab.set]
    have hx := (rising_iff _ _).1 h
    split
    next hk => exact (rising_iff _ _).2 ⟨fun e he => (List.mem_cons.1 he).elim (fun q => q ▸ hk) fun q => Nat.lt_trans hk (hx.1 e q), h⟩
    next =>
      split
      next hk => subst hk; exact (rising_iff _ _).2 ⟨hx.1, hx.2⟩
      next h1 h2 =>
        refine (rising_iff _ _).2 ⟨fun e he => ?_, ih hx.2⟩
        rcases mem_set he with q | q
        · subst q; show j < k; omega
        · exact hx.1 e q

theorem mem_erase {l : List (Nat × Byte)} {k : Nat} {e : Nat × Byte} (h : e ∈ Tab.erase l k) : e ∈ l := by
  induction l with
  | nil => simp [Tab.erase] at h
  | cons x t ih =>
    obtain ⟨j, w⟩ := x
    simp only [Tab.erase] at h
    split at h
    · exact List.mem_cons_of_mem _ h
    · rcases List.mem_cons.1 h with h | h
      · exact h ▸ List.mem_cons_self
      · exact List.mem_cons_of_mem _ (ih h)

theorem rising_erase {l : List (Nat × Byte)} (k : Nat) (h : rising l = true) : rising (Tab.erase l k) = true := by
  induction l with
  | nil => rfl
  | cons x t ih =>
    obtain ⟨j, w⟩ := x
    simp only [Tab.erase]
    have hx := (rising_iff _ _).1 h
    split
    · exact hx.2
    · exact (rising_iff _ _).2 ⟨fun e he => hx.1 e (mem_erase he), ih hx.2⟩

theorem rising_filter {l : List (Nat × Byte)} (p : Nat × Byte → Bool) (h : rising l = true) : rising (l.filter p) = true := by
  induction l with
  | nil => rfl
  | cons x t ih =>
    have hx := (rising_iff _ _).1 h
    simp only [List.filter]
    split
    · exact (rising_iff _ _).2 ⟨fun e he => hx.1 e (List.mem_filter.1 he).1, ih hx.2⟩
    · exact ih hx.2

theorem Memory.cells_mk (x0 : List (Nat × BitVec 8)) (x1 : Tab (BitVec 13)) (x2 : Tab Byte) (x3 : List Nat) (x4 : List RowId)
    (x5 : List (RowId × List (Nat × BitVec 13))) (x6 : Bool) (x7 : BitVec 32) (x8 : BitVec 32) (x9 : Bool) (x10 : Bool)
    (x11 : List (Nat × Nat × Nat × Nat)) (x12 : RepairRecord) (x13 : RepairRecord) (x14 : List RepairEntry) (x15 : List RepairEntry) (x16 : Nat)
    (x17 : List RepairEntry) (x18 : List RepairEntry) (x19 : Option Nat) (x20 : Tab Nat) (x21 : Option Nat) (x22 : Option Nat) (x23 : Nat)
    (x24 : List Nat) :
    (Memory.mk x0 x1 x2 x3 x4 x5 x6 x7 x8 x9 x10 x11 x12 x13 x14 x15 x16 x17 x18 x19 x20 x21 x22 x23 x24).cells = x0 := rfl

/-- The canonical form of a list of cells, whatever else the memory holds. -/
theorem Memory.wf_of_cells {m m' : Memory} (h : m'.cells = m.cells) (hm : m.wf = true) : m'.wf = true := by
  simpa [Memory.wf, h] using hm

theorem Memory.wf_filter {m m' : Memory} (p : Nat × Byte → Bool) (h : m'.cells = m.cells.filter p) (hm : m.wf = true) : m'.wf = true := by
  simp only [Memory.wf, h, Bool.and_eq_true, List.all_eq_true] at hm ⊢
  exact ⟨rising_filter p hm.1, fun e he => hm.2 e (List.mem_filter.1 he).1⟩

theorem Memory.wf_nil {m : Memory} (h : m.cells = []) : m.wf = true := by simp [Memory.wf, h, rising]

/-- Storing a byte keeps the canonical form. -/
theorem Memory.setByte_wf {m : Memory} (a : Nat) (v : Byte) (hm : m.wf = true) : (m.setByte a v).wf = true := by
  simp only [Memory.wf, Bool.and_eq_true, List.all_eq_true] at hm ⊢
  simp only [Memory.setByte]
  split
  · exact ⟨rising_erase a hm.1, fun e he => hm.2 e (mem_erase he)⟩
  next h =>
    refine ⟨rising_set a v hm.1, fun e he => ?_⟩
    rcases mem_set he with q | q
    · subst q; simpa using h
    · exact hm.2 e q

/-- A row of the list, wrong bits, and a dropped write-back leave the cells as they are. -/
@[simp] theorem Memory.listRow_cells (m : Memory) (r : RowId) : (m.listRow r).cells = m.cells := by
  simp only [Memory.listRow]; split <;> rfl

@[simp] theorem Memory.setBad_cells (m : Memory) (a : Nat) (v : BitVec 13) : (m.setBad a v).cells = m.cells := rfl

@[simp] theorem Memory.setWrong_cells (m : Memory) (h : Nat) (v : Byte) : (m.setWrong h v).cells = m.cells := rfl

@[simp] theorem Memory.touch_cells (m : Memory) (row : Nat) : (m.touch row).cells = m.cells := by
  simp only [Memory.touch]; split <;> simp

/-- A fold that leaves the cells as they are. -/
theorem Memory.cells_fold {α : Type} {f : Memory → α → Memory} (hf : ∀ m x, (f m x).cells = m.cells) (l : List α) (m : Memory) :
    (l.foldl f m).cells = m.cells := by
  induction l generalizing m with
  | nil => rfl
  | cons x t ih => exact (ih _).trans (hf m x)

/-- A fold that keeps the canonical form. -/
theorem Memory.wf_fold {α : Type} {f : Memory → α → Memory} (hf : ∀ m x, m.wf = true → (f m x).wf = true) (l : List α) {m : Memory} (hm : m.wf = true) :
    (l.foldl f m).wf = true := by
  induction l generalizing m with
  | nil => exact hm
  | cons x t ih => exact ih (hf m x hm)

@[simp] theorem Memory.setChecks_cells (m : Memory) (line : Nat) (c : List (BitVec 13)) : (m.setChecks line c).cells = m.cells := by
  unfold Memory.setChecks
  exact Memory.cells_fold (fun t x => Memory.setBad_cells t _ _) _ _

/-- What a store does to the cells. -/
theorem Memory.writeByte_cells (m : Memory) (inj : Option Nat) (a : Nat) (v : Byte) : (m.writeByte inj a v).cells = (m.setByte a v).cells := by
  simp only [Memory.writeByte]; split <;> simp

theorem Memory.writeByte_wf {m : Memory} (inj : Option Nat) (a : Nat) (v : Byte) (hm : m.wf = true) : (m.writeByte inj a v).wf = true :=
  Memory.wf_of_cells (Memory.writeByte_cells m inj a v) (Memory.setByte_wf a v hm)

/-- Storing bytes keeps the canonical form. -/
theorem Memory.writeBytes_wf (inj : Option Nat) (l : List Byte) : ∀ {m : Memory} (a : Nat), m.wf = true → (m.writeBytes inj a l).wf = true := by
  induction l with
  | nil => intro m a h; exact h
  | cons v t ih => intro m a h; exact ih (a + 1) (Memory.writeByte_wf _ a v h)

/-- Storing bytes of a line keeps the canonical form. -/
theorem Memory.writeLine_wf (inj : Option Nat) (a : Nat) (l d : List Byte) {m : Memory} (hm : m.wf = true) : (m.writeLine inj a l d).wf = true := by
  have h := Memory.writeBytes_wf inj l a hm
  simp only [Memory.writeLine]
  split
  · exact h
  · exact Memory.wf_of_cells (Memory.setChecks_cells ..) h

/-- Writing a block keeps the canonical form. -/
theorem Memory.putBlock_wf (b : Nat) (l : List Byte) {m : Memory} (hm : m.wf = true) : (m.putBlock b l).wf = true :=
  Memory.wf_of_cells (m := m.writeBytes none b l) rfl (Memory.writeBytes_wf _ _ _ hm)

/-- Writing corrected bytes of a row keeps the canonical form. -/
theorem Memory.rewriteRow_wf (row : Nat) (l : List (Nat × BitVec 13)) {m : Memory} (hm : m.wf = true) : (m.rewriteRow row l).wf = true := by
  have h : ∀ n : Nat, (l.foldl (fun t x => if x.1 < n then (t.setByte (row + x.1) (x.2.setWidth 8)).setBad (row + x.1) 0 else t) m).wf = true := fun n =>
    Memory.wf_fold (fun t x ht => by
      split
      · exact Memory.wf_of_cells (Memory.setBad_cells ..) (Memory.setByte_wf _ _ ht)
      · exact ht) l hm
  simp only [Memory.rewriteRow]
  split
  · exact Memory.wf_of_cells (Memory.setChecks_cells ..) (h _)
  · exact h _

/-- Writing corrected bytes of a DRAM block keeps the canonical form. -/
theorem Memory.rewriteBlock_wf (b : Nat) (l : List (Nat × BitVec 13)) {m : Memory} (hm : m.wf = true) : (m.rewriteBlock b l).wf = true := by
  unfold Memory.rewriteBlock
  extract_lets stored meant
  unfold Memory.storeBlock
  extract_lets wrong
  clear_value wrong meant
  refine Memory.wf_of_cells (Memory.cells_fold (f := fun t (x : Nat × Byte) => t.setWrong x.1 x.2) (fun t x => Memory.setWrong_cells t x.1 x.2) _ _) ?_
  exact Memory.wf_fold (f := fun t (x : Byte × Nat) => t.setByte (b + x.2) x.1) (fun t x ht => Memory.setByte_wf _ _ ht) _ hm

/-- The record and its spares are no part of the cells. -/
@[simp] theorem Memory.writeRecord_cells (m : Memory) (test : Bool) (l : List RepairEntry) : (m.writeRecord test l).cells = m.cells := by
  simp only [Memory.writeRecord]; split <;> rfl

@[simp] theorem Memory.assignRecord_cells (m : Memory) : m.assignRecord.cells = m.cells :=
  Memory.cells_fold (fun m e => by simp only [Memory.assign]; split <;> rfl) _ _

@[simp] theorem Memory.testColumns_cells (m : Memory) (l : List (BitVec 24 × Nat)) : (m.testColumns l).1.cells = m.cells := by
  induction l generalizing m with
  | nil => rfl
  | cons c t ih =>
    unfold Memory.testColumns
    dsimp only
    split
    · exact ih m
    · split
      · exact ih _
      · exact ih m

@[simp] theorem Memory.toRewrite_cells (m : Memory) (r : RowId) (l : List (Nat × BitVec 13)) : (m.toRewrite r l).cells = m.cells := rfl

@[simp] theorem Memory.noteColumn_cells (m : Memory) (now mac row col : Nat) : (m.noteColumn now mac row col).cells = m.cells := rfl

theorem Memory.forget_wf {m : Memory} (p : Nat → Bool) (hm : m.wf = true) : (m.forget p).wf = true :=
  Memory.wf_filter _ rfl hm

theorem Memory.listRow_wf {m : Memory} (r : RowId) (hm : m.wf = true) : (m.listRow r).wf = true := Memory.wf_of_cells (Memory.listRow_cells ..) hm

end Sys2Proof.Machine
end

