-- ==== Sys2Proof/Laws/Does.lean ====
section
/-! SUPPORT. `Does l s t`: what a command or an operation that touches only the parts `l` may do to a state. The laws that carry it through a meaning; one
lemma per operation follows in the files beside this one. -/

namespace Sys2Proof.Machine

/-- The parts outside `l` and the queue are unchanged; memory and event log keep their form; what was sent stays sent; a fused image key
stays, and the rollback counter does not fall. -/
structure Does (l : List Part) (s t : State) : Prop where
  same : SameBut l s t
  pending : t.pending = s.pending
  mem : s.mem.wf = true → t.mem.wf = true
  log : s.log.wf → t.log.wf
  sent : s.out <+: t.out
  fused : s.pst.keyHash.isSome = true → t.pst.keyHash = s.pst.keyHash
  floor : s.pst.rollback ≤ t.pst.rollback

variable {l k : List Part} {s t u : State}

theorem Part.same_refl (p : Part) (s : State) : p.same s s := by cases p <;> rfl

theorem Part.same_trans {p : Part} (h : p.same s t) (h' : p.same t u) : p.same s u := by
  cases p <;> exact Eq.trans h' h

theorem Does.refl (l : List Part) (s : State) : Does l s s :=
  ⟨fun p _ => p.same_refl s, rfl, id, id, List.prefix_refl _, fun _ => rfl, Fin.le_refl _⟩

theorem Part.all_self (l : List Part) : (l.all fun p => l.contains p) = true := by simp

theorem Part.all_trans {a b c : List Part} (h : (a.all fun p => b.contains p) = true) (h' : (b.all fun p => c.contains p) = true) :
    (a.all fun p => c.contains p) = true := by
  simp only [List.all_eq_true, List.contains_iff_mem] at *
  exact fun p hp => h' p (h p hp)

/-- One operation after another. -/
theorem Does.step (h : Does l s t) (h' : Does k t u) (hk : (k.all fun p => l.contains p) = true) : Does l s u where
  same p hp := Part.same_trans (h.same p hp) (h'.same p fun hk' => hp (by simpa using List.all_eq_true.1 hk p hk'))
  pending := h'.pending.trans h.pending
  mem := h'.mem ∘ h.mem
  log := h'.log ∘ h.log
  sent := h.sent.trans h'.sent
  fused e := by
    have := h.fused e
    exact (h'.fused (by rw [this]; exact e)).trans this
  floor := Fin.le_trans h.floor h'.floor

theorem Does.weaken (h : Does k s t) (hk : (k.all fun p => l.contains p) = true) : Does l s t := (Does.refl l s).step h hk

theorem Does.ite {c : Prop} [Decidable c] {a b : State} (ha : c → Does l s a) (hb : ¬c → Does l s b) : Does l s (if c then a else b) := by
  split
  · exact ha ‹_›
  · exact hb ‹_›

/-- A fold of operations. -/
theorem Does.fold {α : Type} {f : State → α → State} (hf : ∀ t a, Does l t (f t a)) (xs : List α) (h : Does l s t) :
    Does l s (xs.foldl f t) := by
  induction xs generalizing t with
  | nil => exact h
  | cons a xs ih => exact ih (h.step (hf t a) (by simp))

/-- A fold that carries something beside the state. -/
theorem Does.foldFst {α β : Type} {f : State × β → α → State × β} (hf : ∀ t a, Does l t.1 (f t a).1) (xs : List α) {r : State × β}
    (h : Does l s r.1) : Does l s (xs.foldl f r).1 := by
  induction xs generalizing r with
  | nil => exact h
  | cons a xs ih => exact ih (h.step (hf r a) (by simp))

/-- The first part of an answer with more parts. -/
theorem Does.fst {β : Type} {r : State × β} {y : State} {b : β} (e : r = (y, b)) (h : Does l s r.1) : Does l s y := by subst e; exact h

/-- The last part of an answer. -/
theorem Does.snd {β : Type} {r : β × State} {y : State} {b : β} (e : r = (b, y)) (h : Does l s r.2) : Does l s y := by subst e; exact h

/-- An update of anything: `x` is the state whose queue it keeps. -/
theorem Does.any {x : State} {x0 : TimeBase} {x1 : EventLog} {x2 : Session} {x3 : Tab Nat} {x4 : Access} {x5 : Tab Port} {x6 : Classifier} {x7 : Store} {x8 : Replay} {x9 : Link} {x10 : Fabric} {x11 : Switching} {x12 : Tab Engine} {x13 : Tab Pod} {x14 : List StreamRec} {x15 : Xbar} {x16 : Memory} {xs : List SideFail} {x17 : Pestle} {x18 : Power} {x19 : TestPort} {x20 : List Output} {x21 : Nat}
    (hs : (l.contains .tb = true ∨ x0 = x.tb) ∧ (l.contains .log = true ∨ x1 = x.log) ∧ (l.contains .sess = true ∨ x2 = x.sess) ∧ (l.contains .od =
      true ∨ x3 = x.od) ∧ (l.contains .acc = true ∨ x4 = x.acc) ∧ (l.contains .ports = true ∨ x5 = x.ports) ∧ (l.contains .cls = true ∨ x6 =
      x.cls) ∧ (l.contains .store = true ∨ x7 = x.store) ∧ (l.contains .rep = true ∨ x8 = x.rep) ∧ (l.contains .link = true ∨ x9 = x.link) ∧
      (l.contains .fab = true ∨ x10 = x.fab) ∧ (l.contains .sw = true ∨ x11 = x.sw) ∧ (l.contains .eng = true ∨ x12 = x.eng) ∧ (l.contains .pods =
      true ∨ x13 = x.pods) ∧ (l.contains .net = true ∨ x14 = x.net) ∧ (l.contains .xbar = true ∨ x15 = x.xbar) ∧ ((l.contains .mem = true ∧ l.contains .cel = true) ∨
      x16 = x.mem) ∧ (l.contains .side = true ∨ xs = x.side) ∧ (l.contains .pst = true ∨ x17 = x.pst) ∧ (l.contains .pwr = true ∨ x18 = x.pwr) ∧ (l.contains .test = true ∨ x19 = x.test) ∧
      (l.contains .out = true ∨ x20 = x.out) ∧ (l.contains .free = true ∨ x21 = x.free))
    (hm : x.mem.wf = true → x16.wf = true) (hl : x.log.wf → x1.wf) (ho : x.out <+: x20)
    (hf : x.pst.keyHash.isSome = true → x17.keyHash = x.pst.keyHash) (hr : x.pst.rollback ≤ x17.rollback)
    (h : Does l s x) : Does l s (State.mk x0 x1 x2 x3 x4 x5 x6 x7 x8 x9 x10 x11 x12 x13 x14 x15 x16 xs x17 x18 x19 x20 x21 x.pending) :=
  h.step (k := l) ⟨fun p hp => by
    obtain ⟨h0, h1, h2, h3, h4, h5, h6, h7, h8, h9, h10, h11, h12, h13, h14, h15, h16, hs, h17, h18, h19, h20, h21⟩ := hs
    have hq : ¬l.contains p = true := by simpa using hp
    cases p
    · exact h0.resolve_left hq
    · exact h1.resolve_left hq
    · exact h2.resolve_left hq
    · exact h3.resolve_left hq
    · exact h4.resolve_left hq
    · exact h5.resolve_left hq
    · exact h6.resolve_left hq
    · exact h7.resolve_left hq
    · exact h8.resolve_left hq
    · exact h9.resolve_left hq
    · exact h10.resolve_left hq
    · exact h11.resolve_left hq
    · exact h12.resolve_left hq
    · exact h13.resolve_left hq
    · exact h14.resolve_left hq
    · exact h15.resolve_left hq
    · exact h16.elim (fun q => absurd q.1 hq) fun q => congrArg (fun m : Memory => { m with cel := [] }) q
    · exact h16.elim (fun q => absurd q.2 hq) fun q => congrArg Memory.cel q
    · exact hs.resolve_left hq
    · exact h17.resolve_left hq
    · exact h18.resolve_left hq
    · exact h19.resolve_left hq
    · exact h20.resolve_left hq
    · exact h21.resolve_left hq, rfl, hm, hl, ho, hf, hr⟩ (by simp)

/-- An update of parts in `l` other than memory, log, trace and Pestle's fuses. -/
theorem Does.leaf {x : State} {x0 : TimeBase} {x1 : EventLog} {x2 : Session} {x3 : Tab Nat} {x4 : Access} {x5 : Tab Port} {x6 : Classifier} {x7 : Store} {x8 : Replay} {x9 : Link} {x10 : Fabric} {x11 : Switching} {x12 : Tab Engine} {x13 : Tab Pod} {x14 : List StreamRec} {x15 : Xbar} {x16 : Memory} {xs : List SideFail} {x17 : Pestle} {x18 : Power} {x19 : TestPort} {x20 : List Output} {x21 : Nat}
    (hs : (l.contains .tb = true ∨ x0 = x.tb) ∧ (l.contains .log = true ∨ x1 = x.log) ∧ (l.contains .sess = true ∨ x2 = x.sess) ∧ (l.contains .od =
      true ∨ x3 = x.od) ∧ (l.contains .acc = true ∨ x4 = x.acc) ∧ (l.contains .ports = true ∨ x5 = x.ports) ∧ (l.contains .cls = true ∨ x6 =
      x.cls) ∧ (l.contains .store = true ∨ x7 = x.store) ∧ (l.contains .rep = true ∨ x8 = x.rep) ∧ (l.contains .link = true ∨ x9 = x.link) ∧
      (l.contains .fab = true ∨ x10 = x.fab) ∧ (l.contains .sw = true ∨ x11 = x.sw) ∧ (l.contains .eng = true ∨ x12 = x.eng) ∧ (l.contains .pods =
      true ∨ x13 = x.pods) ∧ (l.contains .net = true ∨ x14 = x.net) ∧ (l.contains .xbar = true ∨ x15 = x.xbar) ∧ ((l.contains .mem = true ∧ l.contains .cel = true) ∨
      x16 = x.mem) ∧ (l.contains .side = true ∨ xs = x.side) ∧ (l.contains .pst = true ∨ x17 = x.pst) ∧ (l.contains .pwr = true ∨ x18 = x.pwr) ∧ (l.contains .test = true ∨ x19 = x.test) ∧
      (l.contains .out = true ∨ x20 = x.out) ∧ (l.contains .free = true ∨ x21 = x.free))
    (hm : x16 = x.mem) (hl : x1 = x.log) (ho : x20 = x.out) (hf : x17.keyHash = x.pst.keyHash)
    (hr : x17.rollback = x.pst.rollback) (h : Does l s x) : Does l s (State.mk x0 x1 x2 x3 x4 x5 x6 x7 x8 x9 x10 x11 x12 x13 x14 x15 x16 xs x17 x18 x19 x20 x21 x.pending) :=
  h.any hs (by rw [hm]; exact id) (by rw [hl]; exact id) (by rw [ho]) (fun _ => hf) (by rw [hr])

/-- The same where memory changes and keeps its form. -/
theorem Does.leafMem {x : State} {x0 : TimeBase} {x1 : EventLog} {x2 : Session} {x3 : Tab Nat} {x4 : Access} {x5 : Tab Port} {x6 : Classifier} {x7 : Store} {x8 : Replay} {x9 : Link} {x10 : Fabric} {x11 : Switching} {x12 : Tab Engine} {x13 : Tab Pod} {x14 : List StreamRec} {x15 : Xbar} {x16 : Memory} {xs : List SideFail} {x17 : Pestle} {x18 : Power} {x19 : TestPort} {x20 : List Output} {x21 : Nat}
    (hs : (l.contains .tb = true ∨ x0 = x.tb) ∧ (l.contains .log = true ∨ x1 = x.log) ∧ (l.contains .sess = true ∨ x2 = x.sess) ∧ (l.contains .od =
      true ∨ x3 = x.od) ∧ (l.contains .acc = true ∨ x4 = x.acc) ∧ (l.contains .ports = true ∨ x5 = x.ports) ∧ (l.contains .cls = true ∨ x6 =
      x.cls) ∧ (l.contains .store = true ∨ x7 = x.store) ∧ (l.contains .rep = true ∨ x8 = x.rep) ∧ (l.contains .link = true ∨ x9 = x.link) ∧
      (l.contains .fab = true ∨ x10 = x.fab) ∧ (l.contains .sw = true ∨ x11 = x.sw) ∧ (l.contains .eng = true ∨ x12 = x.eng) ∧ (l.contains .pods =
      true ∨ x13 = x.pods) ∧ (l.contains .net = true ∨ x14 = x.net) ∧ (l.contains .xbar = true ∨ x15 = x.xbar) ∧ ((l.contains .mem = true ∧ l.contains .cel = true) ∨
      x16 = x.mem) ∧ (l.contains .side = true ∨ xs = x.side) ∧ (l.contains .pst = true ∨ x17 = x.pst) ∧ (l.contains .pwr = true ∨ x18 = x.pwr) ∧ (l.contains .test = true ∨ x19 = x.test) ∧
      (l.contains .out = true ∨ x20 = x.out) ∧ (l.contains .free = true ∨ x21 = x.free))
    (hm : x.mem.wf = true → x16.wf = true) (hl : x1 = x.log) (ho : x20 = x.out)
    (hf : x17.keyHash = x.pst.keyHash) (hr : x17.rollback = x.pst.rollback)
    (h : Does l s x) : Does l s (State.mk x0 x1 x2 x3 x4 x5 x6 x7 x8 x9 x10 x11 x12 x13 x14 x15 x16 xs x17 x18 x19 x20 x21 x.pending) :=
  h.any hs hm (by rw [hl]; exact id) (by rw [ho]) (fun _ => hf) (by rw [hr])

/-! An update of one part. -/

theorem Does.set_tb (s : State) (x : TimeBase) : Does [.tb] s { s with tb := x } :=
  Does.leaf ⟨.inl rfl, .inr rfl, .inr rfl, .inr rfl, .inr rfl, .inr rfl, .inr rfl, .inr rfl, .inr rfl, .inr rfl, .inr rfl, .inr rfl, .inr rfl,
    .inr rfl, .inr rfl, .inr rfl, .inr rfl, .inr rfl, .inr rfl, .inr rfl, .inr rfl, .inr rfl, .inr rfl⟩
    rfl rfl rfl rfl rfl (Does.refl _ _)

theorem Does.set_sess (s : State) (x : Session) : Does [.sess] s { s with sess := x } :=
  Does.leaf ⟨.inr rfl, .inr rfl, .inl rfl, .inr rfl, .inr rfl, .inr rfl, .inr rfl, .inr rfl, .inr rfl, .inr rfl, .inr rfl, .inr rfl, .inr rfl,
    .inr rfl, .inr rfl, .inr rfl, .inr rfl, .inr rfl, .inr rfl, .inr rfl, .inr rfl, .inr rfl, .inr rfl⟩
    rfl rfl rfl rfl rfl (Does.refl _ _)

theorem Does.set_od (s : State) (x : Tab Nat) : Does [.od] s { s with od := x } :=
  Does.leaf ⟨.inr rfl, .inr rfl, .inr rfl, .inl rfl, .inr rfl, .inr rfl, .inr rfl, .inr rfl, .inr rfl, .inr rfl, .inr rfl, .inr rfl, .inr rfl,
    .inr rfl, .inr rfl, .inr rfl, .inr rfl, .inr rfl, .inr rfl, .inr rfl, .inr rfl, .inr rfl, .inr rfl⟩
    rfl rfl rfl rfl rfl (Does.refl _ _)

theorem Does.set_acc (s : State) (x : Access) : Does [.acc] s { s with acc := x } :=
  Does.leaf ⟨.inr rfl, .inr rfl, .inr rfl, .inr rfl, .inl rfl, .inr rfl, .inr rfl, .inr rfl, .inr rfl, .inr rfl, .inr rfl, .inr rfl, .inr rfl,
    .inr rfl, .inr rfl, .inr rfl, .inr rfl, .inr rfl, .inr rfl, .inr rfl, .inr rfl, .inr rfl, .inr rfl⟩
    rfl rfl rfl rfl rfl (Does.refl _ _)

theorem Does.set_ports (s : State) (x : Tab Port) : Does [.ports] s { s with ports := x } :=
  Does.leaf ⟨.inr rfl, .inr rfl, .inr rfl, .inr rfl, .inr rfl, .inl rfl, .inr rfl, .inr rfl, .inr rfl, .inr rfl, .inr rfl, .inr rfl, .inr rfl,
    .inr rfl, .inr rfl, .inr rfl, .inr rfl, .inr rfl, .inr rfl, .inr rfl, .inr rfl, .inr rfl, .inr rfl⟩
    rfl rfl rfl rfl rfl (Does.refl _ _)

theorem Does.set_cls (s : State) (x : Classifier) : Does [.cls] s { s with cls := x } :=
  Does.leaf ⟨.inr rfl, .inr rfl, .inr rfl, .inr rfl, .inr rfl, .inr rfl, .inl rfl, .inr rfl, .inr rfl, .inr rfl, .inr rfl, .inr rfl, .inr rfl,
    .inr rfl, .inr rfl, .inr rfl, .inr rfl, .inr rfl, .inr rfl, .inr rfl, .inr rfl, .inr rfl, .inr rfl⟩
    rfl rfl rfl rfl rfl (Does.refl _ _)

theorem Does.set_store (s : State) (x : Store) : Does [.store] s { s with store := x } :=
  Does.leaf ⟨.inr rfl, .inr rfl, .inr rfl, .inr rfl, .inr rfl, .inr rfl, .inr rfl, .inl rfl, .inr rfl, .inr rfl, .inr rfl, .inr rfl, .inr rfl,
    .inr rfl, .inr rfl, .inr rfl, .inr rfl, .inr rfl, .inr rfl, .inr rfl, .inr rfl, .inr rfl, .inr rfl⟩
    rfl rfl rfl rfl rfl (Does.refl _ _)

theorem Does.set_rep (s : State) (x : Replay) : Does [.rep] s { s with rep := x } :=
  Does.leaf ⟨.inr rfl, .inr rfl, .inr rfl, .inr rfl, .inr rfl, .inr rfl, .inr rfl, .inr rfl, .inl rfl, .inr rfl, .inr rfl, .inr rfl, .inr rfl,
    .inr rfl, .inr rfl, .inr rfl, .inr rfl, .inr rfl, .inr rfl, .inr rfl, .inr rfl, .inr rfl, .inr rfl⟩
    rfl rfl rfl rfl rfl (Does.refl _ _)

theorem Does.set_link (s : State) (x : Link) : Does [.link] s { s with link := x } :=
  Does.leaf ⟨.inr rfl, .inr rfl, .inr rfl, .inr rfl, .inr rfl, .inr rfl, .inr rfl, .inr rfl, .inr rfl, .inl rfl, .inr rfl, .inr rfl, .inr rfl,
    .inr rfl, .inr rfl, .inr rfl, .inr rfl, .inr rfl, .inr rfl, .inr rfl, .inr rfl, .inr rfl, .inr rfl⟩
    rfl rfl rfl rfl rfl (Does.refl _ _)

theorem Does.set_fab (s : State) (x : Fabric) : Does [.fab] s { s with fab := x } :=
  Does.leaf ⟨.inr rfl, .inr rfl, .inr rfl, .inr rfl, .inr rfl, .inr rfl, .inr rfl, .inr rfl, .inr rfl, .inr rfl, .inl rfl, .inr rfl, .inr rfl,
    .inr rfl, .inr rfl, .inr rfl, .inr rfl, .inr rfl, .inr rfl, .inr rfl, .inr rfl, .inr rfl, .inr rfl⟩
    rfl rfl rfl rfl rfl (Does.refl _ _)

theorem Does.set_sw (s : State) (x : Switching) : Does [.sw] s { s with sw := x } :=
  Does.leaf ⟨.inr rfl, .inr rfl, .inr rfl, .inr rfl, .inr rfl, .inr rfl, .inr rfl, .inr rfl, .inr rfl, .inr rfl, .inr rfl, .inl rfl, .inr rfl,
    .inr rfl, .inr rfl, .inr rfl, .inr rfl, .inr rfl, .inr rfl, .inr rfl, .inr rfl, .inr rfl, .inr rfl⟩
    rfl rfl rfl rfl rfl (Does.refl _ _)

theorem Does.set_eng (s : State) (x : Tab Engine) : Does [.eng] s { s with eng := x } :=
  Does.leaf ⟨.inr rfl, .inr rfl, .inr rfl, .inr rfl, .inr rfl, .inr rfl, .inr rfl, .inr rfl, .inr rfl, .inr rfl, .inr rfl, .inr rfl, .inl rfl,
    .inr rfl, .inr rfl, .inr rfl, .inr rfl, .inr rfl, .inr rfl, .inr rfl, .inr rfl, .inr rfl, .inr rfl⟩
    rfl rfl rfl rfl rfl (Does.refl _ _)

theorem Does.set_pods (s : State) (x : Tab Pod) : Does [.pods] s { s with pods := x } :=
  Does.leaf ⟨.inr rfl, .inr rfl, .inr rfl, .inr rfl, .inr rfl, .inr rfl, .inr rfl, .inr rfl, .inr rfl, .inr rfl, .inr rfl, .inr rfl, .inr rfl,
    .inl rfl, .inr rfl, .inr rfl, .inr rfl, .inr rfl, .inr rfl, .inr rfl, .inr rfl, .inr rfl, .inr rfl⟩
    rfl rfl rfl rfl rfl (Does.refl _ _)

theorem Does.set_net (s : State) (x : List StreamRec) : Does [.net] s { s with net := x } :=
  Does.leaf ⟨.inr rfl, .inr rfl, .inr rfl, .inr rfl, .inr rfl, .inr rfl, .inr rfl, .inr rfl, .inr rfl, .inr rfl, .inr rfl, .inr rfl, .inr rfl,
    .inr rfl, .inl rfl, .inr rfl, .inr rfl, .inr rfl, .inr rfl, .inr rfl, .inr rfl, .inr rfl, .inr rfl⟩
    rfl rfl rfl rfl rfl (Does.refl _ _)

theorem Does.set_xbar (s : State) (x : Xbar) : Does [.xbar] s { s with xbar := x } :=
  Does.leaf ⟨.inr rfl, .inr rfl, .inr rfl, .inr rfl, .inr rfl, .inr rfl, .inr rfl, .inr rfl, .inr rfl, .inr rfl, .inr rfl, .inr rfl, .inr rfl,
    .inr rfl, .inr rfl, .inl rfl, .inr rfl, .inr rfl, .inr rfl, .inr rfl, .inr rfl, .inr rfl, .inr rfl⟩
    rfl rfl rfl rfl rfl (Does.refl _ _)

theorem Does.set_pwr (s : State) (x : Power) : Does [.pwr] s { s with pwr := x } :=
  Does.leaf ⟨.inr rfl, .inr rfl, .inr rfl, .inr rfl, .inr rfl, .inr rfl, .inr rfl, .inr rfl, .inr rfl, .inr rfl, .inr rfl, .inr rfl, .inr rfl,
    .inr rfl, .inr rfl, .inr rfl, .inr rfl, .inr rfl, .inr rfl, .inl rfl, .inr rfl, .inr rfl, .inr rfl⟩
    rfl rfl rfl rfl rfl (Does.refl _ _)

theorem Does.set_test (s : State) (x : TestPort) : Does [.test] s { s with test := x } :=
  Does.leaf ⟨.inr rfl, .inr rfl, .inr rfl, .inr rfl, .inr rfl, .inr rfl, .inr rfl, .inr rfl, .inr rfl, .inr rfl, .inr rfl, .inr rfl, .inr rfl,
    .inr rfl, .inr rfl, .inr rfl, .inr rfl, .inr rfl, .inr rfl, .inr rfl, .inl rfl, .inr rfl, .inr rfl⟩
    rfl rfl rfl rfl rfl (Does.refl _ _)

theorem Does.set_free (s : State) (x : Nat) : Does [.free] s { s with free := x } :=
  Does.leaf ⟨.inr rfl, .inr rfl, .inr rfl, .inr rfl, .inr rfl, .inr rfl, .inr rfl, .inr rfl, .inr rfl, .inr rfl, .inr rfl, .inr rfl, .inr rfl,
    .inr rfl, .inr rfl, .inr rfl, .inr rfl, .inr rfl, .inr rfl, .inr rfl, .inr rfl, .inr rfl, .inl rfl⟩
    rfl rfl rfl rfl rfl (Does.refl _ _)

theorem Does.set_side (s : State) (x : List SideFail) : Does [.side] s { s with side := x } :=
  Does.leaf ⟨.inr rfl, .inr rfl, .inr rfl, .inr rfl, .inr rfl, .inr rfl, .inr rfl, .inr rfl, .inr rfl, .inr rfl, .inr rfl, .inr rfl, .inr rfl, .inr rfl, .inr rfl, .inr rfl, .inr rfl, .inl rfl,
    .inr rfl, .inr rfl, .inr rfl, .inr rfl, .inr rfl⟩
    rfl rfl rfl rfl rfl (Does.refl _ _)

theorem Does.set_pst (s : State) (x : Pestle) (hk : x.keyHash = s.pst.keyHash) (hr : x.rollback = s.pst.rollback) :
    Does [.pst] s { s with pst := x } :=
  Does.leaf ⟨.inr rfl, .inr rfl, .inr rfl, .inr rfl, .inr rfl, .inr rfl, .inr rfl, .inr rfl, .inr rfl, .inr rfl, .inr rfl, .inr rfl, .inr rfl,
    .inr rfl, .inr rfl, .inr rfl, .inr rfl, .inr rfl, .inl rfl, .inr rfl, .inr rfl, .inr rfl, .inr rfl⟩
    rfl rfl rfl hk hr (Does.refl _ _)

theorem Does.set_mem (s : State) (x : Memory) (h : s.mem.wf = true → x.wf = true) : Does [.mem, .cel] s { s with mem := x } :=
  Does.leafMem ⟨.inr rfl, .inr rfl, .inr rfl, .inr rfl, .inr rfl, .inr rfl, .inr rfl, .inr rfl, .inr rfl, .inr rfl, .inr rfl, .inr rfl, .inr rfl,
    .inr rfl, .inr rfl, .inr rfl, .inl ⟨rfl, rfl⟩, .inr rfl, .inr rfl, .inr rfl, .inr rfl, .inr rfl, .inr rfl⟩
    h rfl rfl rfl rfl (Does.refl _ _)

/-- A row enters the correctable-error list. -/
theorem Does.set_cel (s : State) (r : RowId) : Does [.cel] s { s with mem := s.mem.listRow r } where
  same p hp := by
    cases p <;> first | rfl | exact absurd (List.mem_cons_self) hp | skip
    show { s.mem.listRow r with cel := [] } = { s.mem with cel := [] }
    unfold Memory.listRow
    split <;> rfl
  pending := rfl
  mem := Memory.listRow_wf _
  log := id
  sent := List.prefix_refl _
  fused := fun _ => rfl
  floor := Fin.le_refl _

theorem Does.sent_more (s : State) (o : List Output) : Does [.out] s { s with out := s.out ++ o } :=
  Does.any ⟨.inr rfl, .inr rfl, .inr rfl, .inr rfl, .inr rfl, .inr rfl, .inr rfl, .inr rfl, .inr rfl, .inr rfl, .inr rfl, .inr rfl, .inr rfl,
    .inr rfl, .inr rfl, .inr rfl, .inr rfl, .inr rfl, .inr rfl, .inr rfl, .inr rfl, .inl rfl, .inr rfl⟩
    id id (List.prefix_append _ _) (fun _ => rfl) (Fin.le_refl _) (Does.refl _ _)

/-- Bytes are written into memory. -/
theorem Does.wrote (s : State) (inj : Option Nat) (a : Nat) (b : List Byte) : Does [.mem, .cel] s { s with mem := s.mem.writeBytes inj a b } :=
  Does.leafMem ⟨.inr rfl, .inr rfl, .inr rfl, .inr rfl, .inr rfl, .inr rfl, .inr rfl, .inr rfl, .inr rfl, .inr rfl, .inr rfl, .inr rfl, .inr rfl,
    .inr rfl, .inr rfl, .inr rfl, .inl ⟨rfl, rfl⟩, .inr rfl, .inr rfl, .inr rfl, .inr rfl, .inr rfl, .inr rfl⟩ (Memory.writeBytes_wf _ _ _) rfl rfl rfl rfl (Does.refl _ _)

theorem EventLog.seq_append {c : BitVec 16} {xs rows : List LogRow}
    (h : ∀ i (hi : i < xs.length), (xs[i]).seq = c - BitVec.ofNat 16 (xs.length - i))
    (hr : ∀ i (hi : i < rows.length), (rows[i]).seq = c + BitVec.ofNat 16 i) (i : Nat) (hi : i < (xs ++ rows).length) :
    ((xs ++ rows)[i]).seq = c + BitVec.ofNat 16 rows.length - BitVec.ofNat 16 ((xs ++ rows).length - i) := by
  rw [List.length_append] at *
  rw [List.getElem_append]
  split
  next hlt =>
    rw [h _ hlt, show xs.length + rows.length - i = (xs.length - i) + rows.length by omega, BitVec.ofNat_add]
    generalize BitVec.ofNat 16 rows.length = a
    generalize BitVec.ofNat 16 (xs.length - i) = b
    bv_omega
  next hge =>
    rw [hr, show rows.length = (rows.length - (i - xs.length)) + (i - xs.length) by omega,
      show xs.length + (rows.length - (i - xs.length) + (i - xs.length)) - i = rows.length - (i - xs.length) by omega, BitVec.ofNat_add]
    generalize BitVec.ofNat 16 (rows.length - (i - xs.length)) = a
    generalize BitVec.ofNat 16 (i - xs.length) = b
    bv_omega

theorem EventLog.seq_drop {c : BitVec 16} {xs : List LogRow} (d : Nat)
    (h : ∀ i (hi : i < xs.length), (xs[i]).seq = c - BitVec.ofNat 16 (xs.length - i)) (i : Nat) (hi : i < (xs.drop d).length) :
    ((xs.drop d)[i]).seq = c - BitVec.ofNat 16 ((xs.drop d).length - i) := by
  rw [List.length_drop] at *
  rw [List.getElem_drop, h, show xs.length - (d + i) = xs.length - d - i by omega]

/-- The event log just after a reset that clears it. -/
theorem EventLog.wf_one (tick : L48) (seq : BitVec 16) (flags kind : Byte) (idx : BitVec 16) (sub : Byte) (v : W24) (n : BitVec 16)
    (h : n = seq + 1 := by rfl) : ({ next := n, rows := [⟨tick, seq, flags, kind, idx, sub, v⟩] } : EventLog).wf := by
  subst h
  refine ⟨by simp, fun i hi => ?_⟩
  have : i = 0 := by simpa using hi
  subst this
  simp

/-- Rows that bear the next SEQs keep the event log in order, and the oldest rows give way (18 R407). -/
theorem EventLog.push_wf {x : EventLog} {rows : List LogRow} (h : x.wf)
    (hr : ∀ i (hi : i < rows.length), (rows[i]).seq = x.next + BitVec.ofNat 16 i) : (x.push rows).wf := by
  constructor
  · simp only [EventLog.push, List.length_drop]
    generalize (x.rows ++ rows).length = n
    omega
  · have key := EventLog.seq_drop ((x.rows ++ rows).length - 8192) (EventLog.seq_append h.2 hr)
    simpa only [EventLog.push] using key

theorem State.entryRows_seq (s : State) (plane kind idx sub val : Nat) (pay : List (List Byte)) (i : Nat)
    (hi : i < (s.entryRows plane kind idx sub val pay).length) :
    ((s.entryRows plane kind idx sub val pay)[i]).seq = s.log.next + BitVec.ofNat 16 i := by
  cases i with
  | zero => simp [State.entryRows]
  | succ i =>
    simp only [State.entryRows, List.getElem_cons_succ, List.getElem_map, List.getElem_zipIdx, contRow]
    rw [Nat.zero_add, Nat.add_comm i 1, BitVec.ofNat_add, ← BitVec.add_assoc]
    rfl

/-- The rows of an entry go into the event log, each into the place of its SEQ. -/
theorem Does.logged (s : State) (plane kind idx sub val : Nat) (pay : List (List Byte)) :
    Does [.log, .side] s (s.pushLog (s.entryRows plane kind idx sub val pay)) := by
  refine Does.fold (fun t r => (Does.set_side _ _).weaken rfl) _ ?_
  exact Does.any ⟨.inr rfl, .inl rfl, .inr rfl, .inr rfl, .inr rfl, .inr rfl, .inr rfl, .inr rfl, .inr rfl, .inr rfl, .inr rfl, .inr rfl, .inr rfl,
    .inr rfl, .inr rfl, .inr rfl, .inr rfl, .inr rfl, .inr rfl, .inr rfl, .inr rfl, .inr rfl, .inr rfl⟩ id
    (fun h => EventLog.push_wf h (s.entryRows_seq plane kind idx sub val pay)) (List.prefix_refl _) (fun _ => rfl) (Fin.le_refl _) (Does.refl _ _)

end Sys2Proof.Machine
end

