-- ==== Sys2Proof/Laws/DoesBase.lean ====
section
/-! SUPPORT. What each operation of Machine/Base.lean can do: the parts of the state it can touch, and what it keeps. -/

namespace Sys2Proof.Machine

theorem State.setTime_does (s : State) (c : Nat) : Does [.tb] s (State.setTime s c) := by
  unfold State.setTime
  repeat' first
    | exact rfl
    | with_reducible exact Does.refl _ _
    | extract_lets
    | fail_if_no_progress beta_reduce
    | with_reducible apply Does.step (h' := Does.set_tb ..)

theorem Pestle.wrote_keyHash (x : Pestle) (c : List Nat) : (x.wrote c).keyHash = x.keyHash := by
  unfold Pestle.wrote; split <;> rfl

theorem Pestle.wrote_rollback (x : Pestle) (c : List Nat) : (x.wrote c).rollback = x.rollback := by
  unfold Pestle.wrote; split <;> rfl

theorem State.wrote_does (s : State) (copies : List Nat) : Does [.pst] s (State.wrote s copies) :=
  Does.set_pst _ _ (Pestle.wrote_keyHash ..) (Pestle.wrote_rollback ..)

theorem State.reach_does (s : State) (c : Nat) : Does [.tb] s (State.reach s c) := by
  unfold State.reach
  repeat' first
    | exact rfl
    | with_reducible exact Does.refl _ _
    | with_reducible apply Does.step (h' := State.setTime_does ..)
    | with_reducible apply Does.ite
    | intro _
    | extract_lets
    | fail_if_no_progress beta_reduce

theorem State.put_does (s : State) (idx : Nat) (sub : Nat) (v : Nat) : Does [.od] s (State.put s idx sub v) := by
  unfold State.put
  repeat' first
    | exact rfl
    | with_reducible exact Does.refl _ _
    | extract_lets
    | fail_if_no_progress beta_reduce
    | with_reducible apply Does.step (h' := Does.set_od ..)

theorem State.setPort_does (s : State) (p : Nat) (q : Port) : Does [.ports] s (State.setPort s p q) := by
  unfold State.setPort
  repeat' first
    | exact rfl
    | with_reducible exact Does.refl _ _
    | extract_lets
    | fail_if_no_progress beta_reduce
    | with_reducible apply Does.step (h' := Does.set_ports ..)

theorem State.send_does (s : State) (o : Output) : Does [.out] s (State.send s o) := by
  unfold State.send
  repeat' first
    | exact rfl
    | with_reducible exact Does.refl _ _
    | extract_lets
    | fail_if_no_progress beta_reduce
    | with_reducible apply Does.step (h' := Does.sent_more ..)

theorem State.bumpBy_does (s : State) (idx : Nat) (sub : Nat) (bytes : Nat) (n : Nat) : Does [.od] s (State.bumpBy s idx sub bytes n) := by
  unfold State.bumpBy
  repeat' first
    | exact rfl
    | with_reducible exact Does.refl _ _
    | with_reducible apply Does.step (h' := State.put_does ..)
    | with_reducible apply Does.ite
    | intro _
    | extract_lets
    | fail_if_no_progress beta_reduce

theorem State.bump_does (s : State) (idx : Nat) (sub : Nat) : Does [.od] s (State.bump s idx sub) := by
  unfold State.bump
  repeat' first
    | exact rfl
    | with_reducible exact Does.refl _ _
    | with_reducible apply Does.step (h' := State.bumpBy_does ..)
    | extract_lets
    | fail_if_no_progress beta_reduce

theorem State.reachTick_does (s : State) (c : Nat) : Does [.tb] s (State.reachTick s c) := by
  unfold State.reachTick
  repeat' first
    | exact rfl
    | with_reducible exact Does.refl _ _
    | with_reducible apply Does.step (h' := State.reach_does ..)
    | with_reducible apply Does.ite
    | intro _
    | extract_lets
    | fail_if_no_progress beta_reduce

theorem State.setEngine_does (s : State) (e : Nat) (x : Engine) : Does [.eng] s (State.setEngine s e x) := by
  unfold State.setEngine
  repeat' first
    | exact rfl
    | with_reducible exact Does.refl _ _
    | extract_lets
    | fail_if_no_progress beta_reduce
    | with_reducible apply Does.step (h' := Does.set_eng ..)

theorem State.draw_does (s : State) (u : Nat) : Does [.free] s (State.draw s u).2 := by
  unfold State.draw
  repeat' first
    | exact rfl
    | with_reducible exact Does.refl _ _
    | extract_lets
    | fail_if_no_progress beta_reduce
    | with_reducible apply Does.step (h' := Does.set_free ..)

theorem State.reachInt_does (s : State) (c : ℤ) : Does [.tb] s (State.reachInt s c) := by
  unfold State.reachInt
  repeat' first
    | exact rfl
    | with_reducible exact Does.refl _ _
    | with_reducible apply Does.step (h' := State.reach_does ..)
    | extract_lets
    | fail_if_no_progress beta_reduce

theorem State.clearCounters_does (s : State) (idx : Nat) (a : Nat) (b : Nat) : Does [.od] s (State.clearCounters s idx a b) := by
  unfold State.clearCounters
  repeat' first
    | exact rfl
    | with_reducible exact Does.refl _ _
    | with_reducible apply Does.step (h' := State.put_does ..)
    | with_reducible apply Does.fold
    | intro _
    | extract_lets
    | fail_if_no_progress beta_reduce

theorem State.setPod_does (s : State) (p : Nat) (x : Pod) : Does [.pods] s (State.setPod s p x) := by
  unfold State.setPod
  repeat' first
    | exact rfl
    | with_reducible exact Does.refl _ _
    | extract_lets
    | fail_if_no_progress beta_reduce
    | with_reducible apply Does.step (h' := Does.set_pods ..)

end Sys2Proof.Machine
end

