-- ==== Sys2Proof/Laws/DoesSides.lean ====
section
/-! SUPPORT. What each operation of Machine/Sides.lean can do: the parts of the state it can touch, and what it keeps. -/

namespace Sys2Proof.Machine

theorem State.healSides_does (s : State) (f : SideRow → Bool) : Does [.side] s (State.healSides s f) := by
  unfold State.healSides
  repeat' first
    | exact rfl
    | with_reducible exact Does.refl _ _
    | extract_lets
    | fail_if_no_progress beta_reduce
    | with_reducible apply Does.step (h' := Does.set_side ..)

theorem State.softRead_does (s : State) (r : SideRow) : Does [.od, .cel] s (State.softRead s r) :=
  Does.step (Does.step (Does.refl _ _) (State.bump_does ..) rfl) (Does.set_cel ..) rfl

theorem State.readSides_does (s : State) (f : SideRow → Bool) : Does [.od, .cel] s (State.readSides s f) := by
  unfold State.readSides
  repeat' first
    | exact rfl
    | with_reducible exact Does.refl _ _
    | with_reducible apply Does.step (h' := State.softRead_does ..)
    | with_reducible apply Does.step (h' := State.bumpBy_does ..)
    | with_reducible apply Does.fold
    | intro _
    | extract_lets
    | fail_if_no_progress beta_reduce

theorem State.healSide_does (s : State) (r : SideRow) : Does [.side] s (State.healSide s r) := by
  unfold State.healSide
  repeat' first
    | exact rfl
    | with_reducible exact Does.refl _ _
    | extract_lets
    | fail_if_no_progress beta_reduce
    | with_reducible apply Does.step (h' := Does.set_side ..)

end Sys2Proof.Machine
end

