-- ==== Sys2Proof/Laws/DoesStoreOps.lean ====
section
/-! SUPPORT. What each operation of Machine/StoreOps.lean can do: the parts of the state it can touch, and what it keeps. -/

namespace Sys2Proof.Machine

theorem State.setLane_does (s : State) (l : Nat) (x : Lane) : Does [.store] s (State.setLane s l x) := by
  unfold State.setLane
  repeat' first
    | exact rfl
    | with_reducible exact Does.refl _ _
    | extract_lets
    | fail_if_no_progress beta_reduce
    | with_reducible apply Does.step (h' := Does.set_store ..)

theorem State.finishSeg_does (s : State) (g : OpenSeg) (sig : Option Nat) (last : Bool) : Does [.store, .free] s (State.finishSeg s g sig last) := by
  unfold State.finishSeg
  repeat' first
    | exact rfl
    | with_reducible exact Does.refl _ _
    | with_reducible apply Does.ite
    | split
    | intro _
    | extract_lets
    | fail_if_no_progress beta_reduce
    | refine Does.any ⟨.inr rfl, .inr rfl, .inr rfl, .inr rfl, .inr rfl, .inr rfl, .inr rfl, .inl rfl, .inr rfl, .inr rfl, .inr rfl, .inr rfl, .inr rfl, .inr rfl, .inr rfl, .inr rfl, .inr rfl, .inr rfl, .inr rfl, .inr rfl, .inr rfl, .inr rfl, .inl rfl⟩ id id (List.prefix_refl _) (fun _ => rfl) (Fin.le_refl _) ?_

theorem State.closeSeg_does (s : State) : Does [.store, .free] s (State.closeSeg s) := by
  unfold State.closeSeg
  repeat' first
    | exact rfl
    | with_reducible exact Does.refl _ _
    | with_reducible apply Does.step (h' := State.finishSeg_does ..)
    | with_reducible apply Does.ite
    | split
    | intro _
    | extract_lets
    | fail_if_no_progress beta_reduce

theorem State.payFailover_does (s : State) : Does [.store, .free] s (State.payFailover s) := by
  unfold State.payFailover
  repeat' first
    | exact rfl
    | with_reducible exact Does.refl _ _
    | with_reducible apply Does.step (h' := State.finishSeg_does ..)
    | with_reducible apply Does.ite
    | intro _
    | extract_lets
    | fail_if_no_progress beta_reduce
    | with_reducible apply Does.step (h' := Does.set_store ..)

theorem State.intoSeg_does (s : State) (g : OpenSeg) (b : List Byte) : Does [.store] s (State.intoSeg s g b) := by
  unfold State.intoSeg
  repeat' first
    | exact rfl
    | with_reducible exact Does.refl _ _
    | extract_lets
    | fail_if_no_progress beta_reduce
    | with_reducible apply Does.step (h' := Does.set_store ..)

theorem State.addBlock_does (s : State) (b : List Byte) : Does [.store, .free] s (State.addBlock s b) := by
  unfold State.addBlock
  repeat' first
    | exact rfl
    | with_reducible exact Does.refl _ _
    | with_reducible apply Does.step (h' := State.closeSeg_does ..)
    | with_reducible apply Does.step (h' := State.payFailover_does ..)
    | with_reducible apply Does.step (h' := State.intoSeg_does ..)
    | with_reducible apply Does.ite
    | split
    | intro _
    | extract_lets
    | fail_if_no_progress beta_reduce

theorem State.closeBlock_does (s : State) (l : Nat) : Does [.store, .free] s (State.closeBlock s l) := by
  unfold State.closeBlock
  repeat' first
    | exact rfl
    | with_reducible exact Does.refl _ _
    | with_reducible apply Does.step (h' := State.setLane_does ..)
    | with_reducible apply Does.step (h' := State.addBlock_does ..)
    | with_reducible apply Does.ite
    | split
    | intro _
    | extract_lets
    | fail_if_no_progress beta_reduce
    | with_reducible apply Does.step (h' := Does.set_store ..)

theorem State.intoBlock_does (s : State) (l : Nat) (r : List Byte) : Does [.store] s (State.intoBlock s l r) := by
  unfold State.intoBlock
  repeat' first
    | exact rfl
    | with_reducible exact Does.refl _ _
    | with_reducible apply Does.step (h' := State.setLane_does ..)
    | extract_lets
    | fail_if_no_progress beta_reduce

theorem State.laneAppend_does (s : State) (l : Nat) (r : List Byte) : Does [.store, .free] s (State.laneAppend s l r) := by
  unfold State.laneAppend
  repeat' first
    | exact rfl
    | with_reducible exact Does.refl _ _
    | with_reducible apply Does.step (h' := State.closeBlock_does ..)
    | with_reducible apply Does.step (h' := State.intoBlock_does ..)
    | with_reducible apply Does.ite
    | split
    | intro _
    | extract_lets
    | fail_if_no_progress beta_reduce

theorem State.wrapPoint_does (s : State) (l : Nat) : Does [.store, .free] s (State.wrapPoint s l) := by
  unfold State.wrapPoint
  repeat' first
    | exact rfl
    | with_reducible exact Does.refl _ _
    | with_reducible apply Does.step (h' := State.closeBlock_does ..)
    | with_reducible apply Does.step (h' := State.setLane_does ..)
    | with_reducible apply Does.step (h' := State.addBlock_does ..)
    | split
    | extract_lets
    | fail_if_no_progress beta_reduce

theorem State.reachWrap_does (s : State) (l : Nat) (count : ℤ) : Does [.store, .free] s (State.reachWrap s l count) := by
  unfold State.reachWrap
  repeat' first
    | exact rfl
    | with_reducible exact Does.refl _ _
    | with_reducible apply Does.step (h' := State.wrapPoint_does ..)
    | with_reducible apply Does.step (h' := State.setLane_does ..)
    | with_reducible apply Does.ite
    | intro _
    | extract_lets
    | fail_if_no_progress beta_reduce

theorem State.tellBlocks_does (s : State) (p : Nat) (ch : Nat) : Does [.store, .link] s (State.tellBlocks s p ch) := by
  unfold State.tellBlocks
  repeat' first
    | exact rfl
    | with_reducible exact Does.refl _ _
    | with_reducible apply Does.ite
    | split
    | intro _
    | extract_lets
    | fail_if_no_progress beta_reduce
    | refine Does.any ⟨.inr rfl, .inr rfl, .inr rfl, .inr rfl, .inr rfl, .inr rfl, .inr rfl, .inl rfl, .inr rfl, .inl rfl, .inr rfl, .inr rfl, .inr rfl, .inr rfl, .inr rfl, .inr rfl, .inr rfl, .inr rfl, .inr rfl, .inr rfl, .inr rfl, .inr rfl, .inr rfl⟩ id id (List.prefix_refl _) (fun _ => rfl) (Fin.le_refl _) ?_

theorem State.countOverload_does (s : State) (r : List Byte) : Does [.od, .store] s (State.countOverload s r) := by
  unfold State.countOverload
  repeat' first
    | exact rfl
    | with_reducible exact Does.refl _ _
    | with_reducible apply Does.step (h' := State.bump_does ..)
    | with_reducible apply Does.ite
    | intro _
    | extract_lets
    | fail_if_no_progress beta_reduce
    | with_reducible apply Does.step (h' := Does.set_store ..)

theorem State.ctlStore_does (s : State) (r : List Byte) : Does [.store, .free] s (State.ctlStore s r) := by
  unfold State.ctlStore
  repeat' first
    | exact rfl
    | with_reducible exact Does.refl _ _
    | with_reducible apply Does.step (h' := State.addBlock_does ..)
    | with_reducible apply Does.ite
    | intro _
    | extract_lets
    | fail_if_no_progress beta_reduce

theorem State.noteTick_does (s : State) (l : Nat) (r : List Byte) : Does [.store] s (State.noteTick s l r) := by
  unfold State.noteTick
  repeat' first
    | exact rfl
    | with_reducible exact Does.refl _ _
    | with_reducible apply Does.step (h' := State.setLane_does ..)
    | with_reducible apply Does.ite
    | intro _
    | extract_lets
    | fail_if_no_progress beta_reduce

end Sys2Proof.Machine
end

