-- ==== Sys2Proof/Laws/DoesLogOps.lean ====
section
/-! SUPPORT. What each operation of Machine/LogOps.lean can do: the parts of the state it can touch, and what it keeps. -/

namespace Sys2Proof.Machine

theorem State.linkPut_does (s : State) (cls : Nat) (b : LinkBlock) : Does [.link] s (State.linkPut s cls b) := by
  unfold State.linkPut
  repeat' first
    | exact rfl
    | with_reducible exact Does.refl _ _
    | extract_lets
    | fail_if_no_progress beta_reduce
    | with_reducible apply Does.step (h' := Does.set_link ..)

theorem State.linkHealth_does (s : State) (r : List Byte) : Does [.od, .link] s (State.linkHealth s r) := by
  unfold State.linkHealth
  repeat' first
    | exact rfl
    | with_reducible exact Does.refl _ _
    | with_reducible apply Does.step (h' := State.bump_does ..)
    | with_reducible apply Does.step (h' := State.linkPut_does ..)
    | with_reducible apply Does.ite
    | intro _
    | extract_lets
    | fail_if_no_progress beta_reduce

theorem State.health_does (s : State) (tick : L48) (r : LogRow) : Does [.od, .store, .link, .free] s (State.health s tick r) := by
  unfold State.health
  repeat' first
    | exact rfl
    | with_reducible exact Does.refl _ _
    | with_reducible apply Does.step (h' := State.linkHealth_does ..)
    | with_reducible apply Does.step (h' := State.ctlStore_does ..)
    | extract_lets
    | fail_if_no_progress beta_reduce

theorem State.logX_does (s : State) (plane : Nat) (kind : Nat) (idx : Nat) (sub : Nat) (val : Nat) (pay : List (List Byte)) : Does Part.logging s (State.logX s plane kind idx sub val pay) := by
  unfold State.logX
  repeat' first
    | exact rfl
    | with_reducible exact Does.refl _ _
    | with_reducible apply Does.step (h' := Does.logged ..)
    | with_reducible apply Does.step (h' := State.health_does ..)
    | with_reducible apply Does.ite
    | with_reducible apply Does.fold
    | intro _
    | extract_lets
    | fail_if_no_progress beta_reduce

theorem State.logE_does (s : State) (plane : Nat) (kind : Nat) (idx : Nat) (sub : Nat) (val : Nat) : Does Part.logging s (State.logE s plane kind idx sub val) := by
  unfold State.logE
  repeat' first
    | exact rfl
    | with_reducible exact Does.refl _ _
    | with_reducible apply Does.step (h' := State.logX_does ..)
    | extract_lets
    | fail_if_no_progress beta_reduce

theorem State.logCount_does (s : State) (plane : Nat) (idx : Nat) (sub : Nat) : Does Part.logging s (State.logCount s plane idx sub) := by
  unfold State.logCount
  repeat' first
    | exact rfl
    | with_reducible exact Does.refl _ _
    | with_reducible apply Does.step (h' := State.logE_does ..)
    | extract_lets
    | fail_if_no_progress beta_reduce

theorem State.bumpLog_does (s : State) (plane : Nat) (idx : Nat) (sub : Nat) : Does Part.logging s (State.bumpLog s plane idx sub) := by
  unfold State.bumpLog
  repeat' first
    | exact rfl
    | with_reducible exact Does.refl _ _
    | with_reducible apply Does.step (h' := State.logCount_does ..)
    | with_reducible apply Does.step (h' := State.bump_does ..)
    | extract_lets
    | fail_if_no_progress beta_reduce

theorem State.linkQueue_does (s : State) (cls : Nat) (b : LinkBlock) : Does Part.logging s (State.linkQueue s cls b) := by
  unfold State.linkQueue
  repeat' first
    | exact rfl
    | with_reducible exact Does.refl _ _
    | with_reducible apply Does.step (h' := State.bumpBy_does ..)
    | with_reducible apply Does.step (h' := State.logX_does ..)
    | with_reducible apply Does.step (h' := State.linkPut_does ..)
    | with_reducible apply Does.ite
    | intro _
    | extract_lets
    | fail_if_no_progress beta_reduce

theorem State.linkClose_does (s : State) (lane : Nat) (cls : Nat) : Does Part.logging s (State.linkClose s lane cls) := by
  unfold State.linkClose
  repeat' first
    | exact rfl
    | with_reducible exact Does.refl _ _
    | with_reducible apply Does.step (h' := State.linkQueue_does ..)
    | with_reducible apply Does.ite
    | intro _
    | extract_lets
    | fail_if_no_progress beta_reduce
    | with_reducible apply Does.step (h' := Does.set_link ..)
    | with_reducible apply Does.step (h' := Does.set_store ..)

theorem State.linkTake_does (s : State) (cls : Nat) (lane : Nat) (r : List Byte) : Does Part.logging s (State.linkTake s cls lane r) := by
  unfold State.linkTake
  repeat' first
    | exact rfl
    | with_reducible exact Does.refl _ _
    | with_reducible apply Does.step (h' := State.bump_does ..)
    | with_reducible apply Does.step (h' := State.linkClose_does ..)
    | with_reducible apply Does.ite
    | intro _
    | extract_lets
    | fail_if_no_progress beta_reduce
    | with_reducible apply Does.step (h' := Does.set_link ..)

theorem State.linkSelect_does (s : State) (lane : Nat) (r : List Byte) : Does Part.logging s (State.linkSelect s lane r) := by
  unfold State.linkSelect
  repeat' first
    | exact rfl
    | with_reducible exact Does.refl _ _
    | with_reducible apply Does.step (h' := State.linkTake_does ..)
    | with_reducible apply Does.ite
    | split
    | intro _
    | extract_lets
    | fail_if_no_progress beta_reduce
    | with_reducible apply Does.step (h' := Does.set_link ..)

theorem State.stage_does (s : State) (lane : Nat) (r : List Byte) : Does Part.logging s (State.stage s lane r) := by
  unfold State.stage
  repeat' first
    | exact rfl
    | with_reducible exact Does.refl _ _
    | with_reducible apply Does.step (h' := State.countOverload_does ..)
    | with_reducible apply Does.step (h' := State.noteTick_does ..)
    | with_reducible apply Does.step (h' := State.laneAppend_does ..)
    | with_reducible apply Does.step (h' := State.linkSelect_does ..)
    | with_reducible apply Does.ite
    | intro _
    | extract_lets
    | fail_if_no_progress beta_reduce

theorem State.logRefusal_does (s : State) (path : Nat) (idx : Nat) (sub : Nat) (val : Nat) (code : BitVec 32) : Does Part.logging s (State.logRefusal s path idx sub val code) := by
  unfold State.logRefusal
  repeat' first
    | exact rfl
    | with_reducible exact Does.refl _ _
    | with_reducible apply Does.step (h' := State.logX_does ..)
    | extract_lets
    | fail_if_no_progress beta_reduce

theorem State.logHealth_does (s : State) (plane : Nat) (kind : Nat) (idx : Nat) (sub : Nat) (val : Nat) (pay : List (List Byte)) : Does Part.logging s (State.logHealth s plane kind idx sub val pay) := by
  unfold State.logHealth
  repeat' first
    | exact rfl
    | with_reducible exact Does.refl _ _
    | with_reducible apply Does.step (h' := Does.logged ..)
    | with_reducible apply Does.step (h' := State.health_does ..)
    | with_reducible apply Does.fold
    | intro _
    | extract_lets
    | fail_if_no_progress beta_reduce

theorem State.logWide_does (s : State) (plane : Nat) (idx : Nat) (sub : Nat) (l : List Byte) : Does Part.logging s (State.logWide s plane idx sub l) := by
  unfold State.logWide
  repeat' first
    | exact rfl
    | with_reducible exact Does.refl _ _
    | with_reducible apply Does.step (h' := State.logE_does ..)
    | with_reducible apply Does.fold
    | intro _
    | extract_lets
    | fail_if_no_progress beta_reduce

theorem State.ctlPut_does (s : State) (r : List Byte) : Does Part.logging s (State.ctlPut s r) := by
  unfold State.ctlPut
  repeat' first
    | exact rfl
    | with_reducible exact Does.refl _ _
    | with_reducible apply Does.step (h' := State.ctlStore_does ..)
    | with_reducible apply Does.step (h' := State.linkTake_does ..)
    | with_reducible apply Does.ite
    | intro _
    | extract_lets
    | fail_if_no_progress beta_reduce

end Sys2Proof.Machine
end

