-- ==== Sys2Proof/Laws/DoesFabOps.lean ====
section
/-! SUPPORT. What each operation of Machine/FabOps.lean can do: the parts of the state it can touch, and what it keeps. -/

namespace Sys2Proof.Machine

theorem State.setFport_does (s : State) (k : Nat) (x : FabPort) : Does [.fab] s (State.setFport s k x) := by
  unfold State.setFport
  repeat' first
    | exact rfl
    | with_reducible exact Does.refl _ _
    | extract_lets
    | fail_if_no_progress beta_reduce
    | with_reducible apply Does.step (h' := Does.set_fab ..)

theorem State.freeBuffer_does (s : State) (k : Nat) (v : Nat) : Does [.fab] s (State.freeBuffer s k v) := by
  unfold State.freeBuffer
  repeat' first
    | exact rfl
    | with_reducible exact Does.refl _ _
    | with_reducible apply Does.step (h' := State.setFport_does ..)
    | extract_lets
    | fail_if_no_progress beta_reduce

theorem State.emitFlit_does (s : State) (k : Nat) (f : Flit) : Does [.fab, .out] s (State.emitFlit s k f) := by
  unfold State.emitFlit
  repeat' first
    | exact rfl
    | with_reducible exact Does.refl _ _
    | with_reducible apply Does.step (h' := State.send_does ..)
    | with_reducible apply Does.step (h' := State.setFport_does ..)
    | extract_lets
    | fail_if_no_progress beta_reduce

theorem State.launch_does (s : State) (k : Nat) (f : Flit) : Does [.fab, .out] s (State.launch s k f) := by
  unfold State.launch
  repeat' first
    | exact rfl
    | with_reducible exact Does.refl _ _
    | with_reducible apply Does.step (h' := State.emitFlit_does ..)
    | with_reducible apply Does.step (h' := State.setFport_does ..)
    | extract_lets
    | fail_if_no_progress beta_reduce

theorem State.sendFrom_does (s : State) (from_ : Option Nat) (k : Nat) (f : Flit) : Does [.fab, .out] s (State.sendFrom s from_ k f) := by
  unfold State.sendFrom
  repeat' first
    | exact rfl
    | with_reducible exact Does.refl _ _
    | with_reducible apply Does.step (h' := State.freeBuffer_does ..)
    | with_reducible apply Does.step (h' := State.launch_does ..)
    | with_reducible apply Does.step (h' := State.setFport_does ..)
    | with_reducible apply Does.ite
    | split
    | intro _
    | extract_lets
    | fail_if_no_progress beta_reduce

theorem State.sendSeq_does (s : State) (k : Nat) (f : Flit) : Does [.fab, .out] s (State.sendSeq s k f) := by
  unfold State.sendSeq
  repeat' first
    | exact rfl
    | with_reducible exact Does.refl _ _
    | with_reducible apply Does.step (h' := State.sendFrom_does ..)
    | extract_lets
    | fail_if_no_progress beta_reduce

theorem State.flood_does (s : State) (but : Option Nat) (fs : List Flit) : Does [.fab, .out] s (State.flood s but fs) := by
  unfold State.flood
  repeat' first
    | exact rfl
    | with_reducible exact Does.refl _ _
    | with_reducible apply Does.step (h' := State.sendSeq_does ..)
    | with_reducible apply Does.fold
    | intro _
    | extract_lets
    | fail_if_no_progress beta_reduce

theorem State.floodOwn_does (s : State) (fs : List Flit) : Does [.fab, .out] s (State.floodOwn s fs) := by
  unfold State.floodOwn
  repeat' first
    | exact rfl
    | with_reducible exact Does.refl _ _
    | with_reducible apply Does.step (h' := State.flood_does ..)
    | extract_lets
    | fail_if_no_progress beta_reduce

theorem State.flushTx_does (s : State) (k : Nat) (k2 : Nat) : Does [.fab, .out] s (State.flushTx s k k2) := by
  induction k2 generalizing s k with
  | zero =>
    unfold State.flushTx
    repeat' first
      | exact rfl
      | with_reducible exact Does.refl _ _
      | with_reducible apply Does.step (h' := ih ..)
      | with_reducible apply Does.step (h' := State.setFport_does ..)
      | with_reducible apply Does.step (h' := State.freeBuffer_does ..)
      | with_reducible apply Does.step (h' := State.launch_does ..)
      | with_reducible apply Does.ite
      | split
      | intro _
      | extract_lets
      | fail_if_no_progress beta_reduce
  | succ k ih =>
    unfold State.flushTx
    repeat' first
      | exact rfl
      | with_reducible exact Does.refl _ _
      | with_reducible apply Does.step (h' := ih ..)
      | with_reducible apply Does.step (h' := State.setFport_does ..)
      | with_reducible apply Does.step (h' := State.freeBuffer_does ..)
      | with_reducible apply Does.step (h' := State.launch_does ..)
      | with_reducible apply Does.ite
      | split
      | intro _
      | extract_lets
      | fail_if_no_progress beta_reduce

theorem State.sendTo_does (s : State) (node : Nat) (fs : List Flit) : Does [.fab, .out] s (State.sendTo s node fs).1 := by
  unfold State.sendTo
  repeat' first
    | exact rfl
    | with_reducible exact Does.refl _ _
    | with_reducible apply Does.step (h' := State.sendSeq_does ..)
    | split
    | with_reducible apply Does.fold
    | split
    | intro _
    | extract_lets
    | fail_if_no_progress beta_reduce

theorem State.drainExports_does (s : State) : Does [.fab, .out] s (State.drainExports s) := by
  unfold State.drainExports
  repeat' first
    | exact rfl
    | with_reducible exact Does.refl _ _
    | with_reducible apply Does.step (h' := State.sendTo_does ..)
    | with_reducible refine Does.step ?_ (Does.fst (by assumption) (State.sendTo_does ..)) ?_
    | with_reducible apply Does.ite
    | with_reducible apply Does.fold
    | split
    | intro _
    | extract_lets
    | fail_if_no_progress beta_reduce
    | with_reducible apply Does.step (h' := Does.set_fab ..)

theorem State.exportRecord_does (s : State) (r : List Byte) : Does [.od, .fab, .out] s (State.exportRecord s r) := by
  unfold State.exportRecord
  repeat' first
    | exact rfl
    | with_reducible exact Does.refl _ _
    | with_reducible apply Does.step (h' := State.bump_does ..)
    | with_reducible apply Does.step (h' := State.drainExports_does ..)
    | with_reducible apply Does.ite
    | with_reducible apply Does.fold
    | intro _
    | extract_lets
    | fail_if_no_progress beta_reduce
    | with_reducible apply Does.step (h' := Does.set_fab ..)

theorem State.sendPlain_does (s : State) (k : Nat) (f : Flit) : Does [.fab, .out] s (State.sendPlain s k f) := by
  unfold State.sendPlain
  repeat' first
    | exact rfl
    | with_reducible exact Does.refl _ _
    | with_reducible apply Does.step (h' := State.emitFlit_does ..)
    | extract_lets
    | fail_if_no_progress beta_reduce

end Sys2Proof.Machine
end

