-- ==== Sys2Proof/Laws/DoesRouterOps.lean ====
section
/-! SUPPORT. What each operation of Machine/RouterOps.lean can do: the parts of the state it can touch, and what it keeps. -/

namespace Sys2Proof.Machine

theorem State.intoArrival_does (s : State) (q : StreamRec) : Does [.pods, .side] s (State.intoArrival s q) := by
  unfold State.intoArrival
  repeat' first
    | exact rfl
    | with_reducible exact Does.refl _ _
    | with_reducible apply Does.step (h' := State.setPod_does ..)
    | with_reducible apply Does.step (h' := State.healSides_does ..)
    | with_reducible apply Does.ite
    | intro _
    | extract_lets
    | fail_if_no_progress beta_reduce

theorem State.podDrop_does (s : State) (p : Nat) : Does [.od] s (State.podDrop s p) := by
  unfold State.podDrop
  repeat' first
    | exact rfl
    | with_reducible exact Does.refl _ _
    | with_reducible apply Does.step (h' := State.bump_does ..)
    | extract_lets
    | fail_if_no_progress beta_reduce

theorem State.deliver_does (s : State) (e : Nat) (kind : Nat) (r : List Byte) : Does [.od, .cls, .pods, .side] s (State.deliver s e kind r) := by
  unfold State.deliver
  repeat' first
    | exact rfl
    | with_reducible exact Does.refl _ _
    | with_reducible apply Does.step (h' := State.intoArrival_does ..)
    | with_reducible apply Does.step (h' := State.podDrop_does ..)
    | with_reducible apply Does.step (h' := State.bump_does ..)
    | with_reducible apply Does.ite
    | intro _
    | extract_lets
    | fail_if_no_progress beta_reduce
    | with_reducible apply Does.step (h' := Does.set_cls ..)

end Sys2Proof.Machine
end

