-- ==== Sys2Proof/Laws/DoesReplayOps.lean ====
section
/-! SUPPORT. What each operation of Machine/ReplayOps.lean can do: the parts of the state it can touch, and what it keeps. -/

namespace Sys2Proof.Machine

theorem State.setTx_does (s : State) (p : Nat) (x : TxPort) : Does [.rep] s (State.setTx s p x) := by
  unfold State.setTx
  repeat' first
    | exact rfl
    | with_reducible exact Does.refl _ _
    | extract_lets
    | fail_if_no_progress beta_reduce
    | with_reducible apply Does.step (h' := Does.set_rep ..)

theorem State.fillBuffer_does (s : State) (p : Nat) : Does [.rep] s (State.fillBuffer s p) := by
  unfold State.fillBuffer
  repeat' first
    | exact rfl
    | with_reducible exact Does.refl _ _
    | with_reducible apply Does.step (h' := State.setTx_does ..)
    | extract_lets
    | fail_if_no_progress beta_reduce

theorem State.enqueue_does (s : State) (p : Nat) (ctl : L48) (count : ℤ) (r : List Byte) : Does [.od, .rep] s (State.enqueue s p ctl count r) := by
  unfold State.enqueue
  repeat' first
    | exact rfl
    | with_reducible exact Does.refl _ _
    | with_reducible apply Does.step (h' := State.setTx_does ..)
    | with_reducible apply Does.step (h' := State.fillBuffer_does ..)
    | with_reducible apply Does.step (h' := State.bump_does ..)
    | with_reducible apply Does.ite
    | split
    | intro _
    | extract_lets
    | fail_if_no_progress beta_reduce

theorem State.mirrorForward_does (s : State) (p : Nat) (a : ℤ) (r : List Byte) : Does [.od, .rep, .net] s (State.mirrorForward s p a r) := by
  unfold State.mirrorForward
  repeat' first
    | exact rfl
    | with_reducible exact Does.refl _ _
    | with_reducible apply Does.step (h' := State.bump_does ..)
    | with_reducible apply Does.step (h' := State.enqueue_does ..)
    | with_reducible apply Does.ite
    | split
    | intro _
    | extract_lets
    | fail_if_no_progress beta_reduce
    | with_reducible apply Does.step (h' := Does.set_net ..)

end Sys2Proof.Machine
end

