-- ==== Sys2Proof/Laws/DoesCapture.lean ====
section
/-! SUPPORT. What each operation of Machine/Capture.lean can do: the parts of the state it can touch, and what it keeps. -/

namespace Sys2Proof.Machine

theorem State.restPort_does (s : State) (p : Nat) : Does [.ports] s (State.restPort s p) := by
  unfold State.restPort
  repeat' first
    | exact rfl
    | with_reducible exact Does.refl _ _
    | with_reducible apply Does.step (h' := State.setPort_does ..)
    | with_reducible apply Does.ite
    | intro _
    | extract_lets
    | fail_if_no_progress beta_reduce

theorem State.rawWrap_does (s : State) (p : Nat) : Does [.store, .free] s (State.rawWrap s p) := by
  unfold State.rawWrap
  repeat' first
    | exact rfl
    | with_reducible exact Does.refl _ _
    | with_reducible apply Does.step (h' := State.wrapPoint_does ..)
    | with_reducible apply Does.ite
    | intro _
    | extract_lets
    | fail_if_no_progress beta_reduce

theorem State.drainBuffers_does (s : State) : Does [.log, .od, .ports, .store, .link, .side, .free] s (State.drainBuffers s) := by
  unfold State.drainBuffers
  repeat' first
    | exact rfl
    | with_reducible exact Does.refl _ _
    | with_reducible apply Does.step (h' := State.rawWrap_does ..)
    | with_reducible apply Does.step (h' := State.stage_does ..)
    | with_reducible apply Does.step (h' := State.setPort_does ..)
    | with_reducible apply Does.ite
    | with_reducible apply Does.fold
    | intro _
    | extract_lets
    | fail_if_no_progress beta_reduce

theorem State.sampleWrap_does (s : State) (p : Nat) : Does [.store, .free] s (State.sampleWrap s p) := by
  unfold State.sampleWrap
  repeat' first
    | exact rfl
    | with_reducible exact Does.refl _ _
    | with_reducible apply Does.step (h' := State.wrapPoint_does ..)
    | with_reducible apply Does.ite
    | intro _
    | extract_lets
    | fail_if_no_progress beta_reduce

theorem State.endFrame_does (s : State) (p : Nat) : Does [.ports, .store, .free] s (State.endFrame s p) := by
  unfold State.endFrame
  repeat' first
    | exact rfl
    | with_reducible exact Does.refl _ _
    | with_reducible apply Does.step (h' := State.sampleWrap_does ..)
    | with_reducible apply Does.step (h' := State.rawWrap_does ..)
    | with_reducible apply Does.step (h' := State.setPort_does ..)
    | with_reducible apply Does.ite
    | intro _
    | extract_lets
    | fail_if_no_progress beta_reduce

theorem State.putRaw_does (s : State) (p : Nat) (edge : ℤ) (r : List Byte) : Does [.log, .od, .ports, .cls, .store, .rep, .link, .fab, .net, .side, .out, .free] s (State.putRaw s p edge r) := by
  unfold State.putRaw
  repeat' first
    | exact rfl
    | with_reducible exact Does.refl _ _
    | with_reducible apply Does.step (h' := State.endFrame_does ..)
    | with_reducible apply Does.step (h' := State.setPort_does ..)
    | with_reducible apply Does.step (h' := State.stage_does ..)
    | with_reducible apply Does.step (h' := State.mirrorForward_does ..)
    | with_reducible apply Does.step (h' := State.exportRecord_does ..)
    | with_reducible apply Does.ite
    | intro _
    | extract_lets
    | fail_if_no_progress beta_reduce
    | with_reducible apply Does.step (h' := Does.set_cls ..)

theorem State.notice_does (s : State) (p : Nat) (aux : Nat) (payload : List Byte) : Does [.log, .od, .ports, .cls, .store, .rep, .link, .fab, .net, .side, .out, .free] s (State.notice s p aux payload) := by
  unfold State.notice
  repeat' first
    | exact rfl
    | with_reducible exact Does.refl _ _
    | with_reducible apply Does.step (h' := State.putRaw_does ..)
    | with_reducible apply Does.ite
    | intro _
    | extract_lets
    | fail_if_no_progress beta_reduce

theorem State.dropNotices_does (s : State) (p : Nat) : Does [.log, .od, .ports, .cls, .store, .rep, .link, .fab, .net, .side, .out, .free] s (State.dropNotices s p) := by
  unfold State.dropNotices
  repeat' first
    | exact rfl
    | with_reducible exact Does.refl _ _
    | with_reducible apply Does.step (h' := State.setPort_does ..)
    | with_reducible apply Does.step (h' := State.notice_does ..)
    | with_reducible apply Does.ite
    | intro _
    | extract_lets
    | fail_if_no_progress beta_reduce

theorem State.disablePort_does (s : State) (p : Nat) : Does [.log, .od, .ports, .cls, .store, .rep, .link, .fab, .net, .side, .out, .free] s (State.disablePort s p) := by
  unfold State.disablePort
  repeat' first
    | exact rfl
    | with_reducible exact Does.refl _ _
    | with_reducible apply Does.step (h' := State.notice_does ..)
    | with_reducible apply Does.step (h' := State.dropNotices_does ..)
    | with_reducible apply Does.step (h' := State.endFrame_does ..)
    | with_reducible apply Does.step (h' := State.setPort_does ..)
    | extract_lets
    | fail_if_no_progress beta_reduce

theorem State.portNotices_does (s : State) (p : Nat) : Does [.log, .od, .ports, .cls, .store, .rep, .link, .fab, .net, .side, .out, .free] s (State.portNotices s p) := by
  unfold State.portNotices
  repeat' first
    | exact rfl
    | with_reducible exact Does.refl _ _
    | with_reducible apply Does.step (h' := State.notice_does ..)
    | with_reducible apply Does.ite
    | split
    | intro _
    | extract_lets
    | fail_if_no_progress beta_reduce

theorem State.enablePort_does (s : State) (p : Nat) : Does [.log, .od, .ports, .cls, .store, .rep, .link, .fab, .net, .side, .out, .free] s (State.enablePort s p) := by
  unfold State.enablePort
  repeat' first
    | exact rfl
    | with_reducible exact Does.refl _ _
    | with_reducible apply Does.step (h' := State.portNotices_does ..)
    | with_reducible apply Does.step (h' := State.setPort_does ..)
    | extract_lets
    | fail_if_no_progress beta_reduce

theorem State.applyEnables_does (s : State) : Does [.log, .od, .ports, .cls, .store, .rep, .link, .fab, .net, .side, .out, .free] s (State.applyEnables s) := by
  unfold State.applyEnables
  repeat' first
    | exact rfl
    | with_reducible exact Does.refl _ _
    | with_reducible apply Does.step (h' := State.restPort_does ..)
    | with_reducible apply Does.step (h' := State.enablePort_does ..)
    | with_reducible apply Does.step (h' := State.disablePort_does ..)
    | with_reducible apply Does.ite
    | with_reducible apply Does.fold
    | intro _
    | extract_lets
    | fail_if_no_progress beta_reduce

theorem State.accept_does (s : State) (p : Nat) (gen : Nat) (edge : ℤ) (kind : Nat) (aux : Nat) (flags : Nat) (ident : Nat) (payload : List Byte) : Does [.log, .od, .ports, .cls, .store, .rep, .link, .fab, .net, .cel, .side, .out, .free] s (State.accept s p gen edge kind aux flags ident payload) := by
  unfold State.accept
  repeat' first
    | exact rfl
    | with_reducible exact Does.refl _ _
    | with_reducible apply Does.step (h' := State.endFrame_does ..)
    | with_reducible apply Does.step (h' := State.setPort_does ..)
    | with_reducible apply Does.step (h' := State.putRaw_does ..)
    | with_reducible apply Does.step (h' := State.healSides_does ..)
    | with_reducible apply Does.step (h' := State.readSides_does ..)
    | with_reducible apply Does.step (h' := State.dropNotices_does ..)
    | with_reducible apply Does.ite
    | intro _
    | extract_lets
    | fail_if_no_progress beta_reduce

theorem State.acceptAt_does (s : State) (p : Nat) (gen : Nat) (t : ℤ) (kind : Nat) (aux : Nat) (flags : Nat) (ident : Nat) (payload : List Byte) : Does [.log, .od, .ports, .cls, .store, .rep, .link, .fab, .net, .cel, .side, .out, .free] s (State.acceptAt s p gen t kind aux flags ident payload) := by
  unfold State.acceptAt
  repeat' first
    | exact rfl
    | with_reducible exact Does.refl _ _
    | with_reducible apply Does.step (h' := State.accept_does ..)
    | extract_lets
    | fail_if_no_progress beta_reduce

theorem State.acceptPin_does (s : State) (p : Nat) (e : Stamp) (kind : Nat) (aux : Nat) (flags : Nat) (ident : Nat) (payload : List Byte) : Does [.log, .od, .ports, .cls, .store, .rep, .link, .fab, .net, .cel, .side, .out, .free] s (State.acceptPin s p e kind aux flags ident payload) := by
  unfold State.acceptPin
  repeat' first
    | exact rfl
    | with_reducible exact Does.refl _ _
    | with_reducible apply Does.step (h' := State.acceptAt_does ..)
    | extract_lets
    | fail_if_no_progress beta_reduce

end Sys2Proof.Machine
end

