-- ==== Sys2Proof/Laws/DoesDictOps.lean ====
section
/-! SUPPORT. What each operation of Machine/DictOps.lean can do: the parts of the state it can touch, and what it keeps. -/

namespace Sys2Proof.Machine

theorem State.setBox_does (s : State) (k : Nat) (b : Mailbox) : Does [.acc] s (State.setBox s k b) := by
  unfold State.setBox
  repeat' first
    | exact rfl
    | with_reducible exact Does.refl _ _
    | extract_lets
    | fail_if_no_progress beta_reduce
    | with_reducible apply Does.step (h' := Does.set_acc ..)

theorem State.boxDone_does (s : State) (k : Nat) (code : Option (BitVec 32)) (data : List Byte) : Does [.acc, .out] s (State.boxDone s k code data) := by
  unfold State.boxDone
  repeat' first
    | exact rfl
    | with_reducible exact Does.refl _ _
    | with_reducible apply Does.step (h' := State.setBox_does ..)
    | with_reducible apply Does.step (h' := State.send_does ..)
    | with_reducible apply Does.ite
    | intro _
    | extract_lets
    | fail_if_no_progress beta_reduce

theorem State.canOwn_does (s : State) (ident : Nat) (data : List Byte) : Does [.rep] s (State.canOwn s ident data) := by
  unfold State.canOwn
  repeat' first
    | exact rfl
    | with_reducible exact Does.refl _ _
    | with_reducible apply Does.step (h' := State.setTx_does ..)
    | with_reducible apply Does.ite
    | intro _
    | extract_lets
    | fail_if_no_progress beta_reduce

theorem State.usdoAnswer_does (s : State) (code : Option (BitVec 32)) (data : List Byte) : Does [.rep, .free] s (State.usdoAnswer s code data) := by
  unfold State.usdoAnswer
  repeat' first
    | exact rfl
    | with_reducible exact Does.refl _ _
    | with_reducible apply Does.step (h' := State.canOwn_does ..)
    | extract_lets
    | fail_if_no_progress beta_reduce
    | with_reducible apply Does.step (h' := Does.set_free ..)

theorem State.recall_does (s : State) (idx : Nat) (sub : Nat) : Does [.acc] s (State.recall s idx sub) := by
  unfold State.recall
  repeat' first
    | exact rfl
    | with_reducible exact Does.refl _ _
    | split
    | extract_lets
    | fail_if_no_progress beta_reduce
    | with_reducible apply Does.step (h' := Does.set_acc ..)

theorem State.canOutcome_does (s : State) (code : Option (BitVec 32)) (data : List Byte) : Does [.acc, .rep, .out, .free] s (State.canOutcome s code data) := by
  unfold State.canOutcome
  repeat' first
    | exact rfl
    | with_reducible exact Does.refl _ _
    | with_reducible apply Does.step (h' := State.usdoAnswer_does ..)
    | with_reducible apply Does.step (h' := State.send_does ..)
    | with_reducible apply Does.ite
    | split
    | intro _
    | extract_lets
    | fail_if_no_progress beta_reduce
    | with_reducible apply Does.step (h' := Does.set_acc ..)

theorem State.mgmtAnswer_does (s : State) (node : Byte) (tag : Byte) (status : Nat) (data : List Byte) : Does [.fab, .out] s (State.mgmtAnswer s node tag status data) := by
  unfold State.mgmtAnswer
  repeat' first
    | exact rfl
    | with_reducible exact Does.refl _ _
    | with_reducible apply Does.step (h' := State.sendTo_does ..)
    | with_reducible refine Does.step ?_ (Does.fst (by assumption) (State.sendTo_does ..)) ?_
    | extract_lets
    | fail_if_no_progress beta_reduce

theorem State.outcome_does (s : State) (p : Path) (code : Option (BitVec 32)) (data : List Byte) : Does [.acc, .rep, .fab, .out, .free] s (State.outcome s p code data) := by
  unfold State.outcome
  repeat' first
    | exact rfl
    | with_reducible exact Does.refl _ _
    | with_reducible apply Does.step (h' := State.send_does ..)
    | with_reducible apply Does.step (h' := State.canOutcome_does ..)
    | with_reducible apply Does.step (h' := State.boxDone_does ..)
    | with_reducible apply Does.step (h' := State.mgmtAnswer_does ..)
    | split
    | extract_lets
    | fail_if_no_progress beta_reduce
    | with_reducible apply Does.step (h' := Does.set_acc ..)

theorem State.refuse_does (s : State) (p : Path) (idx : Nat) (sub : Nat) (val : Nat) (code : BitVec 32) : Does [.log, .od, .acc, .store, .rep, .link, .fab, .side, .out, .free] s (State.refuse s p idx sub val code) := by
  unfold State.refuse
  repeat' first
    | exact rfl
    | with_reducible exact Does.refl _ _
    | with_reducible apply Does.step (h' := State.logRefusal_does ..)
    | with_reducible apply Does.step (h' := State.outcome_does ..)
    | with_reducible apply Does.ite
    | intro _
    | extract_lets
    | fail_if_no_progress beta_reduce
    | with_reducible apply Does.step (h' := Does.set_acc ..)

theorem State.mgmtSend_does (s : State) (o : MgmtOut) : Does [.log, .od, .acc, .store, .rep, .link, .fab, .side, .out, .free] s (State.mgmtSend s o) := by
  unfold State.mgmtSend
  repeat' first
    | exact rfl
    | with_reducible exact Does.refl _ _
    | with_reducible apply Does.step (h' := State.refuse_does ..)
    | with_reducible apply Does.step (h' := State.sendTo_does ..)
    | with_reducible refine Does.step ?_ (Does.fst (by assumption) (State.sendTo_does ..)) ?_
    | with_reducible apply Does.ite
    | intro _
    | extract_lets
    | fail_if_no_progress beta_reduce
    | with_reducible apply Does.step (h' := Does.set_fab ..)

theorem State.owe_does (s : State) (idx : Nat) (sub : Nat) : Does [.acc] s (State.owe s idx sub) := by
  unfold State.owe
  repeat' first
    | exact rfl
    | with_reducible exact Does.refl _ _
    | split
    | extract_lets
    | fail_if_no_progress beta_reduce
    | with_reducible apply Does.step (h' := Does.set_acc ..)

theorem State.recallOn_does (s : State) (p : Path) (idx : Nat) (sub : Nat) : Does [.acc] s (State.recallOn s p idx sub) := by
  unfold State.recallOn
  repeat' first
    | exact rfl
    | with_reducible exact Does.refl _ _
    | with_reducible apply Does.step (h' := State.recall_does ..)
    | with_reducible apply Does.ite
    | intro _
    | extract_lets
    | fail_if_no_progress beta_reduce

theorem State.request_does (s : State) (p : Path) (write : Bool) (idx : Nat) (sub : Nat) (off : Nat) (want : Nat) (data : List Byte) (serve : State → State) {l : List Part} (hl : ([.log, .od, .acc, .store, .rep, .link, .fab, .side, .out, .free].all fun p => l.contains p) = true) (hf0 : ∀ t, Does l t (serve t)) : Does l s (State.request s p write idx sub off want data serve) := by
  unfold State.request
  repeat' first
    | exact rfl
    | with_reducible exact Does.refl _ _
    | exact Part.all_trans rfl hl
    | exact Part.all_self _
    | with_reducible apply Does.step (h' := hf0 ..)
    | with_reducible apply Does.step (h' := State.mgmtSend_does ..)
    | with_reducible apply Does.ite
    | split
    | intro _
    | extract_lets
    | fail_if_no_progress beta_reduce

theorem State.answer_does (s : State) (p : Path) (data : List Byte) : Does [.acc, .rep, .fab, .out, .free] s (State.answer s p data) := by
  unfold State.answer
  repeat' first
    | exact rfl
    | with_reducible exact Does.refl _ _
    | with_reducible apply Does.step (h' := State.outcome_does ..)
    | extract_lets
    | fail_if_no_progress beta_reduce

theorem State.refuseLog_does (s : State) (p : Path) (idx : Nat) (sub : Nat) (val : Nat) (code : BitVec 32) : Does [.log, .od, .acc, .store, .rep, .link, .fab, .side, .out, .free] s (State.refuseLog s p idx sub val code) := by
  unfold State.refuseLog
  repeat' first
    | exact rfl
    | with_reducible exact Does.refl _ _
    | with_reducible apply Does.step (h' := State.refuse_does ..)
    | with_reducible apply Does.step (h' := State.outcome_does ..)
    | with_reducible apply Does.step (h' := State.logRefusal_does ..)
    | with_reducible apply Does.ite
    | intro _
    | extract_lets
    | fail_if_no_progress beta_reduce

theorem State.requestRead_does (s : State) (p : Path) (idx : Nat) (sub : Nat) (serve : State → State) {l : List Part} (hl : ([.log, .od, .acc, .store, .rep, .link, .fab, .side, .out, .free].all fun p => l.contains p) = true) (hf0 : ∀ t, Does l t (serve t)) : Does l s (State.requestRead s p idx sub serve) := by
  unfold State.requestRead
  repeat' first
    | exact rfl
    | with_reducible exact Does.refl _ _
    | exact Part.all_trans rfl hl
    | exact Part.all_self _
    | with_reducible apply Does.step (h' := hf0 ..)
    | with_reducible apply Does.step (h' := State.request_does (l := l) (hl := Part.all_trans rfl hl) (hf0 := fun t => ?_) ..)
    | extract_lets
    | fail_if_no_progress beta_reduce
    | exact Does.refl _ _

theorem State.requestWrite_does (s : State) (p : Path) (idx : Nat) (sub : Nat) (data : List Byte) (serve : State → State) {l : List Part} (hl : ([.log, .od, .acc, .store, .rep, .link, .fab, .side, .out, .free].all fun p => l.contains p) = true) (hf0 : ∀ t, Does l t (serve t)) : Does l s (State.requestWrite s p idx sub data serve) := by
  unfold State.requestWrite
  repeat' first
    | exact rfl
    | with_reducible exact Does.refl _ _
    | exact Part.all_trans rfl hl
    | exact Part.all_self _
    | with_reducible apply Does.step (h' := hf0 ..)
    | with_reducible apply Does.step (h' := State.request_does (l := l) (hl := Part.all_trans rfl hl) (hf0 := fun t => ?_) ..)
    | extract_lets
    | fail_if_no_progress beta_reduce
    | exact Does.refl _ _

end Sys2Proof.Machine
end

