-- ==== Sys2Proof/Laws/DoesClassOps.lean ====
section
/-! SUPPORT. What each operation of Machine/ClassOps.lean can do: the parts of the state it can touch, and what it keeps. -/

namespace Sys2Proof.Machine

theorem State.putShadow_does (s : State) (b : Bank) : Does [.cls, .side] s (State.putShadow s b) := by
  unfold State.putShadow
  repeat' first
    | exact rfl
    | with_reducible exact Does.refl _ _
    | extract_lets
    | fail_if_no_progress beta_reduce
    | refine Does.any ⟨.inr rfl, .inr rfl, .inr rfl, .inr rfl, .inr rfl, .inr rfl, .inl rfl, .inr rfl, .inr rfl, .inr rfl, .inr rfl, .inr rfl, .inr rfl, .inr rfl, .inr rfl, .inr rfl, .inr rfl, .inl rfl, .inr rfl, .inr rfl, .inr rfl, .inr rfl, .inr rfl⟩ id id (List.prefix_refl _) (fun _ => rfl) (Fin.le_refl _) ?_

end Sys2Proof.Machine
end

