-- ==== Sys2Proof/Laws/DoesPods.lean ====
section
/-! SUPPORT. What each operation of Machine/Pods.lean can do: the parts of the state it can touch, and what it keeps. -/

namespace Sys2Proof.Machine

theorem State.loadLogged_does (s : State) (p : Nat) (id : Nat) : Does Part.logging s (State.loadLogged s p id) := by
  unfold State.loadLogged
  repeat' first
    | exact rfl
    | with_reducible exact Does.refl _ _
    | with_reducible apply Does.step (h' := State.put_does ..)
    | with_reducible apply Does.step (h' := State.logWide_does ..)
    | with_reducible apply Does.ite
    | intro _
    | extract_lets
    | fail_if_no_progress beta_reduce

theorem State.loadRegions_does (s : State) (p : Nat) (b : List Byte) : Does [.xbar] s (State.loadRegions s p b) := by
  unfold State.loadRegions
  repeat' first
    | exact rfl
    | with_reducible exact Does.refl _ _
    | with_reducible apply Does.ite
    | with_reducible apply Does.fold
    | split
    | intro _
    | extract_lets
    | fail_if_no_progress beta_reduce
    | with_reducible apply Does.step (h' := Does.set_xbar ..)

theorem State.resetRouter_does (s : State) (p : Nat) : Does [.od, .eng, .pods] s (State.resetRouter s p) := by
  unfold State.resetRouter
  repeat' first
    | exact rfl
    | with_reducible exact Does.refl _ _
    | with_reducible apply Does.step (h' := State.bumpBy_does ..)
    | with_reducible apply Does.step (h' := State.setPod_does ..)
    | with_reducible apply Does.ite
    | intro _
    | extract_lets
    | fail_if_no_progress beta_reduce
    | with_reducible apply Does.step (h' := Does.set_eng ..)

theorem State.drainEntry_does (s : State) (b : SbEntry) : Does [.mem, .cel] s (State.drainEntry s b) := by
  unfold State.drainEntry
  repeat' first
    | exact rfl
    | with_reducible exact Does.refl _ _
    | extract_lets
    | fail_if_no_progress beta_reduce
    | with_reducible apply Does.step (h' := Does.wrote ..)

theorem State.drainBuffer_does (s : State) (e : Nat) : Does [.mem, .cel] s (State.drainBuffer s e) := by
  unfold State.drainBuffer
  repeat' first
    | exact rfl
    | with_reducible exact Does.refl _ _
    | with_reducible apply Does.step (h' := State.drainEntry_does ..)
    | with_reducible apply Does.fold
    | intro _
    | extract_lets
    | fail_if_no_progress beta_reduce

theorem State.engineReset_does (s : State) (e : Nat) : Does [.od, .eng, .mem, .cel] s (State.engineReset s e) := by
  unfold State.engineReset
  repeat' first
    | exact rfl
    | with_reducible exact Does.refl _ _
    | with_reducible apply Does.step (h' := State.setEngine_does ..)
    | with_reducible apply Does.step (h' := State.drainBuffer_does ..)
    | with_reducible apply Does.step (h' := State.bumpBy_does ..)
    | with_reducible apply Does.ite
    | intro _
    | extract_lets
    | fail_if_no_progress beta_reduce

theorem State.setErst_does (s : State) (p : Nat) (v : BitVec 32) : Does [.od, .eng, .pods, .mem, .cel] s (State.setErst s p v) := by
  unfold State.setErst
  repeat' first
    | exact rfl
    | with_reducible exact Does.refl _ _
    | with_reducible apply Does.step (h' := State.engineReset_does ..)
    | with_reducible apply Does.step (h' := State.setPod_does ..)
    | with_reducible apply Does.ite
    | with_reducible apply Does.fold
    | intro _
    | extract_lets
    | fail_if_no_progress beta_reduce

theorem State.recodeLanes_does (s : State) (p : Nat) : Does [.store] s (State.recodeLanes s p) := by
  unfold State.recodeLanes
  repeat' first
    | exact rfl
    | with_reducible exact Does.refl _ _
    | with_reducible apply Does.ite
    | split
    | intro _
    | extract_lets
    | fail_if_no_progress beta_reduce
    | with_reducible apply Does.step (h' := Does.set_store ..)

theorem State.storesDone_does (s : State) (p : Nat) : Does [.eng] s (State.storesDone s p) := by
  unfold State.storesDone
  repeat' first
    | exact rfl
    | with_reducible exact Does.refl _ _
    | with_reducible apply Does.ite
    | intro _
    | extract_lets
    | fail_if_no_progress beta_reduce
    | with_reducible apply Does.step (h' := Does.set_eng ..)

theorem State.loadFailed_does (s : State) (p : Nat) (code : Nat) (sec : Nat) : Does Part.logging s (State.loadFailed s p code sec) := by
  unfold State.loadFailed
  repeat' first
    | exact rfl
    | with_reducible exact Does.refl _ _
    | with_reducible apply Does.step (h' := State.logE_does ..)
    | with_reducible apply Does.step (h' := State.put_does ..)
    | extract_lets
    | fail_if_no_progress beta_reduce

theorem State.loadSection_does (s : State) (p : Nat) (b : List Byte) (x : Section) : Does [.mem, .cel] s (State.loadSection s p b x) := by
  unfold State.loadSection
  repeat' first
    | exact rfl
    | with_reducible exact Does.refl _ _
    | with_reducible apply Does.ite
    | intro _
    | extract_lets
    | fail_if_no_progress beta_reduce
    | with_reducible apply Does.step (h' := Does.wrote ..)

theorem State.loadPod_does (s : State) (p : Nat) : Does [.log, .od, .store, .link, .eng, .pods, .xbar, .mem, .cel, .side, .free] s (State.loadPod s p) := by
  unfold State.loadPod
  repeat' first
    | exact rfl
    | with_reducible exact Does.refl _ _
    | with_reducible apply Does.step (h' := State.storesDone_does ..)
    | with_reducible apply Does.step (h' := State.setErst_does ..)
    | with_reducible apply Does.step (h' := State.setPod_does ..)
    | with_reducible apply Does.step (h' := State.loadFailed_does ..)
    | with_reducible apply Does.step (h' := State.loadSection_does ..)
    | with_reducible apply Does.step (h' := State.loadRegions_does ..)
    | with_reducible apply Does.step (h' := State.loadLogged_does ..)
    | with_reducible apply Does.ite
    | with_reducible apply Does.fold
    | intro _
    | extract_lets
    | fail_if_no_progress beta_reduce
    | with_reducible apply Does.step (h' := Does.set_mem (h := Memory.forget_wf _) ..)

theorem State.podResetWith_does (s : State) (p : Nat) (cause : Nat) (note : State → State) {l : List Part} (hl : ([.log, .od, .store, .link, .eng, .pods, .xbar, .mem, .cel, .side, .free].all fun p => l.contains p) = true) (hf0 : ∀ t, Does l t (note t)) : Does l s (State.podResetWith s p cause note) := by
  unfold State.podResetWith
  repeat' first
    | exact rfl
    | with_reducible exact Does.refl _ _
    | exact Part.all_trans rfl hl
    | exact Part.all_self _
    | with_reducible apply Does.step (h' := hf0 ..)
    | with_reducible apply Does.step (h' := State.resetRouter_does ..)
    | with_reducible apply Does.step (h' := State.setErst_does ..)
    | with_reducible apply Does.step (h' := State.recodeLanes_does ..)
    | with_reducible apply Does.step (h' := State.logE_does ..)
    | with_reducible apply Does.step (h' := State.bumpBy_does ..)
    | with_reducible apply Does.step (h' := State.setPod_does ..)
    | with_reducible apply Does.step (h' := State.loadPod_does ..)
    | with_reducible apply Does.ite
    | intro _
    | extract_lets
    | fail_if_no_progress beta_reduce
    | with_reducible apply Does.step (h' := Does.set_store ..)

theorem State.podReset_does (s : State) (p : Nat) (cause : Nat) : Does [.log, .od, .store, .link, .eng, .pods, .xbar, .mem, .cel, .side, .free] s (State.podReset s p cause) := by
  unfold State.podReset
  repeat' first
    | exact rfl
    | with_reducible exact Does.refl _ _
    | with_reducible apply Does.step (h' := State.podResetWith_does (l := [.log, .od, .store, .link, .eng, .pods, .xbar, .mem, .cel, .side, .free]) (hl := rfl) (hf0 := fun t => ?_) ..)
    | extract_lets
    | fail_if_no_progress beta_reduce
    | exact Does.refl _ _

theorem State.freeCause_does (s : State) : Does [.free] s (State.freeCause s).2 := by
  unfold State.freeCause
  repeat' first
    | exact rfl
    | with_reducible exact Does.refl _ _
    | with_reducible apply Does.step (h' := State.draw_does ..)
    | with_reducible refine Does.step ?_ (Does.snd (by assumption) (State.draw_does ..)) ?_
    | extract_lets
    | fail_if_no_progress beta_reduce

end Sys2Proof.Machine
end

