-- ==== Sys2Proof/Laws/DoesResets.lean ====
section
/-! SUPPORT. What each operation of Machine/Resets.lean can do: the parts of the state it can touch, and what it keeps. -/

namespace Sys2Proof.Machine

theorem State.noteRead_does (s : State) (a : Nat) (r : RowRead) : Does [.od, .mem, .cel] s (State.noteRead s a r) := by
  unfold State.noteRead
  repeat' first
    | exact rfl
    | with_reducible exact Does.refl _ _
    | with_reducible apply Does.step (h' := State.bump_does ..)
    | with_reducible apply Does.ite
    | intro _
    | extract_lets
    | fail_if_no_progress beta_reduce
    | with_reducible apply Does.step (h' := Does.set_mem (h := Memory.listRow_wf _) ..)

theorem State.logMemory_does (s : State) (mac : Nat) (row : Nat) (place : Nat) (c : BitVec 13) : Does Part.logging s (State.logMemory s mac row place c) := by
  unfold State.logMemory
  repeat' first
    | exact rfl
    | with_reducible exact Does.refl _ _
    | with_reducible apply Does.step (h' := State.logX_does ..)
    | extract_lets
    | fail_if_no_progress beta_reduce

theorem State.warmReset_does (s : State) (cause : Nat) : Does Part.core s (State.warmReset s cause) := by
  unfold State.warmReset
  refine Does.step ?_ (State.logE_does ..) rfl
  exact ⟨fun p hp => by cases p; (case test | out => rfl); all_goals exact (hp (by decide)).elim, rfl, fun h => Memory.wf_filter _ rfl h, id,
    List.prefix_refl _, fun _ => rfl, Fin.le_refl _⟩

theorem State.memFailed_does (s : State) (f : RowFail) : Does Part.core s (State.memFailed s f) := by
  unfold State.memFailed
  repeat' first
    | exact rfl
    | with_reducible exact Does.refl _ _
    | with_reducible apply Does.step (h' := State.logMemory_does ..)
    | with_reducible apply Does.step (h' := State.bumpBy_does ..)
    | with_reducible apply Does.step (h' := State.podReset_does ..)
    | with_reducible apply Does.step (h' := State.warmReset_does ..)
    | split
    | extract_lets
    | fail_if_no_progress beta_reduce

theorem State.readMem_does (s : State) (a : Nat) (n : Nat) : Does Part.core s (State.readMem s a n).1 := by
  unfold State.readMem
  repeat' first
    | exact rfl
    | with_reducible exact Does.refl _ _
    | with_reducible apply Does.step (h' := State.noteRead_does ..)
    | with_reducible apply Does.step (h' := State.memFailed_does ..)
    | split
    | extract_lets
    | fail_if_no_progress beta_reduce

theorem State.powerOn_does (s : State) : Does [.tb, .log, .sess, .od, .acc, .ports, .cls, .store, .rep, .link, .fab, .sw, .eng, .pods, .net, .xbar, .mem, .cel, .side, .pst, .pwr, .test] s (State.powerOn s) :=
  ⟨fun p hp => by cases p; (case out | free => rfl); all_goals exact (hp (by decide)).elim, rfl, fun _ => Memory.wf_nil rfl,
    fun _ => EventLog.wf_one _ _ _ _ _ _ _ _, List.prefix_refl _, fun _ => rfl, Fin.le_refl _⟩

theorem State.dramFailed_does (s : State) (master : Nat) (a : Nat) : Does Part.core s (State.dramFailed s master a) := by
  unfold State.dramFailed
  repeat' first
    | exact rfl
    | with_reducible exact Does.refl _ _
    | with_reducible apply Does.step (h' := State.bumpBy_does ..)
    | with_reducible apply Does.step (h' := State.warmReset_does ..)
    | with_reducible apply Does.step (h' := State.logCount_does ..)
    | with_reducible apply Does.ite
    | intro _
    | extract_lets
    | fail_if_no_progress beta_reduce

theorem State.mergeLine_does (s : State) (inj : Option Nat) (a : Nat) (n : Nat) (g : List Byte → List Byte) : Does Part.core s (State.mergeLine s inj a n g).1 := by
  unfold State.mergeLine
  repeat' first
    | exact rfl
    | with_reducible exact Does.refl _ _
    | with_reducible apply Does.step (h' := State.noteRead_does ..)
    | with_reducible apply Does.step (h' := State.memFailed_does ..)
    | split
    | extract_lets
    | fail_if_no_progress beta_reduce
    | with_reducible apply Does.step (h' := Does.set_mem (h := Memory.writeLine_wf _ _ _ _) ..)

theorem State.writeMem_does (s : State) (inj : Option Nat) (a : Nat) (l : List Byte) : Does Part.core s (State.writeMem s inj a l).1 := by
  unfold State.writeMem
  repeat' first
    | exact rfl
    | with_reducible exact Does.refl _ _
    | with_reducible apply Does.step (h' := State.mergeLine_does ..)
    | with_reducible refine Does.step ?_ (Does.fst (by assumption) (State.mergeLine_does ..)) ?_
    | split
    | intro _
    | extract_lets
    | fail_if_no_progress beta_reduce
    | with_reducible apply Does.step (h' := Does.wrote ..)
    | with_reducible apply Does.step (h' := Does.set_mem (h := Memory.writeLine_wf _ _ _ _) ..)

theorem State.putBlock_does (s : State) (b : Nat) (l : List Byte) : Does [.mem, .cel] s (State.putBlock s b l) :=
  (Does.set_mem _ _ (Memory.putBlock_wf b l)).weaken rfl

theorem State.readBlock_does (s : State) (b : Nat) : Does [.od, .free] s (State.readBlock s b).1 := by
  unfold State.readBlock
  repeat' first
    | exact rfl
    | with_reducible exact Does.refl _ _
    | with_reducible apply Does.step (h' := State.bump_does ..)
    | split
    | split
    | intro _
    | extract_lets
    | fail_if_no_progress beta_reduce
    | with_reducible apply Does.step (h' := Does.set_free ..)

theorem State.writeDram_does (s : State) (a : Nat) (l : List Byte) (k3 : Nat) : Does [.od, .mem, .cel, .free] s (State.writeDram s a l k3).1 := by
  induction k3 generalizing s a l with
  | zero =>
    unfold State.writeDram
    repeat' first
      | exact rfl
      | with_reducible exact Does.refl _ _
      | with_reducible apply Does.step (h' := ih ..)
      | with_reducible refine Does.step ?_ (Does.fst (by assumption) (ih ..)) ?_
      | with_reducible apply Does.step (h' := State.putBlock_does ..)
      | with_reducible apply Does.step (h' := State.readBlock_does ..)
      | with_reducible refine Does.step ?_ (Does.fst (by assumption) (State.readBlock_does ..)) ?_
      | split
      | split
      | intro _
      | extract_lets
      | fail_if_no_progress beta_reduce
  | succ k ih =>
    unfold State.writeDram
    repeat' first
      | exact rfl
      | with_reducible exact Does.refl _ _
      | with_reducible apply Does.step (h' := ih ..)
      | with_reducible refine Does.step ?_ (Does.fst (by assumption) (ih ..)) ?_
      | with_reducible apply Does.step (h' := State.putBlock_does ..)
      | with_reducible apply Does.step (h' := State.readBlock_does ..)
      | with_reducible refine Does.step ?_ (Does.fst (by assumption) (State.readBlock_does ..)) ?_
      | split
      | split
      | intro _
      | extract_lets
      | fail_if_no_progress beta_reduce

theorem State.readDram_does (s : State) (a : Nat) (n : Nat) (k3 : Nat) : Does [.od, .free] s (State.readDram s a n k3).1 := by
  induction k3 generalizing s a n with
  | zero =>
    unfold State.readDram
    repeat' first
      | exact rfl
      | with_reducible exact Does.refl _ _
      | with_reducible apply Does.step (h' := ih ..)
      | with_reducible refine Does.step ?_ (Does.fst (by assumption) (ih ..)) ?_
      | with_reducible apply Does.step (h' := State.readBlock_does ..)
      | with_reducible refine Does.step ?_ (Does.fst (by assumption) (State.readBlock_does ..)) ?_
      | split
      | split
      | intro _
      | extract_lets
      | fail_if_no_progress beta_reduce
  | succ k ih =>
    unfold State.readDram
    repeat' first
      | exact rfl
      | with_reducible exact Does.refl _ _
      | with_reducible apply Does.step (h' := ih ..)
      | with_reducible refine Does.step ?_ (Does.fst (by assumption) (ih ..)) ?_
      | with_reducible apply Does.step (h' := State.readBlock_does ..)
      | with_reducible refine Does.step ?_ (Does.fst (by assumption) (State.readBlock_does ..)) ?_
      | split
      | split
      | intro _
      | extract_lets
      | fail_if_no_progress beta_reduce

theorem State.sideFailed_does (s : State) (r : SideRow) : Does Part.core s (State.sideFailed s r) := by
  unfold State.sideFailed
  repeat' first
    | exact rfl
    | with_reducible exact Does.refl _ _
    | with_reducible apply Does.step (h' := State.warmReset_does ..)
    | with_reducible apply Does.step (h' := State.logMemory_does ..)
    | with_reducible apply Does.step (h' := State.bumpBy_does ..)
    | extract_lets
    | fail_if_no_progress beta_reduce

theorem State.writeAlias_does (s : State) (inj : Option Nat) (op : Nat) (a : Nat) (l : List Byte) : Does Part.core s (State.writeAlias s inj op a l).1 := by
  unfold State.writeAlias
  repeat' first
    | exact rfl
    | with_reducible exact Does.refl _ _
    | with_reducible apply Does.step (h' := State.writeMem_does ..)
    | with_reducible refine Does.step ?_ (Does.fst (by assumption) (State.writeMem_does ..)) ?_
    | with_reducible apply Does.step (h' := State.mergeLine_does ..)
    | with_reducible refine Does.step ?_ (Does.fst (by assumption) (State.mergeLine_does ..)) ?_
    | with_reducible apply Does.step (h' := State.readMem_does ..)
    | with_reducible refine Does.step ?_ (Does.fst (by assumption) (State.readMem_does ..)) ?_
    | split
    | split
    | intro _
    | extract_lets
    | fail_if_no_progress beta_reduce

theorem State.coldReset_does (s : State) (cause : Nat) : Does [.tb, .log, .sess, .od, .acc, .ports, .cls, .store, .rep, .link, .fab, .sw, .eng, .pods, .net, .xbar, .mem, .cel, .side, .pst, .pwr] s (State.coldReset s cause) :=
  ⟨fun p hp => by cases p; (case test | out | free => rfl); all_goals exact (hp (by decide)).elim, rfl, fun h => Memory.wf_filter _ rfl h,
    fun _ => by simpa [State.coldReset] using EventLog.wf_one _ 0 _ _ _ _ _ _, List.prefix_refl _, fun _ => rfl, Fin.le_refl _⟩

end Sys2Proof.Machine
end

