-- ==== Sys2Proof/Laws/DoesClassify.lean ====
section
/-! SUPPORT. What each operation of Machine/Classify.lean can do: the parts of the state it can touch, and what it keeps. -/

namespace Sys2Proof.Machine

theorem State.emitSample_does (s : State) (e : Nat) (r : List Byte) : Does [.log, .od, .cls, .store, .link, .fab, .pods, .side, .out, .free] s (State.emitSample s e r) := by
  unfold State.emitSample
  repeat' first
    | exact rfl
    | with_reducible exact Does.refl _ _
    | with_reducible apply Does.step (h' := State.deliver_does ..)
    | with_reducible apply Does.step (h' := State.stage_does ..)
    | with_reducible apply Does.step (h' := State.exportRecord_does ..)
    | with_reducible apply Does.ite
    | intro _
    | extract_lets
    | fail_if_no_progress beta_reduce

theorem State.setLast_does (s : State) (n : Nat) (key : BitVec 52) : Does [.cls, .side] s (State.setLast s n key) := by
  unfold State.setLast
  repeat' first
    | exact rfl
    | with_reducible exact Does.refl _ _
    | with_reducible apply Does.step (h' := State.healSide_does ..)
    | extract_lets
    | fail_if_no_progress beta_reduce
    | with_reducible apply Does.step (h' := Does.set_cls ..)

theorem State.siftOne_does (s : State) (r : List Byte) (base : Nat) (era : Nat) (n : Nat) (e : Nat) : Does [.log, .od, .cls, .store, .link, .fab, .pods, .cel, .side, .out, .free] s (State.siftOne s r base era n e) := by
  unfold State.siftOne
  repeat' first
    | exact rfl
    | with_reducible exact Does.refl _ _
    | with_reducible apply Does.step (h' := State.draw_does ..)
    | with_reducible refine Does.step ?_ (Does.snd (by assumption) (State.draw_does ..)) ?_
    | with_reducible apply Does.step (h' := State.bump_does ..)
    | with_reducible apply Does.step (h' := State.readSides_does ..)
    | with_reducible apply Does.step (h' := State.emitSample_does ..)
    | with_reducible apply Does.step (h' := State.setLast_does ..)
    | with_reducible apply Does.ite
    | split
    | intro _
    | extract_lets
    | fail_if_no_progress beta_reduce

theorem State.skipFrame_does (s : State) : Does [.log, .od, .cls, .store, .link, .side, .free] s (State.skipFrame s) := by
  unfold State.skipFrame
  repeat' first
    | exact rfl
    | with_reducible exact Does.refl _ _
    | with_reducible apply Does.step (h' := State.bump_does ..)
    | with_reducible apply Does.step (h' := State.logCount_does ..)
    | with_reducible apply Does.ite
    | intro _
    | extract_lets
    | fail_if_no_progress beta_reduce
    | with_reducible apply Does.step (h' := Does.set_cls ..)

theorem State.lookUp_does (s : State) (c : ClassIn) (key : Nat) : Does [.od, .cls, .side] s (State.lookUp s c key) := by
  unfold State.lookUp
  repeat' first
    | exact rfl
    | with_reducible exact Does.refl _ _
    | with_reducible apply Does.step (h' := State.bump_does ..)
    | with_reducible apply Does.step (h' := State.healSides_does ..)
    | with_reducible apply Does.ite
    | split
    | intro _
    | extract_lets
    | fail_if_no_progress beta_reduce
    | with_reducible apply Does.step (h' := Does.set_cls ..)

theorem State.classifyOne_does (s : State) (c : ClassIn) : Does Part.core s (State.classifyOne s c) := by
  unfold State.classifyOne
  repeat' first
    | exact rfl
    | with_reducible exact Does.refl _ _
    | with_reducible apply Does.step (h' := State.skipFrame_does ..)
    | with_reducible apply Does.step (h' := State.bump_does ..)
    | with_reducible apply Does.step (h' := State.readSides_does ..)
    | with_reducible apply Does.step (h' := State.sideFailed_does ..)
    | with_reducible apply Does.step (h' := State.lookUp_does ..)
    | with_reducible apply Does.ite
    | split
    | intro _
    | extract_lets
    | fail_if_no_progress beta_reduce

theorem State.classifyPort_does (s : State) (p : Nat) : Does Part.core s (State.classifyPort s p) := by
  unfold State.classifyPort
  repeat' first
    | exact rfl
    | with_reducible exact Does.refl _ _
    | with_reducible apply Does.step (h' := State.sampleWrap_does ..)
    | with_reducible apply Does.step (h' := State.classifyOne_does ..)
    | split
    | extract_lets
    | fail_if_no_progress beta_reduce
    | with_reducible apply Does.step (h' := Does.set_cls ..)

theorem execClassifyFrame_does {port : PortN} {s : State} {t : State} (h : execClassifyFrame port s = .next t) : Does Part.core s t := by
  unfold execClassifyFrame at h
  cases h
  repeat' first
    | exact rfl
    | with_reducible exact Does.refl _ _
    | with_reducible apply Does.step (h' := State.classifyPort_does ..)
    | extract_lets
    | fail_if_no_progress beta_reduce

theorem State.copyDone_does (s0 : State) : Does Part.core s0 (State.copyDone s0) := by
  unfold State.copyDone
  repeat' first
    | exact rfl
    | with_reducible exact Does.refl _ _
    | with_reducible apply Does.step (h' := State.readSides_does ..)
    | with_reducible apply Does.step (h' := State.sideFailed_does ..)
    | with_reducible apply Does.step (h' := State.putShadow_does ..)
    | with_reducible apply Does.step (h' := State.put_does ..)
    | with_reducible apply Does.ite
    | split
    | intro _
    | extract_lets
    | fail_if_no_progress beta_reduce
    | with_reducible apply Does.step (h' := Does.set_cls ..)

theorem execTableCopyComplete_does {s : State} {t : State} (h : execTableCopyComplete s = .next t) : Does Part.core s t := by
  unfold execTableCopyComplete at h
  cases h
  repeat' first
    | exact rfl
    | with_reducible exact Does.refl _ _
    | with_reducible apply Does.step (h' := State.copyDone_does ..)
    | extract_lets
    | fail_if_no_progress beta_reduce

theorem State.publishCheck_does (s : State) (f : Option CheckFail) : Does [.od] s (State.publishCheck s f) := by
  unfold State.publishCheck
  repeat' first
    | exact rfl
    | with_reducible exact Does.refl _ _
    | with_reducible apply Does.step (h' := State.put_does ..)
    | extract_lets
    | fail_if_no_progress beta_reduce

theorem State.wCopyTables_does (s : State) (p : Path) (v : Nat) : Does [.log, .od, .acc, .cls, .store, .rep, .link, .fab, .side, .out, .free] s (State.wCopyTables s p v) := by
  unfold State.wCopyTables
  repeat' first
    | exact rfl
    | with_reducible exact Does.refl _ _
    | with_reducible apply Does.step (h' := State.refuse_does ..)
    | with_reducible apply Does.step (h' := State.refuseLog_does ..)
    | with_reducible apply Does.step (h' := State.answer_does ..)
    | with_reducible apply Does.step (h' := State.put_does ..)
    | with_reducible apply Does.ite
    | intro _
    | extract_lets
    | fail_if_no_progress beta_reduce
    | with_reducible apply Does.step (h' := Does.set_cls ..)

theorem execCopyActiveToShadow_does {path : Path} {v : Byte} {s : State} {t : State} (h : execCopyActiveToShadow path v s = .next t) : Does [.log, .od, .acc, .cls, .store, .rep, .link, .fab, .side, .out, .free] s t := by
  unfold execCopyActiveToShadow at h
  cases h
  repeat' first
    | exact rfl
    | with_reducible exact Does.refl _ _
    | with_reducible apply Does.step (h' := State.requestWrite_does (l := [.log, .od, .acc, .cls, .store, .rep, .link, .fab, .side, .out, .free]) (hl := rfl) (hf0 := fun t => ?_) ..)
    | with_reducible apply Does.step (h' := State.wCopyTables_does ..)
    | extract_lets
    | fail_if_no_progress beta_reduce
    | exact Does.refl _ _

theorem State.storeEntry_does (s : State) (idx : Nat) (sub : Nat) (v : Nat) : Does [.od, .cls, .side] s (State.storeEntry s idx sub v) := by
  unfold State.storeEntry
  repeat' first
    | exact rfl
    | with_reducible exact Does.refl _ _
    | with_reducible apply Does.step (h' := State.healSide_does ..)
    | with_reducible apply Does.step (h' := State.put_does ..)
    | with_reducible apply Does.ite
    | intro _
    | extract_lets
    | fail_if_no_progress beta_reduce
    | with_reducible apply Does.step (h' := Does.set_cls ..)

theorem State.wWindow_does (s : State) (p : Path) (idx : Nat) (sub : Nat) (data : List Byte) : Does [.log, .od, .acc, .cls, .store, .rep, .link, .fab, .side, .out, .free] s (State.wWindow s p idx sub data) := by
  unfold State.wWindow
  repeat' first
    | exact rfl
    | with_reducible exact Does.refl _ _
    | with_reducible apply Does.step (h' := State.refuse_does ..)
    | with_reducible apply Does.step (h' := State.refuseLog_does ..)
    | with_reducible apply Does.step (h' := State.answer_does ..)
    | with_reducible apply Does.step (h' := State.storeEntry_does ..)
    | with_reducible apply Does.ite
    | split
    | intro _
    | extract_lets
    | fail_if_no_progress beta_reduce

theorem execTableWindowWrite_does {path : Path} {idx : BitVec 16} {sub : Byte} {data : List Byte} {s : State} {t : State} (h : execTableWindowWrite path idx sub data s = .next t) : Does [.log, .od, .acc, .cls, .store, .rep, .link, .fab, .side, .out, .free] s t := by
  unfold execTableWindowWrite at h
  cases h
  repeat' first
    | exact rfl
    | with_reducible exact Does.refl _ _
    | with_reducible apply Does.step (h' := State.requestWrite_does (l := [.log, .od, .acc, .cls, .store, .rep, .link, .fab, .side, .out, .free]) (hl := rfl) (hf0 := fun t => ?_) ..)
    | with_reducible apply Does.step (h' := State.wWindow_does ..)
    | extract_lets
    | fail_if_no_progress beta_reduce
    | exact Does.refl _ _

theorem State.checkDone_does (s0 : State) : Does [.log, .od, .acc, .cls, .store, .rep, .link, .fab, .cel, .side, .out, .free] s0 (State.checkDone s0) := by
  unfold State.checkDone
  split
  · exact Does.refl _ _
  · extract_lets s f c s1
    have h0 : Does [.log, .od, .acc, .cls, .store, .rep, .link, .fab, .cel, .side, .out, .free] s0 s := (State.readSides_does ..).weaken rfl
    have h : Does [.log, .od, .acc, .cls, .store, .rep, .link, .fab, .cel, .side, .out, .free] s0 s1 := ((h0.step (Does.set_cls _ { s.cls with checking := none }) rfl).step (State.publishCheck_does ..) rfl).step (State.recall_does ..) rfl
    clear_value s1 f
    split
    · exact (h.step (Does.set_cls ..) rfl).step (State.answer_does ..) rfl
    · exact h.step (State.refuse_does ..) rfl

theorem execTableCheckComplete_does {s : State} {t : State} (h : execTableCheckComplete s = .next t) : Does [.log, .od, .acc, .cls, .store, .rep, .link, .fab, .cel, .side, .out, .free] s t := by
  unfold execTableCheckComplete at h
  cases h
  repeat' first
    | exact rfl
    | with_reducible exact Does.refl _ _
    | with_reducible apply Does.step (h' := State.checkDone_does ..)
    | extract_lets
    | fail_if_no_progress beta_reduce

theorem State.sift_does (s : State) : Does [.log, .od, .cls, .store, .link, .fab, .pods, .cel, .side, .out, .free] s (State.sift s) := by
  unfold State.sift
  repeat' first
    | exact rfl
    | with_reducible exact Does.refl _ _
    | with_reducible apply Does.step (h' := State.readSides_does ..)
    | with_reducible apply Does.step (h' := State.sampleWrap_does ..)
    | with_reducible apply Does.step (h' := State.skipFrame_does ..)
    | with_reducible apply Does.step (h' := State.healSides_does ..)
    | with_reducible apply Does.step (h' := State.deliver_does ..)
    | with_reducible apply Does.step (h' := State.siftOne_does ..)
    | with_reducible apply Does.ite
    | with_reducible apply Does.fold
    | split
    | intro _
    | extract_lets
    | fail_if_no_progress beta_reduce
    | with_reducible apply Does.step (h' := Does.set_cls ..)

theorem execSiftFrame_does {s : State} {t : State} (h : execSiftFrame s = .next t) : Does [.log, .od, .cls, .store, .link, .fab, .pods, .cel, .side, .out, .free] s t := by
  unfold execSiftFrame at h
  cases h
  repeat' first
    | exact rfl
    | with_reducible exact Does.refl _ _
    | with_reducible apply Does.step (h' := State.sift_does ..)
    | extract_lets
    | fail_if_no_progress beta_reduce

theorem State.wCommitTables_does (s : State) (p : Path) (v : Nat) : Does [.log, .od, .acc, .cls, .store, .rep, .link, .fab, .side, .out, .free] s (State.wCommitTables s p v) := by
  unfold State.wCommitTables
  repeat' first
    | exact rfl
    | with_reducible exact Does.refl _ _
    | with_reducible apply Does.step (h' := State.refuse_does ..)
    | with_reducible apply Does.step (h' := State.refuseLog_does ..)
    | with_reducible apply Does.step (h' := State.owe_does ..)
    | with_reducible apply Does.ite
    | intro _
    | extract_lets
    | fail_if_no_progress beta_reduce
    | with_reducible apply Does.step (h' := Does.set_cls ..)

theorem execCommitShadowTables_does {path : Path} {v : Byte} {s : State} {t : State} (h : execCommitShadowTables path v s = .next t) : Does [.log, .od, .acc, .cls, .store, .rep, .link, .fab, .side, .out, .free] s t := by
  unfold execCommitShadowTables at h
  cases h
  repeat' first
    | exact rfl
    | with_reducible exact Does.refl _ _
    | with_reducible apply Does.step (h' := State.requestWrite_does (l := [.log, .od, .acc, .cls, .store, .rep, .link, .fab, .side, .out, .free]) (hl := rfl) (hf0 := fun t => ?_) ..)
    | with_reducible apply Does.step (h' := State.wCommitTables_does ..)
    | extract_lets
    | fail_if_no_progress beta_reduce
    | exact Does.refl _ _

end Sys2Proof.Machine
end

