-- ==== Sys2Proof/Laws/DoesTransmit.lean ====
section
/-! SUPPORT. What each operation of Machine/Transmit.lean can do: the parts of the state it can touch, and what it keeps. -/

namespace Sys2Proof.Machine

theorem State.recordSent_does (s : State) (p : Nat) (w : Sending) (e : Stamp) (aux : Nat) (more : Nat) (payload : List Byte) : Does [.log, .od, .ports, .cls, .store, .rep, .link, .fab, .net, .cel, .side, .out, .free] s (State.recordSent s p w e aux more payload) := by
  unfold State.recordSent
  repeat' first
    | exact rfl
    | with_reducible exact Does.refl _ _
    | with_reducible apply Does.step (h' := State.bump_does ..)
    | with_reducible apply Does.step (h' := State.acceptAt_does ..)
    | with_reducible apply Does.ite
    | intro _
    | extract_lets
    | fail_if_no_progress beta_reduce

end Sys2Proof.Machine
end

