-- ==== Sys2Proof/Laws/DoesPorts.lean ====
section
/-! SUPPORT. What each operation of Machine/Ports.lean can do: the parts of the state it can touch, and what it keeps. -/

namespace Sys2Proof.Machine

theorem State.busEvent_does (s : State) (p : Nat) (e : Stamp) (code : Nat) (field : Nat) (ident : Nat) (pos : Nat) (more : Nat) (bytes : List Byte) : Does [.log, .od, .ports, .cls, .store, .rep, .link, .fab, .net, .cel, .side, .out, .free] s (State.busEvent s p e code field ident pos more bytes) := by
  unfold State.busEvent
  repeat' first
    | exact rfl
    | with_reducible exact Does.refl _ _
    | with_reducible apply Does.step (h' := State.acceptPin_does ..)
    | with_reducible apply Does.ite
    | intro _
    | extract_lets
    | fail_if_no_progress beta_reduce

theorem State.canErrorFrame_does (s : State) (p : Nat) (e : Stamp) : Does [.out] s (State.canErrorFrame s p e) := by
  unfold State.canErrorFrame
  repeat' first
    | exact rfl
    | with_reducible exact Does.refl _ _
    | with_reducible apply Does.step (h' := State.send_does ..)
    | with_reducible apply Does.ite
    | intro _
    | extract_lets
    | fail_if_no_progress beta_reduce

theorem State.xlRefused_does (s : State) (p : Nat) (e : Stamp) (ident : Nat) : Does [.log, .od, .ports, .cls, .store, .rep, .link, .fab, .net, .cel, .side, .out, .free] s (State.xlRefused s p e ident) := by
  unfold State.xlRefused
  repeat' first
    | exact rfl
    | with_reducible exact Does.refl _ _
    | with_reducible apply Does.step (h' := State.draw_does ..)
    | with_reducible refine Does.step ?_ (Does.snd (by assumption) (State.draw_does ..)) ?_
    | with_reducible apply Does.step (h' := State.busEvent_does ..)
    | with_reducible apply Does.step (h' := State.setPort_does ..)
    | with_reducible apply Does.step (h' := State.canErrorFrame_does ..)
    | with_reducible apply Does.ite
    | intro _
    | extract_lets
    | fail_if_no_progress beta_reduce

theorem State.canAck_does (s : State) (p : Nat) (e : Stamp) : Does [.out] s (State.canAck s p e) := by
  unfold State.canAck
  repeat' first
    | exact rfl
    | with_reducible exact Does.refl _ _
    | with_reducible apply Does.step (h' := State.send_does ..)
    | with_reducible apply Does.ite
    | intro _
    | extract_lets
    | fail_if_no_progress beta_reduce

theorem State.canReceive_does (s : State) (p : Nat) (e : Stamp) (f : CanFrame) : Does [.tb, .log, .od, .ports, .cls, .store, .rep, .link, .fab, .net, .cel, .side, .out, .free] s (State.canReceive s p e f) := by
  unfold State.canReceive
  repeat' first
    | exact rfl
    | with_reducible exact Does.refl _ _
    | with_reducible apply Does.step (h' := State.reach_does ..)
    | with_reducible apply Does.step (h' := State.xlRefused_does ..)
    | with_reducible apply Does.step (h' := State.setPort_does ..)
    | with_reducible apply Does.step (h' := State.canAck_does ..)
    | with_reducible apply Does.step (h' := State.acceptPin_does ..)
    | with_reducible apply Does.ite
    | intro _
    | extract_lets
    | fail_if_no_progress beta_reduce

theorem execCanFrameReceived_does {port : Fin 96} {edge : Stamp} {frame : CanFrame} {s : State} {t : State} (h : execCanFrameReceived port edge frame s = .next t) : Does [.tb, .log, .od, .ports, .cls, .store, .rep, .link, .fab, .net, .cel, .side, .out, .free] s t := by
  unfold execCanFrameReceived at h
  cases h
  repeat' first
    | exact rfl
    | with_reducible exact Does.refl _ _
    | with_reducible apply Does.step (h' := State.canReceive_does ..)
    | extract_lets
    | fail_if_no_progress beta_reduce

theorem State.busOffRecover_does (s : State) (p : Nat) (e : Stamp) : Does [.tb, .log, .od, .ports, .cls, .store, .rep, .link, .fab, .net, .cel, .side, .out, .free] s (State.busOffRecover s p e) := by
  unfold State.busOffRecover
  repeat' first
    | exact rfl
    | with_reducible exact Does.refl _ _
    | with_reducible apply Does.step (h' := State.reach_does ..)
    | with_reducible apply Does.step (h' := State.setPort_does ..)
    | with_reducible apply Does.step (h' := State.logE_does ..)
    | with_reducible apply Does.step (h' := State.busEvent_does ..)
    | with_reducible apply Does.ite
    | intro _
    | extract_lets
    | fail_if_no_progress beta_reduce

theorem State.psi5Receive_does (s : State) (p : Nat) (e : Stamp) (f : Psi5Frame) : Does [.tb, .log, .od, .ports, .cls, .store, .rep, .link, .fab, .net, .cel, .side, .out, .free] s (State.psi5Receive s p e f) := by
  unfold State.psi5Receive
  repeat' first
    | exact rfl
    | with_reducible exact Does.refl _ _
    | with_reducible apply Does.step (h' := State.reach_does ..)
    | with_reducible apply Does.step (h' := State.acceptPin_does ..)
    | with_reducible apply Does.ite
    | intro _
    | extract_lets
    | fail_if_no_progress beta_reduce

theorem State.smpReceive_does (s : State) (p : Nat) (e : Stamp) (lines : List (List (BitVec 32))) : Does [.tb, .log, .od, .ports, .cls, .store, .rep, .link, .fab, .net, .cel, .side, .out, .free] s (State.smpReceive s p e lines) := by
  unfold State.smpReceive
  repeat' first
    | exact rfl
    | with_reducible exact Does.refl _ _
    | with_reducible apply Does.step (h' := State.setPort_does ..)
    | with_reducible apply Does.step (h' := State.reach_does ..)
    | with_reducible apply Does.step (h' := State.acceptPin_does ..)
    | with_reducible apply Does.ite
    | intro _
    | extract_lets
    | fail_if_no_progress beta_reduce

theorem State.sentReceive_does (s : State) (p : Nat) (e : Stamp) (f : SentFrame) : Does [.tb, .log, .od, .ports, .cls, .store, .rep, .link, .fab, .net, .cel, .side, .out, .free] s (State.sentReceive s p e f) := by
  unfold State.sentReceive
  repeat' first
    | exact rfl
    | with_reducible exact Does.refl _ _
    | with_reducible apply Does.step (h' := State.reach_does ..)
    | with_reducible apply Does.step (h' := State.acceptPin_does ..)
    | with_reducible apply Does.ite
    | intro _
    | extract_lets
    | fail_if_no_progress beta_reduce

theorem execSentFrameReceived_does {lsp : Fin 32} {edge : Stamp} {frame : SentFrame} {s : State} {t : State} (h : execSentFrameReceived lsp edge frame s = .next t) : Does [.tb, .log, .od, .ports, .cls, .store, .rep, .link, .fab, .net, .cel, .side, .out, .free] s t := by
  unfold execSentFrameReceived at h
  cases h
  repeat' first
    | exact rfl
    | with_reducible exact Does.refl _ _
    | with_reducible apply Does.step (h' := State.sentReceive_does ..)
    | extract_lets
    | fail_if_no_progress beta_reduce

theorem State.canSignal_does (s : State) (p : Nat) (e : Stamp) (code : Nat) (xlData : Bool) : Does [.out] s (State.canSignal s p e code xlData) := by
  unfold State.canSignal
  repeat' first
    | exact rfl
    | with_reducible exact Does.refl _ _
    | with_reducible apply Does.step (h' := State.canErrorFrame_does ..)
    | with_reducible apply Does.step (h' := State.send_does ..)
    | with_reducible apply Does.ite
    | intro _
    | extract_lets
    | fail_if_no_progress beta_reduce

theorem State.ethReceive_does (s : State) (p : Nat) (e : Stamp) (f : EthFrame) : Does [.tb, .log, .od, .ports, .cls, .store, .rep, .link, .fab, .net, .cel, .side, .out, .free] s (State.ethReceive s p e f) := by
  unfold State.ethReceive
  repeat' first
    | exact rfl
    | with_reducible exact Does.refl _ _
    | with_reducible apply Does.step (h' := State.reach_does ..)
    | with_reducible apply Does.step (h' := State.acceptPin_does ..)
    | with_reducible apply Does.ite
    | split
    | intro _
    | extract_lets
    | fail_if_no_progress beta_reduce

theorem State.pwmReceive_does (s : State) (p : Nat) (e : Stamp) (period : BitVec 32) (high : BitVec 32) : Does [.tb, .log, .od, .ports, .cls, .store, .rep, .link, .fab, .net, .cel, .side, .out, .free] s (State.pwmReceive s p e period high) := by
  unfold State.pwmReceive
  repeat' first
    | exact rfl
    | with_reducible exact Does.refl _ _
    | with_reducible apply Does.step (h' := State.reach_does ..)
    | with_reducible apply Does.step (h' := State.acceptPin_does ..)
    | with_reducible apply Does.ite
    | intro _
    | extract_lets
    | fail_if_no_progress beta_reduce

theorem State.linkUp_does (s : State) (p : Nat) (rate : Fin 6) : Does [.log, .od, .ports, .cls, .store, .rep, .link, .fab, .net, .side, .out, .free] s (State.linkUp s p rate) := by
  unfold State.linkUp
  repeat' first
    | exact rfl
    | with_reducible exact Does.refl _ _
    | with_reducible apply Does.step (h' := State.setPort_does ..)
    | with_reducible apply Does.step (h' := State.notice_does ..)
    | with_reducible apply Does.ite
    | intro _
    | extract_lets
    | fail_if_no_progress beta_reduce

theorem execEthLinkUp_does {mac : Fin 16} {rate : Fin 6} {s : State} {t : State} (h : execEthLinkUp mac rate s = .next t) : Does [.log, .od, .ports, .cls, .store, .rep, .link, .fab, .net, .side, .out, .free] s t := by
  unfold execEthLinkUp at h
  cases h
  repeat' first
    | exact rfl
    | with_reducible exact Does.refl _ _
    | with_reducible apply Does.step (h' := State.linkUp_does ..)
    | extract_lets
    | fail_if_no_progress beta_reduce

theorem execSamplePortFrame_does {smp : Fin 8} {edge : Stamp} {lines : List (List (BitVec 32))} {s : State} {t : State} (h : execSamplePortFrame smp edge lines s = .next t) : Does [.tb, .log, .od, .ports, .cls, .store, .rep, .link, .fab, .net, .cel, .side, .out, .free] s t := by
  unfold execSamplePortFrame at h
  cases h
  repeat' first
    | exact rfl
    | with_reducible exact Does.refl _ _
    | with_reducible apply Does.step (h' := State.smpReceive_does ..)
    | extract_lets
    | fail_if_no_progress beta_reduce

theorem State.edgeAccept_does (s : State) (p : Nat) (e : Stamp) (level : Bool) : Does [.tb, .log, .od, .ports, .cls, .store, .rep, .link, .fab, .net, .cel, .side, .out, .free] s (State.edgeAccept s p e level) := by
  unfold State.edgeAccept
  repeat' first
    | exact rfl
    | with_reducible exact Does.refl _ _
    | with_reducible apply Does.step (h' := State.setPort_does ..)
    | with_reducible apply Does.step (h' := State.reach_does ..)
    | with_reducible apply Does.step (h' := State.acceptPin_does ..)
    | with_reducible apply Does.ite
    | intro _
    | extract_lets
    | fail_if_no_progress beta_reduce

theorem execEdgeLevelAccepted_does {port : PortN} {edge : Stamp} {level : Bool} {s : State} {t : State} (h : execEdgeLevelAccepted port edge level s = .next t) : Does [.tb, .log, .od, .ports, .cls, .store, .rep, .link, .fab, .net, .cel, .side, .out, .free] s t := by
  unfold execEdgeLevelAccepted at h
  cases h
  repeat' first
    | exact rfl
    | with_reducible exact Does.refl _ _
    | with_reducible apply Does.step (h' := State.edgeAccept_does ..)
    | extract_lets
    | fail_if_no_progress beta_reduce

theorem execPwmMeasurement_does {lsp : Fin 32} {edge : Stamp} {period : BitVec 32} {high : BitVec 32} {s : State} {t : State} (h : execPwmMeasurement lsp edge period high s = .next t) : Does [.tb, .log, .od, .ports, .cls, .store, .rep, .link, .fab, .net, .cel, .side, .out, .free] s t := by
  unfold execPwmMeasurement at h
  cases h
  repeat' first
    | exact rfl
    | with_reducible exact Does.refl _ _
    | with_reducible apply Does.step (h' := State.pwmReceive_does ..)
    | extract_lets
    | fail_if_no_progress beta_reduce

theorem State.linReceive_does (s : State) (p : Nat) (e : Stamp) (f : LinFrame) : Does [.tb, .log, .od, .ports, .cls, .store, .rep, .link, .fab, .net, .cel, .side, .out, .free] s (State.linReceive s p e f) := by
  unfold State.linReceive
  repeat' first
    | exact rfl
    | with_reducible exact Does.refl _ _
    | with_reducible apply Does.step (h' := State.reach_does ..)
    | with_reducible apply Does.step (h' := State.recordSent_does ..)
    | with_reducible apply Does.step (h' := State.setTx_does ..)
    | with_reducible apply Does.step (h' := State.acceptPin_does ..)
    | with_reducible apply Does.step (h' := State.bump_does ..)
    | with_reducible apply Does.step (h' := State.send_does ..)
    | with_reducible apply Does.ite
    | split
    | intro _
    | extract_lets
    | fail_if_no_progress beta_reduce

theorem execPsi5FrameReceived_does {lsp : Fin 32} {edge : Stamp} {frame : Psi5Frame} {s : State} {t : State} (h : execPsi5FrameReceived lsp edge frame s = .next t) : Does [.tb, .log, .od, .ports, .cls, .store, .rep, .link, .fab, .net, .cel, .side, .out, .free] s t := by
  unfold execPsi5FrameReceived at h
  cases h
  repeat' first
    | exact rfl
    | with_reducible exact Does.refl _ _
    | with_reducible apply Does.step (h' := State.psi5Receive_does ..)
    | extract_lets
    | fail_if_no_progress beta_reduce

theorem State.sendFailed_does (s : State) (p : Nat) : Does [.od, .rep] s (State.sendFailed s p) := by
  unfold State.sendFailed
  repeat' first
    | exact rfl
    | with_reducible exact Does.refl _ _
    | with_reducible apply Does.step (h' := State.setTx_does ..)
    | with_reducible apply Does.step (h' := State.bump_does ..)
    | with_reducible apply Does.ite
    | split
    | intro _
    | extract_lets
    | fail_if_no_progress beta_reduce

theorem State.canEvent_does (s : State) (p : Nat) (e : Stamp) (ev : CanEvent) : Does [.tb, .log, .od, .ports, .cls, .store, .rep, .link, .fab, .net, .cel, .side, .out, .free] s (State.canEvent s p e ev) := by
  unfold State.canEvent
  repeat' first
    | exact rfl
    | with_reducible exact Does.refl _ _
    | with_reducible apply Does.step (h' := State.reach_does ..)
    | with_reducible apply Does.step (h' := State.setPort_does ..)
    | with_reducible apply Does.step (h' := State.canSignal_does ..)
    | with_reducible apply Does.step (h' := State.busEvent_does ..)
    | with_reducible apply Does.step (h' := State.sendFailed_does ..)
    | with_reducible apply Does.step (h' := State.logE_does ..)
    | with_reducible apply Does.ite
    | intro _
    | extract_lets
    | fail_if_no_progress beta_reduce

theorem execCanBusEvent_does {port : Fin 96} {edge : Stamp} {ev : CanEvent} {s : State} {t : State} (h : execCanBusEvent port edge ev s = .next t) : Does [.tb, .log, .od, .ports, .cls, .store, .rep, .link, .fab, .net, .cel, .side, .out, .free] s t := by
  unfold execCanBusEvent at h
  cases h
  repeat' first
    | exact rfl
    | with_reducible exact Does.refl _ _
    | with_reducible apply Does.step (h' := State.canEvent_does ..)
    | extract_lets
    | fail_if_no_progress beta_reduce

theorem execEthernetFrameReceived_does {mac : Fin 16} {edge : Stamp} {frame : EthFrame} {s : State} {t : State} (h : execEthernetFrameReceived mac edge frame s = .next t) : Does [.tb, .log, .od, .ports, .cls, .store, .rep, .link, .fab, .net, .cel, .side, .out, .free] s t := by
  unfold execEthernetFrameReceived at h
  cases h
  repeat' first
    | exact rfl
    | with_reducible exact Does.refl _ _
    | with_reducible apply Does.step (h' := State.ethReceive_does ..)
    | extract_lets
    | fail_if_no_progress beta_reduce

theorem execBusOffRecovery_does {port : Fin 96} {edge : Stamp} {s : State} {t : State} (h : execBusOffRecovery port edge s = .next t) : Does [.tb, .log, .od, .ports, .cls, .store, .rep, .link, .fab, .net, .cel, .side, .out, .free] s t := by
  unfold execBusOffRecovery at h
  cases h
  repeat' first
    | exact rfl
    | with_reducible exact Does.refl _ _
    | with_reducible apply Does.step (h' := State.busOffRecover_does ..)
    | extract_lets
    | fail_if_no_progress beta_reduce

theorem State.linkDown_does (s : State) (p : Nat) : Does [.log, .od, .ports, .cls, .store, .rep, .link, .fab, .net, .side, .out, .free] s (State.linkDown s p) := by
  unfold State.linkDown
  repeat' first
    | exact rfl
    | with_reducible exact Does.refl _ _
    | with_reducible apply Does.step (h' := State.setPort_does ..)
    | with_reducible apply Does.step (h' := State.notice_does ..)
    | with_reducible apply Does.ite
    | split
    | intro _
    | extract_lets
    | fail_if_no_progress beta_reduce

theorem execLinFrameReceived_does {lsp : Fin 32} {edge : Stamp} {frame : LinFrame} {s : State} {t : State} (h : execLinFrameReceived lsp edge frame s = .next t) : Does [.tb, .log, .od, .ports, .cls, .store, .rep, .link, .fab, .net, .cel, .side, .out, .free] s t := by
  unfold execLinFrameReceived at h
  cases h
  repeat' first
    | exact rfl
    | with_reducible exact Does.refl _ _
    | with_reducible apply Does.step (h' := State.linReceive_does ..)
    | extract_lets
    | fail_if_no_progress beta_reduce

theorem execEthLinkDown_does {mac : Fin 16} {s : State} {t : State} (h : execEthLinkDown mac s = .next t) : Does [.log, .od, .ports, .cls, .store, .rep, .link, .fab, .net, .side, .out, .free] s t := by
  unfold execEthLinkDown at h
  cases h
  repeat' first
    | exact rfl
    | with_reducible exact Does.refl _ _
    | with_reducible apply Does.step (h' := State.linkDown_does ..)
    | extract_lets
    | fail_if_no_progress beta_reduce

end Sys2Proof.Machine
end

