-- ==== Sys2Proof/Laws/DoesTime.lean ====
section
/-! SUPPORT. What each operation of Machine/Time.lean can do: the parts of the state it can touch, and what it keeps. -/

namespace Sys2Proof.Machine

theorem State.ppsGood_does (s : State) (c : ℤ) (interval : ℤ) : Does [.tb] s (State.ppsGood s c interval) := by
  unfold State.ppsGood
  repeat' first
    | exact rfl
    | with_reducible exact Does.refl _ _
    | with_reducible apply Does.ite
    | intro _
    | extract_lets
    | fail_if_no_progress beta_reduce
    | with_reducible apply Does.step (h' := Does.set_tb ..)

theorem State.mapChanged_does (s : State) : Does Part.logging s (State.mapChanged s) := by
  unfold State.mapChanged
  repeat' first
    | exact rfl
    | with_reducible exact Does.refl _ _
    | with_reducible apply Does.step (h' := State.ctlPut_does ..)
    | with_reducible apply Does.ite
    | intro _
    | extract_lets
    | fail_if_no_progress beta_reduce

theorem State.setMap_does (s : State) (m : Mapping) (v : Fin 4) : Does [.tb, .log, .od, .store, .link, .side, .free] s (State.setMap s m v) := by
  unfold State.setMap
  repeat' first
    | exact rfl
    | with_reducible exact Does.refl _ _
    | with_reducible apply Does.step (h' := State.mapChanged_does ..)
    | extract_lets
    | fail_if_no_progress beta_reduce
    | with_reducible apply Does.step (h' := Does.set_tb ..)

theorem State.wUtc_does (s : State) (p : Path) (v : Nat) : Does [.log, .od, .acc, .store, .rep, .link, .fab, .side, .out, .free] s (State.wUtc s p v) := by
  unfold State.wUtc
  repeat' first
    | exact rfl
    | with_reducible exact Does.refl _ _
    | with_reducible apply Does.step (h' := State.refuseLog_does ..)
    | with_reducible apply Does.step (h' := State.answer_does ..)
    | with_reducible apply Does.step (h' := State.mapChanged_does ..)
    | with_reducible apply Does.step (h' := State.put_does ..)
    | with_reducible apply Does.ite
    | intro _
    | extract_lets
    | fail_if_no_progress beta_reduce

theorem State.logTb_does (s : State) : Does Part.logging s (State.logTb s) := by
  unfold State.logTb
  repeat' first
    | exact rfl
    | with_reducible exact Does.refl _ _
    | with_reducible apply Does.step (h' := State.logE_does ..)
    | extract_lets
    | fail_if_no_progress beta_reduce

theorem State.ppsAt_does (s : State) (c : ℤ) : Does [.tb, .log, .od, .store, .link, .side, .free] s (State.ppsAt s c) := by
  unfold State.ppsAt
  repeat' first
    | exact rfl
    | with_reducible exact Does.refl _ _
    | with_reducible apply Does.step (h' := State.ppsGood_does ..)
    | with_reducible apply Does.step (h' := State.logTb_does ..)
    | with_reducible apply Does.ite
    | split
    | intro _
    | extract_lets
    | fail_if_no_progress beta_reduce
    | with_reducible apply Does.step (h' := Does.set_tb ..)

theorem State.ppsEdge_does (s : State) (rising : Bool) (e : Stamp) : Does [.tb, .log, .od, .store, .link, .side, .free] s (State.ppsEdge s rising e) := by
  unfold State.ppsEdge
  repeat' first
    | exact rfl
    | with_reducible exact Does.refl _ _
    | with_reducible apply Does.step (h' := State.ppsAt_does ..)
    | with_reducible apply Does.step (h' := State.reach_does ..)
    | with_reducible apply Does.ite
    | intro _
    | extract_lets
    | fail_if_no_progress beta_reduce

theorem State.gptpAnswer_does (s : State) (mac : Nat) (c : ℤ) : Does [.out] s (State.gptpAnswer s mac c) := by
  unfold State.gptpAnswer
  repeat' first
    | exact rfl
    | with_reducible exact Does.refl _ _
    | with_reducible apply Does.step (h' := State.send_does ..)
    | with_reducible apply Does.ite
    | intro _
    | extract_lets
    | fail_if_no_progress beta_reduce

theorem State.gptpSend_does (s : State) (mac : Nat) (pdelay : Bool) : Does [.out] s (State.gptpSend s mac pdelay) := by
  unfold State.gptpSend
  repeat' first
    | exact rfl
    | with_reducible exact Does.refl _ _
    | with_reducible apply Does.step (h' := State.send_does ..)
    | with_reducible apply Does.ite
    | intro _
    | extract_lets
    | fail_if_no_progress beta_reduce

theorem execUtcOffsetWrite_does {path : Path} {v : BitVec 16} {s : State} {t : State} (h : execUtcOffsetWrite path v s = .next t) : Does [.log, .od, .acc, .store, .rep, .link, .fab, .side, .out, .free] s t := by
  unfold execUtcOffsetWrite at h
  cases h
  repeat' first
    | exact rfl
    | with_reducible exact Does.refl _ _
    | with_reducible apply Does.step (h' := State.requestWrite_does (l := [.log, .od, .acc, .store, .rep, .link, .fab, .side, .out, .free]) (hl := rfl) (hf0 := fun t => ?_) ..)
    | with_reducible apply Does.step (h' := State.wUtc_does ..)
    | extract_lets
    | fail_if_no_progress beta_reduce
    | exact Does.refl _ _

theorem execGptpSyncTimer_does {mac : Fin 16} {pdelay : Bool} {s : State} {t : State} (h : execGptpSyncTimer mac pdelay s = .next t) : Does [.out] s t := by
  unfold execGptpSyncTimer at h
  cases h
  repeat' first
    | exact rfl
    | with_reducible exact Does.refl _ _
    | with_reducible apply Does.step (h' := State.gptpSend_does ..)
    | extract_lets
    | fail_if_no_progress beta_reduce

theorem State.logOffset_does (s : State) : Does Part.logging s (State.logOffset s) := by
  unfold State.logOffset
  repeat' first
    | exact rfl
    | with_reducible exact Does.refl _ _
    | with_reducible apply Does.step (h' := State.logE_does ..)
    | extract_lets
    | fail_if_no_progress beta_reduce

theorem State.noteApart_does (s : State) : Does [.tb, .log, .od, .store, .link, .side, .free] s (State.noteApart s) := by
  unfold State.noteApart
  repeat' first
    | exact rfl
    | with_reducible exact Does.refl _ _
    | with_reducible apply Does.step (h' := State.logOffset_does ..)
    | with_reducible apply Does.ite
    | intro _
    | extract_lets
    | fail_if_no_progress beta_reduce
    | with_reducible apply Does.step (h' := Does.set_tb ..)

theorem State.mapFromGm_does (s : State) (c : ℤ) (m : GptpMsg) : Does [.tb, .log, .od, .store, .link, .side, .free] s (State.mapFromGm s c m) := by
  unfold State.mapFromGm
  repeat' first
    | exact rfl
    | with_reducible exact Does.refl _ _
    | with_reducible apply Does.step (h' := State.setMap_does ..)
    | with_reducible apply Does.ite
    | intro _
    | extract_lets
    | fail_if_no_progress beta_reduce

theorem State.setSource_does (s : State) (k : TimeSrc) (x : TimeSource) : Does [.tb] s (State.setSource s k x) := by
  unfold State.setSource
  repeat' first
    | exact rfl
    | with_reducible exact Does.refl _ _
    | split
    | extract_lets
    | fail_if_no_progress beta_reduce
    | with_reducible apply Does.step (h' := Does.set_tb ..)

theorem State.gptpTime_does (s : State) (c : ℤ) (m : GptpMsg) : Does [.tb, .log, .od, .store, .link, .side, .free] s (State.gptpTime s c m) := by
  unfold State.gptpTime
  repeat' first
    | exact rfl
    | with_reducible exact Does.refl _ _
    | with_reducible apply Does.step (h' := State.noteApart_does ..)
    | with_reducible apply Does.step (h' := State.mapFromGm_does ..)
    | with_reducible apply Does.step (h' := State.setSource_does ..)
    | extract_lets
    | fail_if_no_progress beta_reduce

theorem State.gptpReceive_does (s : State) (mac : Nat) (e : Stamp) (m : GptpMsg) : Does [.tb, .log, .od, .ports, .cls, .store, .rep, .link, .fab, .net, .cel, .side, .out, .free] s (State.gptpReceive s mac e m) := by
  unfold State.gptpReceive
  repeat' first
    | exact rfl
    | with_reducible exact Does.refl _ _
    | with_reducible apply Does.step (h' := State.reach_does ..)
    | with_reducible apply Does.step (h' := State.ethReceive_does ..)
    | with_reducible apply Does.step (h' := State.gptpTime_does ..)
    | with_reducible apply Does.step (h' := State.gptpAnswer_does ..)
    | with_reducible apply Does.ite
    | split
    | intro _
    | extract_lets
    | fail_if_no_progress beta_reduce

theorem execGptpMessage_does {mac : Fin 16} {edge : Stamp} {msg : GptpMsg} {s : State} {t : State} (h : execGptpMessage mac edge msg s = .next t) : Does [.tb, .log, .od, .ports, .cls, .store, .rep, .link, .fab, .net, .cel, .side, .out, .free] s t := by
  unfold execGptpMessage at h
  cases h
  repeat' first
    | exact rfl
    | with_reducible exact Does.refl _ _
    | with_reducible apply Does.step (h' := State.gptpReceive_does ..)
    | extract_lets
    | fail_if_no_progress beta_reduce

theorem State.wrapLanes_does (s : State) (busy : List Nat) : Does [.ports, .store, .free] s (State.wrapLanes s busy) := by
  unfold State.wrapLanes
  repeat' first
    | exact rfl
    | with_reducible exact Does.refl _ _
    | with_reducible apply Does.step (h' := State.ctlStore_does ..)
    | with_reducible apply Does.step (h' := State.setPort_does ..)
    | with_reducible apply Does.step (h' := State.rawWrap_does ..)
    | with_reducible apply Does.step (h' := State.sampleWrap_does ..)
    | with_reducible apply Does.ite
    | with_reducible apply Does.fold
    | intro _
    | extract_lets
    | fail_if_no_progress beta_reduce
    | with_reducible apply Does.step (h' := Does.set_store ..)

theorem State.count_does (s : State) (busy : List Nat) : Does [.tb, .ports, .store, .free] s (State.count s busy) := by
  unfold State.count
  repeat' first
    | exact rfl
    | with_reducible exact Does.refl _ _
    | with_reducible apply Does.step (h' := State.setTime_does ..)
    | with_reducible apply Does.step (h' := State.wrapLanes_does ..)
    | with_reducible apply Does.ite
    | intro _
    | extract_lets
    | fail_if_no_progress beta_reduce
    | with_reducible apply Does.step (h' := Does.set_tb ..)

theorem State.idle_does (s : State) : Does [.tb, .ports, .store, .free] s (State.idle s) := by
  unfold State.idle
  repeat' first
    | exact rfl
    | with_reducible exact Does.refl _ _
    | with_reducible apply Does.step (h' := State.count_does ..)
    | with_reducible apply Does.ite
    | split
    | intro _
    | extract_lets
    | fail_if_no_progress beta_reduce

theorem State.rTick_does (s : State) (p : Path) (want : Nat) : Does [.log, .od, .acc, .store, .rep, .link, .fab, .side, .out, .free] s (State.rTick s p want) := by
  unfold State.rTick
  repeat' first
    | exact rfl
    | with_reducible exact Does.refl _ _
    | with_reducible apply Does.step (h' := State.refuse_does ..)
    | with_reducible apply Does.step (h' := State.answer_does ..)
    | split
    | extract_lets
    | fail_if_no_progress beta_reduce

theorem execSnapshotTickRead_does {path : Path} {s : State} {t : State} (h : execSnapshotTickRead path s = .next t) : Does [.log, .od, .acc, .store, .rep, .link, .fab, .side, .out, .free] s t := by
  unfold execSnapshotTickRead at h
  cases h
  repeat' first
    | exact rfl
    | with_reducible exact Does.refl _ _
    | with_reducible apply Does.step (h' := State.requestRead_does (l := [.log, .od, .acc, .store, .rep, .link, .fab, .side, .out, .free]) (hl := rfl) (hf0 := fun t => ?_) ..)
    | with_reducible apply Does.step (h' := State.rTick_does ..)
    | extract_lets
    | fail_if_no_progress beta_reduce
    | exact Does.refl _ _

theorem State.calibrate_does (s : State) : Does [.tb, .pst] s (State.calibrate s) := by
  unfold State.calibrate
  repeat' first
    | exact rfl
    | with_reducible exact Does.refl _ _
    | extract_lets
    | fail_if_no_progress beta_reduce
    | refine Does.any ⟨.inl rfl, .inr rfl, .inr rfl, .inr rfl, .inr rfl, .inr rfl, .inr rfl, .inr rfl, .inr rfl, .inr rfl, .inr rfl, .inr rfl, .inr rfl, .inr rfl, .inr rfl, .inr rfl, .inr rfl, .inr rfl, .inl rfl, .inr rfl, .inr rfl, .inr rfl, .inr rfl⟩ id id (List.prefix_refl _) (fun _ => rfl) (Fin.le_refl _) ?_

theorem State.follow_does (s : State) (k : Nat) : Does [.tb] s (State.follow s k) := by
  unfold State.follow
  repeat' first
    | exact rfl
    | with_reducible exact Does.refl _ _
    | with_reducible apply Does.ite
    | intro _
    | extract_lets
    | fail_if_no_progress beta_reduce
    | with_reducible apply Does.step (h' := Does.set_tb ..)

theorem State.rEpoch_does (s : State) (p : Path) (want : Nat) : Does [.acc, .rep, .fab, .out, .free] s (State.rEpoch s p want) := by
  unfold State.rEpoch
  repeat' first
    | exact rfl
    | with_reducible exact Does.refl _ _
    | with_reducible apply Does.step (h' := State.answer_does ..)
    | extract_lets
    | fail_if_no_progress beta_reduce
    | with_reducible apply Does.step (h' := Does.set_acc ..)

theorem execChipTimeSnapshotRead_does {path : Path} {s : State} {t : State} (h : execChipTimeSnapshotRead path s = .next t) : Does [.log, .od, .acc, .store, .rep, .link, .fab, .side, .out, .free] s t := by
  unfold execChipTimeSnapshotRead at h
  cases h
  repeat' first
    | exact rfl
    | with_reducible exact Does.refl _ _
    | with_reducible apply Does.step (h' := State.requestRead_does (l := [.log, .od, .acc, .store, .rep, .link, .fab, .side, .out, .free]) (hl := rfl) (hf0 := fun t => ?_) ..)
    | with_reducible apply Does.step (h' := State.rEpoch_does ..)
    | extract_lets
    | fail_if_no_progress beta_reduce
    | exact Does.refl _ _

theorem State.letGo_does (s : State) : Does [.tb] s (State.letGo s) := by
  unfold State.letGo
  repeat' first
    | exact rfl
    | with_reducible exact Does.refl _ _
    | with_reducible apply Does.ite
    | intro _
    | extract_lets
    | fail_if_no_progress beta_reduce
    | with_reducible apply Does.step (h' := Does.set_tb ..)

theorem State.shiftAges_does (s : State) (d : ℤ) : Does [.ports, .cls, .store, .fab, .sw, .pods, .mem, .cel, .pst, .pwr] s (State.shiftAges s d) := by
  unfold State.shiftAges
  repeat' first
    | exact rfl
    | with_reducible exact Does.refl _ _
    | extract_lets
    | fail_if_no_progress beta_reduce
    | refine Does.any ⟨.inr rfl, .inr rfl, .inr rfl, .inr rfl, .inr rfl, .inl rfl, .inl rfl, .inl rfl, .inr rfl, .inr rfl, .inl rfl, .inl rfl, .inr rfl, .inl rfl, .inr rfl, .inr rfl, .inl ⟨rfl, rfl⟩, .inr rfl, .inl rfl, .inl rfl, .inr rfl, .inr rfl, .inr rfl⟩ (by first | exact Memory.wf_of_cells (Memory.cells_mk ..) | exact Memory.wf_filter _ (Memory.cells_mk ..)) id (List.prefix_refl _) (fun _ => rfl) (Fin.le_refl _) ?_

theorem State.stepTime_does (s : State) (d : ℤ) : Does [.tb, .log, .od, .ports, .cls, .store, .link, .fab, .sw, .pods, .mem, .cel, .side, .pst, .pwr, .free] s (State.stepTime s d) := by
  unfold State.stepTime
  repeat' first
    | exact rfl
    | with_reducible exact Does.refl _ _
    | with_reducible apply Does.step (h' := State.setTime_does ..)
    | with_reducible apply Does.step (h' := State.shiftAges_does ..)
    | with_reducible apply Does.step (h' := State.logX_does ..)
    | extract_lets
    | fail_if_no_progress beta_reduce
    | with_reducible apply Does.step (h' := Does.set_tb ..)

theorem State.stepFabric_does (s : State) (d : ℤ) : Does [.tb, .log, .od, .ports, .cls, .store, .link, .fab, .sw, .pods, .mem, .cel, .side, .pst, .pwr, .free] s (State.stepFabric s d) := by
  unfold State.stepFabric
  repeat' first
    | exact rfl
    | with_reducible exact Does.refl _ _
    | with_reducible apply Does.step (h' := State.stepTime_does ..)
    | extract_lets
    | fail_if_no_progress beta_reduce
    | refine Does.any ⟨.inl rfl, .inr rfl, .inr rfl, .inr rfl, .inr rfl, .inr rfl, .inr rfl, .inr rfl, .inr rfl, .inr rfl, .inl rfl, .inr rfl, .inr rfl, .inr rfl, .inr rfl, .inr rfl, .inr rfl, .inr rfl, .inr rfl, .inr rfl, .inr rfl, .inr rfl, .inr rfl⟩ id id (List.prefix_refl _) (fun _ => rfl) (Fin.le_refl _) ?_

theorem State.evaluate_does (s : State) : Does [.tb, .log, .od, .ports, .cls, .store, .link, .fab, .sw, .pods, .mem, .cel, .side, .pst, .pwr, .free] s (State.evaluate s) := by
  unfold State.evaluate
  repeat' first
    | exact rfl
    | with_reducible exact Does.refl _ _
    | with_reducible apply Does.step (h' := State.letGo_does ..)
    | with_reducible apply Does.step (h' := State.follow_does ..)
    | with_reducible apply Does.step (h' := State.logOffset_does ..)
    | with_reducible apply Does.step (h' := State.logTb_does ..)
    | with_reducible apply Does.step (h' := State.stepFabric_does ..)
    | with_reducible apply Does.step (h' := State.stepTime_does ..)
    | with_reducible apply Does.step (h' := State.noteApart_does ..)
    | with_reducible apply Does.ite
    | intro _
    | extract_lets
    | fail_if_no_progress beta_reduce
    | with_reducible apply Does.step (h' := Does.set_tb ..)

theorem execSourceSelection_does {s : State} {t : State} (h : execSourceSelection s = .next t) : Does [.tb, .log, .od, .ports, .cls, .store, .link, .fab, .sw, .pods, .mem, .cel, .side, .pst, .pwr, .free] s t := by
  unfold execSourceSelection at h
  cases h
  repeat' first
    | exact rfl
    | with_reducible exact Does.refl _ _
    | with_reducible apply Does.step (h' := State.evaluate_does ..)
    | with_reducible apply Does.ite
    | intro _
    | extract_lets
    | fail_if_no_progress beta_reduce

theorem execCalibration_does {s : State} {t : State} (h : execCalibration s = .next t) : Does [.tb, .pst] s t := by
  unfold execCalibration at h
  cases h
  repeat' first
    | exact rfl
    | with_reducible exact Does.refl _ _
    | with_reducible apply Does.step (h' := State.calibrate_does ..)
    | with_reducible apply Does.ite
    | intro _
    | extract_lets
    | fail_if_no_progress beta_reduce

theorem State.lose_does (s : State) (k : TimeSrc) : Does [.tb, .log, .od, .ports, .cls, .store, .link, .fab, .sw, .pods, .mem, .cel, .side, .pst, .pwr, .free] s (State.lose s k) := by
  unfold State.lose
  repeat' first
    | exact rfl
    | with_reducible exact Does.refl _ _
    | with_reducible apply Does.step (h' := State.reachInt_does ..)
    | with_reducible apply Does.step (h' := State.setSource_does ..)
    | with_reducible apply Does.step (h' := State.evaluate_does ..)
    | with_reducible apply Does.step (h' := State.logTb_does ..)
    | with_reducible apply Does.step (h' := State.letGo_does ..)
    | with_reducible apply Does.ite
    | split
    | intro _
    | extract_lets
    | fail_if_no_progress beta_reduce
    | with_reducible apply Does.step (h' := Does.set_tb ..)

theorem State.wCommitMap_does (s : State) (p : Path) (v : Nat) : Does [.tb, .log, .od, .acc, .store, .rep, .link, .fab, .side, .out, .free] s (State.wCommitMap s p v) := by
  unfold State.wCommitMap
  repeat' first
    | exact rfl
    | with_reducible exact Does.refl _ _
    | with_reducible apply Does.step (h' := State.refuse_does ..)
    | with_reducible apply Does.step (h' := State.refuseLog_does ..)
    | with_reducible apply Does.step (h' := State.answer_does ..)
    | with_reducible apply Does.step (h' := State.setMap_does ..)
    | with_reducible apply Does.ite
    | intro _
    | extract_lets
    | fail_if_no_progress beta_reduce

theorem State.countToWrap_does (s : State) (busy : List Nat) (k2 : Nat) : Does [.tb, .ports, .store, .free] s (State.countToWrap s busy k2) := by
  induction k2 generalizing s busy with
  | zero =>
    unfold State.countToWrap
    repeat' first
      | exact rfl
      | with_reducible exact Does.refl _ _
      | with_reducible apply Does.step (h' := ih ..)
      | with_reducible apply Does.step (h' := State.count_does ..)
      | with_reducible apply Does.ite
      | split
      | intro _
      | extract_lets
      | fail_if_no_progress beta_reduce
  | succ k ih =>
    unfold State.countToWrap
    repeat' first
      | exact rfl
      | with_reducible exact Does.refl _ _
      | with_reducible apply Does.step (h' := ih ..)
      | with_reducible apply Does.step (h' := State.count_does ..)
      | with_reducible apply Does.ite
      | split
      | intro _
      | extract_lets
      | fail_if_no_progress beta_reduce

theorem State.passWrap_does (s : State) (busy : List Nat) : Does [.tb, .ports, .store, .free] s (State.passWrap s busy) := by
  unfold State.passWrap
  repeat' first
    | exact rfl
    | with_reducible exact Does.refl _ _
    | with_reducible apply Does.step (h' := State.countToWrap_does ..)
    | with_reducible apply Does.step (h' := State.reach_does ..)
    | with_reducible apply Does.ite
    | intro _
    | extract_lets
    | fail_if_no_progress beta_reduce

theorem State.ripen_does (s : State) (k : TimeSrc) : Does [.tb] s (State.ripen s k) := by
  unfold State.ripen
  repeat' first
    | exact rfl
    | with_reducible exact Does.refl _ _
    | with_reducible apply Does.step (h' := State.setSource_does ..)
    | with_reducible apply Does.step (h' := State.reachInt_does ..)
    | split
    | extract_lets
    | fail_if_no_progress beta_reduce

theorem execSourceQualified_does {src : TimeSrc} {s : State} {t : State} (h : execSourceQualified src s = .next t) : Does [.tb] s t := by
  unfold execSourceQualified at h
  cases h
  repeat' first
    | exact rfl
    | with_reducible exact Does.refl _ _
    | with_reducible apply Does.step (h' := State.ripen_does ..)
    | extract_lets
    | fail_if_no_progress beta_reduce

theorem execPpsPulse_does {rising : Bool} {edge : Stamp} {s : State} {t : State} (h : execPpsPulse rising edge s = .next t) : Does [.tb, .log, .od, .store, .link, .side, .free] s t := by
  unfold execPpsPulse at h
  cases h
  repeat' first
    | exact rfl
    | with_reducible exact Does.refl _ _
    | with_reducible apply Does.step (h' := State.ppsEdge_does ..)
    | extract_lets
    | fail_if_no_progress beta_reduce

theorem State.joinFabric_does (s : State) (theta : ℤ) : Does [.tb, .log, .od, .ports, .cls, .store, .link, .fab, .sw, .pods, .mem, .cel, .side, .pst, .pwr, .free] s (State.joinFabric s theta) := by
  unfold State.joinFabric
  repeat' first
    | exact rfl
    | with_reducible exact Does.refl _ _
    | with_reducible apply Does.step (h' := State.stepFabric_does ..)
    | with_reducible apply Does.ite
    | intro _
    | extract_lets
    | fail_if_no_progress beta_reduce
    | with_reducible apply Does.step (h' := Does.set_fab ..)

theorem execCommitShadowMapping_does {path : Path} {v : Byte} {s : State} {t : State} (h : execCommitShadowMapping path v s = .next t) : Does [.tb, .log, .od, .acc, .store, .rep, .link, .fab, .side, .out, .free] s t := by
  unfold execCommitShadowMapping at h
  cases h
  repeat' first
    | exact rfl
    | with_reducible exact Does.refl _ _
    | with_reducible apply Does.step (h' := State.requestWrite_does (l := [.tb, .log, .od, .acc, .store, .rep, .link, .fab, .side, .out, .free]) (hl := rfl) (hf0 := fun t => ?_) ..)
    | with_reducible apply Does.step (h' := State.wCommitMap_does ..)
    | extract_lets
    | fail_if_no_progress beta_reduce
    | exact Does.refl _ _

theorem execSourceLost_does {src : TimeSrc} {s : State} {t : State} (h : execSourceLost src s = .next t) : Does [.tb, .log, .od, .ports, .cls, .store, .link, .fab, .sw, .pods, .mem, .cel, .side, .pst, .pwr, .free] s t := by
  unfold execSourceLost at h
  cases h
  repeat' first
    | exact rfl
    | with_reducible exact Does.refl _ _
    | with_reducible apply Does.step (h' := State.lose_does ..)
    | extract_lets
    | fail_if_no_progress beta_reduce

theorem execTickWrap_does {busy : List PortN} {s : State} {t : State} (h : execTickWrap busy s = .next t) : Does [.tb, .ports, .store, .free] s t := by
  unfold execTickWrap at h
  cases h
  repeat' first
    | exact rfl
    | with_reducible exact Does.refl _ _
    | with_reducible apply Does.step (h' := State.passWrap_does ..)
    | extract_lets
    | fail_if_no_progress beta_reduce

end Sys2Proof.Machine
end

