-- ==== Sys2Proof/Laws/DoesStoreFlow.lean ====
section
/-! SUPPORT. What each operation of Machine/StoreFlow.lean can do: the parts of the state it can touch, and what it keeps. -/

namespace Sys2Proof.Machine

theorem State.toState_does (s : State) (v : SessSt) (code : Nat) : Does [.log, .sess, .od, .store, .link, .side, .free] s (State.toState s v code) := by
  unfold State.toState
  repeat' first
    | exact rfl
    | with_reducible exact Does.refl _ _
    | with_reducible apply Does.step (h' := State.logE_does ..)
    | extract_lets
    | fail_if_no_progress beta_reduce
    | with_reducible apply Does.step (h' := Does.set_sess ..)

theorem State.toFault_does (s : State) : Does [.log, .sess, .od, .store, .link, .side, .free] s (State.toFault s) := by
  unfold State.toFault
  repeat' first
    | exact rfl
    | with_reducible exact Does.refl _ _
    | with_reducible apply Does.step (h' := State.toState_does ..)
    | extract_lets
    | fail_if_no_progress beta_reduce
    | refine Does.any ⟨.inr rfl, .inr rfl, .inl rfl, .inr rfl, .inr rfl, .inr rfl, .inr rfl, .inl rfl, .inr rfl, .inr rfl, .inr rfl, .inr rfl, .inr rfl, .inr rfl, .inr rfl, .inr rfl, .inr rfl, .inr rfl, .inr rfl, .inr rfl, .inr rfl, .inr rfl, .inr rfl⟩ id id (List.prefix_refl _) (fun _ => rfl) (Fin.le_refl _) ?_

theorem State.freeSeg_does (s : State) (g : Seg) : Does [.store] s (State.freeSeg s g) := by
  unfold State.freeSeg
  repeat' first
    | exact rfl
    | with_reducible exact Does.refl _ _
    | with_reducible apply Does.ite
    | split
    | intro _
    | extract_lets
    | fail_if_no_progress beta_reduce
    | with_reducible apply Does.step (h' := Does.set_store ..)

theorem State.enterLevel_does (s : State) (l : Nat) : Does Part.logging s (State.enterLevel s l) := by
  unfold State.enterLevel
  repeat' first
    | exact rfl
    | with_reducible exact Does.refl _ _
    | with_reducible apply Does.step (h' := State.logE_does ..)
    | extract_lets
    | fail_if_no_progress beta_reduce
    | with_reducible apply Does.step (h' := Does.set_store ..)

theorem State.leaveLevel_does (s : State) (l : Nat) : Does Part.logging s (State.leaveLevel s l) := by
  unfold State.leaveLevel
  repeat' first
    | exact rfl
    | with_reducible exact Does.refl _ _
    | with_reducible apply Does.step (h' := State.ctlPut_does ..)
    | with_reducible apply Does.step (h' := State.logE_does ..)
    | extract_lets
    | fail_if_no_progress beta_reduce
    | with_reducible apply Does.step (h' := Does.set_store ..)

theorem State.updateLevel_does (s : State) : Does Part.logging s (State.updateLevel s) := by
  unfold State.updateLevel
  repeat' first
    | exact rfl
    | with_reducible exact Does.refl _ _
    | with_reducible apply Does.step (h' := State.enterLevel_does ..)
    | with_reducible apply Does.step (h' := State.leaveLevel_does ..)
    | with_reducible apply Does.ite
    | with_reducible apply Does.fold
    | intro _
    | extract_lets
    | fail_if_no_progress beta_reduce

theorem State.toIdle_does (s : State) : Does [.tb, .log, .sess, .od, .ports, .cls, .store, .link, .fab, .sw, .pods, .mem, .cel, .side, .pst, .pwr, .free] s (State.toIdle s) := by
  unfold State.toIdle
  repeat' first
    | exact rfl
    | with_reducible exact Does.refl _ _
    | with_reducible apply Does.step (h' := State.toState_does ..)
    | with_reducible apply Does.step (h' := State.joinFabric_does ..)
    | with_reducible apply Does.step (h' := State.evaluate_does ..)
    | with_reducible apply Does.ite
    | intro _
    | extract_lets
    | fail_if_no_progress beta_reduce
    | with_reducible apply Does.step (h' := Does.set_sess ..)

theorem State.tryLast_does (s : State) : Does [.store, .free] s (State.tryLast s) := by
  unfold State.tryLast
  repeat' first
    | exact rfl
    | with_reducible exact Does.refl _ _
    | with_reducible apply Does.step (h' := State.payFailover_does ..)
    | with_reducible apply Does.step (h' := State.closeSeg_does ..)
    | with_reducible apply Does.step (h' := State.finishSeg_does ..)
    | with_reducible apply Does.ite
    | intro _
    | extract_lets
    | fail_if_no_progress beta_reduce
    | with_reducible apply Does.step (h' := Does.set_store ..)

theorem State.settle_does (s : State) : Does [.tb, .log, .sess, .od, .ports, .cls, .store, .link, .fab, .sw, .pods, .mem, .cel, .side, .pst, .pwr, .free] s (State.settle s) := by
  unfold State.settle
  repeat' first
    | exact rfl
    | with_reducible exact Does.refl _ _
    | with_reducible apply Does.step (h' := State.freeSeg_does ..)
    | with_reducible apply Does.step (h' := State.drainBuffers_does ..)
    | with_reducible apply Does.step (h' := State.updateLevel_does ..)
    | with_reducible apply Does.step (h' := State.toIdle_does ..)
    | with_reducible apply Does.step (h' := State.tryLast_does ..)
    | with_reducible apply Does.ite
    | with_reducible apply Does.fold
    | intro _
    | extract_lets
    | fail_if_no_progress beta_reduce

theorem State.setSsd_does (s : State) (k : Nat) (x : Ssd) : Does [.store] s (State.setSsd s k x) := by
  unfold State.setSsd
  repeat' first
    | exact rfl
    | with_reducible exact Does.refl _ _
    | with_reducible apply Does.ite
    | intro _
    | extract_lets
    | fail_if_no_progress beta_reduce
    | with_reducible apply Does.step (h' := Does.set_store ..)

theorem State.onMedium_does (s : State) (k : Nat) (seqs : List Nat) : Does [.store] s (State.onMedium s k seqs) := by
  unfold State.onMedium
  repeat' first
    | exact rfl
    | with_reducible exact Does.refl _ _
    | with_reducible apply Does.step (h' := State.setSsd_does ..)
    | with_reducible apply Does.fold
    | intro _
    | extract_lets
    | fail_if_no_progress beta_reduce

theorem State.flushDone_does (s : State) (k : Nat) (seqs : List Nat) : Does [.tb, .log, .sess, .od, .ports, .cls, .store, .link, .fab, .sw, .pods, .mem, .cel, .side, .pst, .pwr, .free] s (State.flushDone s k seqs) := by
  unfold State.flushDone
  repeat' first
    | exact rfl
    | with_reducible exact Does.refl _ _
    | with_reducible apply Does.step (h' := State.settle_does ..)
    | with_reducible apply Does.step (h' := State.onMedium_does ..)
    | with_reducible apply Does.ite
    | intro _
    | extract_lets
    | fail_if_no_progress beta_reduce
    | with_reducible apply Does.step (h' := Does.set_store ..)

theorem State.admin_does (s : State) (k : Nat) (c : NvmeCmd) : Does [.store, .out] s (State.admin s k c) := by
  unfold State.admin
  repeat' first
    | exact rfl
    | with_reducible exact Does.refl _ _
    | with_reducible apply Does.step (h' := State.send_does ..)
    | with_reducible apply Does.step (h' := State.setSsd_does ..)
    | extract_lets
    | fail_if_no_progress beta_reduce

theorem State.deleteQueues_does (s : State) (k : Nat) : Does [.store, .out] s (State.deleteQueues s k) := by
  unfold State.deleteQueues
  repeat' first
    | exact rfl
    | with_reducible exact Does.refl _ _
    | with_reducible apply Does.step (h' := State.admin_does ..)
    | with_reducible apply Does.ite
    | with_reducible apply Does.fold
    | intro _
    | extract_lets
    | fail_if_no_progress beta_reduce

theorem State.nvme_does (s : State) (k : Nat) (c : NvmeCmd) : Does [.store, .out] s (State.nvme s k c) := by
  unfold State.nvme
  repeat' first
    | exact rfl
    | with_reducible exact Does.refl _ _
    | with_reducible apply Does.step (h' := State.send_does ..)
    | with_reducible apply Does.step (h' := State.setSsd_does ..)
    | with_reducible apply Does.ite
    | intro _
    | extract_lets
    | fail_if_no_progress beta_reduce

theorem State.flush_does (s : State) (k : Nat) : Does [.store, .out] s (State.flush s k) := by
  unfold State.flush
  repeat' first
    | exact rfl
    | with_reducible exact Does.refl _ _
    | with_reducible apply Does.step (h' := State.nvme_does ..)
    | extract_lets
    | fail_if_no_progress beta_reduce

theorem State.createQueues_does (s : State) (k : Nat) : Does [.store, .out] s (State.createQueues s k) := by
  unfold State.createQueues
  repeat' first
    | exact rfl
    | with_reducible exact Does.refl _ _
    | with_reducible apply Does.step (h' := State.admin_does ..)
    | with_reducible apply Does.fold
    | intro _
    | extract_lets
    | fail_if_no_progress beta_reduce

theorem State.startSsd_does (s : State) (k : Nat) : Does [.store, .out] s (State.startSsd s k) := by
  unfold State.startSsd
  repeat' first
    | exact rfl
    | with_reducible exact Does.refl _ _
    | with_reducible apply Does.step (h' := State.createQueues_does ..)
    | with_reducible apply Does.step (h' := State.admin_does ..)
    | with_reducible apply Does.fold
    | intro _
    | extract_lets
    | fail_if_no_progress beta_reduce

theorem State.offMedium_does (s : State) (k : Nat) (slots : List Nat) : Does [.store] s (State.offMedium s k slots) := by
  unfold State.offMedium
  repeat' first
    | exact rfl
    | with_reducible exact Does.refl _ _
    | with_reducible apply Does.step (h' := State.setSsd_does ..)
    | extract_lets
    | fail_if_no_progress beta_reduce

theorem State.writeSeg_does (s : State) (g : Seg) : Does [.store, .out] s (State.writeSeg s g) := by
  unfold State.writeSeg
  repeat' first
    | exact rfl
    | with_reducible exact Does.refl _ _
    | with_reducible apply Does.step (h' := State.nvme_does ..)
    | with_reducible apply Does.step (h' := State.setSsd_does ..)
    | with_reducible apply Does.ite
    | with_reducible apply Does.fold
    | intro _
    | extract_lets
    | fail_if_no_progress beta_reduce

theorem State.failover_does (s : State) (k : Nat) : Does [.tb, .log, .sess, .od, .ports, .cls, .store, .link, .fab, .sw, .pods, .mem, .cel, .side, .pst, .pwr, .out, .free] s (State.failover s k) := by
  unfold State.failover
  repeat' first
    | exact rfl
    | with_reducible exact Does.refl _ _
    | with_reducible apply Does.step (h' := State.logE_does ..)
    | with_reducible apply Does.step (h' := State.logCount_does ..)
    | with_reducible apply Does.step (h' := State.put_does ..)
    | with_reducible apply Does.step (h' := State.setSsd_does ..)
    | with_reducible apply Does.step (h' := State.settle_does ..)
    | with_reducible apply Does.step (h' := State.writeSeg_does ..)
    | with_reducible apply Does.fold
    | intro _
    | extract_lets
    | fail_if_no_progress beta_reduce
    | with_reducible apply Does.step (h' := Does.set_store ..)

theorem State.hashDone_does (s : State) : Does [.log, .od, .ports, .store, .link, .side, .out, .free] s (State.hashDone s) := by
  unfold State.hashDone
  repeat' first
    | exact rfl
    | with_reducible exact Does.refl _ _
    | with_reducible apply Does.step (h' := State.updateLevel_does ..)
    | with_reducible apply Does.step (h' := State.drainBuffers_does ..)
    | with_reducible apply Does.step (h' := State.writeSeg_does ..)
    | with_reducible apply Does.step (h' := State.logE_does ..)
    | with_reducible apply Does.ite
    | split
    | intro _
    | extract_lets
    | fail_if_no_progress beta_reduce
    | with_reducible apply Does.step (h' := Does.set_store ..)

theorem State.writeOwed_does (s : State) (k : Nat) : Does [.store, .out] s (State.writeOwed s k) := by
  unfold State.writeOwed
  repeat' first
    | exact rfl
    | with_reducible exact Does.refl _ _
    | with_reducible apply Does.step (h' := State.writeSeg_does ..)
    | with_reducible apply Does.fold
    | intro _
    | extract_lets
    | fail_if_no_progress beta_reduce

theorem State.ssdState_does (s : State) (k : Nat) (v : Fin 4) : Does Part.logging s (State.ssdState s k v) := by
  unfold State.ssdState
  repeat' first
    | exact rfl
    | with_reducible exact Does.refl _ _
    | with_reducible apply Does.step (h' := State.logE_does ..)
    | with_reducible apply Does.step (h' := State.setSsd_does ..)
    | with_reducible apply Does.ite
    | intro _
    | extract_lets
    | fail_if_no_progress beta_reduce

theorem State.failSsd_does (s : State) (k : Nat) : Does [.tb, .log, .sess, .od, .ports, .cls, .store, .rep, .link, .fab, .sw, .pods, .mem, .cel, .side, .pst, .pwr, .out, .free] s (State.failSsd s k) := by
  unfold State.failSsd
  repeat' first
    | exact rfl
    | with_reducible exact Does.refl _ _
    | with_reducible apply Does.step (h' := State.ssdState_does ..)
    | with_reducible apply Does.step (h' := State.setSsd_does ..)
    | with_reducible apply Does.step (h' := State.logE_does ..)
    | with_reducible apply Does.step (h' := State.failover_does ..)
    | with_reducible apply Does.step (h' := State.toFault_does ..)
    | with_reducible apply Does.ite
    | intro _
    | extract_lets
    | fail_if_no_progress beta_reduce
    | with_reducible apply Does.step (h' := Does.set_store ..)
    | with_reducible apply Does.step (h' := Does.set_rep ..)

theorem State.writeDone_does (s : State) (k : Nat) (seq : Nat) (slot : Nat) : Does [.tb, .log, .sess, .od, .ports, .cls, .store, .link, .fab, .sw, .pods, .mem, .cel, .side, .pst, .pwr, .out, .free] s (State.writeDone s k seq slot) := by
  unfold State.writeDone
  repeat' first
    | exact rfl
    | with_reducible exact Does.refl _ _
    | with_reducible apply Does.step (h' := State.onMedium_does ..)
    | with_reducible apply Does.step (h' := State.settle_does ..)
    | with_reducible apply Does.step (h' := State.flush_does ..)
    | with_reducible apply Does.ite
    | intro _
    | extract_lets
    | fail_if_no_progress beta_reduce
    | with_reducible apply Does.step (h' := Does.set_store ..)

theorem State.closeDue_does (s : State) : Does [.store, .free] s (State.closeDue s) := by
  unfold State.closeDue
  repeat' first
    | exact rfl
    | with_reducible exact Does.refl _ _
    | with_reducible apply Does.step (h' := State.finishSeg_does ..)
    | with_reducible apply Does.step (h' := State.payFailover_does ..)
    | with_reducible apply Does.ite
    | split
    | intro _
    | extract_lets
    | fail_if_no_progress beta_reduce
    | with_reducible apply Does.step (h' := Does.set_store ..)

end Sys2Proof.Machine
end

