-- ==== Sys2Proof/Laws/DoesReplay.lean ====
section
/-! SUPPORT. What each operation of Machine/Replay.lean can do: the parts of the state it can touch, and what it keeps. -/

namespace Sys2Proof.Machine

theorem State.replayEnd_does (s : State) : Does [.log, .od, .store, .rep, .link, .side, .free] s (State.replayEnd s) := by
  unfold State.replayEnd
  repeat' first
    | exact rfl
    | with_reducible exact Does.refl _ _
    | with_reducible apply Does.step (h' := State.logE_does ..)
    | with_reducible apply Does.ite
    | intro _
    | extract_lets
    | fail_if_no_progress beta_reduce
    | with_reducible apply Does.step (h' := Does.set_rep ..)

theorem State.arbitrate_does (s : State) (p : Nat) (won : Bool) : Does [.log, .od, .store, .rep, .link, .side, .out, .free] s (State.arbitrate s p won) := by
  unfold State.arbitrate
  repeat' first
    | exact rfl
    | with_reducible exact Does.refl _ _
    | with_reducible apply Does.step (h' := State.setTx_does ..)
    | with_reducible apply Does.step (h' := State.replayEnd_does ..)
    | with_reducible apply Does.step (h' := State.send_does ..)
    | with_reducible apply Does.step (h' := State.bump_does ..)
    | with_reducible apply Does.ite
    | split
    | intro _
    | extract_lets
    | fail_if_no_progress beta_reduce

theorem State.fixOffset_does (s : State) : Does [.rep] s (State.fixOffset s) := by
  unfold State.fixOffset
  repeat' first
    | exact rfl
    | with_reducible exact Does.refl _ _
    | with_reducible apply Does.ite
    | split
    | intro _
    | extract_lets
    | fail_if_no_progress beta_reduce
    | with_reducible apply Does.step (h' := Does.set_rep ..)

theorem State.resume_does (s : State) : Does [.tb, .log, .od, .store, .rep, .link, .side, .free] s (State.resume s) := by
  unfold State.resume
  repeat' first
    | exact rfl
    | with_reducible exact Does.refl _ _
    | with_reducible apply Does.step (h' := State.reach_does ..)
    | with_reducible apply Does.step (h' := State.put_does ..)
    | with_reducible apply Does.step (h' := State.logHealth_does ..)
    | with_reducible apply Does.ite
    | split
    | intro _
    | extract_lets
    | fail_if_no_progress beta_reduce
    | with_reducible apply Does.step (h' := Does.set_rep ..)

theorem execHoldResume_does {s : State} {t : State} (h : execHoldResume s = .next t) : Does [.tb, .log, .od, .store, .rep, .link, .side, .free] s t := by
  unfold execHoldResume at h
  cases h
  repeat' first
    | exact rfl
    | with_reducible exact Does.refl _ _
    | with_reducible apply Does.step (h' := State.resume_does ..)
    | extract_lets
    | fail_if_no_progress beta_reduce

theorem execCanBusIdleTx_does {port : Fin 96} {won : Bool} {s : State} {t : State} (h : execCanBusIdleTx port won s = .next t) : Does [.log, .od, .store, .rep, .link, .side, .out, .free] s t := by
  unfold execCanBusIdleTx at h
  cases h
  repeat' first
    | exact rfl
    | with_reducible exact Does.refl _ _
    | with_reducible apply Does.step (h' := State.arbitrate_does ..)
    | extract_lets
    | fail_if_no_progress beta_reduce

theorem State.stopReplay_does (s : State) : Does [.rep] s (State.stopReplay s) := by
  unfold State.stopReplay
  repeat' first
    | exact rfl
    | with_reducible exact Does.refl _ _
    | extract_lets
    | fail_if_no_progress beta_reduce
    | with_reducible apply Does.step (h' := Does.set_rep ..)

theorem State.transmitted_does (s : State) (p : Nat) (e : Stamp) : Does [.tb, .log, .od, .ports, .cls, .store, .rep, .link, .fab, .net, .cel, .side, .out, .free] s (State.transmitted s p e) := by
  unfold State.transmitted
  repeat' first
    | exact rfl
    | with_reducible exact Does.refl _ _
    | with_reducible apply Does.step (h' := State.setTx_does ..)
    | with_reducible apply Does.step (h' := State.reach_does ..)
    | with_reducible apply Does.step (h' := State.replayEnd_does ..)
    | with_reducible apply Does.step (h' := State.recordSent_does ..)
    | split
    | extract_lets
    | fail_if_no_progress beta_reduce

theorem execFrameTransmitted_does {port : PortN} {edge : Stamp} {s : State} {t : State} (h : execFrameTransmitted port edge s = .next t) : Does [.tb, .log, .od, .ports, .cls, .store, .rep, .link, .fab, .net, .cel, .side, .out, .free] s t := by
  unfold execFrameTransmitted at h
  cases h
  repeat' first
    | exact rfl
    | with_reducible exact Does.refl _ _
    | with_reducible apply Does.step (h' := State.transmitted_does ..)
    | extract_lets
    | fail_if_no_progress beta_reduce

theorem State.holdStart_does (s : State) (p : Nat) (h : ℤ) : Does [.log, .od, .store, .rep, .link, .side, .free] s (State.holdStart s p h) := by
  unfold State.holdStart
  repeat' first
    | exact rfl
    | with_reducible exact Does.refl _ _
    | with_reducible apply Does.step (h' := State.bump_does ..)
    | with_reducible apply Does.step (h' := State.logHealth_does ..)
    | extract_lets
    | fail_if_no_progress beta_reduce
    | with_reducible apply Does.step (h' := Does.set_rep ..)

theorem State.sourceEnd_does (s : State) : Does [.log, .od, .store, .rep, .link, .side, .free] s (State.sourceEnd s) := by
  unfold State.sourceEnd
  repeat' first
    | exact rfl
    | with_reducible exact Does.refl _ _
    | with_reducible apply Does.step (h' := State.replayEnd_does ..)
    | with_reducible apply Does.ite
    | intro _
    | extract_lets
    | fail_if_no_progress beta_reduce
    | with_reducible apply Does.step (h' := Does.set_rep ..)

theorem State.readNext_does (s : State) : Does [.store, .out] s (State.readNext s) := by
  unfold State.readNext
  repeat' first
    | exact rfl
    | with_reducible exact Does.refl _ _
    | with_reducible apply Does.step (h' := State.nvme_does ..)
    | with_reducible apply Does.ite
    | split
    | intro _
    | extract_lets
    | fail_if_no_progress beta_reduce

theorem State.feed_does (s : State) (p : Nat) : Does [.log, .od, .store, .rep, .link, .pods, .side, .out, .free] s (State.feed s p) := by
  unfold State.feed
  repeat' first
    | exact rfl
    | with_reducible exact Does.refl _ _
    | with_reducible apply Does.step (h' := State.setTx_does ..)
    | with_reducible apply Does.step (h' := State.readNext_does ..)
    | with_reducible apply Does.step (h' := State.intoArrival_does ..)
    | with_reducible apply Does.step (h' := State.replayEnd_does ..)
    | with_reducible apply Does.step (h' := State.enqueue_does ..)
    | with_reducible apply Does.ite
    | split
    | intro _
    | extract_lets
    | fail_if_no_progress beta_reduce

theorem State.openSource_does (s : State) : Does [.store, .rep, .out] s (State.openSource s) := by
  unfold State.openSource
  repeat' first
    | exact rfl
    | with_reducible exact Does.refl _ _
    | with_reducible apply Does.step (h' := State.readNext_does ..)
    | with_reducible apply Does.ite
    | intro _
    | extract_lets
    | fail_if_no_progress beta_reduce
    | with_reducible apply Does.step (h' := Does.set_rep ..)

theorem State.startFrame_does (s : State) (p : Nat) (ctl : L48) (due : ℤ) (r : List Byte) : Does [.rep, .out] s (State.startFrame s p ctl due r) := by
  unfold State.startFrame
  repeat' first
    | exact rfl
    | with_reducible exact Does.refl _ _
    | with_reducible apply Does.step (h' := State.setTx_does ..)
    | with_reducible apply Does.step (h' := State.send_does ..)
    | with_reducible apply Does.ite
    | split
    | intro _
    | extract_lets
    | fail_if_no_progress beta_reduce

theorem State.sendEntry_does (s0 : State) (p : Nat) (ctl : L48) (due : ℤ) (r : List Byte) : Does [.od, .rep, .cel, .side, .out] s0 (State.sendEntry s0 p ctl due r) := by
  unfold State.sendEntry
  repeat' first
    | exact rfl
    | with_reducible exact Does.refl _ _
    | with_reducible apply Does.step (h' := State.readSides_does ..)
    | with_reducible apply Does.step (h' := State.bump_does ..)
    | with_reducible apply Does.step (h' := State.healSides_does ..)
    | with_reducible apply Does.step (h' := State.startFrame_does ..)
    | with_reducible apply Does.ite
    | intro _
    | extract_lets
    | fail_if_no_progress beta_reduce

theorem State.dropDry_does (s : State) (p : Nat) : Does [.log, .od, .store, .rep, .link, .side, .free] s (State.dropDry s p) := by
  unfold State.dropDry
  repeat' first
    | exact rfl
    | with_reducible exact Does.refl _ _
    | with_reducible apply Does.step (h' := State.bump_does ..)
    | with_reducible apply Does.step (h' := State.logCount_does ..)
    | with_reducible apply Does.step (h' := State.setTx_does ..)
    | with_reducible apply Does.ite
    | intro _
    | extract_lets
    | fail_if_no_progress beta_reduce

theorem State.headDue_does (s : State) (p : Nat) (e : Emit) (t : List Emit) : Does [.tb, .log, .od, .store, .rep, .link, .cel, .side, .out, .free] s (State.headDue s p e t) := by
  unfold State.headDue
  extract_lets c s1 y pop
  have h : Does [.tb, .log, .od, .store, .rep, .link, .cel, .side, .out, .free] s s1 := (State.reachInt_does ..).weaken rfl
  have hp : Does [.tb, .log, .od, .store, .rep, .link, .cel, .side, .out, .free] s pop := (h.step (State.setTx_does ..) rfl).step (State.fillBuffer_does ..) rfl
  clear_value pop y s1 c
  split
  · exact Does.refl _ _
  · split
    · exact h.step (State.holdStart_does ..) rfl
    · split
      · exact (hp.step (State.sendEntry_does ..) rfl).step (State.replayEnd_does ..) rfl
      · split
        · exact (hp.step (State.dropDry_does ..) rfl).step (State.replayEnd_does ..) rfl
        · exact ((hp.step (State.reachInt_does ..) rfl).step (State.sendEntry_does ..) rfl).step (State.replayEnd_does ..) rfl

theorem State.primed_does (s : State) : Does [.rep] s (State.primed s) := by
  unfold State.primed
  repeat' first
    | exact rfl
    | with_reducible exact Does.refl _ _
    | with_reducible apply Does.ite
    | intro _
    | extract_lets
    | fail_if_no_progress beta_reduce
    | with_reducible apply Does.step (h' := Does.set_rep ..)

theorem State.absentDue_does (s : State) (p : Nat) (c : ℤ) : Does [.tb, .log, .od, .store, .rep, .link, .side, .free] s (State.absentDue s p c) := by
  unfold State.absentDue
  split
  · exact Does.refl _ _
  · extract_lets s1
    have h : Does [.tb, .log, .od, .store, .rep, .link, .side, .free] s s1 := (State.reachInt_does ..).weaken rfl
    clear_value s1
    split
    · exact h.step (State.holdStart_does ..) rfl
    · split
      · exact (h.step (State.setTx_does ..) rfl).step (State.dropDry_does ..) rfl
      · split
        · exact h.step (State.holdStart_does ..) rfl
        · exact h

theorem State.takeSource_does (s : State) (c : ℤ) (r : List Byte) : Does [.od, .rep] s (State.takeSource s c r) := by
  unfold State.takeSource
  repeat' first
    | exact rfl
    | with_reducible exact Does.refl _ _
    | with_reducible apply Does.step (h' := State.setTx_does ..)
    | with_reducible apply Does.step (h' := State.bump_does ..)
    | with_reducible apply Does.ite
    | with_reducible apply Does.fold
    | intro _
    | extract_lets
    | fail_if_no_progress beta_reduce

theorem State.readDone_does (s : State) (seq : Nat) (ok : Bool) (b : List Byte) : Does [.log, .od, .store, .rep, .link, .side, .out, .free] s (State.readDone s seq ok b) := by
  unfold State.readDone
  repeat' first
    | exact rfl
    | with_reducible exact Does.refl _ _
    | with_reducible apply Does.step (h' := State.sourceEnd_does ..)
    | with_reducible apply Does.step (h' := State.primed_does ..)
    | with_reducible apply Does.step (h' := State.fixOffset_does ..)
    | with_reducible apply Does.step (h' := State.takeSource_does ..)
    | with_reducible apply Does.step (h' := State.readNext_does ..)
    | with_reducible apply Does.step (h' := State.logE_does ..)
    | with_reducible apply Does.ite
    | with_reducible apply Does.fold
    | intro _
    | extract_lets
    | fail_if_no_progress beta_reduce
    | with_reducible apply Does.step (h' := Does.set_rep ..)

theorem State.emitDue_does (s : State) (p : Nat) (c : ℤ) : Does [.tb, .log, .od, .store, .rep, .link, .cel, .side, .out, .free] s (State.emitDue s p c) := by
  unfold State.emitDue
  repeat' first
    | exact rfl
    | with_reducible exact Does.refl _ _
    | with_reducible apply Does.step (h' := State.headDue_does ..)
    | with_reducible apply Does.step (h' := State.absentDue_does ..)
    | with_reducible apply Does.step (h' := State.replayEnd_does ..)
    | with_reducible apply Does.ite
    | split
    | intro _
    | extract_lets
    | fail_if_no_progress beta_reduce

theorem execEmitCountReached_does {entry : EmitAt} {s : State} {t : State} (h : execEmitCountReached entry s = .next t) : Does [.tb, .log, .od, .store, .rep, .link, .cel, .side, .out, .free] s t := by
  unfold execEmitCountReached at h
  cases h
  repeat' first
    | exact rfl
    | with_reducible exact Does.refl _ _
    | with_reducible apply Does.step (h' := State.emitDue_does ..)
    | with_reducible apply Does.ite
    | intro _
    | extract_lets
    | fail_if_no_progress beta_reduce

theorem execFeedEmitEntry_does {port : PortN} {s : State} {t : State} (h : execFeedEmitEntry port s = .next t) : Does [.log, .od, .store, .rep, .link, .pods, .side, .out, .free] s t := by
  unfold execFeedEmitEntry at h
  cases h
  repeat' first
    | exact rfl
    | with_reducible exact Does.refl _ _
    | with_reducible apply Does.step (h' := State.feed_does ..)
    | extract_lets
    | fail_if_no_progress beta_reduce

end Sys2Proof.Machine
end

