-- ==== Sys2Proof/Laws/DoesLink.lean ====
section
/-! SUPPORT. What each operation of Machine/Link.lean can do: the parts of the state it can touch, and what it keeps. -/

namespace Sys2Proof.Machine

theorem State.opened_does (s : State) (f : LinkFrame) (b : List Byte) : Does [.link] s (State.opened s f b).1 := by
  unfold State.opened
  repeat' first
    | exact rfl
    | with_reducible exact Does.refl _ _
    | split
    | intro _
    | extract_lets
    | fail_if_no_progress beta_reduce
    | with_reducible apply Does.step (h' := Does.set_link ..)

theorem State.setLpath_does (s : State) (p : Nat) (x : LinkPath) : Does [.link] s (State.setLpath s p x) := by
  unfold State.setLpath
  repeat' first
    | exact rfl
    | with_reducible exact Does.refl _ _
    | extract_lets
    | fail_if_no_progress beta_reduce
    | with_reducible apply Does.step (h' := Does.set_link ..)

theorem State.paced_does (s : State) (p : Nat) (n : Nat) : Does [.link] s (State.paced s p n) := by
  unfold State.paced
  repeat' first
    | exact rfl
    | with_reducible exact Does.refl _ _
    | with_reducible apply Does.step (h' := State.setLpath_does ..)
    | with_reducible apply Does.ite
    | intro _
    | extract_lets
    | fail_if_no_progress beta_reduce

theorem State.netSend_does (s : State) (p : Nat) (b : List Byte) : Does [.out] s (State.netSend s p b) := by
  unfold State.netSend
  repeat' first
    | exact rfl
    | with_reducible exact Does.refl _ _
    | with_reducible apply Does.step (h' := State.send_does ..)
    | with_reducible apply Does.ite
    | intro _
    | extract_lets
    | fail_if_no_progress beta_reduce

theorem State.sealFrame_does (s : State) (path : Nat) (type : Nat) (flags : Nat) (ref : Nat) (k : Nat) (m : Nat) (idx : Nat) (seq : Nat) (body : List Byte) : Does [.out] s (State.sealFrame s path type flags ref k m idx seq body) := by
  unfold State.sealFrame
  repeat' first
    | exact rfl
    | with_reducible exact Does.refl _ _
    | with_reducible apply Does.step (h' := State.netSend_does ..)
    | with_reducible apply Does.ite
    | split
    | intro _
    | extract_lets
    | fail_if_no_progress beta_reduce

theorem State.takeSeq_does (s : State) (n : Nat) : Does [.link] s (State.takeSeq s n) := by
  unfold State.takeSeq
  repeat' first
    | exact rfl
    | with_reducible exact Does.refl _ _
    | extract_lets
    | fail_if_no_progress beta_reduce
    | with_reducible apply Does.step (h' := Does.set_link ..)

theorem State.sendFrame_does (s : State) (path : Nat) (type : Nat) (flags : Nat) (ref : Nat) (k : Nat) (m : Nat) (idx : Nat) (body : List Byte) : Does [.link, .out] s (State.sendFrame s path type flags ref k m idx body) := by
  unfold State.sendFrame
  repeat' first
    | exact rfl
    | with_reducible exact Does.refl _ _
    | with_reducible apply Does.step (h' := State.sealFrame_does ..)
    | with_reducible apply Does.step (h' := State.takeSeq_does ..)
    | with_reducible apply Does.ite
    | intro _
    | extract_lets
    | fail_if_no_progress beta_reduce

theorem State.sendAgain_does (s : State) (p : Nat) (k : KeptFrame) : Does [.od, .link, .out] s (State.sendAgain s p k) := by
  unfold State.sendAgain
  repeat' first
    | exact rfl
    | with_reducible exact Does.refl _ _
    | with_reducible apply Does.step (h' := State.paced_does ..)
    | with_reducible apply Does.step (h' := State.sendFrame_does ..)
    | with_reducible apply Does.step (h' := State.bump_does ..)
    | extract_lets
    | fail_if_no_progress beta_reduce

theorem State.carried_does (s : State) (p : Nat) : Does [.link] s (State.carried s p) := by
  unfold State.carried
  repeat' first
    | exact rfl
    | with_reducible exact Does.refl _ _
    | with_reducible apply Does.step (h' := State.setLpath_does ..)
    | extract_lets
    | fail_if_no_progress beta_reduce

theorem State.sendRepair_does (s : State) (p : Nat) (b : RepairTx) (rest : List RepairTx) : Does [.link, .out] s (State.sendRepair s p b rest) := by
  unfold State.sendRepair
  repeat' first
    | exact rfl
    | with_reducible exact Does.refl _ _
    | with_reducible apply Does.step (h' := State.paced_does ..)
    | with_reducible apply Does.step (h' := State.carried_does ..)
    | with_reducible apply Does.step (h' := State.sealFrame_does ..)
    | extract_lets
    | fail_if_no_progress beta_reduce
    | with_reducible apply Does.step (h' := Does.set_link ..)

theorem State.closeGroup_does (s : State) : Does [.link] s (State.closeGroup s) := by
  unfold State.closeGroup
  repeat' first
    | exact rfl
    | with_reducible exact Does.refl _ _
    | with_reducible apply Does.step (h' := State.takeSeq_does ..)
    | extract_lets
    | fail_if_no_progress beta_reduce
    | with_reducible apply Does.step (h' := Does.set_link ..)

theorem State.sendData_does (s : State) (p : Nat) (c : Nat) : Does [.od, .link, .out] s (State.sendData s p c) := by
  unfold State.sendData
  repeat' first
    | exact rfl
    | with_reducible exact Does.refl _ _
    | with_reducible apply Does.step (h' := State.bump_does ..)
    | with_reducible apply Does.step (h' := State.sendFrame_does ..)
    | with_reducible apply Does.step (h' := State.paced_does ..)
    | with_reducible apply Does.step (h' := State.carried_does ..)
    | with_reducible apply Does.step (h' := State.closeGroup_does ..)
    | with_reducible apply Does.ite
    | split
    | intro _
    | extract_lets
    | fail_if_no_progress beta_reduce
    | with_reducible apply Does.step (h' := Does.set_link ..)

theorem State.linkNext_does (s : State) (p : Nat) : Does [.od, .link, .out] s (State.linkNext s p) := by
  unfold State.linkNext
  repeat' first
    | exact rfl
    | with_reducible exact Does.refl _ _
    | with_reducible apply Does.step (h' := State.sendRepair_does ..)
    | with_reducible apply Does.step (h' := State.sendAgain_does ..)
    | with_reducible apply Does.step (h' := State.sendData_does ..)
    | split
    | extract_lets
    | fail_if_no_progress beta_reduce
    | with_reducible apply Does.step (h' := Does.set_link ..)

theorem State.arpIn_does (s : State) (mac : Nat) (isReply : Bool) (addr : List Byte) : Does [.link, .out] s (State.arpIn s mac isReply addr) := by
  unfold State.arpIn
  repeat' first
    | exact rfl
    | with_reducible exact Does.refl _ _
    | with_reducible apply Does.step (h' := State.setLpath_does ..)
    | with_reducible apply Does.step (h' := State.send_does ..)
    | with_reducible apply Does.ite
    | with_reducible apply Does.fold
    | intro _
    | extract_lets
    | fail_if_no_progress beta_reduce

theorem State.sendClose_does (s : State) : Does [.link, .out] s (State.sendClose s) := by
  unfold State.sendClose
  repeat' first
    | exact rfl
    | with_reducible exact Does.refl _ _
    | with_reducible apply Does.step (h' := State.sendFrame_does ..)
    | with_reducible apply Does.fold
    | intro _
    | extract_lets
    | fail_if_no_progress beta_reduce

theorem State.setLinkSt_does (s : State) (v : Fin 5) : Does Part.logging s (State.setLinkSt s v) := by
  unfold State.setLinkSt
  repeat' first
    | exact rfl
    | with_reducible exact Does.refl _ _
    | with_reducible apply Does.step (h' := State.logE_does ..)
    | with_reducible apply Does.ite
    | intro _
    | extract_lets
    | fail_if_no_progress beta_reduce
    | with_reducible apply Does.step (h' := Does.set_link ..)

theorem State.stopLink_does (s : State) : Does [.log, .od, .store, .link, .side, .out, .free] s (State.stopLink s) := by
  unfold State.stopLink
  repeat' first
    | exact rfl
    | with_reducible exact Does.refl _ _
    | with_reducible apply Does.step (h' := State.sendClose_does ..)
    | with_reducible apply Does.step (h' := State.setLinkSt_does ..)
    | with_reducible apply Does.ite
    | intro _
    | extract_lets
    | fail_if_no_progress beta_reduce
    | with_reducible apply Does.step (h' := Does.set_link ..)

theorem State.linkEvent_does (s : State) (v : Fin 5) : Does Part.logging s (State.linkEvent s v) := by
  unfold State.linkEvent
  repeat' first
    | exact rfl
    | with_reducible exact Does.refl _ _
    | with_reducible apply Does.step (h' := State.logE_does ..)
    | extract_lets
    | fail_if_no_progress beta_reduce
    | with_reducible apply Does.step (h' := Does.set_link ..)

theorem State.pathOpens_does (s : State) (p : Nat) : Does [.tb, .log, .od, .store, .link, .side, .free] s (State.pathOpens s p) := by
  unfold State.pathOpens
  repeat' first
    | exact rfl
    | with_reducible exact Does.refl _ _
    | with_reducible apply Does.step (h' := State.linkEvent_does ..)
    | with_reducible apply Does.step (h' := State.setLpath_does ..)
    | with_reducible apply Does.step (h' := State.reach_does ..)
    | with_reducible apply Does.ite
    | intro _
    | extract_lets
    | fail_if_no_progress beta_reduce

theorem execPathCloseExpiry_does {path : Fin 4} {s : State} {t : State} (h : execPathCloseExpiry path s = .next t) : Does [.tb, .log, .od, .store, .link, .side, .free] s t := by
  unfold execPathCloseExpiry at h
  cases h
  repeat' first
    | exact rfl
    | with_reducible exact Does.refl _ _
    | with_reducible apply Does.step (h' := State.pathOpens_does ..)
    | extract_lets
    | fail_if_no_progress beta_reduce

theorem State.badFrame_does (s : State) (p : Nat) : Does Part.logging s (State.badFrame s p) := by
  unfold State.badFrame
  repeat' first
    | exact rfl
    | with_reducible exact Does.refl _ _
    | with_reducible apply Does.step (h' := State.bump_does ..)
    | with_reducible apply Does.step (h' := State.setLpath_does ..)
    | with_reducible apply Does.step (h' := State.logE_does ..)
    | with_reducible apply Does.ite
    | intro _
    | extract_lets
    | fail_if_no_progress beta_reduce

theorem State.received_does (s : State) (p : Nat) (f : LinkFrame) (k : State → State) {l : List Part} (hl : (Part.logging.all fun p => l.contains p) = true) (hf0 : ∀ t, Does l t (k t)) : Does l s (State.received s p f k) := by
  unfold State.received
  repeat' first
    | exact rfl
    | with_reducible exact Does.refl _ _
    | exact Part.all_trans rfl hl
    | exact Part.all_self _
    | with_reducible apply Does.step (h' := hf0 ..)
    | with_reducible apply Does.step (h' := State.badFrame_does ..)
    | with_reducible apply Does.ite
    | intro _
    | extract_lets
    | fail_if_no_progress beta_reduce

theorem State.holdRec_does (s : State) (h : HeldRec) : Does [.od, .link] s (State.holdRec s h) := by
  unfold State.holdRec
  repeat' first
    | exact rfl
    | with_reducible exact Does.refl _ _
    | with_reducible apply Does.step (h' := State.bump_does ..)
    | with_reducible apply Does.ite
    | split
    | intro _
    | extract_lets
    | fail_if_no_progress beta_reduce
    | with_reducible apply Does.step (h' := Does.set_link ..)

theorem State.fixO_does (s : State) (o : ℤ) : Does Part.logging s (State.fixO s o) := by
  unfold State.fixO
  repeat' first
    | exact rfl
    | with_reducible exact Does.refl _ _
    | with_reducible apply Does.step (h' := State.logHealth_does ..)
    | with_reducible apply Does.step (h' := State.holdRec_does ..)
    | with_reducible apply Does.fold
    | intro _
    | extract_lets
    | fail_if_no_progress beta_reduce
    | with_reducible apply Does.step (h' := Does.set_link ..)

theorem State.storeReleased_does (s : State) (h : HeldRec) (r : List Byte) : Does Part.logging s (State.storeReleased s h r) := by
  unfold State.storeReleased
  repeat' first
    | exact rfl
    | with_reducible exact Does.refl _ _
    | with_reducible apply Does.step (h' := State.ctlStore_does ..)
    | with_reducible apply Does.step (h' := State.bump_does ..)
    | with_reducible apply Does.step (h' := State.logCount_does ..)
    | with_reducible apply Does.step (h' := State.stage_does ..)
    | with_reducible apply Does.step (h' := State.reachWrap_does ..)
    | with_reducible apply Does.ite
    | intro _
    | extract_lets
    | fail_if_no_progress beta_reduce
    | with_reducible apply Does.step (h' := Does.set_link ..)

theorem State.holdSum_does (s : State) : Does [.link] s (State.holdSum s) := by
  unfold State.holdSum
  repeat' first
    | exact rfl
    | with_reducible exact Does.refl _ _
    | with_reducible apply Does.step (h' := State.setLpath_does ..)
    | with_reducible apply Does.ite
    | with_reducible apply Does.fold
    | intro _
    | extract_lets
    | fail_if_no_progress beta_reduce

theorem State.linkAge_does (s : State) (l : Nat) (c : Nat) : Does [.tb, .log, .od, .store, .link, .side, .free] s (State.linkAge s l c) := by
  unfold State.linkAge
  repeat' first
    | exact rfl
    | with_reducible exact Does.refl _ _
    | with_reducible apply Does.step (h' := State.linkClose_does ..)
    | with_reducible apply Does.step (h' := State.reach_does ..)
    | split
    | extract_lets
    | fail_if_no_progress beta_reduce

theorem State.newHandshake_does (s : State) : Does [.log, .od, .store, .link, .side, .out, .free] s (State.newHandshake s) := by
  unfold State.newHandshake
  repeat' first
    | exact rfl
    | with_reducible exact Does.refl _ _
    | with_reducible apply Does.step (h' := State.setLinkSt_does ..)
    | with_reducible apply Does.step (h' := State.sendClose_does ..)
    | with_reducible apply Does.ite
    | intro _
    | extract_lets
    | fail_if_no_progress beta_reduce
    | with_reducible apply Does.step (h' := Does.set_link ..)

theorem State.authFail_does (s : State) : Does [.log, .od, .store, .link, .side, .out, .free] s (State.authFail s) := by
  unfold State.authFail
  repeat' first
    | exact rfl
    | with_reducible exact Does.refl _ _
    | with_reducible apply Does.step (h' := State.bump_does ..)
    | with_reducible apply Does.step (h' := State.newHandshake_does ..)
    | with_reducible apply Does.ite
    | intro _
    | extract_lets
    | fail_if_no_progress beta_reduce
    | with_reducible apply Does.step (h' := Does.set_link ..)

theorem State.openFrame_does (s : State) (f : LinkFrame) : Does [.log, .od, .store, .link, .side, .out, .free] s (State.openFrame s f).1 := by
  unfold State.openFrame
  repeat' first
    | exact rfl
    | with_reducible exact Does.refl _ _
    | with_reducible apply Does.step (h' := State.authFail_does ..)
    | with_reducible apply Does.step (h' := State.opened_does ..)
    | with_reducible refine Does.step ?_ (Does.fst (by assumption) (State.opened_does ..)) ?_
    | split
    | split
    | intro _
    | extract_lets
    | fail_if_no_progress beta_reduce

theorem State.closeIn_does (s : State) (f : LinkFrame) : Does [.log, .od, .store, .link, .side, .out, .free] s (State.closeIn s f) := by
  unfold State.closeIn
  repeat' first
    | exact rfl
    | with_reducible exact Does.refl _ _
    | with_reducible apply Does.step (h' := State.openFrame_does ..)
    | with_reducible refine Does.step ?_ (Does.fst (by assumption) (State.openFrame_does ..)) ?_
    | with_reducible apply Does.step (h' := State.setLinkSt_does ..)
    | with_reducible apply Does.ite
    | split
    | intro _
    | extract_lets
    | fail_if_no_progress beta_reduce
    | with_reducible apply Does.step (h' := Does.set_link ..)

theorem State.logKeys_does (s : State) : Does Part.logging s (State.logKeys s) := by
  unfold State.logKeys
  repeat' first
    | exact rfl
    | with_reducible exact Does.refl _ _
    | with_reducible apply Does.step (h' := State.logE_does ..)
    | extract_lets
    | fail_if_no_progress beta_reduce

theorem State.releaseNext_does (s : State) : Does [.tb, .log, .od, .store, .rep, .link, .side, .free] s (State.releaseNext s) := by
  unfold State.releaseNext
  repeat' first
    | exact rfl
    | with_reducible exact Does.refl _ _
    | with_reducible apply Does.step (h' := State.reach_does ..)
    | with_reducible apply Does.step (h' := State.storeReleased_does ..)
    | with_reducible apply Does.step (h' := State.takeSource_does ..)
    | with_reducible apply Does.ite
    | split
    | intro _
    | extract_lets
    | fail_if_no_progress beta_reduce
    | with_reducible apply Does.step (h' := Does.set_link ..)

theorem State.nakIn_does (s : State) (p : Nat) (f : LinkFrame) : Does [.log, .od, .store, .link, .side, .out, .free] s (State.nakIn s p f) := by
  unfold State.nakIn
  repeat' first
    | exact rfl
    | with_reducible exact Does.refl _ _
    | with_reducible apply Does.step (h' := State.openFrame_does ..)
    | with_reducible refine Does.step ?_ (Does.fst (by assumption) (State.openFrame_does ..)) ?_
    | with_reducible apply Does.step (h' := State.badFrame_does ..)
    | with_reducible apply Does.step (h' := State.sendAgain_does ..)
    | with_reducible apply Does.ite
    | split
    | intro _
    | extract_lets
    | fail_if_no_progress beta_reduce
    | with_reducible apply Does.step (h' := Does.set_link ..)

theorem execLinkNakReceived_does {path : Fin 4} {frame : LinkFrame} {s : State} {t : State} (h : execLinkNakReceived path frame s = .next t) : Does [.log, .od, .store, .link, .side, .out, .free] s t := by
  unfold execLinkNakReceived at h
  cases h
  repeat' first
    | exact rfl
    | with_reducible exact Does.refl _ _
    | with_reducible apply Does.step (h' := State.received_does (l := [.log, .od, .store, .link, .side, .out, .free]) (hl := rfl) (hf0 := fun t => ?_) ..)
    | with_reducible apply Does.step (h' := State.nakIn_does ..)
    | extract_lets
    | fail_if_no_progress beta_reduce
    | exact Does.refl _ _

theorem State.newKeys_does (s : State) (k : LinkKeys) : Does [.link] s (State.newKeys s k) := by
  unfold State.newKeys
  repeat' first
    | exact rfl
    | with_reducible exact Does.refl _ _
    | extract_lets
    | fail_if_no_progress beta_reduce
    | with_reducible apply Does.step (h' := Does.set_link ..)

theorem State.liveOffset_does (s : State) (ref : ℤ) : Does [.rep] s (State.liveOffset s ref) := by
  unfold State.liveOffset
  repeat' first
    | exact rfl
    | with_reducible exact Does.refl _ _
    | with_reducible apply Does.ite
    | intro _
    | extract_lets
    | fail_if_no_progress beta_reduce
    | with_reducible apply Does.step (h' := Does.set_rep ..)

theorem State.pathStats_does (s : State) (p : Nat) (q : Nat × Nat) (ref : ℤ) : Does [.link] s (State.pathStats s p q ref) := by
  unfold State.pathStats
  repeat' first
    | exact rfl
    | with_reducible exact Does.refl _ _
    | with_reducible apply Does.step (h' := State.setLpath_does ..)
    | with_reducible apply Does.ite
    | with_reducible apply Does.fold
    | intro _
    | extract_lets
    | fail_if_no_progress beta_reduce
    | with_reducible apply Does.step (h' := Does.set_link ..)

theorem State.bodyIn_does (s : State) (ref : ℤ) (body : List Byte) : Does Part.logging s (State.bodyIn s ref body) := by
  unfold State.bodyIn
  repeat' first
    | exact rfl
    | with_reducible exact Does.refl _ _
    | with_reducible apply Does.step (h' := State.fixO_does ..)
    | with_reducible apply Does.step (h' := State.holdRec_does ..)
    | with_reducible apply Does.ite
    | with_reducible apply Does.fold
    | split
    | intro _
    | extract_lets
    | fail_if_no_progress beta_reduce
    | with_reducible apply Does.step (h' := Does.set_link ..)

theorem State.groupIn_does (s : State) (p : Nat) (f : LinkFrame) (ref : ℤ) (body : List Byte) : Does Part.logging s (State.groupIn s p f ref body) := by
  unfold State.groupIn
  repeat' first
    | exact rfl
    | with_reducible exact Does.refl _ _
    | with_reducible apply Does.step (h' := State.bodyIn_does ..)
    | with_reducible apply Does.ite
    | with_reducible apply Does.fold
    | intro _
    | extract_lets
    | fail_if_no_progress beta_reduce
    | with_reducible apply Does.step (h' := Does.set_link ..)

theorem State.dataIn_does (s : State) (p : Nat) (f : LinkFrame) : Does [.log, .od, .store, .rep, .link, .side, .out, .free] s (State.dataIn s p f) := by
  unfold State.dataIn
  repeat' first
    | exact rfl
    | with_reducible exact Does.refl _ _
    | with_reducible apply Does.step (h' := State.openFrame_does ..)
    | with_reducible refine Does.step ?_ (Does.fst (by assumption) (State.openFrame_does ..)) ?_
    | with_reducible apply Does.step (h' := State.liveOffset_does ..)
    | with_reducible apply Does.step (h' := State.pathStats_does ..)
    | with_reducible apply Does.step (h' := State.bodyIn_does ..)
    | with_reducible apply Does.step (h' := State.groupIn_does ..)
    | with_reducible apply Does.ite
    | split
    | intro _
    | extract_lets
    | fail_if_no_progress beta_reduce
    | with_reducible apply Does.step (h' := Does.set_link ..)

theorem State.linkShed_does (s : State) (c : Nat) : Does [.tb, .od, .link] s (State.linkShed s c) := by
  unfold State.linkShed
  repeat' first
    | exact rfl
    | with_reducible exact Does.refl _ _
    | with_reducible apply Does.step (h' := State.bump_does ..)
    | with_reducible apply Does.step (h' := State.reach_does ..)
    | with_reducible apply Does.ite
    | split
    | intro _
    | extract_lets
    | fail_if_no_progress beta_reduce
    | with_reducible apply Does.step (h' := Does.set_link ..)

theorem State.oldKeyGone_does (s : State) : Does [.tb, .link] s (State.oldKeyGone s) := by
  unfold State.oldKeyGone
  split
  · exact Does.refl _ _
  · exact ((Does.refl _ _).step (State.reach_does ..) rfl).step (Does.set_link ..) rfl

theorem execLinkBlockAgeExpiry_does {lane : BitVec 16} {cls : Fin 4} {s : State} {t : State} (h : execLinkBlockAgeExpiry lane cls s = .next t) : Does [.tb, .log, .od, .store, .link, .side, .free] s t := by
  unfold execLinkBlockAgeExpiry at h
  cases h
  repeat' first
    | exact rfl
    | with_reducible exact Does.refl _ _
    | with_reducible apply Does.step (h' := State.linkAge_does ..)
    | extract_lets
    | fail_if_no_progress beta_reduce

theorem State.startLink_does (s : State) : Does Part.logging s (State.startLink s) := by
  unfold State.startLink
  repeat' first
    | exact rfl
    | with_reducible exact Does.refl _ _
    | with_reducible apply Does.step (h' := State.setLinkSt_does ..)
    | with_reducible apply Does.ite
    | intro _
    | extract_lets
    | fail_if_no_progress beta_reduce
    | with_reducible apply Does.step (h' := Does.set_link ..)

theorem State.mapFirst_does (s : State) : Does [.link] s (State.mapFirst s) := by
  unfold State.mapFirst
  repeat' first
    | exact rfl
    | with_reducible exact Does.refl _ _
    | extract_lets
    | fail_if_no_progress beta_reduce
    | with_reducible apply Does.step (h' := Does.set_link ..)

theorem State.answerIn_does (s : State) (p : Nat) (f : LinkFrame) : Does Part.logging s (State.answerIn s p f) := by
  unfold State.answerIn
  repeat' first
    | exact rfl
    | with_reducible exact Does.refl _ _
    | with_reducible apply Does.step (h' := State.badFrame_does ..)
    | with_reducible apply Does.step (h' := State.bump_does ..)
    | with_reducible apply Does.step (h' := State.newKeys_does ..)
    | with_reducible apply Does.step (h' := State.holdSum_does ..)
    | with_reducible apply Does.step (h' := State.setLpath_does ..)
    | with_reducible apply Does.step (h' := State.logKeys_does ..)
    | with_reducible apply Does.step (h' := State.setLinkSt_does ..)
    | with_reducible apply Does.step (h' := State.mapFirst_does ..)
    | with_reducible apply Does.ite
    | with_reducible apply Does.fold
    | split
    | intro _
    | extract_lets
    | fail_if_no_progress beta_reduce
    | with_reducible apply Does.step (h' := Does.set_link ..)

theorem execLinkAnswerReceived_does {path : Fin 4} {frame : LinkFrame} {s : State} {t : State} (h : execLinkAnswerReceived path frame s = .next t) : Does Part.logging s t := by
  unfold execLinkAnswerReceived at h
  cases h
  repeat' first
    | exact rfl
    | with_reducible exact Does.refl _ _
    | with_reducible apply Does.step (h' := State.received_does (l := Part.logging) (hl := rfl) (hf0 := fun t => ?_) ..)
    | with_reducible apply Does.step (h' := State.answerIn_does ..)
    | extract_lets
    | fail_if_no_progress beta_reduce
    | exact Does.refl _ _

theorem State.pathDown_does (s : State) (p : Nat) : Does [.tb, .log, .od, .store, .link, .side, .free] s (State.pathDown s p) := by
  unfold State.pathDown
  repeat' first
    | exact rfl
    | with_reducible exact Does.refl _ _
    | with_reducible apply Does.step (h' := State.setLpath_does ..)
    | with_reducible apply Does.step (h' := State.reach_does ..)
    | with_reducible apply Does.step (h' := State.linkEvent_does ..)
    | with_reducible apply Does.ite
    | split
    | intro _
    | extract_lets
    | fail_if_no_progress beta_reduce

theorem execPathReportTimeout_does {path : Fin 4} {s : State} {t : State} (h : execPathReportTimeout path s = .next t) : Does [.tb, .log, .od, .store, .link, .side, .free] s t := by
  unfold execPathReportTimeout at h
  cases h
  repeat' first
    | exact rfl
    | with_reducible exact Does.refl _ _
    | with_reducible apply Does.step (h' := State.pathDown_does ..)
    | extract_lets
    | fail_if_no_progress beta_reduce

theorem execRecordRelease_does {s : State} {t : State} (h : execRecordRelease s = .next t) : Does [.tb, .log, .od, .store, .rep, .link, .side, .free] s t := by
  unfold execRecordRelease at h
  cases h
  repeat' first
    | exact rfl
    | with_reducible exact Does.refl _ _
    | with_reducible apply Does.step (h' := State.releaseNext_does ..)
    | with_reducible apply Does.ite
    | intro _
    | extract_lets
    | fail_if_no_progress beta_reduce

theorem State.sendReport_does (s : State) (p : Nat) : Does [.tb, .link, .out] s (State.sendReport s p) := by
  unfold State.sendReport
  repeat' first
    | exact rfl
    | with_reducible exact Does.refl _ _
    | with_reducible apply Does.step (h' := State.reach_does ..)
    | with_reducible apply Does.step (h' := State.sendFrame_does ..)
    | with_reducible apply Does.step (h' := State.setLpath_does ..)
    | with_reducible apply Does.ite
    | split
    | intro _
    | extract_lets
    | fail_if_no_progress beta_reduce

theorem execReportIntervalExpiry_does {path : Fin 4} {s : State} {t : State} (h : execReportIntervalExpiry path s = .next t) : Does [.tb, .link, .out] s t := by
  unfold execReportIntervalExpiry at h
  cases h
  repeat' first
    | exact rfl
    | with_reducible exact Does.refl _ _
    | with_reducible apply Does.step (h' := State.sendReport_does ..)
    | extract_lets
    | fail_if_no_progress beta_reduce

theorem State.nakOut_does (s : State) (n : NakTx) : Does [.link, .out] s (State.nakOut s n) := by
  unfold State.nakOut
  repeat' first
    | exact rfl
    | with_reducible exact Does.refl _ _
    | with_reducible apply Does.step (h' := State.sendFrame_does ..)
    | split
    | extract_lets
    | fail_if_no_progress beta_reduce
    | with_reducible apply Does.step (h' := Does.set_link ..)

theorem State.sendNak_does (s : State) (keyno : BitVec 32) (seq : Nat) : Does [.tb, .link, .out] s (State.sendNak s keyno seq) := by
  unfold State.sendNak
  repeat' first
    | exact rfl
    | with_reducible exact Does.refl _ _
    | with_reducible apply Does.step (h' := State.nakOut_does ..)
    | with_reducible apply Does.step (h' := State.reach_does ..)
    | with_reducible apply Does.ite
    | split
    | intro _
    | extract_lets
    | fail_if_no_progress beta_reduce

theorem execNakTimer_does {keyno : BitVec 32} {seq : BitVec 64} {s : State} {t : State} (h : execNakTimer keyno seq s = .next t) : Does [.tb, .link, .out] s t := by
  unfold execNakTimer at h
  cases h
  repeat' first
    | exact rfl
    | with_reducible exact Does.refl _ _
    | with_reducible apply Does.step (h' := State.sendNak_does ..)
    | extract_lets
    | fail_if_no_progress beta_reduce

theorem execLinkCloseReceived_does {path : Fin 4} {frame : LinkFrame} {s : State} {t : State} (h : execLinkCloseReceived path frame s = .next t) : Does [.log, .od, .store, .link, .side, .out, .free] s t := by
  unfold execLinkCloseReceived at h
  cases h
  repeat' first
    | exact rfl
    | with_reducible exact Does.refl _ _
    | with_reducible apply Does.step (h' := State.received_does (l := [.log, .od, .store, .link, .side, .out, .free]) (hl := rfl) (hf0 := fun t => ?_) ..)
    | with_reducible apply Does.step (h' := State.closeIn_does ..)
    | extract_lets
    | fail_if_no_progress beta_reduce
    | exact Does.refl _ _

theorem State.groupTimeout_does (s : State) : Does [.tb, .link] s (State.groupTimeout s) := by
  unfold State.groupTimeout
  repeat' first
    | exact rfl
    | with_reducible exact Does.refl _ _
    | with_reducible apply Does.step (h' := State.closeGroup_does ..)
    | with_reducible apply Does.step (h' := State.reach_does ..)
    | with_reducible apply Does.ite
    | intro _
    | extract_lets
    | fail_if_no_progress beta_reduce

theorem execLinkRecordShed_does {cls : Fin 4} {s : State} {t : State} (h : execLinkRecordShed cls s = .next t) : Does [.tb, .od, .link] s t := by
  unfold execLinkRecordShed at h
  cases h
  repeat' first
    | exact rfl
    | with_reducible exact Does.refl _ _
    | with_reducible apply Does.step (h' := State.linkShed_does ..)
    | extract_lets
    | fail_if_no_progress beta_reduce

theorem State.rekey_does (s : State) : Does [.tb, .link] s (State.rekey s) := by
  unfold State.rekey
  repeat' first
    | exact rfl
    | with_reducible exact Does.refl _ _
    | with_reducible apply Does.step (h' := State.reach_does ..)
    | with_reducible apply Does.ite
    | intro _
    | extract_lets
    | fail_if_no_progress beta_reduce
    | with_reducible apply Does.step (h' := Does.set_link ..)

theorem execRekeyIntervalExpiry_does {s : State} {t : State} (h : execRekeyIntervalExpiry s = .next t) : Does [.tb, .link] s t := by
  unfold execRekeyIntervalExpiry at h
  cases h
  repeat' first
    | exact rfl
    | with_reducible exact Does.refl _ _
    | with_reducible apply Does.step (h' := State.rekey_does ..)
    | extract_lets
    | fail_if_no_progress beta_reduce

theorem State.reportIn_does (s : State) (p : Nat) (f : LinkFrame) : Does [.log, .od, .store, .link, .side, .out, .free] s (State.reportIn s p f) := by
  unfold State.reportIn
  repeat' first
    | exact rfl
    | with_reducible exact Does.refl _ _
    | with_reducible apply Does.step (h' := State.openFrame_does ..)
    | with_reducible refine Does.step ?_ (Does.fst (by assumption) (State.openFrame_does ..)) ?_
    | with_reducible apply Does.step (h' := State.badFrame_does ..)
    | with_reducible apply Does.step (h' := State.holdSum_does ..)
    | with_reducible apply Does.step (h' := State.setLpath_does ..)
    | with_reducible apply Does.step (h' := State.setLinkSt_does ..)
    | with_reducible apply Does.step (h' := State.linkEvent_does ..)
    | with_reducible apply Does.ite
    | split
    | intro _
    | extract_lets
    | fail_if_no_progress beta_reduce
    | with_reducible apply Does.step (h' := Does.set_link ..)

theorem execLinkDataFrameReceived_does {path : Fin 4} {frame : LinkFrame} {s : State} {t : State} (h : execLinkDataFrameReceived path frame s = .next t) : Does [.log, .od, .store, .rep, .link, .side, .out, .free] s t := by
  unfold execLinkDataFrameReceived at h
  cases h
  repeat' first
    | exact rfl
    | with_reducible exact Does.refl _ _
    | with_reducible apply Does.step (h' := State.received_does (l := [.log, .od, .store, .rep, .link, .side, .out, .free]) (hl := rfl) (hf0 := fun t => ?_) ..)
    | with_reducible apply Does.step (h' := State.dataIn_does ..)
    | extract_lets
    | fail_if_no_progress beta_reduce
    | exact Does.refl _ _

theorem execArpNdFrameReceived_does {mac : Fin 16} {isReply : Bool} {addr : List Byte} {s : State} {t : State} (h : execArpNdFrameReceived mac isReply addr s = .next t) : Does [.link, .out] s t := by
  unfold execArpNdFrameReceived at h
  cases h
  repeat' first
    | exact rfl
    | with_reducible exact Does.refl _ _
    | with_reducible apply Does.step (h' := State.arpIn_does ..)
    | extract_lets
    | fail_if_no_progress beta_reduce

theorem execCodeGroupTimeout_does {s : State} {t : State} (h : execCodeGroupTimeout s = .next t) : Does [.tb, .link] s t := by
  unfold execCodeGroupTimeout at h
  cases h
  repeat' first
    | exact rfl
    | with_reducible exact Does.refl _ _
    | with_reducible apply Does.step (h' := State.groupTimeout_does ..)
    | extract_lets
    | fail_if_no_progress beta_reduce

theorem execOldKeyExpiry_does {s : State} {t : State} (h : execOldKeyExpiry s = .next t) : Does [.tb, .link] s t := by
  unfold execOldKeyExpiry at h
  cases h
  repeat' first
    | exact rfl
    | with_reducible exact Does.refl _ _
    | with_reducible apply Does.step (h' := State.oldKeyGone_does ..)
    | extract_lets
    | fail_if_no_progress beta_reduce

theorem State.sendShake_does (s : State) (p : Nat) (type : Nat) (body : List Byte) : Does [.link, .out] s (State.sendShake s p type body) := by
  unfold State.sendShake
  repeat' first
    | exact rfl
    | with_reducible exact Does.refl _ _
    | with_reducible apply Does.step (h' := State.netSend_does ..)
    | extract_lets
    | fail_if_no_progress beta_reduce
    | with_reducible apply Does.step (h' := Does.set_link ..)

theorem State.helloIn_does (s : State) (p : Nat) (f : LinkFrame) : Does [.log, .od, .store, .link, .side, .out, .free] s (State.helloIn s p f) := by
  unfold State.helloIn
  repeat' first
    | exact rfl
    | with_reducible exact Does.refl _ _
    | with_reducible apply Does.step (h' := State.badFrame_does ..)
    | with_reducible apply Does.step (h' := State.logCount_does ..)
    | with_reducible apply Does.step (h' := State.bump_does ..)
    | with_reducible apply Does.step (h' := State.sendShake_does ..)
    | with_reducible apply Does.step (h' := State.newKeys_does ..)
    | with_reducible apply Does.step (h' := State.logKeys_does ..)
    | with_reducible apply Does.step (h' := State.setLinkSt_does ..)
    | with_reducible apply Does.ite
    | split
    | intro _
    | extract_lets
    | fail_if_no_progress beta_reduce
    | with_reducible apply Does.step (h' := Does.set_free ..)
    | with_reducible apply Does.step (h' := Does.set_link ..)

theorem State.linkSend_does (s : State) (p : Nat) : Does [.tb, .od, .link, .out] s (State.linkSend s p) := by
  unfold State.linkSend
  repeat' first
    | exact rfl
    | with_reducible exact Does.refl _ _
    | with_reducible apply Does.step (h' := State.linkNext_does ..)
    | with_reducible apply Does.step (h' := State.reach_does ..)
    | with_reducible apply Does.ite
    | intro _
    | extract_lets
    | fail_if_no_progress beta_reduce

theorem execLinkFrameSend_does {path : Fin 4} {s : State} {t : State} (h : execLinkFrameSend path s = .next t) : Does [.tb, .od, .link, .out] s t := by
  unfold execLinkFrameSend at h
  cases h
  repeat' first
    | exact rfl
    | with_reducible exact Does.refl _ _
    | with_reducible apply Does.step (h' := State.linkSend_does ..)
    | extract_lets
    | fail_if_no_progress beta_reduce

theorem State.helloTick_does (s0 : State) : Does [.tb, .link, .out, .free] s0 (State.helloTick s0) := by
  unfold State.helloTick
  split
  · extract_lets r x s y s1
    have hr : Does [.tb, .link, .out, .free] s0 r := by
      unfold r
      split
      · exact Does.refl _ _
      · exact (State.reach_does ..).weaken rfl
    have hs : Does [.tb, .link, .out, .free] s0 s := hr.step (Does.set_link ..) rfl
    clear_value s
    have h1 : Does [.tb, .link, .out, .free] s0 s1 := by
      unfold s1
      split
      · exact hs
      · split
        · exact Does.any ⟨.inr rfl, .inr rfl, .inr rfl, .inr rfl, .inr rfl, .inr rfl, .inr rfl, .inr rfl, .inr rfl, .inl rfl, .inr rfl, .inr rfl, .inr rfl, .inr rfl, .inr rfl, .inr rfl, .inr rfl, .inr rfl, .inr rfl, .inr rfl, .inr rfl, .inr rfl, .inl rfl⟩
            id id (List.prefix_refl _) (fun _ => rfl) (Fin.le_refl _) hs
        · exact hs
    clear_value s1
    split
    · exact h1
    · exact Does.fold (fun t p => Does.ite (fun _ => Does.refl _ _) fun _ => (State.sendShake_does ..).weaken rfl) _ h1
  · exact Does.refl _ _

theorem execHelloTimer_does {s : State} {t : State} (h : execHelloTimer s = .next t) : Does [.tb, .link, .out, .free] s t := by
  unfold execHelloTimer at h
  cases h
  repeat' first
    | exact rfl
    | with_reducible exact Does.refl _ _
    | with_reducible apply Does.step (h' := State.helloTick_does ..)
    | extract_lets
    | fail_if_no_progress beta_reduce

theorem execLinkReportReceived_does {path : Fin 4} {frame : LinkFrame} {s : State} {t : State} (h : execLinkReportReceived path frame s = .next t) : Does [.log, .od, .store, .link, .side, .out, .free] s t := by
  unfold execLinkReportReceived at h
  cases h
  repeat' first
    | exact rfl
    | with_reducible exact Does.refl _ _
    | with_reducible apply Does.step (h' := State.received_does (l := [.log, .od, .store, .link, .side, .out, .free]) (hl := rfl) (hf0 := fun t => ?_) ..)
    | with_reducible apply Does.step (h' := State.reportIn_does ..)
    | extract_lets
    | fail_if_no_progress beta_reduce
    | exact Does.refl _ _

theorem execLinkHelloReceived_does {path : Fin 4} {frame : LinkFrame} {s : State} {t : State} (h : execLinkHelloReceived path frame s = .next t) : Does [.log, .od, .store, .link, .side, .out, .free] s t := by
  unfold execLinkHelloReceived at h
  cases h
  repeat' first
    | exact rfl
    | with_reducible exact Does.refl _ _
    | with_reducible apply Does.step (h' := State.received_does (l := [.log, .od, .store, .link, .side, .out, .free]) (hl := rfl) (hf0 := fun t => ?_) ..)
    | with_reducible apply Does.step (h' := State.helloIn_does ..)
    | extract_lets
    | fail_if_no_progress beta_reduce
    | exact Does.refl _ _

end Sys2Proof.Machine
end

