-- ==== Sys2Proof/Laws/DoesXbar.lean ====
section
/-! SUPPORT. What each operation of Machine/Xbar.lean can do: the parts of the state it can touch, and what it keeps. -/

namespace Sys2Proof.Machine

theorem State.transferStarved_does (s : State) (p : Nat) : Does [.log, .od, .store, .link, .xbar, .side, .free] s (State.transferStarved s p) := by
  unfold State.transferStarved
  repeat' first
    | exact rfl
    | with_reducible exact Does.refl _ _
    | with_reducible apply Does.step (h' := State.bump_does ..)
    | with_reducible apply Does.step (h' := State.logCount_does ..)
    | with_reducible apply Does.ite
    | intro _
    | extract_lets
    | fail_if_no_progress beta_reduce
    | with_reducible apply Does.step (h' := Does.set_xbar ..)

theorem execTransferStarvation_does {pod : PodN} {s : State} {t : State} (h : execTransferStarvation pod s = .next t) : Does [.log, .od, .store, .link, .xbar, .side, .free] s t := by
  unfold execTransferStarvation at h
  cases h
  repeat' first
    | exact rfl
    | with_reducible exact Does.refl _ _
    | with_reducible apply Does.step (h' := State.transferStarved_does ..)
    | with_reducible apply Does.ite
    | intro _
    | extract_lets
    | fail_if_no_progress beta_reduce

theorem State.dataFailed_does (s : State) (m : Nat) (a : Nat) : Does Part.core s (State.dataFailed s m a) := by
  unfold State.dataFailed
  repeat' first
    | exact rfl
    | with_reducible exact Does.refl _ _
    | with_reducible apply Does.step (h' := State.warmReset_does ..)
    | with_reducible apply Does.ite
    | split
    | intro _
    | extract_lets
    | fail_if_no_progress beta_reduce

theorem State.readRows_does (s : State) (a : Nat) (n : Nat) (k3 : Nat) : Does Part.core s (State.readRows s a n k3).1 := by
  induction k3 generalizing s a n with
  | zero =>
    unfold State.readRows
    repeat' first
      | exact rfl
      | with_reducible exact Does.refl _ _
      | with_reducible apply Does.step (h' := ih ..)
      | with_reducible refine Does.step ?_ (Does.fst (by assumption) (ih ..)) ?_
      | with_reducible apply Does.step (h' := State.readMem_does ..)
      | with_reducible refine Does.step ?_ (Does.fst (by assumption) (State.readMem_does ..)) ?_
      | split
      | split
      | intro _
      | extract_lets
      | fail_if_no_progress beta_reduce
  | succ k ih =>
    unfold State.readRows
    repeat' first
      | exact rfl
      | with_reducible exact Does.refl _ _
      | with_reducible apply Does.step (h' := ih ..)
      | with_reducible refine Does.step ?_ (Does.fst (by assumption) (ih ..)) ?_
      | with_reducible apply Does.step (h' := State.readMem_does ..)
      | with_reducible refine Does.step ?_ (Does.fst (by assumption) (State.readMem_does ..)) ?_
      | split
      | split
      | intro _
      | extract_lets
      | fail_if_no_progress beta_reduce

theorem State.writeRows_does (s : State) (op : Nat) (a : Nat) (l : List Byte) (k4 : Nat) : Does Part.core s (State.writeRows s op a l k4).1 := by
  induction k4 generalizing s op a l with
  | zero =>
    unfold State.writeRows
    repeat' first
      | exact rfl
      | with_reducible exact Does.refl _ _
      | with_reducible apply Does.step (h' := ih ..)
      | with_reducible refine Does.step ?_ (Does.fst (by assumption) (ih ..)) ?_
      | with_reducible apply Does.step (h' := State.writeAlias_does ..)
      | with_reducible refine Does.step ?_ (Does.fst (by assumption) (State.writeAlias_does ..)) ?_
      | split
      | split
      | intro _
      | extract_lets
      | fail_if_no_progress beta_reduce
  | succ k ih =>
    unfold State.writeRows
    repeat' first
      | exact rfl
      | with_reducible exact Does.refl _ _
      | with_reducible apply Does.step (h' := ih ..)
      | with_reducible refine Does.step ?_ (Does.fst (by assumption) (ih ..)) ?_
      | with_reducible apply Does.step (h' := State.writeAlias_does ..)
      | with_reducible refine Does.step ?_ (Does.fst (by assumption) (State.writeAlias_does ..)) ?_
      | split
      | split
      | intro _
      | extract_lets
      | fail_if_no_progress beta_reduce

theorem State.unhold_does (s : State) (e : Nat) (k2 : Nat) : Does Part.core s (State.unhold s e k2) := by
  induction k2 generalizing s e with
  | zero =>
    unfold State.unhold
    repeat' first
      | exact rfl
      | with_reducible exact Does.refl _ _
      | with_reducible apply Does.step (h' := ih ..)
      | with_reducible apply Does.step (h' := State.readRows_does ..)
      | with_reducible refine Does.step ?_ (Does.fst (by assumption) (State.readRows_does ..)) ?_
      | with_reducible apply Does.step (h' := State.setEngine_does ..)
      | with_reducible apply Does.step (h' := State.writeRows_does ..)
      | with_reducible refine Does.step ?_ (Does.fst (by assumption) (State.writeRows_does ..)) ?_
      | with_reducible apply Does.ite
      | split
      | intro _
      | extract_lets
      | fail_if_no_progress beta_reduce
  | succ k ih =>
    unfold State.unhold
    repeat' first
      | exact rfl
      | with_reducible exact Does.refl _ _
      | with_reducible apply Does.step (h' := ih ..)
      | with_reducible apply Does.step (h' := State.readRows_does ..)
      | with_reducible refine Does.step ?_ (Does.fst (by assumption) (State.readRows_does ..)) ?_
      | with_reducible apply Does.step (h' := State.setEngine_does ..)
      | with_reducible apply Does.step (h' := State.writeRows_does ..)
      | with_reducible refine Does.step ?_ (Does.fst (by assumption) (State.writeRows_does ..)) ?_
      | with_reducible apply Does.ite
      | split
      | intro _
      | extract_lets
      | fail_if_no_progress beta_reduce

theorem State.respond_does (s : State) (w : XReq) (eng : Option Nat) (err : Bool) (d : List Byte) : Does Part.chip s (State.respond s w eng err d) := by
  unfold State.respond
  repeat' first
    | exact rfl
    | with_reducible exact Does.refl _ _
    | with_reducible apply Does.step (h' := State.unhold_does ..)
    | with_reducible apply Does.step (h' := State.setEngine_does ..)
    | with_reducible apply Does.step (h' := State.send_does ..)
    | split
    | extract_lets
    | fail_if_no_progress beta_reduce

theorem State.xError_does (s : State) (w : XReq) (eng : Option Nat) (cause : Nat) (target : Nat) : Does Part.chip s (State.xError s w eng cause target) := by
  unfold State.xError
  repeat' first
    | exact rfl
    | with_reducible exact Does.refl _ _
    | with_reducible apply Does.step (h' := State.bump_does ..)
    | with_reducible apply Does.step (h' := State.logCount_does ..)
    | with_reducible apply Does.step (h' := State.dataFailed_does ..)
    | with_reducible apply Does.step (h' := State.respond_does ..)
    | with_reducible apply Does.ite
    | split
    | intro _
    | extract_lets
    | fail_if_no_progress beta_reduce
    | with_reducible apply Does.step (h' := Does.set_xbar ..)

theorem State.wInjHi_does (s : State) (v : Nat) (mask : Nat) : Does [.mem, .cel] s (State.wInjHi s v mask) := by
  unfold State.wInjHi
  repeat' first
    | exact rfl
    | with_reducible exact Does.refl _ _
    | with_reducible apply Does.ite
    | intro _
    | extract_lets
    | fail_if_no_progress beta_reduce
    | with_reducible refine Does.step ?_ (Does.set_mem _ _ (Memory.wf_of_cells (Memory.cells_mk ..))) ?_

theorem State.xWait_does (s : State) (t : Nat) (w : XWait) : Does [.xbar] s (State.xWait s t w) := by
  unfold State.xWait
  repeat' first
    | exact rfl
    | with_reducible exact Does.refl _ _
    | extract_lets
    | fail_if_no_progress beta_reduce
    | with_reducible apply Does.step (h' := Does.set_xbar ..)

theorem State.xAccept_does (s : State) (w : XReq) (eng : Option Nat) : Does Part.chip s (State.xAccept s w eng) := by
  unfold State.xAccept
  repeat' first
    | exact rfl
    | with_reducible exact Does.refl _ _
    | with_reducible apply Does.step (h' := State.xError_does ..)
    | with_reducible apply Does.step (h' := State.xWait_does ..)
    | with_reducible apply Does.ite
    | with_reducible apply Does.fold
    | split
    | intro _
    | extract_lets
    | fail_if_no_progress beta_reduce

theorem State.wEngIrq_does (s : State) (e : Nat) (v : Nat) (mask : Nat) : Does [.eng] s (State.wEngIrq s e v mask) := by
  unfold State.wEngIrq
  repeat' first
    | exact rfl
    | with_reducible exact Does.refl _ _
    | with_reducible apply Does.step (h' := State.setEngine_does ..)
    | with_reducible apply Does.ite
    | intro _
    | extract_lets
    | fail_if_no_progress beta_reduce

theorem State.wEngExc_does (s : State) (e : Nat) (v : Nat) (mask : Nat) : Does [.eng] s (State.wEngExc s e v mask) := by
  unfold State.wEngExc
  repeat' first
    | exact rfl
    | with_reducible exact Does.refl _ _
    | with_reducible apply Does.step (h' := State.setEngine_does ..)
    | with_reducible apply Does.ite
    | intro _
    | extract_lets
    | fail_if_no_progress beta_reduce

theorem State.wDoor_does (s : State) (n : Nat) (v : Nat) (mask : Nat) : Does [.pst] s (State.wDoor s n v mask) := by
  unfold State.wDoor
  repeat' first
    | exact rfl
    | with_reducible exact Does.refl _ _
    | extract_lets
    | fail_if_no_progress beta_reduce
    | with_reducible refine Does.step ?_ (Does.set_pst _ _ (by with_reducible rfl) (by with_reducible rfl)) ?_

theorem State.regWrite_does (s : State) (a : Nat) (v : Nat) (mask : Nat) : Does [.od, .eng, .pods, .xbar, .mem, .cel, .pst] s (State.regWrite s a v mask) := by
  unfold State.regWrite
  repeat' first
    | exact rfl
    | with_reducible exact Does.refl _ _
    | with_reducible apply Does.step (h' := State.wEngIrq_does ..)
    | with_reducible apply Does.step (h' := State.wEngExc_does ..)
    | with_reducible apply Does.step (h' := State.wDoor_does ..)
    | with_reducible apply Does.step (h' := State.setErst_does ..)
    | with_reducible apply Does.step (h' := State.wInjHi_does ..)
    | with_reducible apply Does.ite
    | split
    | intro _
    | extract_lets
    | fail_if_no_progress beta_reduce
    | with_reducible apply Does.step (h' := Does.set_xbar ..)
    | with_reducible refine Does.step ?_ (Does.set_pst _ _ (by with_reducible rfl) (by with_reducible rfl)) ?_
    | with_reducible refine Does.step ?_ (Does.set_mem _ _ (Memory.wf_of_cells (Memory.cells_mk ..))) ?_

theorem State.writeRegs_does (s : State) (a : Nat) (l : List Byte) (k3 : Nat) : Does [.od, .eng, .pods, .xbar, .mem, .cel, .pst] s (State.writeRegs s a l k3) := by
  induction k3 generalizing s a l with
  | zero =>
    unfold State.writeRegs
    repeat' first
      | exact rfl
      | with_reducible exact Does.refl _ _
      | with_reducible apply Does.step (h' := ih ..)
      | with_reducible apply Does.step (h' := State.regWrite_does ..)
      | with_reducible apply Does.ite
      | split
      | intro _
      | extract_lets
      | fail_if_no_progress beta_reduce
  | succ k ih =>
    unfold State.writeRegs
    repeat' first
      | exact rfl
      | with_reducible exact Does.refl _ _
      | with_reducible apply Does.step (h' := ih ..)
      | with_reducible apply Does.step (h' := State.regWrite_does ..)
      | with_reducible apply Does.ite
      | split
      | intro _
      | extract_lets
      | fail_if_no_progress beta_reduce

theorem State.readRegs_does (s : State) (a : Nat) (n : Nat) : Does [.free] s (State.readRegs s a n).1 := by
  unfold State.readRegs
  refine Does.foldFst (fun t i => ?_) _ (Does.refl _ _)
  dsimp only
  split
  · exact Does.refl _ _
  · exact (Does.refl _ _).step (State.draw_does t.1 2) rfl

theorem State.xMemory_does (s : State) (w : XWait) : Does Part.chip s (State.xMemory s w) := by
  unfold State.xMemory
  repeat' first
    | exact rfl
    | with_reducible exact Does.refl _ _
    | with_reducible apply Does.step (h' := State.writeDram_does ..)
    | with_reducible refine Does.step ?_ (Does.fst (by assumption) (State.writeDram_does ..)) ?_
    | with_reducible apply Does.step (h' := State.respond_does ..)
    | with_reducible apply Does.step (h' := State.dramFailed_does ..)
    | with_reducible apply Does.step (h' := State.readDram_does ..)
    | with_reducible refine Does.step ?_ (Does.fst (by assumption) (State.readDram_does ..)) ?_
    | with_reducible apply Does.step (h' := State.writeRows_does ..)
    | with_reducible refine Does.step ?_ (Does.fst (by assumption) (State.writeRows_does ..)) ?_
    | with_reducible apply Does.step (h' := State.readRows_does ..)
    | with_reducible refine Does.step ?_ (Does.fst (by assumption) (State.readRows_does ..)) ?_
    | with_reducible apply Does.ite
    | split
    | intro _
    | extract_lets
    | fail_if_no_progress beta_reduce

theorem State.perform_does (s : State) (w : XWait) : Does Part.chip s (State.perform s w) := by
  unfold State.perform
  repeat' first
    | exact rfl
    | with_reducible exact Does.refl _ _
    | with_reducible apply Does.step (h' := State.send_does ..)
    | with_reducible apply Does.step (h' := State.respond_does ..)
    | with_reducible apply Does.step (h' := State.writeRegs_does ..)
    | with_reducible apply Does.step (h' := State.readRegs_does ..)
    | with_reducible refine Does.step ?_ (Does.fst (by assumption) (State.readRegs_does ..)) ?_
    | with_reducible apply Does.step (h' := State.xMemory_does ..)
    | with_reducible apply Does.ite
    | intro _
    | extract_lets
    | fail_if_no_progress beta_reduce

theorem State.grantTo_does (s : State) (t : Nat) (m : Nat) : Does Part.chip s (State.grantTo s t m) := by
  unfold State.grantTo
  repeat' first
    | exact rfl
    | with_reducible exact Does.refl _ _
    | with_reducible apply Does.step (h' := State.perform_does ..)
    | with_reducible apply Does.ite
    | split
    | intro _
    | extract_lets
    | fail_if_no_progress beta_reduce
    | with_reducible apply Does.step (h' := Does.set_xbar ..)

theorem State.xCycle_does (s : State) (t : Nat) (arrivals : List XReq) : Does Part.chip s (State.xCycle s t arrivals) := by
  unfold State.xCycle
  extract_lets before idle pick x s1 fresh y s2 s3
  have h1 : Does Part.chip s s1 := Does.fold (fun u w => (Does.refl _ _).step (State.xAccept_does u w none) rfl) _ ((Does.set_xbar ..).weaken rfl)
  have h2 : Does Part.chip s s2 := h1.step (Does.set_xbar ..) rfl
  have h3 : Does Part.chip s s3 := by
    clear_value s2 s1 pick idle
    unfold s3
    split
    · exact h2.step (State.grantTo_does ..) rfl
    · split
      · exact h2.step (State.grantTo_does ..) rfl
      · exact h2
  clear_value s3
  split
  · exact h1
  · split
    · exact h3.step (Does.set_xbar ..) rfl
    · exact h3

theorem State.transact_does (s : State) (w : XReq) : Does Part.chip s (State.transact s w) := by
  unfold State.transact
  repeat' first
    | exact rfl
    | with_reducible exact Does.refl _ _
    | with_reducible apply Does.step (h' := State.xError_does ..)
    | with_reducible apply Does.step (h' := State.perform_does ..)
    | with_reducible apply Does.ite
    | with_reducible apply Does.fold
    | split
    | intro _
    | extract_lets
    | fail_if_no_progress beta_reduce

theorem State.wReg_does (s : State) (m : MasterN) (a : Nat) (v : BitVec 32) : Does Part.chip s (State.wReg s m a v) := by
  unfold State.wReg
  repeat' first
    | exact rfl
    | with_reducible exact Does.refl _ _
    | with_reducible apply Does.step (h' := State.transact_does ..)
    | extract_lets
    | fail_if_no_progress beta_reduce

theorem execPccErstWrite_does {master : MasterN} {pod : PodN} {v : BitVec 32} {s : State} {t : State} (h : execPccErstWrite master pod v s = .next t) : Does Part.chip s t := by
  unfold execPccErstWrite at h
  cases h
  repeat' first
    | exact rfl
    | with_reducible exact Does.refl _ _
    | with_reducible apply Does.step (h' := State.wReg_does ..)
    | extract_lets
    | fail_if_no_progress beta_reduce

theorem State.starved_does (s : State) (t : Nat) (m : Nat) : Does [.log, .od, .store, .link, .xbar, .side, .free] s (State.starved s t m) := by
  unfold State.starved
  repeat' first
    | exact rfl
    | with_reducible exact Does.refl _ _
    | with_reducible apply Does.step (h' := State.bump_does ..)
    | with_reducible apply Does.step (h' := State.logCount_does ..)
    | with_reducible apply Does.ite
    | intro _
    | extract_lets
    | fail_if_no_progress beta_reduce
    | with_reducible apply Does.step (h' := Does.set_xbar ..)

theorem execXbMapWrite_does {master : MasterN} {v : BitVec 32} {s : State} {t : State} (h : execXbMapWrite master v s = .next t) : Does Part.chip s t := by
  unfold execXbMapWrite at h
  cases h
  repeat' first
    | exact rfl
    | with_reducible exact Does.refl _ _
    | with_reducible apply Does.step (h' := State.wReg_does ..)
    | extract_lets
    | fail_if_no_progress beta_reduce

theorem execXbarStarvation_does {target : Fin 56} {master : MasterN} {s : State} {t : State} (h : execXbarStarvation target master s = .next t) : Does [.log, .od, .store, .link, .xbar, .side, .free] s t := by
  unfold execXbarStarvation at h
  cases h
  repeat' first
    | exact rfl
    | with_reducible exact Does.refl _ _
    | with_reducible apply Does.step (h' := State.starved_does ..)
    | extract_lets
    | fail_if_no_progress beta_reduce

theorem execGrnInjArm_does {master : MasterN} {lo : BitVec 32} {hi : BitVec 32} {s : State} {t : State} (h : execGrnInjArm master lo hi s = .next t) : Does Part.chip s t := by
  unfold execGrnInjArm at h
  cases h
  repeat' first
    | exact rfl
    | with_reducible exact Does.refl _ _
    | with_reducible apply Does.step (h' := State.wReg_does ..)
    | extract_lets
    | fail_if_no_progress beta_reduce

theorem execXbErrInfoClear_does {master : MasterN} {v : BitVec 32} {s : State} {t : State} (h : execXbErrInfoClear master v s = .next t) : Does Part.chip s t := by
  unfold execXbErrInfoClear at h
  cases h
  repeat' first
    | exact rfl
    | with_reducible exact Does.refl _ _
    | with_reducible apply Does.step (h' := State.wReg_does ..)
    | extract_lets
    | fail_if_no_progress beta_reduce

theorem execXbarGrant_does {target : Fin 56} {arrivals : List XReq} {s : State} {t : State} (h : execXbarGrant target arrivals s = .next t) : Does Part.chip s t := by
  unfold execXbarGrant at h
  cases h
  repeat' first
    | exact rfl
    | with_reducible exact Does.refl _ _
    | with_reducible apply Does.step (h' := State.xCycle_does ..)
    | with_reducible apply Does.ite
    | intro _
    | extract_lets
    | fail_if_no_progress beta_reduce

theorem execXbArbitrationWrite_does {master : MasterN} {park : Bool} {port : MasterN} {target : Fin 56} {v : BitVec 32} {s : State} {t : State} (h : execXbArbitrationWrite master park port target v s = .next t) : Does Part.chip s t := by
  unfold execXbArbitrationWrite at h
  cases h
  repeat' first
    | exact rfl
    | with_reducible exact Does.refl _ _
    | with_reducible apply Does.step (h' := State.wReg_does ..)
    | with_reducible apply Does.ite
    | intro _
    | extract_lets
    | fail_if_no_progress beta_reduce

theorem execWatchdogKick_does {k : Fin 4} {v : BitVec 32} {s : State} {t : State} (h : execWatchdogKick k v s = .next t) : Does Part.chip s t := by
  unfold execWatchdogKick at h
  cases h
  repeat' first
    | exact rfl
    | with_reducible exact Does.refl _ _
    | with_reducible apply Does.step (h' := State.wReg_does ..)
    | extract_lets
    | fail_if_no_progress beta_reduce

theorem execXbRgnWrite_does {master : MasterN} {port : MasterN} {desc : Fin 16} {reg : Fin 3} {v : BitVec 32} {s : State} {t : State} (h : execXbRgnWrite master port desc reg v s = .next t) : Does Part.chip s t := by
  unfold execXbRgnWrite at h
  cases h
  repeat' first
    | exact rfl
    | with_reducible exact Does.refl _ _
    | with_reducible apply Does.step (h' := State.wReg_does ..)
    | extract_lets
    | fail_if_no_progress beta_reduce

theorem execPstFbaseWrite_does {master : MasterN} {k : Fin 4} {v : BitVec 32} {s : State} {t : State} (h : execPstFbaseWrite master k v s = .next t) : Does Part.chip s t := by
  unfold execPstFbaseWrite at h
  cases h
  repeat' first
    | exact rfl
    | with_reducible exact Does.refl _ _
    | with_reducible apply Does.step (h' := State.wReg_does ..)
    | extract_lets
    | fail_if_no_progress beta_reduce

theorem execEngExcResume_does {master : MasterN} {eng : Fin 1024} {s : State} {t : State} (h : execEngExcResume master eng s = .next t) : Does Part.chip s t := by
  unfold execEngExcResume at h
  cases h
  repeat' first
    | exact rfl
    | with_reducible exact Does.refl _ _
    | with_reducible apply Does.step (h' := State.wReg_does ..)
    | extract_lets
    | fail_if_no_progress beta_reduce

theorem execEngIrqWrite_does {master : MasterN} {eng : Fin 1024} {v : BitVec 32} {s : State} {t : State} (h : execEngIrqWrite master eng v s = .next t) : Does Part.chip s t := by
  unfold execEngIrqWrite at h
  cases h
  repeat' first
    | exact rfl
    | with_reducible exact Does.refl _ _
    | with_reducible apply Does.step (h' := State.wReg_does ..)
    | extract_lets
    | fail_if_no_progress beta_reduce

end Sys2Proof.Machine
end

