-- ==== Sys2Proof/Laws/DoesEngMem.lean ====
section
/-! SUPPORT. What each operation of Machine/EngMem.lean can do: the parts of the state it can touch, and what it keeps. -/

namespace Sys2Proof.Machine

theorem State.predWrite_does (s : State) (e : Nat) (v : W24) : Does [.store, .link] s (State.predWrite s e v) := by
  unfold State.predWrite
  repeat' first
    | exact rfl
    | with_reducible exact Does.refl _ _
    | with_reducible apply Does.step (h' := State.tellBlocks_does ..)
    | with_reducible apply Does.ite
    | intro _
    | extract_lets
    | fail_if_no_progress beta_reduce
    | with_reducible apply Does.step (h' := Does.set_store ..)

theorem State.engDrops_does (s : State) (e : Nat) (n : Nat) : Does [.od] s (State.engDrops s e n) := by
  unfold State.engDrops
  repeat' first
    | exact rfl
    | with_reducible exact Does.refl _ _
    | with_reducible apply Does.step (h' := State.bumpBy_does ..)
    | with_reducible apply Does.ite
    | intro _
    | extract_lets
    | fail_if_no_progress beta_reduce

theorem State.appendWord_does (s : State) (e : Nat) (out : Bool) (v : W24) : Does [.od, .eng] s (State.appendWord s e out v) := by
  unfold State.appendWord
  repeat' first
    | exact rfl
    | with_reducible exact Does.refl _ _
    | with_reducible apply Does.step (h' := State.engDrops_does ..)
    | with_reducible apply Does.step (h' := State.setEngine_does ..)
    | with_reducible apply Does.ite
    | split
    | intro _
    | extract_lets
    | fail_if_no_progress beta_reduce

theorem State.pushWord_does (s : State) (e : Nat) (out : Bool) (v : W24) : Does [.od, .eng, .side] s (State.pushWord s e out v) := by
  unfold State.pushWord
  repeat' first
    | exact rfl
    | with_reducible exact Does.refl _ _
    | with_reducible apply Does.step (h' := State.healSides_does ..)
    | with_reducible apply Does.step (h' := State.engDrops_does ..)
    | with_reducible apply Does.step (h' := State.setEngine_does ..)
    | with_reducible apply Does.step (h' := State.appendWord_does ..)
    | with_reducible apply Does.ite
    | intro _
    | extract_lets
    | fail_if_no_progress beta_reduce

theorem State.acceptOut_does (s : State) (e : Nat) (f0 : L1Fl) : Does Part.chip s (State.acceptOut s e f0) := by
  unfold State.acceptOut
  extract_lets f parts bad x out
  have h : ∀ l, Does Part.chip s (out l) := fun l => ((Does.refl _ _).step (Does.set_xbar ..) rfl).step (State.setEngine_does ..) rfl
  clear_value bad out
  split
  · exact (h _).step (State.xError_does ..) rfl
  · exact Does.fold (fun t w => (Does.refl _ _).step (State.xAccept_does ..) rfl) _ (h _)

theorem State.bankServed_does (s : State) (e : Nat) (l : List Nat) : Does [.pods] s (State.bankServed s e l) := by
  unfold State.bankServed
  repeat' first
    | exact rfl
    | with_reducible exact Does.refl _ _
    | with_reducible apply Does.step (h' := State.setPod_does ..)
    | with_reducible apply Does.fold
    | intro _
    | extract_lets
    | fail_if_no_progress beta_reduce

theorem State.grant1_does (s : State) (e : Nat) (waited : Nat) : Does Part.chip s (State.grant1 s e waited) := by
  unfold State.grant1
  repeat' first
    | exact rfl
    | with_reducible exact Does.refl _ _
    | with_reducible apply Does.step (h' := State.acceptOut_does ..)
    | with_reducible apply Does.step (h' := State.bankServed_does ..)
    | with_reducible apply Does.step (h' := State.bumpBy_does ..)
    | with_reducible apply Does.step (h' := State.setEngine_does ..)
    | with_reducible apply Does.step (h' := State.readRows_does ..)
    | with_reducible refine Does.step ?_ (Does.fst (by assumption) (State.readRows_does ..)) ?_
    | with_reducible apply Does.step (h' := State.writeRows_does ..)
    | with_reducible refine Does.step ?_ (Does.fst (by assumption) (State.writeRows_does ..)) ?_
    | with_reducible apply Does.ite
    | split
    | intro _
    | extract_lets
    | fail_if_no_progress beta_reduce

theorem asBundle_fst (r : State × Option (List Byte)) : (asBundle r).1 = r.1 := rfl

theorem State.dmemWord_does (s : State) (e : Nat) (w : Nat) : Does Part.core s (State.dmemWord s e w).1 := by
  unfold State.dmemWord
  repeat' first
    | exact rfl
    | with_reducible exact Does.refl _ _
    | with_reducible apply Does.step (h' := State.readRows_does ..)
    | with_reducible refine Does.step ?_ (Does.fst (by assumption) (State.readRows_does ..)) ?_
    | extract_lets
    | fail_if_no_progress beta_reduce

theorem State.unfull_does (s : State) (e : Nat) : Does [.od, .eng] s (State.unfull s e) := by
  unfold State.unfull
  repeat' first
    | exact rfl
    | with_reducible exact Does.refl _ _
    | with_reducible apply Does.step (h' := State.appendWord_does ..)
    | with_reducible apply Does.step (h' := State.setEngine_does ..)
    | with_reducible apply Does.ite
    | split
    | intro _
    | extract_lets
    | fail_if_no_progress beta_reduce

theorem State.dropLate_does (s : State) : Does Part.logging s (State.dropLate s) := by
  unfold State.dropLate
  repeat' first
    | exact rfl
    | with_reducible exact Does.refl _ _
    | with_reducible apply Does.step (h' := State.bump_does ..)
    | with_reducible apply Does.step (h' := State.logCount_does ..)
    | with_reducible apply Does.ite
    | intro _
    | extract_lets
    | fail_if_no_progress beta_reduce
    | with_reducible apply Does.step (h' := Does.set_store ..)

theorem State.outputRecord_does (s : State) (e : Nat) (r : List Byte) : Does Part.logging s (State.outputRecord s e r) := by
  unfold State.outputRecord
  repeat' first
    | exact rfl
    | with_reducible exact Does.refl _ _
    | with_reducible apply Does.step (h' := State.dropLate_does ..)
    | with_reducible apply Does.step (h' := State.stage_does ..)
    | with_reducible apply Does.step (h' := State.reachWrap_does ..)
    | with_reducible apply Does.ite
    | split
    | intro _
    | extract_lets
    | fail_if_no_progress beta_reduce

theorem State.emitDone_does {s : State} {e : Nat} {b : Build} {t : State} (h : State.emitDone s e b = some t) : Does [.log, .od, .store, .rep, .link, .side, .free] s t := by
  unfold State.emitDone at h
  dsimp only at h
  repeat' split at h
  all_goals first | (cases h; done) | skip
  all_goals
    injection h with h
    subst h
    first
      | exact Does.refl _ _
      | exact (Does.refl _ _).step (State.bump_does ..) rfl
      | exact (Does.refl _ _).step (State.enqueue_does ..) rfl
      | exact (Does.refl _ _).step (State.outputRecord_does ..) rfl

theorem State.handOff_does (s0 : State) (e : Nat) : Does [.log, .od, .store, .rep, .link, .eng, .net, .cel, .side, .free] s0 (State.handOff s0 e) := by
  unfold State.handOff
  repeat' first
    | exact rfl
    | with_reducible exact Does.refl _ _
    | with_reducible apply Does.step (h' := State.readSides_does ..)
    | with_reducible apply Does.step (h' := State.setEngine_does ..)
    | with_reducible apply Does.step (h' := State.unfull_does ..)
    | with_reducible apply Does.step (h' := State.healSides_does ..)
    | with_reducible apply Does.step (h' := State.engDrops_does ..)
    | with_reducible refine Does.step ?_ (State.emitDone_does (by assumption)) ?_
    | with_reducible apply Does.ite
    | split
    | intro _
    | extract_lets
    | fail_if_no_progress beta_reduce
    | with_reducible apply Does.step (h' := Does.set_net ..)

theorem State.dmemMaybe_does (s : State) (b : Bool) (e : Nat) (w : Nat) : Does Part.core s (State.dmemMaybe s b e w).1 := by
  unfold State.dmemMaybe
  repeat' first
    | exact rfl
    | with_reducible exact Does.refl _ _
    | with_reducible apply Does.step (h' := State.dmemWord_does ..)
    | with_reducible refine Does.step ?_ (Does.fst (by assumption) (State.dmemWord_does ..)) ?_
    | split
    | intro _
    | extract_lets
    | fail_if_no_progress beta_reduce

theorem State.smvDo_does (s : State) (e : Nat) : Does Part.core s (State.smvDo s e).1 := by
  unfold State.smvDo
  repeat' first
    | exact rfl
    | with_reducible exact Does.refl _ _
    | with_reducible apply Does.step (h' := State.dmemMaybe_does ..)
    | with_reducible refine Does.step ?_ (Does.fst (by assumption) (State.dmemMaybe_does ..)) ?_
    | with_reducible apply Does.step (h' := State.setEngine_does ..)
    | split
    | split
    | intro _
    | extract_lets
    | fail_if_no_progress beta_reduce
    | with_reducible apply Does.step (h' := Does.wrote ..)

theorem State.ringWrite_does (s : State) (e : Nat) (size : Bool) (v : W24) : Does [.od, .eng, .pods] s (State.ringWrite s e size v) := by
  unfold State.ringWrite
  repeat' first
    | exact rfl
    | with_reducible exact Does.refl _ _
    | with_reducible apply Does.step (h' := State.engDrops_does ..)
    | with_reducible apply Does.step (h' := State.setPod_does ..)
    | with_reducible apply Does.step (h' := State.setEngine_does ..)
    | with_reducible apply Does.ite
    | intro _
    | extract_lets
    | fail_if_no_progress beta_reduce

theorem State.read0_does (s : State) (e : Nat) (a : Nat) (n : Nat) (signed : Bool) (old : Option (Nat × List Byte)) : Does Part.core s (State.read0 s e a n signed old) := by
  unfold State.read0
  repeat' first
    | exact rfl
    | with_reducible exact Does.refl _ _
    | with_reducible apply Does.step (h' := State.readRows_does ..)
    | with_reducible refine Does.step ?_ (Does.fst (by assumption) (State.readRows_does ..)) ?_
    | with_reducible apply Does.step (h' := State.setEngine_does ..)
    | with_reducible apply Does.ite
    | split
    | intro _
    | extract_lets
    | fail_if_no_progress beta_reduce

theorem State.smvCycle_does (s : State) (e : Nat) : Does Part.core s (State.smvCycle s e).1 := by
  unfold State.smvCycle
  repeat' first
    | exact rfl
    | with_reducible exact Does.refl _ _
    | with_reducible apply Does.step (h' := State.setEngine_does ..)
    | with_reducible apply Does.step (h' := State.smvDo_does ..)
    | with_reducible refine Does.step ?_ (Does.fst (by assumption) (State.smvDo_does ..)) ?_
    | split
    | intro _
    | extract_lets
    | fail_if_no_progress beta_reduce

theorem State.fetchFrom_does (s : State) (d : Dest) : Does Part.core s (State.fetchFrom s d).1 := by
  unfold State.fetchFrom
  repeat' first
    | exact rfl
    | with_reducible exact Does.refl _ _
    | with_reducible apply Does.step (h' := State.readDram_does ..)
    | with_reducible refine Does.step ?_ (Does.fst (by assumption) (State.readDram_does ..)) ?_
    | with_reducible apply Does.step (h' := State.readRows_does ..)
    | with_reducible refine Does.step ?_ (Does.fst (by assumption) (State.readRows_does ..)) ?_
    | with_reducible apply Does.step (h' := State.readRegs_does ..)
    | with_reducible refine Does.step ?_ (Does.fst (by assumption) (State.readRegs_does ..)) ?_
    | split
    | split
    | intro _
    | extract_lets
    | fail_if_no_progress beta_reduce

theorem State.load0_does (s : State) (e : Nat) (sub : Nat) (v : W24) (old : Option (Nat × List Byte)) (banks : List Nat) : Does Part.core s (State.load0 s e sub v old banks) := by
  unfold State.load0
  repeat' first
    | exact rfl
    | with_reducible exact Does.refl _ _
    | with_reducible apply Does.step (h' := State.setEngine_does ..)
    | with_reducible apply Does.step (h' := State.read0_does ..)
    | with_reducible apply Does.ite
    | split
    | intro _
    | extract_lets
    | fail_if_no_progress beta_reduce

theorem State.fetchBad_does (s : State) (e : Nat) (n : Nat) : Does [.eng] s (State.fetchBad s e n) := by
  unfold State.fetchBad
  repeat' first
    | exact rfl
    | with_reducible exact Does.refl _ _
    | with_reducible apply Does.step (h' := State.setEngine_does ..)
    | extract_lets
    | fail_if_no_progress beta_reduce

theorem State.ring_does (s : State) (e : Nat) (msg : W24) : Does [.pst] s (State.ring s e msg) := by
  unfold State.ring
  repeat' first
    | exact rfl
    | with_reducible exact Does.refl _ _
    | with_reducible apply Does.ite
    | intro _
    | extract_lets
    | fail_if_no_progress beta_reduce
    | with_reducible refine Does.step ?_ (Does.set_pst _ _ (by with_reducible rfl) (by with_reducible rfl)) ?_

theorem State.return1_does (s : State) (e : Nat) (err : Bool) (ext : List Byte) : Does Part.core s (State.return1 s e err ext) := by
  unfold State.return1
  repeat' first
    | exact rfl
    | with_reducible exact Does.refl _ _
    | with_reducible apply Does.step (h' := State.unhold_does ..)
    | with_reducible apply Does.step (h' := State.setEngine_does ..)
    | with_reducible apply Does.ite
    | split
    | intro _
    | extract_lets
    | fail_if_no_progress beta_reduce

theorem State.fetch_does (s : State) (e : Nat) (n : Nat) : Does Part.chip s (State.fetch s e n).1 := by
  unfold State.fetch
  split
  · rw [asBundle_fst]
    exact (State.readMem_does ..).weaken rfl
  · extract_lets a d
    have hf : Does Part.chip s (s.fetchFrom d.2).1 := (State.fetchFrom_does ..).weaken rfl
    clear_value a d
    split
    · exact Does.refl _ _
    · split
      · exact ((State.xError_does ..).weaken rfl).step (State.fetchBad_does ..) rfl
      · split
        · next hq =>
          rw [hq] at hf
          split
          · exact (hf.step (State.dramFailed_does ..) rfl).step (State.fetchBad_does ..) rfl
          · exact hf
        · rw [asBundle_fst]
          exact hf

end Sys2Proof.Machine
end

