-- ==== Sys2Proof/Laws/DoesOps.lean ====
section
/-! SUPPORT. What each operation of Machine/Ops.lean can do: the parts of the state it can touch, and what it keeps. -/

namespace Sys2Proof.Machine

theorem State.drainOne_does (s : State) (e : Nat) : Does Part.core s (State.drainOne s e) := by
  unfold State.drainOne
  repeat' first
    | exact rfl
    | with_reducible exact Does.refl _ _
    | with_reducible apply Does.step (h' := State.drainEntry_does ..)
    | with_reducible apply Does.step (h' := State.setEngine_does ..)
    | with_reducible apply Does.step (h' := State.read0_does ..)
    | with_reducible apply Does.ite
    | split
    | intro _
    | extract_lets
    | fail_if_no_progress beta_reduce

theorem State.passMeet_does (s : State) (e : Nat) : Does [.eng] s (State.passMeet s e) := by
  unfold State.passMeet
  repeat' first
    | exact rfl
    | with_reducible exact Does.refl _ _
    | with_reducible apply Does.step (h' := State.setEngine_does ..)
    | with_reducible apply Does.ite
    | intro _
    | extract_lets
    | fail_if_no_progress beta_reduce

theorem State.beginCycle_does (s : State) (e : Nat) : Does Part.core s (State.beginCycle s e).1 := by
  unfold State.beginCycle
  repeat' first
    | exact rfl
    | with_reducible exact Does.refl _ _
    | with_reducible apply Does.step (h' := State.smvCycle_does ..)
    | with_reducible refine Does.step ?_ (Does.fst (by assumption) (State.smvCycle_does ..)) ?_
    | with_reducible apply Does.step (h' := State.setEngine_does ..)
    | split
    | extract_lets
    | fail_if_no_progress beta_reduce

theorem State.writePort_does (s : State) (e : Nat) (sel : Nat) (n : Nat) (v : L48) : Does [.od, .store, .link, .eng, .pods, .pst] s (State.writePort s e sel n v) := by
  unfold State.writePort
  repeat' first
    | exact rfl
    | with_reducible exact Does.refl _ _
    | with_reducible apply Does.step (h' := State.ring_does ..)
    | with_reducible apply Does.step (h' := State.ringWrite_does ..)
    | with_reducible apply Does.step (h' := State.predWrite_does ..)
    | with_reducible apply Does.step (h' := State.setEngine_does ..)
    | with_reducible apply Does.ite
    | intro _
    | extract_lets
    | fail_if_no_progress beta_reduce

theorem State.trigger_does (s : State) (e : Nat) (written : List Nat) (sat : Bool) (dzt : Bool) (n : Nat) (v : L48) : Does [.od, .eng, .side] s (State.trigger s e written sat dzt n v) := by
  unfold State.trigger
  repeat' first
    | exact rfl
    | with_reducible exact Does.refl _ _
    | with_reducible apply Does.step (h' := State.pushWord_does ..)
    | with_reducible apply Does.step (h' := State.setEngine_does ..)
    | with_reducible apply Does.ite
    | intro _
    | extract_lets
    | fail_if_no_progress beta_reduce

theorem State.endCycle_does (s : State) (e : Nat) (moves : Option (List (Nat × L48))) : Does Part.core s (State.endCycle s e moves) := by
  unfold State.endCycle
  repeat' first
    | exact rfl
    | with_reducible exact Does.refl _ _
    | with_reducible apply Does.step (h' := State.writePort_does ..)
    | with_reducible apply Does.step (h' := State.trigger_does ..)
    | with_reducible apply Does.step (h' := State.setEngine_does ..)
    | with_reducible apply Does.step (h' := State.load0_does ..)
    | with_reducible apply Does.ite
    | with_reducible apply Does.fold
    | split
    | intro _
    | extract_lets
    | fail_if_no_progress beta_reduce

theorem State.passBubble_does (s0 : State) (e : Nat) : Does Part.chip s0 (State.passBubble s0 e) := by
  unfold State.passBubble
  repeat' first
    | exact rfl
    | with_reducible exact Does.refl _ _
    | with_reducible apply Does.step (h' := State.passMeet_does ..)
    | with_reducible apply Does.step (h' := State.beginCycle_does ..)
    | with_reducible refine Does.step ?_ (Does.fst (by assumption) (State.beginCycle_does ..)) ?_
    | with_reducible apply Does.step (h' := State.endCycle_does ..)
    | with_reducible apply Does.step (h' := State.fetch_does ..)
    | with_reducible refine Does.step ?_ (Does.fst (by assumption) (State.fetch_does ..)) ?_
    | with_reducible apply Does.step (h' := State.setEngine_does ..)
    | with_reducible apply Does.ite
    | split
    | intro _
    | extract_lets
    | fail_if_no_progress beta_reduce

theorem State.unstep_does (s : State) (e : Nat) : Does [.eng, .mem, .cel] s (State.unstep s e) := by
  unfold State.unstep
  repeat' first
    | exact rfl
    | with_reducible exact Does.refl _ _
    | with_reducible apply Does.step (h' := State.setEngine_does ..)
    | split
    | extract_lets
    | fail_if_no_progress beta_reduce
    | with_reducible apply Does.step (h' := Does.wrote ..)

theorem State.refuseBundle_does (s : State) (e : Nat) (g : Engine → Engine) : Does [.eng, .mem, .cel] s (State.refuseBundle s e g) := by
  unfold State.refuseBundle
  repeat' first
    | exact rfl
    | with_reducible exact Does.refl _ _
    | with_reducible apply Does.step (h' := State.setEngine_does ..)
    | with_reducible apply Does.step (h' := State.unstep_does ..)
    | extract_lets
    | fail_if_no_progress beta_reduce

theorem State.fill_does (s : State) (e : Nat) (a : Nat) (k3 : Nat) : Does Part.chip s (State.fill s e a k3) := by
  induction k3 generalizing s e a with
  | zero =>
    unfold State.fill
    repeat' first
      | exact rfl
      | with_reducible exact Does.refl _ _
      | with_reducible apply Does.step (h' := ih ..)
      | with_reducible apply Does.step (h' := State.fetch_does ..)
      | with_reducible refine Does.step ?_ (Does.fst (by assumption) (State.fetch_does ..)) ?_
      | with_reducible apply Does.step (h' := State.setEngine_does ..)
      | split
      | extract_lets
      | fail_if_no_progress beta_reduce
  | succ k ih =>
    unfold State.fill
    repeat' first
      | exact rfl
      | with_reducible exact Does.refl _ _
      | with_reducible apply Does.step (h' := ih ..)
      | with_reducible apply Does.step (h' := State.fetch_does ..)
      | with_reducible refine Does.step ?_ (Does.fst (by assumption) (State.fetch_does ..)) ?_
      | with_reducible apply Does.step (h' := State.setEngine_does ..)
      | split
      | extract_lets
      | fail_if_no_progress beta_reduce

theorem State.ahead_does (s : State) (e : Nat) : Does Part.chip s (State.ahead s e) := by
  unfold State.ahead
  repeat' first
    | exact rfl
    | with_reducible exact Does.refl _ _
    | with_reducible apply Does.step (h' := State.fill_does ..)
    | with_reducible apply Does.ite
    | intro _
    | extract_lets
    | fail_if_no_progress beta_reduce

theorem State.prefetch_does (s : State) (e : Nat) : Does Part.chip s (State.prefetch s e) := by
  unfold State.prefetch
  repeat' first
    | exact rfl
    | with_reducible exact Does.refl _ _
    | with_reducible apply Does.step (h' := State.fill_does ..)
    | with_reducible apply Does.ite
    | intro _
    | extract_lets
    | fail_if_no_progress beta_reduce

theorem State.issueMoves_does (s : State) (e : Nat) (moves : List (Nat × L48)) : Does Part.chip s (State.issueMoves s e moves) := by
  unfold State.issueMoves
  repeat' first
    | exact rfl
    | with_reducible exact Does.refl _ _
    | with_reducible apply Does.step (h' := State.prefetch_does ..)
    | with_reducible apply Does.step (h' := State.endCycle_does ..)
    | with_reducible apply Does.step (h' := State.setEngine_does ..)
    | extract_lets
    | fail_if_no_progress beta_reduce

theorem State.issueBundle_does (s : State) (e : Nat) : Does Part.chip s (State.issueBundle s e) := by
  unfold State.issueBundle
  repeat' first
    | exact rfl
    | with_reducible exact Does.refl _ _
    | with_reducible apply Does.step (h' := State.passBubble_does ..)
    | with_reducible apply Does.step (h' := State.ahead_does ..)
    | with_reducible apply Does.step (h' := State.refuseBundle_does ..)
    | with_reducible apply Does.step (h' := State.beginCycle_does ..)
    | with_reducible refine Does.step ?_ (Does.fst (by assumption) (State.beginCycle_does ..)) ?_
    | with_reducible apply Does.step (h' := State.issueMoves_does ..)
    | with_reducible apply Does.ite
    | split
    | intro _
    | extract_lets
    | fail_if_no_progress beta_reduce

theorem execEngineMove_does {eng : EngN} {s : State} {t : State} (h : execEngineMove eng s = .next t) : Does Part.chip s t := by
  unfold execEngineMove at h
  cases h
  repeat' first
    | exact rfl
    | with_reducible exact Does.refl _ _
    | with_reducible apply Does.step (h' := State.issueBundle_does ..)
    | extract_lets
    | fail_if_no_progress beta_reduce

theorem State.issue_does (s : State) (e : Nat) (n : Nat) (v : L48) : Does Part.chip s (State.issue s e n v) := by
  unfold State.issue
  repeat' first
    | exact rfl
    | with_reducible exact Does.refl _ _
    | with_reducible apply Does.step (h' := State.passBubble_does ..)
    | with_reducible apply Does.step (h' := State.refuseBundle_does ..)
    | with_reducible apply Does.step (h' := State.beginCycle_does ..)
    | with_reducible refine Does.step ?_ (Does.fst (by assumption) (State.beginCycle_does ..)) ?_
    | with_reducible apply Does.step (h' := State.issueMoves_does ..)
    | with_reducible apply Does.ite
    | split
    | intro _
    | extract_lets
    | fail_if_no_progress beta_reduce

end Sys2Proof.Machine
end

