-- ==== Sys2Proof/Laws/DoesStoreCmds.lean ====
section
/-! SUPPORT. What each operation of Machine/StoreCmds.lean can do: the parts of the state it can touch, and what it keeps. -/

namespace Sys2Proof.Machine

theorem State.sigTime_does (s : State) : Does [.tb, .store, .free] s (State.sigTime s) := by
  unfold State.sigTime
  repeat' first
    | exact rfl
    | with_reducible exact Does.refl _ _
    | with_reducible apply Does.step (h' := State.closeDue_does ..)
    | with_reducible apply Does.step (h' := State.reach_does ..)
    | with_reducible apply Does.ite
    | intro _
    | extract_lets
    | fail_if_no_progress beta_reduce

theorem execSignatureTimeDue_does {s : State} {t : State} (h : execSignatureTimeDue s = .next t) : Does [.tb, .store, .free] s t := by
  unfold execSignatureTimeDue at h
  cases h
  repeat' first
    | exact rfl
    | with_reducible exact Does.refl _ _
    | with_reducible apply Does.step (h' := State.sigTime_does ..)
    | extract_lets
    | fail_if_no_progress beta_reduce

theorem State.flushAll_does (s : State) : Does [.tb, .store, .out] s (State.flushAll s) := by
  unfold State.flushAll
  repeat' first
    | exact rfl
    | with_reducible exact Does.refl _ _
    | with_reducible apply Does.step (h' := State.reach_does ..)
    | with_reducible apply Does.step (h' := State.flush_does ..)
    | with_reducible apply Does.ite
    | with_reducible apply Does.fold
    | intro _
    | extract_lets
    | fail_if_no_progress beta_reduce
    | with_reducible apply Does.step (h' := Does.set_store ..)

theorem execFlushIntervalExpiry_does {s : State} {t : State} (h : execFlushIntervalExpiry s = .next t) : Does [.tb, .store, .out] s t := by
  unfold execFlushIntervalExpiry at h
  cases h
  repeat' first
    | exact rfl
    | with_reducible exact Does.refl _ _
    | with_reducible apply Does.step (h' := State.flushAll_does ..)
    | extract_lets
    | fail_if_no_progress beta_reduce

theorem State.ssdNotReady_does (s : State) (k : Nat) : Does [.tb, .log, .sess, .od, .ports, .cls, .store, .rep, .link, .fab, .sw, .pods, .mem, .cel, .side, .pst, .pwr, .out, .free] s (State.ssdNotReady s k) := by
  unfold State.ssdNotReady
  repeat' first
    | exact rfl
    | with_reducible exact Does.refl _ _
    | with_reducible apply Does.step (h' := State.failSsd_does ..)
    | with_reducible apply Does.ite
    | intro _
    | extract_lets
    | fail_if_no_progress beta_reduce

theorem State.outputWrap_does (s : State) (l : Nat) : Does [.tb, .store, .free] s (State.outputWrap s l) := by
  unfold State.outputWrap
  repeat' first
    | exact rfl
    | with_reducible exact Does.refl _ _
    | with_reducible apply Does.step (h' := State.wrapPoint_does ..)
    | with_reducible apply Does.step (h' := State.reach_does ..)
    | with_reducible apply Does.ite
    | intro _
    | extract_lets
    | fail_if_no_progress beta_reduce

theorem State.reread_does (s : State) (k : Nat) : Does [.store, .out] s (State.reread s k) := by
  unfold State.reread
  repeat' first
    | exact rfl
    | with_reducible exact Does.refl _ _
    | with_reducible apply Does.step (h' := State.readNext_does ..)
    | with_reducible apply Does.ite
    | intro _
    | extract_lets
    | fail_if_no_progress beta_reduce

theorem State.seekHeader_does (s : State) (k : Nat) : Does [.store, .out] s (State.seekHeader s k) := by
  unfold State.seekHeader
  repeat' first
    | exact rfl
    | with_reducible exact Does.refl _ _
    | with_reducible apply Does.step (h' := State.nvme_does ..)
    | with_reducible apply Does.ite
    | split
    | intro _
    | extract_lets
    | fail_if_no_progress beta_reduce
    | with_reducible apply Does.step (h' := Does.set_store ..)

theorem State.reissue_does (s : State) (k : Nat) : Does [.store, .out] s (State.reissue s k) := by
  unfold State.reissue
  repeat' first
    | exact rfl
    | with_reducible exact Does.refl _ _
    | with_reducible apply Does.step (h' := State.nvme_does ..)
    | with_reducible apply Does.step (h' := State.createQueues_does ..)
    | with_reducible apply Does.step (h' := State.setSsd_does ..)
    | with_reducible apply Does.fold
    | split
    | intro _
    | extract_lets
    | fail_if_no_progress beta_reduce

theorem State.resetDone_does (s : State) (k : Nat) (ok : Bool) : Does [.tb, .log, .sess, .od, .ports, .cls, .store, .rep, .link, .fab, .sw, .pods, .mem, .cel, .side, .pst, .pwr, .out, .free] s (State.resetDone s k ok) := by
  unfold State.resetDone
  repeat' first
    | exact rfl
    | with_reducible exact Does.refl _ _
    | with_reducible apply Does.step (h' := State.reread_does ..)
    | with_reducible apply Does.step (h' := State.writeOwed_does ..)
    | with_reducible apply Does.step (h' := State.seekHeader_does ..)
    | with_reducible apply Does.step (h' := State.reissue_does ..)
    | with_reducible apply Does.step (h' := State.ssdState_does ..)
    | with_reducible apply Does.step (h' := State.failSsd_does ..)
    | with_reducible apply Does.ite
    | intro _
    | extract_lets
    | fail_if_no_progress beta_reduce

theorem execControllerResetComplete_does {ssd : Fin 2} {ok : Bool} {s : State} {t : State} (h : execControllerResetComplete ssd ok s = .next t) : Does [.tb, .log, .sess, .od, .ports, .cls, .store, .rep, .link, .fab, .sw, .pods, .mem, .cel, .side, .pst, .pwr, .out, .free] s t := by
  unfold execControllerResetComplete at h
  cases h
  repeat' first
    | exact rfl
    | with_reducible exact Does.refl _ _
    | with_reducible apply Does.step (h' := State.resetDone_does ..)
    | extract_lets
    | fail_if_no_progress beta_reduce

theorem execBlockClose_does {lane : BitVec 16} {s : State} {t : State} (h : execBlockClose lane s = .next t) : Does [.store, .free] s t := by
  unfold execBlockClose at h
  cases h
  repeat' first
    | exact rfl
    | with_reducible exact Does.refl _ _
    | with_reducible apply Does.step (h' := State.closeBlock_does ..)
    | extract_lets
    | fail_if_no_progress beta_reduce

theorem State.segAge_does (s : State) : Does [.tb, .store, .free] s (State.segAge s) := by
  unfold State.segAge
  repeat' first
    | exact rfl
    | with_reducible exact Does.refl _ _
    | with_reducible apply Does.step (h' := State.closeSeg_does ..)
    | with_reducible apply Does.step (h' := State.reach_does ..)
    | split
    | extract_lets
    | fail_if_no_progress beta_reduce

theorem execSegmentAgeExpiry_does {s : State} {t : State} (h : execSegmentAgeExpiry s = .next t) : Does [.tb, .store, .free] s t := by
  unfold execSegmentAgeExpiry at h
  cases h
  repeat' first
    | exact rfl
    | with_reducible exact Does.refl _ _
    | with_reducible apply Does.step (h' := State.segAge_does ..)
    | extract_lets
    | fail_if_no_progress beta_reduce

theorem execSsdReadyTimeout_does {ssd : Fin 2} {s : State} {t : State} (h : execSsdReadyTimeout ssd s = .next t) : Does [.tb, .log, .sess, .od, .ports, .cls, .store, .rep, .link, .fab, .sw, .pods, .mem, .cel, .side, .pst, .pwr, .out, .free] s t := by
  unfold execSsdReadyTimeout at h
  cases h
  repeat' first
    | exact rfl
    | with_reducible exact Does.refl _ _
    | with_reducible apply Does.step (h' := State.ssdNotReady_does ..)
    | with_reducible apply Does.ite
    | intro _
    | extract_lets
    | fail_if_no_progress beta_reduce

theorem State.healthPage_does (s : State) (k : Nat) (page : List Byte) : Does Part.logging s (State.healthPage s k page) := by
  unfold State.healthPage
  repeat' first
    | exact rfl
    | with_reducible exact Does.refl _ _
    | with_reducible apply Does.step (h' := State.logHealth_does ..)
    | with_reducible apply Does.fold
    | intro _
    | extract_lets
    | fail_if_no_progress beta_reduce

theorem State.healthPoll_does (s : State) (pages : List (List Byte)) : Does [.log, .od, .store, .link, .side, .out, .free] s (State.healthPoll s pages) := by
  unfold State.healthPoll
  repeat' first
    | exact rfl
    | with_reducible exact Does.refl _ _
    | with_reducible apply Does.step (h' := State.healthPage_does ..)
    | with_reducible apply Does.step (h' := State.admin_does ..)
    | with_reducible apply Does.ite
    | with_reducible apply Does.fold
    | intro _
    | extract_lets
    | fail_if_no_progress beta_reduce

theorem State.bringUp_does (s : State) (up : Nat → Bool) : Does [.log, .od, .store, .link, .side, .out, .free] s (State.bringUp s up) := by
  unfold State.bringUp
  repeat' first
    | exact rfl
    | with_reducible exact Does.refl _ _
    | with_reducible apply Does.step (h' := State.startSsd_does ..)
    | with_reducible apply Does.step (h' := State.setSsd_does ..)
    | with_reducible apply Does.step (h' := State.seekHeader_does ..)
    | with_reducible apply Does.step (h' := State.ssdState_does ..)
    | with_reducible apply Does.ite
    | with_reducible apply Does.fold
    | intro _
    | extract_lets
    | fail_if_no_progress beta_reduce

theorem execSsdBringupRetry_does {up0 : Bool} {up1 : Bool} {s : State} {t : State} (h : execSsdBringupRetry up0 up1 s = .next t) : Does [.log, .od, .store, .link, .side, .out, .free] s t := by
  unfold execSsdBringupRetry at h
  cases h
  repeat' first
    | exact rfl
    | with_reducible exact Does.refl _ _
    | with_reducible apply Does.step (h' := State.bringUp_does ..)
    | with_reducible apply Does.ite
    | intro _
    | extract_lets
    | fail_if_no_progress beta_reduce

theorem State.blockAge_does (s : State) (l : Nat) : Does [.tb, .store, .free] s (State.blockAge s l) := by
  unfold State.blockAge
  repeat' first
    | exact rfl
    | with_reducible exact Does.refl _ _
    | with_reducible apply Does.step (h' := State.closeBlock_does ..)
    | with_reducible apply Does.step (h' := State.reach_does ..)
    | split
    | extract_lets
    | fail_if_no_progress beta_reduce

theorem execBlockAgeExpiry_does {lane : BitVec 16} {s : State} {t : State} (h : execBlockAgeExpiry lane s = .next t) : Does [.tb, .store, .free] s t := by
  unfold execBlockAgeExpiry at h
  cases h
  repeat' first
    | exact rfl
    | with_reducible exact Does.refl _ _
    | with_reducible apply Does.step (h' := State.blockAge_does ..)
    | extract_lets
    | fail_if_no_progress beta_reduce

theorem State.resetSsd_does (s : State) (k : Nat) (cid : Nat) : Does [.log, .od, .store, .link, .side, .out, .free] s (State.resetSsd s k cid) := by
  unfold State.resetSsd
  repeat' first
    | exact rfl
    | with_reducible exact Does.refl _ _
    | with_reducible apply Does.step (h' := State.logE_does ..)
    | with_reducible apply Does.step (h' := State.nvme_does ..)
    | with_reducible apply Does.step (h' := State.send_does ..)
    | with_reducible apply Does.step (h' := State.ssdState_does ..)
    | with_reducible apply Does.step (h' := State.setSsd_does ..)
    | extract_lets
    | fail_if_no_progress beta_reduce

theorem State.nvmeTimeout_does (s : State) (k : Nat) (cid : Nat) : Does [.tb, .log, .sess, .od, .ports, .cls, .store, .rep, .link, .fab, .sw, .pods, .mem, .cel, .side, .pst, .pwr, .out, .free] s (State.nvmeTimeout s k cid) := by
  unfold State.nvmeTimeout
  repeat' first
    | exact rfl
    | with_reducible exact Does.refl _ _
    | with_reducible apply Does.step (h' := State.reach_does ..)
    | with_reducible apply Does.step (h' := State.failSsd_does ..)
    | with_reducible apply Does.step (h' := State.resetSsd_does ..)
    | with_reducible apply Does.ite
    | intro _
    | extract_lets
    | fail_if_no_progress beta_reduce

theorem execOutputLaneWrapTimeout_does {eng : Fin 1024} {s : State} {t : State} (h : execOutputLaneWrapTimeout eng s = .next t) : Does [.tb, .store, .free] s t := by
  unfold execOutputLaneWrapTimeout at h
  cases h
  repeat' first
    | exact rfl
    | with_reducible exact Does.refl _ _
    | with_reducible apply Does.step (h' := State.outputWrap_does ..)
    | extract_lets
    | fail_if_no_progress beta_reduce

theorem execSegmentHashComplete_does {s : State} {t : State} (h : execSegmentHashComplete s = .next t) : Does [.log, .od, .ports, .store, .link, .side, .out, .free] s t := by
  unfold execSegmentHashComplete at h
  cases h
  repeat' first
    | exact rfl
    | with_reducible exact Does.refl _ _
    | with_reducible apply Does.step (h' := State.hashDone_does ..)
    | extract_lets
    | fail_if_no_progress beta_reduce

theorem execNvmeCommandTimeout_does {ssd : Fin 2} {cid : Nat} {s : State} {t : State} (h : execNvmeCommandTimeout ssd cid s = .next t) : Does [.tb, .log, .sess, .od, .ports, .cls, .store, .rep, .link, .fab, .sw, .pods, .mem, .cel, .side, .pst, .pwr, .out, .free] s t := by
  unfold execNvmeCommandTimeout at h
  cases h
  repeat' first
    | exact rfl
    | with_reducible exact Does.refl _ _
    | with_reducible apply Does.step (h' := State.nvmeTimeout_does ..)
    | extract_lets
    | fail_if_no_progress beta_reduce

theorem execNvmeHealthPoll_does {pages : List (List Byte)} {s : State} {t : State} (h : execNvmeHealthPoll pages s = .next t) : Does [.log, .od, .store, .link, .side, .out, .free] s t := by
  unfold execNvmeHealthPoll at h
  cases h
  repeat' first
    | exact rfl
    | with_reducible exact Does.refl _ _
    | with_reducible apply Does.step (h' := State.healthPoll_does ..)
    | extract_lets
    | fail_if_no_progress beta_reduce

end Sys2Proof.Machine
end

