-- ==== Sys2Proof/Laws/DoesPodRows.lean ====
section
/-! SUPPORT. What each operation of Machine/PodRows.lean can do: the parts of the state it can touch, and what it keeps. -/

namespace Sys2Proof.Machine

theorem State.wholeWords_does (s : State) (r : List Byte) : Does [.free] s (State.wholeWords s r).1 := by
  unfold State.wholeWords
  repeat' first
    | exact rfl
    | with_reducible exact Does.refl _ _
    | with_reducible apply Does.step (h' := State.draw_does ..)
    | with_reducible refine Does.step ?_ (Does.snd (by assumption) (State.draw_does ..)) ?_
    | split
    | intro _
    | extract_lets
    | fail_if_no_progress beta_reduce

theorem State.publish_does (s0 : State) (e : Nat) : Does [.od, .eng, .pods, .mem, .cel, .side, .free] s0 (State.publish s0 e) := by
  unfold State.publish
  repeat' first
    | exact rfl
    | with_reducible exact Does.refl _ _
    | with_reducible apply Does.step (h' := State.readSides_does ..)
    | with_reducible apply Does.step (h' := State.podDrop_does ..)
    | with_reducible apply Does.step (h' := State.healSides_does ..)
    | with_reducible apply Does.step (h' := State.setPod_does ..)
    | with_reducible apply Does.step (h' := State.wholeWords_does ..)
    | with_reducible refine Does.step ?_ (Does.fst (by assumption) (State.wholeWords_does ..)) ?_
    | with_reducible apply Does.step (h' := State.setEngine_does ..)
    | with_reducible apply Does.ite
    | split
    | intro _
    | extract_lets
    | fail_if_no_progress beta_reduce
    | with_reducible apply Does.step (h' := Does.wrote ..)

theorem State.setVcore_does (s : State) (v : Nat) : Does [.pwr] s (State.setVcore s v) := by
  unfold State.setVcore
  repeat' first
    | exact rfl
    | with_reducible exact Does.refl _ _
    | with_reducible apply Does.ite
    | intro _
    | extract_lets
    | fail_if_no_progress beta_reduce
    | with_reducible apply Does.step (h' := Does.set_pwr ..)

theorem State.setVolts_does (s : State) : Does [.pwr] s (State.setVolts s) := by
  unfold State.setVolts
  repeat' first
    | exact rfl
    | with_reducible exact Does.refl _ _
    | with_reducible apply Does.step (h' := State.setVcore_does ..)
    | extract_lets
    | fail_if_no_progress beta_reduce

theorem execPodClockStep_does {pod : PodN} {step : Fin 5} {s : State} {t : State} (h : execPodClockStep pod step s = .next t) : Does [.pods, .pwr] s t := by
  unfold execPodClockStep at h
  cases h
  repeat' first
    | exact rfl
    | with_reducible exact Does.refl _ _
    | with_reducible apply Does.step (h' := State.setVolts_does ..)
    | with_reducible apply Does.step (h' := State.setPod_does ..)
    | with_reducible apply Does.ite
    | intro _
    | extract_lets
    | fail_if_no_progress beta_reduce

theorem execRouterPublish_does {eng : EngN} {s : State} {t : State} (h : execRouterPublish eng s = .next t) : Does [.od, .eng, .pods, .mem, .cel, .side, .free] s t := by
  unfold execRouterPublish at h
  cases h
  repeat' first
    | exact rfl
    | with_reducible exact Does.refl _ _
    | with_reducible apply Does.step (h' := State.publish_does ..)
    | with_reducible apply Does.ite
    | intro _
    | extract_lets
    | fail_if_no_progress beta_reduce

theorem State.routerTake_does {s : State} {q : StreamRec} {t : State} (h : State.routerTake s q = some t) : Does [.od, .pods, .side] s t := by
  unfold State.routerTake at h
  repeat' split at h
  all_goals first | (cases h; done) | skip
  all_goals
    injection h with h
    subst h
    first
      | exact Does.refl _ _
      | exact (State.intoArrival_does ..).weaken rfl
      | exact (State.podDrop_does ..).weaken rfl

theorem State.nextFor_does {s : State} {p : Nat} {t : State} (h : State.nextFor s p = some t) : Does [.od, .pods, .net, .side] s t := by
  unfold State.nextFor at h
  split at h
  · cases h
  · split at h
    · next hq =>
      injection h with h
      subst h
      exact ((Does.refl _ _).step (Does.set_net ..) rfl).step (State.routerTake_does hq) rfl
    · split at h
      · cases h
      · exact ((Does.refl _ _).step (Does.set_net ..) rfl).step (State.routerTake_does h) rfl

theorem State.fitPods_does (s : State) : Does [.pods, .pwr] s (State.fitPods s) := by
  unfold State.fitPods
  repeat' first
    | exact rfl
    | with_reducible exact Does.refl _ _
    | with_reducible apply Does.step (h' := State.setVolts_does ..)
    | with_reducible apply Does.step (h' := State.setPod_does ..)
    | with_reducible apply Does.ite
    | with_reducible apply Does.fold
    | intro _
    | extract_lets
    | fail_if_no_progress beta_reduce

theorem execRouterAccept_does {pod : PodN} {s : State} {t : State} (h : execRouterAccept pod s = .next t) : Does [.od, .pods, .net, .side] s t := by
  unfold execRouterAccept at h
  injection h with h
  subst h
  split
  · cases hn : s.nextFor pod.val with
    | none => exact Does.refl _ _
    | some u => exact (State.nextFor_does hn).weaken rfl
  · exact Does.refl _ _

end Sys2Proof.Machine
end

