-- ==== Sys2Proof/Laws/DoesSession.lean ====
section
/-! SUPPORT. What each operation of Machine/Session.lean can do: the parts of the state it can touch, and what it keeps. -/

namespace Sys2Proof.Machine

theorem State.stopNotices_does (s : State) : Does [.log, .od, .ports, .cls, .store, .rep, .link, .fab, .net, .side, .out, .free] s (State.stopNotices s) := by
  unfold State.stopNotices
  repeat' first
    | exact rfl
    | with_reducible exact Does.refl _ _
    | with_reducible apply Does.step (h' := State.dropNotices_does ..)
    | with_reducible apply Does.ite
    | with_reducible apply Does.fold
    | intro _
    | extract_lets
    | fail_if_no_progress beta_reduce

theorem State.closeLanes_does (s : State) : Does [.store, .free] s (State.closeLanes s) := by
  unfold State.closeLanes
  repeat' first
    | exact rfl
    | with_reducible exact Does.refl _ _
    | with_reducible apply Does.step (h' := State.wrapPoint_does ..)
    | with_reducible apply Does.step (h' := State.closeBlock_does ..)
    | with_reducible apply Does.ite
    | with_reducible apply Does.fold
    | intro _
    | extract_lets
    | fail_if_no_progress beta_reduce

theorem State.drain_does (s : State) : Does [.tb, .log, .sess, .od, .ports, .cls, .store, .rep, .link, .fab, .sw, .pods, .net, .mem, .cel, .side, .pst, .pwr, .out, .free] s (State.drain s) := by
  unfold State.drain
  repeat' first
    | exact rfl
    | with_reducible exact Does.refl _ _
    | with_reducible apply Does.step (h' := State.drainBuffers_does ..)
    | with_reducible apply Does.step (h' := State.stopNotices_does ..)
    | with_reducible apply Does.step (h' := State.closeLanes_does ..)
    | with_reducible apply Does.step (h' := State.toState_does ..)
    | with_reducible apply Does.step (h' := State.stopReplay_does ..)
    | with_reducible apply Does.step (h' := State.stopLink_does ..)
    | with_reducible apply Does.step (h' := State.closeSeg_does ..)
    | with_reducible apply Does.step (h' := State.tryLast_does ..)
    | with_reducible apply Does.step (h' := State.toIdle_does ..)
    | with_reducible apply Does.ite
    | intro _
    | extract_lets
    | fail_if_no_progress beta_reduce
    | with_reducible apply Does.step (h' := Does.set_store ..)

theorem State.refuseCmd_does (s : State) (p : Path) (v : Nat) (code : BitVec 32) : Does [.log, .sess, .od, .acc, .store, .rep, .link, .fab, .side, .out, .free] s (State.refuseCmd s p v code) := by
  unfold State.refuseCmd
  repeat' first
    | exact rfl
    | with_reducible exact Does.refl _ _
    | with_reducible apply Does.step (h' := State.refuseLog_does ..)
    | extract_lets
    | fail_if_no_progress beta_reduce
    | with_reducible apply Does.step (h' := Does.set_sess ..)

theorem State.leaveFault_does (s : State) : Does [.tb, .log, .sess, .od, .ports, .cls, .store, .rep, .link, .fab, .sw, .pods, .net, .mem, .cel, .side, .pst, .pwr, .out, .free] s (State.leaveFault s) := by
  unfold State.leaveFault
  repeat' first
    | exact rfl
    | with_reducible exact Does.refl _ _
    | with_reducible apply Does.step (h' := State.stopReplay_does ..)
    | with_reducible apply Does.step (h' := State.stopLink_does ..)
    | with_reducible apply Does.step (h' := State.stopNotices_does ..)
    | with_reducible apply Does.step (h' := State.logE_does ..)
    | with_reducible apply Does.step (h' := State.toIdle_does ..)
    | with_reducible apply Does.ite
    | intro _
    | extract_lets
    | fail_if_no_progress beta_reduce
    | refine Does.any ⟨.inr rfl, .inr rfl, .inl rfl, .inr rfl, .inr rfl, .inr rfl, .inr rfl, .inl rfl, .inr rfl, .inr rfl, .inr rfl, .inr rfl, .inr rfl, .inr rfl, .inr rfl, .inr rfl, .inr rfl, .inr rfl, .inr rfl, .inr rfl, .inr rfl, .inr rfl, .inr rfl⟩ id id (List.prefix_refl _) (fun _ => rfl) (Fin.le_refl _) ?_

theorem State.cStop_does (s : State) (p : Path) (v : Nat) : Does [.tb, .log, .sess, .od, .acc, .ports, .cls, .store, .rep, .link, .fab, .sw, .pods, .net, .mem, .cel, .side, .pst, .pwr, .out, .free] s (State.cStop s p v) := by
  unfold State.cStop
  repeat' first
    | exact rfl
    | with_reducible exact Does.refl _ _
    | with_reducible apply Does.step (h' := State.refuseCmd_does ..)
    | with_reducible apply Does.step (h' := State.answer_does ..)
    | with_reducible apply Does.step (h' := State.drain_does ..)
    | with_reducible apply Does.step (h' := State.leaveFault_does ..)
    | with_reducible apply Does.ite
    | split
    | intro _
    | extract_lets
    | fail_if_no_progress beta_reduce

theorem execStop_does {path : Path} {p : W24} {s : State} {t : State} (h : execStop path p s = .next t) : Does [.tb, .log, .sess, .od, .acc, .ports, .cls, .store, .rep, .link, .fab, .sw, .pods, .net, .mem, .cel, .side, .pst, .pwr, .out, .free] s t := by
  unfold execStop at h
  cases h
  repeat' first
    | exact rfl
    | with_reducible exact Does.refl _ _
    | with_reducible apply Does.step (h' := State.requestWrite_does (l := [.tb, .log, .sess, .od, .acc, .ports, .cls, .store, .rep, .link, .fab, .sw, .pods, .net, .mem, .cel, .side, .pst, .pwr, .out, .free]) (hl := rfl) (hf0 := fun t => ?_) ..)
    | with_reducible apply Does.step (h' := State.cStop_does ..)
    | extract_lets
    | fail_if_no_progress beta_reduce
    | exact Does.refl _ _

theorem State.armDone_does (s : State) : Does [.sess, .acc, .rep, .fab, .out, .free] s (State.armDone s) := by
  unfold State.armDone
  repeat' first
    | exact rfl
    | with_reducible exact Does.refl _ _
    | with_reducible apply Does.step (h' := State.answer_does ..)
    | with_reducible apply Does.step (h' := State.recallOn_does ..)
    | split
    | extract_lets
    | fail_if_no_progress beta_reduce
    | with_reducible apply Does.step (h' := Does.set_sess ..)

theorem execArmComplete_does {s : State} {t : State} (h : execArmComplete s = .next t) : Does [.sess, .acc, .rep, .fab, .out, .free] s t := by
  unfold execArmComplete at h
  cases h
  repeat' first
    | exact rfl
    | with_reducible exact Does.refl _ _
    | with_reducible apply Does.step (h' := State.armDone_does ..)
    | extract_lets
    | fail_if_no_progress beta_reduce

theorem State.startNotices_does (s : State) : Does [.log, .od, .ports, .cls, .store, .rep, .link, .fab, .net, .side, .out, .free] s (State.startNotices s) := by
  unfold State.startNotices
  repeat' first
    | exact rfl
    | with_reducible exact Does.refl _ _
    | with_reducible apply Does.step (h' := State.portNotices_does ..)
    | with_reducible apply Does.step (h' := State.applyEnables_does ..)
    | with_reducible apply Does.ite
    | with_reducible apply Does.fold
    | intro _
    | extract_lets
    | fail_if_no_progress beta_reduce

theorem State.storeRestart_does (s : State) (cause : Nat) (seq : BitVec 16) : Does Part.logging s (State.storeRestart s cause seq) := by
  unfold State.storeRestart
  repeat' first
    | exact rfl
    | with_reducible exact Does.refl _ _
    | with_reducible apply Does.step (h' := State.logE_does ..)
    | with_reducible apply Does.step (h' := State.finishSeg_does ..)
    | split
    | extract_lets
    | fail_if_no_progress beta_reduce
    | with_reducible apply Does.step (h' := Does.set_store ..)

theorem State.storeStart_does (s : State) : Does Part.logging s (State.storeStart s) := by
  unfold State.storeStart
  repeat' first
    | exact rfl
    | with_reducible exact Does.refl _ _
    | with_reducible apply Does.step (h' := State.storeRestart_does ..)
    | split
    | extract_lets
    | fail_if_no_progress beta_reduce
    | with_reducible apply Does.step (h' := Does.set_store ..)

theorem State.startRun_does (s : State) : Does [.log, .sess, .od, .store, .rep, .link, .side, .pst, .free] s (State.startRun s) := by
  unfold State.startRun
  repeat' first
    | exact rfl
    | with_reducible exact Does.refl _ _
    | with_reducible apply Does.step (h' := State.wrote_does ..)
    | with_reducible apply Does.step (h' := State.put_does ..)
    | with_reducible apply Does.step (h' := State.storeStart_does ..)
    | with_reducible apply Does.step (h' := State.replayEnd_does ..)
    | with_reducible apply Does.step (h' := State.fixOffset_does ..)
    | with_reducible apply Does.step (h' := State.startLink_does ..)
    | with_reducible apply Does.step (h' := State.toState_does ..)
    | with_reducible apply Does.ite
    | intro _
    | extract_lets
    | fail_if_no_progress beta_reduce
    | with_reducible apply Does.step (h' := Does.set_sess ..)
    | with_reducible apply Does.step (h' := Does.set_store ..)

theorem State.startNow_does (s : State) : Does [.log, .sess, .od, .ports, .cls, .store, .rep, .link, .fab, .net, .side, .pst, .out, .free] s (State.startNow s) := by
  unfold State.startNow
  repeat' first
    | exact rfl
    | with_reducible exact Does.refl _ _
    | with_reducible apply Does.step (h' := State.startNotices_does ..)
    | with_reducible apply Does.step (h' := State.startRun_does ..)
    | extract_lets
    | fail_if_no_progress beta_reduce

theorem State.podOff_does (s : State) (p : Nat) : Does [.od, .store, .eng, .pods, .mem, .cel] s (State.podOff s p) := by
  unfold State.podOff
  repeat' first
    | exact rfl
    | with_reducible exact Does.refl _ _
    | with_reducible apply Does.step (h' := State.setErst_does ..)
    | with_reducible apply Does.step (h' := State.setPod_does ..)
    | extract_lets
    | fail_if_no_progress beta_reduce
    | refine Does.any ⟨.inr rfl, .inr rfl, .inr rfl, .inr rfl, .inr rfl, .inr rfl, .inr rfl, .inl rfl, .inr rfl, .inr rfl, .inr rfl, .inr rfl, .inl rfl, .inr rfl, .inr rfl, .inr rfl, .inl ⟨rfl, rfl⟩, .inr rfl, .inr rfl, .inr rfl, .inr rfl, .inr rfl, .inr rfl⟩ (by first | exact Memory.forget_wf _) id (List.prefix_refl _) (fun _ => rfl) (Fin.le_refl _) ?_

theorem State.reopen_does (s : State) (p : Nat) : Does [.xbar, .pwr] s (State.reopen s p) := by
  unfold State.reopen
  repeat' first
    | exact rfl
    | with_reducible exact Does.refl _ _
    | extract_lets
    | fail_if_no_progress beta_reduce
    | refine Does.any ⟨.inr rfl, .inr rfl, .inr rfl, .inr rfl, .inr rfl, .inr rfl, .inr rfl, .inr rfl, .inr rfl, .inr rfl, .inr rfl, .inr rfl, .inr rfl, .inr rfl, .inr rfl, .inl rfl, .inr rfl, .inr rfl, .inr rfl, .inl rfl, .inr rfl, .inr rfl, .inr rfl⟩ id id (List.prefix_refl _) (fun _ => rfl) (Fin.le_refl _) ?_

theorem State.gateDone_does (s : State) : Does [.od, .store, .eng, .pods, .xbar, .mem, .cel, .pwr] s (State.gateDone s) := by
  unfold State.gateDone
  repeat' first
    | exact rfl
    | with_reducible exact Does.refl _ _
    | with_reducible apply Does.step (h' := State.podOff_does ..)
    | with_reducible apply Does.step (h' := State.reopen_does ..)
    | with_reducible apply Does.ite
    | with_reducible apply Does.fold
    | intro _
    | extract_lets
    | fail_if_no_progress beta_reduce

theorem State.podOn_does (s : State) (p : Nat) : Does [.log, .od, .store, .link, .eng, .pods, .xbar, .mem, .cel, .side, .free] s (State.podOn s p) := by
  unfold State.podOn
  repeat' first
    | exact rfl
    | with_reducible exact Does.refl _ _
    | with_reducible apply Does.step (h' := State.loadPod_does ..)
    | with_reducible apply Does.step (h' := State.setPod_does ..)
    | extract_lets
    | fail_if_no_progress beta_reduce

theorem State.gateOff_does (s : State) (p : Nat) : Does [.od, .store, .eng, .pods, .xbar, .mem, .cel, .pwr] s (State.gateOff s p) := by
  unfold State.gateOff
  repeat' first
    | exact rfl
    | with_reducible exact Does.refl _ _
    | with_reducible apply Does.step (h' := State.podOff_does ..)
    | with_reducible apply Does.ite
    | intro _
    | extract_lets
    | fail_if_no_progress beta_reduce
    | refine Does.any ⟨.inr rfl, .inr rfl, .inr rfl, .inr rfl, .inr rfl, .inr rfl, .inr rfl, .inr rfl, .inr rfl, .inr rfl, .inr rfl, .inr rfl, .inr rfl, .inr rfl, .inr rfl, .inl rfl, .inr rfl, .inr rfl, .inr rfl, .inl rfl, .inr rfl, .inr rfl, .inr rfl⟩ id id (List.prefix_refl _) (fun _ => rfl) (Fin.le_refl _) ?_

theorem State.gatePods_does (s : State) : Does [.log, .od, .store, .link, .eng, .pods, .xbar, .mem, .cel, .side, .pwr, .free] s (State.gatePods s) := by
  unfold State.gatePods
  repeat' first
    | exact rfl
    | with_reducible exact Does.refl _ _
    | with_reducible apply Does.step (h' := State.reopen_does ..)
    | with_reducible apply Does.step (h' := State.podOn_does ..)
    | with_reducible apply Does.step (h' := State.gateOff_does ..)
    | with_reducible apply Does.ite
    | with_reducible apply Does.fold
    | intro _
    | extract_lets
    | fail_if_no_progress beta_reduce

theorem State.armCheck_does (s : State) (acts : Nat) : Does [.log, .od, .store, .rep, .link, .side, .free] s (State.armCheck s acts).2 := by
  unfold State.armCheck
  repeat' first
    | exact rfl
    | with_reducible exact Does.refl _ _
    | with_reducible apply Does.step (h' := State.logE_does ..)
    | split
    | split
    | intro _
    | extract_lets
    | fail_if_no_progress beta_reduce
    | with_reducible apply Does.step (h' := Does.set_rep ..)
    | with_reducible apply Does.step (h' := Does.set_link ..)

theorem State.cDisarm_does (s : State) (p : Path) (v : Nat) : Does [.tb, .log, .sess, .od, .acc, .ports, .cls, .store, .rep, .link, .fab, .sw, .pods, .mem, .cel, .side, .pst, .pwr, .out, .free] s (State.cDisarm s p v) := by
  unfold State.cDisarm
  repeat' first
    | exact rfl
    | with_reducible exact Does.refl _ _
    | with_reducible apply Does.step (h' := State.refuseCmd_does ..)
    | with_reducible apply Does.step (h' := State.answer_does ..)
    | with_reducible apply Does.step (h' := State.toIdle_does ..)
    | with_reducible apply Does.step (h' := State.stopReplay_does ..)
    | with_reducible apply Does.ite
    | intro _
    | extract_lets
    | fail_if_no_progress beta_reduce

theorem execDisarm_does {path : Path} {p : W24} {s : State} {t : State} (h : execDisarm path p s = .next t) : Does [.tb, .log, .sess, .od, .acc, .ports, .cls, .store, .rep, .link, .fab, .sw, .pods, .mem, .cel, .side, .pst, .pwr, .out, .free] s t := by
  unfold execDisarm at h
  cases h
  repeat' first
    | exact rfl
    | with_reducible exact Does.refl _ _
    | with_reducible apply Does.step (h' := State.requestWrite_does (l := [.tb, .log, .sess, .od, .acc, .ports, .cls, .store, .rep, .link, .fab, .sw, .pods, .mem, .cel, .side, .pst, .pwr, .out, .free]) (hl := rfl) (hf0 := fun t => ?_) ..)
    | with_reducible apply Does.step (h' := State.cDisarm_does ..)
    | extract_lets
    | fail_if_no_progress beta_reduce
    | exact Does.refl _ _

theorem State.clearForArm_does (s : State) : Does [.od] s (State.clearForArm s) := by
  unfold State.clearForArm
  repeat' first
    | exact rfl
    | with_reducible exact Does.refl _ _
    | with_reducible apply Does.step (h' := State.clearCounters_does ..)
    | with_reducible apply Does.fold
    | intro _
    | extract_lets
    | fail_if_no_progress beta_reduce

theorem State.gateFail_does (s : State) : Does [.log, .od, .store, .link, .xbar, .side, .pwr, .free] s (State.gateFail s) := by
  unfold State.gateFail
  repeat' first
    | exact rfl
    | with_reducible exact Does.refl _ _
    | with_reducible apply Does.step (h' := State.logE_does ..)
    | with_reducible apply Does.step (h' := State.reopen_does ..)
    | with_reducible apply Does.fold
    | intro _
    | extract_lets
    | fail_if_no_progress beta_reduce

theorem State.armEnter_does (s : State) (acts : Nat) : Does [.log, .sess, .od, .store, .rep, .link, .eng, .pods, .xbar, .mem, .cel, .side, .pwr, .out, .free] s (State.armEnter s acts) := by
  unfold State.armEnter
  repeat' first
    | exact rfl
    | with_reducible exact Does.refl _ _
    | with_reducible apply Does.step (h' := State.clearForArm_does ..)
    | with_reducible apply Does.step (h' := State.logE_does ..)
    | with_reducible apply Does.step (h' := State.gatePods_does ..)
    | with_reducible apply Does.step (h' := State.openSource_does ..)
    | with_reducible apply Does.step (h' := State.toState_does ..)
    | with_reducible apply Does.ite
    | intro _
    | extract_lets
    | fail_if_no_progress beta_reduce
    | refine Does.any ⟨.inr rfl, .inr rfl, .inl rfl, .inr rfl, .inr rfl, .inr rfl, .inr rfl, .inl rfl, .inl rfl, .inl rfl, .inr rfl, .inr rfl, .inr rfl, .inl rfl, .inr rfl, .inr rfl, .inr rfl, .inr rfl, .inr rfl, .inr rfl, .inr rfl, .inr rfl, .inr rfl⟩ id id (List.prefix_refl _) (fun _ => rfl) (Fin.le_refl _) ?_
    | with_reducible apply Does.step (h' := Does.set_rep ..)

theorem State.cMark_does (s : State) (p : Path) (v : Nat) : Does [.log, .sess, .od, .acc, .store, .rep, .link, .fab, .side, .out, .free] s (State.cMark s p v) := by
  unfold State.cMark
  repeat' first
    | exact rfl
    | with_reducible exact Does.refl _ _
    | with_reducible apply Does.step (h' := State.refuseCmd_does ..)
    | with_reducible apply Does.step (h' := State.answer_does ..)
    | with_reducible apply Does.step (h' := State.ctlPut_does ..)
    | with_reducible apply Does.ite
    | intro _
    | extract_lets
    | fail_if_no_progress beta_reduce

theorem State.cArm_does (s : State) (p : Path) (v : Nat) : Does [.log, .sess, .od, .acc, .store, .rep, .link, .fab, .eng, .pods, .xbar, .mem, .cel, .side, .pwr, .out, .free] s (State.cArm s p v) := by
  unfold State.cArm
  repeat' first
    | exact rfl
    | with_reducible exact Does.refl _ _
    | with_reducible apply Does.step (h' := State.refuseCmd_does ..)
    | with_reducible apply Does.step (h' := State.armCheck_does ..)
    | with_reducible refine Does.step ?_ (Does.snd (by assumption) (State.armCheck_does ..)) ?_
    | with_reducible apply Does.step (h' := State.armEnter_does ..)
    | with_reducible apply Does.step (h' := State.owe_does ..)
    | with_reducible apply Does.ite
    | split
    | intro _
    | extract_lets
    | fail_if_no_progress beta_reduce
    | with_reducible apply Does.step (h' := Does.set_sess ..)

theorem execArm_does {path : Path} {p : W24} {s : State} {t : State} (h : execArm path p s = .next t) : Does [.log, .sess, .od, .acc, .store, .rep, .link, .fab, .eng, .pods, .xbar, .mem, .cel, .side, .pwr, .out, .free] s t := by
  unfold execArm at h
  cases h
  repeat' first
    | exact rfl
    | with_reducible exact Does.refl _ _
    | with_reducible apply Does.step (h' := State.requestWrite_does (l := [.log, .sess, .od, .acc, .store, .rep, .link, .fab, .eng, .pods, .xbar, .mem, .cel, .side, .pwr, .out, .free]) (hl := rfl) (hf0 := fun t => ?_) ..)
    | with_reducible apply Does.step (h' := State.cArm_does ..)
    | extract_lets
    | fail_if_no_progress beta_reduce
    | exact Does.refl _ _

theorem execMark_does {path : Path} {p : W24} {s : State} {t : State} (h : execMark path p s = .next t) : Does [.log, .sess, .od, .acc, .store, .rep, .link, .fab, .side, .out, .free] s t := by
  unfold execMark at h
  cases h
  repeat' first
    | exact rfl
    | with_reducible exact Does.refl _ _
    | with_reducible apply Does.step (h' := State.requestWrite_does (l := [.log, .sess, .od, .acc, .store, .rep, .link, .fab, .side, .out, .free]) (hl := rfl) (hf0 := fun t => ?_) ..)
    | with_reducible apply Does.step (h' := State.cMark_does ..)
    | extract_lets
    | fail_if_no_progress beta_reduce
    | exact Does.refl _ _

end Sys2Proof.Machine
end

