-- ==== Sys2Proof/Laws/DoesPestle.lean ====
section
/-! SUPPORT. What each operation of Machine/Pestle.lean can do: the parts of the state it can touch, and what it keeps. -/

namespace Sys2Proof.Machine

theorem State.fwFailed_does (s : State) (b : List Byte) (r : Nat) : Does Part.logging s (State.fwFailed s b r) := by
  unfold State.fwFailed
  repeat' first
    | exact rfl
    | with_reducible exact Does.refl _ _
    | with_reducible apply Does.step (h' := State.loadFailed_does ..)
    | with_reducible apply Does.ite
    | split
    | intro _
    | extract_lets
    | fail_if_no_progress beta_reduce

theorem Pestle.setInactive_keyHash (x : Pestle) (f : FwSlot) : (x.setInactive f).keyHash = x.keyHash := by
  unfold Pestle.setInactive; split <;> rfl

theorem Pestle.setInactive_rollback (x : Pestle) (f : FwSlot) : (x.setInactive f).rollback = x.rollback := by
  unfold Pestle.setInactive; split <;> rfl

theorem State.updateCheck_does (s : State) : Does [.log, .od, .store, .link, .side, .pst, .free] s (State.updateCheck s) := by
  unfold State.updateCheck
  extract_lets
  refine Does.step (Does.step (Does.refl _ s) (Does.set_pst _ _ ?_ ?_) rfl) (State.fwFailed_does ..) rfl
  · exact Pestle.setInactive_keyHash ..
  · exact Pestle.setInactive_rollback ..

theorem State.updateActivate_does (s : State) : Does [.pst] s (State.updateActivate s) := by
  unfold State.updateActivate
  repeat' first
    | exact rfl
    | with_reducible exact Does.refl _ _
    | with_reducible apply Does.step (h' := State.wrote_does ..)
    | extract_lets
    | fail_if_no_progress beta_reduce
    | with_reducible refine Does.step ?_ (Does.set_pst _ _ (by with_reducible rfl) (by with_reducible rfl)) ?_

theorem State.updateConfirm_does (s : State) : Does [.pst] s (State.updateConfirm s) := by
  unfold State.updateConfirm
  refine Does.step ?_ (State.wrote_does ..) rfl
  refine Does.any ⟨.inr rfl, .inr rfl, .inr rfl, .inr rfl, .inr rfl, .inr rfl, .inr rfl, .inr rfl, .inr rfl, .inr rfl, .inr rfl, .inr rfl, .inr rfl, .inr rfl, .inr rfl, .inr rfl, .inr rfl, .inr rfl, .inl rfl, .inr rfl, .inr rfl, .inr rfl, .inr rfl⟩ id id (List.prefix_refl _) (fun _ => rfl) ?_ (Does.refl _ _)
  dsimp only
  split
  · have := s.pst.rollback.isLt
    simp only [Fin.le_def, Fin.ofNat]
    omega
  · exact Fin.le_refl _

theorem State.updateAbandon_does (s : State) : Does [.pst] s (State.updateAbandon s) := by
  unfold State.updateAbandon
  extract_lets x
  refine Does.set_pst _ _ ?_ ?_
  · split
    · exact Pestle.wrote_keyHash ..
    · rfl
  · split
    · exact Pestle.wrote_rollback ..
    · rfl

theorem State.wUpdate_does (s : State) (p : Path) (v : Nat) : Does [.log, .od, .acc, .store, .rep, .link, .fab, .side, .pst, .out, .free] s (State.wUpdate s p v) := by
  unfold State.wUpdate
  repeat' first
    | exact rfl
    | with_reducible exact Does.refl _ _
    | with_reducible apply Does.step (h' := State.refuseLog_does ..)
    | with_reducible apply Does.step (h' := State.refuse_does ..)
    | with_reducible apply Does.step (h' := State.answer_does ..)
    | with_reducible apply Does.step (h' := State.updateCheck_does ..)
    | with_reducible apply Does.step (h' := State.updateActivate_does ..)
    | with_reducible apply Does.step (h' := State.updateConfirm_does ..)
    | with_reducible apply Does.step (h' := State.updateAbandon_does ..)
    | with_reducible apply Does.ite
    | split
    | intro _
    | extract_lets
    | fail_if_no_progress beta_reduce

theorem execUpdateActivate_does {path : Path} {s : State} {t : State} (h : execUpdateActivate path s = .next t) : Does [.log, .od, .acc, .store, .rep, .link, .fab, .side, .pst, .out, .free] s t := by
  unfold execUpdateActivate at h
  cases h
  repeat' first
    | exact rfl
    | with_reducible exact Does.refl _ _
    | with_reducible apply Does.step (h' := State.requestWrite_does (l := [.log, .od, .acc, .store, .rep, .link, .fab, .side, .pst, .out, .free]) (hl := rfl) (hf0 := fun t => ?_) ..)
    | with_reducible apply Does.step (h' := State.wUpdate_does ..)
    | extract_lets
    | fail_if_no_progress beta_reduce
    | exact Does.refl _ _

theorem State.takeVolt_does (s : State) (m : Nat) (v : Nat) (o : Bool) : Does [.log, .od, .store, .link, .side, .pst, .free] s (State.takeVolt s m v o) := by
  unfold State.takeVolt
  repeat' first
    | exact rfl
    | with_reducible exact Does.refl _ _
    | with_reducible apply Does.step (h' := State.logE_does ..)
    | with_reducible apply Does.ite
    | intro _
    | extract_lets
    | fail_if_no_progress beta_reduce
    | with_reducible refine Does.step ?_ (Does.set_pst _ _ (by with_reducible rfl) (by with_reducible rfl)) ?_

theorem State.logPestle_does (s : State) : Does Part.logging s (State.logPestle s) := by
  unfold State.logPestle
  repeat' first
    | exact rfl
    | with_reducible exact Does.refl _ _
    | with_reducible apply Does.step (h' := State.logE_does ..)
    | extract_lets
    | fail_if_no_progress beta_reduce

theorem State.rehome_does (s0 : State) (p : Nat) : Does Part.core s0 (State.rehome s0 p) := by
  unfold State.rehome
  repeat' first
    | exact rfl
    | with_reducible exact Does.refl _ _
    | with_reducible apply Does.step (h' := State.readSides_does ..)
    | with_reducible apply Does.step (h' := State.sideFailed_does ..)
    | with_reducible apply Does.step (h' := State.publishCheck_does ..)
    | with_reducible apply Does.step (h' := State.putShadow_does ..)
    | with_reducible apply Does.step (h' := State.logPestle_does ..)
    | with_reducible apply Does.step (h' := State.logRefusal_does ..)
    | split
    | extract_lets
    | fail_if_no_progress beta_reduce
    | with_reducible apply Does.step (h' := Does.set_cls ..)

theorem execRehomeChannels_does {pod : PodN} {s : State} {t : State} (h : execRehomeChannels pod s = .next t) : Does Part.core s t := by
  unfold execRehomeChannels at h
  cases h
  repeat' first
    | exact rfl
    | with_reducible exact Does.refl _ _
    | with_reducible apply Does.step (h' := State.rehome_does ..)
    | with_reducible apply Does.ite
    | intro _
    | extract_lets
    | fail_if_no_progress beta_reduce

theorem State.rLog_does (s : State) (p : Path) (want : Nat) : Does [.log, .od, .acc, .store, .rep, .link, .fab, .cel, .side, .out, .free] s (State.rLog s p want) := by
  unfold State.rLog
  repeat' first
    | exact rfl
    | with_reducible exact Does.refl _ _
    | with_reducible apply Does.step (h' := State.refuse_does ..)
    | with_reducible apply Does.step (h' := State.answer_does ..)
    | with_reducible apply Does.step (h' := State.readSides_does ..)
    | with_reducible apply Does.ite
    | split
    | intro _
    | extract_lets
    | fail_if_no_progress beta_reduce
    | with_reducible apply Does.step (h' := Does.set_acc ..)

theorem execUpdateConfirm_does {path : Path} {s : State} {t : State} (h : execUpdateConfirm path s = .next t) : Does [.log, .od, .acc, .store, .rep, .link, .fab, .side, .pst, .out, .free] s t := by
  unfold execUpdateConfirm at h
  cases h
  repeat' first
    | exact rfl
    | with_reducible exact Does.refl _ _
    | with_reducible apply Does.step (h' := State.requestWrite_does (l := [.log, .od, .acc, .store, .rep, .link, .fab, .side, .pst, .out, .free]) (hl := rfl) (hf0 := fun t => ?_) ..)
    | with_reducible apply Does.step (h' := State.wUpdate_does ..)
    | extract_lets
    | fail_if_no_progress beta_reduce
    | exact Does.refl _ _

theorem execEventLogRead_does {path : Path} {s : State} {t : State} (h : execEventLogRead path s = .next t) : Does [.log, .od, .acc, .store, .rep, .link, .fab, .cel, .side, .out, .free] s t := by
  unfold execEventLogRead at h
  cases h
  repeat' first
    | exact rfl
    | with_reducible exact Does.refl _ _
    | with_reducible apply Does.step (h' := State.requestRead_does (l := [.log, .od, .acc, .store, .rep, .link, .fab, .cel, .side, .out, .free]) (hl := rfl) (hf0 := fun t => ?_) ..)
    | with_reducible apply Does.step (h' := State.rLog_does ..)
    | extract_lets
    | fail_if_no_progress beta_reduce
    | exact Does.refl _ _

theorem State.storeImage_does (s : State) (p : Path) (b : List Byte) : Does [.log, .od, .acc, .store, .rep, .link, .fab, .side, .pst, .out, .free] s (State.storeImage s p b) := by
  unfold State.storeImage
  repeat' first
    | exact rfl
    | with_reducible exact Does.refl _ _
    | with_reducible apply Does.step (h' := State.refuse_does ..)
    | with_reducible apply Does.step (h' := State.answer_does ..)
    | with_reducible apply Does.ite
    | intro _
    | extract_lets
    | fail_if_no_progress beta_reduce
    | with_reducible refine Does.step ?_ (Does.set_pst _ _ (by with_reducible rfl) (by with_reducible rfl)) ?_

theorem State.wPodImage_does (s : State) (p : Path) (off : Nat) (data : List Byte) : Does [.log, .od, .acc, .store, .rep, .link, .fab, .side, .pst, .out, .free] s (State.wPodImage s p off data) := by
  unfold State.wPodImage
  repeat' first
    | exact rfl
    | with_reducible exact Does.refl _ _
    | with_reducible apply Does.step (h' := State.refuse_does ..)
    | with_reducible apply Does.step (h' := State.refuseLog_does ..)
    | with_reducible apply Does.step (h' := State.storeImage_does ..)
    | with_reducible apply Does.step (h' := State.answer_does ..)
    | with_reducible apply Does.ite
    | intro _
    | extract_lets
    | fail_if_no_progress beta_reduce
    | with_reducible refine Does.step ?_ (Does.set_pst _ _ (by with_reducible rfl) (by with_reducible rfl)) ?_

theorem execPodReset_does {pod : PodN} {s : State} {t : State} (h : execPodReset pod s = .next t) : Does [.log, .od, .store, .link, .eng, .pods, .xbar, .mem, .cel, .side, .free] s t := by
  unfold execPodReset at h
  cases h
  repeat' first
    | exact rfl
    | with_reducible exact Does.refl _ _
    | with_reducible apply Does.step (h' := State.freeCause_does ..)
    | with_reducible refine Does.step ?_ (Does.snd (by assumption) (State.freeCause_does ..)) ?_
    | with_reducible apply Does.step (h' := State.podReset_does ..)
    | with_reducible apply Does.ite
    | intro _
    | extract_lets
    | fail_if_no_progress beta_reduce

theorem State.logDoor_does (s : State) (n : Nat) (msg : W24) : Does [.log, .od, .store, .link, .side, .pst, .free] s (State.logDoor s n msg) := by
  unfold State.logDoor
  repeat' first
    | exact rfl
    | with_reducible exact Does.refl _ _
    | with_reducible apply Does.step (h' := State.logE_does ..)
    | with_reducible apply Does.step (h' := State.bump_does ..)
    | with_reducible apply Does.ite
    | intro _
    | extract_lets
    | fail_if_no_progress beta_reduce
    | with_reducible refine Does.step ?_ (Does.set_pst _ _ (by with_reducible rfl) (by with_reducible rfl)) ?_

theorem State.serveDoor_does (s : State) (n : Nat) : Does [.log, .od, .store, .link, .eng, .pods, .xbar, .mem, .cel, .side, .pst, .free] s (State.serveDoor s n) := by
  unfold State.serveDoor
  repeat' first
    | exact rfl
    | with_reducible exact Does.refl _ _
    | with_reducible apply Does.step (h' := State.bump_does ..)
    | with_reducible apply Does.step (h' := State.logDoor_does ..)
    | with_reducible apply Does.step (h' := State.freeCause_does ..)
    | with_reducible refine Does.step ?_ (Does.snd (by assumption) (State.freeCause_does ..)) ?_
    | with_reducible apply Does.step (h' := State.podResetWith_does (l := [.log, .od, .store, .link, .eng, .pods, .xbar, .mem, .cel, .side, .pst, .free]) (hl := rfl) (hf0 := fun t => ?_) ..)
    | with_reducible apply Does.step (h' := State.logE_does ..)
    | with_reducible apply Does.ite
    | intro _
    | extract_lets
    | fail_if_no_progress beta_reduce
    | with_reducible refine Does.step ?_ (Does.set_pst _ _ (by with_reducible rfl) (by with_reducible rfl)) ?_
    | exact Does.refl _ _

theorem State.setThrottle_does (s : State) (n : Nat) : Does [.log, .od, .store, .link, .pods, .side, .pwr, .free] s (State.setThrottle s n) := by
  unfold State.setThrottle
  repeat' first
    | exact rfl
    | with_reducible exact Does.refl _ _
    | with_reducible apply Does.step (h' := State.logE_does ..)
    | with_reducible apply Does.step (h' := State.holdSum_does ..)
    | with_reducible apply Does.step (h' := State.fitPods_does ..)
    | with_reducible apply Does.ite
    | intro _
    | extract_lets
    | fail_if_no_progress beta_reduce
    | with_reducible apply Does.step (h' := Does.set_pwr ..)

theorem State.throttle_does (s : State) : Does [.log, .od, .store, .link, .pods, .side, .pwr, .free] s (State.throttle s) := by
  unfold State.throttle
  repeat' first
    | exact rfl
    | with_reducible exact Does.refl _ _
    | with_reducible apply Does.step (h' := State.setThrottle_does ..)
    | extract_lets
    | fail_if_no_progress beta_reduce

theorem State.sample_does (s : State) (temps : List ℤ) (volts : List Nat) (clocks : List Nat) : Does [.tb, .log, .od, .store, .link, .pods, .side, .pst, .pwr, .free] s (State.sample s temps volts clocks) := by
  unfold State.sample
  repeat' first
    | exact rfl
    | with_reducible exact Does.refl _ _
    | with_reducible apply Does.step (h' := State.calibrate_does ..)
    | with_reducible apply Does.step (h' := State.takeVolt_does ..)
    | with_reducible apply Does.step (h' := State.throttle_does ..)
    | with_reducible apply Does.ite
    | with_reducible apply Does.fold
    | intro _
    | extract_lets
    | fail_if_no_progress beta_reduce
    | with_reducible refine Does.step ?_ (Does.set_pst _ _ (by with_reducible rfl) (by with_reducible rfl)) ?_

theorem execSensorSample_does {temps : List ℤ} {volts : List Nat} {clocks : List Nat} {s : State} {t : State} (h : execSensorSample temps volts clocks s = .next t) : Does [.tb, .log, .od, .store, .link, .pods, .side, .pst, .pwr, .free] s t := by
  unfold execSensorSample at h
  cases h
  repeat' first
    | exact rfl
    | with_reducible exact Does.refl _ _
    | with_reducible apply Does.step (h' := State.sample_does ..)
    | with_reducible apply Does.ite
    | intro _
    | extract_lets
    | fail_if_no_progress beta_reduce

theorem State.updateReset_does (s : State) : Does Part.core s (State.updateReset s) := by
  unfold State.updateReset
  repeat' first
    | exact rfl
    | with_reducible exact Does.refl _ _
    | with_reducible apply Does.step (h' := State.warmReset_does ..)
    | with_reducible apply Does.step (h' := State.reach_does ..)
    | split
    | extract_lets
    | fail_if_no_progress beta_reduce

theorem State.wImageKey_does (s : State) (p : Path) (data : List Byte) : Does [.log, .od, .acc, .store, .rep, .link, .fab, .side, .pst, .out, .free] s (State.wImageKey s p data) := by
  unfold State.wImageKey
  split
  · exact (State.refuse_does ..).weaken rfl
  · split
    · exact (State.refuseLog_does ..).weaken rfl
    · next h =>
      refine Does.step ?_ (State.answer_does ..) rfl
      refine Does.any ⟨.inr rfl, .inr rfl, .inr rfl, .inr rfl, .inr rfl, .inr rfl, .inr rfl, .inr rfl, .inr rfl, .inr rfl, .inr rfl, .inr rfl, .inr rfl, .inr rfl, .inr rfl, .inr rfl, .inr rfl, .inr rfl, .inl rfl, .inr rfl, .inr rfl, .inr rfl, .inr rfl⟩ id id (List.prefix_refl _) (fun hk => ?_) (Fin.le_refl _)
        (Does.refl _ _)
      simp [hk] at h

theorem execImageKeyFuse_does {path : Path} {data : List Byte} {s : State} {t : State} (h : execImageKeyFuse path data s = .next t) : Does [.log, .od, .acc, .store, .rep, .link, .fab, .side, .pst, .out, .free] s t := by
  unfold execImageKeyFuse at h
  cases h
  repeat' first
    | exact rfl
    | with_reducible exact Does.refl _ _
    | with_reducible apply Does.step (h' := State.requestWrite_does (l := [.log, .od, .acc, .store, .rep, .link, .fab, .side, .pst, .out, .free]) (hl := rfl) (hf0 := fun t => ?_) ..)
    | with_reducible apply Does.step (h' := State.wImageKey_does ..)
    | extract_lets
    | fail_if_no_progress beta_reduce
    | exact Does.refl _ _

theorem State.wFirmware_does (s : State) (p : Path) (off : Nat) (data : List Byte) : Does [.log, .od, .acc, .store, .rep, .link, .fab, .side, .pst, .out, .free] s (State.wFirmware s p off data) := by
  unfold State.wFirmware
  split
  · exact (State.refuse_does ..).weaken rfl
  · split
    · exact (State.refuseLog_does ..).weaken rfl
    · extract_lets
      refine Does.step ?_ (State.answer_does ..) rfl
      refine Does.step (Does.refl _ s) (Does.set_pst _ _ ?_ ?_) rfl
      · exact Pestle.setInactive_keyHash ..
      · exact Pestle.setInactive_rollback ..

theorem execFirmwareImageWrite_does {path : Path} {off : Nat} {data : List Byte} {s : State} {t : State} (h : execFirmwareImageWrite path off data s = .next t) : Does [.log, .od, .acc, .store, .rep, .link, .fab, .side, .pst, .out, .free] s t := by
  unfold execFirmwareImageWrite at h
  cases h
  repeat' first
    | exact rfl
    | with_reducible exact Does.refl _ _
    | with_reducible apply Does.step (h' := State.request_does (l := [.log, .od, .acc, .store, .rep, .link, .fab, .side, .pst, .out, .free]) (hl := rfl) (hf0 := fun t => ?_) ..)
    | with_reducible apply Does.step (h' := State.wFirmware_does ..)
    | extract_lets
    | fail_if_no_progress beta_reduce
    | exact Does.refl _ _

theorem State.watchdog_does (s : State) (k : Nat) : Does Part.core s (State.watchdog s k) := by
  unfold State.watchdog
  repeat' first
    | exact rfl
    | with_reducible exact Does.refl _ _
    | with_reducible apply Does.step (h' := State.warmReset_does ..)
    | with_reducible apply Does.step (h' := State.reach_does ..)
    | extract_lets
    | fail_if_no_progress beta_reduce

theorem State.wDeleteImage_does (s : State) (p : Path) (id : Nat) : Does [.log, .od, .acc, .store, .rep, .link, .fab, .side, .pst, .out, .free] s (State.wDeleteImage s p id) := by
  unfold State.wDeleteImage
  repeat' first
    | exact rfl
    | with_reducible exact Does.refl _ _
    | with_reducible apply Does.step (h' := State.refuseLog_does ..)
    | with_reducible apply Does.step (h' := State.answer_does ..)
    | with_reducible apply Does.ite
    | intro _
    | extract_lets
    | fail_if_no_progress beta_reduce
    | with_reducible refine Does.step ?_ (Does.set_pst _ _ (by with_reducible rfl) (by with_reducible rfl)) ?_

theorem execWatchdogExpiry_does {k : Fin 4} {s : State} {t : State} (h : execWatchdogExpiry k s = .next t) : Does Part.core s t := by
  unfold execWatchdogExpiry at h
  cases h
  repeat' first
    | exact rfl
    | with_reducible exact Does.refl _ _
    | with_reducible apply Does.step (h' := State.watchdog_does ..)
    | with_reducible apply Does.ite
    | intro _
    | extract_lets
    | fail_if_no_progress beta_reduce

theorem execRandomSourceHealthTest_does {pass : Bool} {s : State} {t : State} (h : execRandomSourceHealthTest pass s = .next t) : Does [.log, .od, .store, .link, .side, .pst, .free] s t := by
  unfold execRandomSourceHealthTest at h
  cases h
  repeat' first
    | exact rfl
    | with_reducible exact Does.refl _ _
    | with_reducible apply Does.step (h' := State.logPestle_does ..)
    | with_reducible apply Does.ite
    | intro _
    | extract_lets
    | fail_if_no_progress beta_reduce
    | with_reducible refine Does.step ?_ (Does.set_pst _ _ (by with_reducible rfl) (by with_reducible rfl)) ?_

theorem execUpdateResetTimer_does {s : State} {t : State} (h : execUpdateResetTimer s = .next t) : Does Part.core s t := by
  unfold execUpdateResetTimer at h
  cases h
  repeat' first
    | exact rfl
    | with_reducible exact Does.refl _ _
    | with_reducible apply Does.step (h' := State.updateReset_does ..)
    | with_reducible apply Does.ite
    | intro _
    | extract_lets
    | fail_if_no_progress beta_reduce

theorem execDoorbellService_does {eng : Fin 1024} {s : State} {t : State} (h : execDoorbellService eng s = .next t) : Does [.log, .od, .store, .link, .eng, .pods, .xbar, .mem, .cel, .side, .pst, .free] s t := by
  unfold execDoorbellService at h
  cases h
  repeat' first
    | exact rfl
    | with_reducible exact Does.refl _ _
    | with_reducible apply Does.step (h' := State.serveDoor_does ..)
    | with_reducible apply Does.ite
    | intro _
    | extract_lets
    | fail_if_no_progress beta_reduce

theorem execUpdateCheck_does {path : Path} {s : State} {t : State} (h : execUpdateCheck path s = .next t) : Does [.log, .od, .acc, .store, .rep, .link, .fab, .side, .pst, .out, .free] s t := by
  unfold execUpdateCheck at h
  cases h
  repeat' first
    | exact rfl
    | with_reducible exact Does.refl _ _
    | with_reducible apply Does.step (h' := State.requestWrite_does (l := [.log, .od, .acc, .store, .rep, .link, .fab, .side, .pst, .out, .free]) (hl := rfl) (hf0 := fun t => ?_) ..)
    | with_reducible apply Does.step (h' := State.wUpdate_does ..)
    | extract_lets
    | fail_if_no_progress beta_reduce
    | exact Does.refl _ _

theorem execUpdateAbandon_does {path : Path} {s : State} {t : State} (h : execUpdateAbandon path s = .next t) : Does [.log, .od, .acc, .store, .rep, .link, .fab, .side, .pst, .out, .free] s t := by
  unfold execUpdateAbandon at h
  cases h
  repeat' first
    | exact rfl
    | with_reducible exact Does.refl _ _
    | with_reducible apply Does.step (h' := State.requestWrite_does (l := [.log, .od, .acc, .store, .rep, .link, .fab, .side, .pst, .out, .free]) (hl := rfl) (hf0 := fun t => ?_) ..)
    | with_reducible apply Does.step (h' := State.wUpdate_does ..)
    | extract_lets
    | fail_if_no_progress beta_reduce
    | exact Does.refl _ _

theorem execPodImageDelete_does {path : Path} {id : BitVec 64} {s : State} {t : State} (h : execPodImageDelete path id s = .next t) : Does [.log, .od, .acc, .store, .rep, .link, .fab, .side, .pst, .out, .free] s t := by
  unfold execPodImageDelete at h
  cases h
  repeat' first
    | exact rfl
    | with_reducible exact Does.refl _ _
    | with_reducible apply Does.step (h' := State.requestWrite_does (l := [.log, .od, .acc, .store, .rep, .link, .fab, .side, .pst, .out, .free]) (hl := rfl) (hf0 := fun t => ?_) ..)
    | with_reducible apply Does.step (h' := State.wDeleteImage_does ..)
    | extract_lets
    | fail_if_no_progress beta_reduce
    | exact Does.refl _ _

theorem execPodImageWrite_does {path : Path} {off : Nat} {data : List Byte} {s : State} {t : State} (h : execPodImageWrite path off data s = .next t) : Does [.log, .od, .acc, .store, .rep, .link, .fab, .side, .pst, .out, .free] s t := by
  unfold execPodImageWrite at h
  cases h
  repeat' first
    | exact rfl
    | with_reducible exact Does.refl _ _
    | with_reducible apply Does.step (h' := State.request_does (l := [.log, .od, .acc, .store, .rep, .link, .fab, .side, .pst, .out, .free]) (hl := rfl) (hf0 := fun t => ?_) ..)
    | with_reducible apply Does.step (h' := State.wPodImage_does ..)
    | extract_lets
    | fail_if_no_progress beta_reduce
    | exact Does.refl _ _

end Sys2Proof.Machine
end

