-- ==== Sys2Proof/Laws/DoesFabPorts.lean ====
section
/-! SUPPORT. What each operation of Machine/FabPorts.lean can do: the parts of the state it can touch, and what it keeps. -/

namespace Sys2Proof.Machine

theorem State.setMaster_does (s : State) (m : Option (BitVec 64)) : Does [.fab] s (State.setMaster s m) := by
  unfold State.setMaster
  repeat' first
    | exact rfl
    | with_reducible exact Does.refl _ _
    | with_reducible apply Does.ite
    | intro _
    | extract_lets
    | fail_if_no_progress beta_reduce
    | with_reducible apply Does.step (h' := Does.set_fab ..)

theorem State.elect_does (s : State) : Does [.fab] s (State.elect s) := by
  unfold State.elect
  repeat' first
    | exact rfl
    | with_reducible exact Does.refl _ _
    | with_reducible apply Does.step (h' := State.setMaster_does ..)
    | with_reducible apply Does.ite
    | intro _
    | extract_lets
    | fail_if_no_progress beta_reduce
    | with_reducible apply Does.step (h' := Does.set_fab ..)

theorem State.keepAdvert_does (s : State) (a : Advert) : Does [.fab] s (State.keepAdvert s a) := by
  unfold State.keepAdvert
  repeat' first
    | exact rfl
    | with_reducible exact Does.refl _ _
    | extract_lets
    | fail_if_no_progress beta_reduce
    | with_reducible apply Does.step (h' := Does.set_fab ..)

theorem State.advertise_does (s : State) : Does [.fab, .out] s (State.advertise s) := by
  unfold State.advertise
  repeat' first
    | exact rfl
    | with_reducible exact Does.refl _ _
    | with_reducible apply Does.step (h' := State.floodOwn_does ..)
    | with_reducible apply Does.step (h' := State.elect_does ..)
    | with_reducible apply Does.step (h' := State.keepAdvert_does ..)
    | extract_lets
    | fail_if_no_progress beta_reduce
    | with_reducible apply Does.step (h' := Does.set_fab ..)

theorem State.demote_does (s : State) (k : Nat) : Does [.fab] s (State.demote s k) := by
  unfold State.demote
  repeat' first
    | exact rfl
    | with_reducible exact Does.refl _ _
    | with_reducible apply Does.ite
    | intro _
    | extract_lets
    | fail_if_no_progress beta_reduce
    | with_reducible apply Does.step (h' := Does.set_fab ..)

theorem State.reroute_does (s : State) (q : Flit × Option Nat) : Does [.fab, .out] s (State.reroute s q) := by
  unfold State.reroute
  repeat' first
    | exact rfl
    | with_reducible exact Does.refl _ _
    | with_reducible apply Does.step (h' := State.freeBuffer_does ..)
    | with_reducible apply Does.step (h' := State.sendFrom_does ..)
    | with_reducible apply Does.ite
    | split
    | intro _
    | extract_lets
    | fail_if_no_progress beta_reduce

theorem State.failLinks_does (s : State) (before : State) : Does [.fab, .out] s (State.failLinks s before) := by
  unfold State.failLinks
  repeat' first
    | exact rfl
    | with_reducible exact Does.refl _ _
    | with_reducible apply Does.step (h' := State.demote_does ..)
    | with_reducible apply Does.step (h' := State.reroute_does ..)
    | with_reducible apply Does.fold
    | intro _
    | extract_lets
    | fail_if_no_progress beta_reduce

theorem State.linkChange_does (s : State) (before : State) : Does [.fab, .out] s (State.linkChange s before) := by
  unfold State.linkChange
  repeat' first
    | exact rfl
    | with_reducible exact Does.refl _ _
    | with_reducible apply Does.step (h' := State.advertise_does ..)
    | with_reducible apply Does.step (h' := State.failLinks_does ..)
    | with_reducible apply Does.ite
    | intro _
    | extract_lets
    | fail_if_no_progress beta_reduce

theorem State.linkLost_does (s : State) (k : Nat) : Does [.log, .od, .store, .link, .fab, .side, .out, .free] s (State.linkLost s k) := by
  unfold State.linkLost
  repeat' first
    | exact rfl
    | with_reducible exact Does.refl _ _
    | with_reducible apply Does.step (h' := State.linkChange_does ..)
    | with_reducible apply Does.step (h' := State.logE_does ..)
    | with_reducible apply Does.step (h' := State.setFport_does ..)
    | extract_lets
    | fail_if_no_progress beta_reduce

theorem State.countViolation_does (s : State) (k : Nat) : Does [.log, .od, .store, .link, .fab, .side, .out, .free] s (State.countViolation s k) := by
  unfold State.countViolation
  repeat' first
    | exact rfl
    | with_reducible exact Does.refl _ _
    | with_reducible apply Does.step (h' := State.bump_does ..)
    | with_reducible apply Does.step (h' := State.setFport_does ..)
    | with_reducible apply Does.step (h' := State.logCount_does ..)
    | with_reducible apply Does.step (h' := State.linkChange_does ..)
    | with_reducible apply Does.ite
    | intro _
    | extract_lets
    | fail_if_no_progress beta_reduce

theorem State.fabNak_does (s : State) (k : Nat) (reason : Nat) (dropped : Byte) : Does [.fab, .out] s (State.fabNak s k reason dropped) := by
  unfold State.fabNak
  repeat' first
    | exact rfl
    | with_reducible exact Does.refl _ _
    | with_reducible apply Does.step (h' := State.sendPlain_does ..)
    | extract_lets
    | fail_if_no_progress beta_reduce

theorem State.violate_does (s : State) (k : Nat) (reason : Nat) (f : Flit) : Does [.log, .od, .store, .link, .fab, .side, .out, .free] s (State.violate s k reason f) := by
  unfold State.violate
  repeat' first
    | exact rfl
    | with_reducible exact Does.refl _ _
    | with_reducible apply Does.step (h' := State.countViolation_does ..)
    | with_reducible apply Does.step (h' := State.fabNak_does ..)
    | extract_lets
    | fail_if_no_progress beta_reduce

theorem State.takeAck_does (s : State) (k : Nat) (f : Flit) (n : Nat) : Does [.fab, .out] s (State.takeAck s k f n) := by
  unfold State.takeAck
  repeat' first
    | exact rfl
    | with_reducible exact Does.refl _ _
    | with_reducible apply Does.step (h' := State.drainExports_does ..)
    | with_reducible apply Does.step (h' := State.flushTx_does ..)
    | with_reducible apply Does.step (h' := State.setFport_does ..)
    | with_reducible apply Does.ite
    | intro _
    | extract_lets
    | fail_if_no_progress beta_reduce

theorem State.idleAfter_does (s : State) (k : Nat) (n : Nat) : Does [.fab, .out] s (State.idleAfter s k n) := by
  unfold State.idleAfter
  repeat' first
    | exact rfl
    | with_reducible exact Does.refl _ _
    | with_reducible apply Does.step (h' := State.sendPlain_does ..)
    | with_reducible apply Does.ite
    | intro _
    | extract_lets
    | fail_if_no_progress beta_reduce

theorem State.tryUp_does (s : State) (k : Nat) : Does [.log, .od, .store, .link, .fab, .side, .out, .free] s (State.tryUp s k) := by
  unfold State.tryUp
  repeat' first
    | exact rfl
    | with_reducible exact Does.refl _ _
    | with_reducible apply Does.step (h' := State.linkChange_does ..)
    | with_reducible apply Does.step (h' := State.logE_does ..)
    | with_reducible apply Does.step (h' := State.setFport_does ..)
    | with_reducible apply Does.ite
    | intro _
    | extract_lets
    | fail_if_no_progress beta_reduce

theorem State.acceptSeq_does (s : State) (k : Nat) (f : Flit) : Does [.fab] s (State.acceptSeq s k f) := by
  unfold State.acceptSeq
  repeat' first
    | exact rfl
    | with_reducible exact Does.refl _ _
    | with_reducible apply Does.step (h' := State.setFport_does ..)
    | extract_lets
    | fail_if_no_progress beta_reduce

theorem State.nakOnce_does (s : State) (k : Nat) (reason : Nat) (dropped : Byte) : Does [.fab, .out] s (State.nakOnce s k reason dropped) := by
  unfold State.nakOnce
  repeat' first
    | exact rfl
    | with_reducible exact Does.refl _ _
    | with_reducible apply Does.step (h' := State.fabNak_does ..)
    | with_reducible apply Does.step (h' := State.setFport_does ..)
    | with_reducible apply Does.ite
    | intro _
    | extract_lets
    | fail_if_no_progress beta_reduce

theorem State.rx_does (s : State) (k : Nat) (want : Nat → Bool) (f : Flit) (act : State → State) {l : List Part} (hl : ([.log, .od, .store, .link, .fab, .side, .out, .free].all fun p => l.contains p) = true) (hf0 : ∀ t, Does l t (act t)) : Does l s (State.rx s k want f act).1 := by
  unfold State.rx
  repeat' first
    | exact rfl
    | with_reducible exact Does.refl _ _
    | exact Part.all_trans rfl hl
    | exact Part.all_self _
    | with_reducible apply Does.step (h' := hf0 ..)
    | with_reducible apply Does.step (h' := State.violate_does ..)
    | with_reducible apply Does.step (h' := State.takeAck_does ..)
    | with_reducible apply Does.step (h' := State.idleAfter_does ..)
    | with_reducible apply Does.step (h' := State.tryUp_does ..)
    | with_reducible apply Does.step (h' := State.acceptSeq_does ..)
    | with_reducible apply Does.step (h' := State.nakOnce_does ..)
    | split
    | split
    | intro _
    | extract_lets
    | fail_if_no_progress beta_reduce

theorem execIdleFlitReceived_does {k : Fin 8} {flit : Flit} {s : State} {t : State} (h : execIdleFlitReceived k flit s = .next t) : Does [.log, .od, .store, .link, .fab, .side, .out, .free] s t := by
  unfold execIdleFlitReceived at h
  cases h
  repeat' first
    | exact rfl
    | with_reducible exact Does.refl _ _
    | with_reducible apply Does.step (h' := State.rx_does (l := [.log, .od, .store, .link, .fab, .side, .out, .free]) (hl := rfl) (hf0 := fun t => ?_) ..)
    | with_reducible refine Does.step ?_ (Does.fst (by assumption) (State.rx_does (l := [.log, .od, .store, .link, .fab, .side, .out, .free]) (hl := rfl) (hf0 := fun t => ?_) ..)) ?_
    | extract_lets
    | fail_if_no_progress beta_reduce
    | exact Does.refl _ _

theorem State.keepBuffer_does (s : State) (k : Nat) (v : Nat) : Does [.fab] s (State.keepBuffer s k v) := by
  unfold State.keepBuffer
  repeat' first
    | exact rfl
    | with_reducible exact Does.refl _ _
    | with_reducible apply Does.step (h' := State.setFport_does ..)
    | extract_lets
    | fail_if_no_progress beta_reduce

theorem State.forward_does (s : State) (k : Nat) (f : Flit) : Does [.log, .od, .store, .link, .fab, .side, .out, .free] s (State.forward s k f) := by
  unfold State.forward
  repeat' first
    | exact rfl
    | with_reducible exact Does.refl _ _
    | with_reducible apply Does.step (h' := State.bump_does ..)
    | with_reducible apply Does.step (h' := State.logCount_does ..)
    | with_reducible apply Does.step (h' := State.sendFrom_does ..)
    | with_reducible apply Does.step (h' := State.keepBuffer_does ..)
    | with_reducible apply Does.ite
    | split
    | intro _
    | extract_lets
    | fail_if_no_progress beta_reduce
    | with_reducible apply Does.step (h' := Does.set_fab ..)

theorem State.logTrain_does (s : State) (k : Nat) : Does [.log, .od, .store, .link, .fab, .side, .free] s (State.logTrain s k) := by
  unfold State.logTrain
  repeat' first
    | exact rfl
    | with_reducible exact Does.refl _ _
    | with_reducible apply Does.step (h' := State.logE_does ..)
    | with_reducible apply Does.step (h' := State.setFport_does ..)
    | with_reducible apply Does.ite
    | intro _
    | extract_lets
    | fail_if_no_progress beta_reduce

theorem State.train_does (s : State) (k : Nat) (oneLane : Bool) : Does [.log, .od, .store, .link, .fab, .side, .out, .free] s (State.train s k oneLane) := by
  unfold State.train
  repeat' first
    | exact rfl
    | with_reducible exact Does.refl _ _
    | with_reducible apply Does.step (h' := State.linkChange_does ..)
    | with_reducible apply Does.step (h' := State.logTrain_does ..)
    | with_reducible apply Does.step (h' := State.setFport_does ..)
    | with_reducible apply Does.step (h' := State.launch_does ..)
    | extract_lets
    | fail_if_no_progress beta_reduce

theorem State.floodOn_does (s : State) (k : Nat) (fs : List Flit) : Does [.fab, .out] s (State.floodOn s k fs) := by
  unfold State.floodOn
  repeat' first
    | exact rfl
    | with_reducible exact Does.refl _ _
    | with_reducible apply Does.step (h' := State.flood_does ..)
    | with_reducible apply Does.ite
    | intro _
    | extract_lets
    | fail_if_no_progress beta_reduce

theorem State.checkFailed_does (s : State) (k : Nat) : Does [.log, .od, .store, .link, .fab, .side, .out, .free] s (State.checkFailed s k) := by
  unfold State.checkFailed
  repeat' first
    | exact rfl
    | with_reducible exact Does.refl _ _
    | with_reducible apply Does.step (h' := State.bump_does ..)
    | with_reducible apply Does.step (h' := State.setFport_does ..)
    | with_reducible apply Does.step (h' := State.train_does ..)
    | with_reducible apply Does.step (h' := State.nakOnce_does ..)
    | with_reducible apply Does.ite
    | intro _
    | extract_lets
    | fail_if_no_progress beta_reduce

theorem execFlitCheckFailed_does {k : Fin 8} {s : State} {t : State} (h : execFlitCheckFailed k s = .next t) : Does [.log, .od, .store, .link, .fab, .side, .out, .free] s t := by
  unfold execFlitCheckFailed at h
  cases h
  repeat' first
    | exact rfl
    | with_reducible exact Does.refl _ _
    | with_reducible apply Does.step (h' := State.checkFailed_does ..)
    | extract_lets
    | fail_if_no_progress beta_reduce

theorem execLoopedRetrainTimer_does {k : Fin 8} {s : State} {t : State} (h : execLoopedRetrainTimer k s = .next t) : Does [.log, .od, .store, .link, .fab, .side, .out, .free] s t := by
  unfold execLoopedRetrainTimer at h
  cases h
  repeat' first
    | exact rfl
    | with_reducible exact Does.refl _ _
    | with_reducible apply Does.step (h' := State.train_does ..)
    | with_reducible apply Does.ite
    | intro _
    | extract_lets
    | fail_if_no_progress beta_reduce

theorem State.hellos_does (s : State) : Does [.fab, .out] s (State.hellos s) := by
  unfold State.hellos
  repeat' first
    | exact rfl
    | with_reducible exact Does.refl _ _
    | with_reducible apply Does.step (h' := State.sendSeq_does ..)
    | with_reducible apply Does.ite
    | with_reducible apply Does.fold
    | intro _
    | extract_lets
    | fail_if_no_progress beta_reduce

theorem State.rxAll_does (s : State) (k : Nat) (type : Nat) (flooded : Bool) (k4 : List Flit) : Does [.log, .od, .store, .link, .fab, .side, .out, .free] s (State.rxAll s k type flooded k4).1 := by
  induction k4 generalizing s k type flooded with
  | nil =>
    unfold State.rxAll
    repeat' first
      | exact rfl
      | with_reducible exact Does.refl _ _
      | with_reducible apply Does.step (h' := ih ..)
      | with_reducible refine Does.step ?_ (Does.fst (by assumption) (ih ..)) ?_
      | with_reducible apply Does.step (h' := State.rx_does (l := [.log, .od, .store, .link, .fab, .side, .out, .free]) (hl := rfl) (hf0 := fun t => ?_) ..)
      | with_reducible refine Does.step ?_ (Does.fst (by assumption) (State.rx_does (l := [.log, .od, .store, .link, .fab, .side, .out, .free]) (hl := rfl) (hf0 := fun t => ?_) ..)) ?_
      | with_reducible apply Does.step (h' := State.forward_does ..)
      | split
      | split
      | intro _
      | extract_lets
      | fail_if_no_progress beta_reduce
      | exact Does.refl _ _
  | cons x k ih =>
    unfold State.rxAll
    repeat' first
      | exact rfl
      | with_reducible exact Does.refl _ _
      | with_reducible apply Does.step (h' := ih ..)
      | with_reducible refine Does.step ?_ (Does.fst (by assumption) (ih ..)) ?_
      | with_reducible apply Does.step (h' := State.rx_does (l := [.log, .od, .store, .link, .fab, .side, .out, .free]) (hl := rfl) (hf0 := fun t => ?_) ..)
      | with_reducible refine Does.step ?_ (Does.fst (by assumption) (State.rx_does (l := [.log, .od, .store, .link, .fab, .side, .out, .free]) (hl := rfl) (hf0 := fun t => ?_) ..)) ?_
      | with_reducible apply Does.step (h' := State.forward_does ..)
      | split
      | split
      | intro _
      | extract_lets
      | fail_if_no_progress beta_reduce
      | exact Does.refl _ _

theorem State.runaway_does (s : State) (k : Nat) : Does [.log, .od, .store, .link, .fab, .side, .out, .free] s (State.runaway s k) := by
  unfold State.runaway
  repeat' first
    | exact rfl
    | with_reducible exact Does.refl _ _
    | with_reducible apply Does.step (h' := State.countViolation_does ..)
    | with_reducible apply Does.step (h' := State.fabNak_does ..)
    | with_reducible apply Does.step (h' := State.train_does ..)
    | with_reducible apply Does.ite
    | intro _
    | extract_lets
    | fail_if_no_progress beta_reduce

theorem State.resend_does (s : State) (k : Nat) (from_ : Nat) : Does [.log, .od, .store, .link, .fab, .side, .out, .free] s (State.resend s k from_) := by
  unfold State.resend
  repeat' first
    | exact rfl
    | with_reducible exact Does.refl _ _
    | with_reducible apply Does.step (h' := State.runaway_does ..)
    | with_reducible apply Does.step (h' := State.emitFlit_does ..)
    | with_reducible apply Does.step (h' := State.bump_does ..)
    | with_reducible apply Does.step (h' := State.setFport_does ..)
    | with_reducible apply Does.ite
    | with_reducible apply Does.fold
    | intro _
    | extract_lets
    | fail_if_no_progress beta_reduce

theorem State.retry_does (s : State) (k : Nat) : Does [.log, .od, .store, .link, .fab, .side, .out, .free] s (State.retry s k) := by
  unfold State.retry
  repeat' first
    | exact rfl
    | with_reducible exact Does.refl _ _
    | with_reducible apply Does.step (h' := State.resend_does ..)
    | with_reducible apply Does.step (h' := State.fabNak_does ..)
    | with_reducible apply Does.ite
    | split
    | intro _
    | extract_lets
    | fail_if_no_progress beta_reduce

theorem State.fabHelloIn_does (s : State) (k : Nat) (f : Flit) : Does [.log, .od, .store, .link, .fab, .side, .out, .free] s (State.fabHelloIn s k f) := by
  unfold State.fabHelloIn
  repeat' first
    | exact rfl
    | with_reducible exact Does.refl _ _
    | with_reducible apply Does.step (h' := State.linkChange_does ..)
    | with_reducible apply Does.step (h' := State.logE_does ..)
    | with_reducible apply Does.step (h' := State.setFport_does ..)
    | with_reducible apply Does.step (h' := State.train_does ..)
    | with_reducible apply Does.ite
    | intro _
    | extract_lets
    | fail_if_no_progress beta_reduce

theorem execHelloFlitReceived_does {k : Fin 8} {flit : Flit} {s : State} {t : State} (h : execHelloFlitReceived k flit s = .next t) : Does [.log, .od, .store, .link, .fab, .side, .out, .free] s t := by
  unfold execHelloFlitReceived at h
  cases h
  repeat' first
    | exact rfl
    | with_reducible exact Does.refl _ _
    | with_reducible apply Does.step (h' := State.rx_does (l := [.log, .od, .store, .link, .fab, .side, .out, .free]) (hl := rfl) (hf0 := fun t => ?_) ..)
    | with_reducible refine Does.step ?_ (Does.fst (by assumption) (State.rx_does (l := [.log, .od, .store, .link, .fab, .side, .out, .free]) (hl := rfl) (hf0 := fun t => ?_) ..)) ?_
    | with_reducible apply Does.step (h' := State.fabHelloIn_does ..)
    | extract_lets
    | fail_if_no_progress beta_reduce
    | exact Does.refl _ _

theorem State.setFabSt_does (s : State) (v : Fin 4) : Does [.fab] s (State.setFabSt s v) := by
  unfold State.setFabSt
  repeat' first
    | exact rfl
    | with_reducible exact Does.refl _ _
    | with_reducible apply Does.ite
    | intro _
    | extract_lets
    | fail_if_no_progress beta_reduce
    | with_reducible apply Does.step (h' := Does.set_fab ..)

theorem State.applyFabric_does (s : State) : Does [.log, .od, .store, .link, .fab, .side, .out, .free] s (State.applyFabric s) := by
  unfold State.applyFabric
  repeat' first
    | exact rfl
    | with_reducible exact Does.refl _ _
    | with_reducible apply Does.step (h' := State.setFport_does ..)
    | with_reducible apply Does.step (h' := State.logE_does ..)
    | with_reducible apply Does.step (h' := State.setFabSt_does ..)
    | with_reducible apply Does.step (h' := State.linkChange_does ..)
    | with_reducible apply Does.ite
    | with_reducible apply Does.fold
    | split
    | intro _
    | extract_lets
    | fail_if_no_progress beta_reduce
    | with_reducible apply Does.step (h' := Does.set_fab ..)

theorem State.fabNakIn_does (s : State) (k : Nat) (f : Flit) : Does [.log, .od, .store, .link, .fab, .side, .out, .free] s (State.fabNakIn s k f) := by
  unfold State.fabNakIn
  repeat' first
    | exact rfl
    | with_reducible exact Does.refl _ _
    | with_reducible apply Does.step (h' := State.resend_does ..)
    | with_reducible apply Does.step (h' := State.logCount_does ..)
    | with_reducible apply Does.ite
    | intro _
    | extract_lets
    | fail_if_no_progress beta_reduce

theorem State.rxMessage_does (s : State) (k : Nat) (type : Nat) (flooded : Bool) (fs : List Flit) (act : State → State) {l : List Part} (hl : ([.log, .od, .store, .link, .fab, .side, .out, .free].all fun p => l.contains p) = true) (hf0 : ∀ t, Does l t (act t)) : Does l s (State.rxMessage s k type flooded fs act) := by
  unfold State.rxMessage
  repeat' first
    | exact rfl
    | with_reducible exact Does.refl _ _
    | exact Part.all_trans rfl hl
    | exact Part.all_self _
    | with_reducible apply Does.step (h' := hf0 ..)
    | with_reducible apply Does.step (h' := State.rxAll_does ..)
    | with_reducible refine Does.step ?_ (Does.fst (by assumption) (State.rxAll_does ..)) ?_
    | with_reducible apply Does.step (h' := State.violate_does ..)
    | with_reducible apply Does.ite
    | split
    | intro _
    | extract_lets
    | fail_if_no_progress beta_reduce

theorem execNakFlitReceived_does {k : Fin 8} {flit : Flit} {s : State} {t : State} (h : execNakFlitReceived k flit s = .next t) : Does [.log, .od, .store, .link, .fab, .side, .out, .free] s t := by
  unfold execNakFlitReceived at h
  cases h
  repeat' first
    | exact rfl
    | with_reducible exact Does.refl _ _
    | with_reducible apply Does.step (h' := State.rx_does (l := [.log, .od, .store, .link, .fab, .side, .out, .free]) (hl := rfl) (hf0 := fun t => ?_) ..)
    | with_reducible refine Does.step ?_ (Does.fst (by assumption) (State.rx_does (l := [.log, .od, .store, .link, .fab, .side, .out, .free]) (hl := rfl) (hf0 := fun t => ?_) ..)) ?_
    | with_reducible apply Does.step (h' := State.fabNakIn_does ..)
    | extract_lets
    | fail_if_no_progress beta_reduce
    | exact Does.refl _ _

theorem execLaneLockLoss_does {k : Fin 8} {both : Bool} {s : State} {t : State} (h : execLaneLockLoss k both s = .next t) : Does [.log, .od, .store, .link, .fab, .side, .out, .free] s t := by
  unfold execLaneLockLoss at h
  cases h
  repeat' first
    | exact rfl
    | with_reducible exact Does.refl _ _
    | with_reducible apply Does.step (h' := State.linkLost_does ..)
    | with_reducible apply Does.step (h' := State.train_does ..)
    | with_reducible apply Does.ite
    | intro _
    | extract_lets
    | fail_if_no_progress beta_reduce

theorem execQuarantineExpiry_does {k : Fin 8} {s : State} {t : State} (h : execQuarantineExpiry k s = .next t) : Does [.log, .od, .store, .link, .fab, .side, .out, .free] s t := by
  unfold execQuarantineExpiry at h
  cases h
  repeat' first
    | exact rfl
    | with_reducible exact Does.refl _ _
    | with_reducible apply Does.step (h' := State.train_does ..)
    | with_reducible apply Does.ite
    | intro _
    | extract_lets
    | fail_if_no_progress beta_reduce

theorem execRetryTimeout_does {k : Fin 8} {s : State} {t : State} (h : execRetryTimeout k s = .next t) : Does [.log, .od, .store, .link, .fab, .side, .out, .free] s t := by
  unfold execRetryTimeout at h
  cases h
  repeat' first
    | exact rfl
    | with_reducible exact Does.refl _ _
    | with_reducible apply Does.step (h' := State.retry_does ..)
    | extract_lets
    | fail_if_no_progress beta_reduce

theorem execSignalDetect_does {k : Fin 8} {s : State} {t : State} (h : execSignalDetect k s = .next t) : Does [.log, .od, .store, .link, .fab, .side, .out, .free] s t := by
  unfold execSignalDetect at h
  cases h
  repeat' first
    | exact rfl
    | with_reducible exact Does.refl _ _
    | with_reducible apply Does.step (h' := State.train_does ..)
    | with_reducible apply Does.ite
    | intro _
    | extract_lets
    | fail_if_no_progress beta_reduce

theorem execFabricHelloTimer_does {s : State} {t : State} (h : execFabricHelloTimer s = .next t) : Does [.fab, .out] s t := by
  unfold execFabricHelloTimer at h
  cases h
  repeat' first
    | exact rfl
    | with_reducible exact Does.refl _ _
    | with_reducible apply Does.step (h' := State.hellos_does ..)
    | with_reducible apply Does.ite
    | intro _
    | extract_lets
    | fail_if_no_progress beta_reduce

theorem execTrainingTimeout_does {k : Fin 8} {s : State} {t : State} (h : execTrainingTimeout k s = .next t) : Does [.log, .od, .store, .link, .fab, .side, .out, .free] s t := by
  unfold execTrainingTimeout at h
  cases h
  repeat' first
    | exact rfl
    | with_reducible exact Does.refl _ _
    | with_reducible apply Does.step (h' := State.train_does ..)
    | with_reducible apply Does.ite
    | intro _
    | extract_lets
    | fail_if_no_progress beta_reduce

theorem execFlitSilenceTimeout_does {k : Fin 8} {s : State} {t : State} (h : execFlitSilenceTimeout k s = .next t) : Does [.log, .od, .store, .link, .fab, .side, .out, .free] s t := by
  unfold execFlitSilenceTimeout at h
  cases h
  repeat' first
    | exact rfl
    | with_reducible exact Does.refl _ _
    | with_reducible apply Does.step (h' := State.linkLost_does ..)
    | with_reducible apply Does.ite
    | intro _
    | extract_lets
    | fail_if_no_progress beta_reduce

end Sys2Proof.Machine
end

