-- ==== Sys2Proof/Laws/DoesFabRoutes.lean ====
section
/-! SUPPORT. What each operation of Machine/FabRoutes.lean can do: the parts of the state it can touch, and what it keeps. -/

namespace Sys2Proof.Machine

theorem State.importRecord_does (s : State) (fs : List Flit) : Does [.od, .cls, .pods, .side] s (State.importRecord s fs) := by
  unfold State.importRecord
  repeat' first
    | exact rfl
    | with_reducible exact Does.refl _ _
    | with_reducible apply Does.step (h' := State.deliver_does ..)
    | extract_lets
    | fail_if_no_progress beta_reduce

theorem State.fabDataIn_does (s : State) (k : Nat) (f : Flit) : Does [.log, .od, .cls, .store, .link, .fab, .pods, .side, .out, .free] s (State.fabDataIn s k f) := by
  unfold State.fabDataIn
  repeat' first
    | exact rfl
    | with_reducible exact Does.refl _ _
    | with_reducible apply Does.step (h' := State.violate_does ..)
    | with_reducible apply Does.step (h' := State.bump_does ..)
    | with_reducible apply Does.step (h' := State.importRecord_does ..)
    | with_reducible apply Does.ite
    | intro _
    | extract_lets
    | fail_if_no_progress beta_reduce
    | with_reducible apply Does.step (h' := Does.set_fab ..)

theorem State.masterMap_does (s : State) (x : TaiMap) : Does [.tb, .log, .od, .store, .link, .side, .free] s (State.masterMap s x) := by
  unfold State.masterMap
  repeat' first
    | exact rfl
    | with_reducible exact Does.refl _ _
    | with_reducible apply Does.step (h' := State.setMap_does ..)
    | with_reducible apply Does.step (h' := State.put_does ..)
    | with_reducible apply Does.ite
    | intro _
    | extract_lets
    | fail_if_no_progress beta_reduce

theorem State.takeOut_does {s : State} {node tag : Byte} {r : MgmtOut × State} (h : State.takeOut s node tag = some r) : Does [.fab] s r.2 := by
  simp only [State.takeOut, Option.map_eq_some_iff] at h
  obtain ⟨o, -, rfl⟩ := h
  exact Does.set_fab ..

theorem State.takeOut_does' {s t : State} {node tag : Byte} {o : MgmtOut} (h : State.takeOut s node tag = some (o, t)) : Does [.fab] s t :=
  State.takeOut_does h

theorem execMgmtRequestTimeout_does {node : Byte} {tag : Byte} {s : State} {t : State} (h : execMgmtRequestTimeout node tag s = .next t) : Does [.log, .od, .acc, .store, .rep, .link, .fab, .side, .out, .free] s t := by
  unfold execMgmtRequestTimeout at h
  cases h
  repeat' first
    | exact rfl
    | with_reducible exact Does.refl _ _
    | with_reducible refine Does.step ?_ (State.takeOut_does (by assumption)) ?_
    | with_reducible refine Does.step ?_ (State.takeOut_does' (by assumption)) ?_
    | with_reducible apply Does.step (h' := State.refuse_does ..)
    | with_reducible apply Does.step (h' := State.bump_does ..)
    | with_reducible apply Does.ite
    | split
    | intro _
    | extract_lets
    | fail_if_no_progress beta_reduce

theorem execMasterDisplacement_does {s : State} {t : State} (h : execMasterDisplacement s = .next t) : Does [.fab] s t := by
  unfold execMasterDisplacement at h
  cases h
  repeat' first
    | exact rfl
    | with_reducible exact Does.refl _ _
    | with_reducible apply Does.step (h' := State.setMaster_does ..)
    | with_reducible apply Does.ite
    | intro _
    | extract_lets
    | fail_if_no_progress beta_reduce
    | with_reducible apply Does.step (h' := Does.set_fab ..)

theorem State.mgmtAnswered_does (s : State) (node : Byte) (b : List Byte) : Does [.log, .od, .acc, .store, .rep, .link, .fab, .side, .out, .free] s (State.mgmtAnswered s node b) := by
  unfold State.mgmtAnswered
  repeat' first
    | exact rfl
    | with_reducible exact Does.refl _ _
    | with_reducible refine Does.step ?_ (State.takeOut_does (by assumption)) ?_
    | with_reducible refine Does.step ?_ (State.takeOut_does' (by assumption)) ?_
    | with_reducible apply Does.step (h' := State.refuse_does ..)
    | with_reducible apply Does.step (h' := State.answer_does ..)
    | with_reducible apply Does.step (h' := State.mgmtSend_does ..)
    | with_reducible apply Does.ite
    | split
    | intro _
    | extract_lets
    | fail_if_no_progress beta_reduce

theorem execMgmtAnswerReceived_does {k : Fin 8} {flits : List Flit} {s : State} {t : State} (h : execMgmtAnswerReceived k flits s = .next t) : Does [.log, .od, .acc, .store, .rep, .link, .fab, .side, .out, .free] s t := by
  unfold execMgmtAnswerReceived at h
  cases h
  repeat' first
    | exact rfl
    | with_reducible exact Does.refl _ _
    | with_reducible apply Does.step (h' := State.rxMessage_does (l := [.log, .od, .acc, .store, .rep, .link, .fab, .side, .out, .free]) (hl := rfl) (hf0 := fun t => ?_) ..)
    | with_reducible apply Does.step (h' := State.mgmtAnswered_does ..)
    | with_reducible apply Does.ite
    | split
    | intro _
    | extract_lets
    | fail_if_no_progress beta_reduce
    | exact Does.refl _ _

theorem State.fabricTime_does (s : State) (k : Nat) (map : TaiMap) : Does [.tb, .log, .od, .ports, .cls, .store, .link, .fab, .sw, .pods, .mem, .cel, .side, .pst, .pwr, .free] s (State.fabricTime s k map) := by
  unfold State.fabricTime
  repeat' first
    | exact rfl
    | with_reducible exact Does.refl _ _
    | with_reducible apply Does.step (h' := State.masterMap_does ..)
    | with_reducible apply Does.step (h' := State.setSource_does ..)
    | with_reducible apply Does.step (h' := State.joinFabric_does ..)
    | with_reducible apply Does.step (h' := State.noteApart_does ..)
    | with_reducible apply Does.ite
    | intro _
    | extract_lets
    | fail_if_no_progress beta_reduce
    | with_reducible apply Does.step (h' := Does.set_tb ..)

theorem State.timeResp_does (s : State) (k : Nat) (b : List Byte) (e : Stamp) (map : TaiMap) : Does [.tb, .log, .od, .ports, .cls, .store, .link, .fab, .sw, .pods, .mem, .cel, .side, .pst, .pwr, .free] s (State.timeResp s k b e map) := by
  unfold State.timeResp
  repeat' first
    | exact rfl
    | with_reducible exact Does.refl _ _
    | with_reducible apply Does.step (h' := State.setFport_does ..)
    | with_reducible apply Does.step (h' := State.fabricTime_does ..)
    | with_reducible apply Does.step (h' := State.put_does ..)
    | with_reducible apply Does.ite
    | intro _
    | extract_lets
    | fail_if_no_progress beta_reduce

theorem execTimeRespReceived_does {k : Fin 8} {flit : Flit} {time : FabTime} {s : State} {t : State} (h : execTimeRespReceived k flit time s = .next t) : Does [.tb, .log, .od, .ports, .cls, .store, .link, .fab, .sw, .pods, .mem, .cel, .side, .pst, .pwr, .out, .free] s t := by
  unfold execTimeRespReceived at h
  cases h
  repeat' first
    | exact rfl
    | with_reducible exact Does.refl _ _
    | with_reducible apply Does.step (h' := State.rx_does (l := [.tb, .log, .od, .ports, .cls, .store, .link, .fab, .sw, .pods, .mem, .cel, .side, .pst, .pwr, .out, .free]) (hl := rfl) (hf0 := fun t => ?_) ..)
    | with_reducible refine Does.step ?_ (Does.fst (by assumption) (State.rx_does (l := [.tb, .log, .od, .ports, .cls, .store, .link, .fab, .sw, .pods, .mem, .cel, .side, .pst, .pwr, .out, .free]) (hl := rfl) (hf0 := fun t => ?_) ..)) ?_
    | with_reducible apply Does.step (h' := State.reach_does ..)
    | with_reducible apply Does.step (h' := State.timeResp_does ..)
    | with_reducible apply Does.ite
    | intro _
    | extract_lets
    | fail_if_no_progress beta_reduce
    | exact Does.refl _ _

theorem execDataFlitReceived_does {k : Fin 8} {flit : Flit} {s : State} {t : State} (h : execDataFlitReceived k flit s = .next t) : Does [.log, .od, .cls, .store, .link, .fab, .pods, .side, .out, .free] s t := by
  unfold execDataFlitReceived at h
  cases h
  repeat' first
    | exact rfl
    | with_reducible exact Does.refl _ _
    | with_reducible apply Does.step (h' := State.rx_does (l := [.log, .od, .cls, .store, .link, .fab, .pods, .side, .out, .free]) (hl := rfl) (hf0 := fun t => ?_) ..)
    | with_reducible refine Does.step ?_ (Does.fst (by assumption) (State.rx_does (l := [.log, .od, .cls, .store, .link, .fab, .pods, .side, .out, .free]) (hl := rfl) (hf0 := fun t => ?_) ..)) ?_
    | with_reducible apply Does.step (h' := State.fabDataIn_does ..)
    | with_reducible apply Does.step (h' := State.forward_does ..)
    | with_reducible apply Does.ite
    | intro _
    | extract_lets
    | fail_if_no_progress beta_reduce
    | exact Does.refl _ _

theorem execTimeReqReceived_does {k : Fin 8} {flit : Flit} {edge : Stamp} {s : State} {t : State} (h : execTimeReqReceived k flit edge s = .next t) : Does [.tb, .log, .od, .store, .link, .fab, .side, .out, .free] s t := by
  unfold execTimeReqReceived at h
  cases h
  repeat' first
    | exact rfl
    | with_reducible exact Does.refl _ _
    | with_reducible apply Does.step (h' := State.rx_does (l := [.tb, .log, .od, .store, .link, .fab, .side, .out, .free]) (hl := rfl) (hf0 := fun t => ?_) ..)
    | with_reducible refine Does.step ?_ (Does.fst (by assumption) (State.rx_does (l := [.tb, .log, .od, .store, .link, .fab, .side, .out, .free]) (hl := rfl) (hf0 := fun t => ?_) ..)) ?_
    | with_reducible apply Does.step (h' := State.reach_does ..)
    | with_reducible apply Does.step (h' := State.sendPlain_does ..)
    | with_reducible apply Does.ite
    | intro _
    | extract_lets
    | fail_if_no_progress beta_reduce
    | exact Does.refl _ _

theorem State.setNode_does (s : State) (n : Option Byte) : Does [.log, .od, .store, .link, .fab, .side, .free] s (State.setNode s n) := by
  unfold State.setNode
  repeat' first
    | exact rfl
    | with_reducible exact Does.refl _ _
    | with_reducible apply Does.step (h' := State.setFabSt_does ..)
    | with_reducible apply Does.step (h' := State.logE_does ..)
    | with_reducible apply Does.ite
    | split
    | intro _
    | extract_lets
    | fail_if_no_progress beta_reduce
    | with_reducible apply Does.step (h' := Does.set_fab ..)

theorem State.advertIn_does (s : State) (k : Nat) (fs : List Flit) : Does [.log, .od, .store, .link, .fab, .side, .out, .free] s (State.advertIn s k fs) := by
  unfold State.advertIn
  repeat' first
    | exact rfl
    | with_reducible exact Does.refl _ _
    | with_reducible apply Does.step (h' := State.advertise_does ..)
    | with_reducible apply Does.step (h' := State.floodOn_does ..)
    | with_reducible apply Does.step (h' := State.keepAdvert_does ..)
    | with_reducible apply Does.step (h' := State.setFabSt_does ..)
    | with_reducible apply Does.step (h' := State.elect_does ..)
    | with_reducible apply Does.step (h' := State.setNode_does ..)
    | with_reducible apply Does.ite
    | split
    | intro _
    | extract_lets
    | fail_if_no_progress beta_reduce
    | with_reducible apply Does.step (h' := Does.set_fab ..)

theorem execRouteAdvertReceived_does {k : Fin 8} {flits : List Flit} {s : State} {t : State} (h : execRouteAdvertReceived k flits s = .next t) : Does [.log, .od, .store, .link, .fab, .side, .out, .free] s t := by
  unfold execRouteAdvertReceived at h
  cases h
  repeat' first
    | exact rfl
    | with_reducible exact Does.refl _ _
    | with_reducible apply Does.step (h' := State.rxMessage_does (l := [.log, .od, .store, .link, .fab, .side, .out, .free]) (hl := rfl) (hf0 := fun t => ?_) ..)
    | with_reducible apply Does.step (h' := State.advertIn_does ..)
    | extract_lets
    | fail_if_no_progress beta_reduce
    | exact Does.refl _ _

theorem State.recompute_does (s : State) : Does [.od, .fab, .out] s (State.recompute s) := by
  unfold State.recompute
  repeat' first
    | exact rfl
    | with_reducible exact Does.refl _ _
    | with_reducible apply Does.step (h' := State.elect_does ..)
    | with_reducible apply Does.step (h' := State.bump_does ..)
    | with_reducible apply Does.step (h' := State.drainExports_does ..)
    | with_reducible apply Does.step (h' := State.setFabSt_does ..)
    | with_reducible apply Does.fold
    | intro _
    | extract_lets
    | fail_if_no_progress beta_reduce
    | with_reducible apply Does.step (h' := Does.set_fab ..)

theorem State.timeReqs_does (s : State) : Does [.fab, .out] s (State.timeReqs s) := by
  unfold State.timeReqs
  repeat' first
    | exact rfl
    | with_reducible exact Does.refl _ _
    | with_reducible apply Does.step (h' := State.sendPlain_does ..)
    | with_reducible apply Does.step (h' := State.setFport_does ..)
    | with_reducible apply Does.fold
    | intro _
    | extract_lets
    | fail_if_no_progress beta_reduce

theorem execNodeIdTimer_does {s : State} {t : State} (h : execNodeIdTimer s = .next t) : Does [.log, .od, .store, .link, .fab, .side, .free] s t := by
  unfold execNodeIdTimer at h
  cases h
  repeat' first
    | exact rfl
    | with_reducible exact Does.refl _ _
    | with_reducible apply Does.step (h' := State.setNode_does ..)
    | with_reducible apply Does.ite
    | intro _
    | extract_lets
    | fail_if_no_progress beta_reduce

theorem execRouteAdvertTimer_does {s : State} {t : State} (h : execRouteAdvertTimer s = .next t) : Does [.fab, .out] s t := by
  unfold execRouteAdvertTimer at h
  cases h
  repeat' first
    | exact rfl
    | with_reducible exact Does.refl _ _
    | with_reducible apply Does.step (h' := State.advertise_does ..)
    | with_reducible apply Does.ite
    | intro _
    | extract_lets
    | fail_if_no_progress beta_reduce

theorem execAdvertAgeExpiry_does {uid : BitVec 64} {s : State} {t : State} (h : execAdvertAgeExpiry uid s = .next t) : Does [.tb, .fab] s t := by
  unfold execAdvertAgeExpiry at h
  cases h
  repeat' first
    | exact rfl
    | with_reducible exact Does.refl _ _
    | with_reducible apply Does.step (h' := State.reach_does ..)
    | with_reducible apply Does.step (h' := State.setFabSt_does ..)
    | with_reducible apply Does.step (h' := State.elect_does ..)
    | with_reducible apply Does.ite
    | split
    | intro _
    | extract_lets
    | fail_if_no_progress beta_reduce
    | with_reducible apply Does.step (h' := Does.set_fab ..)

theorem execTimeReqTimer_does {s : State} {t : State} (h : execTimeReqTimer s = .next t) : Does [.fab, .out] s t := by
  unfold execTimeReqTimer at h
  cases h
  repeat' first
    | exact rfl
    | with_reducible exact Does.refl _ _
    | with_reducible apply Does.step (h' := State.timeReqs_does ..)
    | with_reducible apply Does.ite
    | intro _
    | extract_lets
    | fail_if_no_progress beta_reduce

theorem execRouteRecompute_does {s : State} {t : State} (h : execRouteRecompute s = .next t) : Does [.od, .fab, .out] s t := by
  unfold execRouteRecompute at h
  cases h
  repeat' first
    | exact rfl
    | with_reducible exact Does.refl _ _
    | with_reducible apply Does.step (h' := State.recompute_does ..)
    | with_reducible apply Does.ite
    | intro _
    | extract_lets
    | fail_if_no_progress beta_reduce

end Sys2Proof.Machine
end

