-- ==== Sys2Proof/Laws/DoesProfiles.lean ====
section
/-! SUPPORT. What each operation of Machine/Profiles.lean can do: the parts of the state it can touch, and what it keeps. -/

namespace Sys2Proof.Machine

theorem State.prepare_does (s : State) (w : PendingSwitch) : Does [.sw] s (State.prepare s w) := by
  unfold State.prepare
  repeat' first
    | exact rfl
    | with_reducible exact Does.refl _ _
    | extract_lets
    | fail_if_no_progress beta_reduce
    | with_reducible apply Does.step (h' := Does.set_sw ..)

theorem State.cSwitch_does (s : State) (p : Path) (v : Nat) : Does [.log, .sess, .od, .acc, .store, .rep, .link, .fab, .sw, .side, .out, .free] s (State.cSwitch s p v) := by
  unfold State.cSwitch
  repeat' first
    | exact rfl
    | with_reducible exact Does.refl _ _
    | with_reducible apply Does.step (h' := State.refuseCmd_does ..)
    | with_reducible apply Does.step (h' := State.prepare_does ..)
    | with_reducible apply Does.step (h' := State.floodOwn_does ..)
    | with_reducible apply Does.step (h' := State.answer_does ..)
    | with_reducible apply Does.ite
    | intro _
    | extract_lets
    | fail_if_no_progress beta_reduce

theorem State.commitLogged_does (s : State) (w : PendingSwitch) : Does [.log, .od, .store, .link, .sw, .side, .free] s (State.commitLogged s w) := by
  unfold State.commitLogged
  repeat' first
    | exact rfl
    | with_reducible exact Does.refl _ _
    | with_reducible apply Does.step (h' := State.logHealth_does ..)
    | extract_lets
    | fail_if_no_progress beta_reduce
    | with_reducible apply Does.step (h' := Does.set_sw ..)

theorem State.splitWritten_does (s : State) (w : PendingSwitch) : Does [.log, .od, .store, .link, .sw, .side, .free] s (State.splitWritten s w) := by
  unfold State.splitWritten
  repeat' first
    | exact rfl
    | with_reducible exact Does.refl _ _
    | with_reducible apply Does.step (h' := State.ctlPut_does ..)
    | with_reducible apply Does.step (h' := State.logE_does ..)
    | extract_lets
    | fail_if_no_progress beta_reduce
    | with_reducible apply Does.step (h' := Does.set_sw ..)

theorem State.settleSwitch_does (s : State) (w : PendingSwitch) (nodes : List Nat) : Does [.log, .od, .store, .link, .sw, .side, .free] s (State.settleSwitch s w nodes) := by
  unfold State.settleSwitch
  repeat' first
    | exact rfl
    | with_reducible exact Does.refl _ _
    | with_reducible apply Does.step (h' := State.commitLogged_does ..)
    | with_reducible apply Does.step (h' := State.splitWritten_does ..)
    | with_reducible apply Does.ite
    | intro _
    | extract_lets
    | fail_if_no_progress beta_reduce

theorem State.onReady_does (s : State) (f : Flit) : Does [.sw] s (State.onReady s f) := by
  unfold State.onReady
  repeat' first
    | exact rfl
    | with_reducible exact Does.refl _ _
    | with_reducible apply Does.ite
    | split
    | intro _
    | extract_lets
    | fail_if_no_progress beta_reduce
    | with_reducible apply Does.step (h' := Does.set_sw ..)

theorem State.tellCoord_does (s : State) (w : PendingSwitch) (kind : Nat) (reason : Nat) : Does [.fab, .out] s (State.tellCoord s w kind reason) := by
  unfold State.tellCoord
  repeat' first
    | exact rfl
    | with_reducible exact Does.refl _ _
    | with_reducible apply Does.step (h' := State.sendTo_does ..)
    | with_reducible refine Does.step ?_ (Does.fst (by assumption) (State.sendTo_does ..)) ?_
    | split
    | extract_lets
    | fail_if_no_progress beta_reduce

theorem State.noteUnit_does (s : State) (w : PendingSwitch) (u : Nat) (ok : Bool) : Does [.fab, .sw, .out] s (State.noteUnit s w u ok) := by
  unfold State.noteUnit
  repeat' first
    | exact rfl
    | with_reducible exact Does.refl _ _
    | with_reducible apply Does.step (h' := State.tellCoord_does ..)
    | with_reducible apply Does.ite
    | intro _
    | extract_lets
    | fail_if_no_progress beta_reduce
    | with_reducible apply Does.step (h' := Does.set_sw ..)

theorem State.podPrepares_does (s : State) (w : PendingSwitch) (x : Profile) (p : Nat) : Does [.log, .od, .store, .link, .fab, .sw, .side, .out, .free] s (State.podPrepares s w x p) := by
  unfold State.podPrepares
  repeat' first
    | exact rfl
    | with_reducible exact Does.refl _ _
    | with_reducible apply Does.step (h' := State.noteUnit_does ..)
    | with_reducible apply Does.step (h' := State.loadFailed_does ..)
    | with_reducible apply Does.ite
    | split
    | intro _
    | extract_lets
    | fail_if_no_progress beta_reduce

theorem State.joinSwitch_does (s : State) (w : PendingSwitch) : Does [.fab, .sw, .out] s (State.joinSwitch s w) := by
  unfold State.joinSwitch
  repeat' first
    | exact rfl
    | with_reducible exact Does.refl _ _
    | with_reducible apply Does.step (h' := State.prepare_does ..)
    | with_reducible apply Does.step (h' := State.tellCoord_does ..)
    | split
    | extract_lets
    | fail_if_no_progress beta_reduce

theorem State.refusePrepare_does (s : State) (w : PendingSwitch) : Does [.od, .fab, .out] s (State.refusePrepare s w) := by
  unfold State.refusePrepare
  repeat' first
    | exact rfl
    | with_reducible exact Does.refl _ _
    | with_reducible apply Does.step (h' := State.bump_does ..)
    | with_reducible apply Does.step (h' := State.tellCoord_does ..)
    | extract_lets
    | fail_if_no_progress beta_reduce

theorem State.prepareIn_does (s : State) (w : PendingSwitch) : Does [.od, .fab, .sw, .out] s (State.prepareIn s w) := by
  unfold State.prepareIn
  repeat' first
    | exact rfl
    | with_reducible exact Does.refl _ _
    | with_reducible apply Does.step (h' := State.joinSwitch_does ..)
    | with_reducible apply Does.step (h' := State.refusePrepare_does ..)
    | with_reducible apply Does.ite
    | split
    | intro _
    | extract_lets
    | fail_if_no_progress beta_reduce

theorem State.onPrepare_does (s : State) (k : Nat) (f : Flit) : Does [.od, .fab, .sw, .out] s (State.onPrepare s k f) := by
  unfold State.onPrepare
  repeat' first
    | exact rfl
    | with_reducible exact Does.refl _ _
    | with_reducible apply Does.step (h' := State.floodOn_does ..)
    | with_reducible apply Does.step (h' := State.prepareIn_does ..)
    | with_reducible apply Does.ite
    | intro _
    | extract_lets
    | fail_if_no_progress beta_reduce
    | with_reducible apply Does.step (h' := Does.set_sw ..)

theorem execSwitchProfile_does {path : Path} {p : W24} {s : State} {t : State} (h : execSwitchProfile path p s = .next t) : Does [.log, .sess, .od, .acc, .store, .rep, .link, .fab, .sw, .side, .out, .free] s t := by
  unfold execSwitchProfile at h
  cases h
  repeat' first
    | exact rfl
    | with_reducible exact Does.refl _ _
    | with_reducible apply Does.step (h' := State.requestWrite_does (l := [.log, .sess, .od, .acc, .store, .rep, .link, .fab, .sw, .side, .out, .free]) (hl := rfl) (hf0 := fun t => ?_) ..)
    | with_reducible apply Does.step (h' := State.cSwitch_does ..)
    | extract_lets
    | fail_if_no_progress beta_reduce
    | exact Does.refl _ _

theorem State.wSave_does (s : State) (p : Path) (v : Nat) : Does Part.chip s (State.wSave s p v) := by
  unfold State.wSave
  repeat' first
    | exact rfl
    | with_reducible exact Does.refl _ _
    | with_reducible apply Does.step (h' := State.refuse_does ..)
    | with_reducible apply Does.step (h' := State.refuseLog_does ..)
    | with_reducible apply Does.step (h' := State.readSides_does ..)
    | with_reducible apply Does.step (h' := State.sideFailed_does ..)
    | with_reducible apply Does.step (h' := State.owe_does ..)
    | with_reducible apply Does.ite
    | split
    | intro _
    | extract_lets
    | fail_if_no_progress beta_reduce
    | with_reducible apply Does.step (h' := Does.set_sw ..)

theorem State.takeCanPath_does (s : State) : Does [.acc] s (State.takeCanPath s) := by
  unfold State.takeCanPath
  repeat' first
    | exact rfl
    | with_reducible exact Does.refl _ _
    | with_reducible apply Does.ite
    | intro _
    | extract_lets
    | fail_if_no_progress beta_reduce
    | with_reducible apply Does.step (h' := Does.set_acc ..)

theorem execReadyReceived_does {k : Fin 8} {flit : Flit} {s : State} {t : State} (h : execReadyReceived k flit s = .next t) : Does [.log, .od, .store, .link, .fab, .sw, .side, .out, .free] s t := by
  unfold execReadyReceived at h
  cases h
  repeat' first
    | exact rfl
    | with_reducible exact Does.refl _ _
    | with_reducible apply Does.step (h' := State.rx_does (l := [.log, .od, .store, .link, .fab, .sw, .side, .out, .free]) (hl := rfl) (hf0 := fun t => ?_) ..)
    | with_reducible refine Does.step ?_ (Does.fst (by assumption) (State.rx_does (l := [.log, .od, .store, .link, .fab, .sw, .side, .out, .free]) (hl := rfl) (hf0 := fun t => ?_) ..)) ?_
    | with_reducible apply Does.step (h' := State.onReady_does ..)
    | with_reducible apply Does.step (h' := State.forward_does ..)
    | with_reducible apply Does.ite
    | intro _
    | extract_lets
    | fail_if_no_progress beta_reduce
    | exact Does.refl _ _

theorem execProfileSave_does {path : Path} {v : Byte} {s : State} {t : State} (h : execProfileSave path v s = .next t) : Does Part.chip s t := by
  unfold execProfileSave at h
  cases h
  repeat' first
    | exact rfl
    | with_reducible exact Does.refl _ _
    | with_reducible apply Does.step (h' := State.requestWrite_does (l := Part.chip) (hl := rfl) (hf0 := fun t => ?_) ..)
    | with_reducible apply Does.step (h' := State.wSave_does ..)
    | extract_lets
    | fail_if_no_progress beta_reduce
    | exact Does.refl _ _

theorem State.takeImage_does (s : State) (old : Profile) (images : Tab (List Byte)) (p : Nat) : Does [.log, .od, .store, .link, .eng, .pods, .xbar, .mem, .cel, .side, .free] s (State.takeImage s old images p) := by
  unfold State.takeImage
  repeat' first
    | exact rfl
    | with_reducible exact Does.refl _ _
    | with_reducible apply Does.step (h' := State.freeCause_does ..)
    | with_reducible refine Does.step ?_ (Does.snd (by assumption) (State.freeCause_does ..)) ?_
    | with_reducible apply Does.step (h' := State.setPod_does ..)
    | with_reducible apply Does.step (h' := State.podReset_does ..)
    | with_reducible apply Does.ite
    | intro _
    | extract_lets
    | fail_if_no_progress beta_reduce

theorem State.noOutcome_does (s : State) : Does [.tb, .log, .od, .store, .link, .sw, .side, .free] s (State.noOutcome s) := by
  unfold State.noOutcome
  repeat' first
    | exact rfl
    | with_reducible exact Does.refl _ _
    | with_reducible apply Does.step (h' := State.settleSwitch_does ..)
    | with_reducible apply Does.step (h' := State.reach_does ..)
    | with_reducible apply Does.ite
    | split
    | intro _
    | extract_lets
    | fail_if_no_progress beta_reduce

theorem execOutcomeTimeout_does {s : State} {t : State} (h : execOutcomeTimeout s = .next t) : Does [.tb, .log, .od, .store, .link, .sw, .side, .free] s t := by
  unfold execOutcomeTimeout at h
  cases h
  repeat' first
    | exact rfl
    | with_reducible exact Does.refl _ _
    | with_reducible apply Does.step (h' := State.noOutcome_does ..)
    | with_reducible apply Does.ite
    | intro _
    | extract_lets
    | fail_if_no_progress beta_reduce

theorem State.swapWith_does (s : State) (units : List Nat) (at_ : Nat) : Does [.cls] s (State.swapWith s units at_) := by
  unfold State.swapWith
  repeat' first
    | exact rfl
    | with_reducible exact Does.refl _ _
    | with_reducible apply Does.ite
    | intro _
    | extract_lets
    | fail_if_no_progress beta_reduce
    | with_reducible apply Does.step (h' := Does.set_cls ..)

theorem State.takeProfile_does (s : State) (x : Profile) (units : List Nat) : Does [.od] s (State.takeProfile s x units) := by
  unfold State.takeProfile
  repeat' first
    | exact rfl
    | with_reducible exact Does.refl _ _
    | with_reducible apply Does.fold
    | intro _
    | extract_lets
    | fail_if_no_progress beta_reduce
    | with_reducible apply Does.step (h' := Does.set_od ..)

theorem State.unitsTake_does (s : State) (units : List Nat) (g : BitVec 4) (at_ : Nat) : Does [.sw] s (State.unitsTake s units g at_) := by
  unfold State.unitsTake
  repeat' first
    | exact rfl
    | with_reducible exact Does.refl _ _
    | with_reducible apply Does.fold
    | intro _
    | extract_lets
    | fail_if_no_progress beta_reduce
    | with_reducible apply Does.step (h' := Does.set_sw ..)

theorem State.takePath_does (s : State) (old : Profile) (k : Nat) : Does [.link] s (State.takePath s old k) := by
  unfold State.takePath
  repeat' first
    | exact rfl
    | with_reducible exact Does.refl _ _
    | with_reducible apply Does.step (h' := State.setLpath_does ..)
    | with_reducible apply Does.ite
    | intro _
    | extract_lets
    | fail_if_no_progress beta_reduce

theorem State.takeLevel_does (s : State) : Does [.link] s (State.takeLevel s) := by
  unfold State.takeLevel
  repeat' first
    | exact rfl
    | with_reducible exact Does.refl _ _
    | with_reducible apply Does.ite
    | intro _
    | extract_lets
    | fail_if_no_progress beta_reduce
    | with_reducible apply Does.step (h' := Does.set_link ..)

theorem State.settingsTaken_does (s : State) (old : Profile) (units : List Nat) (images : Tab (List Byte)) : Does [.log, .od, .acc, .ports, .cls, .store, .rep, .link, .fab, .eng, .pods, .net, .xbar, .mem, .cel, .side, .pwr, .out, .free] s (State.settingsTaken s old units images) := by
  unfold State.settingsTaken
  repeat' first
    | exact rfl
    | with_reducible exact Does.refl _ _
    | with_reducible apply Does.step (h' := State.takePath_does ..)
    | with_reducible apply Does.step (h' := State.takeLevel_does ..)
    | with_reducible apply Does.step (h' := State.takeCanPath_does ..)
    | with_reducible apply Does.step (h' := State.applyEnables_does ..)
    | with_reducible apply Does.step (h' := State.applyFabric_does ..)
    | with_reducible apply Does.step (h' := State.gatePods_does ..)
    | with_reducible apply Does.step (h' := State.takeImage_does ..)
    | with_reducible apply Does.ite
    | with_reducible apply Does.fold
    | intro _
    | extract_lets
    | fail_if_no_progress beta_reduce

theorem State.revertUnits_does (s : State) (w : PendingSwitch) : Does [.log, .od, .acc, .ports, .cls, .store, .rep, .link, .fab, .sw, .eng, .pods, .net, .xbar, .mem, .cel, .side, .pwr, .out, .free] s (State.revertUnits s w) := by
  unfold State.revertUnits
  repeat' first
    | exact rfl
    | with_reducible exact Does.refl _ _
    | with_reducible apply Does.step (h' := State.swapWith_does ..)
    | with_reducible apply Does.step (h' := State.takeProfile_does ..)
    | with_reducible apply Does.step (h' := State.unitsTake_does ..)
    | with_reducible apply Does.step (h' := State.settingsTaken_does ..)
    | split
    | extract_lets
    | fail_if_no_progress beta_reduce
    | with_reducible apply Does.step (h' := Does.set_sw ..)

theorem State.revertTick_does (s : State) : Does [.tb, .log, .od, .acc, .ports, .cls, .store, .rep, .link, .fab, .sw, .eng, .pods, .net, .xbar, .mem, .cel, .side, .pwr, .out, .free] s (State.revertTick s) := by
  unfold State.revertTick
  repeat' first
    | exact rfl
    | with_reducible exact Does.refl _ _
    | with_reducible apply Does.step (h' := State.reachTick_does ..)
    | with_reducible apply Does.step (h' := State.ctlPut_does ..)
    | with_reducible apply Does.step (h' := State.revertUnits_does ..)
    | with_reducible apply Does.step (h' := State.logE_does ..)
    | with_reducible apply Does.ite
    | split
    | intro _
    | extract_lets
    | fail_if_no_progress beta_reduce
    | with_reducible apply Does.step (h' := Does.set_sw ..)

theorem execProfileRevertTick_does {s : State} {t : State} (h : execProfileRevertTick s = .next t) : Does [.tb, .log, .od, .acc, .ports, .cls, .store, .rep, .link, .fab, .sw, .eng, .pods, .net, .xbar, .mem, .cel, .side, .pwr, .out, .free] s t := by
  unfold execProfileRevertTick at h
  cases h
  repeat' first
    | exact rfl
    | with_reducible exact Does.refl _ _
    | with_reducible apply Does.step (h' := State.revertTick_does ..)
    | with_reducible apply Does.ite
    | intro _
    | extract_lets
    | fail_if_no_progress beta_reduce

theorem State.onOutcome_does (s : State) (k : Nat) (f : Flit) : Does [.log, .od, .store, .link, .fab, .sw, .side, .out, .free] s (State.onOutcome s k f) := by
  unfold State.onOutcome
  repeat' first
    | exact rfl
    | with_reducible exact Does.refl _ _
    | with_reducible apply Does.step (h' := State.floodOn_does ..)
    | with_reducible apply Does.step (h' := State.settleSwitch_does ..)
    | with_reducible apply Does.ite
    | split
    | intro _
    | extract_lets
    | fail_if_no_progress beta_reduce
    | with_reducible apply Does.step (h' := Does.set_sw ..)

theorem execOutcomeReceived_does {k : Fin 8} {flit : Flit} {s : State} {t : State} (h : execOutcomeReceived k flit s = .next t) : Does [.log, .od, .store, .link, .fab, .sw, .side, .out, .free] s t := by
  unfold execOutcomeReceived at h
  cases h
  repeat' first
    | exact rfl
    | with_reducible exact Does.refl _ _
    | with_reducible apply Does.step (h' := State.rx_does (l := [.log, .od, .store, .link, .fab, .sw, .side, .out, .free]) (hl := rfl) (hf0 := fun t => ?_) ..)
    | with_reducible refine Does.step ?_ (Does.fst (by assumption) (State.rx_does (l := [.log, .od, .store, .link, .fab, .sw, .side, .out, .free]) (hl := rfl) (hf0 := fun t => ?_) ..)) ?_
    | with_reducible apply Does.step (h' := State.onOutcome_does ..)
    | with_reducible apply Does.ite
    | intro _
    | extract_lets
    | fail_if_no_progress beta_reduce
    | exact Does.refl _ _

theorem State.commitUnits_does (s : State) (w : PendingSwitch) : Does [.log, .od, .acc, .ports, .cls, .store, .rep, .link, .fab, .sw, .eng, .pods, .net, .xbar, .mem, .cel, .side, .pwr, .out, .free] s (State.commitUnits s w) := by
  unfold State.commitUnits
  extract_lets units old s1 x s2
  have h1 : Does [.log, .od, .acc, .ports, .cls, .store, .rep, .link, .fab, .sw, .eng, .pods, .net, .xbar, .mem, .cel, .side, .pwr, .out, .free] s s1 := (((State.unitsTake_does ..).weaken rfl).step (State.takeProfile_does ..) rfl).step (State.swapWith_does ..) rfl
  have h2 : Does [.log, .od, .acc, .ports, .cls, .store, .rep, .link, .fab, .sw, .eng, .pods, .net, .xbar, .mem, .cel, .side, .pwr, .out, .free] s s2 := h1.step (Does.set_sw ..) rfl
  clear_value s2 units
  split
  · exact h2.step (State.settingsTaken_does ..) rfl
  · exact (Does.set_sw ..).weaken rfl

theorem State.commitTick_does (s : State) : Does [.tb, .log, .od, .acc, .ports, .cls, .store, .rep, .link, .fab, .sw, .eng, .pods, .net, .xbar, .mem, .cel, .side, .pwr, .out, .free] s (State.commitTick s) := by
  unfold State.commitTick
  repeat' first
    | exact rfl
    | with_reducible exact Does.refl _ _
    | with_reducible apply Does.step (h' := State.reachTick_does ..)
    | with_reducible apply Does.step (h' := State.commitUnits_does ..)
    | with_reducible apply Does.step (h' := State.settleSwitch_does ..)
    | with_reducible apply Does.step (h' := State.floodOwn_does ..)
    | with_reducible apply Does.ite
    | split
    | intro _
    | extract_lets
    | fail_if_no_progress beta_reduce

theorem execPrepareReceived_does {k : Fin 8} {flit : Flit} {s : State} {t : State} (h : execPrepareReceived k flit s = .next t) : Does [.log, .od, .store, .link, .fab, .sw, .side, .out, .free] s t := by
  unfold execPrepareReceived at h
  cases h
  repeat' first
    | exact rfl
    | with_reducible exact Does.refl _ _
    | with_reducible apply Does.step (h' := State.rx_does (l := [.log, .od, .store, .link, .fab, .sw, .side, .out, .free]) (hl := rfl) (hf0 := fun t => ?_) ..)
    | with_reducible refine Does.step ?_ (Does.fst (by assumption) (State.rx_does (l := [.log, .od, .store, .link, .fab, .sw, .side, .out, .free]) (hl := rfl) (hf0 := fun t => ?_) ..)) ?_
    | with_reducible apply Does.step (h' := State.onPrepare_does ..)
    | with_reducible apply Does.ite
    | intro _
    | extract_lets
    | fail_if_no_progress beta_reduce
    | exact Does.refl _ _

theorem State.classifierPrepares_does (s : State) (w : PendingSwitch) (x : Profile) : Does [.od, .cls, .fab, .sw, .side, .out] s (State.classifierPrepares s w x) := by
  unfold State.classifierPrepares
  repeat' first
    | exact rfl
    | with_reducible exact Does.refl _ _
    | with_reducible apply Does.step (h' := State.putShadow_does ..)
    | with_reducible apply Does.step (h' := State.noteUnit_does ..)
    | with_reducible apply Does.step (h' := State.publishCheck_does ..)
    | with_reducible apply Does.ite
    | intro _
    | extract_lets
    | fail_if_no_progress beta_reduce

theorem State.saveDone_does (s : State) : Does [.acc, .rep, .fab, .sw, .pst, .out, .free] s (State.saveDone s) := by
  unfold State.saveDone
  repeat' first
    | exact rfl
    | with_reducible exact Does.refl _ _
    | with_reducible apply Does.step (h' := State.answer_does ..)
    | with_reducible apply Does.step (h' := State.recallOn_does ..)
    | with_reducible apply Does.step (h' := State.wrote_does ..)
    | split
    | extract_lets
    | fail_if_no_progress beta_reduce
    | with_reducible apply Does.step (h' := Does.set_sw ..)

theorem execFlashWriteComplete_does {s : State} {t : State} (h : execFlashWriteComplete s = .next t) : Does [.acc, .rep, .fab, .sw, .pst, .out, .free] s t := by
  unfold execFlashWriteComplete at h
  cases h
  repeat' first
    | exact rfl
    | with_reducible exact Does.refl _ _
    | with_reducible apply Does.step (h' := State.saveDone_does ..)
    | with_reducible apply Does.ite
    | intro _
    | extract_lets
    | fail_if_no_progress beta_reduce

theorem execProfileCommitTick_does {s : State} {t : State} (h : execProfileCommitTick s = .next t) : Does [.tb, .log, .od, .acc, .ports, .cls, .store, .rep, .link, .fab, .sw, .eng, .pods, .net, .xbar, .mem, .cel, .side, .pwr, .out, .free] s t := by
  unfold execProfileCommitTick at h
  cases h
  repeat' first
    | exact rfl
    | with_reducible exact Does.refl _ _
    | with_reducible apply Does.step (h' := State.commitTick_does ..)
    | with_reducible apply Does.ite
    | intro _
    | extract_lets
    | fail_if_no_progress beta_reduce

theorem State.unitPrepared_does (s : State) (u : Nat) : Does [.log, .od, .cls, .store, .link, .fab, .sw, .side, .out, .free] s (State.unitPrepared s u) := by
  unfold State.unitPrepared
  repeat' first
    | exact rfl
    | with_reducible exact Does.refl _ _
    | with_reducible apply Does.step (h' := State.classifierPrepares_does ..)
    | with_reducible apply Does.step (h' := State.podPrepares_does ..)
    | with_reducible apply Does.step (h' := State.noteUnit_does ..)
    | with_reducible apply Does.ite
    | split
    | intro _
    | extract_lets
    | fail_if_no_progress beta_reduce

theorem execUnitPrepared_does {unit : Unit_} {s : State} {t : State} (h : execUnitPrepared unit s = .next t) : Does [.log, .od, .cls, .store, .link, .fab, .sw, .side, .out, .free] s t := by
  unfold execUnitPrepared at h
  cases h
  repeat' first
    | exact rfl
    | with_reducible exact Does.refl _ _
    | with_reducible apply Does.step (h' := State.unitPrepared_does ..)
    | with_reducible apply Does.ite
    | intro _
    | extract_lets
    | fail_if_no_progress beta_reduce

end Sys2Proof.Machine
end

