-- ==== Sys2Proof/Laws/DoesBoot.lean ====
section
/-! SUPPORT. What each operation of Machine/Boot.lean can do: the parts of the state it can touch, and what it keeps. -/

namespace Sys2Proof.Machine

theorem State.fuseLoad_does (s : State) (columns : List (BitVec 24 × Nat)) : Does [.mem, .cel] s (State.fuseLoad s columns).1 := by
  refine Does.set_mem _ _ (Memory.wf_of_cells ?_)
  split
  · simp
  · simp

theorem State.bootHalt_does (s : State) (k : Fin 4) (step : Fin 16) : Does [.log, .od, .store, .link, .side, .pwr, .free] s (State.bootHalt s k step) := by
  unfold State.bootHalt
  repeat' first
    | exact rfl
    | with_reducible exact Does.refl _ _
    | with_reducible apply Does.step (h' := State.logE_does ..)
    | extract_lets
    | fail_if_no_progress beta_reduce
    | with_reducible apply Does.step (h' := Does.set_pwr ..)

theorem State.markBad_does (s : State) (l : List Nat) : Does [.log, .od, .store, .link, .pods, .side, .free] s (State.markBad s l) := by
  unfold State.markBad
  repeat' first
    | exact rfl
    | with_reducible exact Does.refl _ _
    | with_reducible apply Does.step (h' := State.logE_does ..)
    | with_reducible apply Does.step (h' := State.setPod_does ..)
    | with_reducible apply Does.fold
    | intro _
    | extract_lets
    | fail_if_no_progress beta_reduce

theorem State.loadFirmware_does (s : State) : Does [.mem, .cel] s (State.loadFirmware s) := by
  refine Does.set_mem _ _ fun h => ?_
  generalize imgSections _ = l
  generalize s.mem = m at h
  induction l generalizing m with
  | nil => exact h
  | cons x t ih =>
    refine ih _ ?_
    dsimp only
    split
    · exact Memory.writeBytes_wf _ _ _ h
    · split
      · exact Memory.writeBytes_wf _ _ _ h
      · exact h

theorem State.logSkipped_does (s : State) : Does Part.logging s (State.logSkipped s) := by
  unfold State.logSkipped
  repeat' first
    | exact rfl
    | with_reducible exact Does.refl _ _
    | with_reducible apply Does.step (h' := State.logE_does ..)
    | with_reducible apply Does.fold
    | intro _
    | extract_lets
    | fail_if_no_progress beta_reduce

theorem Pestle.fallBack_fuses (x : Pestle) : x.fallBack.keyHash = x.keyHash ∧ x.fallBack.rollback = x.rollback := by
  unfold Pestle.fallBack
  split
  · exact ⟨Pestle.wrote_keyHash .., Pestle.wrote_rollback ..⟩
  · exact ⟨rfl, rfl⟩

theorem Pestle.choose_fuses {x y : Pestle} (h : x.chooseFirmware = some y) : y.keyHash = x.keyHash ∧ y.rollback = x.rollback := by
  unfold Pestle.chooseFirmware at h
  split at h
  · injection h with h
    subst h
    split
    · exact ⟨Pestle.wrote_keyHash .., Pestle.wrote_rollback ..⟩
    · exact ⟨rfl, rfl⟩
  · split at h
    · injection h with h; subst h; exact ⟨rfl, rfl⟩
    · cases h

theorem State.bootFirmware_does {s t : State} (h : State.bootFirmware s = some t) : Does [.log, .od, .store, .link, .xbar, .mem, .cel, .side, .pst, .pwr, .free] s t := by
  unfold State.bootFirmware at h
  obtain ⟨q, hq, ht⟩ := Option.map_eq_some_iff.1 h
  subst ht
  have hc := Pestle.choose_fuses hq
  have hf := Pestle.fallBack_fuses s.pst
  have h1 : Does [.log, .od, .store, .link, .xbar, .mem, .cel, .side, .pst, .pwr, .free] s ({ s with pst := q } : State).loadFirmware :=
    ((Does.refl _ _).step (Does.set_pst _ _ (hc.1.trans hf.1) (hc.2.trans hf.2)) rfl).step (State.loadFirmware_does ..) rfl
  extract_lets y x w s1 s2
  have h2 : Does [.log, .od, .store, .link, .xbar, .mem, .cel, .side, .pst, .pwr, .free] s s1 := Does.any ⟨.inr rfl, .inr rfl, .inr rfl, .inr rfl, .inr rfl, .inr rfl, .inr rfl, .inr rfl, .inr rfl, .inr rfl, .inr rfl, .inr rfl, .inr rfl, .inr rfl, .inr rfl, .inl rfl, .inr rfl, .inr rfl, .inr rfl, .inl rfl, .inr rfl, .inr rfl, .inr rfl⟩
    id id (List.prefix_refl _) (fun _ => rfl) (Fin.le_refl _) h1
  have h3 : Does [.log, .od, .store, .link, .xbar, .mem, .cel, .side, .pst, .pwr, .free] s s2 := (h2.step (State.loadLogged_does ..) rfl).step (State.logSkipped_does ..) rfl
  clear_value s2
  split
  · exact h3
  · exact h3.step (State.fwFailed_does ..) rfl

theorem State.bootPods_does (s : State) : Does [.log, .od, .store, .link, .eng, .pods, .xbar, .mem, .cel, .side, .free] s (State.bootPods s) := by
  unfold State.bootPods
  repeat' first
    | exact rfl
    | with_reducible exact Does.refl _ _
    | with_reducible apply Does.step (h' := State.podOn_does ..)
    | with_reducible apply Does.ite
    | with_reducible apply Does.fold
    | intro _
    | extract_lets
    | fail_if_no_progress beta_reduce

theorem State.loadProfile_does (s : State) (slot : Nat) : Does [.od, .cls, .sw, .side] s (State.loadProfile s slot) := by
  unfold State.loadProfile
  repeat' first
    | exact rfl
    | with_reducible exact Does.refl _ _
    | with_reducible apply Does.step (h' := State.takeProfile_does ..)
    | with_reducible apply Does.step (h' := State.putShadow_does ..)
    | split
    | extract_lets
    | fail_if_no_progress beta_reduce
    | with_reducible apply Does.step (h' := Does.set_sw ..)

theorem State.remoteWindows_does (s : State) : Does [.xbar] s (State.remoteWindows s) := by
  unfold State.remoteWindows
  repeat' first
    | exact rfl
    | with_reducible exact Does.refl _ _
    | with_reducible apply Does.fold
    | intro _
    | extract_lets
    | fail_if_no_progress beta_reduce
    | with_reducible apply Does.step (h' := Does.set_xbar ..)

theorem State.tablesIn_does (s : State) : Does [.log, .od, .cls, .store, .link, .cel, .side, .free] s (State.tablesIn s) := by
  unfold State.tablesIn
  extract_lets f s1
  have h : Does [.log, .od, .cls, .store, .link, .cel, .side, .free] s s1 := ((State.readSides_does ..).weaken rfl).step (State.publishCheck_does ..) rfl
  clear_value s1 f
  split
  · exact h.step (Does.set_cls ..) rfl
  · exact h.step (State.logE_does ..) rfl

theorem State.configure_does (s : State) : Does [.log, .od, .acc, .ports, .cls, .store, .rep, .link, .fab, .net, .xbar, .cel, .side, .out, .free] s (State.configure s) := by
  unfold State.configure
  repeat' first
    | exact rfl
    | with_reducible exact Does.refl _ _
    | with_reducible apply Does.step (h' := State.applyEnables_does ..)
    | with_reducible apply Does.step (h' := State.applyFabric_does ..)
    | with_reducible apply Does.step (h' := State.takeCanPath_does ..)
    | with_reducible apply Does.step (h' := State.remoteWindows_does ..)
    | with_reducible apply Does.step (h' := State.tablesIn_does ..)
    | extract_lets
    | fail_if_no_progress beta_reduce

theorem State.bootProfile_does (s : State) (straps : Fin 8) : Does [.tb, .log, .od, .acc, .ports, .cls, .store, .rep, .link, .fab, .sw, .net, .xbar, .cel, .side, .pst, .out, .free] s (State.bootProfile s straps) := by
  unfold State.bootProfile
  repeat' first
    | exact rfl
    | with_reducible exact Does.refl _ _
    | with_reducible apply Does.step (h' := State.loadProfile_does ..)
    | with_reducible apply Does.step (h' := State.logE_does ..)
    | with_reducible apply Does.step (h' := State.calibrate_does ..)
    | with_reducible apply Does.step (h' := State.configure_does ..)
    | with_reducible apply Does.ite
    | split
    | intro _
    | extract_lets
    | fail_if_no_progress beta_reduce
    | with_reducible apply Does.step (h' := Does.set_sw ..)

theorem State.bootArm_does (s : State) (from_ : Nat) (us : Nat) : Does [.tb, .log, .sess, .od, .store, .rep, .link, .eng, .pods, .xbar, .mem, .cel, .side, .pwr, .out, .free] s (State.bootArm s from_ us) := by
  unfold State.bootArm
  repeat' first
    | exact rfl
    | with_reducible exact Does.refl _ _
    | with_reducible apply Does.step (h' := State.put_does ..)
    | with_reducible apply Does.step (h' := State.armCheck_does ..)
    | with_reducible refine Does.step ?_ (Does.snd (by assumption) (State.armCheck_does ..)) ?_
    | with_reducible apply Does.step (h' := State.logRefusal_does ..)
    | with_reducible apply Does.step (h' := State.armEnter_does ..)
    | with_reducible apply Does.step (h' := State.reach_does ..)
    | with_reducible apply Does.ite
    | split
    | intro _
    | extract_lets
    | fail_if_no_progress beta_reduce
    | with_reducible apply Does.step (h' := Does.set_pwr ..)

theorem State.ownRepair_does (s : State) : Does [.mem, .cel] s (State.ownRepair s) := by
  unfold State.ownRepair
  repeat' first
    | exact rfl
    | with_reducible exact Does.refl _ _
    | with_reducible apply Does.ite
    | intro _
    | extract_lets
    | fail_if_no_progress beta_reduce
    | with_reducible refine Does.step ?_ (Does.set_mem _ _ (Memory.wf_of_cells (Memory.writeRecord_cells ..))) ?_
    | with_reducible refine Does.step ?_ (Does.set_mem _ _ (Memory.wf_of_cells ((Memory.cells_mk ..).trans (Memory.writeRecord_cells ..)))) ?_
    | with_reducible refine Does.step ?_ (Does.set_mem _ _ (Memory.wf_of_cells (Memory.cells_mk ..))) ?_

theorem State.bootIdle_does (s0 : State) (from_ : Nat) (us : Nat) : Does [.tb, .od, .rep, .mem, .cel, .pwr] s0 (State.bootIdle s0 from_ us) := by
  unfold State.bootIdle
  repeat' first
    | exact rfl
    | with_reducible exact Does.refl _ _
    | with_reducible apply Does.step (h' := State.ownRepair_does ..)
    | with_reducible apply Does.step (h' := State.put_does ..)
    | with_reducible apply Does.step (h' := State.reach_does ..)
    | with_reducible apply Does.step (h' := State.canOwn_does ..)
    | extract_lets
    | fail_if_no_progress beta_reduce
    | with_reducible apply Does.step (h' := Does.set_pwr ..)

theorem State.boot_does (s : State) (f : BootFacts) : Does Part.chip s (State.boot s f) := by
  unfold State.boot
  repeat' first
    | exact rfl
    | with_reducible exact Does.refl _ _
    | with_reducible apply Does.step (h' := State.fuseLoad_does ..)
    | with_reducible refine Does.step ?_ (Does.fst (by assumption) (State.fuseLoad_does ..)) ?_
    | with_reducible apply Does.step (h' := State.bootHalt_does ..)
    | with_reducible apply Does.step (h' := State.markBad_does ..)
    | with_reducible refine Does.step ?_ (State.bootFirmware_does (by assumption)) ?_
    | with_reducible apply Does.step (h' := State.bootPods_does ..)
    | with_reducible apply Does.step (h' := State.bootProfile_does ..)
    | with_reducible apply Does.step (h' := State.logE_does ..)
    | with_reducible apply Does.step (h' := State.bootArm_does ..)
    | with_reducible apply Does.step (h' := State.bootIdle_does ..)
    | with_reducible apply Does.ite
    | split
    | intro _
    | extract_lets
    | fail_if_no_progress beta_reduce
    | refine Does.any ⟨.inr rfl, .inr rfl, .inr rfl, .inr rfl, .inr rfl, .inr rfl, .inr rfl, .inr rfl, .inr rfl, .inr rfl, .inr rfl, .inr rfl, .inr rfl, .inr rfl, .inr rfl, .inr rfl, .inr rfl, .inr rfl, .inl rfl, .inl rfl, .inr rfl, .inr rfl, .inr rfl⟩ id id (List.prefix_refl _) (fun _ => rfl) (Fin.le_refl _) ?_
    | refine Does.any ⟨.inl rfl, .inr rfl, .inr rfl, .inr rfl, .inr rfl, .inr rfl, .inr rfl, .inr rfl, .inr rfl, .inr rfl, .inr rfl, .inr rfl, .inr rfl, .inr rfl, .inr rfl, .inr rfl, .inr rfl, .inr rfl, .inl rfl, .inr rfl, .inr rfl, .inr rfl, .inr rfl⟩ id id (List.prefix_refl _) (fun _ => rfl) (Fin.le_refl _) ?_

theorem execResetRelease_does {facts : BootFacts} {s : State} {t : State} (h : execResetRelease facts s = .next t) : Does Part.chip s t := by
  unfold execResetRelease at h
  cases h
  repeat' first
    | exact rfl
    | with_reducible exact Does.refl _ _
    | with_reducible apply Does.step (h' := State.boot_does ..)
    | with_reducible apply Does.ite
    | intro _
    | extract_lets
    | fail_if_no_progress beta_reduce

end Sys2Proof.Machine
end

