-- ==== Sys2Proof/Laws/DoesGrinder.lean ====
section
/-! SUPPORT. What each operation of Machine/Grinder.lean can do: the parts of the state it can touch, and what it keeps. -/

namespace Sys2Proof.Machine

theorem State.dramDone_does (s : State) : Does [.log, .od, .store, .link, .mem, .cel, .side, .free] s (State.dramDone s) := by
  unfold State.dramDone
  repeat' first
    | exact rfl
    | with_reducible exact Does.refl _ _
    | with_reducible apply Does.step (h' := State.bump_does ..)
    | with_reducible apply Does.step (h' := State.logE_does ..)
    | with_reducible apply Does.ite
    | intro _
    | extract_lets
    | fail_if_no_progress beta_reduce
    | with_reducible refine Does.step ?_ (Does.set_mem _ _ (Memory.wf_of_cells (Memory.cells_mk ..))) ?_

theorem State.grindDram_does (s : State) (r : Nat) : Does Part.core s (State.grindDram s r) := by
  unfold State.grindDram
  repeat' first
    | exact rfl
    | with_reducible exact Does.refl _ _
    | with_reducible apply Does.step (h' := State.readBlock_does ..)
    | with_reducible refine Does.step ?_ (Does.fst (by assumption) (State.readBlock_does ..)) ?_
    | with_reducible apply Does.step (h' := State.bumpBy_does ..)
    | with_reducible apply Does.step (h' := State.warmReset_does ..)
    | with_reducible apply Does.step (h' := State.logCount_does ..)
    | with_reducible apply Does.ite
    | split
    | intro _
    | extract_lets
    | fail_if_no_progress beta_reduce
    | with_reducible refine Does.step ?_ (Does.set_mem _ _ (Memory.wf_of_cells (Memory.toRewrite_cells ..))) ?_
    | with_reducible refine Does.step ?_ (Does.set_mem _ _ (Memory.wf_of_cells ((Memory.cells_mk ..).trans (Memory.toRewrite_cells ..)))) ?_
    | with_reducible refine Does.step ?_ (Does.set_mem _ _ (Memory.wf_of_cells (Memory.cells_mk ..))) ?_

theorem State.noteCol_does (s : State) (mac : Nat) (row : Nat) (col : Nat) : Does [.log, .od, .store, .link, .mem, .cel, .side, .free] s (State.noteCol s mac row col) := by
  unfold State.noteCol
  extract_lets m
  have hm : m.cells = s.mem.cells := rfl
  clear_value m
  split
  · exact (Does.set_mem _ _ (Memory.wf_of_cells hm)).weaken rfl
  · refine Does.step (Does.step ?_ (State.bumpBy_does ..) rfl) (State.logCount_does ..) rfl
    exact (Does.set_mem s _ (Memory.wf_of_cells ((Memory.cells_mk ..).trans hm))).weaken rfl

theorem State.noteColumns_does (s : State) (mr : Nat × Nat) (wrong : List (Nat × BitVec 13 × BitVec 13)) : Does [.log, .od, .store, .link, .mem, .cel, .side, .free] s (State.noteColumns s mr wrong) := by
  unfold State.noteColumns
  repeat' first
    | exact rfl
    | with_reducible exact Does.refl _ _
    | with_reducible apply Does.step (h' := State.noteCol_does ..)
    | with_reducible apply Does.fold
    | intro _
    | extract_lets
    | fail_if_no_progress beta_reduce

theorem State.grindSram_does (s : State) (r : Nat) : Does Part.core s (State.grindSram s r) := by
  unfold State.grindSram
  repeat' first
    | exact rfl
    | with_reducible exact Does.refl _ _
    | with_reducible apply Does.step (h' := State.bump_does ..)
    | with_reducible apply Does.step (h' := State.memFailed_does ..)
    | with_reducible apply Does.step (h' := State.noteColumns_does ..)
    | with_reducible apply Does.ite
    | split
    | intro _
    | extract_lets
    | fail_if_no_progress beta_reduce
    | with_reducible refine Does.step ?_ (Does.set_mem _ _ (Memory.wf_of_cells (Memory.toRewrite_cells ..))) ?_
    | with_reducible refine Does.step ?_ (Does.set_mem _ _ (Memory.wf_of_cells ((Memory.cells_mk ..).trans (Memory.toRewrite_cells ..)))) ?_
    | with_reducible refine Does.step ?_ (Does.set_mem _ _ (Memory.wf_of_cells (Memory.cells_mk ..))) ?_

theorem State.grindSide_does (s : State) (r : SideRow) : Does Part.core s (State.grindSide s r) := by
  unfold State.grindSide
  repeat' first
    | exact rfl
    | with_reducible exact Does.refl _ _
    | with_reducible apply Does.step (h' := State.sideFailed_does ..)
    | with_reducible apply Does.step (h' := State.bumpBy_does ..)
    | with_reducible apply Does.step (h' := State.noteColumns_does ..)
    | with_reducible apply Does.step (h' := State.bump_does ..)
    | with_reducible apply Does.ite
    | intro _
    | extract_lets
    | fail_if_no_progress beta_reduce
    | with_reducible refine Does.step ?_ (Does.set_mem _ _ (Memory.wf_of_cells (Memory.toRewrite_cells ..))) ?_
    | with_reducible refine Does.step ?_ (Does.set_mem _ _ (Memory.wf_of_cells ((Memory.cells_mk ..).trans (Memory.toRewrite_cells ..)))) ?_
    | with_reducible refine Does.step ?_ (Does.set_mem _ _ (Memory.wf_of_cells (Memory.cells_mk ..))) ?_

theorem State.grindRow_does (s : State) (k1 : RowId) : Does Part.core s (State.grindRow s k1) := by
  unfold State.grindRow
  repeat' first
    | exact rfl
    | with_reducible exact Does.refl _ _
    | with_reducible apply Does.step (h' := State.grindDram_does ..)
    | with_reducible apply Does.step (h' := State.grindSram_does ..)
    | with_reducible apply Does.step (h' := State.grindSide_does ..)
    | with_reducible apply Does.ite
    | split
    | intro _
    | extract_lets
    | fail_if_no_progress beta_reduce

theorem State.dramBlock_does (s : State) (b : Nat) : Does Part.core s (State.dramBlock s b) := by
  unfold State.dramBlock
  extract_lets m s1 s2
  have h1 : Does Part.core s s1 := (Does.set_mem _ _ (Memory.wf_of_cells (Memory.cells_mk ..))).weaken rfl
  have h2 : Does Part.core s s2 := h1.step (State.grindRow_does ..) rfl
  clear_value s2 s1
  exact Does.ite (fun _ => h2.step (State.dramDone_does ..) rfl) fun _ => h2

theorem State.dramVisit_does (s : State) (k1 : Option Nat) : Does Part.core s (State.dramVisit s k1) := by
  cases k1 with
  | none => exact Does.ite (fun _ => (State.dramDone_does ..).weaken rfl) fun _ => Does.refl _ _
  | some b => exact State.dramBlock_does ..

theorem State.writeBack_does (s : State) : Does [.mem, .cel, .side] s (State.writeBack s) := by
  unfold State.writeBack
  split
  · exact Does.refl _ _
  · extract_lets x m
    have hm : s.mem.wf = true → m.wf = true := Memory.wf_of_cells rfl
    clear_value m x
    split
    · refine (Does.set_mem _ _ fun h => ?_).weaken rfl
      split
      · exact Memory.rewriteBlock_wf _ _ (hm h)
      · exact Memory.rewriteRow_wf _ _ (hm h)
    · split
      · exact Does.leafMem (x := s) ⟨.inr rfl, .inr rfl, .inr rfl, .inr rfl, .inr rfl, .inr rfl, .inr rfl, .inr rfl, .inr rfl, .inr rfl, .inr rfl, .inr rfl, .inr rfl, .inr rfl, .inr rfl, .inr rfl, .inl ⟨rfl, rfl⟩, .inl rfl, .inr rfl, .inr rfl, .inr rfl, .inr rfl, .inr rfl⟩
          hm rfl rfl rfl rfl (Does.refl _ _)
      · exact (Does.set_mem s _ fun h => Memory.listRow_wf _ (hm h)).weaken rfl

theorem State.sideUpset_does (s : State) (r : SideRow) (b : Byte) (m : BitVec 13) : Does [.side] s (State.sideUpset s r b m) := by
  unfold State.sideUpset
  repeat' first
    | exact rfl
    | with_reducible exact Does.refl _ _
    | with_reducible apply Does.ite
    | intro _
    | extract_lets
    | fail_if_no_progress beta_reduce
    | with_reducible apply Does.step (h' := Does.set_side ..)

theorem State.dramUpset_does (s : State) (a : Nat) (home : Nat) (m : Byte) : Does [.mem, .cel] s (State.dramUpset s a home m) := by
  unfold State.dramUpset
  repeat' first
    | exact rfl
    | with_reducible exact Does.refl _ _
    | with_reducible apply Does.ite
    | intro _
    | extract_lets
    | fail_if_no_progress beta_reduce
    | with_reducible refine Does.step ?_ (Does.set_mem _ _ (Memory.wf_of_cells (Memory.setWrong_cells ..))) ?_
    | with_reducible refine Does.step ?_ (Does.set_mem _ _ (Memory.wf_of_cells ((Memory.cells_mk ..).trans (Memory.setWrong_cells ..)))) ?_
    | with_reducible refine Does.step ?_ (Does.set_mem _ _ (Memory.wf_of_cells (Memory.cells_mk ..))) ?_

theorem State.upset_does (s : State) (k1 : Upset) : Does [.mem, .cel, .side] s (State.upset s k1) := by
  unfold State.upset
  repeat' first
    | exact rfl
    | with_reducible exact Does.refl _ _
    | with_reducible apply Does.step (h' := State.dramUpset_does ..)
    | with_reducible apply Does.step (h' := State.sideUpset_does ..)
    | with_reducible apply Does.ite
    | split
    | intro _
    | extract_lets
    | fail_if_no_progress beta_reduce
    | with_reducible refine Does.step ?_ (Does.set_mem _ _ (Memory.wf_of_cells (Memory.setBad_cells ..))) ?_
    | with_reducible refine Does.step ?_ (Does.set_mem _ _ (Memory.wf_of_cells ((Memory.cells_mk ..).trans (Memory.setBad_cells ..)))) ?_
    | with_reducible refine Does.step ?_ (Does.set_mem _ _ (Memory.wf_of_cells (Memory.cells_mk ..))) ?_

theorem State.dramStep_does (s : State) : Does Part.core s (State.dramStep s) := by
  unfold State.dramStep
  repeat' first
    | exact rfl
    | with_reducible exact Does.refl _ _
    | with_reducible apply Does.step (h' := State.dramVisit_does ..)
    | extract_lets
    | fail_if_no_progress beta_reduce

theorem State.sramDone_does (s : State) : Does [.log, .od, .store, .link, .mem, .cel, .side, .free] s (State.sramDone s) := by
  unfold State.sramDone
  repeat' first
    | exact rfl
    | with_reducible exact Does.refl _ _
    | with_reducible apply Does.step (h' := State.bump_does ..)
    | with_reducible apply Does.step (h' := State.logE_does ..)
    | with_reducible apply Does.ite
    | intro _
    | extract_lets
    | fail_if_no_progress beta_reduce
    | with_reducible refine Does.step ?_ (Does.set_mem _ _ (Memory.wf_of_cells (Memory.cells_mk ..))) ?_

theorem State.sramNext_does (s : State) (b : GrindBank) : Does Part.core s (State.sramNext s b) := by
  unfold State.sramNext
  repeat' first
    | exact rfl
    | with_reducible exact Does.refl _ _
    | with_reducible apply Does.step (h' := State.sramDone_does ..)
    | with_reducible apply Does.step (h' := State.grindRow_does ..)
    | with_reducible apply Does.ite
    | intro _
    | extract_lets
    | fail_if_no_progress beta_reduce
    | with_reducible refine Does.step ?_ (Does.set_mem _ _ (Memory.wf_of_cells (Memory.cells_mk ..))) ?_

theorem State.passNext_does (s : State) (k1 : GrindAt) : Does Part.core s (State.passNext s k1) := by
  have h : ∀ b : Option GrindBank, Does Part.core s (b.elim s s.sramNext) := fun b => by
    cases b with
    | none => exact Does.refl _ _
    | some b => exact (State.sramNext_does s b).weaken rfl
  unfold State.passNext
  split
  · split
    · exact Does.ite (fun _ => (State.dramStep_does ..).weaken rfl) fun _ => h _
    · exact Does.refl _ _
  · exact (State.sramNext_does ..).weaken rfl
  · exact h _

theorem State.grind_does (s : State) (b : GrindAt) : Does Part.core s (State.grind s b) := by
  unfold State.grind
  repeat' first
    | exact rfl
    | with_reducible exact Does.refl _ _
    | with_reducible apply Does.step (h' := State.passNext_does ..)
    | with_reducible apply Does.step (h' := State.grindRow_does ..)
    | with_reducible apply Does.ite
    | split
    | intro _
    | extract_lets
    | fail_if_no_progress beta_reduce
    | with_reducible refine Does.step ?_ (Does.set_mem _ _ (Memory.wf_of_cells (Memory.cells_mk ..))) ?_

theorem execGrinderVisit_does {visit : GrindVisit} {s : State} {t : State} (h : execGrinderVisit visit s = .next t) : Does Part.core s t := by
  unfold execGrinderVisit at h
  cases h
  repeat' first
    | exact rfl
    | with_reducible exact Does.refl _ _
    | with_reducible apply Does.step (h' := State.upset_does ..)
    | with_reducible apply Does.step (h' := State.grind_does ..)
    | with_reducible apply Does.ite
    | with_reducible apply Does.fold
    | intro _
    | extract_lets
    | fail_if_no_progress beta_reduce

theorem State.writeRepair_does (s : State) : Does [.tb, .mem, .cel] s (State.writeRepair s) := by
  unfold State.writeRepair
  apply Does.ite
  · exact fun _ => Does.refl _ _
  · intro _
    extract_lets s1 r
    have h : Does [.tb, .mem, .cel] s s1 := (State.reach_does ..).weaken rfl
    clear_value s1
    exact h.step (Does.set_mem _ _ (Memory.wf_of_cells ((Memory.cells_mk ..).trans (Memory.writeRecord_cells ..)))) rfl

theorem execRepairRecordWrite_does {s : State} {t : State} (h : execRepairRecordWrite s = .next t) : Does [.tb, .mem, .cel] s t := by
  unfold execRepairRecordWrite at h
  cases h
  repeat' first
    | exact rfl
    | with_reducible exact Does.refl _ _
    | with_reducible apply Does.step (h' := State.writeRepair_does ..)
    | with_reducible apply Does.ite
    | intro _
    | extract_lets
    | fail_if_no_progress beta_reduce

theorem State.wMemTest_does (s : State) (p : Path) (v : Nat) : Does [.log, .od, .acc, .store, .rep, .link, .fab, .mem, .cel, .side, .out, .free] s (State.wMemTest s p v) := by
  unfold State.wMemTest
  repeat' first
    | exact rfl
    | with_reducible exact Does.refl _ _
    | with_reducible apply Does.step (h' := State.refuse_does ..)
    | with_reducible apply Does.step (h' := State.refuseLog_does ..)
    | with_reducible apply Does.step (h' := State.answer_does ..)
    | with_reducible apply Does.ite
    | intro _
    | extract_lets
    | fail_if_no_progress beta_reduce
    | with_reducible refine Does.step ?_ (Does.set_mem _ _ (Memory.wf_of_cells (Memory.writeRecord_cells ..))) ?_
    | with_reducible refine Does.step ?_ (Does.set_mem _ _ (Memory.wf_of_cells ((Memory.cells_mk ..).trans (Memory.writeRecord_cells ..)))) ?_
    | with_reducible refine Does.step ?_ (Does.set_mem _ _ (Memory.wf_of_cells (Memory.cells_mk ..))) ?_

theorem execMemoryTestEnableWrite_does {path : Path} {v : Byte} {s : State} {t : State} (h : execMemoryTestEnableWrite path v s = .next t) : Does [.log, .od, .acc, .store, .rep, .link, .fab, .mem, .cel, .side, .out, .free] s t := by
  unfold execMemoryTestEnableWrite at h
  cases h
  repeat' first
    | exact rfl
    | with_reducible exact Does.refl _ _
    | with_reducible apply Does.step (h' := State.requestWrite_does (l := [.log, .od, .acc, .store, .rep, .link, .fab, .mem, .cel, .side, .out, .free]) (hl := rfl) (hf0 := fun t => ?_) ..)
    | with_reducible apply Does.step (h' := State.wMemTest_does ..)
    | extract_lets
    | fail_if_no_progress beta_reduce
    | exact Does.refl _ _

theorem execGrinderWriteback_does {s : State} {t : State} (h : execGrinderWriteback s = .next t) : Does [.mem, .cel, .side] s t := by
  unfold execGrinderWriteback at h
  cases h
  repeat' first
    | exact rfl
    | with_reducible exact Does.refl _ _
    | with_reducible apply Does.step (h' := State.writeBack_does ..)
    | with_reducible apply Does.ite
    | intro _
    | extract_lets
    | fail_if_no_progress beta_reduce

end Sys2Proof.Machine
end

