-- ==== Sys2Proof/Laws/DoesPower.lean ====
section
/-! SUPPORT. What each operation of Machine/Power.lean can do: the parts of the state it can touch, and what it keeps. -/

namespace Sys2Proof.Machine

theorem State.entryOutcome_does (s : State) (e : PowerEntry) (give : State → Path → State) {l : List Part} (hl : ([.acc, .pwr].all fun p => l.contains p) = true) (hf0 : ∀ t a, Does l t (give t a)) : Does l s (State.entryOutcome s e give) := by
  unfold State.entryOutcome
  repeat' first
    | exact rfl
    | with_reducible exact Does.refl _ _
    | exact Part.all_trans rfl hl
    | exact Part.all_self _
    | with_reducible apply Does.step (h' := hf0 ..)
    | with_reducible apply Does.step (h' := State.recallOn_does ..)
    | with_reducible apply Does.fold
    | intro _
    | extract_lets
    | fail_if_no_progress beta_reduce
    | with_reducible apply Does.step (h' := Does.set_pwr ..)

theorem State.entryAnswer_does (s : State) (e : PowerEntry) : Does [.acc, .rep, .fab, .pwr, .out, .free] s (State.entryAnswer s e) := by
  unfold State.entryAnswer
  repeat' first
    | exact rfl
    | with_reducible exact Does.refl _ _
    | with_reducible apply Does.step (h' := State.entryOutcome_does (l := [.acc, .rep, .fab, .pwr, .out, .free]) (hl := rfl) (hf0 := fun t a => ?_) ..)
    | with_reducible apply Does.step (h' := State.answer_does ..)
    | extract_lets
    | fail_if_no_progress beta_reduce
    | exact Does.refl _ _

theorem State.retained_does (s : State) (r : Retention) : Does [.tb, .od, .store, .xbar, .mem, .cel, .pst, .pwr] s (State.retained s r) := by
  unfold State.retained
  repeat' first
    | exact rfl
    | with_reducible exact Does.refl _ _
    | with_reducible apply Does.fold
    | intro _
    | extract_lets
    | fail_if_no_progress beta_reduce
    | refine Does.any ⟨.inl rfl, .inr rfl, .inr rfl, .inl rfl, .inr rfl, .inr rfl, .inr rfl, .inl rfl, .inr rfl, .inr rfl, .inr rfl, .inr rfl, .inr rfl, .inr rfl, .inr rfl, .inl rfl, .inl ⟨rfl, rfl⟩, .inr rfl, .inl rfl, .inl rfl, .inr rfl, .inr rfl, .inr rfl⟩ (by first | exact Memory.wf_of_cells (Memory.assignRecord_cells ..)) id (List.prefix_refl _) (fun _ => rfl) (Fin.le_refl _) ?_

theorem State.mergeHusk_does (s0 : State) (l : List (Nat × List Byte)) : Does [.log, .od, .ports, .cls, .store, .rep, .link, .fab, .net, .cel, .side, .out, .free] s0 (State.mergeHusk s0 l) := by
  unfold State.mergeHusk
  exact Does.foldFst (fun t e => (State.putRaw_does ..).weaken rfl) _ ((State.readSides_does ..).weaken rfl)

theorem State.huskRecord_does (s : State) (p : Nat) (e : Stamp) (f : CanFrame) (drops : Bool) : Does [.free] s (State.huskRecord s p e f drops).1 := by
  unfold State.huskRecord
  repeat' first
    | exact rfl
    | with_reducible exact Does.refl _ _
    | with_reducible apply Does.step (h' := State.draw_does ..)
    | with_reducible refine Does.step ?_ (Does.snd (by assumption) (State.draw_does ..)) ?_
    | split
    | intro _
    | extract_lets
    | fail_if_no_progress beta_reduce

theorem State.wakeSsds_does (s : State) : Does [.store] s (State.wakeSsds s) := by
  unfold State.wakeSsds
  repeat' first
    | exact rfl
    | with_reducible exact Does.refl _ _
    | with_reducible apply Does.step (h' := State.setSsd_does ..)
    | with_reducible apply Does.ite
    | with_reducible apply Does.fold
    | intro _
    | extract_lets
    | fail_if_no_progress beta_reduce

theorem State.freePods_does (s : State) : Does [.od, .eng, .pods, .mem, .cel, .pwr] s (State.freePods s) := by
  unfold State.freePods
  repeat' first
    | exact rfl
    | with_reducible exact Does.refl _ _
    | with_reducible apply Does.step (h' := State.setErst_does ..)
    | with_reducible apply Does.fold
    | intro _
    | extract_lets
    | fail_if_no_progress beta_reduce
    | with_reducible apply Does.step (h' := Does.set_pwr ..)

theorem State.abandon_does (s : State) (how : Nat) (point : Nat) : Does [.log, .od, .store, .link, .eng, .pods, .mem, .cel, .side, .pwr, .free] s (State.abandon s how point) := by
  unfold State.abandon
  repeat' first
    | exact rfl
    | with_reducible exact Does.refl _ _
    | with_reducible apply Does.step (h' := State.freePods_does ..)
    | with_reducible apply Does.step (h' := State.logE_does ..)
    | with_reducible apply Does.step (h' := State.put_does ..)
    | with_reducible apply Does.ite
    | intro _
    | extract_lets
    | fail_if_no_progress beta_reduce
    | with_reducible apply Does.step (h' := Does.set_pwr ..)

theorem State.wakeCounts_does (s : State) (w : Wake) (merged : Nat) (lost : Nat) : Does [.od] s (State.wakeCounts s w merged lost) := by
  unfold State.wakeCounts
  repeat' first
    | exact rfl
    | with_reducible exact Does.refl _ _
    | with_reducible apply Does.step (h' := State.put_does ..)
    | extract_lets
    | fail_if_no_progress beta_reduce

theorem State.payOwed_does (s : State) (started : Bool) (starts : List Path) (runs : List Path) : Does [.log, .sess, .od, .acc, .ports, .cls, .store, .rep, .link, .fab, .net, .side, .pst, .out, .free] s (State.payOwed s started starts runs) := by
  unfold State.payOwed
  repeat' first
    | exact rfl
    | with_reducible exact Does.refl _ _
    | with_reducible apply Does.step (h' := State.startNow_does ..)
    | with_reducible apply Does.step (h' := State.recallOn_does ..)
    | with_reducible apply Does.step (h' := State.answer_does ..)
    | with_reducible apply Does.step (h' := State.refuseCmd_does ..)
    | with_reducible apply Does.ite
    | with_reducible apply Does.fold
    | intro _
    | extract_lets
    | fail_if_no_progress beta_reduce

theorem State.endWake_does (s : State) (w : Wake) : Does [.log, .sess, .od, .acc, .ports, .cls, .store, .rep, .link, .fab, .net, .cel, .side, .pst, .pwr, .out, .free] s (State.endWake s w) := by
  unfold State.endWake
  repeat' first
    | exact rfl
    | with_reducible exact Does.refl _ _
    | with_reducible apply Does.step (h' := State.setVolts_does ..)
    | with_reducible apply Does.step (h' := State.wakeCounts_does ..)
    | with_reducible apply Does.step (h' := State.startNotices_does ..)
    | with_reducible apply Does.step (h' := State.mergeHusk_does ..)
    | with_reducible apply Does.step (h' := State.startRun_does ..)
    | with_reducible apply Does.step (h' := State.payOwed_does ..)
    | with_reducible apply Does.ite
    | intro _
    | extract_lets
    | fail_if_no_progress beta_reduce
    | with_reducible apply Does.step (h' := Does.set_pwr ..)

theorem State.leavePark_does (s : State) : Does [.od, .eng, .pods, .xbar, .mem, .cel, .pwr] s (State.leavePark s) := by
  unfold State.leavePark
  repeat' first
    | exact rfl
    | with_reducible exact Does.refl _ _
    | with_reducible apply Does.step (h' := State.freePods_does ..)
    | extract_lets
    | fail_if_no_progress beta_reduce
    | refine Does.any ⟨.inr rfl, .inr rfl, .inr rfl, .inr rfl, .inr rfl, .inr rfl, .inr rfl, .inr rfl, .inr rfl, .inr rfl, .inr rfl, .inr rfl, .inr rfl, .inr rfl, .inr rfl, .inl rfl, .inr rfl, .inr rfl, .inr rfl, .inl rfl, .inr rfl, .inr rfl, .inr rfl⟩ id id (List.prefix_refl _) (fun _ => rfl) (Fin.le_refl _) ?_

theorem State.sessionBack_does (s : State) (r : Retention) : Does [.sess, .sw] s (State.sessionBack s r) := by
  unfold State.sessionBack
  repeat' first
    | exact rfl
    | with_reducible exact Does.refl _ _
    | extract_lets
    | fail_if_no_progress beta_reduce
    | refine Does.any ⟨.inr rfl, .inr rfl, .inl rfl, .inr rfl, .inr rfl, .inr rfl, .inr rfl, .inr rfl, .inr rfl, .inr rfl, .inr rfl, .inl rfl, .inr rfl, .inr rfl, .inr rfl, .inr rfl, .inr rfl, .inr rfl, .inr rfl, .inr rfl, .inr rfl, .inr rfl, .inr rfl⟩ id id (List.prefix_refl _) (fun _ => rfl) (Fin.le_refl _) ?_

theorem State.unitsAt_does (s : State) (g : BitVec 4) : Does [.sw] s (State.unitsAt s g) := by
  unfold State.unitsAt
  repeat' first
    | exact rfl
    | with_reducible exact Does.refl _ _
    | with_reducible apply Does.fold
    | intro _
    | extract_lets
    | fail_if_no_progress beta_reduce
    | with_reducible apply Does.step (h' := Does.set_sw ..)

theorem State.replayBack_does (s : State) : Does [.store, .rep, .out] s (State.replayBack s) := by
  unfold State.replayBack
  repeat' first
    | exact rfl
    | with_reducible exact Does.refl _ _
    | with_reducible apply Does.step (h' := State.openSource_does ..)
    | with_reducible apply Does.ite
    | intro _
    | extract_lets
    | fail_if_no_progress beta_reduce
    | with_reducible apply Does.step (h' := Does.set_rep ..)

theorem State.restoreCore_does (s : State) (r : Retention) : Does Part.chip s (State.restoreCore s r) := by
  unfold State.restoreCore
  repeat' first
    | exact rfl
    | with_reducible exact Does.refl _ _
    | with_reducible apply Does.step (h' := State.loadFirmware_does ..)
    | with_reducible apply Does.step (h' := State.retained_does ..)
    | with_reducible apply Does.step (h' := State.loadProfile_does ..)
    | with_reducible apply Does.step (h' := State.logSkipped_does ..)
    | with_reducible apply Does.step (h' := State.loadLogged_does ..)
    | with_reducible apply Does.step (h' := State.bootPods_does ..)
    | with_reducible apply Does.step (h' := State.sessionBack_does ..)
    | with_reducible apply Does.step (h' := State.calibrate_does ..)
    | with_reducible apply Does.step (h' := State.configure_does ..)
    | with_reducible apply Does.step (h' := State.unitsAt_does ..)
    | with_reducible apply Does.step (h' := State.gatePods_does ..)
    | with_reducible apply Does.step (h' := State.replayBack_does ..)
    | with_reducible apply Does.ite
    | intro _
    | extract_lets
    | fail_if_no_progress beta_reduce

theorem State.wakeDone_does (s : State) : Does Part.chip s (State.wakeDone s) := by
  unfold State.wakeDone
  repeat' first
    | exact rfl
    | with_reducible exact Does.refl _ _
    | with_reducible apply Does.step (h' := State.endWake_does ..)
    | with_reducible apply Does.step (h' := State.leavePark_does ..)
    | with_reducible apply Does.step (h' := State.wakeSsds_does ..)
    | with_reducible apply Does.step (h' := State.restoreCore_does ..)
    | with_reducible apply Does.ite
    | split
    | intro _
    | extract_lets
    | fail_if_no_progress beta_reduce

theorem execWakeComplete_does {s : State} {t : State} (h : execWakeComplete s = .next t) : Does Part.chip s t := by
  unfold execWakeComplete at h
  cases h
  repeat' first
    | exact rfl
    | with_reducible exact Does.refl _ _
    | with_reducible apply Does.step (h' := State.wakeDone_does ..)
    | extract_lets
    | fail_if_no_progress beta_reduce

theorem State.wakeFrom_does (s : State) (sources : BitVec 14) (qualified : Bool) : Does [.pwr] s (State.wakeFrom s sources qualified) := by
  unfold State.wakeFrom
  repeat' first
    | exact rfl
    | with_reducible exact Does.refl _ _
    | extract_lets
    | fail_if_no_progress beta_reduce
    | with_reducible apply Does.step (h' := Does.set_pwr ..)

theorem State.turnBack_does (s : State) (point : Nat) (sources : BitVec 14) (qualified : Bool) : Does [.log, .od, .store, .link, .eng, .pods, .mem, .cel, .side, .pwr, .free] s (State.turnBack s point sources qualified) := by
  unfold State.turnBack
  repeat' first
    | exact rfl
    | with_reducible exact Does.refl _ _
    | with_reducible apply Does.step (h' := State.abandon_does ..)
    | with_reducible apply Does.step (h' := State.wakeFrom_does ..)
    | with_reducible apply Does.ite
    | intro _
    | extract_lets
    | fail_if_no_progress beta_reduce

theorem State.wakeEdge_does (s : State) (w : WakeSrc) : Does [.log, .od, .acc, .store, .rep, .link, .fab, .eng, .pods, .mem, .cel, .side, .pwr, .out, .free] s (State.wakeEdge s w) := by
  unfold State.wakeEdge
  repeat' first
    | exact rfl
    | with_reducible exact Does.refl _ _
    | with_reducible apply Does.step (h' := State.entryAnswer_does ..)
    | with_reducible apply Does.step (h' := State.turnBack_does ..)
    | with_reducible apply Does.step (h' := State.wakeFrom_does ..)
    | with_reducible apply Does.ite
    | split
    | intro _
    | extract_lets
    | fail_if_no_progress beta_reduce
    | with_reducible apply Does.step (h' := Does.set_pwr ..)

theorem execWakeEdge_does {src : WakeSrc} {s : State} {t : State} (h : execWakeEdge src s = .next t) : Does [.log, .od, .acc, .store, .rep, .link, .fab, .eng, .pods, .mem, .cel, .side, .pwr, .out, .free] s t := by
  unfold execWakeEdge at h
  cases h
  repeat' first
    | exact rfl
    | with_reducible exact Does.refl _ _
    | with_reducible apply Does.step (h' := State.wakeEdge_does ..)
    | extract_lets
    | fail_if_no_progress beta_reduce

theorem State.intoByTick_does (s : State) (lane : Nat) (r : List Byte) : Does [.store, .free] s (State.intoByTick s lane r) := by
  unfold State.intoByTick
  repeat' first
    | exact rfl
    | with_reducible exact Does.refl _ _
    | with_reducible apply Does.step (h' := State.laneAppend_does ..)
    | with_reducible apply Does.step (h' := State.setLane_does ..)
    | with_reducible apply Does.fold
    | split
    | intro _
    | extract_lets
    | fail_if_no_progress beta_reduce

theorem State.huskLate_does (s : State) (p : Nat) (e : Stamp) (f : CanFrame) : Does [.log, .od, .cls, .store, .link, .side, .free] s (State.huskLate s p e f) := by
  unfold State.huskLate
  repeat' first
    | exact rfl
    | with_reducible exact Does.refl _ _
    | with_reducible apply Does.step (h' := State.huskRecord_does ..)
    | with_reducible refine Does.step ?_ (Does.fst (by assumption) (State.huskRecord_does ..)) ?_
    | with_reducible apply Does.step (h' := State.linkSelect_does ..)
    | with_reducible apply Does.step (h' := State.intoByTick_does ..)
    | with_reducible apply Does.step (h' := State.put_does ..)
    | with_reducible apply Does.ite
    | intro _
    | extract_lets
    | fail_if_no_progress beta_reduce
    | with_reducible apply Does.step (h' := Does.set_cls ..)

theorem State.enterPark_does (s : State) (r : Retention) : Does [.xbar, .pwr] s (State.enterPark s r) := by
  unfold State.enterPark
  repeat' first
    | exact rfl
    | with_reducible exact Does.refl _ _
    | with_reducible apply Does.step (h' := State.setVcore_does ..)
    | extract_lets
    | fail_if_no_progress beta_reduce
    | refine Does.any ⟨.inr rfl, .inr rfl, .inr rfl, .inr rfl, .inr rfl, .inr rfl, .inr rfl, .inr rfl, .inr rfl, .inr rfl, .inr rfl, .inr rfl, .inr rfl, .inr rfl, .inr rfl, .inl rfl, .inr rfl, .inr rfl, .inr rfl, .inl rfl, .inr rfl, .inr rfl, .inr rfl⟩ id id (List.prefix_refl _) (fun _ => rfl) (Fin.le_refl _) ?_

theorem State.holdPods_does (s : State) : Does [.od, .eng, .pods, .mem, .cel, .pwr] s (State.holdPods s) := by
  unfold State.holdPods
  repeat' first
    | exact rfl
    | with_reducible exact Does.refl _ _
    | with_reducible apply Does.step (h' := State.setErst_does ..)
    | with_reducible apply Does.ite
    | with_reducible apply Does.fold
    | intro _
    | extract_lets
    | fail_if_no_progress beta_reduce
    | with_reducible apply Does.step (h' := Does.set_pwr ..)

theorem State.parkWake_does (s : State) : Does [.pwr] s (State.parkWake s) := by
  unfold State.parkWake
  repeat' first
    | exact rfl
    | with_reducible exact Does.refl _ _
    | with_reducible apply Does.step (h' := State.wakeFrom_does ..)
    | split
    | extract_lets
    | fail_if_no_progress beta_reduce
    | with_reducible apply Does.step (h' := Does.set_pwr ..)

theorem State.entryDone_does (s : State) (k1 : Option PowerEntry) : Does [.acc, .rep, .fab, .pwr, .out, .free] s (State.entryDone s k1) := by
  unfold State.entryDone
  repeat' first
    | exact rfl
    | with_reducible exact Does.refl _ _
    | with_reducible apply Does.step (h' := State.entryAnswer_does ..)
    | split
    | extract_lets
    | fail_if_no_progress beta_reduce

theorem State.cStart_does (s : State) (p : Path) (v : Nat) : Does [.log, .sess, .od, .acc, .ports, .cls, .store, .rep, .link, .fab, .eng, .pods, .net, .mem, .cel, .side, .pst, .pwr, .out, .free] s (State.cStart s p v) := by
  unfold State.cStart
  repeat' first
    | exact rfl
    | with_reducible exact Does.refl _ _
    | with_reducible apply Does.step (h' := State.refuseCmd_does ..)
    | with_reducible apply Does.step (h' := State.turnBack_does ..)
    | with_reducible apply Does.step (h' := State.parkWake_does ..)
    | with_reducible apply Does.step (h' := State.entryDone_does ..)
    | with_reducible apply Does.step (h' := State.owe_does ..)
    | with_reducible apply Does.step (h' := State.answer_does ..)
    | with_reducible apply Does.step (h' := State.startNow_does ..)
    | with_reducible apply Does.ite
    | intro _
    | extract_lets
    | fail_if_no_progress beta_reduce
    | with_reducible apply Does.step (h' := Does.set_pwr ..)

theorem State.huskKeep_does (s : State) (p : Nat) (e : Stamp) (f : CanFrame) : Does [.side, .pwr, .free] s (State.huskKeep s p e f) := by
  unfold State.huskKeep
  repeat' first
    | exact rfl
    | with_reducible exact Does.refl _ _
    | with_reducible apply Does.step (h' := State.huskRecord_does ..)
    | with_reducible refine Does.step ?_ (Does.fst (by assumption) (State.huskRecord_does ..)) ?_
    | with_reducible apply Does.step (h' := State.healSides_does ..)
    | with_reducible apply Does.ite
    | split
    | intro _
    | extract_lets
    | fail_if_no_progress beta_reduce
    | with_reducible apply Does.step (h' := Does.set_pwr ..)

theorem State.huskCatch_does (s : State) (p : Nat) (e : Stamp) (f : CanFrame) : Does [.side, .pwr, .free] s (State.huskCatch s p e f) := by
  unfold State.huskCatch
  repeat' first
    | exact rfl
    | with_reducible exact Does.refl _ _
    | with_reducible apply Does.step (h' := State.huskKeep_does ..)
    | with_reducible apply Does.ite
    | intro _
    | extract_lets
    | fail_if_no_progress beta_reduce
    | with_reducible apply Does.step (h' := Does.set_pwr ..)

theorem State.huskFrame_does (s : State) (p : Nat) (e : Stamp) (f : CanFrame) : Does [.tb, .log, .od, .cls, .store, .link, .side, .pwr, .free] s (State.huskFrame s p e f) := by
  unfold State.huskFrame
  repeat' first
    | exact rfl
    | with_reducible exact Does.refl _ _
    | with_reducible apply Does.step (h' := State.huskCatch_does ..)
    | with_reducible apply Does.step (h' := State.reach_does ..)
    | with_reducible apply Does.step (h' := State.huskLate_does ..)
    | with_reducible apply Does.ite
    | intro _
    | extract_lets
    | fail_if_no_progress beta_reduce

theorem State.qualify_does (s : State) (w : WakeSrc) : Does [.pwr] s (State.qualify s w) := by
  unfold State.qualify
  repeat' first
    | exact rfl
    | with_reducible exact Does.refl _ _
    | with_reducible apply Does.ite
    | split
    | intro _
    | extract_lets
    | fail_if_no_progress beta_reduce
    | with_reducible apply Does.step (h' := Does.set_pwr ..)

theorem State.enter_does (s : State) (p : Path) (target : Fin 5) : Does [.od, .acc, .eng, .pods, .mem, .cel, .pwr] s (State.enter s p target) := by
  unfold State.enter
  repeat' first
    | exact rfl
    | with_reducible exact Does.refl _ _
    | with_reducible apply Does.step (h' := State.holdPods_does ..)
    | with_reducible apply Does.step (h' := State.owe_does ..)
    | extract_lets
    | fail_if_no_progress beta_reduce
    | with_reducible apply Does.step (h' := Does.set_pwr ..)

theorem State.busy_does (s : State) (e : PowerEntry) : Does [.log, .od, .acc, .store, .rep, .link, .fab, .eng, .pods, .mem, .cel, .side, .pwr, .out, .free] s (State.busy s e) := by
  unfold State.busy
  repeat' first
    | exact rfl
    | with_reducible exact Does.refl _ _
    | with_reducible apply Does.step (h' := State.entryOutcome_does (l := [.log, .od, .acc, .store, .rep, .link, .fab, .eng, .pods, .mem, .cel, .side, .pwr, .out, .free]) (hl := rfl) (hf0 := fun t a => ?_) ..)
    | with_reducible apply Does.step (h' := State.abandon_does ..)
    | with_reducible apply Does.step (h' := State.refuse_does ..)
    | extract_lets
    | fail_if_no_progress beta_reduce
    | exact Does.refl _ _

theorem State.enterOff_does (s : State) : Does [.tb, .log, .sess, .od, .acc, .ports, .cls, .store, .rep, .link, .fab, .sw, .eng, .pods, .net, .xbar, .mem, .cel, .side, .pst, .pwr, .test, .out] s (State.enterOff s) := by
  unfold State.enterOff
  extract_lets t
  have h : Does [.tb, .log, .sess, .od, .acc, .ports, .cls, .store, .rep, .link, .fab, .sw, .eng, .pods, .net, .xbar, .mem, .cel, .side, .pst, .pwr, .test, .out] s t := (((State.deleteQueues_does ..).weaken rfl).step (State.deleteQueues_does ..) rfl).step (State.powerOn_does ..) rfl
  clear_value t
  exact Does.any ⟨.inr rfl, .inl rfl, .inr rfl, .inr rfl, .inr rfl, .inr rfl, .inr rfl, .inl rfl, .inr rfl, .inr rfl, .inr rfl, .inr rfl, .inr rfl, .inr rfl, .inr rfl, .inr rfl, .inr rfl, .inr rfl, .inr rfl, .inl rfl, .inr rfl, .inr rfl, .inr rfl⟩ id (fun _ => ⟨by simp, fun i hi => absurd hi (by simp)⟩) (List.prefix_refl _) (fun _ => rfl) (Fin.le_refl _) h

theorem State.coreLost_does (s : State) (keepDram : Bool) : Does [.tb, .log, .sess, .od, .acc, .ports, .cls, .store, .rep, .link, .fab, .sw, .eng, .pods, .net, .xbar, .mem, .cel, .side, .pst, .pwr, .test] s (State.coreLost s keepDram) :=
  ⟨fun p hp => by cases p; (case out | free => rfl); all_goals exact (hp (by decide)).elim, rfl, fun h => by
    cases keepDram
    · exact Memory.wf_nil rfl
    · exact Memory.wf_filter _ rfl h, id, List.prefix_refl _, fun _ => rfl, Fin.le_refl _⟩

theorem State.enterDeep_does (s : State) (r : Retention) (target : Fin 5) : Does [.tb, .log, .sess, .od, .acc, .ports, .cls, .store, .rep, .link, .fab, .sw, .eng, .pods, .net, .xbar, .mem, .cel, .side, .pst, .pwr, .test, .out] s (State.enterDeep s r target) := by
  unfold State.enterDeep
  repeat' first
    | exact rfl
    | with_reducible exact Does.refl _ _
    | with_reducible apply Does.step (h' := State.coreLost_does ..)
    | with_reducible apply Does.step (h' := State.deleteQueues_does ..)
    | extract_lets
    | fail_if_no_progress beta_reduce
    | with_reducible apply Does.step (h' := Does.set_pwr ..)

theorem State.enterState_does (s : State) (target : Fin 5) : Does [.tb, .log, .sess, .od, .acc, .ports, .cls, .store, .rep, .link, .fab, .sw, .eng, .pods, .net, .xbar, .mem, .cel, .side, .pst, .pwr, .test, .out] s (State.enterState s target) := by
  unfold State.enterState
  repeat' first
    | exact rfl
    | with_reducible exact Does.refl _ _
    | with_reducible apply Does.step (h' := State.put_does ..)
    | with_reducible apply Does.step (h' := State.enterPark_does ..)
    | with_reducible apply Does.step (h' := State.enterOff_does ..)
    | with_reducible apply Does.step (h' := State.enterDeep_does ..)
    | with_reducible apply Does.ite
    | intro _
    | extract_lets
    | fail_if_no_progress beta_reduce

theorem State.quiescent_does (s0 : State) (wake : Option (Fin 3 × Fin 14)) : Does [.tb, .log, .sess, .od, .acc, .ports, .cls, .store, .rep, .link, .fab, .sw, .eng, .pods, .net, .xbar, .mem, .cel, .side, .pst, .pwr, .test, .out, .free] s0 (State.quiescent s0 wake) := by
  unfold State.quiescent
  repeat' first
    | exact rfl
    | with_reducible exact Does.refl _ _
    | with_reducible apply Does.step (h' := State.gateDone_does ..)
    | with_reducible apply Does.step (h' := State.busy_does ..)
    | with_reducible apply Does.step (h' := State.entryAnswer_does ..)
    | with_reducible apply Does.step (h' := State.turnBack_does ..)
    | with_reducible apply Does.step (h' := State.enterState_does ..)
    | with_reducible apply Does.ite
    | split
    | intro _
    | extract_lets
    | fail_if_no_progress beta_reduce

theorem execWakeQualified_does {src : WakeSrc} {s : State} {t : State} (h : execWakeQualified src s = .next t) : Does [.pwr] s t := by
  unfold execWakeQualified at h
  cases h
  repeat' first
    | exact rfl
    | with_reducible exact Does.refl _ _
    | with_reducible apply Does.step (h' := State.qualify_does ..)
    | extract_lets
    | fail_if_no_progress beta_reduce

theorem State.retarget_does (s : State) (e : PowerEntry) (p : Path) (target : Fin 5) : Does [.acc, .pwr] s (State.retarget s e p target) := by
  unfold State.retarget
  repeat' first
    | exact rfl
    | with_reducible exact Does.refl _ _
    | with_reducible apply Does.step (h' := State.owe_does ..)
    | extract_lets
    | fail_if_no_progress beta_reduce
    | with_reducible apply Does.step (h' := Does.set_pwr ..)

theorem State.enterWaking_does (s : State) (p : Path) : Does [.log, .od, .acc, .store, .rep, .link, .fab, .side, .out, .free] s (State.enterWaking s p) := by
  unfold State.enterWaking
  repeat' first
    | exact rfl
    | with_reducible exact Does.refl _ _
    | with_reducible apply Does.step (h' := State.answer_does ..)
    | with_reducible apply Does.step (h' := State.logE_does ..)
    | with_reducible apply Does.step (h' := State.put_does ..)
    | extract_lets
    | fail_if_no_progress beta_reduce

theorem State.cPower_does (s : State) (p : Path) (v : Nat) : Does [.log, .sess, .od, .acc, .store, .rep, .link, .fab, .eng, .pods, .mem, .cel, .side, .pwr, .out, .free] s (State.cPower s p v) := by
  unfold State.cPower
  repeat' first
    | exact rfl
    | with_reducible exact Does.refl _ _
    | with_reducible apply Does.step (h' := State.refuseCmd_does ..)
    | with_reducible apply Does.step (h' := State.answer_does ..)
    | with_reducible apply Does.step (h' := State.turnBack_does ..)
    | with_reducible apply Does.step (h' := State.parkWake_does ..)
    | with_reducible apply Does.step (h' := State.entryDone_does ..)
    | with_reducible apply Does.step (h' := State.owe_does ..)
    | with_reducible apply Does.step (h' := State.retarget_does ..)
    | with_reducible apply Does.step (h' := State.enterWaking_does ..)
    | with_reducible apply Does.step (h' := State.enter_does ..)
    | with_reducible apply Does.ite
    | split
    | intro _
    | extract_lets
    | fail_if_no_progress beta_reduce
    | with_reducible apply Does.step (h' := Does.set_pwr ..)

theorem execStart_does {path : Path} {p : W24} {s : State} {t : State} (h : execStart path p s = .next t) : Does [.log, .sess, .od, .acc, .ports, .cls, .store, .rep, .link, .fab, .eng, .pods, .net, .mem, .cel, .side, .pst, .pwr, .out, .free] s t := by
  unfold execStart at h
  cases h
  repeat' first
    | exact rfl
    | with_reducible exact Does.refl _ _
    | with_reducible apply Does.step (h' := State.requestWrite_does (l := [.log, .sess, .od, .acc, .ports, .cls, .store, .rep, .link, .fab, .eng, .pods, .net, .mem, .cel, .side, .pst, .pwr, .out, .free]) (hl := rfl) (hf0 := fun t => ?_) ..)
    | with_reducible apply Does.step (h' := State.cStart_does ..)
    | extract_lets
    | fail_if_no_progress beta_reduce
    | exact Does.refl _ _

theorem execQuiescenceTimeout_does {s : State} {t : State} (h : execQuiescenceTimeout s = .next t) : Does [.log, .od, .acc, .store, .rep, .link, .fab, .eng, .pods, .xbar, .mem, .cel, .side, .pwr, .out, .free] s t := by
  unfold execQuiescenceTimeout at h
  cases h
  repeat' first
    | exact rfl
    | with_reducible exact Does.refl _ _
    | with_reducible apply Does.step (h' := State.gateFail_does ..)
    | with_reducible apply Does.step (h' := State.busy_does ..)
    | split
    | extract_lets
    | fail_if_no_progress beta_reduce

theorem execHuskFrameCapture_does {port : Fin 8} {edge : Stamp} {frame : CanFrame} {s : State} {t : State} (h : execHuskFrameCapture port edge frame s = .next t) : Does [.tb, .log, .od, .cls, .store, .link, .side, .pwr, .free] s t := by
  unfold execHuskFrameCapture at h
  cases h
  repeat' first
    | exact rfl
    | with_reducible exact Does.refl _ _
    | with_reducible apply Does.step (h' := State.huskFrame_does ..)
    | extract_lets
    | fail_if_no_progress beta_reduce

theorem State.unqualify_does (s : State) (w : WakeSrc) : Does [.pwr] s (State.unqualify s w) := by
  unfold State.unqualify
  repeat' first
    | exact rfl
    | with_reducible exact Does.refl _ _
    | with_reducible apply Does.ite
    | split
    | intro _
    | extract_lets
    | fail_if_no_progress beta_reduce
    | with_reducible apply Does.step (h' := Does.set_pwr ..)

theorem execWakeQualificationFailed_does {src : WakeSrc} {s : State} {t : State} (h : execWakeQualificationFailed src s = .next t) : Does [.pwr] s t := by
  unfold execWakeQualificationFailed at h
  cases h
  repeat' first
    | exact rfl
    | with_reducible exact Does.refl _ _
    | with_reducible apply Does.step (h' := State.unqualify_does ..)
    | extract_lets
    | fail_if_no_progress beta_reduce

theorem execQuiescenceReached_does {wake : Option (Fin 3 × Fin 14)} {s : State} {t : State} (h : execQuiescenceReached wake s = .next t) : Does [.tb, .log, .sess, .od, .acc, .ports, .cls, .store, .rep, .link, .fab, .sw, .eng, .pods, .net, .xbar, .mem, .cel, .side, .pst, .pwr, .test, .out, .free] s t := by
  unfold execQuiescenceReached at h
  cases h
  repeat' first
    | exact rfl
    | with_reducible exact Does.refl _ _
    | with_reducible apply Does.step (h' := State.quiescent_does ..)
    | extract_lets
    | fail_if_no_progress beta_reduce

end Sys2Proof.Machine
end

