-- ==== Sys2Proof/Laws/DoesSupply.lean ====
section
/-! SUPPORT. What each operation of Machine/Supply.lean can do: the parts of the state it can touch, and what it keeps. -/

namespace Sys2Proof.Machine

theorem State.clockLost_does (s : State) : Does Part.core s (State.clockLost s) := by
  unfold State.clockLost
  repeat' first
    | exact rfl
    | with_reducible exact Does.refl _ _
    | with_reducible apply Does.step (h' := State.warmReset_does ..)
    | extract_lets
    | fail_if_no_progress beta_reduce
    | refine Does.any ⟨.inl rfl, .inr rfl, .inr rfl, .inr rfl, .inr rfl, .inr rfl, .inr rfl, .inr rfl, .inr rfl, .inr rfl, .inr rfl, .inr rfl, .inr rfl, .inr rfl, .inr rfl, .inr rfl, .inr rfl, .inr rfl, .inr rfl, .inl rfl, .inr rfl, .inr rfl, .inr rfl⟩ id id (List.prefix_refl _) (fun _ => rfl) (Fin.le_refl _) ?_

theorem execCoreBrownout_does {s : State} {t : State} (h : execCoreBrownout s = .next t) : Does Part.core s t := by
  unfold execCoreBrownout at h
  cases h
  repeat' first
    | exact rfl
    | with_reducible exact Does.refl _ _
    | with_reducible apply Does.step (h' := State.warmReset_does ..)
    | with_reducible apply Does.ite
    | intro _
    | extract_lets
    | fail_if_no_progress beta_reduce

theorem execRefclkLoss_does {s : State} {t : State} (h : execRefclkLoss s = .next t) : Does Part.core s t := by
  unfold execRefclkLoss at h
  cases h
  repeat' first
    | exact rfl
    | with_reducible exact Does.refl _ _
    | with_reducible apply Does.step (h' := State.clockLost_does ..)
    | with_reducible apply Does.ite
    | intro _
    | extract_lets
    | fail_if_no_progress beta_reduce

theorem State.trip_does (s : State) : Does [.tb, .log, .sess, .od, .acc, .ports, .cls, .store, .rep, .link, .fab, .sw, .eng, .pods, .net, .xbar, .mem, .cel, .side, .pst, .pwr, .test, .free] s (State.trip s) := by
  unfold State.trip
  extract_lets t
  have h : Does [.tb, .log, .sess, .od, .acc, .ports, .cls, .store, .rep, .link, .fab, .sw, .eng, .pods, .net, .xbar, .mem, .cel, .side, .pst, .pwr, .test, .free] s t := (State.coreLost_does ..).weaken rfl
  clear_value t
  refine Does.step ?_ (State.logE_does ..) rfl
  exact Does.any ⟨.inr rfl, .inr rfl, .inr rfl, .inr rfl, .inr rfl, .inr rfl, .inr rfl, .inr rfl, .inr rfl, .inr rfl, .inr rfl, .inr rfl, .inr rfl, .inr rfl, .inr rfl, .inr rfl, .inr rfl, .inr rfl, .inr rfl, .inl rfl, .inl rfl, .inr rfl, .inr rfl⟩
    id id (List.prefix_refl _) (fun _ => rfl) (Fin.le_refl _) h

theorem State.protect_does (s : State) (k1 : Option MgmtReq) : Does [.tb, .log, .sess, .od, .acc, .ports, .cls, .store, .rep, .link, .fab, .sw, .eng, .pods, .net, .xbar, .mem, .cel, .side, .pst, .pwr, .test, .free] s (State.protect s k1) := by
  unfold State.protect
  repeat' first
    | exact rfl
    | with_reducible exact Does.refl _ _
    | with_reducible apply Does.step (h' := State.setThrottle_does ..)
    | with_reducible apply Does.step (h' := State.trip_does ..)
    | with_reducible apply Does.ite
    | split
    | intro _
    | extract_lets
    | fail_if_no_progress beta_reduce

theorem State.untrip_does (s : State) : Does Part.core s (State.untrip s) := by
  unfold State.untrip
  repeat' first
    | exact rfl
    | with_reducible exact Does.refl _ _
    | with_reducible apply Does.step (h' := State.warmReset_does ..)
    | extract_lets
    | fail_if_no_progress beta_reduce
    | with_reducible apply Does.step (h' := Does.set_pwr ..)

theorem execThermalTripRelease_does {s : State} {t : State} (h : execThermalTripRelease s = .next t) : Does Part.core s t := by
  unfold execThermalTripRelease at h
  cases h
  repeat' first
    | exact rfl
    | with_reducible exact Does.refl _ _
    | with_reducible apply Does.step (h' := State.untrip_does ..)
    | with_reducible apply Does.ite
    | intro _
    | extract_lets
    | fail_if_no_progress beta_reduce

theorem State.captured_does (s : State) (i : TestInstr) (data : List Bool) : Does [.free] s (State.captured s i data).1 := by
  unfold State.captured
  repeat' first
    | exact rfl
    | with_reducible exact Does.refl _ _
    | with_reducible apply Does.step (h' := State.draw_does ..)
    | with_reducible refine Does.step ?_ (Does.snd (by assumption) (State.draw_does ..)) ?_
    | split
    | extract_lets
    | fail_if_no_progress beta_reduce

theorem State.scan_does (s : State) (i : TestInstr) (data : List Bool) : Does [.test, .out, .free] s (State.scan s i data) := by
  unfold State.scan
  repeat' first
    | exact rfl
    | with_reducible exact Does.refl _ _
    | with_reducible apply Does.step (h' := State.captured_does ..)
    | with_reducible refine Does.step ?_ (Does.fst (by assumption) (State.captured_does ..)) ?_
    | with_reducible apply Does.step (h' := State.send_does ..)
    | with_reducible apply Does.ite
    | intro _
    | extract_lets
    | fail_if_no_progress beta_reduce
    | with_reducible apply Does.step (h' := Does.set_test ..)

theorem execTestPortInstruction_does {instr : TestInstr} {data : List Bool} {s : State} {t : State} (h : execTestPortInstruction instr data s = .next t) : Does [.test, .out, .free] s t := by
  unfold execTestPortInstruction at h
  cases h
  repeat' first
    | exact rfl
    | with_reducible exact Does.refl _ _
    | with_reducible apply Does.step (h' := State.scan_does ..)
    | with_reducible apply Does.ite
    | intro _
    | extract_lets
    | fail_if_no_progress beta_reduce

theorem execChipWarmReset_does {cause : Fin 10} {s : State} {t : State} (h : execChipWarmReset cause s = .next t) : Does Part.core s t := by
  unfold execChipWarmReset at h
  cases h
  repeat' first
    | exact rfl
    | with_reducible exact Does.refl _ _
    | with_reducible apply Does.step (h' := State.warmReset_does ..)
    | with_reducible apply Does.ite
    | intro _
    | extract_lets
    | fail_if_no_progress beta_reduce

theorem execRailRetryTimer_does {s : State} {t : State} (h : execRailRetryTimer s = .next t) : Does [.pwr] s t := by
  unfold execRailRetryTimer at h
  cases h
  repeat' first
    | exact rfl
    | with_reducible exact Does.refl _ _
    | extract_lets
    | fail_if_no_progress beta_reduce
    | with_reducible apply Does.step (h' := Does.set_pwr ..)

theorem State.pmbusAlert_does (s : State) (faults : List (Nat × Nat)) : Does [.log, .od, .store, .link, .side, .out, .free] s (State.pmbusAlert s faults) := by
  unfold State.pmbusAlert
  repeat' first
    | exact rfl
    | with_reducible exact Does.refl _ _
    | with_reducible apply Does.step (h' := State.logE_does ..)
    | with_reducible apply Does.step (h' := State.send_does ..)
    | with_reducible apply Does.fold
    | intro _
    | extract_lets
    | fail_if_no_progress beta_reduce

theorem State.coldPin_does (s : State) (cause : Nat) : Does [.tb, .log, .sess, .od, .acc, .ports, .cls, .store, .rep, .link, .fab, .sw, .eng, .pods, .net, .xbar, .mem, .cel, .side, .pst, .pwr] s (State.coldPin s cause) := by
  unfold State.coldPin
  repeat' first
    | exact rfl
    | with_reducible exact Does.refl _ _
    | with_reducible apply Does.step (h' := State.coldReset_does ..)
    | with_reducible apply Does.ite
    | intro _
    | extract_lets
    | fail_if_no_progress beta_reduce

theorem execJtagDebugAccess_does {coldReset : Bool} {req : XReq} {s : State} {t : State} (h : execJtagDebugAccess coldReset req s = .next t) : Does Part.chip s t := by
  unfold execJtagDebugAccess at h
  cases h
  repeat' first
    | exact rfl
    | with_reducible exact Does.refl _ _
    | with_reducible apply Does.step (h' := State.coldPin_does ..)
    | with_reducible apply Does.step (h' := State.transact_does ..)
    | with_reducible apply Does.ite
    | intro _
    | extract_lets
    | fail_if_no_progress beta_reduce

theorem execColdReset_does {debug : Bool} {s : State} {t : State} (h : execColdReset debug s = .next t) : Does [.tb, .log, .sess, .od, .acc, .ports, .cls, .store, .rep, .link, .fab, .sw, .eng, .pods, .net, .xbar, .mem, .cel, .side, .pst, .pwr] s t := by
  unfold execColdReset at h
  cases h
  repeat' first
    | exact rfl
    | with_reducible exact Does.refl _ _
    | with_reducible apply Does.step (h' := State.coldPin_does ..)
    | with_reducible apply Does.ite
    | intro _
    | extract_lets
    | fail_if_no_progress beta_reduce

theorem State.soften_does (s : State) (k1 : Option MgmtReq) : Does [.log, .od, .store, .link, .pods, .side, .pwr, .free] s (State.soften s k1) := by
  unfold State.soften
  repeat' first
    | exact rfl
    | with_reducible exact Does.refl _ _
    | with_reducible apply Does.step (h' := State.setThrottle_does ..)
    | with_reducible apply Does.ite
    | split
    | intro _
    | extract_lets
    | fail_if_no_progress beta_reduce

theorem State.railUp_does (s : State) (g : Nat) : Does [.pwr] s (State.railUp s g) := by
  unfold State.railUp
  repeat' first
    | exact rfl
    | with_reducible exact Does.refl _ _
    | with_reducible apply Does.ite
    | intro _
    | extract_lets
    | fail_if_no_progress beta_reduce
    | with_reducible apply Does.step (h' := Does.set_pwr ..)

theorem execReferenceClockReturn_does {s : State} {t : State} (h : execReferenceClockReturn s = .next t) : Does [.tb, .pwr] s t := by
  unfold execReferenceClockReturn at h
  cases h
  repeat' first
    | exact rfl
    | with_reducible exact Does.refl _ _
    | extract_lets
    | fail_if_no_progress beta_reduce
    | refine Does.any ⟨.inl rfl, .inr rfl, .inr rfl, .inr rfl, .inr rfl, .inr rfl, .inr rfl, .inr rfl, .inr rfl, .inr rfl, .inr rfl, .inr rfl, .inr rfl, .inr rfl, .inr rfl, .inr rfl, .inr rfl, .inr rfl, .inr rfl, .inl rfl, .inr rfl, .inr rfl, .inr rfl⟩ id id (List.prefix_refl _) (fun _ => rfl) (Fin.le_refl _) ?_

theorem execCrystalRunning_does {s : State} {t : State} (h : execCrystalRunning s = .next t) : Does [.pwr] s t := by
  unfold execCrystalRunning at h
  cases h
  repeat' first
    | exact rfl
    | with_reducible exact Does.refl _ _
    | with_reducible apply Does.ite
    | intro _
    | extract_lets
    | fail_if_no_progress beta_reduce
    | with_reducible apply Does.step (h' := Does.set_pwr ..)

theorem execRailInWindow_does {group : Fin 4} {s : State} {t : State} (h : execRailInWindow group s = .next t) : Does [.pwr] s t := by
  unfold execRailInWindow at h
  cases h
  repeat' first
    | exact rfl
    | with_reducible exact Does.refl _ _
    | with_reducible apply Does.step (h' := State.railUp_does ..)
    | extract_lets
    | fail_if_no_progress beta_reduce

theorem State.railsFail_does (s : State) (m : Nat) (mv : Nat) : Does [.log, .od, .store, .link, .mem, .cel, .side, .pwr, .free] s (State.railsFail s m mv) := by
  unfold State.railsFail
  refine Does.step ?_ (State.logE_does ..) rfl
  refine Does.any ⟨.inr rfl, .inr rfl, .inr rfl, .inr rfl, .inr rfl, .inr rfl, .inr rfl, .inr rfl, .inr rfl, .inr rfl, .inr rfl, .inr rfl, .inr rfl, .inr rfl, .inr rfl, .inr rfl, .inl ⟨rfl, rfl⟩, .inr rfl, .inr rfl, .inl rfl, .inr rfl, .inr rfl, .inr rfl⟩
    (fun h => ?_) id (List.prefix_refl _) (fun _ => rfl) (Fin.le_refl _) (Does.refl _ _)
  split
  · exact Memory.wf_nil rfl
  · exact Memory.wf_of_cells rfl h

theorem execThermalTrip_does {s : State} {t : State} (h : execThermalTrip s = .next t) : Does [.tb, .log, .sess, .od, .acc, .ports, .cls, .store, .rep, .link, .fab, .sw, .eng, .pods, .net, .xbar, .mem, .cel, .side, .pst, .pwr, .test, .free] s t := by
  unfold execThermalTrip at h
  cases h
  repeat' first
    | exact rfl
    | with_reducible exact Does.refl _ _
    | with_reducible apply Does.step (h' := State.trip_does ..)
    | with_reducible apply Does.ite
    | intro _
    | extract_lets
    | fail_if_no_progress beta_reduce

theorem execPower_does {path : Path} {req : PowerReq} {s : State} {t : State} (h : execPower path req s = .next t) : Does [.tb, .log, .sess, .od, .acc, .ports, .cls, .store, .rep, .link, .fab, .sw, .eng, .pods, .net, .xbar, .mem, .cel, .side, .pst, .pwr, .test, .out, .free] s t := by
  unfold execPower at h
  cases h
  repeat' first
    | exact rfl
    | with_reducible exact Does.refl _ _
    | with_reducible apply Does.step (h' := State.soften_does ..)
    | with_reducible apply Does.step (h' := State.requestWrite_does (l := [.tb, .log, .sess, .od, .acc, .ports, .cls, .store, .rep, .link, .fab, .sw, .eng, .pods, .net, .xbar, .mem, .cel, .side, .pst, .pwr, .test, .out, .free]) (hl := rfl) (hf0 := fun t => ?_) ..)
    | with_reducible apply Does.step (h' := State.protect_does ..)
    | with_reducible apply Does.step (h' := State.cPower_does ..)
    | extract_lets
    | fail_if_no_progress beta_reduce
    | exact Does.refl _ _

theorem execPmbusAlert_does {faults : List (Nat × Nat)} {s : State} {t : State} (h : execPmbusAlert faults s = .next t) : Does [.log, .od, .store, .link, .side, .out, .free] s t := by
  unfold execPmbusAlert at h
  cases h
  repeat' first
    | exact rfl
    | with_reducible exact Does.refl _ _
    | with_reducible apply Does.step (h' := State.pmbusAlert_does ..)
    | with_reducible apply Does.ite
    | intro _
    | extract_lets
    | fail_if_no_progress beta_reduce

theorem execRailEnableTimeout_does {monitor : Fin 24} {mv : Nat} {s : State} {t : State} (h : execRailEnableTimeout monitor mv s = .next t) : Does [.log, .od, .store, .link, .mem, .cel, .side, .pwr, .free] s t := by
  unfold execRailEnableTimeout at h
  cases h
  repeat' first
    | exact rfl
    | with_reducible exact Does.refl _ _
    | with_reducible apply Does.step (h' := State.railsFail_does ..)
    | with_reducible apply Does.ite
    | intro _
    | extract_lets
    | fail_if_no_progress beta_reduce

theorem execPowerOnReset_does {s : State} {t : State} (h : execPowerOnReset s = .next t) : Does [.tb, .log, .sess, .od, .acc, .ports, .cls, .store, .rep, .link, .fab, .sw, .eng, .pods, .net, .xbar, .mem, .cel, .side, .pst, .pwr, .test] s t := by
  unfold execPowerOnReset at h
  cases h
  repeat' first
    | exact rfl
    | with_reducible exact Does.refl _ _
    | with_reducible apply Does.step (h' := State.powerOn_does ..)
    | extract_lets
    | fail_if_no_progress beta_reduce

end Sys2Proof.Machine
end

