-- ==== Sys2Proof/Laws/DoesDictionary.lean ====
section
/-! SUPPORT. What each operation of Machine/Dictionary.lean can do: the parts of the state it can touch, and what it keeps. -/

namespace Sys2Proof.Machine

theorem State.readWindow_does (s : State) (idx : Nat) (sub : Nat) : Does [.od, .cel] s (State.readWindow s idx sub) := by
  unfold State.readWindow
  repeat' first
    | exact rfl
    | with_reducible exact Does.refl _ _
    | with_reducible apply Does.step (h' := State.readSides_does ..)
    | extract_lets
    | fail_if_no_progress beta_reduce

theorem State.endTransfer_does (s : State) (code : BitVec 32) : Does [.log, .od, .acc, .store, .rep, .link, .fab, .side, .out, .free] s (State.endTransfer s code) := by
  unfold State.endTransfer
  repeat' first
    | exact rfl
    | with_reducible exact Does.refl _ _
    | with_reducible apply Does.step (h' := State.refuse_does ..)
    | split
    | extract_lets
    | fail_if_no_progress beta_reduce
    | with_reducible apply Does.step (h' := Does.set_acc ..)

theorem State.command_does (s : State) (p : Path) (v : Nat) : Does Part.chip s (State.command s p v) := by
  unfold State.command
  repeat' first
    | exact rfl
    | with_reducible exact Does.refl _ _
    | with_reducible apply Does.step (h' := State.cArm_does ..)
    | with_reducible apply Does.step (h' := State.cStart_does ..)
    | with_reducible apply Does.step (h' := State.cStop_does ..)
    | with_reducible apply Does.step (h' := State.cDisarm_does ..)
    | with_reducible apply Does.step (h' := State.cMark_does ..)
    | with_reducible apply Does.step (h' := State.cSwitch_does ..)
    | with_reducible apply Does.step (h' := State.cPower_does ..)
    | with_reducible apply Does.step (h' := State.refuseCmd_does ..)
    | split
    | extract_lets
    | fail_if_no_progress beta_reduce

theorem State.imageChanged_does (s : State) (p : Nat) (old : Nat) : Does [.log, .od, .store, .link, .eng, .pods, .xbar, .mem, .cel, .side, .free] s (State.imageChanged s p old) := by
  unfold State.imageChanged
  repeat' first
    | exact rfl
    | with_reducible exact Does.refl _ _
    | with_reducible apply Does.step (h' := State.loadPod_does ..)
    | with_reducible apply Does.ite
    | intro _
    | extract_lets
    | fail_if_no_progress beta_reduce

theorem State.stored_does (s : State) (idx : Nat) (sub : Nat) (old : Nat) : Does [.log, .od, .ports, .cls, .store, .rep, .link, .fab, .eng, .pods, .net, .xbar, .mem, .cel, .side, .out, .free] s (State.stored s idx sub old) := by
  unfold State.stored
  repeat' first
    | exact rfl
    | with_reducible exact Does.refl _ _
    | with_reducible apply Does.step (h' := State.applyEnables_does ..)
    | with_reducible apply Does.step (h' := State.restPort_does ..)
    | with_reducible apply Does.step (h' := State.applyFabric_does ..)
    | with_reducible apply Does.step (h' := State.remoteWindows_does ..)
    | with_reducible apply Does.step (h' := State.setLpath_does ..)
    | with_reducible apply Does.step (h' := State.imageChanged_does ..)
    | with_reducible apply Does.ite
    | intro _
    | extract_lets
    | fail_if_no_progress beta_reduce

theorem State.saved_does (s : State) (idx : Nat) (sub : Nat) : Does [.pst] s (State.saved s idx sub) := by
  unfold State.saved
  repeat' first
    | exact rfl
    | with_reducible exact Does.refl _ _
    | with_reducible apply Does.step (h' := State.wrote_does ..)
    | with_reducible apply Does.ite
    | intro _
    | extract_lets
    | fail_if_no_progress beta_reduce

theorem State.wPlain_does (s : State) (p : Path) (idx : Nat) (sub : Nat) (v : Nat) : Does [.log, .od, .acc, .ports, .cls, .store, .rep, .link, .fab, .eng, .pods, .net, .xbar, .mem, .cel, .side, .pst, .out, .free] s (State.wPlain s p idx sub v) := by
  unfold State.wPlain
  repeat' first
    | exact rfl
    | with_reducible exact Does.refl _ _
    | with_reducible apply Does.step (h' := State.refuseLog_does ..)
    | with_reducible apply Does.step (h' := State.answer_does ..)
    | with_reducible apply Does.step (h' := State.stored_does ..)
    | with_reducible apply Does.step (h' := State.saved_does ..)
    | with_reducible apply Does.step (h' := State.put_does ..)
    | with_reducible apply Does.ite
    | intro _
    | extract_lets
    | fail_if_no_progress beta_reduce

theorem State.wValue_does (s : State) (p : Path) (idx : Nat) (sub : Nat) (v : Nat) : Does Part.chip s (State.wValue s p idx sub v) := by
  unfold State.wValue
  repeat' first
    | exact rfl
    | with_reducible exact Does.refl _ _
    | with_reducible apply Does.step (h' := State.command_does ..)
    | with_reducible apply Does.step (h' := State.cPower_does ..)
    | with_reducible apply Does.step (h' := State.wUtc_does ..)
    | with_reducible apply Does.step (h' := State.wCommitMap_does ..)
    | with_reducible apply Does.step (h' := State.wCommitTables_does ..)
    | with_reducible apply Does.step (h' := State.wCopyTables_does ..)
    | with_reducible apply Does.step (h' := State.wSave_does ..)
    | with_reducible apply Does.step (h' := State.wUpdate_does ..)
    | with_reducible apply Does.step (h' := State.wDeleteImage_does ..)
    | with_reducible apply Does.step (h' := State.answer_does ..)
    | with_reducible apply Does.step (h' := State.wMemTest_does ..)
    | with_reducible apply Does.step (h' := State.wPlain_does ..)
    | split
    | extract_lets
    | fail_if_no_progress beta_reduce
    | with_reducible apply Does.step (h' := Does.set_acc ..)

theorem State.wObject_does (s : State) (p : Path) (idx : Nat) (sub : Nat) (off : Nat) (data : List Byte) : Does Part.chip s (State.wObject s p idx sub off data) := by
  unfold State.wObject
  repeat' first
    | exact rfl
    | with_reducible exact Does.refl _ _
    | with_reducible apply Does.step (h' := State.refuse_does ..)
    | with_reducible apply Does.step (h' := State.wFirmware_does ..)
    | with_reducible apply Does.step (h' := State.wPodImage_does ..)
    | with_reducible apply Does.step (h' := State.wImageKey_does ..)
    | with_reducible apply Does.step (h' := State.wWindow_does ..)
    | with_reducible apply Does.step (h' := State.wValue_does ..)
    | with_reducible apply Does.ite
    | split
    | intro _
    | extract_lets
    | fail_if_no_progress beta_reduce

theorem State.usdoSegment_does (s : State) (n : Byte) (data : List Byte) (last : Bool) : Does Part.chip s (State.usdoSegment s n data last) := by
  unfold State.usdoSegment
  repeat' first
    | exact rfl
    | with_reducible exact Does.refl _ _
    | with_reducible apply Does.step (h' := State.refuse_does ..)
    | with_reducible apply Does.step (h' := State.endTransfer_does ..)
    | with_reducible apply Does.step (h' := State.requestWrite_does (l := Part.chip) (hl := rfl) (hf0 := fun t => ?_) ..)
    | with_reducible apply Does.step (h' := State.wObject_does ..)
    | with_reducible apply Does.step (h' := State.answer_does ..)
    | with_reducible apply Does.ite
    | split
    | intro _
    | extract_lets
    | fail_if_no_progress beta_reduce
    | with_reducible apply Does.step (h' := Does.set_acc ..)
    | exact Does.refl _ _

theorem execObjectWrite_does {path : Path} {idx : BitVec 16} {sub : Byte} {data : List Byte} {s : State} {t : State} (h : execObjectWrite path idx sub data s = .next t) : Does Part.chip s t := by
  unfold execObjectWrite at h
  cases h
  repeat' first
    | exact rfl
    | with_reducible exact Does.refl _ _
    | with_reducible apply Does.step (h' := State.requestWrite_does (l := Part.chip) (hl := rfl) (hf0 := fun t => ?_) ..)
    | with_reducible apply Does.step (h' := State.wObject_does ..)
    | extract_lets
    | fail_if_no_progress beta_reduce
    | exact Does.refl _ _

theorem State.rObject_does (s : State) (p : Path) (idx : Nat) (sub : Nat) (off : Nat) (want : Nat) : Does [.log, .od, .acc, .store, .rep, .link, .fab, .cel, .side, .out, .free] s (State.rObject s p idx sub off want) := by
  unfold State.rObject
  repeat' first
    | exact rfl
    | with_reducible exact Does.refl _ _
    | with_reducible apply Does.step (h' := State.refuse_does ..)
    | with_reducible apply Does.step (h' := State.readWindow_does ..)
    | with_reducible apply Does.step (h' := State.rEpoch_does ..)
    | with_reducible apply Does.step (h' := State.rTick_does ..)
    | with_reducible apply Does.step (h' := State.rLog_does ..)
    | with_reducible apply Does.step (h' := State.answer_does ..)
    | with_reducible apply Does.ite
    | split
    | intro _
    | extract_lets
    | fail_if_no_progress beta_reduce

theorem State.usdoUpload_does (s : State) (n : Byte) : Does [.log, .od, .acc, .store, .rep, .link, .fab, .side, .out, .free] s (State.usdoUpload s n) := by
  unfold State.usdoUpload
  repeat' first
    | exact rfl
    | with_reducible exact Does.refl _ _
    | with_reducible apply Does.step (h' := State.refuse_does ..)
    | with_reducible apply Does.step (h' := State.endTransfer_does ..)
    | with_reducible apply Does.step (h' := State.usdoAnswer_does ..)
    | with_reducible apply Does.step (h' := State.send_does ..)
    | with_reducible apply Does.ite
    | split
    | intro _
    | extract_lets
    | fail_if_no_progress beta_reduce
    | with_reducible apply Does.step (h' := Does.set_acc ..)

theorem State.usdo_does (s : State) (k1 : Usdo) : Does Part.chip s (State.usdo s k1) := by
  unfold State.usdo
  repeat' first
    | exact rfl
    | with_reducible exact Does.refl _ _
    | with_reducible apply Does.step (h' := State.refuse_does ..)
    | with_reducible apply Does.step (h' := State.request_does (l := Part.chip) (hl := rfl) (hf0 := fun t => ?_) ..)
    | with_reducible apply Does.step (h' := State.endTransfer_does ..)
    | with_reducible apply Does.step (h' := State.rObject_does ..)
    | with_reducible apply Does.step (h' := State.requestWrite_does (l := Part.chip) (hl := rfl) (hf0 := fun t => ?_) ..)
    | with_reducible apply Does.step (h' := State.wObject_does ..)
    | with_reducible apply Does.step (h' := State.answer_does ..)
    | with_reducible apply Does.step (h' := State.usdoSegment_does ..)
    | with_reducible apply Does.step (h' := State.usdoUpload_does ..)
    | split
    | extract_lets
    | fail_if_no_progress beta_reduce
    | with_reducible apply Does.step (h' := Does.set_acc ..)
    | exact Does.refl _ _

theorem State.xMgmt_does (s : State) (w : XReq) : Does Part.chip s (State.xMgmt s w).1 := by
  unfold State.xMgmt
  repeat' first
    | exact rfl
    | with_reducible exact Does.refl _ _
    | with_reducible apply Does.step (h' := State.transact_does ..)
    | with_reducible apply Does.step (h' := State.draw_does ..)
    | with_reducible refine Does.step ?_ (Does.snd (by assumption) (State.draw_does ..)) ?_
    | split
    | split
    | intro _
    | extract_lets
    | fail_if_no_progress beta_reduce

theorem State.mgmtMemory_does (s : State) (write : Bool) (a : Nat) (n : Nat) (data : List Byte) (got : List Byte) (done : Nat) (k7 : Nat) : Does Part.chip s (State.mgmtMemory s write a n data got done k7).1 := by
  induction k7 generalizing s write a n data got done with
  | zero =>
    unfold State.mgmtMemory
    repeat' first
      | exact rfl
      | with_reducible exact Does.refl _ _
      | with_reducible apply Does.step (h' := ih ..)
      | with_reducible refine Does.step ?_ (Does.fst (by assumption) (ih ..)) ?_
      | with_reducible apply Does.step (h' := State.xMgmt_does ..)
      | with_reducible refine Does.step ?_ (Does.fst (by assumption) (State.xMgmt_does ..)) ?_
      | split
      | split
      | intro _
      | extract_lets
      | fail_if_no_progress beta_reduce
  | succ k ih =>
    unfold State.mgmtMemory
    repeat' first
      | exact rfl
      | with_reducible exact Does.refl _ _
      | with_reducible apply Does.step (h' := ih ..)
      | with_reducible refine Does.step ?_ (Does.fst (by assumption) (ih ..)) ?_
      | with_reducible apply Does.step (h' := State.xMgmt_does ..)
      | with_reducible refine Does.step ?_ (Does.fst (by assumption) (State.xMgmt_does ..)) ?_
      | split
      | split
      | intro _
      | extract_lets
      | fail_if_no_progress beta_reduce

theorem State.serveMemory_does (s : State) (node tag : Byte) (write : Bool) (a n : Nat) (data : List Byte) : Does Part.chip s (State.serveMemory s node tag write a n data) := by
  unfold State.serveMemory
  extract_lets r
  have h : Does Part.chip s r.1 := by
    unfold r
    split
    · exact Does.refl _ _
    · exact (State.mgmtMemory_does ..).weaken rfl
  clear_value r
  exact Does.ite (fun _ => h.step (State.sendTo_does ..) rfl) fun _ => h

theorem State.serveMgmt_does (s : State) (node : Byte) (b : List Byte) : Does Part.chip s (State.serveMgmt s node b) := by
  unfold State.serveMgmt
  repeat' first
    | exact rfl
    | with_reducible exact Does.refl _ _
    | with_reducible apply Does.step (h' := State.serveMemory_does ..)
    | with_reducible apply Does.step (h' := State.rObject_does ..)
    | with_reducible apply Does.step (h' := State.wObject_does ..)
    | with_reducible apply Does.ite
    | intro _
    | extract_lets
    | fail_if_no_progress beta_reduce
    | with_reducible apply Does.step (h' := Does.set_acc ..)

theorem execMgmtRequestReceived_does {k : Fin 8} {flits : List Flit} {s : State} {t : State} (h : execMgmtRequestReceived k flits s = .next t) : Does Part.chip s t := by
  unfold execMgmtRequestReceived at h
  cases h
  repeat' first
    | exact rfl
    | with_reducible exact Does.refl _ _
    | with_reducible apply Does.step (h' := State.rxMessage_does (l := Part.chip) (hl := rfl) (hf0 := fun t => ?_) ..)
    | with_reducible apply Does.step (h' := State.serveMgmt_does ..)
    | with_reducible apply Does.step (h' := State.violate_does ..)
    | with_reducible apply Does.ite
    | split
    | intro _
    | extract_lets
    | fail_if_no_progress beta_reduce
    | exact Does.refl _ _

theorem State.boxLong_does (s : State) (p : Path) (write : Bool) (idx : Nat) (sub : Nat) : Does [.log, .od, .acc, .store, .rep, .link, .fab, .side, .out, .free] s (State.boxLong s p write idx sub) := by
  unfold State.boxLong
  repeat' first
    | exact rfl
    | with_reducible exact Does.refl _ _
    | with_reducible apply Does.step (h' := State.refuse_does ..)
    | with_reducible apply Does.ite
    | split
    | intro _
    | extract_lets
    | fail_if_no_progress beta_reduce

theorem State.boxServe_does (s : State) (ctl : Bool) (req : BitVec 32) : Does Part.chip s (State.boxServe s ctl req) := by
  unfold State.boxServe
  repeat' first
    | exact rfl
    | with_reducible exact Does.refl _ _
    | with_reducible apply Does.step (h' := State.boxLong_does ..)
    | with_reducible apply Does.step (h' := State.refuse_does ..)
    | with_reducible apply Does.step (h' := State.request_does (l := Part.chip) (hl := rfl) (hf0 := fun t => ?_) ..)
    | with_reducible apply Does.step (h' := State.wObject_does ..)
    | with_reducible apply Does.step (h' := State.rObject_does ..)
    | with_reducible apply Does.ite
    | intro _
    | extract_lets
    | fail_if_no_progress beta_reduce
    | exact Does.refl _ _

theorem State.boxGo_does (s : State) (ctl : Bool) (stat : BitVec 32) (req : BitVec 32) (len : BitVec 13) (off : BitVec 32) (data : List Byte) : Does Part.chip s (State.boxGo s ctl stat req len off data) := by
  unfold State.boxGo
  repeat' first
    | exact rfl
    | with_reducible exact Does.refl _ _
    | with_reducible apply Does.step (h' := State.logE_does ..)
    | with_reducible apply Does.step (h' := State.setBox_does ..)
    | with_reducible apply Does.step (h' := State.boxServe_does ..)
    | with_reducible apply Does.ite
    | intro _
    | extract_lets
    | fail_if_no_progress beta_reduce

theorem execUsdoRequest_does {frame : Usdo} {s : State} {t : State} (h : execUsdoRequest frame s = .next t) : Does Part.chip s t := by
  unfold execUsdoRequest at h
  cases h
  repeat' first
    | exact rfl
    | with_reducible exact Does.refl _ _
    | with_reducible apply Does.step (h' := State.usdo_does ..)
    | with_reducible apply Does.ite
    | intro _
    | extract_lets
    | fail_if_no_progress beta_reduce

theorem execMbxGo_does {ctl : Bool} {stat : BitVec 32} {req : BitVec 32} {len : BitVec 13} {off : BitVec 32} {data : List Byte} {s : State} {t : State} (h : execMbxGo ctl stat req len off data s = .next t) : Does Part.chip s t := by
  unfold execMbxGo at h
  cases h
  repeat' first
    | exact rfl
    | with_reducible exact Does.refl _ _
    | with_reducible apply Does.step (h' := State.boxGo_does ..)
    | with_reducible apply Does.ite
    | intro _
    | extract_lets
    | fail_if_no_progress beta_reduce

theorem execHeartbeatProducerTimer_does {s : State} {t : State} (h : execHeartbeatProducerTimer s = .next t) : Does [.rep] s t := by
  unfold execHeartbeatProducerTimer at h
  cases h
  repeat' first
    | exact rfl
    | with_reducible exact Does.refl _ _
    | with_reducible apply Does.step (h' := State.canOwn_does ..)
    | with_reducible apply Does.ite
    | intro _
    | extract_lets
    | fail_if_no_progress beta_reduce

theorem execUsdoSegmentTimeout_does {s : State} {t : State} (h : execUsdoSegmentTimeout s = .next t) : Does [.log, .od, .acc, .store, .rep, .link, .fab, .side, .out, .free] s t := by
  unfold execUsdoSegmentTimeout at h
  cases h
  repeat' first
    | exact rfl
    | with_reducible exact Does.refl _ _
    | with_reducible apply Does.step (h' := State.endTransfer_does ..)
    | with_reducible apply Does.ite
    | intro _
    | extract_lets
    | fail_if_no_progress beta_reduce

end Sys2Proof.Machine
end

