-- ==== Sys2Proof/Laws/DoesEngAlu.lean ====
section
/-! SUPPORT. What each operation of Machine/EngAlu.lean can do: the parts of the state it can touch, and what it keeps. -/

namespace Sys2Proof.Machine

theorem State.aluRow_does (s : State) (e : EngN) (u : Bool) (long : Bool) (sub : Nat) (a : L48) : Does Part.chip s (State.aluRow s e u long sub a) := by
  unfold State.aluRow
  repeat' first
    | exact rfl
    | with_reducible exact Does.refl _ _
    | with_reducible apply Does.step (h' := State.issue_does ..)
    | with_reducible apply Does.ite
    | intro _
    | extract_lets
    | fail_if_no_progress beta_reduce

theorem execAluMin_does {eng : EngN} {u : Bool} {long : Bool} {a : L48} {s : State} {t : State} (h : execAluMin eng u long a s = .next t) : Does Part.chip s t := by
  unfold execAluMin at h
  cases h
  repeat' first
    | exact rfl
    | with_reducible exact Does.refl _ _
    | with_reducible apply Does.step (h' := State.aluRow_does ..)
    | extract_lets
    | fail_if_no_progress beta_reduce

theorem execAluXor_does {eng : EngN} {u : Bool} {long : Bool} {a : L48} {s : State} {t : State} (h : execAluXor eng u long a s = .next t) : Does Part.chip s t := by
  unfold execAluXor at h
  cases h
  repeat' first
    | exact rfl
    | with_reducible exact Does.refl _ _
    | with_reducible apply Does.step (h' := State.aluRow_does ..)
    | extract_lets
    | fail_if_no_progress beta_reduce

theorem execAluNot_does {eng : EngN} {u : Bool} {long : Bool} {a : L48} {s : State} {t : State} (h : execAluNot eng u long a s = .next t) : Does Part.chip s t := by
  unfold execAluNot at h
  cases h
  repeat' first
    | exact rfl
    | with_reducible exact Does.refl _ _
    | with_reducible apply Does.step (h' := State.aluRow_does ..)
    | extract_lets
    | fail_if_no_progress beta_reduce

theorem execAluOr_does {eng : EngN} {u : Bool} {long : Bool} {a : L48} {s : State} {t : State} (h : execAluOr eng u long a s = .next t) : Does Part.chip s t := by
  unfold execAluOr at h
  cases h
  repeat' first
    | exact rfl
    | with_reducible exact Does.refl _ _
    | with_reducible apply Does.step (h' := State.aluRow_does ..)
    | extract_lets
    | fail_if_no_progress beta_reduce

theorem execAluAbs_does {eng : EngN} {u : Bool} {long : Bool} {a : L48} {s : State} {t : State} (h : execAluAbs eng u long a s = .next t) : Does Part.chip s t := by
  unfold execAluAbs at h
  cases h
  repeat' first
    | exact rfl
    | with_reducible exact Does.refl _ _
    | with_reducible apply Does.step (h' := State.aluRow_does ..)
    | extract_lets
    | fail_if_no_progress beta_reduce

theorem execAluMax_does {eng : EngN} {u : Bool} {long : Bool} {a : L48} {s : State} {t : State} (h : execAluMax eng u long a s = .next t) : Does Part.chip s t := by
  unfold execAluMax at h
  cases h
  repeat' first
    | exact rfl
    | with_reducible exact Does.refl _ _
    | with_reducible apply Does.step (h' := State.aluRow_does ..)
    | extract_lets
    | fail_if_no_progress beta_reduce

theorem execAluAdd_does {eng : EngN} {u : Bool} {long : Bool} {a : L48} {s : State} {t : State} (h : execAluAdd eng u long a s = .next t) : Does Part.chip s t := by
  unfold execAluAdd at h
  cases h
  repeat' first
    | exact rfl
    | with_reducible exact Does.refl _ _
    | with_reducible apply Does.step (h' := State.aluRow_does ..)
    | extract_lets
    | fail_if_no_progress beta_reduce

theorem execAluPass_does {eng : EngN} {u : Bool} {long : Bool} {a : L48} {s : State} {t : State} (h : execAluPass eng u long a s = .next t) : Does Part.chip s t := by
  unfold execAluPass at h
  cases h
  repeat' first
    | exact rfl
    | with_reducible exact Does.refl _ _
    | with_reducible apply Does.step (h' := State.aluRow_does ..)
    | extract_lets
    | fail_if_no_progress beta_reduce

theorem execAluAnd_does {eng : EngN} {u : Bool} {long : Bool} {a : L48} {s : State} {t : State} (h : execAluAnd eng u long a s = .next t) : Does Part.chip s t := by
  unfold execAluAnd at h
  cases h
  repeat' first
    | exact rfl
    | with_reducible exact Does.refl _ _
    | with_reducible apply Does.step (h' := State.aluRow_does ..)
    | extract_lets
    | fail_if_no_progress beta_reduce

theorem execAluMinu_does {eng : EngN} {u : Bool} {long : Bool} {a : L48} {s : State} {t : State} (h : execAluMinu eng u long a s = .next t) : Does Part.chip s t := by
  unfold execAluMinu at h
  cases h
  repeat' first
    | exact rfl
    | with_reducible exact Does.refl _ _
    | with_reducible apply Does.step (h' := State.aluRow_does ..)
    | extract_lets
    | fail_if_no_progress beta_reduce

theorem execAluAndn_does {eng : EngN} {u : Bool} {long : Bool} {a : L48} {s : State} {t : State} (h : execAluAndn eng u long a s = .next t) : Does Part.chip s t := by
  unfold execAluAndn at h
  cases h
  repeat' first
    | exact rfl
    | with_reducible exact Does.refl _ _
    | with_reducible apply Does.step (h' := State.aluRow_does ..)
    | extract_lets
    | fail_if_no_progress beta_reduce

theorem execAluNeg_does {eng : EngN} {u : Bool} {long : Bool} {a : L48} {s : State} {t : State} (h : execAluNeg eng u long a s = .next t) : Does Part.chip s t := by
  unfold execAluNeg at h
  cases h
  repeat' first
    | exact rfl
    | with_reducible exact Does.refl _ _
    | with_reducible apply Does.step (h' := State.aluRow_does ..)
    | extract_lets
    | fail_if_no_progress beta_reduce

theorem execAluSubb_does {eng : EngN} {u : Bool} {long : Bool} {a : L48} {s : State} {t : State} (h : execAluSubb eng u long a s = .next t) : Does Part.chip s t := by
  unfold execAluSubb at h
  cases h
  repeat' first
    | exact rfl
    | with_reducible exact Does.refl _ _
    | with_reducible apply Does.step (h' := State.aluRow_does ..)
    | extract_lets
    | fail_if_no_progress beta_reduce

theorem execAluAddc_does {eng : EngN} {u : Bool} {long : Bool} {a : L48} {s : State} {t : State} (h : execAluAddc eng u long a s = .next t) : Does Part.chip s t := by
  unfold execAluAddc at h
  cases h
  repeat' first
    | exact rfl
    | with_reducible exact Does.refl _ _
    | with_reducible apply Does.step (h' := State.aluRow_does ..)
    | extract_lets
    | fail_if_no_progress beta_reduce

theorem execAluMaxu_does {eng : EngN} {u : Bool} {long : Bool} {a : L48} {s : State} {t : State} (h : execAluMaxu eng u long a s = .next t) : Does Part.chip s t := by
  unfold execAluMaxu at h
  cases h
  repeat' first
    | exact rfl
    | with_reducible exact Does.refl _ _
    | with_reducible apply Does.step (h' := State.aluRow_does ..)
    | extract_lets
    | fail_if_no_progress beta_reduce

theorem execAluSub_does {eng : EngN} {u : Bool} {long : Bool} {a : L48} {s : State} {t : State} (h : execAluSub eng u long a s = .next t) : Does Part.chip s t := by
  unfold execAluSub at h
  cases h
  repeat' first
    | exact rfl
    | with_reducible exact Does.refl _ _
    | with_reducible apply Does.step (h' := State.aluRow_does ..)
    | extract_lets
    | fail_if_no_progress beta_reduce

end Sys2Proof.Machine
end

