-- ==== Sys2Proof/Laws/DoesEngArith.lean ====
section
/-! SUPPORT. What each operation of Machine/EngArith.lean can do: the parts of the state it can touch, and what it keeps. -/

namespace Sys2Proof.Machine

theorem execChkClz_does {eng : EngN} {long : Bool} {v : L48} {s : State} {t : State} (h : execChkClz eng long v s = .next t) : Does Part.chip s t := by
  unfold execChkClz at h
  cases h
  repeat' first
    | exact rfl
    | with_reducible exact Does.refl _ _
    | with_reducible apply Does.step (h' := State.issue_does ..)
    | with_reducible apply Does.ite
    | intro _
    | extract_lets
    | fail_if_no_progress beta_reduce

theorem execMacMacu_does {eng : EngN} {y : W24} {s : State} {t : State} (h : execMacMacu eng y s = .next t) : Does Part.chip s t := by
  unfold execMacMacu at h
  cases h
  repeat' first
    | exact rfl
    | with_reducible exact Does.refl _ _
    | with_reducible apply Does.step (h' := State.issue_does ..)
    | extract_lets
    | fail_if_no_progress beta_reduce

theorem execMacClr_does {eng : EngN} {y : W24} {s : State} {t : State} (h : execMacClr eng y s = .next t) : Does Part.chip s t := by
  unfold execMacClr at h
  cases h
  repeat' first
    | exact rfl
    | with_reducible exact Does.refl _ _
    | with_reducible apply Does.step (h' := State.issue_does ..)
    | extract_lets
    | fail_if_no_progress beta_reduce

theorem execMacRd_does {eng : EngN} {y : W24} {s : State} {t : State} (h : execMacRd eng y s = .next t) : Does Part.chip s t := by
  unfold execMacRd at h
  cases h
  repeat' first
    | exact rfl
    | with_reducible exact Does.refl _ _
    | with_reducible apply Does.step (h' := State.issue_does ..)
    | extract_lets
    | fail_if_no_progress beta_reduce

theorem execChkParb_does {eng : EngN} {v : W24} {s : State} {t : State} (h : execChkParb eng v s = .next t) : Does Part.chip s t := by
  unfold execChkParb at h
  cases h
  repeat' first
    | exact rfl
    | with_reducible exact Does.refl _ _
    | with_reducible apply Does.step (h' := State.issue_does ..)
    | extract_lets
    | fail_if_no_progress beta_reduce

theorem execMacMsu_does {eng : EngN} {y : W24} {s : State} {t : State} (h : execMacMsu eng y s = .next t) : Does Part.chip s t := by
  unfold execMacMsu at h
  cases h
  repeat' first
    | exact rfl
    | with_reducible exact Does.refl _ _
    | with_reducible apply Does.step (h' := State.issue_does ..)
    | extract_lets
    | fail_if_no_progress beta_reduce

theorem State.shfRow_does (s : State) (e : EngN) (long : Bool) (sub : Nat) (v : L48) : Does Part.chip s (State.shfRow s e long sub v) := by
  unfold State.shfRow
  repeat' first
    | exact rfl
    | with_reducible exact Does.refl _ _
    | with_reducible apply Does.step (h' := State.issue_does ..)
    | with_reducible apply Does.ite
    | intro _
    | extract_lets
    | fail_if_no_progress beta_reduce

theorem execShfExts_does {eng : EngN} {long : Bool} {d : L48} {s : State} {t : State} (h : execShfExts eng long d s = .next t) : Does Part.chip s t := by
  unfold execShfExts at h
  cases h
  repeat' first
    | exact rfl
    | with_reducible exact Does.refl _ _
    | with_reducible apply Does.step (h' := State.shfRow_does ..)
    | extract_lets
    | fail_if_no_progress beta_reduce

theorem execChkStep8_does {eng : EngN} {v : W24} {s : State} {t : State} (h : execChkStep8 eng v s = .next t) : Does Part.chip s t := by
  unfold execChkStep8 at h
  cases h
  repeat' first
    | exact rfl
    | with_reducible exact Does.refl _ _
    | with_reducible apply Does.step (h' := State.issue_does ..)
    | extract_lets
    | fail_if_no_progress beta_reduce

theorem execChkPop_does {eng : EngN} {long : Bool} {v : L48} {s : State} {t : State} (h : execChkPop eng long v s = .next t) : Does Part.chip s t := by
  unfold execChkPop at h
  cases h
  repeat' first
    | exact rfl
    | with_reducible exact Does.refl _ _
    | with_reducible apply Does.step (h' := State.issue_does ..)
    | with_reducible apply Does.ite
    | intro _
    | extract_lets
    | fail_if_no_progress beta_reduce

theorem execShfShl_does {eng : EngN} {long : Bool} {d : L48} {s : State} {t : State} (h : execShfShl eng long d s = .next t) : Does Part.chip s t := by
  unfold execShfShl at h
  cases h
  repeat' first
    | exact rfl
    | with_reducible exact Does.refl _ _
    | with_reducible apply Does.step (h' := State.shfRow_does ..)
    | extract_lets
    | fail_if_no_progress beta_reduce

theorem execChkStep16_does {eng : EngN} {v : W24} {s : State} {t : State} (h : execChkStep16 eng v s = .next t) : Does Part.chip s t := by
  unfold execChkStep16 at h
  cases h
  repeat' first
    | exact rfl
    | with_reducible exact Does.refl _ _
    | with_reducible apply Does.step (h' := State.issue_does ..)
    | extract_lets
    | fail_if_no_progress beta_reduce

theorem execChkRevn_does {eng : EngN} {v : W24} {s : State} {t : State} (h : execChkRevn eng v s = .next t) : Does Part.chip s t := by
  unfold execChkRevn at h
  cases h
  repeat' first
    | exact rfl
    | with_reducible exact Does.refl _ _
    | with_reducible apply Does.step (h' := State.issue_does ..)
    | extract_lets
    | fail_if_no_progress beta_reduce

theorem execChkStep24_does {eng : EngN} {v : W24} {s : State} {t : State} (h : execChkStep24 eng v s = .next t) : Does Part.chip s t := by
  unfold execChkStep24 at h
  cases h
  repeat' first
    | exact rfl
    | with_reducible exact Does.refl _ _
    | with_reducible apply Does.step (h' := State.issue_does ..)
    | extract_lets
    | fail_if_no_progress beta_reduce

theorem execMacMac_does {eng : EngN} {y : W24} {s : State} {t : State} (h : execMacMac eng y s = .next t) : Does Part.chip s t := by
  unfold execMacMac at h
  cases h
  repeat' first
    | exact rfl
    | with_reducible exact Does.refl _ _
    | with_reducible apply Does.step (h' := State.issue_does ..)
    | extract_lets
    | fail_if_no_progress beta_reduce

theorem execShfIns_does {eng : EngN} {long : Bool} {d : L48} {s : State} {t : State} (h : execShfIns eng long d s = .next t) : Does Part.chip s t := by
  unfold execShfIns at h
  cases h
  repeat' first
    | exact rfl
    | with_reducible exact Does.refl _ _
    | with_reducible apply Does.step (h' := State.shfRow_does ..)
    | extract_lets
    | fail_if_no_progress beta_reduce

theorem execDivDivu_does {eng : EngN} {long : Bool} {n : L48} {s : State} {t : State} (h : execDivDivu eng long n s = .next t) : Does Part.chip s t := by
  unfold execDivDivu at h
  cases h
  repeat' first
    | exact rfl
    | with_reducible exact Does.refl _ _
    | with_reducible apply Does.step (h' := State.issue_does ..)
    | with_reducible apply Does.ite
    | intro _
    | extract_lets
    | fail_if_no_progress beta_reduce

theorem execShfRol_does {eng : EngN} {long : Bool} {d : L48} {s : State} {t : State} (h : execShfRol eng long d s = .next t) : Does Part.chip s t := by
  unfold execShfRol at h
  cases h
  repeat' first
    | exact rfl
    | with_reducible exact Does.refl _ _
    | with_reducible apply Does.step (h' := State.shfRow_does ..)
    | extract_lets
    | fail_if_no_progress beta_reduce

theorem execShfRor_does {eng : EngN} {long : Bool} {d : L48} {s : State} {t : State} (h : execShfRor eng long d s = .next t) : Does Part.chip s t := by
  unfold execShfRor at h
  cases h
  repeat' first
    | exact rfl
    | with_reducible exact Does.refl _ _
    | with_reducible apply Does.step (h' := State.shfRow_does ..)
    | extract_lets
    | fail_if_no_progress beta_reduce

theorem execChkPar_does {eng : EngN} {v : W24} {s : State} {t : State} (h : execChkPar eng v s = .next t) : Does Part.chip s t := by
  unfold execChkPar at h
  cases h
  repeat' first
    | exact rfl
    | with_reducible exact Does.refl _ _
    | with_reducible apply Does.step (h' := State.issue_does ..)
    | extract_lets
    | fail_if_no_progress beta_reduce

theorem execShfShr_does {eng : EngN} {long : Bool} {d : L48} {s : State} {t : State} (h : execShfShr eng long d s = .next t) : Does Part.chip s t := by
  unfold execShfShr at h
  cases h
  repeat' first
    | exact rfl
    | with_reducible exact Does.refl _ _
    | with_reducible apply Does.step (h' := State.shfRow_does ..)
    | extract_lets
    | fail_if_no_progress beta_reduce

theorem execShfSar_does {eng : EngN} {long : Bool} {d : L48} {s : State} {t : State} (h : execShfSar eng long d s = .next t) : Does Part.chip s t := by
  unfold execShfSar at h
  cases h
  repeat' first
    | exact rfl
    | with_reducible exact Does.refl _ _
    | with_reducible apply Does.step (h' := State.shfRow_does ..)
    | extract_lets
    | fail_if_no_progress beta_reduce

theorem execMacMul_does {eng : EngN} {y : W24} {s : State} {t : State} (h : execMacMul eng y s = .next t) : Does Part.chip s t := by
  unfold execMacMul at h
  cases h
  repeat' first
    | exact rfl
    | with_reducible exact Does.refl _ _
    | with_reducible apply Does.step (h' := State.issue_does ..)
    | extract_lets
    | fail_if_no_progress beta_reduce

theorem execMacMsuu_does {eng : EngN} {y : W24} {s : State} {t : State} (h : execMacMsuu eng y s = .next t) : Does Part.chip s t := by
  unfold execMacMsuu at h
  cases h
  repeat' first
    | exact rfl
    | with_reducible exact Does.refl _ _
    | with_reducible apply Does.step (h' := State.issue_does ..)
    | extract_lets
    | fail_if_no_progress beta_reduce

theorem execShfExt_does {eng : EngN} {long : Bool} {d : L48} {s : State} {t : State} (h : execShfExt eng long d s = .next t) : Does Part.chip s t := by
  unfold execShfExt at h
  cases h
  repeat' first
    | exact rfl
    | with_reducible exact Does.refl _ _
    | with_reducible apply Does.step (h' := State.shfRow_does ..)
    | extract_lets
    | fail_if_no_progress beta_reduce

theorem execChkRevb_does {eng : EngN} {v : W24} {s : State} {t : State} (h : execChkRevb eng v s = .next t) : Does Part.chip s t := by
  unfold execChkRevb at h
  cases h
  repeat' first
    | exact rfl
    | with_reducible exact Does.refl _ _
    | with_reducible apply Does.step (h' := State.issue_does ..)
    | extract_lets
    | fail_if_no_progress beta_reduce

theorem execMacMulu_does {eng : EngN} {y : W24} {s : State} {t : State} (h : execMacMulu eng y s = .next t) : Does Part.chip s t := by
  unfold execMacMulu at h
  cases h
  repeat' first
    | exact rfl
    | with_reducible exact Does.refl _ _
    | with_reducible apply Does.step (h' := State.issue_does ..)
    | extract_lets
    | fail_if_no_progress beta_reduce

theorem execChkRev_does {eng : EngN} {v : W24} {s : State} {t : State} (h : execChkRev eng v s = .next t) : Does Part.chip s t := by
  unfold execChkRev at h
  cases h
  repeat' first
    | exact rfl
    | with_reducible exact Does.refl _ _
    | with_reducible apply Does.step (h' := State.issue_does ..)
    | extract_lets
    | fail_if_no_progress beta_reduce

theorem execDivDiv_does {eng : EngN} {long : Bool} {n : L48} {s : State} {t : State} (h : execDivDiv eng long n s = .next t) : Does Part.chip s t := by
  unfold execDivDiv at h
  cases h
  repeat' first
    | exact rfl
    | with_reducible exact Does.refl _ _
    | with_reducible apply Does.step (h' := State.issue_does ..)
    | with_reducible apply Does.ite
    | intro _
    | extract_lets
    | fail_if_no_progress beta_reduce

end Sys2Proof.Machine
end

