-- ==== Sys2Proof/Laws/DoesEngCtl.lean ====
section
/-! SUPPORT. What each operation of Machine/EngCtl.lean can do: the parts of the state it can touch, and what it keeps. -/

namespace Sys2Proof.Machine

theorem execCtlJmp_does {eng : EngN} {v : W24} {s : State} {t : State} (h : execCtlJmp eng v s = .next t) : Does Part.chip s t := by
  unfold execCtlJmp at h
  cases h
  repeat' first
    | exact rfl
    | with_reducible exact Does.refl _ _
    | with_reducible apply Does.step (h' := State.issue_does ..)
    | extract_lets
    | fail_if_no_progress beta_reduce

theorem execRptExit_does {eng : EngN} {v : W24} {s : State} {t : State} (h : execRptExit eng v s = .next t) : Does Part.chip s t := by
  unfold execRptExit at h
  cases h
  repeat' first
    | exact rfl
    | with_reducible exact Does.refl _ _
    | with_reducible apply Does.step (h' := State.issue_does ..)
    | extract_lets
    | fail_if_no_progress beta_reduce

theorem State.cmpRow_does (s : State) (e : EngN) (long : Bool) (sub : Nat) (a : L48) : Does Part.chip s (State.cmpRow s e long sub a) := by
  unfold State.cmpRow
  repeat' first
    | exact rfl
    | with_reducible exact Does.refl _ _
    | with_reducible apply Does.step (h' := State.issue_does ..)
    | with_reducible apply Does.ite
    | intro _
    | extract_lets
    | fail_if_no_progress beta_reduce

theorem execCtlCmpNe_does {eng : EngN} {long : Bool} {a : L48} {s : State} {t : State} (h : execCtlCmpNe eng long a s = .next t) : Does Part.chip s t := by
  unfold execCtlCmpNe at h
  cases h
  repeat' first
    | exact rfl
    | with_reducible exact Does.refl _ _
    | with_reducible apply Does.step (h' := State.cmpRow_does ..)
    | extract_lets
    | fail_if_no_progress beta_reduce

theorem execCtlCall_does {eng : EngN} {v : W24} {s : State} {t : State} (h : execCtlCall eng v s = .next t) : Does Part.chip s t := by
  unfold execCtlCall at h
  cases h
  repeat' first
    | exact rfl
    | with_reducible exact Does.refl _ _
    | with_reducible apply Does.step (h' := State.issue_does ..)
    | extract_lets
    | fail_if_no_progress beta_reduce

theorem execCtlCmpLeu_does {eng : EngN} {long : Bool} {a : L48} {s : State} {t : State} (h : execCtlCmpLeu eng long a s = .next t) : Does Part.chip s t := by
  unfold execCtlCmpLeu at h
  cases h
  repeat' first
    | exact rfl
    | with_reducible exact Does.refl _ _
    | with_reducible apply Does.step (h' := State.cmpRow_does ..)
    | extract_lets
    | fail_if_no_progress beta_reduce

theorem State.stepString_does (s : State) (e : Nat) : Does Part.chip s (State.stepString s e) := by
  unfold State.stepString
  repeat' first
    | exact rfl
    | with_reducible exact Does.refl _ _
    | with_reducible apply Does.step (h' := State.passMeet_does ..)
    | with_reducible apply Does.step (h' := State.smvCycle_does ..)
    | with_reducible refine Does.step ?_ (Does.fst (by assumption) (State.smvCycle_does ..)) ?_
    | with_reducible apply Does.step (h' := State.ahead_does ..)
    | with_reducible apply Does.ite
    | intro _
    | extract_lets
    | fail_if_no_progress beta_reduce

theorem execSmvStep_does {eng : EngN} {s : State} {t : State} (h : execSmvStep eng s = .next t) : Does Part.chip s t := by
  unfold execSmvStep at h
  cases h
  repeat' first
    | exact rfl
    | with_reducible exact Does.refl _ _
    | with_reducible apply Does.step (h' := State.stepString_does ..)
    | extract_lets
    | fail_if_no_progress beta_reduce

theorem execSmvFill_does {eng : EngN} {v : W24} {s : State} {t : State} (h : execSmvFill eng v s = .next t) : Does Part.chip s t := by
  unfold execSmvFill at h
  cases h
  repeat' first
    | exact rfl
    | with_reducible exact Does.refl _ _
    | with_reducible apply Does.step (h' := State.issue_does ..)
    | extract_lets
    | fail_if_no_progress beta_reduce

theorem execCtlCmpLt_does {eng : EngN} {long : Bool} {a : L48} {s : State} {t : State} (h : execCtlCmpLt eng long a s = .next t) : Does Part.chip s t := by
  unfold execCtlCmpLt at h
  cases h
  repeat' first
    | exact rfl
    | with_reducible exact Does.refl _ _
    | with_reducible apply Does.step (h' := State.cmpRow_does ..)
    | extract_lets
    | fail_if_no_progress beta_reduce

theorem execSpuOut_does {eng : EngN} {v : W24} {s : State} {t : State} (h : execSpuOut eng v s = .next t) : Does Part.chip s t := by
  unfold execSpuOut at h
  cases h
  repeat' first
    | exact rfl
    | with_reducible exact Does.refl _ _
    | with_reducible apply Does.step (h' := State.issue_does ..)
    | extract_lets
    | fail_if_no_progress beta_reduce

theorem execCtlCmpEq_does {eng : EngN} {long : Bool} {a : L48} {s : State} {t : State} (h : execCtlCmpEq eng long a s = .next t) : Does Part.chip s t := by
  unfold execCtlCmpEq at h
  cases h
  repeat' first
    | exact rfl
    | with_reducible exact Does.refl _ _
    | with_reducible apply Does.step (h' := State.cmpRow_does ..)
    | extract_lets
    | fail_if_no_progress beta_reduce

theorem execCtlCmpLtu_does {eng : EngN} {long : Bool} {a : L48} {s : State} {t : State} (h : execCtlCmpLtu eng long a s = .next t) : Does Part.chip s t := by
  unfold execCtlCmpLtu at h
  cases h
  repeat' first
    | exact rfl
    | with_reducible exact Does.refl _ _
    | with_reducible apply Does.step (h' := State.cmpRow_does ..)
    | extract_lets
    | fail_if_no_progress beta_reduce

theorem execCtlCmpBit_does {eng : EngN} {a : W24} {s : State} {t : State} (h : execCtlCmpBit eng a s = .next t) : Does Part.chip s t := by
  unfold execCtlCmpBit at h
  cases h
  repeat' first
    | exact rfl
    | with_reducible exact Does.refl _ _
    | with_reducible apply Does.step (h' := State.issue_does ..)
    | extract_lets
    | fail_if_no_progress beta_reduce

theorem execCtlTrap_does {eng : EngN} {v : W24} {s : State} {t : State} (h : execCtlTrap eng v s = .next t) : Does Part.chip s t := by
  unfold execCtlTrap at h
  cases h
  repeat' first
    | exact rfl
    | with_reducible exact Does.refl _ _
    | with_reducible apply Does.step (h' := State.issue_does ..)
    | extract_lets
    | fail_if_no_progress beta_reduce

theorem execRptRep_does {eng : EngN} {c : W24} {s : State} {t : State} (h : execRptRep eng c s = .next t) : Does Part.chip s t := by
  unfold execRptRep at h
  cases h
  repeat' first
    | exact rfl
    | with_reducible exact Does.refl _ _
    | with_reducible apply Does.step (h' := State.issue_does ..)
    | extract_lets
    | fail_if_no_progress beta_reduce

theorem execSpuPoll_does {eng : EngN} {v : W24} {s : State} {t : State} (h : execSpuPoll eng v s = .next t) : Does Part.chip s t := by
  unfold execSpuPoll at h
  cases h
  repeat' first
    | exact rfl
    | with_reducible exact Does.refl _ _
    | with_reducible apply Does.step (h' := State.issue_does ..)
    | extract_lets
    | fail_if_no_progress beta_reduce

theorem State.queueMove_does (s : State) (e : Nat) (waited : Nat) : Does [.log, .od, .store, .rep, .link, .eng, .net, .cel, .side, .free] s (State.queueMove s e waited) := by
  unfold State.queueMove
  repeat' first
    | exact rfl
    | with_reducible exact Does.refl _ _
    | with_reducible apply Does.step (h' := State.handOff_does ..)
    | with_reducible apply Does.step (h' := State.bumpBy_does ..)
    | with_reducible apply Does.ite
    | intro _
    | extract_lets
    | fail_if_no_progress beta_reduce

theorem execCtlRfe_does {eng : EngN} {v : W24} {s : State} {t : State} (h : execCtlRfe eng v s = .next t) : Does Part.chip s t := by
  unfold execCtlRfe at h
  cases h
  repeat' first
    | exact rfl
    | with_reducible exact Does.refl _ _
    | with_reducible apply Does.step (h' := State.issue_does ..)
    | extract_lets
    | fail_if_no_progress beta_reduce

theorem execTsuNow_does {eng : EngN} {v : L48} {s : State} {t : State} (h : execTsuNow eng v s = .next t) : Does Part.chip s t := by
  unfold execTsuNow at h
  cases h
  repeat' first
    | exact rfl
    | with_reducible exact Does.refl _ _
    | with_reducible apply Does.step (h' := State.issue_does ..)
    | extract_lets
    | fail_if_no_progress beta_reduce

theorem execSpuIn_does {eng : EngN} {v : W24} {s : State} {t : State} (h : execSpuIn eng v s = .next t) : Does Part.chip s t := by
  unfold execSpuIn at h
  cases h
  repeat' first
    | exact rfl
    | with_reducible exact Does.refl _ _
    | with_reducible apply Does.step (h' := State.issue_does ..)
    | extract_lets
    | fail_if_no_progress beta_reduce

theorem execSmvScan_does {eng : EngN} {v : W24} {s : State} {t : State} (h : execSmvScan eng v s = .next t) : Does Part.chip s t := by
  unfold execSmvScan at h
  cases h
  repeat' first
    | exact rfl
    | with_reducible exact Does.refl _ _
    | with_reducible apply Does.step (h' := State.issue_does ..)
    | extract_lets
    | fail_if_no_progress beta_reduce

theorem execOutputQueueHandoff_does {eng : EngN} {waited : Nat} {s : State} {t : State} (h : execOutputQueueHandoff eng waited s = .next t) : Does [.log, .od, .store, .rep, .link, .eng, .net, .cel, .side, .free] s t := by
  unfold execOutputQueueHandoff at h
  cases h
  repeat' first
    | exact rfl
    | with_reducible exact Does.refl _ _
    | with_reducible apply Does.step (h' := State.queueMove_does ..)
    | with_reducible apply Does.ite
    | intro _
    | extract_lets
    | fail_if_no_progress beta_reduce

theorem execCtlCmpLe_does {eng : EngN} {long : Bool} {a : L48} {s : State} {t : State} (h : execCtlCmpLe eng long a s = .next t) : Does Part.chip s t := by
  unfold execCtlCmpLe at h
  cases h
  repeat' first
    | exact rfl
    | with_reducible exact Does.refl _ _
    | with_reducible apply Does.step (h' := State.cmpRow_does ..)
    | extract_lets
    | fail_if_no_progress beta_reduce

theorem execSpuEmit_does {eng : EngN} {v : W24} {s : State} {t : State} (h : execSpuEmit eng v s = .next t) : Does Part.chip s t := by
  unfold execSpuEmit at h
  cases h
  repeat' first
    | exact rfl
    | with_reducible exact Does.refl _ _
    | with_reducible apply Does.step (h' := State.issue_does ..)
    | extract_lets
    | fail_if_no_progress beta_reduce

theorem State.waitDue_does (s : State) (e : Nat) : Does [.tb] s (State.waitDue s e) := by
  unfold State.waitDue
  repeat' first
    | exact rfl
    | with_reducible exact Does.refl _ _
    | with_reducible apply Does.step (h' := State.reach_does ..)
    | with_reducible apply Does.ite
    | split
    | intro _
    | extract_lets
    | fail_if_no_progress beta_reduce

theorem execWaitTargetDue_does {eng : EngN} {s : State} {t : State} (h : execWaitTargetDue eng s = .next t) : Does [.tb] s t := by
  unfold execWaitTargetDue at h
  cases h
  repeat' first
    | exact rfl
    | with_reducible exact Does.refl _ _
    | with_reducible apply Does.step (h' := State.waitDue_does ..)
    | extract_lets
    | fail_if_no_progress beta_reduce

theorem execTsuWait_does {eng : EngN} {v : L48} {s : State} {t : State} (h : execTsuWait eng v s = .next t) : Does Part.chip s t := by
  unfold execTsuWait at h
  cases h
  repeat' first
    | exact rfl
    | with_reducible exact Does.refl _ _
    | with_reducible apply Does.step (h' := State.issue_does ..)
    | extract_lets
    | fail_if_no_progress beta_reduce

theorem execCtlRet_does {eng : EngN} {v : W24} {s : State} {t : State} (h : execCtlRet eng v s = .next t) : Does Part.chip s t := by
  unfold execCtlRet at h
  cases h
  repeat' first
    | exact rfl
    | with_reducible exact Does.refl _ _
    | with_reducible apply Does.step (h' := State.issue_does ..)
    | extract_lets
    | fail_if_no_progress beta_reduce

theorem execTsuEp_does {eng : EngN} {v : L48} {s : State} {t : State} (h : execTsuEp eng v s = .next t) : Does Part.chip s t := by
  unfold execTsuEp at h
  cases h
  repeat' first
    | exact rfl
    | with_reducible exact Does.refl _ _
    | with_reducible apply Does.step (h' := State.issue_does ..)
    | extract_lets
    | fail_if_no_progress beta_reduce

theorem execSmvCopy_does {eng : EngN} {v : W24} {s : State} {t : State} (h : execSmvCopy eng v s = .next t) : Does Part.chip s t := by
  unfold execSmvCopy at h
  cases h
  repeat' first
    | exact rfl
    | with_reducible exact Does.refl _ _
    | with_reducible apply Does.step (h' := State.issue_does ..)
    | extract_lets
    | fail_if_no_progress beta_reduce

theorem execSmvCmp_does {eng : EngN} {v : W24} {s : State} {t : State} (h : execSmvCmp eng v s = .next t) : Does Part.chip s t := by
  unfold execSmvCmp at h
  cases h
  repeat' first
    | exact rfl
    | with_reducible exact Does.refl _ _
    | with_reducible apply Does.step (h' := State.issue_does ..)
    | extract_lets
    | fail_if_no_progress beta_reduce

end Sys2Proof.Machine
end

