-- ==== Sys2Proof/Laws/DoesEngExc.lean ====
section
/-! SUPPORT. What each operation of Machine/EngExc.lean can do: the parts of the state it can touch, and what it keeps. -/

namespace Sys2Proof.Machine

theorem State.halt_does (s : State) (e : Nat) (st : Fin 4) : Does Part.core s (State.halt s e st) := by
  unfold State.halt
  repeat' first
    | exact rfl
    | with_reducible exact Does.refl _ _
    | with_reducible apply Does.step (h' := State.warmReset_does ..)
    | with_reducible apply Does.step (h' := State.setEngine_does ..)
    | with_reducible apply Does.step (h' := State.ring_does ..)
    | with_reducible apply Does.ite
    | intro _
    | extract_lets
    | fail_if_no_progress beta_reduce

theorem State.enterException_does (s : State) (e : Nat) : Does Part.chip s (State.enterException s e) := by
  unfold State.enterException
  repeat' first
    | exact rfl
    | with_reducible exact Does.refl _ _
    | with_reducible apply Does.step (h' := State.passBubble_does ..)
    | with_reducible apply Does.step (h' := State.ahead_does ..)
    | with_reducible apply Does.step (h' := State.halt_does ..)
    | with_reducible apply Does.step (h' := State.setEngine_does ..)
    | with_reducible apply Does.ite
    | intro _
    | extract_lets
    | fail_if_no_progress beta_reduce

theorem State.fetchFirst_does (s : State) (e : Nat) : Does Part.chip s (State.fetchFirst s e) := by
  unfold State.fetchFirst
  repeat' first
    | exact rfl
    | with_reducible exact Does.refl _ _
    | with_reducible apply Does.step (h' := State.fetch_does ..)
    | with_reducible refine Does.step ?_ (Does.fst (by assumption) (State.fetch_does ..)) ?_
    | with_reducible apply Does.step (h' := State.setEngine_does ..)
    | split
    | extract_lets
    | fail_if_no_progress beta_reduce

theorem State.rowsServed_does (s : State) (e : Nat) : Does [.pods] s (State.rowsServed s e) := by
  unfold State.rowsServed
  repeat' first
    | exact rfl
    | with_reducible exact Does.refl _ _
    | with_reducible apply Does.step (h' := State.bankServed_does ..)
    | with_reducible apply Does.ite
    | intro _
    | extract_lets
    | fail_if_no_progress beta_reduce

theorem State.saveTask_does (s : State) (e : Nat) : Does Part.chip s (State.saveTask s e) := by
  unfold State.saveTask
  repeat' first
    | exact rfl
    | with_reducible exact Does.refl _ _
    | with_reducible apply Does.step (h' := State.halt_does ..)
    | with_reducible apply Does.step (h' := State.setEngine_does ..)
    | with_reducible apply Does.step (h' := State.rowsServed_does ..)
    | with_reducible apply Does.step (h' := State.fetchFirst_does ..)
    | with_reducible apply Does.ite
    | split
    | intro _
    | extract_lets
    | fail_if_no_progress beta_reduce
    | with_reducible apply Does.step (h' := Does.wrote ..)

theorem execTsbSave_does {eng : EngN} {s : State} {t : State} (h : execTsbSave eng s = .next t) : Does Part.chip s t := by
  unfold execTsbSave at h
  cases h
  repeat' first
    | exact rfl
    | with_reducible exact Does.refl _ _
    | with_reducible apply Does.step (h' := State.saveTask_does ..)
    | extract_lets
    | fail_if_no_progress beta_reduce

theorem State.restoreTask_does (s0 : State) (e : Nat) : Does Part.chip s0 (State.restoreTask s0 e) := by
  unfold State.restoreTask
  repeat' first
    | exact rfl
    | with_reducible exact Does.refl _ _
    | with_reducible apply Does.step (h' := State.passMeet_does ..)
    | with_reducible apply Does.step (h' := State.halt_does ..)
    | with_reducible apply Does.step (h' := State.readRows_does ..)
    | with_reducible refine Does.step ?_ (Does.fst (by assumption) (State.readRows_does ..)) ?_
    | with_reducible apply Does.step (h' := State.fetchFirst_does ..)
    | with_reducible apply Does.step (h' := State.setEngine_does ..)
    | with_reducible apply Does.step (h' := State.rowsServed_does ..)
    | with_reducible apply Does.ite
    | split
    | intro _
    | extract_lets
    | fail_if_no_progress beta_reduce

theorem execTsbRestore_does {eng : EngN} {s : State} {t : State} (h : execTsbRestore eng s = .next t) : Does Part.chip s t := by
  unfold execTsbRestore at h
  cases h
  repeat' first
    | exact rfl
    | with_reducible exact Does.refl _ _
    | with_reducible apply Does.step (h' := State.restoreTask_does ..)
    | extract_lets
    | fail_if_no_progress beta_reduce

theorem execExceptionEntry_does {eng : EngN} {s : State} {t : State} (h : execExceptionEntry eng s = .next t) : Does Part.chip s t := by
  unfold execExceptionEntry at h
  cases h
  repeat' first
    | exact rfl
    | with_reducible exact Does.refl _ _
    | with_reducible apply Does.step (h' := State.enterException_does ..)
    | extract_lets
    | fail_if_no_progress beta_reduce

end Sys2Proof.Machine
end

