-- ==== Sys2Proof/Laws/DoesEngLsu.lean ====
section
/-! SUPPORT. What each operation of Machine/EngLsu.lean can do: the parts of the state it can touch, and what it keeps. -/

namespace Sys2Proof.Machine

theorem execLsu0StL_does {eng : EngN} {a : W24} {s : State} {t : State} (h : execLsu0StL eng a s = .next t) : Does Part.chip s t := by
  unfold execLsu0StL at h
  cases h
  repeat' first
    | exact rfl
    | with_reducible exact Does.refl _ _
    | with_reducible apply Does.step (h' := State.issue_does ..)
    | extract_lets
    | fail_if_no_progress beta_reduce

theorem execLsu1LdW_does {eng : EngN} {a : L48} {s : State} {t : State} (h : execLsu1LdW eng a s = .next t) : Does Part.chip s t := by
  unfold execLsu1LdW at h
  cases h
  repeat' first
    | exact rfl
    | with_reducible exact Does.refl _ _
    | with_reducible apply Does.step (h' := State.issue_does ..)
    | extract_lets
    | fail_if_no_progress beta_reduce

theorem execLsu0LdB_does {eng : EngN} {a : W24} {s : State} {t : State} (h : execLsu0LdB eng a s = .next t) : Does Part.chip s t := by
  unfold execLsu0LdB at h
  cases h
  repeat' first
    | exact rfl
    | with_reducible exact Does.refl _ _
    | with_reducible apply Does.step (h' := State.issue_does ..)
    | extract_lets
    | fail_if_no_progress beta_reduce

theorem execLsu0StB_does {eng : EngN} {a : W24} {s : State} {t : State} (h : execLsu0StB eng a s = .next t) : Does Part.chip s t := by
  unfold execLsu0StB at h
  cases h
  repeat' first
    | exact rfl
    | with_reducible exact Does.refl _ _
    | with_reducible apply Does.step (h' := State.issue_does ..)
    | extract_lets
    | fail_if_no_progress beta_reduce

theorem execLsu1LdB_does {eng : EngN} {a : L48} {s : State} {t : State} (h : execLsu1LdB eng a s = .next t) : Does Part.chip s t := by
  unfold execLsu1LdB at h
  cases h
  repeat' first
    | exact rfl
    | with_reducible exact Does.refl _ _
    | with_reducible apply Does.step (h' := State.issue_does ..)
    | extract_lets
    | fail_if_no_progress beta_reduce

theorem execLsu1LdBu_does {eng : EngN} {a : L48} {s : State} {t : State} (h : execLsu1LdBu eng a s = .next t) : Does Part.chip s t := by
  unfold execLsu1LdBu at h
  cases h
  repeat' first
    | exact rfl
    | with_reducible exact Does.refl _ _
    | with_reducible apply Does.step (h' := State.issue_does ..)
    | extract_lets
    | fail_if_no_progress beta_reduce

theorem execLsu0LdBu_does {eng : EngN} {a : W24} {s : State} {t : State} (h : execLsu0LdBu eng a s = .next t) : Does Part.chip s t := by
  unfold execLsu0LdBu at h
  cases h
  repeat' first
    | exact rfl
    | with_reducible exact Does.refl _ _
    | with_reducible apply Does.step (h' := State.issue_does ..)
    | extract_lets
    | fail_if_no_progress beta_reduce

theorem execLsu1StB_does {eng : EngN} {a : L48} {s : State} {t : State} (h : execLsu1StB eng a s = .next t) : Does Part.chip s t := by
  unfold execLsu1StB at h
  cases h
  repeat' first
    | exact rfl
    | with_reducible exact Does.refl _ _
    | with_reducible apply Does.step (h' := State.issue_does ..)
    | extract_lets
    | fail_if_no_progress beta_reduce

theorem execLsu0LdW_does {eng : EngN} {a : W24} {s : State} {t : State} (h : execLsu0LdW eng a s = .next t) : Does Part.chip s t := by
  unfold execLsu0LdW at h
  cases h
  repeat' first
    | exact rfl
    | with_reducible exact Does.refl _ _
    | with_reducible apply Does.step (h' := State.issue_does ..)
    | extract_lets
    | fail_if_no_progress beta_reduce

theorem execLsu1LdL_does {eng : EngN} {a : L48} {s : State} {t : State} (h : execLsu1LdL eng a s = .next t) : Does Part.chip s t := by
  unfold execLsu1LdL at h
  cases h
  repeat' first
    | exact rfl
    | with_reducible exact Does.refl _ _
    | with_reducible apply Does.step (h' := State.issue_does ..)
    | extract_lets
    | fail_if_no_progress beta_reduce

theorem execLsu1StL_does {eng : EngN} {a : L48} {s : State} {t : State} (h : execLsu1StL eng a s = .next t) : Does Part.chip s t := by
  unfold execLsu1StL at h
  cases h
  repeat' first
    | exact rfl
    | with_reducible exact Does.refl _ _
    | with_reducible apply Does.step (h' := State.issue_does ..)
    | extract_lets
    | fail_if_no_progress beta_reduce

theorem execLsu1DataReturn_does {eng : EngN} {err : Bool} {ext : List Byte} {s : State} {t : State} (h : execLsu1DataReturn eng err ext s = .next t) : Does Part.core s t := by
  unfold execLsu1DataReturn at h
  cases h
  repeat' first
    | exact rfl
    | with_reducible exact Does.refl _ _
    | with_reducible apply Does.step (h' := State.return1_does ..)
    | with_reducible apply Does.ite
    | intro _
    | extract_lets
    | fail_if_no_progress beta_reduce

theorem execLsu1RequestGranted_does {eng : EngN} {waited : Nat} {s : State} {t : State} (h : execLsu1RequestGranted eng waited s = .next t) : Does Part.chip s t := by
  unfold execLsu1RequestGranted at h
  cases h
  repeat' first
    | exact rfl
    | with_reducible exact Does.refl _ _
    | with_reducible apply Does.step (h' := State.grant1_does ..)
    | with_reducible apply Does.ite
    | intro _
    | extract_lets
    | fail_if_no_progress beta_reduce

theorem execStoreBufferDrain_does {eng : EngN} {s : State} {t : State} (h : execStoreBufferDrain eng s = .next t) : Does Part.core s t := by
  unfold execStoreBufferDrain at h
  cases h
  repeat' first
    | exact rfl
    | with_reducible exact Does.refl _ _
    | with_reducible apply Does.step (h' := State.drainOne_does ..)
    | with_reducible apply Does.ite
    | intro _
    | extract_lets
    | fail_if_no_progress beta_reduce

theorem execLsu1StW_does {eng : EngN} {a : L48} {s : State} {t : State} (h : execLsu1StW eng a s = .next t) : Does Part.chip s t := by
  unfold execLsu1StW at h
  cases h
  repeat' first
    | exact rfl
    | with_reducible exact Does.refl _ _
    | with_reducible apply Does.step (h' := State.issue_does ..)
    | extract_lets
    | fail_if_no_progress beta_reduce

theorem execLsu0LdL_does {eng : EngN} {a : W24} {s : State} {t : State} (h : execLsu0LdL eng a s = .next t) : Does Part.chip s t := by
  unfold execLsu0LdL at h
  cases h
  repeat' first
    | exact rfl
    | with_reducible exact Does.refl _ _
    | with_reducible apply Does.step (h' := State.issue_does ..)
    | extract_lets
    | fail_if_no_progress beta_reduce

theorem execLsu0StW_does {eng : EngN} {a : W24} {s : State} {t : State} (h : execLsu0StW eng a s = .next t) : Does Part.chip s t := by
  unfold execLsu0StW at h
  cases h
  repeat' first
    | exact rfl
    | with_reducible exact Does.refl _ _
    | with_reducible apply Does.step (h' := State.issue_does ..)
    | extract_lets
    | fail_if_no_progress beta_reduce

end Sys2Proof.Machine
end

