-- ==== Sys2Proof/Laws/DoesEngPortRows.lean ====
section
/-! SUPPORT. What each operation of Machine/EngPortRows.lean can do: the parts of the state it can touch, and what it keeps. -/

namespace Sys2Proof.Machine

theorem State.portRow_does (s : State) (e : EngN) (ports : List Nat) (port : BitVec 10) (v : L48) : Does Part.chip s (State.portRow s e ports port v) := by
  unfold State.portRow
  repeat' first
    | exact rfl
    | with_reducible exact Does.refl _ _
    | with_reducible apply Does.step (h' := State.issue_does ..)
    | with_reducible apply Does.ite
    | intro _
    | extract_lets
    | fail_if_no_progress beta_reduce

theorem execCtlModeWrite_does {eng : EngN} {v : W24} {s : State} {t : State} (h : execCtlModeWrite eng v s = .next t) : Does Part.chip s t := by
  unfold execCtlModeWrite at h
  cases h
  repeat' first
    | exact rfl
    | with_reducible exact Does.refl _ _
    | with_reducible apply Does.step (h' := State.issue_does ..)
    | extract_lets
    | fail_if_no_progress beta_reduce

theorem execRptCountWrite_does {eng : EngN} {port : BitVec 10} {v : W24} {s : State} {t : State} (h : execRptCountWrite eng port v s = .next t) : Does Part.chip s t := by
  unfold execRptCountWrite at h
  cases h
  repeat' first
    | exact rfl
    | with_reducible exact Does.refl _ _
    | with_reducible apply Does.step (h' := State.portRow_does ..)
    | extract_lets
    | fail_if_no_progress beta_reduce

theorem execSpuPredWrite_does {eng : EngN} {v : W24} {s : State} {t : State} (h : execSpuPredWrite eng v s = .next t) : Does Part.chip s t := by
  unfold execSpuPredWrite at h
  cases h
  repeat' first
    | exact rfl
    | with_reducible exact Does.refl _ _
    | with_reducible apply Does.step (h' := State.issue_does ..)
    | extract_lets
    | fail_if_no_progress beta_reduce

theorem execCtlDoorWrite_does {eng : EngN} {v : W24} {s : State} {t : State} (h : execCtlDoorWrite eng v s = .next t) : Does Part.chip s t := by
  unfold execCtlDoorWrite at h
  cases h
  repeat' first
    | exact rfl
    | with_reducible exact Does.refl _ _
    | with_reducible apply Does.step (h' := State.issue_does ..)
    | extract_lets
    | fail_if_no_progress beta_reduce

theorem execChainedStateWrite_does {eng : EngN} {port : BitVec 10} {v : L48} {s : State} {t : State} (h : execChainedStateWrite eng port v s = .next t) : Does Part.chip s t := by
  unfold execChainedStateWrite at h
  cases h
  repeat' first
    | exact rfl
    | with_reducible exact Does.refl _ _
    | with_reducible apply Does.step (h' := State.portRow_does ..)
    | extract_lets
    | fail_if_no_progress beta_reduce

theorem execRptBoundsWrite_does {eng : EngN} {port : BitVec 10} {v : W24} {s : State} {t : State} (h : execRptBoundsWrite eng port v s = .next t) : Does Part.chip s t := by
  unfold execRptBoundsWrite at h
  cases h
  repeat' first
    | exact rfl
    | with_reducible exact Does.refl _ _
    | with_reducible apply Does.step (h' := State.portRow_does ..)
    | extract_lets
    | fail_if_no_progress beta_reduce

theorem execSmvPortWrite_does {eng : EngN} {port : BitVec 10} {v : W24} {s : State} {t : State} (h : execSmvPortWrite eng port v s = .next t) : Does Part.chip s t := by
  unfold execSmvPortWrite at h
  cases h
  repeat' first
    | exact rfl
    | with_reducible exact Does.refl _ _
    | with_reducible apply Does.step (h' := State.portRow_does ..)
    | extract_lets
    | fail_if_no_progress beta_reduce

theorem execChkCfgWrite_does {eng : EngN} {v : W24} {s : State} {t : State} (h : execChkCfgWrite eng v s = .next t) : Does Part.chip s t := by
  unfold execChkCfgWrite at h
  cases h
  repeat' first
    | exact rfl
    | with_reducible exact Does.refl _ _
    | with_reducible apply Does.step (h' := State.issue_does ..)
    | extract_lets
    | fail_if_no_progress beta_reduce

theorem execSpuRingWrite_does {eng : EngN} {size : Bool} {v : W24} {s : State} {t : State} (h : execSpuRingWrite eng size v s = .next t) : Does Part.chip s t := by
  unfold execSpuRingWrite at h
  cases h
  repeat' first
    | exact rfl
    | with_reducible exact Does.refl _ _
    | with_reducible apply Does.step (h' := State.issue_does ..)
    | with_reducible apply Does.ite
    | intro _
    | extract_lets
    | fail_if_no_progress beta_reduce

end Sys2Proof.Machine
end

