-- ==== Sys2Proof/Laws/DoesStoreDone.lean ====
section
/-! SUPPORT. What each operation of Machine/StoreDone.lean can do: the parts of the state it can touch, and what it keeps. -/

namespace Sys2Proof.Machine

theorem State.rechain_does (s : State) (g : Seg) : Does [.store, .free] s (State.rechain s g) := by
  unfold State.rechain
  repeat' first
    | exact rfl
    | with_reducible exact Does.refl _ _
    | with_reducible apply Does.ite
    | intro _
    | extract_lets
    | fail_if_no_progress beta_reduce
    | refine Does.any ⟨.inr rfl, .inr rfl, .inr rfl, .inr rfl, .inr rfl, .inr rfl, .inr rfl, .inl rfl, .inr rfl, .inr rfl, .inr rfl, .inr rfl, .inr rfl, .inr rfl, .inr rfl, .inr rfl, .inr rfl, .inr rfl, .inr rfl, .inr rfl, .inr rfl, .inr rfl, .inl rfl⟩ id id (List.prefix_refl _) (fun _ => rfl) (Fin.le_refl _) ?_

theorem State.restartUnder_does (s : State) (n : BitVec 16) : Does Part.logging s (State.restartUnder s n) := by
  unfold State.restartUnder
  repeat' first
    | exact rfl
    | with_reducible exact Does.refl _ _
    | with_reducible apply Does.step (h' := State.storeRestart_does ..)
    | with_reducible apply Does.step (h' := State.rechain_does ..)
    | with_reducible apply Does.fold
    | intro _
    | extract_lets
    | fail_if_no_progress beta_reduce
    | with_reducible apply Does.step (h' := Does.set_store ..)

theorem State.headerRead_does (s0 : State) (ok : Bool) (seq : Nat) (data : List Byte) : Does [.log, .od, .store, .link, .side, .out, .free] s0 (State.headerRead s0 ok seq data) := by
  unfold State.headerRead
  repeat' first
    | exact rfl
    | with_reducible exact Does.refl _ _
    | with_reducible apply Does.step (h' := State.writeOwed_does ..)
    | with_reducible apply Does.step (h' := State.logE_does ..)
    | with_reducible apply Does.step (h' := State.restartUnder_does ..)
    | with_reducible apply Does.ite
    | intro _
    | extract_lets
    | fail_if_no_progress beta_reduce
    | with_reducible apply Does.step (h' := Does.set_store ..)

theorem State.nvmeDone_does (s : State) (k : Nat) (cid : Nat) (d : NvmeDone) : Does [.tb, .log, .sess, .od, .ports, .cls, .store, .rep, .link, .fab, .sw, .pods, .mem, .cel, .side, .pst, .pwr, .out, .free] s (State.nvmeDone s k cid d) := by
  unfold State.nvmeDone
  repeat' first
    | exact rfl
    | with_reducible exact Does.refl _ _
    | with_reducible apply Does.step (h' := State.setSsd_does ..)
    | with_reducible apply Does.step (h' := State.readDone_does ..)
    | with_reducible apply Does.step (h' := State.headerRead_does ..)
    | with_reducible apply Does.step (h' := State.writeDone_does ..)
    | with_reducible apply Does.step (h' := State.nvme_does ..)
    | with_reducible apply Does.step (h' := State.logE_does ..)
    | with_reducible apply Does.step (h' := State.flushDone_does ..)
    | with_reducible apply Does.step (h' := State.offMedium_does ..)
    | with_reducible apply Does.ite
    | split
    | intro _
    | extract_lets
    | fail_if_no_progress beta_reduce

theorem execNvmeCommandComplete_does {ssd : Fin 2} {cid : Nat} {done : NvmeDone} {s : State} {t : State} (h : execNvmeCommandComplete ssd cid done s = .next t) : Does [.tb, .log, .sess, .od, .ports, .cls, .store, .rep, .link, .fab, .sw, .pods, .mem, .cel, .side, .pst, .pwr, .out, .free] s t := by
  unfold execNvmeCommandComplete at h
  cases h
  repeat' first
    | exact rfl
    | with_reducible exact Does.refl _ _
    | with_reducible apply Does.step (h' := State.nvmeDone_does ..)
    | extract_lets
    | fail_if_no_progress beta_reduce

end Sys2Proof.Machine
end

