-- ==== Sys2Proof/Laws/Engine.lean ====
section
/-! SUPPORT. What a cycle of an engine does to the parts of the engine that no pipeline touches, and what the issue of one move leaves. -/

namespace Sys2Proof.Machine

variable {α : Type}

@[simp] theorem Tab.set_set (l : Tab α) (k : Nat) (v w : α) : (l.set k v).set k w = l.set k w := by
  induction l with
  | nil => simp [Tab.set]
  | cons x t ih =>
    simp only [Tab.set]
    split
    · simp [Tab.set]
    · split
      · rename_i h1 h2; subst h2; simp [Tab.set]
      · rename_i h1 h2; simp [Tab.set, h1, h2, ih]

@[simp] theorem State.engine_setEngine (s : State) (e : Nat) (x : Engine) : (s.setEngine e x).engine e = x := by
  simp [State.engine, State.setEngine]

theorem State.engine_setEngine_ne (s : State) {e j : Nat} (x : Engine) (h : j ≠ e) : (s.setEngine e x).engine j = s.engine j := by
  simp [State.engine, State.setEngine, Tab.get_set_ne _ _ _ h]

@[simp] theorem State.setEngine_setEngine (s : State) (e : Nat) (x y : Engine) : (s.setEngine e x).setEngine e y = s.setEngine e y := by
  simp [State.setEngine]

theorem OnlyEngine.set (s : State) (e : Nat) (x : Engine) : OnlyEngine e s (s.setEngine e x) :=
  ⟨fun p hp => by cases p <;> first | rfl | simp at hp, fun _ h => s.engine_setEngine_ne x h⟩

/-! Pipelines leave latches and settings alone. -/

theorem foldl_keeps {β γ : Type} (g : α → γ) (f : α → β → α) (h : ∀ a b, g (f a b) = g a) (l : List β) (a : α) : g (l.foldl f a) = g a := by
  induction l generalizing a with
  | nil => rfl
  | cons b l ih => rw [List.foldl_cons, ih, h]

@[simp] theorem Mac.advance_o (x : Mac) : x.advance.o = x.o := by
  unfold Mac.advance
  exact foldl_keeps Mac.o _ (fun a b => by unfold Mac.complete; dsimp only; split <;> rfl) _ _

@[simp] theorem Chk.advance_o (x : Chk) : x.advance.o = x.o := by
  unfold Chk.advance
  exact foldl_keeps Chk.o _ (fun a b => by unfold Chk.complete; split <;> rfl) _ _

@[simp] theorem Chk.advance_poly (x : Chk) : x.advance.poly = x.poly := by
  unfold Chk.advance
  exact foldl_keeps Chk.poly _ (fun a b => by unfold Chk.complete; split <;> rfl) _ _

@[simp] theorem Chk.advance_cfg (x : Chk) : x.advance.cfg = x.cfg := by
  unfold Chk.advance
  exact foldl_keeps Chk.cfg _ (fun a b => by unfold Chk.complete; split <;> rfl) _ _

@[simp] theorem Div_.advance_o (x : Div_) : x.advance.o = x.o := by
  unfold Div_.advance
  extract_lets
  split
  · rfl
  · split
    · rfl
    · split <;> rfl

@[simp] theorem Lsu0.advance_o (x : Lsu0) : x.advance.o = x.o := by
  unfold Lsu0.advance
  exact foldl_keeps Lsu0.o _ (fun a b => by split <;> rfl) _ _

@[simp] theorem Lsu0.advance_sb (x : Lsu0) : x.advance.sb = x.sb := by
  unfold Lsu0.advance
  exact foldl_keeps Lsu0.sb _ (fun a b => by split <;> rfl) _ _

@[simp] theorem Lsu1.advance_o (x : Lsu1) : x.advance.o = x.o := by
  unfold Lsu1.advance
  exact foldl_keeps Lsu1.o _ (fun a b => by split <;> rfl) _ _

@[simp] theorem Lsu1.advance_rsel (x : Lsu1) : x.advance.rsel = x.rsel := by
  unfold Lsu1.advance
  exact foldl_keeps Lsu1.rsel _ (fun a b => by split <;> rfl) _ _

@[simp] theorem Lsu1.advance_desc (x : Lsu1) : x.advance.desc = x.desc := by
  unfold Lsu1.advance
  exact foldl_keeps Lsu1.desc _ (fun a b => by split <;> rfl) _ _

@[simp] theorem Engine.raise_held (x : Engine) (c : Byte) : (x.raise c).held = x.held := rfl

@[simp] theorem Engine.popBundle_held (x : Engine) : x.popBundle.held = x.held := rfl

theorem Spu.take_keeps (x : Spu) (b : Bool) : (x.take b).o = x.o ∧ (x.take b).rbase = x.rbase ∧ (x.take b).rsize = x.rsize := by
  unfold Spu.take
  split <;> split <;> simp

@[simp] theorem Engine.atTwo_held (x : Engine) (tick now : Nat) : (x.atTwo tick now).held = x.held := by
  have h (y : Spu) : (y.atTwo.o, y.atTwo.rbase, y.atTwo.rsize) = (y.o, y.rbase, y.rsize) := by
    unfold Spu.atTwo
    split
    · rfl
    · exact foldl_keeps (fun z : Spu => (z.o, z.rbase, z.rsize)) _ (fun a b => by simp [Spu.take_keeps]) _ _
  have h' := h x.spu
  simp only [Prod.mk.injEq] at h'
  simp [Engine.atTwo, Engine.held, h']

@[simp] theorem Ctl.modeStep_held (x : Ctl) : x.modeStep.o = x.o ∧ x.modeStep.gd = x.gd ∧ x.modeStep.link = x.link ∧ x.modeStep.tsp = x.tsp ∧
    x.modeStep.vbase = x.vbase ∧ x.modeStep.cause = x.cause ∧ x.modeStep.guards = x.guards := by
  unfold Ctl.modeStep
  split
  · simp
  · split <;> simp

@[simp] theorem Engine.advance_held (x : Engine) : x.advance.held = x.held := by
  rw [Engine.advance, Engine.raise_held]
  simp [Engine.held]

@[simp] theorem Ctl.jump_held (x : Ctl) (a : BitVec 11) : (x.jump a).o = x.o ∧ (x.jump a).gd = x.gd ∧ (x.jump a).link = x.link ∧ (x.jump a).tsp = x.tsp ∧
    (x.jump a).vbase = x.vbase ∧ (x.jump a).cause = x.cause ∧ (x.jump a).guards = x.guards := by
  unfold Ctl.jump
  split <;> simp

theorem Rpt.checkLevel_o (x : Rpt) (k : Nat) : (x.checkLevel k).1.o = x.o := by
  by_cases hk : k = 0 <;> simp only [Rpt.checkLevel, hk, if_true, if_false] <;> split <;> split <;> rfl

theorem Rpt.endCheck_o (x : Rpt) (pc : BitVec 11) : (x.endCheck pc).1.o = x.o := by
  unfold Rpt.endCheck
  dsimp only
  repeat' split
  all_goals simp [Rpt.checkLevel_o]

@[simp] theorem Rpt.turn_o (x : Rpt) (pc : BitVec 11) (t : Option (Nat × W24)) : (x.turn pc t).1.o = x.o := by
  unfold Rpt.turn
  split
  · unfold Rpt.open_; dsimp only; split <;> simp [Rpt.endCheck_o]
  · rw [Rpt.endCheck_o]; unfold Rpt.exit; split <;> rfl
  · rw [Rpt.endCheck_o]

@[simp] theorem Engine.sequence_held (x : Engine) (t : Option (Nat × W24)) : (x.sequence t).held = x.held := by
  simp [Engine.sequence, Engine.held]

/-! The issue of one move. -/

theorem State.issues_ready {s : State} {e : Nat} (h : s.issues e) : s.ready e = true := h.1

theorem State.beginCycle_still {s : State} {e : Nat} (h : (s.engine e).smv.still = true) :
    s.beginCycle e = (s.setEngine e ((s.engine e).atTwo s.tb.tick.toNat s.now), true) := by
  have : s.smvCycle e = (s, true) := by
    unfold State.smvCycle
    exact if_pos h
  simp [State.beginCycle, this]

theorem State.ready_parts {s : State} {e : Nat} (h : s.ready e = true) :
    s.canCycle e = true ∧ (s.engine e).ctl.bubble = false ∧ (s.engine e).smv.meet = [] := by
  simp only [State.ready, Bool.and_eq_true, Bool.not_eq_true'] at h
  refine ⟨h.1.1.1, h.1.1.2, ?_⟩
  have := h.1.1.1
  simp only [State.canCycle, Engine.hardFrozen, Bool.and_eq_true, Bool.not_eq_true', Bool.or_eq_false_iff, Bool.not_eq_false'] at this
  simpa using this.1.2.2

theorem State.passBubble_ready {s : State} {e : Nat} (h : s.ready e = true) : s.passBubble e = s := by
  have ⟨_, hb, hm⟩ := State.ready_parts h
  have hp : s.passMeet e = s := by simp [State.passMeet, hm]
  simp [State.passBubble, hp, hb]

/-- A fetch of an engine that fetches quietly only fills its prefetch queue. -/
theorem State.fill_quiet {s : State} {e : Nat} (h : s.fetchesQuietly e) (k : Nat) : ∀ (y : Engine) (a : Nat), y.fbase = (s.engine e).fbase →
    ∃ q, (s.setEngine e y).fill e a k = s.setEngine e { y with pfq := q } := by
  induction k with
  | zero => exact fun y a _ => ⟨y.pfq, rfl⟩
  | succ k ih =>
    intro y a hy
    have hq := h y (a % 2048) hy (by omega)
    rw [State.fill]
    split
    · next s1 he => exact ⟨y.pfq, by rw [he] at hq; exact hq⟩
    · next s1 b he =>
      rw [he] at hq
      simp only at hq
      subst hq
      rw [State.engine_setEngine, State.setEngine_setEngine]
      exact ih _ _ hy

theorem State.prefetch_quiet {s : State} {e : Nat} (h : s.fetchesQuietly e) (y : Engine) (hy : y.ctl.bubble = false → y.fbase = (s.engine e).fbase) :
    ∃ q, (s.setEngine e y).prefetch e = s.setEngine e { y with pfq := q } := by
  rw [State.prefetch, State.engine_setEngine]
  split
  · exact ⟨y.pfq, rfl⟩
  · next hb =>
    rw [Bool.or_eq_true, not_or] at hb
    exact State.fill_quiet h 1 y _ (hy (Bool.eq_false_iff.2 hb.1))

theorem State.fetchesQuietly_set {s : State} {e : Nat} (h : s.fetchesQuietly e) (y : Engine) (hy : y.fbase = (s.engine e).fbase) :
    (s.setEngine e y).fetchesQuietly e := by
  intro z n hz hn
  rw [State.setEngine_setEngine]
  rw [State.engine_setEngine] at hz
  exact h z n (hz.trans hy) hn

/-- Rows without an inverted bit are read without a memory error. -/
theorem State.readMem_sound {s : State} {a n : Nat} (hk : memKind a ≠ .staging) (hb : s.mem.sound a n = true) : (s.readMem a n).1 = s := by
  have hc : ∀ i, i ∈ List.range n → s.mem.decode (a + i) = .clean ((s.mem.byte (a + i)).getD 0) := by
    intro i hi
    simp only [Memory.sound, List.all_eq_true, decide_eq_true_eq] at hb
    rw [Memory.decode, if_pos (hb i hi), Memory.meant]
  have h1 : (s.mem.readInner a n).inner = false := by
    simp only [Memory.readInner, List.any_map, List.any_eq_false]
    intro i hi
    simp [Function.comp, hc i hi, InnerOut.fixed]
  have h2 : (s.mem.readInner a n).fail = none := by
    simp only [Memory.readInner, Option.map_eq_none_iff, List.find?_eq_none]
    intro i hi
    simp [hc i hi]
  simp only [State.readMem, Memory.readRow, hk, if_false, h2, State.noteRead, h1]
  simp [Memory.readInner]

/-- IMEM is no staging store. -/
theorem imemAddr_kind {e n : Nat} (he : e < 1024) (hn : n < 2048) : memKind (imemAddr e n 0) = .imem := by
  have h : imemAddr e n 0 = engBlock + (e / 32 * 0x800000 + e % 32 * 0x8000 + 16 * n) := by simp only [imemAddr]; omega
  have h1 : e / 32 * 0x800000 + e % 32 * 0x8000 + 16 * n < 0x10000000 := by omega
  have h2 : (e / 32 * 0x800000 + e % 32 * 0x8000 + 16 * n) % 0x800000 < 0x100000 := by omega
  rw [h]
  generalize e / 32 * 0x800000 + e % 32 * 0x8000 + 16 * n = k at h1 h2
  have e1 : msramBase = 0x100000 := rfl
  have e2 : stagingBase = 0x100000000 := rfl
  have e3 : pmemBase = 0x200000000 := rfl
  have e4 : engBlock = 0x410000000 := rfl
  rw [memKind, e1, e2, e3, e4]
  clear h e1 e2 e3 e4
  simp only [Bool.and_eq_true, decide_eq_true_eq]
  rw [if_neg (by omega), if_neg (by omega), if_neg (by omega), if_neg (by omega), if_pos (by omega), Nat.add_sub_cancel_left]
  exact if_pos h2

@[simp] theorem asBundle_state (r : State × Option (List Byte)) : (asBundle r).1 = r.1 := rfl

/-- An engine of a pod whose IMEM bears no inverted bit fetches quietly. -/
theorem State.fetchesQuietly_of {s : State} {e : Nat} (he : e < 1024) (hb : ∀ n < 2048, s.mem.sound (imemAddr e n 0) 16 = true) : s.fetchesQuietly e := by
  intro y n _ hn
  have hk : memKind (imemAddr e n 0) ≠ .staging := by simp [imemAddr_kind he hn]
  have hb' := hb n hn
  have hm : (s.setEngine e y).mem = s.mem := rfl
  rw [← hm] at hb'
  have h := State.readMem_sound hk hb'
  rw [State.fetch, if_pos he, asBundle_state]
  exact h

/-- A move that meets no port exception, at an engine that issues, is performed at the end of the cycle, and the engine fetches on. -/
theorem State.issue_eq {s : State} {e n : Nat} {v : L48} (h : s.issues e)
    (hf : moveFault ((s.engine e).ctl.mode.getLsbD 3) (s.engine e).rpt.n.val (.imm v) n = none) :
    s.issue e n v = ((s.setEngine e ((s.engine e).atTwo s.tb.tick.toNat s.now).popBundle).endCycle e (some [(n, v)])).prefetch e := by
  simp only [State.issue, State.passBubble_ready h.1, h.1, if_true, hf, State.beginCycle_still h.2.1, State.issueMoves, State.engine_setEngine,
    State.setEngine_setEngine]

/-- The engine after a move to port `n` was performed in the cycle that began with `x`; `now` is the full count and `fb` the fetch window that
a jump would put in force. -/
def Engine.performed (x : Engine) (e now n : Nat) (v : L48) (fb : BitVec 25) : Engine :=
  let y := x.trigger e now [] (x.ctl.mode.getLsbD 0) (x.ctl.mode.getLsbD 1) n v
  let z := y.sequence (if n / 64 = 11 then some (n % 64, wordOf v) else none)
  { z.advance with fbase := if z.ctl.bubble && 1024 ≤ e then fb else z.fbase }

/-- The end of the cycle of one trigger that only the engine's own registers see. -/
theorem State.endCycle_trigger {s : State} {e n : Nat} {v : L48} (ht : isTrigger n = true) (h12 : n / 64 ≠ 12) (h8 : n / 64 = 8 → 8 ≤ n % 64)
    (hs : n ≠ bSPU + 2 ∧ n ≠ bSPU + 3) :
    s.endCycle e (some [(n, v)]) = s.setEngine e ((s.engine e).performed e s.now n v (s.pst.fbase.get 0 (e - 1024))) := by
  have hload : ¬(n / 64 = 8 ∧ lsuLoads (n % 64) = true) := by
    rintro ⟨a, b⟩
    simp only [lsuLoads, decide_eq_true_eq] at b
    have := h8 a
    omega
  by_cases h11 : n / 64 = 11 <;>
  simp [State.endCycle, ht, h12, h11, hload, State.trigger, hs.1, hs.2, Engine.performed] <;> rfl

theorem Engine.performed_bubble (x : Engine) (e now n : Nat) (v : L48) (fb : BitVec 25) :
    (x.performed e now n v fb).ctl.bubble = false → (x.performed e now n v fb).fbase = x.fbase := by
  have ha (y : Engine) : y.advance.ctl.bubble = y.ctl.bubble ∧ y.advance.fbase = y.fbase := by
    refine ⟨?_, rfl⟩
    show y.ctl.modeStep.bubble = _
    unfold Ctl.modeStep
    split
    · rfl
    · split <;> rfl
  have ht : (x.trigger e now [] (x.ctl.mode.getLsbD 0) (x.ctl.mode.getLsbD 1) n v).fbase = x.fbase := by
    unfold Engine.trigger Engine.store0 Engine.trigger1 Engine.ctlTrigger
    dsimp only
    repeat' split
    all_goals rfl
  simp only [Engine.performed]
  intro hb
  rw [(ha _).1] at hb
  rw [hb]
  exact ht

/-- What such a move leaves at an engine that issues. -/
theorem State.issue_trigger {s : State} {e n : Nat} {v : L48} (h : s.issues e)
    (hf : moveFault ((s.engine e).ctl.mode.getLsbD 3) (s.engine e).rpt.n.val (.imm v) n = none)
    (ht : isTrigger n = true) (h12 : n / 64 ≠ 12) (h8 : n / 64 = 8 → 8 ≤ n % 64) (hs : n ≠ bSPU + 2 ∧ n ≠ bSPU + 3) :
    ∃ q, s.issue e n v = s.setEngine e { ((s.engine e).atTwo s.tb.tick.toNat s.now).popBundle.performed e s.now n v (s.pst.fbase.get 0 (e - 1024))
      with pfq := q } := by
  rw [State.issue_eq h hf, State.endCycle_trigger ht h12 h8 hs, State.engine_setEngine, State.setEngine_setEngine]
  exact State.prefetch_quiet h.2.2 _ (fun hb => Engine.performed_bubble _ _ _ _ _ _ hb)

@[simp] theorem Engine.performed_held (x : Engine) (e now n : Nat) (v : L48) (fb : BitVec 25) : (x.performed e now n v fb).held =
    (x.trigger e now [] (x.ctl.mode.getLsbD 0) (x.ctl.mode.getLsbD 1) n v).held := by
  have hb (y : Engine) (b : BitVec 25) : ({ y with fbase := b } : Engine).held = y.held := rfl
  simp only [Engine.performed, hb, Engine.advance_held, Engine.sequence_held]

theorem Engine.performed_mac (x : Engine) (e now n : Nat) (v : L48) (fb : BitVec 25) : (x.performed e now n v fb).mac =
    (x.trigger e now [] (x.ctl.mode.getLsbD 0) (x.ctl.mode.getLsbD 1) n v).mac.advance := rfl

theorem Engine.performed_chk (x : Engine) (e now n : Nat) (v : L48) (fb : BitVec 25) : (x.performed e now n v fb).chk =
    (x.trigger e now [] (x.ctl.mode.getLsbD 0) (x.ctl.mode.getLsbD 1) n v).chk.advance := rfl

theorem Engine.performed_div (x : Engine) (e now n : Nat) (v : L48) (fb : BitVec 25) : (x.performed e now n v fb).div =
    (x.trigger e now [] (x.ctl.mode.getLsbD 0) (x.ctl.mode.getLsbD 1) n v).div.advance := rfl

/-- A pipeline after a cycle still ends with what entered last, one cycle nearer to its result. -/
theorem Mac.advance_last (x : Mac) (f : MacFl) (h : 1 < f.k) : ({ x with fl := x.fl ++ [f] } : Mac).advance.fl.getLast? = some { f with k := f.k - 1 } := by
  unfold Mac.advance
  rw [foldl_keeps Mac.fl _ (fun a b => by unfold Mac.complete; dsimp only; split <;> rfl)]
  have : f.k - 1 ≠ 0 := by omega
  simp [List.filter_append, this]

theorem Chk.advance_last (x : Chk) (f : ChkFl) (h : 1 < f.k) : ({ x with fl := x.fl ++ [f] } : Chk).advance.fl.getLast? = some { f with k := f.k - 1 } := by
  unfold Chk.advance
  rw [foldl_keeps Chk.fl _ (fun a b => by unfold Chk.complete; split <;> rfl)]
  have : f.k - 1 ≠ 0 := by omega
  simp [List.filter_append, this]

end Sys2Proof.Machine
end

