-- ==== Sys2Proof/Laws/Exec.lean ====
section
/-! SUPPORT. What any command can do, from the lemmas of its meaning. -/

namespace Sys2Proof.Machine

/-- A command that answers a next state touches only its own parts, and does no more than `Does` says. -/
theorem exec_does : ∀ (c : Instr) {s t : State}, exec c s = .next t → Does (touches c) s t
  | .tickWrap .., _, _, h => execTickWrap_does h
  | .calibration, _, _, h => execCalibration_does h
  | .sourceSelection, _, _, h => execSourceSelection_does h
  | .sourceQualified .., _, _, h => execSourceQualified_does h
  | .sourceLost .., _, _, h => execSourceLost_does h
  | .ppsPulse .., _, _, h => execPpsPulse_does h
  | .gptpMessage .., _, _, h => execGptpMessage_does h
  | .commitShadowMapping .., _, _, h => execCommitShadowMapping_does h
  | .utcOffsetWrite .., _, _, h => execUtcOffsetWrite_does h
  | .chipTimeSnapshotRead .., _, _, h => execChipTimeSnapshotRead_does h
  | .snapshotTickRead .., _, _, h => execSnapshotTickRead_does h
  | .canFrameReceived .., _, _, h => execCanFrameReceived_does h
  | .canBusEvent .., _, _, h => execCanBusEvent_does h
  | .busOffRecovery .., _, _, h => execBusOffRecovery_does h
  | .ethernetFrameReceived .., _, _, h => execEthernetFrameReceived_does h
  | .ethLinkUp .., _, _, h => execEthLinkUp_does h
  | .ethLinkDown .., _, _, h => execEthLinkDown_does h
  | .sentFrameReceived .., _, _, h => execSentFrameReceived_does h
  | .psi5FrameReceived .., _, _, h => execPsi5FrameReceived_does h
  | .linFrameReceived .., _, _, h => execLinFrameReceived_does h
  | .edgeLevelAccepted .., _, _, h => execEdgeLevelAccepted_does h
  | .pwmMeasurement .., _, _, h => execPwmMeasurement_does h
  | .samplePortFrame .., _, _, h => execSamplePortFrame_does h
  | .classifyFrame .., _, _, h => execClassifyFrame_does h
  | .siftFrame, _, _, h => execSiftFrame_does h
  | .commitShadowTables .., _, _, h => execCommitShadowTables_does h
  | .tableCheckComplete, _, _, h => execTableCheckComplete_does h
  | .copyActiveToShadow .., _, _, h => execCopyActiveToShadow_does h
  | .tableCopyComplete, _, _, h => execTableCopyComplete_does h
  | .tableWindowWrite .., _, _, h => execTableWindowWrite_does h
  | .blockClose .., _, _, h => execBlockClose_does h
  | .blockAgeExpiry .., _, _, h => execBlockAgeExpiry_does h
  | .outputLaneWrapTimeout .., _, _, h => execOutputLaneWrapTimeout_does h
  | .segmentAgeExpiry, _, _, h => execSegmentAgeExpiry_does h
  | .signatureTimeDue, _, _, h => execSignatureTimeDue_does h
  | .segmentHashComplete, _, _, h => execSegmentHashComplete_does h
  | .nvmeCommandComplete .., _, _, h => execNvmeCommandComplete_does h
  | .flushIntervalExpiry, _, _, h => execFlushIntervalExpiry_does h
  | .nvmeHealthPoll .., _, _, h => execNvmeHealthPoll_does h
  | .nvmeCommandTimeout .., _, _, h => execNvmeCommandTimeout_does h
  | .controllerResetComplete .., _, _, h => execControllerResetComplete_does h
  | .ssdBringupRetry .., _, _, h => execSsdBringupRetry_does h
  | .feedEmitEntry .., _, _, h => execFeedEmitEntry_does h
  | .emitCountReached .., _, _, h => execEmitCountReached_does h
  | .holdResume, _, _, h => execHoldResume_does h
  | .canBusIdleTx .., _, _, h => execCanBusIdleTx_does h
  | .frameTransmitted .., _, _, h => execFrameTransmitted_does h
  | .linkBlockAgeExpiry .., _, _, h => execLinkBlockAgeExpiry_does h
  | .linkFrameSend .., _, _, h => execLinkFrameSend_does h
  | .linkRecordShed .., _, _, h => execLinkRecordShed_does h
  | .codeGroupTimeout, _, _, h => execCodeGroupTimeout_does h
  | .helloTimer, _, _, h => execHelloTimer_does h
  | .linkHelloReceived .., _, _, h => execLinkHelloReceived_does h
  | .linkAnswerReceived .., _, _, h => execLinkAnswerReceived_does h
  | .rekeyIntervalExpiry, _, _, h => execRekeyIntervalExpiry_does h
  | .oldKeyExpiry, _, _, h => execOldKeyExpiry_does h
  | .reportIntervalExpiry .., _, _, h => execReportIntervalExpiry_does h
  | .linkReportReceived .., _, _, h => execLinkReportReceived_does h
  | .pathReportTimeout .., _, _, h => execPathReportTimeout_does h
  | .nakTimer .., _, _, h => execNakTimer_does h
  | .linkNakReceived .., _, _, h => execLinkNakReceived_does h
  | .linkDataFrameReceived .., _, _, h => execLinkDataFrameReceived_does h
  | .recordRelease, _, _, h => execRecordRelease_does h
  | .linkCloseReceived .., _, _, h => execLinkCloseReceived_does h
  | .pathCloseExpiry .., _, _, h => execPathCloseExpiry_does h
  | .engineMove .., _, _, h => execEngineMove_does h
  | .ctlModeWrite .., _, _, h => execCtlModeWrite_does h
  | .ctlDoorWrite .., _, _, h => execCtlDoorWrite_does h
  | .chkCfgWrite .., _, _, h => execChkCfgWrite_does h
  | .chainedStateWrite .., _, _, h => execChainedStateWrite_does h
  | .rptCountWrite .., _, _, h => execRptCountWrite_does h
  | .rptBoundsWrite .., _, _, h => execRptBoundsWrite_does h
  | .smvPortWrite .., _, _, h => execSmvPortWrite_does h
  | .spuRingWrite .., _, _, h => execSpuRingWrite_does h
  | .spuPredWrite .., _, _, h => execSpuPredWrite_does h
  | .aluAdd .., _, _, h => execAluAdd_does h
  | .aluAddc .., _, _, h => execAluAddc_does h
  | .aluSub .., _, _, h => execAluSub_does h
  | .aluSubb .., _, _, h => execAluSubb_does h
  | .aluNeg .., _, _, h => execAluNeg_does h
  | .aluAbs .., _, _, h => execAluAbs_does h
  | .aluAnd .., _, _, h => execAluAnd_does h
  | .aluOr .., _, _, h => execAluOr_does h
  | .aluXor .., _, _, h => execAluXor_does h
  | .aluAndn .., _, _, h => execAluAndn_does h
  | .aluNot .., _, _, h => execAluNot_does h
  | .aluMin .., _, _, h => execAluMin_does h
  | .aluMax .., _, _, h => execAluMax_does h
  | .aluMinu .., _, _, h => execAluMinu_does h
  | .aluMaxu .., _, _, h => execAluMaxu_does h
  | .aluPass .., _, _, h => execAluPass_does h
  | .macMul .., _, _, h => execMacMul_does h
  | .macMulu .., _, _, h => execMacMulu_does h
  | .macMac .., _, _, h => execMacMac_does h
  | .macMacu .., _, _, h => execMacMacu_does h
  | .macMsu .., _, _, h => execMacMsu_does h
  | .macMsuu .., _, _, h => execMacMsuu_does h
  | .macClr .., _, _, h => execMacClr_does h
  | .macRd .., _, _, h => execMacRd_does h
  | .shfShl .., _, _, h => execShfShl_does h
  | .shfShr .., _, _, h => execShfShr_does h
  | .shfSar .., _, _, h => execShfSar_does h
  | .shfRol .., _, _, h => execShfRol_does h
  | .shfRor .., _, _, h => execShfRor_does h
  | .shfExt .., _, _, h => execShfExt_does h
  | .shfExts .., _, _, h => execShfExts_does h
  | .shfIns .., _, _, h => execShfIns_does h
  | .chkStep8 .., _, _, h => execChkStep8_does h
  | .chkStep16 .., _, _, h => execChkStep16_does h
  | .chkStep24 .., _, _, h => execChkStep24_does h
  | .chkPar .., _, _, h => execChkPar_does h
  | .chkParb .., _, _, h => execChkParb_does h
  | .chkRev .., _, _, h => execChkRev_does h
  | .chkRevb .., _, _, h => execChkRevb_does h
  | .chkRevn .., _, _, h => execChkRevn_does h
  | .chkPop .., _, _, h => execChkPop_does h
  | .chkClz .., _, _, h => execChkClz_does h
  | .divDiv .., _, _, h => execDivDiv_does h
  | .divDivu .., _, _, h => execDivDivu_does h
  | .lsu0LdB .., _, _, h => execLsu0LdB_does h
  | .lsu0LdBu .., _, _, h => execLsu0LdBu_does h
  | .lsu0LdW .., _, _, h => execLsu0LdW_does h
  | .lsu0LdL .., _, _, h => execLsu0LdL_does h
  | .lsu0StB .., _, _, h => execLsu0StB_does h
  | .lsu0StW .., _, _, h => execLsu0StW_does h
  | .lsu0StL .., _, _, h => execLsu0StL_does h
  | .lsu1LdB .., _, _, h => execLsu1LdB_does h
  | .lsu1LdBu .., _, _, h => execLsu1LdBu_does h
  | .lsu1LdW .., _, _, h => execLsu1LdW_does h
  | .lsu1LdL .., _, _, h => execLsu1LdL_does h
  | .lsu1StB .., _, _, h => execLsu1StB_does h
  | .lsu1StW .., _, _, h => execLsu1StW_does h
  | .lsu1StL .., _, _, h => execLsu1StL_does h
  | .lsu1RequestGranted .., _, _, h => execLsu1RequestGranted_does h
  | .lsu1DataReturn .., _, _, h => execLsu1DataReturn_does h
  | .storeBufferDrain .., _, _, h => execStoreBufferDrain_does h
  | .ctlJmp .., _, _, h => execCtlJmp_does h
  | .ctlCall .., _, _, h => execCtlCall_does h
  | .ctlRet .., _, _, h => execCtlRet_does h
  | .ctlTrap .., _, _, h => execCtlTrap_does h
  | .ctlRfe .., _, _, h => execCtlRfe_does h
  | .ctlCmpEq .., _, _, h => execCtlCmpEq_does h
  | .ctlCmpNe .., _, _, h => execCtlCmpNe_does h
  | .ctlCmpLt .., _, _, h => execCtlCmpLt_does h
  | .ctlCmpLe .., _, _, h => execCtlCmpLe_does h
  | .ctlCmpLtu .., _, _, h => execCtlCmpLtu_does h
  | .ctlCmpLeu .., _, _, h => execCtlCmpLeu_does h
  | .ctlCmpBit .., _, _, h => execCtlCmpBit_does h
  | .rptRep .., _, _, h => execRptRep_does h
  | .rptExit .., _, _, h => execRptExit_does h
  | .smvCopy .., _, _, h => execSmvCopy_does h
  | .smvFill .., _, _, h => execSmvFill_does h
  | .smvCmp .., _, _, h => execSmvCmp_does h
  | .smvScan .., _, _, h => execSmvScan_does h
  | .smvStep .., _, _, h => execSmvStep_does h
  | .tsuNow .., _, _, h => execTsuNow_does h
  | .tsuEp .., _, _, h => execTsuEp_does h
  | .tsuWait .., _, _, h => execTsuWait_does h
  | .waitTargetDue .., _, _, h => execWaitTargetDue_does h
  | .spuIn .., _, _, h => execSpuIn_does h
  | .spuPoll .., _, _, h => execSpuPoll_does h
  | .spuOut .., _, _, h => execSpuOut_does h
  | .spuEmit .., _, _, h => execSpuEmit_does h
  | .outputQueueHandoff .., _, _, h => execOutputQueueHandoff_does h
  | .routerAccept .., _, _, h => execRouterAccept_does h
  | .routerPublish .., _, _, h => execRouterPublish_does h
  | .podClockStep .., _, _, h => execPodClockStep_does h
  | .exceptionEntry .., _, _, h => execExceptionEntry_does h
  | .tsbSave .., _, _, h => execTsbSave_does h
  | .tsbRestore .., _, _, h => execTsbRestore_does h
  | .engIrqWrite .., _, _, h => execEngIrqWrite_does h
  | .engExcResume .., _, _, h => execEngExcResume_does h
  | .pccErstWrite .., _, _, h => execPccErstWrite_does h
  | .podReset .., _, _, h => execPodReset_does h
  | .xbarGrant .., _, _, h => execXbarGrant_does h
  | .xbarStarvation .., _, _, h => execXbarStarvation_does h
  | .transferStarvation .., _, _, h => execTransferStarvation_does h
  | .xbMapWrite .., _, _, h => execXbMapWrite_does h
  | .xbRgnWrite .., _, _, h => execXbRgnWrite_does h
  | .xbArbitrationWrite .., _, _, h => execXbArbitrationWrite_does h
  | .grnInjArm .., _, _, h => execGrnInjArm_does h
  | .grinderVisit .., _, _, h => execGrinderVisit_does h
  | .grinderWriteback, _, _, h => execGrinderWriteback_does h
  | .repairRecordWrite, _, _, h => execRepairRecordWrite_does h
  | .pstFbaseWrite .., _, _, h => execPstFbaseWrite_does h
  | .watchdogKick .., _, _, h => execWatchdogKick_does h
  | .watchdogExpiry .., _, _, h => execWatchdogExpiry_does h
  | .doorbellService .., _, _, h => execDoorbellService_does h
  | .rehomeChannels .., _, _, h => execRehomeChannels_does h
  | .sensorSample .., _, _, h => execSensorSample_does h
  | .coreBrownout, _, _, h => execCoreBrownout_does h
  | .refclkLoss, _, _, h => execRefclkLoss_does h
  | .thermalTrip, _, _, h => execThermalTrip_does h
  | .thermalTripRelease, _, _, h => execThermalTripRelease_does h
  | .pmbusAlert .., _, _, h => execPmbusAlert_does h
  | .signalDetect .., _, _, h => execSignalDetect_does h
  | .trainingTimeout .., _, _, h => execTrainingTimeout_does h
  | .flitSilenceTimeout .., _, _, h => execFlitSilenceTimeout_does h
  | .laneLockLoss .., _, _, h => execLaneLockLoss_does h
  | .helloFlitReceived .., _, _, h => execHelloFlitReceived_does h
  | .fabricHelloTimer, _, _, h => execFabricHelloTimer_does h
  | .nakFlitReceived .., _, _, h => execNakFlitReceived_does h
  | .retryTimeout .., _, _, h => execRetryTimeout_does h
  | .quarantineExpiry .., _, _, h => execQuarantineExpiry_does h
  | .loopedRetrainTimer .., _, _, h => execLoopedRetrainTimer_does h
  | .nodeIdTimer, _, _, h => execNodeIdTimer_does h
  | .routeAdvertReceived .., _, _, h => execRouteAdvertReceived_does h
  | .routeAdvertTimer, _, _, h => execRouteAdvertTimer_does h
  | .advertAgeExpiry .., _, _, h => execAdvertAgeExpiry_does h
  | .routeRecompute, _, _, h => execRouteRecompute_does h
  | .masterDisplacement, _, _, h => execMasterDisplacement_does h
  | .timeReqTimer, _, _, h => execTimeReqTimer_does h
  | .timeReqReceived .., _, _, h => execTimeReqReceived_does h
  | .timeRespReceived .., _, _, h => execTimeRespReceived_does h
  | .mgmtRequestReceived .., _, _, h => execMgmtRequestReceived_does h
  | .mgmtAnswerReceived .., _, _, h => execMgmtAnswerReceived_does h
  | .mgmtRequestTimeout .., _, _, h => execMgmtRequestTimeout_does h
  | .dataFlitReceived .., _, _, h => execDataFlitReceived_does h
  | .prepareReceived .., _, _, h => execPrepareReceived_does h
  | .readyReceived .., _, _, h => execReadyReceived_does h
  | .outcomeReceived .., _, _, h => execOutcomeReceived_does h
  | .outcomeTimeout, _, _, h => execOutcomeTimeout_does h
  | .usdoRequest .., _, _, h => execUsdoRequest_does h
  | .usdoSegmentTimeout, _, _, h => execUsdoSegmentTimeout_does h
  | .mbxGo .., _, _, h => execMbxGo_does h
  | .objectWrite .., _, _, h => execObjectWrite_does h
  | .arm .., _, _, h => execArm_does h
  | .start .., _, _, h => execStart_does h
  | .stop .., _, _, h => execStop_does h
  | .disarm .., _, _, h => execDisarm_does h
  | .mark .., _, _, h => execMark_does h
  | .switchProfile .., _, _, h => execSwitchProfile_does h
  | .power .., _, _, h => execPower_does h
  | .unitPrepared .., _, _, h => execUnitPrepared_does h
  | .profileCommitTick, _, _, h => execProfileCommitTick_does h
  | .profileRevertTick, _, _, h => execProfileRevertTick_does h
  | .profileSave .., _, _, h => execProfileSave_does h
  | .flashWriteComplete, _, _, h => execFlashWriteComplete_does h
  | .eventLogRead .., _, _, h => execEventLogRead_does h
  | .firmwareImageWrite .., _, _, h => execFirmwareImageWrite_does h
  | .updateCheck .., _, _, h => execUpdateCheck_does h
  | .updateActivate .., _, _, h => execUpdateActivate_does h
  | .updateConfirm .., _, _, h => execUpdateConfirm_does h
  | .updateAbandon .., _, _, h => execUpdateAbandon_does h
  | .updateResetTimer, _, _, h => execUpdateResetTimer_does h
  | .podImageWrite .., _, _, h => execPodImageWrite_does h
  | .podImageDelete .., _, _, h => execPodImageDelete_does h
  | .imageKeyFuse .., _, _, h => execImageKeyFuse_does h
  | .memoryTestEnableWrite .., _, _, h => execMemoryTestEnableWrite_does h
  | .quiescenceReached .., _, _, h => execQuiescenceReached_does h
  | .quiescenceTimeout, _, _, h => execQuiescenceTimeout_does h
  | .wakeEdge .., _, _, h => execWakeEdge_does h
  | .wakeQualified .., _, _, h => execWakeQualified_does h
  | .huskFrameCapture .., _, _, h => execHuskFrameCapture_does h
  | .wakeComplete, _, _, h => execWakeComplete_does h
  | .ssdReadyTimeout .., _, _, h => execSsdReadyTimeout_does h
  | .railEnableTimeout .., _, _, h => execRailEnableTimeout_does h
  | .railRetryTimer, _, _, h => execRailRetryTimer_does h
  | .powerOnReset, _, _, h => execPowerOnReset_does h
  | .coldReset .., _, _, h => execColdReset_does h
  | .chipWarmReset .., _, _, h => execChipWarmReset_does h
  | .resetRelease .., _, _, h => execResetRelease_does h
  | .jtagDebugAccess .., _, _, h => execJtagDebugAccess_does h
  | .armComplete, _, _, h => execArmComplete_does h
  | .heartbeatProducerTimer, _, _, h => execHeartbeatProducerTimer_does h
  | .arpNdFrameReceived .., _, _, h => execArpNdFrameReceived_does h
  | .gptpSyncTimer .., _, _, h => execGptpSyncTimer_does h
  | .flitCheckFailed .., _, _, h => execFlitCheckFailed_does h
  | .idleFlitReceived .., _, _, h => execIdleFlitReceived_does h
  | .referenceClockReturn, _, _, h => execReferenceClockReturn_does h
  | .crystalRunning, _, _, h => execCrystalRunning_does h
  | .railInWindow .., _, _, h => execRailInWindow_does h
  | .wakeQualificationFailed .., _, _, h => execWakeQualificationFailed_does h
  | .xbErrInfoClear .., _, _, h => execXbErrInfoClear_does h
  | .randomSourceHealthTest .., _, _, h => execRandomSourceHealthTest_does h
  | .testPortInstruction .., _, _, h => execTestPortInstruction_does h

end Sys2Proof.Machine
end

