-- ==== Sys2Proof/Laws/State.lean ====
section
/-! SUPPORT. What each field of the state is after each of the updates that the machine's operations are made of. -/

namespace Sys2Proof.Machine

/-! `State.setTime`. -/

@[simp] theorem State.setTime_tb (s : State) (c : Nat) : (s.setTime c).tb = { s.tb with epoch := BitVec.ofNat 32 (c / 2 ^ 48), tick := BitVec.ofNat 48 c } := rfl
@[simp] theorem State.setTime_log (s : State) (c : Nat) : (s.setTime c).log = s.log := rfl
@[simp] theorem State.setTime_sess (s : State) (c : Nat) : (s.setTime c).sess = s.sess := rfl
@[simp] theorem State.setTime_od (s : State) (c : Nat) : (s.setTime c).od = s.od := rfl
@[simp] theorem State.setTime_acc (s : State) (c : Nat) : (s.setTime c).acc = s.acc := rfl
@[simp] theorem State.setTime_ports (s : State) (c : Nat) : (s.setTime c).ports = s.ports := rfl
@[simp] theorem State.setTime_cls (s : State) (c : Nat) : (s.setTime c).cls = s.cls := rfl
@[simp] theorem State.setTime_store (s : State) (c : Nat) : (s.setTime c).store = s.store := rfl
@[simp] theorem State.setTime_rep (s : State) (c : Nat) : (s.setTime c).rep = s.rep := rfl
@[simp] theorem State.setTime_link (s : State) (c : Nat) : (s.setTime c).link = s.link := rfl
@[simp] theorem State.setTime_fab (s : State) (c : Nat) : (s.setTime c).fab = s.fab := rfl
@[simp] theorem State.setTime_sw (s : State) (c : Nat) : (s.setTime c).sw = s.sw := rfl
@[simp] theorem State.setTime_eng (s : State) (c : Nat) : (s.setTime c).eng = s.eng := rfl
@[simp] theorem State.setTime_pods (s : State) (c : Nat) : (s.setTime c).pods = s.pods := rfl
@[simp] theorem State.setTime_net (s : State) (c : Nat) : (s.setTime c).net = s.net := rfl
@[simp] theorem State.setTime_xbar (s : State) (c : Nat) : (s.setTime c).xbar = s.xbar := rfl
@[simp] theorem State.setTime_mem (s : State) (c : Nat) : (s.setTime c).mem = s.mem := rfl
@[simp] theorem State.setTime_side (s : State) (c : Nat) : (s.setTime c).side = s.side := rfl
@[simp] theorem State.setTime_pst (s : State) (c : Nat) : (s.setTime c).pst = s.pst := rfl
@[simp] theorem State.setTime_pwr (s : State) (c : Nat) : (s.setTime c).pwr = s.pwr := rfl
@[simp] theorem State.setTime_test (s : State) (c : Nat) : (s.setTime c).test = s.test := rfl
@[simp] theorem State.setTime_out (s : State) (c : Nat) : (s.setTime c).out = s.out := rfl
@[simp] theorem State.setTime_free (s : State) (c : Nat) : (s.setTime c).free = s.free := rfl
@[simp] theorem State.setTime_pending (s : State) (c : Nat) : (s.setTime c).pending = s.pending := rfl

/-! `State.send`. -/

@[simp] theorem State.send_tb (s : State) (o : Output) : (s.send o).tb = s.tb := rfl
@[simp] theorem State.send_log (s : State) (o : Output) : (s.send o).log = s.log := rfl
@[simp] theorem State.send_sess (s : State) (o : Output) : (s.send o).sess = s.sess := rfl
@[simp] theorem State.send_od (s : State) (o : Output) : (s.send o).od = s.od := rfl
@[simp] theorem State.send_acc (s : State) (o : Output) : (s.send o).acc = s.acc := rfl
@[simp] theorem State.send_ports (s : State) (o : Output) : (s.send o).ports = s.ports := rfl
@[simp] theorem State.send_cls (s : State) (o : Output) : (s.send o).cls = s.cls := rfl
@[simp] theorem State.send_store (s : State) (o : Output) : (s.send o).store = s.store := rfl
@[simp] theorem State.send_rep (s : State) (o : Output) : (s.send o).rep = s.rep := rfl
@[simp] theorem State.send_link (s : State) (o : Output) : (s.send o).link = s.link := rfl
@[simp] theorem State.send_fab (s : State) (o : Output) : (s.send o).fab = s.fab := rfl
@[simp] theorem State.send_sw (s : State) (o : Output) : (s.send o).sw = s.sw := rfl
@[simp] theorem State.send_eng (s : State) (o : Output) : (s.send o).eng = s.eng := rfl
@[simp] theorem State.send_pods (s : State) (o : Output) : (s.send o).pods = s.pods := rfl
@[simp] theorem State.send_net (s : State) (o : Output) : (s.send o).net = s.net := rfl
@[simp] theorem State.send_xbar (s : State) (o : Output) : (s.send o).xbar = s.xbar := rfl
@[simp] theorem State.send_mem (s : State) (o : Output) : (s.send o).mem = s.mem := rfl
@[simp] theorem State.send_side (s : State) (o : Output) : (s.send o).side = s.side := rfl
@[simp] theorem State.send_pst (s : State) (o : Output) : (s.send o).pst = s.pst := rfl
@[simp] theorem State.send_pwr (s : State) (o : Output) : (s.send o).pwr = s.pwr := rfl
@[simp] theorem State.send_test (s : State) (o : Output) : (s.send o).test = s.test := rfl
@[simp] theorem State.send_out (s : State) (o : Output) : (s.send o).out = s.out ++ [o] := rfl
@[simp] theorem State.send_free (s : State) (o : Output) : (s.send o).free = s.free := rfl
@[simp] theorem State.send_pending (s : State) (o : Output) : (s.send o).pending = s.pending := rfl

/-! `State.put`. -/

@[simp] theorem State.put_tb (s : State) (i b v : Nat) : (s.put i b v).tb = s.tb := rfl
@[simp] theorem State.put_log (s : State) (i b v : Nat) : (s.put i b v).log = s.log := rfl
@[simp] theorem State.put_sess (s : State) (i b v : Nat) : (s.put i b v).sess = s.sess := rfl
@[simp] theorem State.put_od (s : State) (i b v : Nat) : (s.put i b v).od = s.od.set (odKey i b) v := rfl
@[simp] theorem State.put_acc (s : State) (i b v : Nat) : (s.put i b v).acc = s.acc := rfl
@[simp] theorem State.put_ports (s : State) (i b v : Nat) : (s.put i b v).ports = s.ports := rfl
@[simp] theorem State.put_cls (s : State) (i b v : Nat) : (s.put i b v).cls = s.cls := rfl
@[simp] theorem State.put_store (s : State) (i b v : Nat) : (s.put i b v).store = s.store := rfl
@[simp] theorem State.put_rep (s : State) (i b v : Nat) : (s.put i b v).rep = s.rep := rfl
@[simp] theorem State.put_link (s : State) (i b v : Nat) : (s.put i b v).link = s.link := rfl
@[simp] theorem State.put_fab (s : State) (i b v : Nat) : (s.put i b v).fab = s.fab := rfl
@[simp] theorem State.put_sw (s : State) (i b v : Nat) : (s.put i b v).sw = s.sw := rfl
@[simp] theorem State.put_eng (s : State) (i b v : Nat) : (s.put i b v).eng = s.eng := rfl
@[simp] theorem State.put_pods (s : State) (i b v : Nat) : (s.put i b v).pods = s.pods := rfl
@[simp] theorem State.put_net (s : State) (i b v : Nat) : (s.put i b v).net = s.net := rfl
@[simp] theorem State.put_xbar (s : State) (i b v : Nat) : (s.put i b v).xbar = s.xbar := rfl
@[simp] theorem State.put_mem (s : State) (i b v : Nat) : (s.put i b v).mem = s.mem := rfl
@[simp] theorem State.put_side (s : State) (i b v : Nat) : (s.put i b v).side = s.side := rfl
@[simp] theorem State.put_pst (s : State) (i b v : Nat) : (s.put i b v).pst = s.pst := rfl
@[simp] theorem State.put_pwr (s : State) (i b v : Nat) : (s.put i b v).pwr = s.pwr := rfl
@[simp] theorem State.put_test (s : State) (i b v : Nat) : (s.put i b v).test = s.test := rfl
@[simp] theorem State.put_out (s : State) (i b v : Nat) : (s.put i b v).out = s.out := rfl
@[simp] theorem State.put_free (s : State) (i b v : Nat) : (s.put i b v).free = s.free := rfl
@[simp] theorem State.put_pending (s : State) (i b v : Nat) : (s.put i b v).pending = s.pending := rfl

/-! `State.setPort`. -/

@[simp] theorem State.setPort_tb (s : State) (p : Nat) (x : Port) : (s.setPort p x).tb = s.tb := rfl
@[simp] theorem State.setPort_log (s : State) (p : Nat) (x : Port) : (s.setPort p x).log = s.log := rfl
@[simp] theorem State.setPort_sess (s : State) (p : Nat) (x : Port) : (s.setPort p x).sess = s.sess := rfl
@[simp] theorem State.setPort_od (s : State) (p : Nat) (x : Port) : (s.setPort p x).od = s.od := rfl
@[simp] theorem State.setPort_acc (s : State) (p : Nat) (x : Port) : (s.setPort p x).acc = s.acc := rfl
@[simp] theorem State.setPort_ports (s : State) (p : Nat) (x : Port) : (s.setPort p x).ports = s.ports.set p x := rfl
@[simp] theorem State.setPort_cls (s : State) (p : Nat) (x : Port) : (s.setPort p x).cls = s.cls := rfl
@[simp] theorem State.setPort_store (s : State) (p : Nat) (x : Port) : (s.setPort p x).store = s.store := rfl
@[simp] theorem State.setPort_rep (s : State) (p : Nat) (x : Port) : (s.setPort p x).rep = s.rep := rfl
@[simp] theorem State.setPort_link (s : State) (p : Nat) (x : Port) : (s.setPort p x).link = s.link := rfl
@[simp] theorem State.setPort_fab (s : State) (p : Nat) (x : Port) : (s.setPort p x).fab = s.fab := rfl
@[simp] theorem State.setPort_sw (s : State) (p : Nat) (x : Port) : (s.setPort p x).sw = s.sw := rfl
@[simp] theorem State.setPort_eng (s : State) (p : Nat) (x : Port) : (s.setPort p x).eng = s.eng := rfl
@[simp] theorem State.setPort_pods (s : State) (p : Nat) (x : Port) : (s.setPort p x).pods = s.pods := rfl
@[simp] theorem State.setPort_net (s : State) (p : Nat) (x : Port) : (s.setPort p x).net = s.net := rfl
@[simp] theorem State.setPort_xbar (s : State) (p : Nat) (x : Port) : (s.setPort p x).xbar = s.xbar := rfl
@[simp] theorem State.setPort_mem (s : State) (p : Nat) (x : Port) : (s.setPort p x).mem = s.mem := rfl
@[simp] theorem State.setPort_side (s : State) (p : Nat) (x : Port) : (s.setPort p x).side = s.side := rfl
@[simp] theorem State.setPort_pst (s : State) (p : Nat) (x : Port) : (s.setPort p x).pst = s.pst := rfl
@[simp] theorem State.setPort_pwr (s : State) (p : Nat) (x : Port) : (s.setPort p x).pwr = s.pwr := rfl
@[simp] theorem State.setPort_test (s : State) (p : Nat) (x : Port) : (s.setPort p x).test = s.test := rfl
@[simp] theorem State.setPort_out (s : State) (p : Nat) (x : Port) : (s.setPort p x).out = s.out := rfl
@[simp] theorem State.setPort_free (s : State) (p : Nat) (x : Port) : (s.setPort p x).free = s.free := rfl
@[simp] theorem State.setPort_pending (s : State) (p : Nat) (x : Port) : (s.setPort p x).pending = s.pending := rfl

/-! `State.setEngine`. -/

@[simp] theorem State.setEngine_tb (s : State) (e : Nat) (x : Engine) : (s.setEngine e x).tb = s.tb := rfl
@[simp] theorem State.setEngine_log (s : State) (e : Nat) (x : Engine) : (s.setEngine e x).log = s.log := rfl
@[simp] theorem State.setEngine_sess (s : State) (e : Nat) (x : Engine) : (s.setEngine e x).sess = s.sess := rfl
@[simp] theorem State.setEngine_od (s : State) (e : Nat) (x : Engine) : (s.setEngine e x).od = s.od := rfl
@[simp] theorem State.setEngine_acc (s : State) (e : Nat) (x : Engine) : (s.setEngine e x).acc = s.acc := rfl
@[simp] theorem State.setEngine_ports (s : State) (e : Nat) (x : Engine) : (s.setEngine e x).ports = s.ports := rfl
@[simp] theorem State.setEngine_cls (s : State) (e : Nat) (x : Engine) : (s.setEngine e x).cls = s.cls := rfl
@[simp] theorem State.setEngine_store (s : State) (e : Nat) (x : Engine) : (s.setEngine e x).store = s.store := rfl
@[simp] theorem State.setEngine_rep (s : State) (e : Nat) (x : Engine) : (s.setEngine e x).rep = s.rep := rfl
@[simp] theorem State.setEngine_link (s : State) (e : Nat) (x : Engine) : (s.setEngine e x).link = s.link := rfl
@[simp] theorem State.setEngine_fab (s : State) (e : Nat) (x : Engine) : (s.setEngine e x).fab = s.fab := rfl
@[simp] theorem State.setEngine_sw (s : State) (e : Nat) (x : Engine) : (s.setEngine e x).sw = s.sw := rfl
@[simp] theorem State.setEngine_eng (s : State) (e : Nat) (x : Engine) : (s.setEngine e x).eng = s.eng.set e x := rfl
@[simp] theorem State.setEngine_pods (s : State) (e : Nat) (x : Engine) : (s.setEngine e x).pods = s.pods := rfl
@[simp] theorem State.setEngine_net (s : State) (e : Nat) (x : Engine) : (s.setEngine e x).net = s.net := rfl
@[simp] theorem State.setEngine_xbar (s : State) (e : Nat) (x : Engine) : (s.setEngine e x).xbar = s.xbar := rfl
@[simp] theorem State.setEngine_mem (s : State) (e : Nat) (x : Engine) : (s.setEngine e x).mem = s.mem := rfl
@[simp] theorem State.setEngine_side (s : State) (e : Nat) (x : Engine) : (s.setEngine e x).side = s.side := rfl
@[simp] theorem State.setEngine_pst (s : State) (e : Nat) (x : Engine) : (s.setEngine e x).pst = s.pst := rfl
@[simp] theorem State.setEngine_pwr (s : State) (e : Nat) (x : Engine) : (s.setEngine e x).pwr = s.pwr := rfl
@[simp] theorem State.setEngine_test (s : State) (e : Nat) (x : Engine) : (s.setEngine e x).test = s.test := rfl
@[simp] theorem State.setEngine_out (s : State) (e : Nat) (x : Engine) : (s.setEngine e x).out = s.out := rfl
@[simp] theorem State.setEngine_free (s : State) (e : Nat) (x : Engine) : (s.setEngine e x).free = s.free := rfl
@[simp] theorem State.setEngine_pending (s : State) (e : Nat) (x : Engine) : (s.setEngine e x).pending = s.pending := rfl

/-! `State.setPod`. -/

@[simp] theorem State.setPod_tb (s : State) (p : Nat) (x : Pod) : (s.setPod p x).tb = s.tb := rfl
@[simp] theorem State.setPod_log (s : State) (p : Nat) (x : Pod) : (s.setPod p x).log = s.log := rfl
@[simp] theorem State.setPod_sess (s : State) (p : Nat) (x : Pod) : (s.setPod p x).sess = s.sess := rfl
@[simp] theorem State.setPod_od (s : State) (p : Nat) (x : Pod) : (s.setPod p x).od = s.od := rfl
@[simp] theorem State.setPod_acc (s : State) (p : Nat) (x : Pod) : (s.setPod p x).acc = s.acc := rfl
@[simp] theorem State.setPod_ports (s : State) (p : Nat) (x : Pod) : (s.setPod p x).ports = s.ports := rfl
@[simp] theorem State.setPod_cls (s : State) (p : Nat) (x : Pod) : (s.setPod p x).cls = s.cls := rfl
@[simp] theorem State.setPod_store (s : State) (p : Nat) (x : Pod) : (s.setPod p x).store = s.store := rfl
@[simp] theorem State.setPod_rep (s : State) (p : Nat) (x : Pod) : (s.setPod p x).rep = s.rep := rfl
@[simp] theorem State.setPod_link (s : State) (p : Nat) (x : Pod) : (s.setPod p x).link = s.link := rfl
@[simp] theorem State.setPod_fab (s : State) (p : Nat) (x : Pod) : (s.setPod p x).fab = s.fab := rfl
@[simp] theorem State.setPod_sw (s : State) (p : Nat) (x : Pod) : (s.setPod p x).sw = s.sw := rfl
@[simp] theorem State.setPod_eng (s : State) (p : Nat) (x : Pod) : (s.setPod p x).eng = s.eng := rfl
@[simp] theorem State.setPod_pods (s : State) (p : Nat) (x : Pod) : (s.setPod p x).pods = s.pods.set p x := rfl
@[simp] theorem State.setPod_net (s : State) (p : Nat) (x : Pod) : (s.setPod p x).net = s.net := rfl
@[simp] theorem State.setPod_xbar (s : State) (p : Nat) (x : Pod) : (s.setPod p x).xbar = s.xbar := rfl
@[simp] theorem State.setPod_mem (s : State) (p : Nat) (x : Pod) : (s.setPod p x).mem = s.mem := rfl
@[simp] theorem State.setPod_side (s : State) (p : Nat) (x : Pod) : (s.setPod p x).side = s.side := rfl
@[simp] theorem State.setPod_pst (s : State) (p : Nat) (x : Pod) : (s.setPod p x).pst = s.pst := rfl
@[simp] theorem State.setPod_pwr (s : State) (p : Nat) (x : Pod) : (s.setPod p x).pwr = s.pwr := rfl
@[simp] theorem State.setPod_test (s : State) (p : Nat) (x : Pod) : (s.setPod p x).test = s.test := rfl
@[simp] theorem State.setPod_out (s : State) (p : Nat) (x : Pod) : (s.setPod p x).out = s.out := rfl
@[simp] theorem State.setPod_free (s : State) (p : Nat) (x : Pod) : (s.setPod p x).free = s.free := rfl
@[simp] theorem State.setPod_pending (s : State) (p : Nat) (x : Pod) : (s.setPod p x).pending = s.pending := rfl

/-! `State.setLane`. -/

@[simp] theorem State.setLane_tb (s : State) (l : Nat) (x : Lane) : (s.setLane l x).tb = s.tb := rfl
@[simp] theorem State.setLane_log (s : State) (l : Nat) (x : Lane) : (s.setLane l x).log = s.log := rfl
@[simp] theorem State.setLane_sess (s : State) (l : Nat) (x : Lane) : (s.setLane l x).sess = s.sess := rfl
@[simp] theorem State.setLane_od (s : State) (l : Nat) (x : Lane) : (s.setLane l x).od = s.od := rfl
@[simp] theorem State.setLane_acc (s : State) (l : Nat) (x : Lane) : (s.setLane l x).acc = s.acc := rfl
@[simp] theorem State.setLane_ports (s : State) (l : Nat) (x : Lane) : (s.setLane l x).ports = s.ports := rfl
@[simp] theorem State.setLane_cls (s : State) (l : Nat) (x : Lane) : (s.setLane l x).cls = s.cls := rfl
@[simp] theorem State.setLane_store (s : State) (l : Nat) (x : Lane) : (s.setLane l x).store = { s.store with lanes := s.store.lanes.set l x } := rfl
@[simp] theorem State.setLane_rep (s : State) (l : Nat) (x : Lane) : (s.setLane l x).rep = s.rep := rfl
@[simp] theorem State.setLane_link (s : State) (l : Nat) (x : Lane) : (s.setLane l x).link = s.link := rfl
@[simp] theorem State.setLane_fab (s : State) (l : Nat) (x : Lane) : (s.setLane l x).fab = s.fab := rfl
@[simp] theorem State.setLane_sw (s : State) (l : Nat) (x : Lane) : (s.setLane l x).sw = s.sw := rfl
@[simp] theorem State.setLane_eng (s : State) (l : Nat) (x : Lane) : (s.setLane l x).eng = s.eng := rfl
@[simp] theorem State.setLane_pods (s : State) (l : Nat) (x : Lane) : (s.setLane l x).pods = s.pods := rfl
@[simp] theorem State.setLane_net (s : State) (l : Nat) (x : Lane) : (s.setLane l x).net = s.net := rfl
@[simp] theorem State.setLane_xbar (s : State) (l : Nat) (x : Lane) : (s.setLane l x).xbar = s.xbar := rfl
@[simp] theorem State.setLane_mem (s : State) (l : Nat) (x : Lane) : (s.setLane l x).mem = s.mem := rfl
@[simp] theorem State.setLane_side (s : State) (l : Nat) (x : Lane) : (s.setLane l x).side = s.side := rfl
@[simp] theorem State.setLane_pst (s : State) (l : Nat) (x : Lane) : (s.setLane l x).pst = s.pst := rfl
@[simp] theorem State.setLane_pwr (s : State) (l : Nat) (x : Lane) : (s.setLane l x).pwr = s.pwr := rfl
@[simp] theorem State.setLane_test (s : State) (l : Nat) (x : Lane) : (s.setLane l x).test = s.test := rfl
@[simp] theorem State.setLane_out (s : State) (l : Nat) (x : Lane) : (s.setLane l x).out = s.out := rfl
@[simp] theorem State.setLane_free (s : State) (l : Nat) (x : Lane) : (s.setLane l x).free = s.free := rfl
@[simp] theorem State.setLane_pending (s : State) (l : Nat) (x : Lane) : (s.setLane l x).pending = s.pending := rfl

/-! `State.setTx`. -/

@[simp] theorem State.setTx_tb (s : State) (p : Nat) (x : TxPort) : (s.setTx p x).tb = s.tb := rfl
@[simp] theorem State.setTx_log (s : State) (p : Nat) (x : TxPort) : (s.setTx p x).log = s.log := rfl
@[simp] theorem State.setTx_sess (s : State) (p : Nat) (x : TxPort) : (s.setTx p x).sess = s.sess := rfl
@[simp] theorem State.setTx_od (s : State) (p : Nat) (x : TxPort) : (s.setTx p x).od = s.od := rfl
@[simp] theorem State.setTx_acc (s : State) (p : Nat) (x : TxPort) : (s.setTx p x).acc = s.acc := rfl
@[simp] theorem State.setTx_ports (s : State) (p : Nat) (x : TxPort) : (s.setTx p x).ports = s.ports := rfl
@[simp] theorem State.setTx_cls (s : State) (p : Nat) (x : TxPort) : (s.setTx p x).cls = s.cls := rfl
@[simp] theorem State.setTx_store (s : State) (p : Nat) (x : TxPort) : (s.setTx p x).store = s.store := rfl
@[simp] theorem State.setTx_rep (s : State) (p : Nat) (x : TxPort) : (s.setTx p x).rep = { s.rep with ports := s.rep.ports.set p x } := rfl
@[simp] theorem State.setTx_link (s : State) (p : Nat) (x : TxPort) : (s.setTx p x).link = s.link := rfl
@[simp] theorem State.setTx_fab (s : State) (p : Nat) (x : TxPort) : (s.setTx p x).fab = s.fab := rfl
@[simp] theorem State.setTx_sw (s : State) (p : Nat) (x : TxPort) : (s.setTx p x).sw = s.sw := rfl
@[simp] theorem State.setTx_eng (s : State) (p : Nat) (x : TxPort) : (s.setTx p x).eng = s.eng := rfl
@[simp] theorem State.setTx_pods (s : State) (p : Nat) (x : TxPort) : (s.setTx p x).pods = s.pods := rfl
@[simp] theorem State.setTx_net (s : State) (p : Nat) (x : TxPort) : (s.setTx p x).net = s.net := rfl
@[simp] theorem State.setTx_xbar (s : State) (p : Nat) (x : TxPort) : (s.setTx p x).xbar = s.xbar := rfl
@[simp] theorem State.setTx_mem (s : State) (p : Nat) (x : TxPort) : (s.setTx p x).mem = s.mem := rfl
@[simp] theorem State.setTx_side (s : State) (p : Nat) (x : TxPort) : (s.setTx p x).side = s.side := rfl
@[simp] theorem State.setTx_pst (s : State) (p : Nat) (x : TxPort) : (s.setTx p x).pst = s.pst := rfl
@[simp] theorem State.setTx_pwr (s : State) (p : Nat) (x : TxPort) : (s.setTx p x).pwr = s.pwr := rfl
@[simp] theorem State.setTx_test (s : State) (p : Nat) (x : TxPort) : (s.setTx p x).test = s.test := rfl
@[simp] theorem State.setTx_out (s : State) (p : Nat) (x : TxPort) : (s.setTx p x).out = s.out := rfl
@[simp] theorem State.setTx_free (s : State) (p : Nat) (x : TxPort) : (s.setTx p x).free = s.free := rfl
@[simp] theorem State.setTx_pending (s : State) (p : Nat) (x : TxPort) : (s.setTx p x).pending = s.pending := rfl

/-! `State.setBox`. -/

@[simp] theorem State.setBox_tb (s : State) (k : Nat) (x : Mailbox) : (s.setBox k x).tb = s.tb := rfl
@[simp] theorem State.setBox_log (s : State) (k : Nat) (x : Mailbox) : (s.setBox k x).log = s.log := rfl
@[simp] theorem State.setBox_sess (s : State) (k : Nat) (x : Mailbox) : (s.setBox k x).sess = s.sess := rfl
@[simp] theorem State.setBox_od (s : State) (k : Nat) (x : Mailbox) : (s.setBox k x).od = s.od := rfl
@[simp] theorem State.setBox_acc (s : State) (k : Nat) (x : Mailbox) : (s.setBox k x).acc = { s.acc with boxes := s.acc.boxes.set k x } := rfl
@[simp] theorem State.setBox_ports (s : State) (k : Nat) (x : Mailbox) : (s.setBox k x).ports = s.ports := rfl
@[simp] theorem State.setBox_cls (s : State) (k : Nat) (x : Mailbox) : (s.setBox k x).cls = s.cls := rfl
@[simp] theorem State.setBox_store (s : State) (k : Nat) (x : Mailbox) : (s.setBox k x).store = s.store := rfl
@[simp] theorem State.setBox_rep (s : State) (k : Nat) (x : Mailbox) : (s.setBox k x).rep = s.rep := rfl
@[simp] theorem State.setBox_link (s : State) (k : Nat) (x : Mailbox) : (s.setBox k x).link = s.link := rfl
@[simp] theorem State.setBox_fab (s : State) (k : Nat) (x : Mailbox) : (s.setBox k x).fab = s.fab := rfl
@[simp] theorem State.setBox_sw (s : State) (k : Nat) (x : Mailbox) : (s.setBox k x).sw = s.sw := rfl
@[simp] theorem State.setBox_eng (s : State) (k : Nat) (x : Mailbox) : (s.setBox k x).eng = s.eng := rfl
@[simp] theorem State.setBox_pods (s : State) (k : Nat) (x : Mailbox) : (s.setBox k x).pods = s.pods := rfl
@[simp] theorem State.setBox_net (s : State) (k : Nat) (x : Mailbox) : (s.setBox k x).net = s.net := rfl
@[simp] theorem State.setBox_xbar (s : State) (k : Nat) (x : Mailbox) : (s.setBox k x).xbar = s.xbar := rfl
@[simp] theorem State.setBox_mem (s : State) (k : Nat) (x : Mailbox) : (s.setBox k x).mem = s.mem := rfl
@[simp] theorem State.setBox_side (s : State) (k : Nat) (x : Mailbox) : (s.setBox k x).side = s.side := rfl
@[simp] theorem State.setBox_pst (s : State) (k : Nat) (x : Mailbox) : (s.setBox k x).pst = s.pst := rfl
@[simp] theorem State.setBox_pwr (s : State) (k : Nat) (x : Mailbox) : (s.setBox k x).pwr = s.pwr := rfl
@[simp] theorem State.setBox_test (s : State) (k : Nat) (x : Mailbox) : (s.setBox k x).test = s.test := rfl
@[simp] theorem State.setBox_out (s : State) (k : Nat) (x : Mailbox) : (s.setBox k x).out = s.out := rfl
@[simp] theorem State.setBox_free (s : State) (k : Nat) (x : Mailbox) : (s.setBox k x).free = s.free := rfl
@[simp] theorem State.setBox_pending (s : State) (k : Nat) (x : Mailbox) : (s.setBox k x).pending = s.pending := rfl

/-! `State.setLpath`. -/

@[simp] theorem State.setLpath_tb (s : State) (p : Nat) (x : LinkPath) : (s.setLpath p x).tb = s.tb := rfl
@[simp] theorem State.setLpath_log (s : State) (p : Nat) (x : LinkPath) : (s.setLpath p x).log = s.log := rfl
@[simp] theorem State.setLpath_sess (s : State) (p : Nat) (x : LinkPath) : (s.setLpath p x).sess = s.sess := rfl
@[simp] theorem State.setLpath_od (s : State) (p : Nat) (x : LinkPath) : (s.setLpath p x).od = s.od := rfl
@[simp] theorem State.setLpath_acc (s : State) (p : Nat) (x : LinkPath) : (s.setLpath p x).acc = s.acc := rfl
@[simp] theorem State.setLpath_ports (s : State) (p : Nat) (x : LinkPath) : (s.setLpath p x).ports = s.ports := rfl
@[simp] theorem State.setLpath_cls (s : State) (p : Nat) (x : LinkPath) : (s.setLpath p x).cls = s.cls := rfl
@[simp] theorem State.setLpath_store (s : State) (p : Nat) (x : LinkPath) : (s.setLpath p x).store = s.store := rfl
@[simp] theorem State.setLpath_rep (s : State) (p : Nat) (x : LinkPath) : (s.setLpath p x).rep = s.rep := rfl
@[simp] theorem State.setLpath_link (s : State) (p : Nat) (x : LinkPath) : (s.setLpath p x).link = { s.link with paths := s.link.paths.set p x } := rfl
@[simp] theorem State.setLpath_fab (s : State) (p : Nat) (x : LinkPath) : (s.setLpath p x).fab = s.fab := rfl
@[simp] theorem State.setLpath_sw (s : State) (p : Nat) (x : LinkPath) : (s.setLpath p x).sw = s.sw := rfl
@[simp] theorem State.setLpath_eng (s : State) (p : Nat) (x : LinkPath) : (s.setLpath p x).eng = s.eng := rfl
@[simp] theorem State.setLpath_pods (s : State) (p : Nat) (x : LinkPath) : (s.setLpath p x).pods = s.pods := rfl
@[simp] theorem State.setLpath_net (s : State) (p : Nat) (x : LinkPath) : (s.setLpath p x).net = s.net := rfl
@[simp] theorem State.setLpath_xbar (s : State) (p : Nat) (x : LinkPath) : (s.setLpath p x).xbar = s.xbar := rfl
@[simp] theorem State.setLpath_mem (s : State) (p : Nat) (x : LinkPath) : (s.setLpath p x).mem = s.mem := rfl
@[simp] theorem State.setLpath_side (s : State) (p : Nat) (x : LinkPath) : (s.setLpath p x).side = s.side := rfl
@[simp] theorem State.setLpath_pst (s : State) (p : Nat) (x : LinkPath) : (s.setLpath p x).pst = s.pst := rfl
@[simp] theorem State.setLpath_pwr (s : State) (p : Nat) (x : LinkPath) : (s.setLpath p x).pwr = s.pwr := rfl
@[simp] theorem State.setLpath_test (s : State) (p : Nat) (x : LinkPath) : (s.setLpath p x).test = s.test := rfl
@[simp] theorem State.setLpath_out (s : State) (p : Nat) (x : LinkPath) : (s.setLpath p x).out = s.out := rfl
@[simp] theorem State.setLpath_free (s : State) (p : Nat) (x : LinkPath) : (s.setLpath p x).free = s.free := rfl
@[simp] theorem State.setLpath_pending (s : State) (p : Nat) (x : LinkPath) : (s.setLpath p x).pending = s.pending := rfl

/-! `State.setFport`. -/

@[simp] theorem State.setFport_tb (s : State) (k : Nat) (x : FabPort) : (s.setFport k x).tb = s.tb := rfl
@[simp] theorem State.setFport_log (s : State) (k : Nat) (x : FabPort) : (s.setFport k x).log = s.log := rfl
@[simp] theorem State.setFport_sess (s : State) (k : Nat) (x : FabPort) : (s.setFport k x).sess = s.sess := rfl
@[simp] theorem State.setFport_od (s : State) (k : Nat) (x : FabPort) : (s.setFport k x).od = s.od := rfl
@[simp] theorem State.setFport_acc (s : State) (k : Nat) (x : FabPort) : (s.setFport k x).acc = s.acc := rfl
@[simp] theorem State.setFport_ports (s : State) (k : Nat) (x : FabPort) : (s.setFport k x).ports = s.ports := rfl
@[simp] theorem State.setFport_cls (s : State) (k : Nat) (x : FabPort) : (s.setFport k x).cls = s.cls := rfl
@[simp] theorem State.setFport_store (s : State) (k : Nat) (x : FabPort) : (s.setFport k x).store = s.store := rfl
@[simp] theorem State.setFport_rep (s : State) (k : Nat) (x : FabPort) : (s.setFport k x).rep = s.rep := rfl
@[simp] theorem State.setFport_link (s : State) (k : Nat) (x : FabPort) : (s.setFport k x).link = s.link := rfl
@[simp] theorem State.setFport_fab (s : State) (k : Nat) (x : FabPort) : (s.setFport k x).fab = { s.fab with ports := s.fab.ports.set k x } := rfl
@[simp] theorem State.setFport_sw (s : State) (k : Nat) (x : FabPort) : (s.setFport k x).sw = s.sw := rfl
@[simp] theorem State.setFport_eng (s : State) (k : Nat) (x : FabPort) : (s.setFport k x).eng = s.eng := rfl
@[simp] theorem State.setFport_pods (s : State) (k : Nat) (x : FabPort) : (s.setFport k x).pods = s.pods := rfl
@[simp] theorem State.setFport_net (s : State) (k : Nat) (x : FabPort) : (s.setFport k x).net = s.net := rfl
@[simp] theorem State.setFport_xbar (s : State) (k : Nat) (x : FabPort) : (s.setFport k x).xbar = s.xbar := rfl
@[simp] theorem State.setFport_mem (s : State) (k : Nat) (x : FabPort) : (s.setFport k x).mem = s.mem := rfl
@[simp] theorem State.setFport_side (s : State) (k : Nat) (x : FabPort) : (s.setFport k x).side = s.side := rfl
@[simp] theorem State.setFport_pst (s : State) (k : Nat) (x : FabPort) : (s.setFport k x).pst = s.pst := rfl
@[simp] theorem State.setFport_pwr (s : State) (k : Nat) (x : FabPort) : (s.setFport k x).pwr = s.pwr := rfl
@[simp] theorem State.setFport_test (s : State) (k : Nat) (x : FabPort) : (s.setFport k x).test = s.test := rfl
@[simp] theorem State.setFport_out (s : State) (k : Nat) (x : FabPort) : (s.setFport k x).out = s.out := rfl
@[simp] theorem State.setFport_free (s : State) (k : Nat) (x : FabPort) : (s.setFport k x).free = s.free := rfl
@[simp] theorem State.setFport_pending (s : State) (k : Nat) (x : FabPort) : (s.setFport k x).pending = s.pending := rfl

/-! `State.healSide`. -/

@[simp] theorem State.healSide_tb (s : State) (r : SideRow) : (s.healSide r).tb = s.tb := rfl
@[simp] theorem State.healSide_log (s : State) (r : SideRow) : (s.healSide r).log = s.log := rfl
@[simp] theorem State.healSide_sess (s : State) (r : SideRow) : (s.healSide r).sess = s.sess := rfl
@[simp] theorem State.healSide_od (s : State) (r : SideRow) : (s.healSide r).od = s.od := rfl
@[simp] theorem State.healSide_acc (s : State) (r : SideRow) : (s.healSide r).acc = s.acc := rfl
@[simp] theorem State.healSide_ports (s : State) (r : SideRow) : (s.healSide r).ports = s.ports := rfl
@[simp] theorem State.healSide_cls (s : State) (r : SideRow) : (s.healSide r).cls = s.cls := rfl
@[simp] theorem State.healSide_store (s : State) (r : SideRow) : (s.healSide r).store = s.store := rfl
@[simp] theorem State.healSide_rep (s : State) (r : SideRow) : (s.healSide r).rep = s.rep := rfl
@[simp] theorem State.healSide_link (s : State) (r : SideRow) : (s.healSide r).link = s.link := rfl
@[simp] theorem State.healSide_fab (s : State) (r : SideRow) : (s.healSide r).fab = s.fab := rfl
@[simp] theorem State.healSide_sw (s : State) (r : SideRow) : (s.healSide r).sw = s.sw := rfl
@[simp] theorem State.healSide_eng (s : State) (r : SideRow) : (s.healSide r).eng = s.eng := rfl
@[simp] theorem State.healSide_pods (s : State) (r : SideRow) : (s.healSide r).pods = s.pods := rfl
@[simp] theorem State.healSide_net (s : State) (r : SideRow) : (s.healSide r).net = s.net := rfl
@[simp] theorem State.healSide_xbar (s : State) (r : SideRow) : (s.healSide r).xbar = s.xbar := rfl
@[simp] theorem State.healSide_mem (s : State) (r : SideRow) : (s.healSide r).mem = s.mem := rfl
@[simp] theorem State.healSide_side (s : State) (r : SideRow) : (s.healSide r).side = s.side.filter (·.1 != r) := rfl
@[simp] theorem State.healSide_pst (s : State) (r : SideRow) : (s.healSide r).pst = s.pst := rfl
@[simp] theorem State.healSide_pwr (s : State) (r : SideRow) : (s.healSide r).pwr = s.pwr := rfl
@[simp] theorem State.healSide_test (s : State) (r : SideRow) : (s.healSide r).test = s.test := rfl
@[simp] theorem State.healSide_out (s : State) (r : SideRow) : (s.healSide r).out = s.out := rfl
@[simp] theorem State.healSide_free (s : State) (r : SideRow) : (s.healSide r).free = s.free := rfl
@[simp] theorem State.healSide_pending (s : State) (r : SideRow) : (s.healSide r).pending = s.pending := rfl

/-! `State.healSides`. -/

@[simp] theorem State.healSides_tb (s : State) (f : SideRow → Bool) : (s.healSides f).tb = s.tb := rfl
@[simp] theorem State.healSides_log (s : State) (f : SideRow → Bool) : (s.healSides f).log = s.log := rfl
@[simp] theorem State.healSides_sess (s : State) (f : SideRow → Bool) : (s.healSides f).sess = s.sess := rfl
@[simp] theorem State.healSides_od (s : State) (f : SideRow → Bool) : (s.healSides f).od = s.od := rfl
@[simp] theorem State.healSides_acc (s : State) (f : SideRow → Bool) : (s.healSides f).acc = s.acc := rfl
@[simp] theorem State.healSides_ports (s : State) (f : SideRow → Bool) : (s.healSides f).ports = s.ports := rfl
@[simp] theorem State.healSides_cls (s : State) (f : SideRow → Bool) : (s.healSides f).cls = s.cls := rfl
@[simp] theorem State.healSides_store (s : State) (f : SideRow → Bool) : (s.healSides f).store = s.store := rfl
@[simp] theorem State.healSides_rep (s : State) (f : SideRow → Bool) : (s.healSides f).rep = s.rep := rfl
@[simp] theorem State.healSides_link (s : State) (f : SideRow → Bool) : (s.healSides f).link = s.link := rfl
@[simp] theorem State.healSides_fab (s : State) (f : SideRow → Bool) : (s.healSides f).fab = s.fab := rfl
@[simp] theorem State.healSides_sw (s : State) (f : SideRow → Bool) : (s.healSides f).sw = s.sw := rfl
@[simp] theorem State.healSides_eng (s : State) (f : SideRow → Bool) : (s.healSides f).eng = s.eng := rfl
@[simp] theorem State.healSides_pods (s : State) (f : SideRow → Bool) : (s.healSides f).pods = s.pods := rfl
@[simp] theorem State.healSides_net (s : State) (f : SideRow → Bool) : (s.healSides f).net = s.net := rfl
@[simp] theorem State.healSides_xbar (s : State) (f : SideRow → Bool) : (s.healSides f).xbar = s.xbar := rfl
@[simp] theorem State.healSides_mem (s : State) (f : SideRow → Bool) : (s.healSides f).mem = s.mem := rfl
@[simp] theorem State.healSides_side (s : State) (f : SideRow → Bool) : (s.healSides f).side = s.side.filter fun e => !f e.1 := rfl
@[simp] theorem State.healSides_pst (s : State) (f : SideRow → Bool) : (s.healSides f).pst = s.pst := rfl
@[simp] theorem State.healSides_pwr (s : State) (f : SideRow → Bool) : (s.healSides f).pwr = s.pwr := rfl
@[simp] theorem State.healSides_test (s : State) (f : SideRow → Bool) : (s.healSides f).test = s.test := rfl
@[simp] theorem State.healSides_out (s : State) (f : SideRow → Bool) : (s.healSides f).out = s.out := rfl
@[simp] theorem State.healSides_free (s : State) (f : SideRow → Bool) : (s.healSides f).free = s.free := rfl
@[simp] theorem State.healSides_pending (s : State) (f : SideRow → Bool) : (s.healSides f).pending = s.pending := rfl

/-! `State.wrote`. -/

@[simp] theorem State.wrote_tb (s : State) (c : List Nat) : (s.wrote c).tb = s.tb := rfl
@[simp] theorem State.wrote_log (s : State) (c : List Nat) : (s.wrote c).log = s.log := rfl
@[simp] theorem State.wrote_sess (s : State) (c : List Nat) : (s.wrote c).sess = s.sess := rfl
@[simp] theorem State.wrote_od (s : State) (c : List Nat) : (s.wrote c).od = s.od := rfl
@[simp] theorem State.wrote_acc (s : State) (c : List Nat) : (s.wrote c).acc = s.acc := rfl
@[simp] theorem State.wrote_ports (s : State) (c : List Nat) : (s.wrote c).ports = s.ports := rfl
@[simp] theorem State.wrote_cls (s : State) (c : List Nat) : (s.wrote c).cls = s.cls := rfl
@[simp] theorem State.wrote_store (s : State) (c : List Nat) : (s.wrote c).store = s.store := rfl
@[simp] theorem State.wrote_rep (s : State) (c : List Nat) : (s.wrote c).rep = s.rep := rfl
@[simp] theorem State.wrote_link (s : State) (c : List Nat) : (s.wrote c).link = s.link := rfl
@[simp] theorem State.wrote_fab (s : State) (c : List Nat) : (s.wrote c).fab = s.fab := rfl
@[simp] theorem State.wrote_sw (s : State) (c : List Nat) : (s.wrote c).sw = s.sw := rfl
@[simp] theorem State.wrote_eng (s : State) (c : List Nat) : (s.wrote c).eng = s.eng := rfl
@[simp] theorem State.wrote_pods (s : State) (c : List Nat) : (s.wrote c).pods = s.pods := rfl
@[simp] theorem State.wrote_net (s : State) (c : List Nat) : (s.wrote c).net = s.net := rfl
@[simp] theorem State.wrote_xbar (s : State) (c : List Nat) : (s.wrote c).xbar = s.xbar := rfl
@[simp] theorem State.wrote_mem (s : State) (c : List Nat) : (s.wrote c).mem = s.mem := rfl
@[simp] theorem State.wrote_side (s : State) (c : List Nat) : (s.wrote c).side = s.side := rfl
@[simp] theorem State.wrote_pst (s : State) (c : List Nat) : (s.wrote c).pst = s.pst.wrote c := rfl
@[simp] theorem State.wrote_pwr (s : State) (c : List Nat) : (s.wrote c).pwr = s.pwr := rfl
@[simp] theorem State.wrote_test (s : State) (c : List Nat) : (s.wrote c).test = s.test := rfl
@[simp] theorem State.wrote_out (s : State) (c : List Nat) : (s.wrote c).out = s.out := rfl
@[simp] theorem State.wrote_free (s : State) (c : List Nat) : (s.wrote c).free = s.free := rfl
@[simp] theorem State.wrote_pending (s : State) (c : List Nat) : (s.wrote c).pending = s.pending := rfl

/-! Reads through a table. -/

@[simp] theorem State.port_setPort (s : State) (p : Nat) (x : Port) : (s.setPort p x).port p = x := by simp [State.port]

theorem State.port_setPort_ne (s : State) {p j : Nat} (x : Port) (h : j ≠ p) : (s.setPort p x).port j = s.port j := by
  simp [State.port, Tab.get_set_ne _ _ _ h]

@[simp] theorem State.pod_setPod (s : State) (p : Nat) (x : Pod) : (s.setPod p x).pod p = x := by simp [State.pod]

theorem State.pod_setPod_ne (s : State) {p j : Nat} (x : Pod) (h : j ≠ p) : (s.setPod p x).pod j = s.pod j := by
  simp [State.pod, Tab.get_set_ne _ _ _ h]

@[simp] theorem State.lane_setLane (s : State) (l : Nat) (x : Lane) : (s.setLane l x).lane l = x := by simp [State.lane]

theorem State.lane_setLane_ne (s : State) {l j : Nat} (x : Lane) (h : j ≠ l) : (s.setLane l x).lane j = s.lane j := by
  simp [State.lane, Tab.get_set_ne _ _ _ h]

@[simp] theorem State.tx_setTx (s : State) (p : Nat) (x : TxPort) : (s.setTx p x).tx p = x := by simp [State.tx]

theorem State.tx_setTx_ne (s : State) {p j : Nat} (x : TxPort) (h : j ≠ p) : (s.setTx p x).tx j = s.tx j := by
  simp [State.tx, Tab.get_set_ne _ _ _ h]

@[simp] theorem State.lpath_setLpath (s : State) (p : Nat) (x : LinkPath) : (s.setLpath p x).lpath p = x := by simp [State.lpath]

theorem State.lpath_setLpath_ne (s : State) {p j : Nat} (x : LinkPath) (h : j ≠ p) : (s.setLpath p x).lpath j = s.lpath j := by
  simp [State.lpath, Tab.get_set_ne _ _ _ h]

@[simp] theorem State.fport_setFport (s : State) (k : Nat) (x : FabPort) : (s.setFport k x).fport k = x := by simp [State.fport]

theorem State.fport_setFport_ne (s : State) {k j : Nat} (x : FabPort) (h : j ≠ k) : (s.setFport k x).fport j = s.fport j := by
  simp [State.fport, Tab.get_set_ne _ _ _ h]

/-- An object just stored reads as its value, in subindices of one byte. -/
@[simp] theorem State.cfg_put (s : State) (i b v : Nat) : (s.put i b v).cfg i b = v := by simp [State.cfg]

theorem State.cfg_put_ne (s : State) {i b i' b' : Nat} (v : Nat) (hb : b < 256) (hb' : b' < 256) (h : (i', b') ≠ (i, b)) :
    (s.put i b v).cfg i' b' = s.cfg i' b' := by
  have hk : odKey i' b' ≠ odKey i b := by
    intro e
    simp only [odKey] at e
    exact h (by simp only [Prod.mk.injEq]; omega)
  simp [State.cfg, Tab.find_set_ne _ _ hk]

/-! Rows outside the address map, while none of those a reader looks at holds a wrong bit. -/

theorem State.sidesBad_sound {s : State} {f : SideRow → Bool} (h : ∀ e ∈ s.side, f e.1 = false) : s.sidesBad f = false := by
  simp only [State.sidesBad, List.any_eq_false]
  intro e he
  simp [h e he]

theorem State.sideBad_sound {s : State} {r : SideRow} (h : ∀ e ∈ s.side, e.1 ≠ r) : s.sideBad r = false := by
  simp only [State.sideBad, List.any_eq_false]
  intro e he
  simp [h e he]

theorem State.sideRows_sound {s : State} {f : SideRow → Bool} (h : ∀ e ∈ s.side, f e.1 = false) (lost : Bool) : s.sideRows f lost = [] := by
  have hf : (s.side.filter fun e => f e.1 && decide (sideLost e.2.2 = lost)) = [] := by
    rw [List.filter_eq_nil_iff]
    intro e he
    simp [h e he]
  simp only [State.sideRows, hf, List.map_nil]
  rfl

theorem State.readSides_sound {s : State} {f : SideRow → Bool} (h : ∀ e ∈ s.side, f e.1 = false) : s.readSides f = s := by
  simp only [State.readSides, State.sideRows_sound h, List.foldl_nil, List.filter_nil, List.length_nil]
  rfl

theorem State.healSides_sound {s : State} {f : SideRow → Bool} (h : ∀ e ∈ s.side, f e.1 = false) : s.healSides f = s := by
  have hf : (s.side.filter fun e => !f e.1) = s.side := by
    rw [List.filter_eq_self]
    intro e he
    simp [h e he]
  simp only [State.healSides, hf]

/-- The count after chip time was set, below the counter's end. -/
theorem State.now_setTime (s : State) (c : Nat) (h : c < 2 ^ 80) : (s.setTime c).now = c := by
  simp only [State.now, State.setTime_tb, BitVec.toNat_ofNat]
  have h1 : c / 2 ^ 48 < 2 ^ 32 := by omega
  rw [Nat.mod_eq_of_lt h1]
  omega

end Sys2Proof.Machine
end

