-- ==== Sys2Proof/Laws/Word.lean ====
section
/-! SUPPORT. Laws of byte lists: a number and its bytes. -/

namespace Sys2Proof

/-- The bytes of a number give it back, as far as they reach. -/
theorem leNat_leBytes (n v : Nat) : leNat (leBytes n v) = v % 256 ^ n := by
  induction n generalizing v with
  | zero => simp [leBytes, leNat, Nat.mod_one]
  | succ n ih =>
    show (BitVec.ofNat 8 v).toNat + 256 * leNat (leBytes n (v / 256)) = _
    rw [ih, Nat.pow_succ', Nat.mod_mul]
    rfl

/-- As many bytes as were asked for. -/
@[simp] theorem leBytes_length (n v : Nat) : (leBytes n v).length = n := by
  induction n generalizing v with
  | zero => rfl
  | succ n ih => simp [leBytes, ih]

end Sys2Proof
end

