-- ==== Sys2Proof/WellFormed.lean ====
section
/-! DEFINITION. Well-formed commands: the operand limits that the operand types do not carry. `exec` is total and does not ask for them; they
say which commands a sender can mean. -/

namespace Sys2Proof

/-- Most data bytes of a CAN frame by format (03 R54, R70). -/
def CanFmt.maxData : CanFmt → Nat
  | .classic => 8
  | .fd => 64
  | .xl => 2048

/-- A CAN frame's data fits its format, a remote frame is a classic frame without data, and an 11-bit identifier has 11 bits (03 R54). -/
def CanFrame.wf (f : CanFrame) : Bool :=
  f.data.length ≤ f.fmt.maxData && (!f.rtr || (f.fmt == .classic && f.data.isEmpty)) && (f.ext || f.ident.toNat < 2048)

/-- What a MAC received is no longer than the frame on the wire (03 R59). -/
def EthFrame.wf (f : EthFrame) : Bool := f.bytes.length ≤ f.wireLen && f.codeAt.all (· ≤ f.bytes.length)

/-- A SENT frame has at most six data nibbles (03 R62). -/
def SentFrame.wf (f : SentFrame) : Bool := f.nibbles.length ≤ 6

/-- A PSI5 frame has 10 to 28 data bits (03 R62), fewer where a Manchester violation ends it (R63). -/
def Psi5Frame.wf (f : Psi5Frame) : Bool := (f.manchesterBad || 10 ≤ f.nbits.val) && f.nbits.val ≤ 28

/-- A LIN response has one to eight data bytes and the checksum (03 R62), less where a framing error ends it (R63). -/
def LinFrame.wf (f : LinFrame) : Bool := f.resp.all fun r => (f.framingBad || 2 ≤ r.length) && r.length ≤ 9

/-- A sample-port frame has one or more lines of equally many words (03 R65). -/
def linesWf (l : List (List (BitVec 32))) : Bool :=
  match l with
  | [] => false
  | a :: t => t.all fun b => b.length == a.length

/-- A flit's payload has PLEN bytes, at most 52 (16 R342). -/
def Flit.wf (f : Flit) : Bool := f.payload.length == f.plen.toNat && f.payload.length ≤ 52

/-- A crossbar request moves 1 to 64 bytes inside one 64-byte block, and a write carries them (15 R326). -/
def XReq.wf (r : XReq) : Bool :=
  1 ≤ r.len.val && r.addr.toNat % 64 + r.len.val ≤ 64 && (!r.write || r.data.length == r.len.val)

/-- A tag of a link frame has 16 bytes (07 R138). -/
def LinkFrame.wf (f : LinkFrame) : Bool := f.tag.length == 16

/-- The table windows (04 R87, 06 R132, 07 R135, 16 R360). -/
def windowWf (idx : BitVec 16) : Bool :=
  let i := idx.toNat
  (0x3000 ≤ i && i ≤ 0x32FF) || i == 0x3400 || i == 0x3401 || (0x3600 ≤ i && i ≤ 0x361F) || (0x3700 ≤ i && i ≤ 0x3707)

/-- Sixteen sensors, twenty-four voltage monitors, six clock monitors (18 R405, R419). -/
def sensorsWf (temps : List Int) (volts clocks : List Nat) : Bool := temps.length == 16 && volts.length == 24 && clocks.length == 6

/-- Whether a command is well formed. -/
def Instr.wf : Instr → Bool
  | .tickWrap _ => true
  | .calibration => true
  | .sourceSelection => true
  | .sourceQualified _ => true
  | .sourceLost _ => true
  | .ppsPulse _ _ => true
  | .gptpMessage _ _ _ => true
  | .commitShadowMapping _ _ => true
  | .utcOffsetWrite _ _ => true
  | .chipTimeSnapshotRead _ => true
  | .snapshotTickRead _ => true
  | .canFrameReceived _ _ frame => frame.wf
  | .canBusEvent _ _ _ => true
  | .busOffRecovery _ _ => true
  | .ethernetFrameReceived _ _ frame => frame.wf
  | .ethLinkUp _ _ => true
  | .ethLinkDown _ => true
  | .sentFrameReceived _ _ frame => frame.wf
  | .psi5FrameReceived _ _ frame => frame.wf
  | .linFrameReceived _ _ frame => frame.wf
  | .edgeLevelAccepted _ _ _ => true
  | .pwmMeasurement _ _ _ _ => true
  | .samplePortFrame _ _ lines => linesWf lines
  | .classifyFrame _ => true
  | .siftFrame => true
  | .commitShadowTables _ _ => true
  | .tableCheckComplete => true
  | .copyActiveToShadow _ _ => true
  | .tableCopyComplete => true
  | .tableWindowWrite _ idx _ _ => windowWf idx
  | .blockClose _ => true
  | .blockAgeExpiry _ => true
  | .outputLaneWrapTimeout _ => true
  | .segmentAgeExpiry => true
  | .signatureTimeDue => true
  | .segmentHashComplete => true
  | .nvmeCommandComplete _ _ _ => true
  | .flushIntervalExpiry => true
  | .nvmeHealthPoll _ => true
  | .nvmeCommandTimeout _ _ => true
  | .controllerResetComplete _ _ => true
  | .ssdBringupRetry _ _ => true
  | .feedEmitEntry _ => true
  | .emitCountReached _ => true
  | .holdResume => true
  | .canBusIdleTx _ _ => true
  | .frameTransmitted _ _ => true
  | .linkBlockAgeExpiry _ _ => true
  | .linkFrameSend _ => true
  | .linkRecordShed _ => true
  | .codeGroupTimeout => true
  | .helloTimer => true
  | .linkHelloReceived _ frame => frame.wf
  | .linkAnswerReceived _ frame => frame.wf
  | .rekeyIntervalExpiry => true
  | .oldKeyExpiry => true
  | .reportIntervalExpiry _ => true
  | .linkReportReceived _ frame => frame.wf
  | .pathReportTimeout _ => true
  | .nakTimer _ _ => true
  | .linkNakReceived _ frame => frame.wf
  | .linkDataFrameReceived _ frame => frame.wf
  | .recordRelease => true
  | .linkCloseReceived _ frame => frame.wf
  | .pathCloseExpiry _ => true
  | .engineMove _ => true
  | .ctlModeWrite _ _ => true
  | .ctlDoorWrite _ _ => true
  | .chkCfgWrite _ _ => true
  | .chainedStateWrite _ _ _ => true
  | .rptCountWrite _ _ _ => true
  | .rptBoundsWrite _ _ _ => true
  | .smvPortWrite _ _ _ => true
  | .spuRingWrite _ _ _ => true
  | .spuPredWrite _ _ => true
  | .aluAdd _ _ _ _ => true
  | .aluAddc _ _ _ _ => true
  | .aluSub _ _ _ _ => true
  | .aluSubb _ _ _ _ => true
  | .aluNeg _ _ _ _ => true
  | .aluAbs _ _ _ _ => true
  | .aluAnd _ _ _ _ => true
  | .aluOr _ _ _ _ => true
  | .aluXor _ _ _ _ => true
  | .aluAndn _ _ _ _ => true
  | .aluNot _ _ _ _ => true
  | .aluMin _ _ _ _ => true
  | .aluMax _ _ _ _ => true
  | .aluMinu _ _ _ _ => true
  | .aluMaxu _ _ _ _ => true
  | .aluPass _ _ _ _ => true
  | .macMul _ _ => true
  | .macMulu _ _ => true
  | .macMac _ _ => true
  | .macMacu _ _ => true
  | .macMsu _ _ => true
  | .macMsuu _ _ => true
  | .macClr _ _ => true
  | .macRd _ _ => true
  | .shfShl _ _ _ => true
  | .shfShr _ _ _ => true
  | .shfSar _ _ _ => true
  | .shfRol _ _ _ => true
  | .shfRor _ _ _ => true
  | .shfExt _ _ _ => true
  | .shfExts _ _ _ => true
  | .shfIns _ _ _ => true
  | .chkStep8 _ _ => true
  | .chkStep16 _ _ => true
  | .chkStep24 _ _ => true
  | .chkPar _ _ => true
  | .chkParb _ _ => true
  | .chkRev _ _ => true
  | .chkRevb _ _ => true
  | .chkRevn _ _ => true
  | .chkPop _ _ _ => true
  | .chkClz _ _ _ => true
  | .divDiv _ _ _ => true
  | .divDivu _ _ _ => true
  | .lsu0LdB _ _ => true
  | .lsu0LdBu _ _ => true
  | .lsu0LdW _ _ => true
  | .lsu0LdL _ _ => true
  | .lsu0StB _ _ => true
  | .lsu0StW _ _ => true
  | .lsu0StL _ _ => true
  | .lsu1LdB _ _ => true
  | .lsu1LdBu _ _ => true
  | .lsu1LdW _ _ => true
  | .lsu1LdL _ _ => true
  | .lsu1StB _ _ => true
  | .lsu1StW _ _ => true
  | .lsu1StL _ _ => true
  | .lsu1RequestGranted _ _ => true
  | .lsu1DataReturn _ _ _ => true
  | .storeBufferDrain _ => true
  | .ctlJmp _ _ => true
  | .ctlCall _ _ => true
  | .ctlRet _ _ => true
  | .ctlTrap _ _ => true
  | .ctlRfe _ _ => true
  | .ctlCmpEq _ _ _ => true
  | .ctlCmpNe _ _ _ => true
  | .ctlCmpLt _ _ _ => true
  | .ctlCmpLe _ _ _ => true
  | .ctlCmpLtu _ _ _ => true
  | .ctlCmpLeu _ _ _ => true
  | .ctlCmpBit _ _ => true
  | .rptRep _ _ => true
  | .rptExit _ _ => true
  | .smvCopy _ _ => true
  | .smvFill _ _ => true
  | .smvCmp _ _ => true
  | .smvScan _ _ => true
  | .smvStep _ => true
  | .tsuNow _ _ => true
  | .tsuEp _ _ => true
  | .tsuWait _ _ => true
  | .waitTargetDue _ => true
  | .spuIn _ _ => true
  | .spuPoll _ _ => true
  | .spuOut _ _ => true
  | .spuEmit _ _ => true
  | .outputQueueHandoff _ _ => true
  | .routerAccept _ => true
  | .routerPublish _ => true
  | .podClockStep _ _ => true
  | .exceptionEntry _ => true
  | .tsbSave _ => true
  | .tsbRestore _ => true
  | .engIrqWrite _ _ _ => true
  | .engExcResume _ _ => true
  | .pccErstWrite _ _ _ => true
  | .podReset _ => true
  | .xbarGrant _ arrivals => arrivals.all XReq.wf
  | .xbarStarvation _ _ => true
  | .transferStarvation _ => true
  | .xbMapWrite _ _ => true
  | .xbRgnWrite _ _ _ _ _ => true
  | .xbArbitrationWrite _ _ _ _ _ => true
  | .grnInjArm _ _ _ => true
  | .grinderVisit _ => true
  | .grinderWriteback => true
  | .repairRecordWrite => true
  | .pstFbaseWrite _ _ _ => true
  | .watchdogKick _ _ => true
  | .watchdogExpiry _ => true
  | .doorbellService _ => true
  | .rehomeChannels _ => true
  | .sensorSample temps volts clocks => sensorsWf temps volts clocks
  | .coreBrownout => true
  | .refclkLoss => true
  | .thermalTrip => true
  | .thermalTripRelease => true
  | .pmbusAlert _ => true
  | .signalDetect _ => true
  | .trainingTimeout _ => true
  | .flitSilenceTimeout _ => true
  | .laneLockLoss _ _ => true
  | .helloFlitReceived _ flit => flit.wf
  | .fabricHelloTimer => true
  | .nakFlitReceived _ flit => flit.wf
  | .retryTimeout _ => true
  | .quarantineExpiry _ => true
  | .loopedRetrainTimer _ => true
  | .nodeIdTimer => true
  | .routeAdvertReceived _ flits => flits.all Flit.wf
  | .routeAdvertTimer => true
  | .advertAgeExpiry _ => true
  | .routeRecompute => true
  | .masterDisplacement => true
  | .timeReqTimer => true
  | .timeReqReceived _ flit _ => flit.wf
  | .timeRespReceived _ flit _ => flit.wf
  | .mgmtRequestReceived _ flits => flits.all Flit.wf
  | .mgmtAnswerReceived _ flits => flits.all Flit.wf
  | .mgmtRequestTimeout _ _ => true
  | .dataFlitReceived _ flit => flit.wf
  | .prepareReceived _ flit => flit.wf
  | .readyReceived _ flit => flit.wf
  | .outcomeReceived _ flit => flit.wf
  | .outcomeTimeout => true
  | .usdoRequest _ => true
  | .usdoSegmentTimeout => true
  | .mbxGo _ _ req _ _ data => (req.getLsbD 31 && data.length ≤ 4096)
  | .objectWrite _ _ _ _ => true
  | .arm _ _ => true
  | .start _ _ => true
  | .stop _ _ => true
  | .disarm _ _ => true
  | .mark _ _ => true
  | .switchProfile _ _ => true
  | .power _ _ => true
  | .unitPrepared _ => true
  | .profileCommitTick => true
  | .profileRevertTick => true
  | .profileSave _ _ => true
  | .flashWriteComplete => true
  | .eventLogRead _ => true
  | .firmwareImageWrite _ _ _ => true
  | .updateCheck _ => true
  | .updateActivate _ => true
  | .updateConfirm _ => true
  | .updateAbandon _ => true
  | .updateResetTimer => true
  | .podImageWrite _ _ _ => true
  | .podImageDelete _ _ => true
  | .imageKeyFuse _ _ => true
  | .memoryTestEnableWrite _ _ => true
  | .quiescenceReached _ => true
  | .quiescenceTimeout => true
  | .wakeEdge _ => true
  | .wakeQualified _ => true
  | .huskFrameCapture _ _ frame => frame.wf
  | .wakeComplete => true
  | .ssdReadyTimeout _ => true
  | .railEnableTimeout _ _ => true
  | .railRetryTimer => true
  | .powerOnReset => true
  | .coldReset _ => true
  | .chipWarmReset _ => true
  | .resetRelease _ => true
  | .jtagDebugAccess _ req => req.wf
  | .armComplete => true
  | .heartbeatProducerTimer => true
  | .arpNdFrameReceived _ _ _ => true
  | .gptpSyncTimer _ _ => true
  | .flitCheckFailed _ => true
  | .idleFlitReceived _ flit => flit.wf
  | .referenceClockReturn => true
  | .crystalRunning => true
  | .railInWindow _ => true
  | .wakeQualificationFailed _ => true
  | .xbErrInfoClear _ _ => true
  | .randomSourceHealthTest _ => true
  | .testPortInstruction _ _ => true

end Sys2Proof
end

