-- ==== Sys2Proof/Tests/Slice0.lean ====
section
/-! SUPPORT. The model's own tests: ill-formed commands, worked examples of the spec, and for every statement with hypotheses states that meet them. -/

namespace Sys2Proof.Tests

open Sys2Proof Sys2Proof.Machine

-- One theorem after another: elaborated side by side, the long evaluations below ask for more memory than a check allows.
set_option Elab.async false

/-! Small states. -/

/-- The core up, in IDLE, after power-on. -/
def core : State := { State.reset with pwr := { State.reset.pwr with boot := .up } }

/-- Pod 0 running with engine 0 in a given state. -/
def run0 (x : Engine) : State := { core with pods := [(0, { powered := true, erst := 0 })], eng := [(0, x)] }

/-- The core in a session state with some activities. -/
def inState (st : SessSt) (acts : BitVec 5) : State := { core with sess := { core.sess with st := st, acts := acts } }

/-- A classic CAN frame. -/
def canFrame : CanFrame := ⟨.classic, false, 0x123, false, false, false, false, 2, 0, 0, 0, [1, 2]⟩

/-- A flit with a payload. -/
def flitOf (type : BitVec 4) (p : List Byte) : Flit := ⟨type, 0, BitVec.ofNat 6 p.length, 0, 0, 0, 0, 0, 0, 0, 0, p⟩

/-- A link frame with a body. -/
def linkFrame (type : Byte) (body : List Byte) : LinkFrame := ⟨true, 1, type, 0, 0, true, 0, 0, 0, 0, 1, 0, 0, 0, body, zeros 16⟩

/-! Well-formedness: a well-formed command, and for each check one that it refuses. -/

theorem test_wf_good : (Instr.canFrameReceived 0 ⟨0, 0⟩ canFrame).wf = true ∧ (Instr.mbxGo false 0 0x80000000 0 0 []).wf = true ∧
    (Instr.xbarGrant 0 [⟨0, 0x1000000, true, false, 4, [1, 2, 3, 4], 0⟩]).wf = true := by decide

theorem test_wf_can_data : (Instr.canFrameReceived 0 ⟨0, 0⟩ { canFrame with data := zeros 9 }).wf = false := by decide
theorem test_wf_can_remote : (Instr.canFrameReceived 0 ⟨0, 0⟩ { canFrame with rtr := true }).wf = false := by decide
theorem test_wf_can_ident : (Instr.canFrameReceived 0 ⟨0, 0⟩ { canFrame with ident := 2048 }).wf = false := by decide
theorem test_wf_ethernet_length : (Instr.ethernetFrameReceived 0 ⟨0, 0⟩ ⟨[1], 0, true, none⟩).wf = false := by decide
theorem test_wf_ethernet_control : (Instr.ethernetFrameReceived 0 ⟨0, 0⟩ ⟨[1], 1, true, some 2⟩).wf = false := by decide
theorem test_wf_sent : (Instr.sentFrameReceived 0 ⟨0, 0⟩ ⟨0, 0, 0, [0, 0, 0, 0, 0, 0, 0], 0, false, 0, 0, false, false⟩).wf = false := by decide
theorem test_wf_psi5 : (Instr.psi5FrameReceived 0 ⟨0, 0⟩ ⟨0, 9, 0, 0, 0, false, false⟩).wf = false := by decide
theorem test_wf_lin : (Instr.linFrameReceived 0 ⟨0, 0⟩ ⟨0, some [1], false, false, false⟩).wf = false := by decide
theorem test_wf_lines : (Instr.samplePortFrame 0 ⟨0, 0⟩ [[1], [1, 2]]).wf = false := by decide
theorem test_wf_window : (Instr.tableWindowWrite .can 0x3300 1 []).wf = false := by decide
theorem test_wf_link_tag : (Instr.linkCloseReceived 0 { linkFrame 6 [] with tag := [] }).wf = false := by decide
theorem test_wf_flit : (Instr.helloFlitReceived 0 { flitOf 1 [0] with plen := 2 }).wf = false := by decide
theorem test_wf_request : (Instr.xbarGrant 0 [⟨0, 0x100003F, false, false, 2, [], 0⟩]).wf = false := by decide
theorem test_wf_request_data : (Instr.jtagDebugAccess false ⟨0, 0x1000000, true, false, 4, [], 0⟩).wf = false := by decide
theorem test_wf_sensors : (Instr.sensorSample [] [] []).wf = false := by decide
theorem test_wf_mailbox_go : (Instr.mbxGo false 0 0 0 0 []).wf = false := by decide

/-! Worked examples of the spec; each comment names its place. -/

/-- 09, Worked example: the bundle of two moves, the second with a 48-bit immediate. -/
theorem test_bundle_long_immediate : decodeBundle 0x000000123456789A06B0048030212840 =
    ⟨[⟨0, 3, false, .port 0x021, 0x0A1⟩, ⟨1, 0, false, .imm 0x00123456789A, 0x012⟩], none⟩ := by decide

/-- 09, Worked example: ?!G2 #-3 -> GB.4. -/
theorem test_bundle_short_immediate : (decodeBundle 0xAFFD1100).moves.head? = some ⟨0, 2, true, .imm 0xFFFFFFFFFFFD, 0x044⟩ := by decide

/-- 10 R223: SAR of 0x80_0000 by 30, ROL of 0x00_0001 by 30. -/
theorem test_shift_examples : ShfOp.sar.result 24 0x800000 30 = 0xFFFFFF ∧ ShfOp.rol.result 24 1 30 = 0x40 := by decide

/-- 14 R305, R306: 0xA5 has check bits 0b0_0011; with d2 inverted the reader receives 0xA5. -/
theorem test_codeword_example : innerCheck 0xA5 = 0b00011 ∧ innerDecode (codeword 0xA5 ^^^ 4) = .corrected 0xA5 2 := by decide

/-- 15 R328: PMEM word 0x1_0000 of pod 5, and staging-store word 0x10_0010 in bank 1. -/
theorem test_address_examples : pmemAddr 5 0x10000 0 = 0x0200A30000 ∧ (decodeAddr true 0x0200A30000).1 = 15 ∧
    (decodeAddr true 0x0100300030).1 = 3 := by decide

/-- 04, Worked example: engine speed, coolant and lateral acceleration from one frame's data, at CAN FD payload byte 0. -/
def fdRecord : List Byte :=
  leBytes 6 0x3B9ACA00 ++ [1, 5, 0x21, 0x08, 12, 0, 0, 0, 0xA3, 0x01, 0, 0] ++ [0x3C, 0x12, 0x0B, 0x40, 0x00, 0xFC, 0, 0, 0, 0, 0, 0]

/-- A Signal Map entry by START, LEN, BE, TYPE, SCALE, SH and OFF. -/
def smEntry (start len be type scale sh off : Nat) : Nat :=
  off * 2 ^ 144 + scale * 2 ^ 120 + sh * 2 ^ 114 + 0x0412 * 2 ^ 98 + type * 2 ^ 80 + be * 2 ^ 79 + len * 2 ^ 72 + start * 2 ^ 55

theorem test_sift_speed : siftEntry fdRecord 0 (smEntry 0 16 0 0 25 0 0) true = .sample 116700 0 := by decide
theorem test_sift_coolant : siftEntry fdRecord 0 (smEntry 23 12 1 0 50 0 (2 ^ 48 - 4000)) true = .sample 5000 0 := by decide
theorem test_sift_acceleration : siftEntry fdRecord 0 (smEntry 32 16 0 1 125 7 0) true = .sample 0xFFFFFFFFFC18 0 := by decide

/-- The stored sample of the same example. -/
theorem test_sample_record : sampleRecord fdRecord 0x0412 0xFFFFFFFFFC18 0 =
    [0x00, 0xCA, 0x9A, 0x3B, 0x00, 0x00, 0x02, 0x05, 0x20, 0x00, 0x12, 0x04, 0x18, 0xFC, 0xFF, 0xFF, 0xFF, 0xFF] := by decide

/-- 05, Worked example: three samples in mode 2 take 31 body bytes of a 51-byte block. -/
def threeSamples : List (List Byte) :=
  [(1000000000, 0xFFFFFFFFFC18), (1040000000, 0xFFFFFFFFFC22), (1080000000, 0xFFFFFFFFFC27)].map fun (x : Nat × Nat) =>
    leBytes 6 x.1 ++ [2, 5, 0x20, 0, 0x12, 0x04] ++ leBytes 6 x.2

set_option maxRecDepth 20000 in
theorem test_block_example :
    let b := makeBlock 0x205 (fun _ => 2) threeSamples
    b.length = 51 ∧ slice b 14 2 = [31, 0] ∧ decodeBlock b = some threeSamples := by decide

/-- 02, Worked example: the race end, 345,600,000,000,000 ticks after tick 69,600,000,000,000, in epoch 1. -/
theorem test_time_example : (core.setTime (69600000000000 + 345600000000000)).tb.epoch = 1 ∧
    (core.setTime (69600000000000 + 345600000000000)).tb.tick = 133725023289344 := by decide

/-! Single commands. -/

/-- The state after a command. -/
def after (c : Instr) (s : State) : State :=
  match exec c s with
  | .next t => t
  | _ => s

/-- 10 R207: an overflowing word sum wraps and sets V and N. -/
theorem test_add_wraps :
    let x := (after (.aluAdd 0 false false 0x7FFFFF) (run0 { alu0 := { o2 := 1 } })).engine 0
    x.alu0.q = 0xFFFFFF800000 ∧ x.alu0.flg = 0b11010 := by decide

/-- 10 R208: with SAT = 1 it is held at +max. -/
theorem test_add_saturates :
    ((after (.aluAdd 0 false false 0x7FFFFF) (run0 { alu0 := { o2 := 1 }, ctl := { mode := 9 } })).engine 0).alu0.q = 0x7FFFFF := by decide

/-- 10 R220: NEG of the most negative long. -/
theorem test_neg_most_negative : ((after (.aluNeg 0 true true 0x800000000000) (run0 {})).engine 0).alu1.q = 0x800000000000 := by decide

/-- 10 R212: DIV truncates towards zero; the remainder has the dividend's sign. -/
theorem test_div_signs : ((after (.divDiv 0 false 0xFFFFF9) (run0 { div := { o := 2 } })).engine 0).div.fl =
    some ⟨13, 0xFFFFFFFFFFFD, 0xFFFFFFFFFFFF, false, false, false⟩ := by decide

/-- 10 R221: division by 0 gives +max, with DZ. -/
theorem test_div_zero : ((after (.divDiv 0 false 5) (run0 {})).engine 0).div.fl = some ⟨13, 0x7FFFFF, 5, false, true, false⟩ := by decide

/-- 10 R213: a store enters the buffer, and its drain reaches DMEM. -/
theorem test_store_drains :
    let s := after (.lsu0StW 0 2) (run0 { lsu0 := { o := 0x123456 } })
    s.mem.byte (dmemAddr 0 2 0) = some 0 ∧ (after (.storeBufferDrain 0) s).mem.byte (dmemAddr 0 2 0) = some 0x56 := by decide

/-- 11 R236: REP opens a level at the next bundle. -/
theorem test_rep_opens : ((after (.rptRep 0 7) (run0 { rpt := { o := 9 }, ctl := { pc := 3 } })).engine 0).rpt =
    { o := 9, n := 1, c0 := 7, s0 := 4, e0 := 9 } := by decide

/-- 08 R164: CALL writes LINK with the bundle after its delay bundles. -/
theorem test_call_links : ((after (.ctlCall 0 100) (run0 { ctl := { pc := 10 } })).engine 0).ctl.link = 13 := by decide

/-- 03 R68, R70: the raw record of a classic frame ends with its payload and pad. -/
theorem test_can_record : rawRecord 0 7 (canKind canFrame) 0 (canAux canFrame) 0 (canId canFrame) (canPayload canFrame) =
    [0, 0, 0, 0, 0, 0, 1, 7, 0, 2, 2, 0, 0, 0, 0x23, 1, 0, 0, 1, 2, 0] := by decide

/-- 17 R376: START in IDLE is refused. -/
theorem test_start_refused : (after (.start .pcie0 0) core).sess = { core.sess with refused := 2, refusedCode := 0x08000022 } := by decide

/-- 17 R367: a write to a read-only object. -/
theorem test_read_only : after (.objectWrite .pcie0 0x1001 0 [1]) core = core.refuse .pcie0 0x1001 0 1 0x06010002 := by decide

/-- 20 R450: the third group of rails rises before the fourth. -/
theorem test_rails : (after (.railInWindow 2) { core with pwr := { boot := .rails, rails := 2 } }).pwr.rails = 3 ∧
    (after (.railInWindow 3) { core with pwr := { boot := .rails, rails := 2 } }).pwr.rails = 2 := by decide

/-- 19 R434: 110 degrees is level 1; it is left below 105. -/
theorem test_throttle : nextThrottle 0 1760 = 1 ∧ nextThrottle 1 1680 = 1 ∧ nextThrottle 1 1679 = 0 ∧ nextThrottle 2 0 = 1 := by decide

/-- 18 R404: a second write of the image key. -/
theorem test_second_key : (after (.imageKeyFuse .pcie0 (zeros 48)) { core with pst := { core.pst with keyHash := some (zeros 48) } }).out =
    [.abort .pcie0 0x08000022] := by decide

/-- 18 R410: a cursor at the end has no entry; one behind it reads on. -/
theorem test_log_read :
    (after (.eventLogRead .pcie0) core).out.length = 1 ∧ (after (.eventLogRead .pcie0) core).acc.cursors.get 0 1 = 1 ∧
    (after (.eventLogRead .pcie0) { core with acc := { core.acc with cursors := [(1, 1)] } }).out = [.abort .pcie0 0x08000000] := by decide

/-- 20 R461: the identity code, least significant bit first. -/
theorem test_idcode : (after (.testPortInstruction .idcode []) core).out.length = 1 := by decide

/-- 19 R437: a chip warm reset keeps chip time and ends what an engine did. -/
theorem test_warm_reset :
    let s := (run0 { ctl := { pc := 5 } }).setTime 77
    (after .coreBrownout s).now = 77 ∧ (after .coreBrownout s).eng = [] ∧ (after .coreBrownout s).pwr.resetCause = 5 := by decide

/-! For each statement, states and operands that meet its hypotheses together. -/

/-- In a memory without inverted bits an engine of a pod fetches quietly. -/
theorem quiet_of {s : State} {e : Nat} (he : e < 1024) (h : s.mem.bad = []) : s.fetchesQuietly e :=
  State.fetchesQuietly_of he fun n _ => by simp [Memory.sound, h, Tab.get]

/-- Such an engine issues when it can. -/
theorem issues_of {s : State} {e : Nat} (he : e < 1024) (h : s.ready e = true ∧ (s.engine e).smv.still = true ∧ s.mem.bad = []) : s.issues e :=
  ⟨h.1, h.2.1, quiet_of he h.2.2⟩

/-- A 160-byte image that is whole, with one of no sections: MAGIC, FORMAT, lengths and HCRC. -/
def imageHead : List Byte := [0x43, 0x50, 0x5A, 0x49, 1, 0, 64, 0, 2, 0, 0, 0, 160, 0, 0, 0, 0, 0, 0, 0, 1, 0, 0, 0, 7, 0, 0, 0, 0, 0, 0, 0] ++ zeros 28

/-- The whole image. -/
def image : List Byte := imageHead ++ leBytes 4 (crc32c imageHead).toNat ++ zeros 96

theorem witness_StepRunsFront : ({ core with pending := [.calibration] } : State).pending = .calibration :: [] := by decide

theorem witness_StepIdles : core.pending = [] ∧ core.pwr.boot = .up ∧ core.pwr.refLost = false ∧ core.tb.husk = false ∧ core.tb.rate = 0 ∧ core.tb.acc = 0 ∧
    core.tb.tick.toNat + 4 < 2 ^ 48 := by decide

theorem witness_CommandsKeepToTheirParts : exec .flashWriteComplete core = .next core := by rfl

theorem witness_StepKeepsInvariant : Inv State.reset ∧ step State.reset = .next State.reset := by
  refine ⟨⟨by decide, by decide, ?_⟩, rfl⟩
  intro i h
  have h0 : i = 0 := by simp [State.reset] at h; omega
  subst h0
  rfl

theorem witness_FusesStay : step { core with pst := { core.pst with keyHash := some [] } } =
    .next (State.idle { core with pst := { core.pst with keyHash := some [] } }) := by rfl

theorem witness_SerialComparison : 1 ≤ 16 ∧ 65535 < 2 ^ 16 ∧ serial 16 65535 0 = .later ∧ serial 16 0 65535 = .earlier ∧ serial 16 5 5 = .equal ∧
    serial 16 0 32768 = .unordered := by decide

set_option maxRecDepth 20000 in
theorem witness_ImageKeyFusedOnce : core.served = true ∧ core.remote .can = none ∧ (zeros 48).length = 48 ∧ core.sess.st = .idle ∧ core.pst.keyHash = none ∧
    ({ core with pst := { core.pst with keyHash := some [] } } : State).pst.keyHash.isSome = true ∧ imgCheck1 image = true ∧ imgCheck2 image = true := by decide

/-- An exact sum that fits and one that does not, on 24 bits. -/
theorem witness_NegAbsAndSaturation : AluOp.subb ∈ [AluOp.add, .addc, .sub, .subb] ∧
    (BitVec.intMax 24).toInt + 0 = (BitVec.ofInt 24 ((BitVec.intMax 24).toInt + 0)).toInt ∧
    (BitVec.intMax 24).toInt + 1 ≠ (BitVec.ofInt 24 ((BitVec.intMax 24).toInt + 1)).toInt := by decide

/-- The hypothesis of the ALU, MAC, SHF, CHK, DIV, compare, TSU and port statements. -/
theorem witness_AluCommandsComplete : (run0 {}).issues 0 := by
  repeat' (first | with_reducible refine issues_of ?_ ?_ | with_reducible apply And.intro)
  all_goals decide

theorem witness_AluResultsAndFlags : AluOp.add.arith = true ∧ AluOp.and.arith = false := by decide
theorem witness_MacCommandsComplete : (run0 { mac := { acc := 1 } }).issues 0 := by
  repeat' (first | with_reducible refine issues_of ?_ ?_ | with_reducible apply And.intro)
  all_goals decide
theorem witness_ShfCommandsComplete : (run0 { shf := { o2 := 63 } }).issues 0 := by
  repeat' (first | with_reducible refine issues_of ?_ ?_ | with_reducible apply And.intro)
  all_goals decide
theorem witness_ChkCommandsComplete : (run0 { chk := { wm1 := 31 } }).issues 0 := by
  repeat' (first | with_reducible refine issues_of ?_ ?_ | with_reducible apply And.intro)
  all_goals decide
theorem witness_DivCommandsComplete : (run0 { div := { o := 0 } }).issues 0 := by
  repeat' (first | with_reducible refine issues_of ?_ ?_ | with_reducible apply And.intro)
  all_goals decide

/-- An engine with `n` buffered stores of word `w`. -/
def buffered (n w : Nat) : Engine := { lsu0 := { sb := List.replicate n ⟨dmemAddr 0 w 0, [1, 2, 3], false⟩ } }

theorem witness_Lsu0StoresAndDrain : lsu0Range 8 0x10000 = some (2, 1) ∧ lsu0Range 9 24575 = some (73725, 3) ∧ lsu0Range 10 24575 = none ∧
    (run0 (buffered 3 0)).issues 0 ∧ ((run0 (buffered 3 0)).engine 0).lsu0.sb.length < 4 ∧ ¬((run0 (buffered 4 0)).engine 0).lsu0.sb.length < 4 ∧
    (run0 (buffered 4 0)).issues 0 ∧ (run0 (buffered 4 0)).engOn 0 = true ∧ ((run0 (buffered 4 0)).engine 0).lsu0.ldWait = none ∧
    (dmemBanks (dmemAddr 0 0 0) 3).any ((run0 (buffered 4 0)).engine 0).smv.banks.contains = false ∧
    (run0 (buffered 4 0)).mem.wf = true := by
  repeat' (first | with_reducible refine issues_of ?_ ?_ | with_reducible apply And.intro)
  all_goals decide

theorem witness_Lsu0LoadsAndReach : ((run0 (buffered 1 0)).engine 0).smv.seen = none ∧ lsu0Range 3 24574 = some (73722, 6) ∧ lsu0Range 3 24575 = none ∧
    newestOverlap (buffered 1 0).lsu0.sb (dmemAddr 0 5 0) 3 = none ∧ (run0 (buffered 1 0)).mem.sound (dmemAddr 0 5 0) 3 = true ∧
    ((newestOverlap (buffered 1 5).lsu0.sb (dmemAddr 0 5 0) 3).map fun b => b.2.holds (dmemAddr 0 5 0) 3) = some true ∧
    ((newestOverlap (buffered 1 5).lsu0.sb (dmemAddr 0 5 0) 6).map fun b => b.2.holds (dmemAddr 0 5 0) 6) = some false := by decide

/-- LSU1 with one descriptor over the first PMEM block. -/
def allowed : Lsu1 := { desc := [(0, ⟨0x0200000000 / 64, 0x0200000000 / 64, 7⟩)] }

theorem witness_Lsu1CommandsAndRegions : (run0 { lsu1 := allowed }).issues 0 ∧ allowed.refuses true 0x0200000000 3 = false ∧
    allowed.refuses true 0x0200000001 3 = true ∧ allowed.refuses false 0x0200000040 1 = true ∧ allowed.refuses true 0x0200000001 1 = false := by
  repeat' (first | with_reducible refine issues_of ?_ ?_ | with_reducible apply And.intro)
  all_goals decide

/-- An access of LSU1 at PMEM word 0 in some state. -/
def l1At (st : L1St) (load : Bool) (k : Nat) (err : Bool) : L1Fl := ⟨k, st, load, 0x0200000000, 3, true, 5, [], err, [1, 2, 3], 0, false⟩

theorem witness_Lsu1GrantAndReturn :
    (run0 { lsu1 := { fl := [l1At .waitGrant true 5 false, l1At .data true 4 false] } }).engOn 0 = true ∧ (l1At .data true 4 false).open_ = false ∧
    (run0 { lsu1 := { fl := [l1At .waitGrant true 5 false, l1At .data true 4 false] } }).bankGrants 0 = true ∧
    0 ∈ (run0 { lsu1 := { fl := [l1At .waitGrant true 5 false] } }).bankAsks 0 ∧
    ownPmem core.xbar.remap 0 0x0200000000 3 = some (0x0200000000, 0) ∧ core.mem.sound 0x0200000000 3 = true ∧
    core.mem.inject = false ∧ core.mem.wf = true ∧ (l1At .waitData true 0 true).st = .waitData ∧ (l1At .waitData true 0 true).need = [] ∧
    (l1At .waitData true 0 true).st ≠ .held ∧ (run0 {}).engOn 0 = true ∧ ((run0 {}).engine 0).exc.entry = none ∧
    ((run0 { exc := { entry := some ⟨none, 0, 0⟩ } }).engine 0).exc.entry = some ⟨none, 0, 0⟩ := by decide

theorem witness_CtlTriggersAndJumps : (∀ j ∈ (run0 { ctl := { jumps := [(2, 7)] } }).eng.head?.bind (fun e => e.2.ctl.jumps.head?), 2 ≤ j.1) ∧
    (run0 { ctl := { jumps := [(2, 7)] } }).issues 0 ∧ ((run0 {}).engine 0).rpt.n = 0 ∧ ((run0 {}).engine 0).ctl.mode.getLsbD 3 = true ∧
    ((run0 {}).engine 0).exc.rfe = none ∧ (run0 { exc := { rfe := some 2 } }).issues 0 ∧ (run0 { ctl := { jumps := [(1, 7)] } }).issues 0 := by
  repeat' (first | with_reducible refine issues_of ?_ ?_ | with_reducible apply And.intro)
  all_goals decide

theorem witness_ComparesAndGuards : (run0 { ctl := { gd := 0 } }).issues 0 ∧ (run0 { ctl := { gd := 7 } }).issues 0 := by
  repeat' (first | with_reducible refine issues_of ?_ ?_ | with_reducible apply And.intro)
  all_goals decide

theorem witness_RepeatTriggersAndEndCheck : (run0 { rpt := { n := 1, e0 := 9 } }).issues 0 ∧
    ((run0 { rpt := { n := 1, e0 := 9 } }).engine 0).rpt.e0 ≠ ((run0 { rpt := { n := 1, e0 := 9 } }).engine 0).ctl.pc ∧
    (run0 { rpt := { n := 2, e0 := 9 } }).issues 0 ∧ 2 ≤ (2 : W24).toNat ∧ (1 : W24).toNat < 2 := by
  repeat' (first | with_reducible refine issues_of ?_ ?_ | with_reducible apply And.intro)
  all_goals decide

/-- A string operation about to step, from word 2 to word 4, or within one bank. -/
def string (op : Fin 4) (dst : BitVec 15) (fa : Bool) : Engine := { pfq := [(0, 0)], smv := { act := true, op := op, n := 1, src := 2, dst := dst, pat := 0xFFFFFF, fa := fa } }

theorem witness_StringCommandsComplete : (run0 {}).issues 0 ∧ ((run0 {}).engine 0).smv.n = 0 ∧ (run0 { smv := { n := 1 } }).issues 0 ∧
    (run0 (string 0 4 false)).canCycle 0 = true ∧ (run0 (string 0 4 false)).ready 0 = true ∧
    ((string 0 4 false).queued 0).map (fun b => (decodeBundle b).faultOf 1 true 0) = some none ∧
    (({ string 0 4 false with pfq := [(0, 0x04000000)] } : Engine).queued 0).map (fun b => (decodeBundle b).faultOf 1 true 0) = some (some (0, 1)) ∧
    (string 0 4 false).smv.wait = 0 ∧
    (string 0 4 false).smv.bad = false ∧ (2 : BitVec 15).toNat / 2 % 4 ≠ (4 : BitVec 15).toNat / 2 % 4 ∧ (run0 (string 2 2 true)).canCycle 0 = true ∧
    (run0 (string 0 4 false)).mem.sound (dmemAddr 0 2 0) 3 = true ∧ (0 ^^^ 0) &&& 0xFFFFFF = 0 ∧ (1 ^^^ 0) &&& 0xFFFFFF ≠ 0 := by
  repeat' (first | with_reducible refine issues_of ?_ ?_ | with_reducible apply And.intro)
  all_goals decide

theorem witness_TimeUnitCommandsComplete :
    let s := run0 { tsu := { fl := [⟨0, true, 1000⟩] } }
    s.engRuns 0 = true ∧ (s.engine 0).tsu.fl.find? (fun g => g.wait && g.k = 0) = some ⟨0, true, 1000⟩ ∧ tickDue s.tb.tick.toNat 1000 = false ∧
    s.tb.tick.toNat < 1000 := by decide

/-- A record on the stream network for engine 0 of pod 0, and the pod's arrival buffer holding one. -/
def streamState : State :=
  let p : Pod := { powered := true, erst := 0, arrival := [⟨0, 0, zeros 3⟩] }
  { run0 { spu := { rbase := 64, tail := 64 } } with net := [⟨0, 0, zeros 3⟩], pods := [(0, p)] }

theorem witness_StreamCommandsComplete : (run0 {}).issues 0 ∧ ((run0 {}).engine 0).spu.build = none ∧ ((run0 {}).engine 0).spu.occupancy < 1024 ∧
    (run0 { spu := { done := [⟨true, 5, [1], 0⟩] } }).engOn 0 = true ∧ streamState.served = true ∧ streamState.routerRoom 0 (zeros 3) = true ∧
    (run0 { spu := { rsize := 64, rbase := 64, tail := 64, ring := [⟨64, 64, 0⟩] } }).routerRoom 0 (zeros 3) = false ∧
    streamState.podUp 0 = true ∧ (∀ r ∈ streamState.side, isArrival 0 r.1 = false) ∧ (∀ r ∈ streamState.side, isOutQueue 0 r.1 = false) ∧ streamState.arrivals 0 = ⟨0, 0, zeros 3⟩ :: [] ∧
    (ringPlace 64 64 [] 64 1).isSome = true ∧ streamState.mem.wf = true := by
  repeat' (first | with_reducible refine issues_of ?_ ?_ | with_reducible apply And.intro)
  all_goals decide

/-- The bundle whose slot 0 moves the immediate 5 to GA.0 and whose other slots are closed by their guards, in the prefetch queue. -/
def moving : State := run0 { pfq := [(0, 0x80000000800000008000000008050800)] }

theorem witness_BundleMovesRegisters :
    moving.issues 0 ∧ ((moving.engine 0).atTwo moving.tb.tick.toNat moving.now).queued 0 = some 0x80000000800000008000000008050800 ∧
    (decodeBundle 0x80000000800000008000000008050800).faultOf 1 true 0 = none ∧
    (decodeBundle 0x80000000800000008000000008050800).live 1 = [⟨0, 0, false, .imm 5, 0x020⟩] := by
  repeat' (first | with_reducible refine issues_of ?_ ?_ | with_reducible apply And.intro)
  all_goals decide

theorem witness_ControlAndChainedWrites : (run0 {}).issues 0 ∧ ((run0 {}).engine 0).ctl.mode.getLsbD 3 = true ∧
    ¬(1 ≤ (0x700 : W24).toNat / 256 % 8 ∧ (0x700 : W24).toNat / 256 % 8 ≤ 6) ∧ (0x600 : W24).toNat / 256 % 8 = 6 ∧ ((run0 {}).engine 0).chk.fl = [] := by
  repeat' (first | with_reducible refine issues_of ?_ ?_ | with_reducible apply And.intro)
  all_goals decide

/-- Engine 0 whose own lane carries channel 5, and a Signal Map that names engine 1 as its owner. -/
def carries : State := { run0 {} with store := { core.store with lanes := [(0x1000, { chans := [5] })] } }

/-- The same without the lane. -/
def mapsElse : State := { run0 {} with cls := { core.cls with bankB := { sm := [(0, BitVec.ofNat 192 (5 * 2 ^ 98 + 2 ^ 88))] } } }

theorem witness_RepeatStringStreamPorts : (run0 {}).issues 0 ∧ ((run0 {}).engine 0).rpt.n = 0 ∧ (run0 { rpt := { n := 1, e0 := 9 } }).issues 0 ∧
    ((run0 { rpt := { n := 1, e0 := 9 } }).engine 0).rpt.e0 ≠ ((run0 { rpt := { n := 1, e0 := 9 } }).engine 0).ctl.pc ∧
    ((run0 {}).engine 0).smv.act = false ∧ ((run0 {}).engine 0).smv.seen = none ∧ ((run0 {}).engine 0).smv.bad = false ∧
    ((run0 {}).engine 0).ctl.mode.getLsbD 3 = true ∧ ((run0 {}).engine 0).spu.ring = [] ∧ (run0 {}).arrivals 0 = [] ∧
    5 ∈ (carries.lane 0x1000).chans ∧ carries.issues 0 ∧ ¬5 ∈ (mapsElse.lane 0x1000).chans ∧
    (mapsElse.cls.activeBank.sm.map fun m => (bits m.2.toNat 98 16, bits m.2.toNat 88 10)) = [(5, 1)] ∧ mapsElse.issues 0 := by
  repeat' (first | with_reducible refine issues_of ?_ ?_ | with_reducible apply And.intro)
  all_goals decide

/-- An engine with an empty bundle in its prefetch queue and causes due. -/
def trapped (due : Byte) (handler : Bool) : Engine := { pfq := [(0, 0)], exc := { due := due, detail := 9, handler := handler } }

/-- The same bundle with a long immediate whose carrier is its own slot. -/
theorem witness_ExceptionEntryBegins :
    (run0 (trapped 2 false)).engRuns 0 = true ∧ ((run0 (trapped 2 false)).engine 0).hardFrozen = false ∧
    ((run0 (trapped 2 false)).engine 0).softFrozen 0 = false ∧ (decodeBundle 0).faultOf 1 true 0 = none ∧
    (decodeBundle 0x04000000).faultOf 1 true 0 = some (0, 1) ∧ (run0 (trapped 2 true)).engRuns 0 = true ∧ (2 : Byte) ≠ 0 ∧
    (2 : Byte).getLsbD 0 = false ∧
    (let x : Engine := { pfq := [(0, 0)], ctl := { mode := 12 }, exc := { ppend := true, rie := true }, spu := { ring := [⟨0, 2, 0⟩] } }
     (run0 x).engRuns 0 = true ∧ x.ctl.mode.getLsbD 2 = true ∧ x.hardFrozen = false ∧ x.queued 0 = some 0 ∧ x.spu.ring ≠ []) := by decide

/-- An engine whose entry for a trap has nothing left to wait for. -/
def saving (tsp : BitVec 18) : Engine := { ctl := { tsp := tsp }, exc := { entry := some ⟨none, 2, 9⟩, esc := 2 } }

/-- What the block of such an engine leaves bears no inverted bit. -/
theorem saved_quiet (a : Nat) (l : List Byte) :
    (({ run0 (saving 8) with mem := (run0 (saving 8)).mem.writeBytes none a l } : State).rowsServed 0).fetchesQuietly 0 := by
  have w (m : Memory) (hm : m.bad = []) (i : Option Nat) (hi : i = none) (a : Nat) (v : Byte) : (m.writeByte i a v).bad = [] := by
    subst hi
    have b : ((m.setByte a v).touch (memRow a).1).bad = [] := by
      simp only [Memory.touch]
      split
      · simp only [Memory.listRow]
        split <;> simpa [Memory.setByte] using hm
      · simpa [Memory.setByte] using hm
    simp [Memory.writeByte, b, Tab.erase]
  have h (m : Memory) (hm : m.bad = []) : ∀ a, (m.writeBytes none a l).bad = [] := by
    induction l generalizing m with
    | nil => exact fun a => hm
    | cons v l ih => exact fun a => ih _ (w m hm _ (by split <;> rfl) a v) _
  exact quiet_of (by decide) (h _ rfl a)

theorem witness_TaskStateSaved : (run0 (saving 8)).engRuns 0 = true ∧ (saving 8).settled = true ∧ (run0 (saving 8)).mem.wf = true ∧
    (run0 (saving 8)).mem.inject = false ∧ (saving 8).tsbHome 0 = some (pmemAddr 0 16 0) ∧ (saving 196528).tsbHome 0 = some (pmemAddr 0 393056 0) ∧
    (saving 196529).tsbHome 0 = none ∧ (saving 8).tsbHome 1024 = some (msramBase + 48) := by decide

theorem restored_quiet : ((run0 { exc := { restore := true } }).rowsServed 0).fetchesQuietly 0 := quiet_of (by decide) rfl

theorem witness_TaskStateRestored :
    (let x : Engine := { exc := { restore := true } }
     (run0 x).engRuns 0 = true ∧ x.settled = true ∧ x.tsbHome 0 = some (pmemAddr 0 0 0)) ∧
    (let x : Engine := { ga := [(3, 7)], smv := { q := 0x8005, hit := true, n := 5 } }
     x.ctl.guards.getLsbD 0 = true ∧ x.spu.q.toNat < 2 ^ 17 ∧ x.smv.n ≠ 0 ∧ x.smv.hit = x.smv.q.getLsbD 15 ∧ x.smv.q.toNat < 2 ^ 16) := by decide

/-- The core with a region over the whole address space for masters 32, 33 and 40. -/
def mapped : State :=
  let t : Tab (BitVec 32) := [32, 33, 40].flatMap fun p => [(rgnKey p 0 0, 0), (rgnKey p 0 1, 0xFFFFFFFF), (rgnKey p 0 2, 0xF)]
  { core with pods := [(0, { powered := true }), (31, { powered := true })], xbar := { core.xbar with rgn := t } }

theorem witness_RegisterWritesComplete_map : mapped.xbarOn = true ∧ mapped.xCause (regReq 32 0x400000000 1) none = none := by decide
theorem witness_RegisterWritesComplete_region : mapped.xCause (regReq 32 (0x400020000 + rgnKey 47 15 2) 1) none = none := by decide
theorem witness_RegisterWritesComplete_arbitration : mapped.xCause (regReq 32 (0x400000100 + 4 * 55) 1) none = none ∧
    mapped.xCause (regReq 32 (0x400010000 + 4 * (64 * 55 + 47)) 1) none = none := by decide
theorem witness_RegisterWritesComplete_errors : mapped.xCause (regReq 33 0x400000010 0x80000000) none = none := by decide
theorem witness_RegisterWritesComplete_pestle : mapped.xCause (regReq 32 0x40010000C 0) none = none ∧ mapped.xCause (regReq 33 0x400100014 0x5A) none = none := by decide
theorem witness_RegisterWritesComplete_engine : mapped.xCause (regReq 32 (engReg 1023 0) 9) none = none ∧
    mapped.xCause (regReq 32 (engReg 0 4) (BitVec.ofNat 32 (((run0 {}).engine 0).exc.esc.toNat * 256 + 1))) none = none := by decide
theorem witness_RegisterWritesComplete_pod : mapped.xCause (regReq 33 (0x400200100 + 4 * 31) 0) none = none := by decide
theorem witness_RegisterWritesComplete_injection : mapped.xCause (regReq 32 0x400300004 0) none = none ∧
    mapped.xCause (regReq 32 0x400300008 0x80000000) none = none ∧ mapped.mem.inject = false := by decide

/-- A request to MSRAM that waits at target 1. -/
def waits (write : Bool) : State :=
  let w : XWait := ⟨⟨0, 0x1000000, write, false, 4, if write then [1, 2, 3, 4] else [], 0⟩, msramBase, 0, none⟩
  { core with xbar := { core.xbar with waiting := [(1, [w])], starveLogAt := [(1, 0), (64, 0)], errLogAt := [(0, 0), (40, 0)] } }

set_option maxRecDepth 20000 in
theorem witness_CrossbarServesRequests : (waits false).xbarOn = true ∧ (waits false).xbar.closed.contains 46 = false ∧
    dueAt (waits false).now (waits false).xbar.errLogAt 0 = false ∧ (Tab.get [] (waits false).xbar.waiting 1).length = 1 ∧
    msramBase + 4 ≤ msramBase + 786432 ∧ (waits false).mem.sound msramBase 4 = true ∧ (waits true).mem.inject = false ∧ (waits true).mem.wf = true ∧
    (waits false).pickMaster 1 (Tab.get [] (waits false).xbar.waiting 1) = some 0 ∧
    (waitMasters (Tab.get [] (waits false).xbar.waiting 1)).contains 0 = true ∧
    dueAt (waits false).now (waits false).xbar.starveLogAt 1 = false ∧ dueAt (waits false).now (waits false).xbar.starveLogAt 64 = false ∧
    ({ waits false with pods := (run0 {}).pods } : State).podUp 0 = true ∧ (0 : MasterN).val < 32 ∧
    mapped.regionOk 40 2 0x400000000 4 = true := by decide

set_option maxRecDepth 20000 in
theorem witness_ClockStepTaken : (run0 {}).served = true ∧ (run0 {}).pwr.st.val = 0 ∧ ((run0 {}).pod 0).powered = true ∧ (run0 {}).stepAllowed 0 0 = true := by decide

/-- The time base with a source that is known since count 0, the enables of 0x2200:01 and time that has run on. -/
def timed (src : TimeSource) (enable tick : Nat) : State :=
  { core with tb := { core.tb with tick := BitVec.ofNat 48 tick, pps := src, gptp := src }, od := [(odKey 0x2200 1, enable)] }

theorem witness_TimeBaseEventsComplete :
    core.tb.rate.natAbs ≤ 200000 ∧ core.tb.acc.natAbs < 1000000000 ∧ core.served = true ∧
    (timed { since := some 0, ripe := true } 1 1000).wanted = 1 ∧ core.wanted = 0 ∧ core.sess.st = .idle ∧ (inState .running 1).sess.st ≠ .idle ∧
    ({ timed { since := some 0, ripe := true } 1 1000 with sess := { core.sess with st := .running } } : State).wanted = 1 ∧
    ((timed { since := some 0 } 1 1000).tb.source (srcCode .pps)).since = some 0 ∧ 0 + 3 * secTicks < (core.tb.epoch.toNat + 1) * 2 ^ 48 ∧
    (core.cfg 0x2200 2 = 0 ↔ true = true) ∧ core.tb.ppsLast = none ∧ ppsInTime 0 secTicks = true ∧ ppsInTime 0 5000 = false ∧ 5000 ≤ 0 + 2 * secTicks := by decide

/-- An Ethernet port with its link up, gPTP enabled and port 0 as follower port. -/
def ethUp : State := { timed {} 4 0 with ports := [(macPort 0, { enabled := true, link := some 0 })], od := [(odKey 0x2200 1, 4), (odKey 0x2200 3, 0), (odKey 0x2200 4, 0)] }

theorem witness_TimeBaseEventsComplete_gptp : ethUp.served = true ∧ (ethUp.port (macPort 0)).link.isSome = true ∧ ethUp.cfg 0x2200 3 = 0 ∧ ethUp.cfg 0x2200 4 = 0 ∧
    ethUp.cfg 0x2200 1 / 4 % 2 = 1 ∧ ({ ethUp with tb := { ethUp.tb with src := 1 } } : State).tb.src = 1 := by decide

/-- The device follows a fabric master that is another device. -/
def following : State := { core with fab := { core.fab with master := some (Config.uid + 1) } }

theorem witness_TimeBaseRequestsComplete_following : following.isFollower = true := by
  simp only [following, State.isFollower, bne_iff_ne, ne_eq]
  intro h
  bv_omega

theorem witness_TimeBaseRequestsComplete : core.served = true ∧ core.remote .pcie0 = none ∧ core.sess.st = .idle ∧ core.tb.src ≠ 3 ∧ core.isFollower = false ∧
    ({ core with tb := { core.tb with src := 3 } } : State).tb.src = 3 ∧ core.acc.snaps.find (pathCode .pcie0) = none ∧
    ({ core with acc := { core.acc with snaps := [(pathCode .pcie0, (1, 2))] } } : State).acc.snaps.find (pathCode .pcie0) = some (1, 2) := by decide

/-- The state with one port's settings and enable. -/
def withPort (p : Nat) (q : Port) (od : Tab Nat) (s : State) : State := { s with ports := [(p, q)], od := od }

/-- CAN port 95 in normal mode and enabled, XL frames enabled; another with them disabled. -/
def canUp (mode xl : Nat) (q : Port) : State := withPort 95 q [(odKey (portIdx 95) 5, mode), (odKey (portIdx 95) 10, xl)] core

/-- A start edge at count 0. -/
def edge0 : Stamp := ⟨0, 0⟩

theorem witness_CanCaptureCompletes : (canUp 2 1 { enabled := true, rec_ := 128 }).takes 95 = true ∧ (canUp 2 1 { enabled := true }).heard 95 edge0 = true ∧
    (canUp 2 1 { enabled := true }).setting 95 edge0 10 ≠ 0 ∧ (canUp 2 0 { enabled := true }).setting 95 edge0 10 = 0 ∧
    (canUp 2 0 { enabled := true }).canMode 95 edge0 = 2 ∧ ((canUp 2 0 { enabled := true, errState := 2 }).port 95).errState = 2 ∧
    (canUp 2 0 { enabled := true, errState := 2 }).takes 95 = true ∧ (canUp 2 0 { enabled := true, errState := 2 }).heard 95 edge0 = true ∧
    ({ canUp 2 0 { enabled := true } with od := [(odKey (portIdx 95) 13, 1)] } : State).setting 95 edge0 13 = 1 ∧ canFrame.fmt ≠ .xl := by decide

theorem witness_EthernetCaptureCompletes : (withPort (macPort 15) { enabled := true, link := some 5 } [] core).takes (macPort 15) = true ∧
    (withPort (macPort 15) { enabled := true, link := some 5 } [] core).heard (macPort 15) edge0 = true ∧
    ((withPort (macPort 15) { enabled := true, link := some 5 } [] core).port (macPort 15)).link = some 5 ∧
    (withPort (macPort 15) { enabled := true } [] core).portUse (macPort 15) ≠ 3 ∧
    ((withPort (macPort 15) { enabled := true, link := some 5 } [] core).port (macPort 15)).link.isSome = true := by decide

/-- Low-speed port 31 in a mode. -/
def lspUp (mode : Nat) : State := withPort (lspPort 31) { enabled := true } [(odKey (portIdx (lspPort 31)) 5, mode), (odKey (portIdx (lspPort 31)) 6, 0)] core

/-- A frame whose response comes from another node, and one for which this device sent the header. -/
theorem witness_PinCaptureCompletes : (lspUp 5).takes (lspPort 31) = true ∧ (lspUp 0).lspOn (lspPort 31) edge0 0 = true ∧
    (lspUp 1).lspOn (lspPort 31) edge0 1 = true ∧ (lspUp 2).lspOn (lspPort 31) edge0 2 = true ∧ (lspUp 3).lspOn (lspPort 31) edge0 3 = true ∧
    (lspUp 5).lspOn (lspPort 31) edge0 5 = true ∧ (lspUp 5).setting (lspPort 31) edge0 6 = 0 ∧ (lspUp 4).takes (lspPort 31) = true ∧
    portKind (lspPort 31) = .lsp ∧ ((lspUp 4).port (lspPort 31)).level ≠ true ∧ (lspUp 4).edgeOn (lspPort 31) edge0 = true ∧
    (lspUp 4).edgeSelected (lspPort 31) edge0 true = true ∧ (withPort (smpPort 7) { enabled := true } [] core).takes (smpPort 7) = true ∧
    (withPort (smpPort 7) { enabled := true } [] core).heard (smpPort 7) edge0 = true := by decide

theorem witness_PinCaptureCompletes_lin :
    let f : LinFrame := ⟨0x3C, none, false, false, true⟩
    let r := rawRecord 0 (lspPort 31) 9 0 0 0 0x3C []
    let s := { lspUp 2 with rep := { core.rep with ports := [(lspPort 31, { started := [⟨0, r, 0, false, false, none⟩] })] } }
    (lspUp 2).linHeader (lspPort 31) f = none ∧ (lspUp 2).linAnswer (lspPort 31) edge0 f = none ∧
    (s.linHeader (lspPort 31) f).isSome = true ∧
    ({ lspUp 3 with rep := { core.rep with ports := [(lspPort 31, { linResp := [(0x3C, (0, [1]))] })] } } : State).linAnswer (lspPort 31) edge0 f ≠ none := by
  decide +kernel

/-- A waiting frame of port 0 and the bank that holds its entry. -/
def classified (fkt : Tab (BitVec 144)) : State :=
  { core with cls := { core.cls with inq := [⟨0, 5, rawRecord 0 0 0 0 (canAux canFrame) 0 (canId canFrame) (canPayload canFrame)⟩], bankB := { fkt := fkt } } }

theorem witness_ClassifyAndSiftComplete_miss : (takePort 0 (classified []).cls.inq).isSome = true ∧ (classified []).cls.siftq.length < 8192 ∧
    (classified []).cls.inq.all (fun c => (classified []).tableBad c 0x123 = none) = true ∧
    (let r := rawRecord 0 0 0 0 (canAux canFrame) 0 (canId canFrame) (canPayload canFrame)
     bits (rawFlags r) 3 1 = 0 ∧ bits (rawFlags r) 6 1 = 0 ∧ bits (rawFlags r) 4 1 = 0) ∧
    ((classified []).cls.bankAt 5).probe 0 0x123 0 false = none := by decide +kernel

/-- A Frame Key Table entry for classic identifier 0x123 of port 0, at the first place of its first bucket. -/
theorem witness_ClassifyAndSiftComplete_hit :
    let e : BitVec 144 := BitVec.ofNat 144 (0x123 * 2 ^ 112 + 2 ^ 86)
    (((classified [(4 * (keyBuckets 0 0x123 0 false).1, e)]).cls.bankAt 5).probe 0 0x123 0 false) = some e.toNat ∧ bits e.toNat 17 5 = 0 ∧
    (classified []).keyId 0 5 (rawRecord 0 0 0 0 (canAux canFrame) 0 (canId canFrame) (canPayload canFrame)) = some 0x123 := by decide +kernel

theorem witness_ClassifyAndSiftComplete_sift :
    let e : BitVec 192 := BitVec.ofNat 192 (smEntry 0 16 0 0 25 0 0 + 2 ^ 87 + 2 ^ 86)
    let s := run0 {}
    (∀ up, siftEntry fdRecord 0 e.toNat up = .sample 116700 0) ∧ bits e.toNat 83 1 = 0 ∧ bits e.toNat 87 1 = 1 ∧ bits e.toNat 86 1 = 1 ∧
      s.routerRoom 0 (sampleRecord fdRecord 0x412 116700 0) = true ∧ s.cls.dropsOwed.contains 0 = false ∧ (s.lane 517).wrapDue = none ∧
      s.sidesBad isFrameQueue = false ∧ (inState .running 1).recording = true ∧ (inState .running 1).laneStopped 517 = false := by decide

theorem witness_TableCommandsComplete : core.served = true ∧ core.remote .can = none ∧ core.sess.st = .idle ∧ core.cls.copying = false ∧ core.checking = false ∧
    core.switchPending = false ∧ (inState .armed 1).sess.st ≠ .idle ∧ windowLen 0x3000 = some 18 ∧ fieldOk 0x3000 1 (2 ^ 112) = true ∧ core.acc.owed = [] ∧ core.acc.caller = none ∧
    (BitVec.ofNat 144 (2 ^ 112) &&& ~~~((0x3FF : BitVec 144) <<< 64)).toNat ≠ 0 ∧
    ({ core with cls := { core.cls with checking := some .can } } : State).checkShadow = none ∧
    ({ core with cls := { core.cls with checking := some .can, bankA := { fkt := [(0, 2 ^ 86 + 2000 * 2 ^ 39)] } } } : State).checkShadow.isSome = true ∧
    ({ core with cls := { core.cls with copying := true } } : State).badEntry = none := by decide +kernel

/-- What each of the checks of ARM asks for. -/
theorem arm_passes (s : State) (a : Nat) (h1 : armCombos.contains a = true) (h2 : profileCheck s.cfg = none) (h3 : s.podBars = false)
    (h4 : s.setMode ≠ none) (h5 : s.replayCause a = 0) (h6 : s.linkCause a = 0) : (s.armCheck a).1 = none := by
  simp_all [State.armCheck]

/-- The dictionary's values pass the profile check (17 R471). -/
theorem test_profile_default : profileCheck dictDefault = none := by decide +kernel

/-- The core with both SSDs ready. -/
def onSsds : State := { core with store := { core.store with ssd0 := { state := 1 }, ssd1 := { state := 1 } } }

theorem onSsds_replay : onSsds.replayCause 1 = 0 := by decide +kernel

/-- In IDLE recording on two ready SSDs passes the checks of ARM at the dictionary's values. -/
theorem witness_SessionCommandsComplete_arm : core.served = true ∧ core.remote .pcie1 = none ∧ core.sess.st = .idle ∧ core.switchPending = false ∧
    (inState .armed 16).sess.st ≠ .idle ∧ (onSsds.armCheck 1).1 = none :=
  ⟨by decide, by decide, by decide, by decide, by decide,
    arm_passes onSsds 1 (by decide) test_profile_default (by decide +kernel) (by decide +kernel) onSsds_replay (by decide +kernel)⟩

/-- A session about to start, whose store restarts on an SSD with some slots and whose replay source is open. -/
def startableOn (slots : Tab Durable) : State :=
  { inState .armed 3 with
      store := { core.store with mode := 0, restart := [(2, 0)], ssd0 := { state := 1, slots := slots } }
      rep := { core.rep with firstRef := some 7 } }

/-- The same with segment 4 in its slot. -/
def startable : State := startableOn [((startableOn []).slotKey 0 4, ⟨4, 9, 0, [], 0, false⟩)]

theorem startable_newest : startable.newestFound = some ⟨4, 9, 0, [], 0, false⟩ := by
  have h : startable.slotKey 0 4 = (startableOn []).slotKey 0 4 := rfl
  have m : hasSsd (modeSsds startable.store.mode) 0 = true ∧ hasSsd (modeSsds startable.store.mode) 1 = false := by decide
  have x : (startable.ssd 0).slots = [((startableOn []).slotKey 0 4, ⟨4, 9, 0, [], 0, false⟩)] := rfl
  simp [State.newestFound, m, x, h]

theorem witness_SessionCommandsComplete_start : startable.sess.st = .armed ∧ startable.pwr.st.val = 0 ∧ startable.pwr.entry = none ∧
    startable.acting 0 = true ∧ startable.restartCauses ≠ [] ∧ startable.acting 1 = true ∧
    startable.cfg 0x2400 1 = 0 ∧ startable.rep.offset0 = none ∧ startable.startPoint = some 7 := by decide +kernel

/-- An open segment of a recording session. -/
def recorded : State :=
  { inState .running 1 with store := { core.store with seg := some ⟨0, 0, false, false, []⟩, lanes := [(517, { block := some ⟨[fdRecord], 0, [], []⟩ })] } }

theorem witness_SessionCommandsComplete_running : recorded.sess.st = .running ∧ recorded.acting 0 = true ∧ (inState .running 16).acting 0 = false ∧
    (inState .fault 1).sess.st = .fault ∧ (inState .idle 0).sess.st ≠ .running ∧ (inState .idle 0).sess.st ≠ .fault ∧ recorded.linkCar = false ∧
    recorded.blockFits ⟨0, 0, false, false, []⟩ (ctlBlock (markRecord 0 .pcie0 65535)).length = true ∧
    ({ core with sess := { core.sess with armOwed := [.can] } } : State).sess.armOwed = .can :: [] ∧ core.acc.owed = [] := by decide +kernel

theorem witness_ObjectWriteChecked : core.served = true ∧ core.remote .can = none ∧ dictRow 0x1FFF 0 = none ∧ dictHasIndex 0x1FFF = false ∧
    dictRow 0x2020 9 = none ∧ dictHasIndex 0x2020 = true ∧ ((dictRow 0x1001 0).map (·.acc)) = some .ro ∧
    ((dictRow 0x2020 1).map fun r => (r.acc == .ro, r.size)) = some (false, 2) ∧ ((0x2020, 1) : Nat × Nat) ∉ actingObjects ∧
    ((dictRow 0x2020 1).map fun r => (r.takes 0x2020 1 0xFFFF, r.takes 0x2020 1 0x100)) = some (true, false) ∧ windowLen 0x2020 = none ∧
    core.inNamespace 0x2020 1 0xFFFF = true ∧ core.writeBarred 0x2020 1 = false ∧ (inState .running 1).writeBarred 0x2500 1 = true := by decide +kernel

/-- The core with the CANopen path on port 0 and a transfer. -/
def onCan (t : Option Transfer) : State :=
  { core with acc := { core.acc with transfer := t }, od := [(odKey 0x1017 0, 100)], ports := [(0, { enabled := true })] }

theorem witness_CanopenPathCompletes : (onCan none).canPathOn = true ∧ (onCan none).remote .can = none ∧ (onCan none).acc.transfer = none ∧
    (dictRow 0x1001 0).isSome = true ∧ (onCan none).windowBad 0x1001 0 = false ∧ (onCan (some ⟨true, 0x2020, 1, [], 0⟩)).acc.transfer = some ⟨true, 0x2020, 1, [], 0⟩ ∧
    (onCan (some ⟨false, 0x1001, 0, [1, 2], 0⟩)).canPathOn = true ∧ (onCan none).cfg 0x1017 0 ≠ 0 ∧ (onCan none).acc.canNode ≤ 127 := by decide +kernel

/-- Whether a controller is an endpoint is a constant without a body: the hypotheses hold of controller 0 when it is one. -/
theorem witness_MailboxCompletes : core.served = true ∧ core.remote (boxPath false) = none ∧ (core.box 0).req.getLsbD 31 = false ∧
    (0x80012020 : BitVec 32).getLsbD 31 = true ∧ core.windowBad 0x1001 0 = false ∧ core.inNamespace 0x2020 1 1 = true ∧ (dictRow 0x1001 0).isSome = true ∧
    dictRow 0x1FFF 0 = none ∧ dictHasIndex 0x1FFF = false ∧ ((dictRow 0x2020 1).map fun r => (r.size, r.takes 0x2020 1 1)) = some (2, true) ∧
    ({ core with acc := { core.acc with boxes := [(0, { req := 0x80000000 })] } } : State).box 0 = { req := 0x80000000 } := by decide +kernel

theorem witness_BlocksAndSegmentsComplete : (recorded.lane 517).block = some ⟨[fdRecord], 0, [], []⟩ ∧
    recorded.store.seg = some ⟨0, 0, false, false, []⟩ ∧
    recorded.blockFits ⟨0, 0, false, false, []⟩ (makeBlock 517 (fun _ => 2) [fdRecord]).length = true ∧
    (({ recorded with store := { recorded.store with lanes := [(4096, { wrapDue := some 7 })] } } : State).lane 4096).wrapDue = some 7 ∧
    recorded.acting 0 = true ∧ recorded.inSession = true ∧ (⟨0, 0, false, false, []⟩ : OpenSeg).used + 180 ≤ 4194303 ∧
    (inState .running 1).store.seg = none := by decide +kernel

/-- A closed segment that both SSDs need, with SSD 0's copy durable or not. -/
def closedSeg (durable : BitVec 2) : Seg := ⟨3, [], false, true, 3, 3, durable, 0, 0⟩

/-- A draining session on two ready SSDs, with a command of SSD 1 outstanding. -/
def draining (cmd : NvmeCmd) (st : Fin 4) : State :=
  { inState .draining 1 with
      store := { core.store with mode := 2, ring := [closedSeg 1], hashing := [closedSeg 0], ssd0 := { state := 1 }, ssd1 := { state := st, cmds := [(9, cmd)] } } }

/-- Whether an SSD has a volatile write cache is a constant without a body: the hypotheses of the write hold of SSD 1 when it has none. -/
theorem witness_SsdCommandsComplete_write (m : Nat) : ((draining (.write 3 m) 1).ssd 1).cmds.find 9 = some (.write 3 m) ∧
    (draining (.write 3 m) 1).slotOf 3 = (draining (.abort 0) 1).slotOf 3 := ⟨rfl, rfl⟩

theorem witness_SsdCommandsComplete : closedSeg 1 ∈ (draining (.flush []) 1).store.ring ∧
    (closedSeg 1).need &&& ~~~((closedSeg 1).durable ||| ssdMask 1) = 0 ∧ (closedSeg 1).last = true ∧ ((draining (.write 3 3) 1).ssd 1).state = 1 ∧
    ((draining (.flush [3]) 1).ssd 1).cmds.find 9 = some (.flush [3]) ∧ hasSsd (closedSeg 1).written 1 = true ∧
    (draining (.dealloc [0]) 1).usesSsd 1 = true ∧ ((draining (.dealloc [0]) 1).ssd 1).cmds.find 9 = some (.dealloc [0]) ∧
    ((draining (.abort 1) 1).ssd 1).cmds.find 9 = some (.abort 1) ∧ ((draining (.write 3 3) 2).ssd 1).state = 2 ∧
    ((draining (.write 3 3) 1).ssd 1).timeoutAt = none ∧ (0 : Nat) < 0 + 60 * secTicks ∧ (1 : Nat) ∈ core.namedSsds ∧ (core.ssd 1).state ≠ 1 ∧
    core.sess.st = .idle ∧ core.served = true ∧ (draining (.write 3 3) 1).ringFull = false ∧ hasSsd (closedSeg 1).need 1 = true ∧
    hasSsd (closedSeg 1).durable 1 = false ∧ (draining (.write 3 3) 1).store.headerOut = false := by decide +kernel

/-- A replaying session at CAN port 3 in normal mode with a transmit side, its source read to its end. -/
def replaying (x : TxPort) (policy : Nat) : State :=
  { withPort 3 { enabled := true } [(odKey (portIdx 3) 5, 2), (odKey 0x3400 4, 4 * 2 ^ 40 + policy * 2 ^ 10 + 2 ^ 7)] (inState .running 2) with
      rep := { st := 3, offset0 := some 10, sourceDone := true, ports := [(3, x)] } }

/-- A raw record of port 3. -/
def canRec : List Byte := rawRecord 0 3 0 0 (canAux canFrame) 0 (canId canFrame) (canPayload canFrame)

theorem witness_ReplayCommandsComplete : (replaying {} 0).capturing = true ∧ (replaying {} 0).rep.offset0 = some 10 ∧
    ((replaying { source := [(5, canRec)] } 0).tx 3).source = [(5, canRec)] ∧ (5 : Int) + 10 + 0 ≤ 0 + 80000000 ∧
    (replaying {} 0).alterEngine 3 = none ∧ (replaying {} 0).queueRoom 3 (rawAtCount canRec 15) = true ∧ (15 : Int) ∉ ((replaying {} 0).tx 3).gone ∧
    ((replaying { queue := [⟨0, canRec, 4000, 0⟩] } 0).tx 3).queue = [⟨0, canRec, 4000, 0⟩] ∧
    (replaying {} 0).heldBack 3 ((replaying {} 0).shifted 3 4000) = false ∧ (⟨0, canRec, 4000, 0⟩ : Emit).ready ≤ (replaying {} 0).shifted 3 4000 ∧
    (replaying { queue := [⟨0, canRec, 4000, 0⟩] } 0).portUse 3 = 1 ∧ (replaying { queue := [⟨0, canRec, 4000, 0⟩] } 0).dryHold 4000 = none ∧
    (replaying { queue := [⟨0, canRec, 3999, 0⟩] } 2).dryHold 3999 = some (3999, 3) ∧ (∀ r ∈ (replaying {} 0).side, isTransmit 3 r.1 = false) ∧
    ({ replaying {} 0 with side := [(.transmit 3 0, 0, 3)] } : State).sidesBad (isTransmit 3) = true ∧
    (replaying {} 0).emitFits 3 canRec = true ∧ portKind 3 = .can ∧ (replaying {} 0).shifted 3 3999 < (⟨0, canRec, 3999, 0⟩ : Emit).ready ∧ (replaying {} 1).dryPolicy 3 = 1 ∧
    (replaying {} 0).takes 3 = true ∧ (replaying {} 0).portUse 3 ≠ 3 := by decide +kernel

/-- An altering engine with room, and a hold whose conditions are met. -/
theorem witness_ReplayCommandsComplete_alter :
    (let s := { run0 {} with od := [(odKey 0x3400 4, 2 ^ 13)], sess := { core.sess with st := .running } }
     s.alterEngine 3 = some 0 ∧ s.routerRoom 0 (entryBytes (sourceCtl 3 canRec) (rawAtCount canRec 15)) = true) ∧
    (let s := replaying { queue := [⟨0, canRec, 5, 0⟩, ⟨0, canRec, 90000000, 0⟩] } 0
     let t := { s with rep := { s.rep with held := some (5, 3) } }
     t.rep.held = some (5, 3) ∧ (t.resumeAt 5 3).isSome = true) := by decide +kernel

/-- A frame of a CAN port that waits for its bus, and one that has left. -/
theorem witness_ReplayCommandsComplete_bus :
    (let s := replaying { waiting := [⟨0, canRec, 0, false, false, none⟩] } 0
     (s.tx 3).waiting = [⟨0, canRec, 0, false, false, none⟩] ∧ (s.port 3).errState ≠ 2) ∧
    (let s := replaying { started := [⟨0, canRec, 0, false, false, some 0⟩] } 0
     (s.tx 3).started = [⟨0, canRec, 0, false, false, some 0⟩] ∧ s.takes 3 = true ∧ s.capturing = true) := by decide +kernel

/-- A link session at one end, with path 0 alone and keys. -/
def linked (car : Bool) (l : Link) : State :=
  { inState .running (if car then 8 else 16) with od := [(odKey (pathIdx 0) 1, 1)], link := { l with role := some car, keys := some ⟨1, zeros 32, zeros 32⟩, st := 2 } }

/-- Path 0 up, its next hop resolved. -/
def pathUp : Tab LinkPath := [(0, { up := true, neighbour := true })]

/-- A record that waits in a class, selected at count 9. -/
def waiting (cls : Nat) : LinkRec := ⟨cls, 517, 9, fdRecord⟩

theorem witness_LinkSendingAndKeys_sending :
    (Tab.get {} (linked true { opened := [(2069, { recs := [waiting 1] })] }).link.opened (517 * 4 + 1)).recs = [waiting 1] ∧
    (Machine.linkBlock 517 [] [waiting 1]).bytes.length ≤ 4194304 ∧
    (linked true {}).linkCar = true ∧ (linked true {}).linkPaths.contains 0 = true ∧ ((linked true { paths := pathUp }).lpath 0).closed = false ∧
    ((linked true { paths := pathUp, repair := [⟨7, 1, 1, 1, zeros 4, 0⟩] }).lpath 0).up = true ∧ ((linked true { paths := pathUp }).lpath 0).neighbour = true ∧
    2 ≤ (linked true {}).link.st.val ∧ (linked true { resend := [⟨1, 0, 0, zeros 4, 0⟩] }).link.resend = [⟨1, 0, 0, zeros 4, 0⟩] ∧
    (let s := linked true { paths := pathUp, queues := [(1, [Machine.linkBlock 517 [] [waiting 1]])] }
     s.nextClass 0 = some 1 ∧ Tab.get [] s.link.queues 1 = [Machine.linkBlock 517 [] [waiting 1]] ∧ s.link.repair = [] ∧ s.link.resend = [] ∧
      (Machine.linkBlock 517 [] [waiting 1]).bytes.length ≤ s.bodyRoom 1 (codeLevel s.link.level.val).2 ∧
      earliest (((Tab.get [] s.link.queues 1).head?.map (·.since)).toList) = some 9) ∧
    (linked true { group := [zeros 4] }).link.group ≠ [] ∧ (linked true {}).linkHears 0 (linkFrame 3 []) = true ∧
    (linked true { kept := [⟨1, 0, 0, zeros 4, 0⟩] }).link.kept.find? (fun k => k.keyno.toNat = 1 && k.seq = 0 && core.now < k.since + 3 * secTicks) =
      some ⟨1, 0, 0, zeros 4, 0⟩ := by decide +kernel

/-- A handshake body of a role. -/
def hello (role : Byte) : List Byte := zeros 8 ++ [role] ++ zeros 357

/-- Of the handshake, all but the signature: the check of a signature is a constant without a body, and the hypotheses hold when it accepts this one. -/
theorem witness_LinkSendingAndKeys_handshake :
    (linked true { shaking := true, hello := some (hello 0), paths := pathUp }).link.shaking = true ∧ (linked true {}).inSession = true ∧
    ((linked true { paths := pathUp }).linkPaths.all fun p => ((linked true { paths := pathUp }).lpath p).neighbour) = true ∧
    (linked false {}).linkHears 0 (linkFrame 4 (hello 0)) = true ∧ shakeForm 0 (hello 0) = true ∧ core.pst.rngOk = true ∧
    (linked true { hello := some (hello 0) }).linkHears 0 (linkFrame 5 (hello 1)) = true ∧ shakeForm 1 (hello 1) = true ∧
    slice (hello 1) 238 32 = slice (hello 0) 12 32 ∧ (linked true {}).link.shaking = false ∧ (linked true {}).link.keys.isSome = true ∧
    (linked true { oldUntil := some 7, oldKeys := some ⟨0, [], []⟩ }).link.oldUntil = some 7 ∧ (linked true {}).linkHears 0 (linkFrame 6 []) = true ∧
    (linked true {}).linkPaths = [0] ∧ ((linked true {}).lpath 0).rate = 0 := by decide +kernel

/-- An empty data frame under key number 1. -/
def opened : LinkFrame := { linkFrame 0 [] with keyno := 1 }

/-- When the opening of a frame succeeds, a frame of the newest key whose SEQ is new opens; when it fails, none does. -/
theorem witness_LinkPathsAndReceiving_open :
    (∀ b, Config.gcmOpen (zeros 32) (linkIv true 0) (headerOf opened) [] (zeros 16) = some b → ∃ u, (linked false {}).openFrame opened = (u, some b)) ∧
    (Config.gcmOpen (zeros 32) (linkIv true 0) (headerOf opened) [] (zeros 16) = none → ∃ u, (linked false {}).openFrame opened = (u, none)) := by
  have k : (linked false {}).openFrame opened = (match Config.gcmOpen (zeros 32) (linkIv true 0) (headerOf opened) [] (zeros 16) with
      | none => ((linked false {}).authFail, none)
      | some b => (linked false {}).opened opened b) := rfl
  exact ⟨fun b h => ⟨_, by rw [k, h]; rfl⟩, fun h => ⟨_, by rw [k, h]⟩⟩

theorem witness_LinkPathsAndReceiving_paths : (linked false {}).link.role = some false ∧ (linked false {}).inSession = true ∧ (linked false {}).linkPaths = [0] ∧
    ((linked false { paths := pathUp }).lpath 0).neighbour = true ∧
    (linked true {}).linkHears 0 (linkFrame 2 (zeros 28)) = true ∧ (zeros 28).length = 28 ∧ slice (zeros 28) 0 4 = [0, 0, 0, 0] ∧
    ((linked true { paths := [(0, { up := true, lastReport := some 9 })] }).lpath 0).lastReport = some 9 ∧
    ((linked true { paths := [(0, { closed := true })] }).lpath 0).closed = true ∧
    (let s := { linked true {} with od := [(odKey (pathIdx 0) 1, 1), (odKey (pathIdx 0) 2, 0), (odKey (0x3400 + macPort 0 / 128) (macPort 0 % 128 + 1), 3 * 2 ^ 7)] }
     s.portUse (macPort 0) = 3 ∧ s.served = true ∧ s.cfg (pathIdx 0) 1 = 1 ∧ s.cfg (pathIdx 0) 2 = 0) := by decide +kernel

theorem witness_LinkPathsAndReceiving_receiving : (linked false {}).linkHears 0 (linkFrame 0 []) = true ∧ (linkFrame 0 []).fflags.getLsbD 5 = false ∧
    (linked false { offset := some 0 }).link.offset.isSome = true ∧ (linked false {}).link.seen.contains (1, 0) = false ∧
    (let s := linked false { paths := pathUp, groups := [⟨1, 4, 1, 0, 0, [], true⟩] }
     s.groupLost 1 0 = true ∧ s.linkPaths.find? (fun p => !(s.lpath p).closed) = some 0 ∧ (s.lpath 0).neighbour = true ∧ s.link.naks = []) ∧
    firstRelease [⟨9, 0, 517, 4, fdRecord⟩, ⟨5, 0, 517, 7, fdRecord⟩] = some ⟨5, 0, 517, 7, fdRecord⟩ ∧
    laneFirst 517 [⟨9, 0, 517, 4, fdRecord⟩, ⟨5, 0, 517, 7, fdRecord⟩] = some ⟨9, 0, 517, 4, fdRecord⟩ ∧ (linked false {}).ownLane 517 = false ∧
    8 ≤ fdRecord.length ∧ recType fdRecord ≠ 4 ∧ (inState .running 17).recording = true := by decide +kernel

/-- The hypotheses on the flags, paths and groups of the link's completion statement. -/
theorem witness_LinkAndFabricCommandsComplete :
    ((linked false { paths := pathUp }).linkPaths.any fun p => !((linked false { paths := pathUp }).lpath p).closed) = true ∧
    Tab.get [] (linked true { queues := [(1, [Machine.linkBlock 517 [] [waiting 1]])] }).link.queues 1 ≠ [] ∧
    ((linked true { paths := [(0, { up := true, lastReport := some 9 })] }).lpath 0).lastReport.isSome = true ∧
    (linked true { oldUntil := some 7 }).link.oldUntil.isSome = true ∧ (linked false {}).link.role = some false ∧ (linkFrame 1 []).type.toNat = 1 := by
  decide +kernel

/-- A fabric with all ports enabled, port 0 in some state, node ID 5. -/
def fabric (x : FabPort) : State := { core with od := [(odKey 0x2700 1, 255)], fab := { core.fab with node := some 5, ports := [(0, x)], routes := [(9, [0])], dataRoutes := [(9, [0])] } }

/-- A flit of a type for a node that acknowledges nothing new. -/
def fabFlit (type : BitVec 4) (vc : BitVec 2) (dst tspec : Byte) (p : List Byte) : Flit :=
  { flitOf type p with vc := vc, dst := dst, src := 9, ack := 255, cvc := 3, tspec := tspec }

/-- An outstanding flit. -/
def sentOnce : Unacked := ⟨fabFlit 4 1 0 0 [], 1⟩

theorem witness_FabricPortsComplete_ports : (fabric {}).served = true ∧ (fabric {}).fabEnabled 0 = true ∧ ((fabric { st := 1 }).fport 0).st = 1 ∧
    (fabric { st := 3 }).fabHears 0 = true ∧ ((fabric { st := 3 }).fport 0).isUp = true ∧
    ((fabric { st := 3 }).fport 0).maySend ((fabric { st := 3 }).helloFlit 0) = true ∧ ((fabric { st := 3 }).fport 0).oneLane = false ∧
    ((fabric { st := 3, unacked := [sentOnce], txSeq := 1 }).fport 0).unacked = [sentOnce] ∧ sentOnce.sent < 16 ∧
    ((fabric { st := 3, nakFor := some (0, 1) }).fport 0).nakFor = some (0, 1) ∧ (1 : Nat) ≠ 10001 ∧
    ((fabric { st := 3, unacked := [sentOnce], txSeq := 1 }).fport 0).ackCount 0 = some 1 ∧ ((fabric { st := 3 }).fport 0).ackCount 255 = some 0 ∧
    (fabric { st := 3 }).flitTaken 0 (fabFlit 0 0 0 0 []) 0 = true ∧
    (fabric { st := 3, unacked := [sentOnce], txSeq := 1 }).flitTaken 0 (fabFlit 1 0 0 0 [1, 0, 0]) 1 = true ∧
    (fabric { st := 3 }).flitNext 0 (fabFlit 2 0 0 0 (zeros 13)) 2 = true ∧ (fabric { st := 2 }).flitNext 0 (fabFlit 2 0 0 0 (zeros 13)) 2 = true := by
  decide +kernel

/-- A HELLO of a UID. -/
def helloOf (u : BitVec 64) : Flit := fabFlit 2 0 0 0 (leBytes 8 u.toNat ++ zeros 5)

/-- The HELLO of the device's own UID, and that of another. -/
theorem witness_FabricPortsComplete_uids : (fabric { st := 3 }).flitNext 0 (helloOf Config.uid) 2 = true ∧
    BitVec.ofNat 64 (leNat (slice (usedBytes (helloOf Config.uid)) 0 8)) = Config.uid ∧ Config.uid + 1 ≠ Config.uid := by
  refine ⟨by decide +kernel, ?_, fun h => by bv_omega⟩
  have h : slice (usedBytes (helloOf Config.uid)) 0 8 = leBytes 8 Config.uid.toNat := rfl
  rw [h, leNat_leBytes]
  apply BitVec.eq_of_toNat_eq
  have := Config.uid.isLt
  simp only [BitVec.toNat_ofNat]
  omega

theorem witness_FabricRoutesAndMessages_routes : (fabric {}).served = true ∧ (fabric {}).cfg 0x2700 1 ≠ 0 ∧ (fabric {}).fabStatic = false ∧ core.fab.node = none ∧
    ((fabric { st := 3 }).fport 0).maySend (mkFlit 4 1 []) = true ∧ (fabric { st := 3, helloSeen := true }).flitNext 0 (fabFlit 4 1 0 0xC0 (zeros 14)) 4 = true ∧
    ({ core with fab := { core.fab with better := some 7 } } : State).fab.better = some 7 ∧
    (fabric { st := 3, helloSeen := true, req := some 0 }).flitTaken 0 (fabFlit 3 0 0 0 (1 :: zeros 30)) 3 = true ∧
    ((fabric { st := 3, req := some 0 }).fport 0).req = some (readTime (1 :: zeros 30) 1) ∧ (0 : Int) ≤ 0 + usTicks 100 := by decide +kernel

theorem witness_FabricRoutesAndMessages_dynamic : core.dynamicId = some 0 := rfl

/-- A management read of 0x2020:01, its answer, and a one-flit DATA record. -/
theorem witness_FabricRoutesAndMessages_messages :
    let s := fabric { st := 3, helloSeen := true }
    let o : MgmtOut := ⟨9, 1, .pcie0, false, 0x2020, 1, 0, [], [], 2⟩
    let read := fabFlit 6 1 5 0xC0 [0, 1, 2, 0, 0x20, 0x20, 1, 0, 0, 0, 0]
    let t := { s with fab := { s.fab with out := [o] } }
    s.flitNext 0 read 6 = true ∧ s.fabMine read = true ∧ (dictRow 0x2020 1).isSome = true ∧ s.routePort 6 9 = some 0 ∧
    (s.fport 0).maySend (mkFlit 6 1 []) = true ∧ t.flitNext 0 (fabFlit 6 1 5 0xC0 ([4, 1, 2, 0] ++ zeros 10)) 6 = true ∧
    t.fab.out.find? (fun o => o.node = 9 && o.tag = 1) = some o ∧ s.flitNext 0 (fabFlit 7 2 5 0xC0 (zeros 7)) 7 = true ∧
    Tab.get [] s.fab.parts 9 = [] ∧ s.cls.dropsOwed = [] ∧ ({ run0 {} with fab := s.fab } : State).routerRoom 0 (zeros 3) = true ∧
    s.fab.exports = [] ∧ (s.fport 0).txq = [] ∧ s.windowBad 0x2020 1 = false ∧
    ({ s with fab := { s.fab with ports := [(0, { st := 3 }), (1, { st := 3, helloSeen := true })] } } : State).flitNext 1 (fabFlit 7 2 9 0 (zeros 4)) 7 = true ∧
    s.fabMine (fabFlit 7 2 9 0 (zeros 4)) = false ∧ s.fabRole ≠ 2 ∧ (fabFlit 7 2 9 0 (zeros 4)).hops.toNat < 15 ∧ s.routePort 7 9 = some 0 := by
  decide +kernel

/-- A switch to slot 1 that is pending, prepared by some units. -/
def switching (prepared : List Nat) (done split : Bool) : PendingSwitch := ⟨7, true, 1000, 1, 0, 1, prepared, [], [0], [], [], done, split, false, [], {}, none⟩

/-- The core with an empty profile in slot 1 and a pending switch. -/
def inSwitch (w : Option PendingSwitch) : State := { core with sw := { core.sw with slots := [(1, {})], pending := w } }

/-- A slot with an empty profile passes its check. -/
theorem goodSlot_empty (s : State) (k : Nat) (h : s.sw.slots.find k = some {}) : (s.goodSlot k).isSome = true := by
  have e : ({} : Profile).value = dictDefault := rfl
  simp [State.goodSlot, h, e, test_profile_default]

theorem witness_ProfileSwitchCompletes : core.remote .can = none ∧ (inSwitch none).switchPending = false ∧ (inSwitch none).sw.slots.find 1 = some {} ∧
    (inSwitch none).genTooFar 1 = false ∧ bits 1 4 14 = 0 ∧ (inSwitch (some (switching [] false false))).switchPending = true ∧
    (inSwitch (some (switching [] false false))).sw.slots.find 1 = some {} ∧ unitCode (.canPort 95) ≠ 208 ∧
    (inSwitch (some (switching [] false false))).cls.checking = none ∧ (switching allUnits false false).lacking = [] ∧
    (switching [] false false).lacking = allUnits ∧ (inSwitch none).inFabric = false ∧ (inSwitch none).cfg 0x2800 6 = 0 ∧
    (switching [] true true).committed ≠ [] ∧ (inSwitch none).sw.saving = [] ∧ (inSwitch none).badEntry = none ∧ core.acc.owed = [] ∧ ((({} : Profile).vals.map (·.1)).Nodup) := by
  decide +kernel

/-- COMMIT flits of the coordinators 1 and 2: one of the two is another device. -/
theorem witness_ProfileSwitchCompletes_fabric :
    let s := fabric { st := 3, helloSeen := true }
    let f := fun (k : Byte) (u : Byte) => fabFlit 5 1 5 0 ([4 + k, u] ++ zeros 30)
    (∀ k ∈ [(0 : Byte), 1, 2, 3], ∀ u ∈ [(1 : Byte), 2], s.flitNext 0 (f k u) 5 = true ∧ commitKind (f k u) = k.toNat ∧ (readCommit (usedBytes (f k u))).coord = u.setWidth 64 ∧
      (readCommit (usedBytes (f k u))).slot = 1 ∧ (readCommit (usedBytes (f k u))).commitAt = 0 ∧ outcomeNodes (usedBytes (f k u)) = []) ∧
    s.inFabric = true ∧ s.sw.pending = none ∧ s.fabRole ≠ 2 ∧ s.fabMine (f 1 1) = true := by decide +kernel

theorem witness_ProfileSwitchCompletes_coordinator : (1 : BitVec 64) ≠ Config.uid ∨ (2 : BitVec 64) ≠ Config.uid := by
  by_cases h : (1 : BitVec 64) = Config.uid
  · exact .inr (by rw [← h]; decide)
  · exact .inl h

/-- A whole pod image of no sections that names no entry, stored and named by pod 0. -/
def withImage : State :=
  let q : Pod := { powered := true, erst := 0, failed := true }
  { core with pods := [(0, q)], pst := { core.pst with images := [(7, image)] } }

theorem witness_PestleServicesComplete : (run0 {}).served = true ∧ (run0 {}).podUp 0 = true ∧ ((run0 {}).engine 0).exc.st = 0 ∧
    (({ run0 {} with pst := { core.pst with doors := [(0, ⟨true, false, 5⟩)] } } : State).door 0).full = true ∧
    ((run0 { exc := { st := 2 } }).engine 0).exc.st ≠ 0 ∧ core.sess.st = .idle ∧ (withImage.pod 0).failed = true ∧
    (let s := { withImage with od := [(odKey 0x2960 1, 1)] }
     s.cfg 0x2960 1 = 1 ∧ s.switchPending = false ∧ s.checking = false ∧ s.cls.copying = false) ∧
    ((List.zip [80] [0]).any fun (x : Int × Int) => 80 ≤ |x.1 - x.2|) = true ∧ core.remote .can = none ∧ core.acc.cursors.get 0 (pathCode .can) ≠ core.log.next ∧
    (core.log.next - 0).toNat ≤ core.log.rows.length ∧
    ({ core with acc := { core.acc with cursors := [(pathCode .can, 1)] } } : State).acc.cursors.get 0 (pathCode .can) = core.log.next := by decide +kernel

theorem witness_PestleServicesComplete_log : core.log.wf := by
  refine ⟨by decide, ?_⟩
  intro i h
  have h0 : i = 0 := by simp [core, State.reset] at h; omega
  subst h0
  rfl

/-- An update in progress on the first PCIe path. -/
def updating (checked : Nat) : State := { core with pst := { core.pst with updater := some .pcie0, received := 160, checked := checked } }

theorem witness_FirmwareAndImagesComplete : core.served = true ∧ core.remote .pcie0 = none ∧ core.sess.st = .idle ∧ core.pst.updater = none ∧
    core.pst.resetDue = none ∧ 4194304 + 0 ≤ 4194304 ∧ (updating 1).pst.updater = some .pcie0 ∧ 160 = (updating 1).pst.received ∧
    (updating 1).pst.checked = 1 ∧ (updating 2).pst.checked ≠ 1 ∧ (inState .armed 1).sess.st ≠ .idle ∧
    (let s := { core with pst := { core.pst with trial := true, runningTrial := true } }
     s.pst.trial = true ∧ s.pst.runningTrial = true ∧ s.pst.running.svn ≤ 64) ∧
    ({ core with pst := { core.pst with resetDue := some 9 } } : State).pst.resetDue = some 9 ∧ core.pst.upload.length = 0 ∧ 64 ≤ image.length ∧
    imgLen image ≤ image.length ∧ (podCheck core.pst.keyHash image []).1 ≠ 0 ∧ (zeros 63).length < 64 ∧
    (updating 1).sess.st = .idle ∧ (updating 1).pst.resetDue = none ∧ (updating 1).sw.slots = [] ∧
    (core.sw.slots.any fun e => e.2.names 7) = false ∧ (zeros 48).length = 48 ∧ core.pst.keyHash = none := by decide +kernel

/-- An entry of a power state in progress, the crystal running. -/
def entering (k : Fin 5) : State := { core with pwr := { core.pwr with entry := some ⟨k, .can⟩, xtalOk := true, capture := true }, od := [(odKey 0x2100 1, 0x2001)] }

/-- A wake in progress below RUN. -/
def waking (st : Fin 5) (q : Bool) (r : Option Retention) : State :=
  { core with pwr := { core.pwr with st := st, wake := some ⟨9, 0x2001, q⟩, rails := 4, retention := r, capture := true }, od := [(odKey 0x2100 1, 0x2001)] }

theorem witness_PowerStatesComplete : core.served = true ∧ core.remote .can = none ∧ core.pwr.st = 0 ∧ core.sess.st = .idle ∧ core.switchPending = false ∧
    core.pwr.entry = none ∧ core.pwr.wake = none ∧ (inState .running 1).sess.st ≠ .armed ∧
    (let s := { core with pwr := { core.pwr with st := 1 } }
     s.served = true ∧ s.pwr.st = 1 ∧ s.pwr.wake = none) ∧
    (entering 4).pwr.entry = some ⟨4, .can⟩ ∧ (entering 2).pwr.xtalOk = true ∧ (entering 2).wakeOn 13 = true ∧ (entering 2).wakeOn 0 = true ∧
    (waking 3 false none).wakeOn 13 = true ∧ (waking 3 false none).pwr.entry = none ∧ (0x2001 : BitVec 14) &&& BitVec.ofNat 14 (2 ^ 13) ≠ 0 ∧
    (0x2001 : BitVec 14) &&& ~~~BitVec.ofNat 14 (2 ^ 13) ≠ 0 ∧ (1 : BitVec 14) &&& ~~~BitVec.ofNat 14 (2 ^ 0) = 0 ∧
    (waking 1 true none).pwr.wake = some ⟨9, 0x2001, true⟩ ∧ (waking 1 true none).cfg 0x2100 3 ≠ 1 ∧ (waking 1 true none).pwr.startOwed = [] ∧
    (waking 3 true (some ⟨.idle, 0, 255, 0, {}, 0, none, [], 0⟩)).pwr.retention = some ⟨.idle, 0, 255, 0, {}, 0, none, [], 0⟩ ∧
    (waking 3 true none).pwr.rails = 4 ∧
    (let s := { waking 3 false none with od := [(odKey (portIdx 7) 15, 1)] }
     s.portCfg 7 15 = 1 ∧ s.pwr.capture = true ∧ s.huskTakes 7 canFrame = true ∧ 9 + 8000 ≤ 8009) := by decide +kernel

/-- The hypotheses of the completion statement on firmware and power that the ones above do not meet. -/
theorem witness_SwitchFirmwarePowerCommandsComplete : (entering 1).pwr.entry = some ⟨1, .can⟩ ∧ (2 : Fin 5) ≠ core.pwr.st ∧
    (let s := waking 3 false none
     let o := { s with pwr := { s.pwr with wake := some ⟨9, 0x2000, false⟩ } }
     o.wakeOn 13 = true ∧ o.pwr.wake = some ⟨9, BitVec.ofNat 14 (2 ^ 13), false⟩) ∧
    (let s := { waking 3 false none with od := [(odKey (portIdx 7) 15, 1)] }
     let o := { s with pwr := { s.pwr with wake := none } }
     o.pwr.wake = none ∧ o.pwr.capture = true ∧ o.huskTakes 7 canFrame = true) ∧ (waking 1 true none).pwr.st = 1 := by decide +kernel

theorem witness_SuppliesAndTestComplete : State.reset.pwr.boot = .rails ∧ State.reset.pwr.retry = false ∧ State.reset.pwr.st = 0 ∧ State.reset.pwr.rails.val = 0 ∧
    core.ioOn = true ∧ railGroup 20 = some 3 ∧ ({ core with pwr := { core.pwr with boot := .rails, rails := 3 } } : State).pwr.rails.val = 3 ∧ core.pwr.st ≠ 4 ∧
    core.pwr.boot ≠ .tripped ∧ ({ core with pwr := { core.pwr with boot := .tripped } } : State).pwr.boot = .tripped ∧ core.served = true ∧
    TestInstr.extest ∈ [TestInstr.preload, .extest, .extestPulse, .extestTrain] ∧ core.xbarOn = true := by decide +kernel

/-- What a boot finds: failing columns, and whether the PLL locks. -/
def facts (columns : List (BitVec 24 × Nat)) (pll : Bool) : BootFacts := ⟨0, columns, pll, 100, 200⟩

/-- A memory to test whose repair record gives MSRAM macro 0 its four spares. -/
def spent : Memory := { State.reset.mem with recA := { test := true, entries := [⟨0x300000, 0, 0, 0⟩, ⟨0x300000, 1, 1, 0⟩, ⟨0x300000, 2, 2, 0⟩, ⟨0x300000, 3, 3, 0⟩] } }

/-- What is in use stays so. -/
theorem assign_keeps (m : Memory) (e : RepairEntry) (a k : Nat) (h : spareUsed m.spares a k = true) : spareUsed (m.assign e).spares a k = true := by
  simp only [Memory.assign]
  split
  · simp only [spareUsed, Bool.or_eq_true, List.any_append] at *
    tauto
  · exact h

/-- An entry whose macro has its column has its spare in use once the fuse loader has seen it. -/
theorem assign_used (m : Memory) (e : RepairEntry) (h : (macroColumns e.macro_.toNat).any (e.column < ·) = true) :
    spareUsed (m.assign e).spares e.macro_.toNat e.spare.val = true := by
  cases hk : spareUsed m.spares e.macro_.toNat e.spare.val
  · simp only [Memory.assign, h, hk]
    simp [spareUsed]
  · exact assign_keeps m e _ _ hk

/-- No other spares come into use. -/
theorem assign_from (m : Memory) (e : RepairEntry) : ∀ x ∈ (m.assign e).spares, x ∈ m.spares ∨ x = e := by
  simp only [Memory.assign]
  split <;> simp +contextual

/-- A fifth failing column there cannot be repaired. -/
theorem witness_ResetsAndBootComplete_bad :
    ((({ State.reset with mem := spent } : State).fuseLoad (facts [(0x300000, 9)] true).columns).2.any fun m => (macroPod m).isNone) = true := by
  let e (k : Fin 4) : RepairEntry := ⟨0x300000, k.val, k, 0⟩
  let m0 : Memory := { spent with spares := [], assigned := 0, skipped := [] }
  let m := (((m0.assign (e 0)).assign (e 1)).assign (e 2)).assign (e 3)
  have hm : spent.assignRecord = m := rfl
  have c (k : Fin 4) : (macroColumns (e k).macro_.toNat).any ((e k).column < ·) = true := by revert k; decide
  have u (k : Fin 4) : spareUsed m.spares 0x300000 k.val = true := by
    have g (m : Memory) (k : Fin 4) : spareUsed (m.assign (e k)).spares 0x300000 k.val = true := assign_used m (e k) (c k)
    fin_cases k
    · exact assign_keeps _ _ _ _ (assign_keeps _ _ _ _ (assign_keeps _ _ _ _ (g _ 0)))
    · exact assign_keeps _ _ _ _ (assign_keeps _ _ _ _ (g _ 1))
    · exact assign_keeps _ _ _ _ (g _ 2)
    · exact g _ 3
  have f : freeSpare m.spares 0x300000 = none := by simp [freeSpare, u]
  have r : repaired m.spares 0x300000 9 = false := by
    simp only [repaired, List.any_eq_false]
    intro x hx
    have : x = e 0 ∨ x = e 1 ∨ x = e 2 ∨ x = e 3 := by
      rcases assign_from _ _ x hx with h | h
      · rcases assign_from _ _ x h with h | h
        · rcases assign_from _ _ x h with h | h
          · rcases assign_from _ _ x h with h | h
            · cases h
            · exact .inl h
          · exact .inr (.inl h)
        · exact .inr (.inr (.inl h))
      · exact .inr (.inr (.inr h))
    rcases this with rfl | rfl | rfl | rfl <;> decide
  have o (m : Memory) (e : RepairEntry) : (m.assign e).ownRecord = m.ownRecord := by
    simp only [Memory.assign]
    split <;> rfl
  have t : m.ownRecord.test = true := by
    simp only [m, o]
    decide
  have k : (({ State.reset with mem := spent } : State).fuseLoad (facts [(0x300000, 9)] true).columns).2 = [0x300000] := by
    simp only [State.fuseLoad, hm, t, facts, if_true]
    simp [Memory.testColumns, r, f]
  rw [k]
  decide

/-- Firmware in slot A is a delivered one; with a slot that holds other bytes in both places none is accepted. -/
theorem witness_ResetsAndBootComplete : core.pwr.st ≠ 4 ∧ core.pwr.boot ≠ .rails ∧ core.corePowered = true ∧ State.reset.pwr.boot = .rails ∧
    ({ core with pwr := { core.pwr with boot := .held } } : State).pwr.boot = .held ∧
    (let s := { State.reset with pwr := { State.reset.pwr with rails := 4 } }
     s.pwr.rails = 4 ∧ s.pwr.st = 0 ∧ s.mem.ownRecord.test = false ∧ s.sess.st = .idle ∧ s.pst.fallBack.chooseFirmware.isSome = true) ∧
    (let s := { State.reset with mem := { State.reset.mem with recA := { test := true } } }
     ((s.fuseLoad (facts [] true).columns).2.any fun m => (macroPod m).isNone) = false ∧ (facts [] false).pllLocked = false) ∧
    ({ State.reset.pst with slotA := { image := [1], result := 2 }, slotB := { image := [1], result := 2 } } : Pestle).fallBack.chooseFirmware = none := by
  decide +kernel

/-- The core with a listed row whose byte `b` of home address reads with one inverted bit, rows that wait for a rewrite and a candidate. -/
def grinding (b : Nat) (side : List (SideRow × Byte × BitVec 13)) (cel : RowId) (rewrite : RowId × List (Nat × BitVec 13)) : State :=
  { core with mem := { core.mem with bad := [(b, 4)], cel := [cel], candidates := [⟨5, 2, 0, 1⟩], rewrite := [rewrite] }, side := side }

theorem witness_GrinderAndRepairComplete : core.served = true ∧ core.mem.cel = [] ∧ core.bankAt (.home (BitVec.ofNat 40 msramBase)) = some (.msram 0) ∧
    core.bankAt (.pestle 3 3) = some (.dmem 1027 3) ∧ core.bankAt (.side (.fkt true 16383)) = some (.fkt true) ∧ core.reaches (.dmem 1027 3) = true ∧
    core.bankBusy ((GrindBank.msram 3).row 32766) = false ∧ 32766 + 1 < (GrindBank.msram 3).rows ∧ core.mem.bad = [] ∧ core.side = [] ∧
    (let s := grinding msramBase [] (.home msramBase) (.home msramBase, [(0, 5)])
     s.mem.cel = [.home msramBase] ∧ memKind msramBase ≠ .dram ∧ s.bankBusy (.home msramBase) = false ∧
      (s.mem.readRow msramBase (memRow msramBase).2).fail = none ∧ (s.mem.readRow msramBase (memRow msramBase).2).inner = true ∧
      s.mem.rewrite = [(.home msramBase, [(0, 5)])] ∧ memKind msramBase ≠ .staging ∧ (s.mem.bad.map (·.1)).Nodup ∧ s.mem.wf = true ∧ s.mem.candidates ≠ []) ∧
    memKind msramBase ≠ .bootRom ∧ memKind 16 = .bootRom ∧ core.remote .can = none ∧ core.sess.st = .idle ∧ (inState .running 1).sess.st ≠ .idle := by
  decide +kernel

/-- Rows of the Frame Key Table: one inverted bit is corrected, two are beyond correction. -/
theorem witness_GrinderAndRepairComplete_sides :
    (let s := fun m => grinding 0 [(.fkt true 5, 0, m)] (.side (.fkt true 5)) (.side (.fkt true 5), [(0, m)])
     (s 4).sideBad (.fkt true 5) = false ∧ (s 4).sideWrong (.fkt true 5) ≠ [] ∧ (s 3).sideBad (.fkt true 5) = true ∧ (s 4).sideWrong (.fkt true 4) = [] ∧
      (∀ x ∈ [(0, (4 : BitVec 13))], (SideRow.fkt true 5, BitVec.ofNat 8 x.1, x.2) ∈ (s 4).side) ∧ (SideRow.fkt true 5, (0 : Byte), (4 : BitVec 13)) ∉ (s 8).side) ∧
    sideInBank (!core.cls.active) (.fkt true 5) = true ∧ sideInBank (!core.cls.active) (.fkt false 5) = false := by decide +kernel

/-- A block of DRAM of zeros with one wrong byte. -/
def wrongBlock : Memory := { core.mem with cells := (List.range 32).map fun i => (dramBase + i, 0), dbad := [(dramBase, 5)] }

/-- The core with that block. -/
def wrongDram : State := { core with mem := wrongBlock }

/-- Where the DRAM's regions lie are constants without a body: the hypotheses of the DRAM visit hold of the first block when the ring starts there. -/
theorem witness_GrinderAndRepairComplete_dram (h1 : Config.ringFrom = 0) (h2 : Config.readAheadFrom = 2 ^ 30) (h3 : Config.dramUsable = 2 ^ 32) :
    wrongDram.dramNext (wrongBlock.dramLast.elim 0 (· + 32)) = some dramBase ∧ wrongBlock.blockFresh dramBase = false ∧
    (wrongBlock.decodeBlock dramBase).map (·.2) = some true ∧ wrongBlock.cel = [] ∧ wrongBlock.blockWrong dramBase ≠ [] ∧ memKind dramBase = .dram ∧
    ∃ j o, decodeAddr core.xbar.remap (0x1000000000 : BitVec 40).toNat = (j, .mem dramBase o) := by
  have e : dramEnd = 0x1100000000 := by simp [dramEnd, h3, dramBase, pdmemBase]
  refine ⟨?_, by decide +kernel, by decide +kernel, rfl, by decide +kernel, ?_, ?_⟩
  · have c : wrongDram.cfg 0x2500 7 = 2048 ∧ wrongDram.cfg 0x2400 13 = 1024 ∧ wrongDram.pods = [] := by decide +kernel
    have l : wrongBlock.dramLast.elim 0 (· + 32) = 0 := rfl
    simp only [State.dramNext, State.dramRanges, h1, h2, c, l]
    simp [blockFrom, e, dramBase]
  · norm_num [memKind, e, dramBase, msramBase, stagingBase, pmemBase, engBlock]
  · have n : (0x1000000000 : BitVec 40).toNat = 0x1000000000 := rfl
    rw [n]
    exact ⟨42, 0, by norm_num [decodeAddr, e, dramBase, engBlock]⟩

/-! Hypotheses of single clauses that the states above do not meet. -/

theorem witness_ExceptionEntryBegins_fetch :
    (let x : Engine := { pfBad := some 0 }
     (run0 x).engRuns 0 = true ∧ x.fetchDue = true ∧ x.smv.seen = none ∧ x.exc.due = 0 ∧ x.hardFrozen = false) ∧
    (let x : Engine := { pfq := [(0, 0)], smv := { act := true, seen := some ⟨0, 0, 0, 0, false, true, none, []⟩ }, exc := { due := 2 } }
     (run0 x).engRuns 0 = true ∧ x.queued x.ctl.pc.toNat = some 0 ∧ x.smv.seen.isSome = true) := by decide

theorem witness_CrossbarServesRequests_waits :
    (let s := { streamState with xbar := (waits false).xbar }
     s.transferWaits 0 = true ∧ s.podUp 0 = true ∧ dueAt s.now s.xbar.starveLogAt 64 = false) := by decide

theorem witness_TimeBaseEventsComplete_held :
    (let s := { timed { since := some 0, ripe := true, offset := 5000000 } 5 1000 with sess := { core.sess with st := .running } }
     let s3 : State := { s with tb := { s.tb with src := 3 } }
     s3.wanted = 1 ∧ 4000000 < (s3.tb.source 1).offset.natAbs ∧ s3.tb.src.val ≠ 1 ∧ s3.sourceOk s3.tb.src.val = true ∧ s3.served = true) := by decide

theorem witness_CaptureCompletes_moves : (canUp 2 0 { enabled := true }).portCfg 95 5 = 2 ∧ (canUp 2 0 { enabled := true }).canMode 95 edge0 = 2 ∧
    (withPort (macPort 15) { enabled := true, link := some 5 } [] core).portUse (macPort 15) ≠ 3 := by decide

theorem witness_MailboxCompletes_length : (core.box 0).req.getLsbD 31 = false ∧ (0x80012020 : BitVec 32).getLsbD 31 = true ∧ 4096 < (4097 : BitVec 16).toNat := by
  decide

theorem witness_LinkSendingAndKeys_turns :
    (let s := linked true { paths := pathUp, repair := [⟨7, 1, 1, 1, zeros 4, 0⟩] }
     s.inTurn 0 = true ∧ (s.lpath 0).up = true) ∧
    (let s := linked true { paths := pathUp, resend := [⟨1, 0, 0, zeros 4, 0⟩] }
     s.link.mapDue = false ∧ s.link.group = [] ∧ (s.lpath 0).freeAt ≤ s.now) ∧
    (Machine.linkBlock 517 [] [waiting 1]).recs ≠ [] ∧ (Machine.linkBlock 517 [] [waiting 1]).recs.head?.map (·.since) = some 9 := by decide +kernel

/-- A switch that the coordinator of a flit has at a device, before its commit and after it. -/
theorem witness_ProfileSwitchCompletes_outcome :
    (∀ d ∈ [true, false], (switching [] d false).done = d ∧ (switching [] d false).settled = false) ∧ core.sw.outSeen.contains (7, 1000) = false ∧
    core.sw.prepSeen.contains (7, 1000) = false ∧ ({ core with sw := { core.sw with prepSeen := [(7, 1000)] } } : State).sw.prepSeen.contains (7, 1000) = true ∧
    ({ core with sw := { core.sw with saving := [(.can, 1, {})] } } : State).sw.saving = (.can, 1, {}) :: [] := by decide +kernel

/-- An uncorrectable entry of the active bank. -/
def badActive : State := { core with side := [(.sm true 0, 0, 3)], cls := { core.cls with bankB := { sm := [(0, 2 ^ 98)] } } }

theorem witness_PestleServicesComplete_bad : ((badActive.readSides (sideInBank (!badActive.cls.active))).badEntry).isSome = true ∧
    (core.readSides (sideInBank (!core.cls.active))).badEntry = none := by decide +kernel

theorem witness_FirmwareAndImagesComplete_trial : core.pst.trial = false ∧ (updating 1).pst.trial = false ∧
    ({ core with pst := { core.pst with trial := true } } : State).pst.trial = true := by decide

theorem witness_PowerStatesComplete_entry : (entering 2).pwr.gating = [] ∧ (∀ k : Fin 5, (entering 2).unquiet k = false) ∧
    (∀ k : Fin 5, ({ waits false with pwr := (entering 4).pwr } : State).unquiet k = decide (k ≠ 1)) ∧ (entering 2).switchPending = false ∧
    (waking 1 true none).pwr.wake.isSome = true ∧ (waking 1 true none).switchPending = false ∧ (2 : Fin 5) ≠ (waking 1 true none).pwr.st := by decide +kernel

/-! Balls: the examples of 20 R444, and one ball of each kind of row. -/

theorem test_balls : ballAt 23 9 = .dram 1 36 ∧ ballAt 18 1 = .eth 5 true true ∧ ballAt 22 48 = .fabric 3 1 true true ∧ ballAt 20 42 = .pcie 1 2 true true := by
  decide

end Sys2Proof.Tests
end

section
/-! Frames from `Does`, requests that this device serves, and chip time that runs on. -/

namespace Sys2Proof.Machine

variable {l k : List Part} {s t : State}

/-- A part that is known to be unchanged leaves the list of those that may have changed. -/
theorem SameBut.without {p : Part} (h : SameBut l s t) (hp : p.same s t) (hk : ∀ q ∈ l, q = p ∨ q ∈ k) : SameBut k s t := by
  intro q hq
  by_cases hqp : q = p
  · exact hqp ▸ hp
  · exact h q fun hl => (hk q hl).elim hqp hq

theorem Does.tb_eq (h : Does l s t) (hl : l.contains .tb = false := by rfl) : t.tb = s.tb := h.same .tb (by simpa using hl)

theorem Does.cel_eq (h : Does l s t) (hl : l.contains .cel = false := by rfl) : t.mem.cel = s.mem.cel := h.same .cel (by simpa using hl)

/-- A request of a path that targets this device is served here (17 R374). -/
theorem State.request_here {p : Path} (hs : s.served = true) (hr : s.remote p = none) (write : Bool) (idx sub off want : Nat) (data : List Byte)
    (serve : State → State) : s.request p write idx sub off want data serve = serve s := by
  simp only [State.request, hs, hr, if_true, ite_self]

theorem State.requestWrite_here {p : Path} (hs : s.served = true) (hr : s.remote p = none) (idx sub : Nat) (data : List Byte) (serve : State → State) :
    s.requestWrite p idx sub data serve = serve s := State.request_here hs hr ..

theorem State.requestRead_here {p : Path} (hs : s.served = true) (hr : s.remote p = none) (idx sub : Nat) (serve : State → State) :
    s.requestRead p idx sub serve = serve s := State.request_here hs hr ..

/-- Chip time that runs on changes nothing else of the time base. -/
theorem State.reach_tb (s : State) (c : Nat) : ∃ e k, (s.reach c).tb = { s.tb with epoch := e, tick := k } := by
  unfold State.reach
  split <;> exact ⟨_, _, rfl⟩

/-- Chip time that runs on stays in its epoch. -/
theorem State.reach_epoch (s : State) (c : Nat) : (s.reach c).tb.epoch = s.tb.epoch := by
  have he := s.tb.epoch.isLt
  unfold State.reach
  split
  next h =>
    apply BitVec.eq_of_toNat_eq
    rw [State.now] at h
    simp only [State.setTime_tb, BitVec.toNat_ofNat]
    omega
  next => rfl

/-- Chip time runs on to a count of the present epoch, and stays where that has passed. -/
theorem State.now_reach {c : Nat} (h : c < (s.tb.epoch.toNat + 1) * 2 ^ 48) : (s.reach c).now = max s.now c := by
  have he := s.tb.epoch.isLt
  unfold State.reach
  split
  · rw [State.now_setTime] <;> omega
  · omega

end Sys2Proof.Machine
end

section
/-! The distance of two values of a wrapping counter (02 R45). -/

namespace Sys2Proof.Machine

/-- The distance of two values of a counter of `m` counts, without the remainder. -/
theorem wrapDistance {m a b : Nat} (ha : a < m) (hb : b < m) : (b + m - a) % m = if a ≤ b then b - a else b + m - a := by
  split
  · rw [show b + m - a = b - a + m by omega, Nat.add_mod_right, Nat.mod_eq_of_lt (by omega)]
  · exact Nat.mod_eq_of_lt (by omega)

/-- The comparison in terms of the distance. -/
theorem serial_of_distance {n a b d : Nat} (ha : a < 2 ^ n) (hd : (b + 2 ^ n - a) % 2 ^ n = d) :
    serial n a b = if d = 0 then .equal else if d < 2 ^ (n - 1) then .later else if d = 2 ^ (n - 1) then .unordered else .earlier := by
  rw [serial, Nat.mod_eq_of_lt ha, hd]

/-- Which outcome a distance `d` gives in a counter of `2 * m` counts. -/
theorem serial_outcomes {d m : Nat} (r : Serial) (hm : 0 < m)
    (hr : r = if d = 0 then .equal else if d < m then .later else if d = m then .unordered else .earlier) :
    (r = .equal ↔ d = 0) ∧ (r = .later ↔ 1 ≤ d ∧ d ≤ m - 1) ∧ (r = .earlier ↔ m + 1 ≤ d) ∧ (r = .unordered ↔ d = m) := by
  subst hr
  split_ifs <;> simp <;> omega

/-- A target is due unless it is later than chip time (02 R46). The definition is unfolded as a function: with its arguments in place the kernel would compute
the comparison with 2^48 in unary. -/
theorem tickDue_of_serial {now t : Nat} {r : Serial} (h : serial 48 now t = r) : tickDue now t = true ↔ r ≠ .later := by
  have hdef : tickDue = tickDue := rfl
  conv at hdef => rhs; delta tickDue
  rw [hdef]
  simp only [h]
  cases r <;> simp

/-- Settles O8: each outcome is a range of the distance, and the distance back is the counter's length less the distance. -/
theorem serialComparison : Obligations.SerialComparison := by
  constructor
  · intro n a b hn ha hb d
    have hd : d = if a ≤ b then b - a else b + 2 ^ n - a := wrapDistance ha hb
    have hback : (a + 2 ^ n - b) % 2 ^ n = if b ≤ a then a - b else a + 2 ^ n - b := wrapDistance hb ha
    have hhalf : 2 ^ n = 2 * 2 ^ (n - 1) := by rw [← Nat.pow_succ', Nat.succ_eq_add_one, Nat.sub_add_cancel hn]
    have hpos := Nat.two_pow_pos (n - 1)
    obtain ⟨hequal, hlater, hearlier, hunordered⟩ := serial_outcomes (serial n a b) hpos (serial_of_distance ha rfl)
    obtain ⟨-, -, hearlier', -⟩ := serial_outcomes (serial n b a) hpos (serial_of_distance hb hback)
    refine ⟨hequal.trans ?_, hlater, hearlier, hunordered, fun h => hearlier'.2 ?_⟩
    · change d = 0 ↔ a = b
      split at hd <;> omega
    · have h' : 1 ≤ d ∧ d ≤ 2 ^ (n - 1) - 1 := hlater.1 h
      split at hd <;> split <;> omega
  · intro now t hnow ht
    obtain ⟨-, hlater, -⟩ := serial_outcomes _ (Nat.two_pow_pos 47) (serial_of_distance (n := 48) (b := t) hnow rfl)
    rw [tickDue_of_serial rfl, ne_eq, hlater]
    omega

end Sys2Proof.Machine
end

section
/-! The state after power-on reset, and the requests to the time base. -/

namespace Sys2Proof.Machine

/-! Reset: no engine, pod or core part holds anything. -/

theorem State.reset_engine (e : Nat) : State.reset.engine e = {} := rfl

theorem State.reset_pod (p : Nat) : State.reset.pod p = {} := rfl

/-- No engine runs: the core is off. -/
theorem State.reset_engRuns (e : Nat) : State.reset.engRuns e = false := by
  have hoff : State.reset.served = false := rfl
  rw [State.engRuns, State.engOn, hoff, Bool.false_and, Bool.false_and]

/-- Settles O7: the reset state is written out, and its tables of engines and pods are empty. -/
theorem resetStates : Obligations.ResetStates := by
  refine ⟨rfl, rfl, rfl, rfl, rfl, rfl, rfl, rfl, rfl, rfl, rfl, rfl, rfl, fun e _ => State.reset_engine e, fun e _ => State.reset_engRuns e,
    fun p _ => by rw [State.reset_pod]; exact ⟨rfl, rfl⟩, rfl, rfl, rfl, rfl, rfl, rfl, rfl, rfl, rfl, rfl, rfl, rfl, rfl, rfl, rfl, rfl, rfl, rfl⟩

/-! Requests (02 R41 to R43). -/

variable {s : State}

/-- In IDLE a change of mapping leaves no record (02 R42). -/
theorem State.mapChanged_idle (h : s.sess.st = .idle) : s.mapChanged = s := if_pos h

theorem State.wCommitMap_accepts (p : Path) (hi : s.sess.st = .idle) (hsrc : s.tb.src ≠ 3) (hf : s.isFollower = false) :
    s.wCommitMap p 1 = ({ s with tb := { s.tb with map := s.shadowMap, validity := 1 } } : State).answer p [] := by
  have hset : s.setMap s.shadowMap 1 = { s with tb := { s.tb with map := s.shadowMap, validity := 1 } } := State.mapChanged_idle hi
  simp [State.wCommitMap, hsrc, hf, hset]

theorem State.wCommitMap_refuses (p : Path) (h : s.tb.src = 3 ∨ s.isFollower = true) : s.wCommitMap p 1 = s.refuseLog p 0x2210 8 1 abState := by
  simp [State.wCommitMap, h]

theorem State.wUtc_accepts (p : Path) (v : Nat) (hi : s.sess.st = .idle) (hf : s.isFollower = false) :
    s.wUtc p v = (s.put 0x2210 6 v).answer p [] := by
  have hmap : (s.put 0x2210 6 v).mapChanged = s.put 0x2210 6 v := State.mapChanged_idle hi
  simp [State.wUtc, hf, hmap]

theorem State.wUtc_refuses (p : Path) (v : Nat) (hf : s.isFollower = true) : s.wUtc p v = s.refuseLog p 0x2210 6 v abState := if_pos hf

/-- A whole value of at most 4,096 bytes is answered in full. -/
theorem leBytes_take {n : Nat} (v : Nat) (h : n ≤ 4096) : (leBytes n v).take 4096 = leBytes n v :=
  List.take_of_length_le (by simpa using h)

/-- Settles O37: a request of such a path is served here, and what it does in each state is the lemma of its object. -/
theorem timeBaseRequestsComplete : Obligations.TimeBaseRequestsComplete := by
  intro s p hs hr
  have commit : exec (.commitShadowMapping p 1) s = .next (s.wCommitMap p 1) := congrArg Host.Outcome.next (State.requestWrite_here hs hr ..)
  have utc (v : BitVec 16) : exec (.utcOffsetWrite p v) s = .next (s.wUtc p v.toNat) := congrArg Host.Outcome.next (State.requestWrite_here hs hr ..)
  have epoch : exec (.chipTimeSnapshotRead p) s = .next (s.rEpoch p 4096) := congrArg Host.Outcome.next (State.requestRead_here hs hr ..)
  have tick : exec (.snapshotTickRead p) s = .next (s.rTick p 4096) := congrArg Host.Outcome.next (State.requestRead_here hs hr ..)
  refine ⟨fun hi hsrc hf => ?_, fun h => ?_, fun v hi hf => ?_, fun v hf => ?_, ?_, fun x hx => ?_, fun hx => ?_⟩
  · rw [commit, State.wCommitMap_accepts p hi hsrc hf]
  · rw [commit, State.wCommitMap_refuses p h]
  · rw [utc, State.wUtc_accepts p _ hi hf]
  · rw [utc, State.wUtc_refuses p _ hf]
  · rw [epoch, State.rEpoch, leBytes_take _ (by decide)]
  · simp only [tick, State.rTick, hx, leBytes_take _ (show 6 ≤ 4096 by decide)]
  · simp only [tick, State.rTick, hx]
    rfl

end Sys2Proof.Machine
end

section
/-! TICK_WRAP (02 R27, R28): the counter's last periods before the wrap, and the one that crosses it. -/

namespace Sys2Proof.Machine

variable {s : State} {t : TimeBase}

/-- The corrections lie within R27's bounds: 200 ppm, and less than one tick gathered. -/
structure TimeBase.Bounded (t : TimeBase) : Prop where
  rate : t.rate.natAbs ≤ 200000
  acc : t.acc.natAbs < 1000000000

/-- The ticks of a period without correction (02 R27, R48). -/
def TimeBase.gap (t : TimeBase) : Nat := if t.husk then 122070 else 4

/-- The most by which a correction within R27's bounds changes a period. -/
def TimeBase.slack (t : TimeBase) : Nat := if t.husk then 26 else 1

theorem TimeBase.slack_le (t : TimeBase) : 2 * t.slack ≤ t.gap := by
  unfold TimeBase.slack TimeBase.gap
  split <;> decide

theorem TimeBase.longest_lt (t : TimeBase) : t.gap + t.slack < 2 ^ 48 := by
  unfold TimeBase.slack TimeBase.gap
  split <;> decide

/-- A period counts its ticks within the slack, and the correction that it leaves is within the bounds again. -/
theorem TimeBase.period_bounds (h : t.Bounded) : t.gap ≤ t.period.1 + t.slack ∧ t.period.1 ≤ t.gap + t.slack ∧ t.period.2.acc.natAbs < 1000000000 := by
  obtain ⟨hrate, hacc⟩ := h
  cases hk : t.husk
  · simp only [TimeBase.period, TimeBase.gap, TimeBase.slack, hk, Bool.false_eq_true, if_false]
    split_ifs <;> dsimp only <;> omega
  · simp only [TimeBase.period, TimeBase.gap, TimeBase.slack, hk, if_true]
    split_ifs <;> omega

/-- A period changes the gathered correction, and in Husk time the place in the pattern of 16, alone. -/
theorem TimeBase.period_tb (t : TimeBase) : ∃ a x, t.period.2 = { t with acc := a, xtal := x } := by
  unfold TimeBase.period
  extract_lets
  split_ifs <;> exact ⟨_, _, rfl⟩

/-- The time base after a period is the period's with the count that many ticks on. -/
theorem State.count_tb (s : State) (busy : List Nat) : ∃ a x, a = s.tb.period.2.acc ∧
    (s.count busy).tb = (({ s with tb := { s.tb with acc := a, xtal := x } } : State).setTime ((s.now : Int) + s.tb.period.1).toNat).tb := by
  obtain ⟨a, x, hp⟩ := s.tb.period_tb
  refine ⟨a, x, by rw [hp], ?_⟩
  unfold State.count
  extract_lets p s1
  have hs1 : s1.tb = (({ s with tb := { s.tb with acc := a, xtal := x } } : State).setTime ((s.now : Int) + s.tb.period.1).toNat).tb := by
    show (({ s with tb := s.tb.period.2 } : State).setTime ((s.now : Int) + s.tb.period.1).toNat).tb = _
    rw [hp]
  split
  · exact hs1
  · exact (s1.wrapLanes_does busy).tb_eq.trans hs1

/-- The period's corrections stay within the bounds, and the clock in charge stays. -/
theorem State.count_bounded (busy : List Nat) (h : s.tb.Bounded) : (s.count busy).tb.Bounded ∧ (s.count busy).tb.husk = s.tb.husk := by
  obtain ⟨a, x, ha, e⟩ := s.count_tb busy
  rw [e]
  exact ⟨⟨h.rate, ha ▸ (TimeBase.period_bounds h).2.2⟩, rfl⟩

/-- A period that does not reach the end of the tick. -/
theorem State.count_within (busy : List Nat) {n : Nat} (hn : s.tb.period.1 = n) (h : s.tb.tick.toNat + n < 2 ^ 48) :
    (s.count busy).tb.epoch = s.tb.epoch ∧ (s.count busy).tb.tick.toNat = s.tb.tick.toNat + n := by
  obtain ⟨a, x, -, e⟩ := s.count_tb busy
  have hnow : ((s.now : Int) + s.tb.period.1).toNat = s.tb.epoch.toNat * 2 ^ 48 + (s.tb.tick.toNat + n) := by
    rw [hn, State.now]; omega
  rw [e, hnow]
  refine ⟨?_, ?_⟩
  · apply BitVec.eq_of_toNat_eq
    simp only [State.setTime_tb, BitVec.toNat_ofNat]
    have := s.tb.epoch.isLt
    omega
  · simp only [State.setTime_tb, BitVec.toNat_ofNat]
    omega

/-- A period that crosses the end of the tick: the epoch is one more (02 R28). -/
theorem State.count_wraps (busy : List Nat) {n : Nat} (hn : s.tb.period.1 = n) (h : 2 ^ 48 ≤ s.tb.tick.toNat + n) (hlt : n < 2 ^ 48) :
    (s.count busy).tb.epoch = s.tb.epoch + 1 ∧ (s.count busy).tb.tick.toNat = s.tb.tick.toNat + n - 2 ^ 48 := by
  obtain ⟨a, x, -, e⟩ := s.count_tb busy
  have htick := s.tb.tick.isLt
  have hnow : ((s.now : Int) + s.tb.period.1).toNat = (s.tb.epoch.toNat + 1) * 2 ^ 48 + (s.tb.tick.toNat + n - 2 ^ 48) := by
    rw [hn, State.now]; omega
  have hone : (1 : BitVec 32).toNat = 1 := rfl
  rw [e, hnow]
  refine ⟨?_, ?_⟩
  · apply BitVec.eq_of_toNat_eq
    simp only [State.setTime_tb, BitVec.toNat_ofNat, BitVec.toNat_add, hone]
    have := s.tb.epoch.isLt
    omega
  · simp only [State.setTime_tb, BitVec.toNat_ofNat]
    omega

/-- The epoch is one more, and the tick has begun again at less than a longest period. -/
def TimeBase.WrappedFrom (t u : TimeBase) : Prop := t.epoch = u.epoch + 1 ∧ t.tick.toNat < u.gap + u.slack

theorem State.countToWrap_wraps (busy : List Nat) (n : Nat) (h : (s.count busy).tb.WrappedFrom s.tb) : s.countToWrap busy (n + 1) = s.count busy := by
  have hne : (s.count busy).tb.epoch ≠ s.tb.epoch := by
    rw [h.1]
    intro he
    bv_omega
  simp only [State.countToWrap, hne, if_false]

/-- A period as a number of ticks. -/
theorem TimeBase.period_ticks (h : t.Bounded) : ∃ n : Nat, t.period.1 = n ∧ t.gap ≤ n + t.slack ∧ n ≤ t.gap + t.slack := by
  obtain ⟨hlo, hhi, -⟩ := TimeBase.period_bounds h
  have := t.slack_le
  exact ⟨t.period.1.toNat, by omega, by omega, by omega⟩

/-- A period that reaches the end of the tick leaves the time base just after its wrap. -/
theorem State.count_wrapped (busy : List Nat) {n : Nat} (hn : s.tb.period.1 = n) (hle : n ≤ s.tb.gap + s.tb.slack) (h : 2 ^ 48 ≤ s.tb.tick.toNat + n) :
    (s.count busy).tb.WrappedFrom s.tb := by
  have htick := s.tb.tick.isLt
  have hgap := s.tb.longest_lt
  obtain ⟨hepoch, hcount⟩ := State.count_wraps busy hn h (by omega)
  exact ⟨hepoch, by omega⟩

/-- From a usual period before the end of the tick, the first or the second period wraps. -/
theorem State.countToWrap_near (busy : List Nat) (n : Nat) (hb : s.tb.Bounded) (h : 2 ^ 48 ≤ s.tb.tick.toNat + s.tb.gap) :
    (s.countToWrap busy (n + 2)).tb.WrappedFrom s.tb := by
  obtain ⟨n1, hn1, hlo1, hhi1⟩ := TimeBase.period_ticks hb
  rcases Nat.lt_or_ge (s.tb.tick.toNat + n1) (2 ^ 48) with hin | hout
  · obtain ⟨hepoch, htick⟩ := State.count_within busy hn1 hin
    obtain ⟨hb', hhusk⟩ := State.count_bounded busy hb
    have hgap : (s.count busy).tb.gap = s.tb.gap := by simp only [TimeBase.gap, hhusk]
    have hslack : (s.count busy).tb.slack = s.tb.slack := by simp only [TimeBase.slack, hhusk]
    have hsmall := s.tb.slack_le
    obtain ⟨n2, hn2, hlo2, hhi2⟩ := TimeBase.period_ticks hb'
    have hw := State.count_wrapped busy hn2 hhi2 (by omega)
    rw [State.countToWrap, if_pos hepoch, State.countToWrap_wraps busy n hw]
    exact ⟨hw.1.trans (by rw [hepoch]), by have := hw.2; omega⟩
  · have hw := State.count_wrapped busy hn1 hhi1 hout
    rw [State.countToWrap_wraps busy (n + 1) hw]
    exact hw

/-- The counter runs on to its last periods before the wrap, and through it (02 R28). -/
theorem State.passWrap_wraps (busy : List Nat) (hb : s.tb.Bounded) : (s.passWrap busy).tb.WrappedFrom s.tb := by
  obtain ⟨c, hc⟩ : ∃ c, s.tb.epoch.toNat * 2 ^ 48 + (2 ^ 48 - (if s.tb.husk then 122070 else 4)) = c := ⟨_, rfl⟩
  have hgap := s.tb.longest_lt
  have hc' : c + s.tb.gap = (s.tb.epoch.toNat + 1) * 2 ^ 48 := by
    simp only [TimeBase.gap] at hgap ⊢
    omega
  have hpos : 0 < s.tb.gap := by unfold TimeBase.gap; split <;> decide
  have hepoch := State.reach_epoch s c
  have hnow : (s.reach c).now = max s.now c := State.now_reach (by omega)
  obtain ⟨e, k, htb⟩ := s.reach_tb c
  have hb' : (s.reach c).tb.Bounded := by rw [htb]; exact ⟨hb.rate, hb.acc⟩
  have hgap' : (s.reach c).tb.gap = s.tb.gap := by rw [htb]; rfl
  have hslack' : (s.reach c).tb.slack = s.tb.slack := by rw [htb]; rfl
  have hw := State.countToWrap_near (s := s.reach c) busy 2 hb' (by rw [State.now, hepoch] at hnow; omega)
  have heq : s.passWrap busy = (s.reach c).countToWrap busy (2 + 2) := by rw [State.passWrap, hc]
  rw [heq]
  exact ⟨hw.1.trans (by rw [hepoch]), by have := hw.2; omega⟩

end Sys2Proof.Machine
end

section
/-! SOURCE_SELECTION and SOURCE_LOST (02 R34 to R37): the evaluation of the sources, case by case. -/

namespace Sys2Proof.Machine

variable {s : State}

/-! Chip time stepped onto a source. -/

@[simp] theorem TimeBase.source_shift (t : TimeBase) (d : Int) (k : Nat) : (t.shift d).source k = (t.source k).shift d := by
  unfold TimeBase.source TimeBase.shift
  split_ifs <;> rfl

@[simp] theorem State.setTime_source (s : State) (c k : Nat) : (s.setTime c).tb.source k = s.tb.source k := rfl

theorem State.stepTime_tb (s : State) (d : Int) : (s.stepTime d).tb = (s.setTime (((s.now : Int) + d) % 2 ^ 80).toNat).tb.shift d :=
  (State.logX_does ..).tb_eq

theorem State.now_stepTime (s : State) (d : Int) : (s.stepTime d).now = (((s.now : Int) + d) % 2 ^ 80).toNat := by
  have h := s.now_setTime (((s.now : Int) + d) % 2 ^ 80).toNat (by omega)
  rw [← h]
  simp only [State.now, State.stepTime_tb]
  rfl

theorem State.stepTime_cel (s : State) (d : Int) : (s.stepTime d).mem.cel = s.mem.cel := (State.logX_does ..).cel_eq

/-- The step that a selection in IDLE makes (02 R37). -/
def State.stepOnto (s : State) (k : Nat) : State :=
  if k = 2 then s.stepFabric (s.tb.source k).offset else s.stepTime (s.tb.source k).offset

theorem State.now_stepOnto (s : State) (k : Nat) : (s.stepOnto k).now = (((s.now : Int) + (s.tb.source k).offset) % 2 ^ 80).toNat := by
  unfold State.stepOnto
  split
  · exact s.now_stepTime _
  · exact s.now_stepTime _

theorem State.stepOnto_cel (s : State) (k : Nat) : (s.stepOnto k).mem.cel = s.mem.cel := by
  unfold State.stepOnto
  split
  · exact s.stepTime_cel _
  · exact s.stepTime_cel _

/-- After the step the source that it was made onto is no longer off. -/
theorem State.stepOnto_offset (s : State) (k : Nat) : ((s.stepOnto k).tb.source k).offset = 0 := by
  have h : ((s.stepTime (s.tb.source k).offset).tb.source k).offset = 0 := by
    rw [State.stepTime_tb, TimeBase.source_shift, State.setTime_source]
    exact sub_self _
  unfold State.stepOnto
  split
  next hk => subst hk; exact h
  next => exact h

/-! A source that is not known (02 R35). -/

/-- The source is not qualified, and not known for 3 s. -/
def TimeSource.Gone (x : TimeSource) : Prop := x.since = none ∧ x.ripe = false

theorem TimeSource.gone_shift {x : TimeSource} (h : x.Gone) (d : Int) : (x.shift d).Gone := by
  obtain ⟨hs, hr⟩ := h
  exact ⟨by simp [TimeSource.shift, hs], hr⟩

theorem State.stepTime_gone {j : Nat} (h : (s.tb.source j).Gone) (d : Int) : ((s.stepTime d).tb.source j).Gone := by
  rw [State.stepTime_tb, TimeBase.source_shift]
  exact TimeSource.gone_shift h d

theorem State.stepFabric_gone {j : Nat} (h : (s.tb.source j).Gone) (d : Int) : ((s.stepFabric d).tb.source j).Gone := by
  have hg := State.stepTime_gone h d
  simp only [State.stepFabric, TimeBase.source, TimeSource.Gone] at hg ⊢
  split_ifs at hg ⊢ <;> exact hg

theorem State.stepOnto_gone {j : Nat} (h : (s.tb.source j).Gone) (k : Nat) : ((s.stepOnto k).tb.source j).Gone := by
  unfold State.stepOnto
  split
  · exact State.stepFabric_gone h _
  · exact State.stepTime_gone h _

theorem State.sourceOk_known {k : Nat} (h : s.sourceOk k = true) : k ≠ 0 ∧ ¬(s.tb.source k).Gone := by
  simp only [State.sourceOk, Bool.and_eq_true, bne_iff_ne, ne_eq] at h
  obtain ⟨⟨⟨⟨hk, -⟩, -⟩, hsince⟩, -⟩ := h
  exact ⟨hk, fun hg => by simp [hg.1] at hsince⟩

/-! The source that is wanted (02 R34). -/

theorem State.wanted_cases (s : State) : s.wanted = 0 ∨ s.wanted < 4 ∧ s.mayTake s.wanted = true := by
  unfold State.wanted
  cases h : [1, 2, 3].find? s.mayTake with
  | none => exact .inl rfl
  | some k =>
    have hk := List.mem_of_find?_eq_some h
    simp only [List.mem_cons, List.not_mem_nil, or_false] at hk
    exact .inr ⟨by simp only [Option.getD_some]; omega, List.find?_some h⟩

theorem State.wanted_lt (s : State) : s.wanted < 4 := s.wanted_cases.elim (· ▸ by decide) And.left

/-- A source that is wanted is enabled and qualified. -/
theorem State.sourceOk_wanted (h : s.wanted ≠ 0) : s.sourceOk s.wanted = true := by
  obtain ⟨-, hm⟩ := s.wanted_cases.resolve_left h
  simp only [State.mayTake, Bool.and_eq_true] at hm
  exact hm.1

theorem State.follow_src (s : State) {k : Nat} (h : k < 4) : (s.follow k).tb.src.val = k := Nat.mod_eq_of_lt h

/-! The evaluation's outcome before it is logged. -/

/-- While a higher source is withheld the present one is followed on, or the base is in holdover (02 R36). -/
def State.withheld (s : State) : State :=
  let w := if s.tb.src.val = s.wanted || !s.sourceOk s.tb.src.val then s.letGo else s.follow s.tb.src.val
  (({ w with tb := { w.tb with held := true } }).logTb).logOffset

/-- What the evaluation selects, before a change of source or lock state is logged. -/
def State.selected (s : State) : State :=
  let off := (s.tb.source s.wanted).offset
  if s.wanted = 0 then ({ s with tb := { s.tb with held := false } }).letGo
  else if s.sess.st != .idle && 4000000 < off.natAbs then s.withheld
  else (if s.sess.st = .idle && 4000 < off.natAbs then s.stepOnto s.wanted else s).follow s.wanted

theorem State.evaluate_eq (s : State) : s.evaluate =
    (if s.selected.tb.src = s.tb.src && s.selected.tb.lock = s.tb.lock then s.selected else s.selected.logTb).noteApart := rfl

theorem State.selected_of_none (h : s.wanted = 0) : s.selected = ({ s with tb := { s.tb with held := false } }).letGo := by
  simp only [State.selected, h, if_true]

theorem State.selected_of_far (h : s.wanted ≠ 0) (hi : s.sess.st ≠ .idle) (ho : 4000000 < (s.tb.source s.wanted).offset.natAbs) :
    s.selected = s.withheld := by
  simp [State.selected, h, hi, ho]

theorem State.selected_of_step (h : s.wanted ≠ 0) (hi : s.sess.st = .idle) (ho : 4000 < (s.tb.source s.wanted).offset.natAbs) :
    s.selected = (s.stepOnto s.wanted).follow s.wanted := by
  simp [State.selected, h, hi, ho]

theorem State.selected_of_near (h : s.wanted ≠ 0)
    (ho : (s.tb.source s.wanted).offset.natAbs ≤ 4000 ∨ s.sess.st ≠ .idle ∧ (s.tb.source s.wanted).offset.natAbs ≤ 4000000) :
    s.selected = s.follow s.wanted := by
  have h1 : ¬4000000 < (s.tb.source s.wanted).offset.natAbs := by omega
  have h2 : ¬(s.sess.st = .idle ∧ 4000 < (s.tb.source s.wanted).offset.natAbs) := by
    rintro ⟨hi, hlt⟩
    exact ho.elim (by omega) fun q => q.1 hi
  simp only [State.selected, h, h1, if_false, decide_false, Bool.and_false, Bool.false_eq_true, Bool.and_eq_true, decide_eq_true_eq, h2]

/-- What the evaluation does to the state, by its cases. -/
theorem State.selected_cases (s : State) :
    s.wanted = 0 ∧ s.selected = ({ s with tb := { s.tb with held := false } }).letGo ∨
    s.wanted ≠ 0 ∧ s.selected = s.withheld ∨
    s.wanted ≠ 0 ∧ s.sess.st = .idle ∧ 4000 < (s.tb.source s.wanted).offset.natAbs ∧ s.selected = (s.stepOnto s.wanted).follow s.wanted ∨
    s.wanted ≠ 0 ∧ s.selected = s.follow s.wanted := by
  by_cases h : s.wanted = 0
  · exact .inl ⟨h, State.selected_of_none h⟩
  · by_cases hi : s.sess.st = .idle
    · rcases Nat.lt_or_ge 4000 (s.tb.source s.wanted).offset.natAbs with ho | ho
      · exact .inr (.inr (.inl ⟨h, hi, ho, State.selected_of_step h hi ho⟩))
      · exact .inr (.inr (.inr ⟨h, State.selected_of_near h (.inl ho)⟩))
    · rcases Nat.lt_or_ge 4000000 (s.tb.source s.wanted).offset.natAbs with ho | ho
      · exact .inr (.inl ⟨h, State.selected_of_far h hi ho⟩)
      · exact .inr (.inr (.inr ⟨h, State.selected_of_near h (.inr ⟨hi, ho⟩)⟩))

theorem State.withheld_tb (s : State) : s.withheld.tb =
    { (if s.tb.src.val = s.wanted || !s.sourceOk s.tb.src.val then s.letGo else s.follow s.tb.src.val).tb with held := true } :=
  (State.logOffset_does _).tb_eq.trans (State.logTb_does _).tb_eq

theorem State.withheld_does (s : State) : Does (.tb :: Part.logging) s s.withheld := by
  have hw : Does [.tb] s (if s.tb.src.val = s.wanted || !s.sourceOk s.tb.src.val then s.letGo else s.follow s.tb.src.val) :=
    Does.ite (fun _ => s.letGo_does) fun _ => s.follow_does _
  exact (((hw.weaken rfl).step (Does.set_tb _ _) rfl).step (State.logTb_does _) rfl).step (State.logOffset_does _) rfl

/-- Without a step of the count the evaluation changes the time base alone, and what it logs. -/
theorem State.selected_does (h : s.wanted = 0 ∨ s.sess.st ≠ .idle ∨ (s.tb.source s.wanted).offset.natAbs ≤ 4000) :
    Does (.tb :: Part.logging) s s.selected := by
  rcases s.selected_cases with ⟨-, e⟩ | ⟨-, e⟩ | ⟨hk, hi, ho, -⟩ | ⟨-, e⟩
  · exact e ▸ ((Does.set_tb s _).weaken rfl).step (State.letGo_does _) rfl
  · exact e ▸ s.withheld_does
  · exact absurd h (by simp [hk, hi, ho])
  · exact e ▸ (s.follow_does _).weaken rfl

theorem State.selected_cel (s : State) : s.selected.mem.cel = s.mem.cel := by
  rcases s.selected_cases with ⟨-, e⟩ | ⟨-, e⟩ | ⟨-, -, -, e⟩ | ⟨-, e⟩
  · rw [e]; rfl
  · rw [e]; exact s.withheld_does.cel_eq
  · rw [e]; exact s.stepOnto_cel _
  · rw [e]; rfl

theorem State.selected_gone {j : Nat} (h : (s.tb.source j).Gone) : (s.selected.tb.source j).Gone := by
  rcases s.selected_cases with ⟨-, e⟩ | ⟨-, e⟩ | ⟨-, -, -, e⟩ | ⟨-, e⟩
  · rw [e]; exact h
  · rw [e, State.withheld_tb]
    split
    · exact h
    · exact h
  · rw [e]; exact State.stepOnto_gone h _
  · rw [e]; exact h

/-- The evaluation selects the source that is wanted or none, or goes on with a qualified one. -/
theorem State.selected_src (s : State) : s.selected.tb.src.val = s.wanted ∨ s.selected.tb.src.val = 0 ∨ s.sourceOk s.selected.tb.src.val = true := by
  rcases s.selected_cases with ⟨-, e⟩ | ⟨-, e⟩ | ⟨-, -, -, e⟩ | ⟨-, e⟩
  · rw [e]; exact .inr (.inl rfl)
  · rw [e, State.withheld_tb]
    split
    next => exact .inr (.inl rfl)
    next h =>
      simp only [Bool.or_eq_true, not_or, Bool.not_eq_true', Bool.not_eq_false] at h
      refine .inr (.inr ?_)
      show s.sourceOk (s.follow s.tb.src.val).tb.src.val = true
      rw [State.follow_src _ s.tb.src.isLt]
      exact h.2
  · rw [e]; exact .inl (State.follow_src _ s.wanted_lt)
  · rw [e]; exact .inl (State.follow_src _ s.wanted_lt)

theorem State.selected_src_ne {j : Nat} (hj : j ≠ 0) (h : (s.tb.source j).Gone) : s.selected.tb.src.val ≠ j := by
  rintro rfl
  rcases s.selected_src with e | e | e
  · rw [e] at h hj
    exact (State.sourceOk_known (State.sourceOk_wanted hj)).2 h
  · exact hj e
  · exact (State.sourceOk_known e).2 h

/-! The whole evaluation. -/

theorem State.noteApart_tb (s : State) : s.noteApart.tb = { s.tb with apart := s.offsetEvent } := by
  unfold State.noteApart
  extract_lets b s1
  split
  · exact (State.logOffset_does _).tb_eq
  · rfl

theorem State.noteApart_frame (s : State) : Does (.tb :: Part.logging) s s.noteApart := s.noteApart_does

/-- What stands between what is selected and the end of the evaluation: the log. -/
theorem State.evaluate_logs (s : State) : ∃ u, Does Part.logging s.selected u ∧ s.evaluate = u.noteApart := by
  rw [State.evaluate_eq]
  exact ⟨_, Does.ite (fun _ => Does.refl _ _) fun _ => State.logTb_does _, rfl⟩

theorem State.evaluate_tb (s : State) : ∃ b, s.evaluate.tb = { s.selected.tb with apart := b } := by
  obtain ⟨u, hu, e⟩ := s.evaluate_logs
  exact ⟨u.offsetEvent, by rw [e, State.noteApart_tb, hu.tb_eq]⟩

theorem State.now_evaluate (s : State) : s.evaluate.now = s.selected.now := by
  obtain ⟨b, e⟩ := s.evaluate_tb
  simp only [State.now, e]

theorem State.evaluate_frame (h : s.wanted = 0 ∨ s.sess.st ≠ .idle ∨ (s.tb.source s.wanted).offset.natAbs ≤ 4000) :
    SameBut (.tb :: Part.logging) s s.evaluate := by
  obtain ⟨u, hu, e⟩ := s.evaluate_logs
  exact e ▸ (((State.selected_does h).step hu rfl).step u.noteApart_frame rfl).same

theorem State.evaluate_cel (s : State) : s.evaluate.mem.cel = s.mem.cel := by
  obtain ⟨u, hu, e⟩ := s.evaluate_logs
  rw [e, u.noteApart_frame.cel_eq, hu.cel_eq, State.selected_cel]

/-- What an evaluation may change: a step of the count moves the times that other units hold (02 R37). -/
abbrev Part.stepping : List Part := ([.tb, .ports, .cls, .fab, .sw, .pods, .mem, .pst, .pwr] : List Part) ++ Part.logging

theorem State.evaluate_same (s : State) : SameBut Part.stepping s s.evaluate :=
  s.evaluate_does.same.without (p := .cel) s.evaluate_cel (by decide)

theorem State.evaluate_gone {j : Nat} (h : (s.tb.source j).Gone) : (s.evaluate.tb.source j).Gone := by
  obtain ⟨b, e⟩ := s.evaluate_tb
  rw [e]
  exact State.selected_gone h

theorem State.evaluate_src_ne {j : Nat} (hj : j ≠ 0) (h : (s.tb.source j).Gone) : s.evaluate.tb.src.val ≠ j := by
  obtain ⟨b, e⟩ := s.evaluate_tb
  rw [e]
  exact State.selected_src_ne hj h

/-- In IDLE the wanted source is followed and locked, the count being stepped where it is more than 1 us off (02 R37). -/
theorem State.evaluate_idle (h : s.wanted ≠ 0) (hi : s.sess.st = .idle) :
    s.evaluate.tb.src.val = s.wanted ∧ s.evaluate.tb.lock = 2 ∧ s.evaluate.tb.held = false ∧
    (4000 < (s.tb.source s.wanted).offset.natAbs → s.evaluate.now = (((s.now : Int) + (s.tb.source s.wanted).offset) % 2 ^ 80).toNat) ∧
    ((s.tb.source s.wanted).offset.natAbs ≤ 4000 → s.evaluate.now = s.now) := by
  rw [State.now_evaluate]
  obtain ⟨b, e⟩ := s.evaluate_tb
  rw [e]
  rcases Nat.lt_or_ge 4000 (s.tb.source s.wanted).offset.natAbs with ho | ho
  · rw [State.selected_of_step h hi ho]
    refine ⟨State.follow_src (s.stepOnto s.wanted) s.wanted_lt, ?_, rfl, fun _ => s.now_stepOnto _, fun hle => by omega⟩
    simp [State.follow, State.stepOnto_offset]
  · rw [State.selected_of_near h (.inl ho)]
    refine ⟨State.follow_src s s.wanted_lt, ?_, rfl, fun hlt => by omega, fun _ => rfl⟩
    simp only [State.follow, ho, decide_true, if_true]

/-- Outside IDLE a source up to 1 ms off is followed (02 R36). -/
theorem State.evaluate_slews (h : s.wanted ≠ 0) (hi : s.sess.st ≠ .idle) (ho : (s.tb.source s.wanted).offset.natAbs ≤ 4000000) :
    s.evaluate.tb.src.val = s.wanted ∧ s.evaluate.tb.held = false ∧
    s.evaluate.tb.lock = (if (s.tb.source s.wanted).offset.natAbs ≤ 4000 then 2 else 1) ∧
    s.evaluate.tb.rate = rateFor (s.tb.source s.wanted).rate (s.tb.source s.wanted).offset := by
  obtain ⟨b, e⟩ := s.evaluate_tb
  rw [e, State.selected_of_near h (.inr ⟨hi, ho⟩)]
  exact ⟨State.follow_src s s.wanted_lt, rfl, by simp only [State.follow, decide_eq_true_eq], rfl⟩

/-- Outside IDLE a source more than 1 ms off is withheld; the present one is followed on where it is another and qualified (02 R36). -/
theorem State.evaluate_withholds (h : s.wanted ≠ 0) (hi : s.sess.st ≠ .idle) (ho : 4000000 < (s.tb.source s.wanted).offset.natAbs) :
    s.evaluate.tb.held = true ∧ (s.tb.src.val = s.wanted → s.evaluate.tb.src = 0) ∧
    (s.tb.src.val ≠ s.wanted → s.sourceOk s.tb.src.val = true → s.evaluate.tb.src = s.tb.src ∧
      s.evaluate.tb.rate = rateFor (s.tb.source s.tb.src.val).rate (s.tb.source s.tb.src.val).offset) := by
  obtain ⟨b, e⟩ := s.evaluate_tb
  rw [e, State.selected_of_far h hi ho, State.withheld_tb]
  refine ⟨rfl, fun hw => ?_, fun hw hok => ?_⟩
  · simp [hw, State.letGo]
  · simp only [hw, hok, decide_false, Bool.not_true, Bool.or_self, Bool.false_eq_true, if_false]
    exact ⟨Fin.ext (State.follow_src _ s.tb.src.isLt), rfl⟩

/-- Without a source the base is in holdover after a lock, else free-running (02 R35, R44). -/
theorem State.evaluate_none (h : s.wanted = 0) :
    s.evaluate.now = s.now ∧ s.evaluate.tb.src = 0 ∧ s.evaluate.tb.held = false ∧
    s.evaluate.tb.lock = (if s.tb.wasLocked = true then 3 else 0) ∧ s.evaluate.tb.rate = Machine.clampRate s.tb.srcRate := by
  rw [State.now_evaluate]
  obtain ⟨b, e⟩ := s.evaluate_tb
  rw [e, State.selected_of_none h]
  exact ⟨rfl, rfl, rfl, rfl, rfl⟩

/-- Outside IDLE no evaluation steps the count (02 R36). -/
theorem State.now_evaluate_busy (h : s.wanted ≠ 0) (hi : s.sess.st ≠ .idle) : s.evaluate.now = s.now := by
  rw [State.now_evaluate]
  rcases s.selected_cases with ⟨hk, -⟩ | ⟨-, e⟩ | ⟨-, hid, -⟩ | ⟨-, e⟩
  · exact absurd hk h
  · simp only [e, State.now, State.withheld_tb]
    split <;> rfl
  · exact absurd hid hi
  · rw [e]; rfl

/-! A source that is lost (02 R35). -/

theorem srcCode_ne_zero (k : TimeSrc) : srcCode k ≠ 0 := by cases k <;> decide

@[simp] theorem State.source_setSource (s : State) (k : TimeSrc) (x : TimeSource) : (s.setSource k x).tb.source (srcCode k) = x := by
  cases k <;> rfl

@[simp] theorem State.setSource_src (s : State) (k : TimeSrc) (x : TimeSource) : (s.setSource k x).tb.src = s.tb.src := by
  cases k <;> rfl

theorem State.now_setSource (s : State) (k : TimeSrc) (x : TimeSource) : (s.setSource k x).now = s.now := by
  cases k <;> rfl

theorem State.reach_src (s : State) (c : Nat) : (s.reach c).tb.src = s.tb.src := by
  obtain ⟨e, k, h⟩ := s.reach_tb c
  rw [h]

/-- The state of a source is forgotten 2 s after its last input, before the sources are evaluated anew. -/
def State.forgotten (s : State) (k : TimeSrc) : State :=
  let x := s.tb.source (srcCode k)
  let s0 := match x.last with
    | none => s
    | some t => s.reachInt (t + 2 * secTicks)
  let s1 := s0.setSource k { x with since := none, ripe := false, last := none }
  match k with
  | .pps => { s1 with tb := { s1.tb with ppsLast := none, ppsValid := 0 } }
  | _ => s1

theorem State.lose_eq (s : State) (k : TimeSrc) :
    s.lose k = if s.tb.src.val = srcCode k then (s.forgotten k).letGo.logTb.evaluate else s.forgotten k := rfl

theorem State.forgotten_gone (s : State) (k : TimeSrc) : ((s.forgotten k).tb.source (srcCode k)).Gone := by
  cases k <;> exact ⟨rfl, rfl⟩

theorem State.forgotten_src (s : State) (k : TimeSrc) : (s.forgotten k).tb.src = s.tb.src := by
  unfold State.forgotten
  extract_lets x s0 s1
  have h0 : s0.tb.src = s.tb.src := by
    show (match x.last with | none => s | some t => s.reachInt (t + 2 * secTicks)).tb.src = s.tb.src
    cases x.last with
    | none => rfl
    | some t => exact State.reach_src _ _
  have h1 : s1.tb.src = s0.tb.src := State.setSource_src ..
  cases k <;> exact h1.trans h0

theorem State.forgotten_does (s : State) (k : TimeSrc) : Does [.tb] s (s.forgotten k) := by
  unfold State.forgotten
  extract_lets x s0 s1
  have h0 : Does [.tb] s s0 := by
    show Does [.tb] s (match x.last with | none => s | some t => s.reachInt (t + 2 * secTicks))
    cases x.last with
    | none => exact Does.refl _ _
    | some t => exact State.reachInt_does _ _
  have h1 : Does [.tb] s s1 := h0.step (State.setSource_does ..) rfl
  cases k with
  | pps => exact h1.step (Does.set_tb _ _) rfl
  | fabric => exact h1
  | gptp => exact h1

theorem State.lose_cel (s : State) (k : TimeSrc) : (s.lose k).mem.cel = s.mem.cel := by
  rw [State.lose_eq]
  split
  · rw [State.evaluate_cel, (State.logTb_does _).cel_eq, (State.letGo_does _).cel_eq, (s.forgotten_does k).cel_eq]
  · exact (s.forgotten_does k).cel_eq

theorem State.lose_same (s : State) (k : TimeSrc) : SameBut Part.stepping s (s.lose k) :=
  (s.lose_does k).same.without (p := .cel) (s.lose_cel k) (by decide)

/-- A lost source is gone and followed no longer. -/
theorem State.lose_gone (s : State) (k : TimeSrc) : ((s.lose k).tb.source (srcCode k)).Gone ∧ (s.lose k).tb.src.val ≠ srcCode k := by
  have hg : ((s.forgotten k).letGo.logTb.tb.source (srcCode k)).Gone := by
    rw [(State.logTb_does _).tb_eq]
    exact s.forgotten_gone k
  rw [State.lose_eq]
  split
  next => exact ⟨State.evaluate_gone hg, State.evaluate_src_ne (srcCode_ne_zero k) hg⟩
  next h => exact ⟨s.forgotten_gone k, by rw [State.forgotten_src]; exact h⟩

end Sys2Proof.Machine
end

section
/-! PPS_PULSE, SOURCE_QUALIFIED, and the messages and timers of 802.1AS (02 R35, R38, R39). -/

namespace Sys2Proof.Machine

variable {s : State}

/-! Edges of PPS_IN. -/

/-- An edge that is valid: it is the last one, and the third in a row makes the source qualified from then on. -/
theorem State.ppsGood_tb (s : State) (c interval : Int) : ∃ y sub, (s.ppsGood c interval).tb =
    { s.tb with pps := y, ppsLast := some c, ppsValid := min 3 (s.tb.ppsValid + 1), ppsSub := sub } ∧
    y.since = if s.tb.ppsValid + 1 = 3 then some c else s.tb.pps.since := ⟨_, _, rfl, rfl⟩

/-- An edge that begins a sequence is the first of its valid ones. -/
theorem State.ppsGood_first (s : State) (c : Int) : ∃ y sub, (({ s with tb := { s.tb with ppsValid := 0 } } : State).ppsGood c 0).tb =
    { s.tb with pps := y, ppsLast := some c, ppsValid := 1, ppsSub := sub } ∧ y.since = s.tb.pps.since := ⟨_, _, rfl, rfl⟩

theorem ppsInTime_late {l c : Int} (h : l + 2 * secTicks < c) : ppsInTime l c = false := by
  rw [Bool.eq_false_iff]
  intro ht
  unfold ppsInTime at ht
  simp only [Bool.and_eq_true, decide_eq_true_eq] at ht
  simp only [secTicks, usTicks] at h ht
  omega

theorem State.ppsAt_first {c : Int} (h : s.tb.ppsLast = none) : s.ppsAt c = ({ s with tb := { s.tb with ppsValid := 0 } } : State).ppsGood c 0 := by
  simp only [State.ppsAt, h]

theorem State.ppsAt_inTime {l c : Int} (h : s.tb.ppsLast = some l) (ht : ppsInTime l c = true) : s.ppsAt c = s.ppsGood c (c - l) := by
  simp only [State.ppsAt, h, ht, if_true]

theorem State.ppsAt_anew {l c : Int} (h : s.tb.ppsLast = some l) (hl : l + 2 * secTicks < c) (hs : s.tb.pps.since = none) :
    s.ppsAt c = ({ s with tb := { s.tb with ppsValid := 0 } } : State).ppsGood c 0 := by
  have hcond : (decide (l + (2 * secTicks : Nat) < c) && s.tb.pps.since.isNone) = true := by simp [hl, hs]
  simp only [State.ppsAt, h, ppsInTime_late hl, Bool.false_eq_true, if_false, hcond, if_true]

theorem State.ppsAt_outOfTime {l c : Int} (h : s.tb.ppsLast = some l) (ht : ppsInTime l c = false) (hl : c ≤ l + 2 * secTicks) :
    s.ppsAt c = ({ s with tb := { s.tb with ppsBad := s.tb.ppsBad + 1 } } : State).logTb := by
  have hcond : (decide (l + (2 * secTicks : Nat) < c) && s.tb.pps.since.isNone) = false := by simp [Int.not_lt.2 hl]
  simp only [State.ppsAt, h, ht, Bool.false_eq_true, if_false, hcond]

/-- What an edge does to the time base: it begins a sequence, continues it, is out of time, or begins it anew (02 R38). -/
theorem State.ppsAt_outcome (s : State) (c : Int) :
    (s.tb.ppsLast = none → (s.ppsAt c).tb.ppsValid = 1 ∧ (s.ppsAt c).tb.ppsLast = some c ∧ (s.ppsAt c).tb.pps.since = s.tb.pps.since) ∧
    (∀ l, s.tb.ppsLast = some l → ppsInTime l c = true → (s.ppsAt c).tb.ppsLast = some c ∧ (s.ppsAt c).tb.ppsValid = min 3 (s.tb.ppsValid + 1) ∧
      (s.tb.ppsValid = 2 → (s.ppsAt c).tb.pps.since = some c)) ∧
    (∀ l, s.tb.ppsLast = some l → ppsInTime l c = false → c ≤ l + 2 * secTicks → (s.ppsAt c).tb.ppsBad = s.tb.ppsBad + 1 ∧
      (s.ppsAt c).tb.ppsLast = some l ∧ (s.ppsAt c).tb.ppsValid = s.tb.ppsValid ∧ (s.ppsAt c).tb.pps = s.tb.pps) ∧
    (∀ l, s.tb.ppsLast = some l → l + 2 * secTicks < c → s.tb.pps.since = none → (s.ppsAt c).tb.ppsValid = 1 ∧ (s.ppsAt c).tb.ppsLast = some c) := by
  refine ⟨fun h => ?_, fun l h ht => ?_, fun l h ht hl => ?_, fun l h hl hs => ?_⟩
  · obtain ⟨y, sub, e, hy⟩ := s.ppsGood_first c
    rw [State.ppsAt_first h, e]
    exact ⟨rfl, rfl, hy⟩
  · obtain ⟨y, sub, e, hy⟩ := s.ppsGood_tb c (c - l)
    rw [State.ppsAt_inTime h ht, e]
    exact ⟨rfl, rfl, fun h2 => hy.trans (if_pos (by omega))⟩
  · rw [State.ppsAt_outOfTime h ht hl, (State.logTb_does _).tb_eq]
    exact ⟨rfl, h, rfl, rfl⟩
  · obtain ⟨y, sub, e, -⟩ := s.ppsGood_first c
    rw [State.ppsAt_anew h hl hs, e]
    exact ⟨rfl, rfl⟩

/-- An edge of the direction that the profile selects is taken at its count (02 R38). -/
theorem State.ppsEdge_taken {r : Bool} (d : Stamp) (hs : s.served = true) (hr : s.cfg 0x2200 2 = 0 ↔ r = true) :
    s.ppsEdge r d = (s.reach d.count).ppsAt (s.ppsTime d) := by
  simp only [State.ppsEdge, hs, hr, decide_true, Bool.and_self, if_true]

/-! A source that has been known for 3 s (02 R35). -/

theorem State.ripen_known {k : TimeSrc} {c : Nat} (h : (s.tb.source (srcCode k)).since = some (c : Int)) :
    s.ripen k = (s.reach (c + 3 * secTicks)).setSource k { s.tb.source (srcCode k) with ripe := true } := by
  have hcount : ((c : Int) + 3 * secTicks).toNat = c + 3 * secTicks := by omega
  simp only [State.ripen, h, State.reachInt, hcount]

/-! 802.1AS (02 R39). -/

/-- A frame at a MAC is captured at its count, or not taken. -/
theorem State.ethReceive_captures (s : State) (p : Nat) (e : Stamp) (f : EthFrame) :
    s.ethReceive p e f = s ∨
    Does [.log, .od, .ports, .cls, .store, .rep, .link, .fab, .net, .cel, .side, .out, .free] (s.reach e.count) (s.ethReceive p e f) := by
  unfold State.ethReceive
  split
  · exact .inl rfl
  · split
    · exact .inr (State.acceptPin_does ..)
    · exact .inl rfl

theorem State.ethReceive_tb (s : State) (p : Nat) (e : Stamp) (f : EthFrame) : ∃ ep k, (s.ethReceive p e f).tb = { s.tb with epoch := ep, tick := k } := by
  rcases s.ethReceive_captures p e f with h | h
  · exact ⟨_, _, by rw [h]⟩
  · rw [h.tb_eq]
    exact s.reach_tb _

/-- A grandmaster's time sets no more of the time base than the mapping (02 R41). -/
theorem State.mapFromGm_tb (s : State) (c : Int) (m : GptpMsg) : ∃ x v, (s.mapFromGm c m).tb = { s.tb with map := x, validity := v } := by
  unfold State.mapFromGm
  extract_lets w n
  split
  · exact ⟨n, 2, (State.mapChanged_does _).tb_eq⟩
  · exact ⟨_, _, rfl⟩

/-- What a time message leaves in the time base. -/
theorem State.gptpTime_tb (s : State) (c : Int) (m : GptpMsg) : ∃ x v b, (s.gptpTime c m).tb =
    { s.tb with gptp := { s.tb.gptp with last := some c, since := some (s.tb.gptp.since.getD c), offset := m.offset, rate := m.ratePpb },
                map := x, validity := v, apart := b } := by
  obtain ⟨u, hu⟩ : ∃ u, u = (s.setSource .gptp
    { s.tb.gptp with last := some c, since := some (s.tb.gptp.since.getD c), offset := m.offset, rate := m.ratePpb }).mapFromGm c m := ⟨_, rfl⟩
  have htime : s.gptpTime c m = u.noteApart := hu ▸ rfl
  obtain ⟨x, v, e⟩ := State.mapFromGm_tb (s.setSource .gptp
    { s.tb.gptp with last := some c, since := some (s.tb.gptp.since.getD c), offset := m.offset, rate := m.ratePpb }) c m
  rw [← hu] at e
  exact ⟨x, v, u.offsetEvent, by rw [htime, State.noteApart_tb, e]; rfl⟩

/-- A Sync of the followed MAC and domain is taken for time after its frame has been captured. -/
theorem State.gptpReceive_sync {i : Nat} {d : Stamp} {m : GptpMsg} (hs : s.served = true) (hl : (s.port (macPort i)).link.isSome = true)
    (hk : m.kind = .sync) (hf : s.gptpFollows i = true) (hd : s.cfg 0x2200 4 = m.domain.val) :
    s.gptpReceive i d m = ((s.reach d.count).ethReceive (macPort i) d ⟨m.bytes, m.bytes.length, true, none⟩).gptpTime ((s.reach d.count).pinTime (macPort i) d) m := by
  obtain ⟨rate, hrate⟩ := Option.isSome_iff_exists.1 hl
  simp only [State.gptpReceive, hrate, hs, hk, hf, hd, decide_true, Bool.and_self, if_true]

/-- The interval of a grandmaster on a MAC with its link up: what is sent. -/
theorem State.gptpSend_master {i : Nat} (hs : s.served = true) (hl : (s.port (macPort i)).link.isSome = true) (hm : s.gptpMaster = true) :
    s.gptpSend i true = s.send (.gptp i (.pdelayReq (s.cfg 0x2200 4))) ∧
    s.gptpSend i false = { s with out := s.out ++ [.gptp i (.announce (s.cfg 0x2200 4) Config.gptpPriority.1 Config.gptpPriority.2),
      .gptp i (.sync (s.cfg 0x2200 4)), .gptp i (.followUp (s.cfg 0x2200 4) (s.tb.map.tai (s.macOut i)))] } := by
  constructor
  · simp only [State.gptpSend, hl, hs, hm, Bool.or_true, Bool.and_self, if_true]
  · simp only [State.gptpSend, hl, hs, hm, Bool.and_self, if_true, Bool.false_eq_true, if_false]
    simp only [State.send, List.append_assoc, List.cons_append, List.nil_append]

end Sys2Proof.Machine
end

section
/-! The events of the time base. -/

namespace Sys2Proof.Machine

/-- Settles O36: each event's meaning is one operation of the time base, and what that does in each case is its lemma. -/
theorem timeBaseEventsComplete : Obligations.TimeBaseEventsComplete := by
  intro s
  refine ⟨fun l hr ha => ?_, fun hs => ?_, fun hs => ?_, fun k c hc hlt => ?_, fun k => ?_, fun r d hs hr => ?_, fun i d m hs hl hk hf hd => ?_,
    fun i hs hl hm => ?_⟩
  · obtain ⟨hepoch, htick⟩ := State.passWrap_wraps (l.map (·.val)) ⟨hr, ha⟩
    refine ⟨_, rfl, (State.passWrap_does ..).same, hepoch, htick.trans_le ?_⟩
    simp only [TimeBase.gap, TimeBase.slack]
    split <;> decide
  · exact congrArg Host.Outcome.next (if_pos hs)
  · refine ⟨s.evaluate, congrArg Host.Outcome.next (if_pos hs), s.evaluate_same, State.sourceOk_wanted, State.evaluate_frame, State.evaluate_idle,
      fun h hi => ⟨State.now_evaluate_busy h hi, State.evaluate_slews h hi, State.evaluate_withholds h hi⟩, State.evaluate_none⟩
  · refine ⟨_, congrArg Host.Outcome.next (State.ripen_known hc), ?_, ?_, State.source_setSource ..⟩
    · exact ((s.reach_does _).step (State.setSource_does ..) rfl).same
    · rw [State.now_setSource, State.now_reach hlt]
  · obtain ⟨⟨hsince, hripe⟩, hsrc⟩ := s.lose_gone k
    exact ⟨_, rfl, s.lose_same k, hsince, hripe, hsrc⟩
  · refine ⟨_, rfl, (s.ppsEdge_does r d).same, ?_⟩
    have h := (s.reach d.count).ppsAt_outcome (s.ppsTime d)
    obtain ⟨e, k, htb⟩ := s.reach_tb d.count
    rw [htb] at h
    rw [State.ppsEdge_taken d hs hr]
    exact h
  · obtain ⟨e, k, heth⟩ := (s.reach d.count).ethReceive_tb (macPort i.val) d ⟨m.bytes, m.bytes.length, true, none⟩
    obtain ⟨x, v, b, htb⟩ := ((s.reach d.count).ethReceive (macPort i.val) d ⟨m.bytes, m.bytes.length, true, none⟩).gptpTime_tb
      ((s.reach d.count).pinTime (macPort i.val) d) m
    refine ⟨_, congrArg Host.Outcome.next (State.gptpReceive_sync hs hl hk hf hd), ?_⟩
    obtain ⟨e', k', hreach⟩ := s.reach_tb d.count
    rw [htb, heth, hreach]
    exact ⟨rfl, rfl, rfl, rfl, rfl, rfl⟩
  · obtain ⟨hreq, hsync⟩ := State.gptpSend_master hs hl hm
    exact ⟨congrArg Host.Outcome.next hreq, congrArg Host.Outcome.next hsync⟩

end Sys2Proof.Machine
end

section
/-! What goes on beside a record's own lane: logging, selection for the link, forwarding and counting keep every lane and every setting of a port. -/

namespace Sys2Proof.Machine

variable {l : List Part} {s t u : State}

/-! Single parts out of a frame. -/

theorem Does.log_eq (h : Does l s t) (hl : l.contains .log = false := by rfl) : t.log = s.log := h.same .log (by simpa using hl)

theorem Does.sess_eq (h : Does l s t) (hl : l.contains .sess = false := by rfl) : t.sess = s.sess := h.same .sess (by simpa using hl)

theorem Does.od_eq (h : Does l s t) (hl : l.contains .od = false := by rfl) : t.od = s.od := h.same .od (by simpa using hl)

theorem Does.ports_eq (h : Does l s t) (hl : l.contains .ports = false := by rfl) : t.ports = s.ports := h.same .ports (by simpa using hl)

theorem Does.cls_eq (h : Does l s t) (hl : l.contains .cls = false := by rfl) : t.cls = s.cls := h.same .cls (by simpa using hl)

theorem Does.store_eq (h : Does l s t) (hl : l.contains .store = false := by rfl) : t.store = s.store := h.same .store (by simpa using hl)

theorem Does.rep_eq (h : Does l s t) (hl : l.contains .rep = false := by rfl) : t.rep = s.rep := h.same .rep (by simpa using hl)

theorem Does.sw_eq (h : Does l s t) (hl : l.contains .sw = false := by rfl) : t.sw = s.sw := h.same .sw (by simpa using hl)

/-! Operations that keep the lanes and the settings of ports. -/

/-- Every lane with its open block, and every setting of a port (0x2310 to 0x23CF), are as before. -/
structure Beside (s t : State) : Prop where
  lanes : t.store.lanes = s.store.lanes
  settings : ∀ p sub, p < 0xC0 → sub < 256 → t.portCfg p sub = s.portCfg p sub

theorem Beside.refl (s : State) : Beside s s := ⟨rfl, fun _ _ _ _ => rfl⟩

theorem Beside.trans (h : Beside s t) (h' : Beside t u) : Beside s u :=
  ⟨h'.lanes.trans h.lanes, fun p sub hp hs => (h'.settings p sub hp hs).trans (h.settings p sub hp hs)⟩

theorem Beside.ite {c : Prop} [Decidable c] {a b : State} (ha : Beside s a) (hb : Beside s b) : Beside s (if c then a else b) := by
  split
  · exact ha
  · exact hb

theorem Beside.fold {α : Type} {f : State → α → State} (hf : ∀ t a, Beside t (f t a)) (xs : List α) (s : State) : Beside s (xs.foldl f s) := by
  induction xs generalizing s with
  | nil => exact Beside.refl s
  | cons a xs ih => exact (hf s a).trans (ih (f s a))

theorem portCfg_of_od (h : t.od = s.od) (p sub : Nat) : t.portCfg p sub = s.portCfg p sub := by
  rw [State.portCfg, State.cfg, h]; rfl

/-- An operation that touches neither the dictionary nor the store. -/
theorem Does.beside (h : Does l s t) (ho : l.contains .od = false := by rfl) (hs : l.contains .store = false := by rfl) : Beside s t :=
  ⟨congrArg Store.lanes (h.store_eq hs), fun p sub _ _ => portCfg_of_od (h.od_eq ho) p sub⟩

/-- An operation that touches the store without its lanes, and not the dictionary. -/
theorem Does.beside_of_lanes (h : Does l s t) (hl : t.store.lanes = s.store.lanes) (ho : l.contains .od = false := by rfl) : Beside s t :=
  ⟨hl, fun p sub _ _ => portCfg_of_od (h.od_eq ho) p sub⟩

theorem Beside.lane (h : Beside s t) (k : Nat) : t.lane k = s.lane k := by
  rw [State.lane, State.lane, h.lanes]

/-! Counting. -/

/-- An object that is no port's is put. -/
theorem State.put_beside (s : State) {idx sub : Nat} (v : Nat) (hsub : sub < 256) (hidx : idx < 0x2310 ∨ 0x23D0 ≤ idx) : Beside s (s.put idx sub v) := by
  refine ⟨rfl, fun p sub' hp hs => State.cfg_put_ne s v hsub hs fun e => ?_⟩
  have hi : portIdx p = idx := congrArg Prod.fst e
  rw [portIdx] at hi
  omega

theorem State.bumpBy_beside (s : State) {idx sub : Nat} (bytes n : Nat) (hsub : sub < 256) (hidx : idx < 0x2310 ∨ 0x23D0 ≤ idx) :
    Beside s (s.bumpBy idx sub bytes n) :=
  Beside.ite (Beside.refl s) (s.put_beside _ hsub hidx)

theorem State.bump_beside (s : State) {idx sub : Nat} (hsub : sub < 256) (hidx : idx < 0x2310 ∨ 0x23D0 ≤ idx) : Beside s (s.bump idx sub) :=
  s.bumpBy_beside 4 1 hsub hidx

/-- What a read of rows corrects and finds lost is counted. -/
theorem State.readSides_beside (s : State) (f : SideRow → Bool) : Beside s (s.readSides f) := by
  have hread : ∀ (t : State) (r : SideRow), Beside t (t.softRead r) := fun t r =>
    (t.bump_beside (by decide) (by decide)).trans ⟨rfl, fun _ _ _ _ => rfl⟩
  exact (Beside.fold hread _ s).trans (State.bumpBy_beside _ _ _ (by decide) (by decide))

/-! The control lane. -/

theorem State.intoSeg_lanes (s : State) (g : OpenSeg) (b : List Byte) : (s.intoSeg g b).store.lanes = s.store.lanes := rfl

theorem State.closeSeg_lanes (s : State) : s.closeSeg.store.lanes = s.store.lanes := by
  unfold State.closeSeg
  split <;> rfl

theorem State.payFailover_lanes (s : State) : s.payFailover.store.lanes = s.store.lanes := by
  unfold State.payFailover
  split <;> rfl

/-- A block handed to the segment assembler leaves the lanes as they are. -/
theorem State.addBlock_lanes (s : State) (b : List Byte) : (s.addBlock b).store.lanes = s.store.lanes := by
  unfold State.addBlock
  extract_lets t u v
  have ht : t.store.lanes = s.store.lanes := by
    show (match s.store.seg with | some g => if s.blockFits g b.length then s else s.closeSeg | none => s).store.lanes = _
    split
    · split
      · rfl
      · exact s.closeSeg_lanes
    · rfl
  have hu : u.store.lanes = s.store.lanes := t.payFailover_lanes.trans ht
  have hv : v.store.lanes = s.store.lanes := by
    show (match u.store.seg with | some g => u.intoSeg g b | none => u.intoSeg (u.newSeg false false) b).store.lanes = _
    split <;> exact hu
  split
  · exact v.closeSeg_lanes.trans hv
  · exact hv

theorem State.ctlStore_beside (s : State) (r : List Byte) : Beside s (s.ctlStore r) :=
  Beside.ite ((s.addBlock_does _).beside_of_lanes (s.addBlock_lanes _)) (Beside.refl s)

/-! The event log and the link. -/

theorem State.linkHealth_beside (s : State) (r : List Byte) : Beside s (s.linkHealth r) :=
  Beside.ite (Beside.refl s) (Beside.ite (s.bump_beside (by decide) (by decide)) (s.linkPut_does ..).beside)

theorem State.health_beside (s : State) (tick : L48) (r : LogRow) : Beside s (s.health tick r) :=
  (s.ctlStore_beside _).trans (State.linkHealth_beside _ _)

theorem State.pushLog_beside (s : State) (rows : List LogRow) : Beside s (s.pushLog rows) := by
  have hpush : Beside s { s with log := s.log.push rows } := ⟨rfl, fun _ _ _ _ => rfl⟩
  unfold State.pushLog
  exact hpush.trans (Beside.fold (fun t r => (t.healSide_does _).beside) rows _)

theorem State.logX_beside (s : State) (plane kind idx sub val : Nat) (pay : List (List Byte)) : Beside s (s.logX plane kind idx sub val pay) :=
  Beside.ite ((s.pushLog_beside _).trans (Beside.fold (fun t r => t.health_beside _ r) _ _)) (s.pushLog_beside _)

theorem State.linkQueue_beside (s : State) (cls : Nat) (b : LinkBlock) : Beside s (s.linkQueue cls b) :=
  Beside.ite ((s.bumpBy_beside _ _ (by decide) (by decide)).trans (State.logX_beside ..)) (s.linkPut_does ..).beside

theorem State.linkClose_beside (s : State) (lane cls : Nat) : Beside s (s.linkClose lane cls) := by
  unfold State.linkClose
  extract_lets o p link s1 store s2
  have h1 : Beside s s1 := (Does.set_link s _).beside
  have h2 : Beside s1 s2 := Beside.ite ((Does.set_store s1 _).beside_of_lanes rfl) (Beside.refl s1)
  exact Beside.ite (Beside.refl s) (h1.trans (h2.trans (s2.linkQueue_beside ..)))

theorem State.linkTake_beside (s : State) (cls lane : Nat) (r : List Byte) : Beside s (s.linkTake cls lane r) := by
  unfold State.linkTake
  extract_lets key item o s1 x y link s2
  have h1 : Beside s s1 := Beside.ite (s.linkClose_beside ..) (Beside.refl s)
  have h2 : Beside s s2 := h1.trans (Does.set_link s1 _).beside
  exact Beside.ite ((s.linkClose_beside ..).trans (State.bump_beside _ (by decide) (by decide)))
    (Beside.ite (h2.trans (s2.linkClose_beside ..)) h2)

theorem State.linkSelect_beside (s : State) (lane : Nat) (r : List Byte) : Beside s (s.linkSelect lane r) := by
  unfold State.linkSelect
  split
  · split
    · exact Beside.refl s
    · extract_lets c link s1
      have h1 : Beside s s1 := (Does.set_link s _).beside
      exact Beside.ite (h1.trans (s1.linkTake_beside ..)) h1
  · exact Beside.refl s

/-! Records for the fabric and the mirror partner. -/

theorem State.exportRecord_beside (s : State) (r : List Byte) : Beside s (s.exportRecord r) := by
  refine Beside.fold (fun t e => Beside.ite (t.bump_beside (by decide) (by decide)) ?_) _ s
  extract_lets m
  exact (⟨rfl, fun _ _ _ _ => rfl⟩ : Beside t { t with fab := { t.fab with exports := t.fab.exports ++ [m] } }).trans (State.drainExports_does _).beside

theorem State.enqueue_beside (s : State) (p : Nat) (ctl : L48) (count : Int) (r : List Byte) : Beside s (s.enqueue p ctl count r) := by
  unfold State.enqueue
  extract_lets x bad s1
  have h1 : Beside s s1 := (s.setTx_does ..).beside.trans (State.fillBuffer_does ..).beside
  exact Beside.ite (s.setTx_does ..).beside (Beside.ite (h1.trans (s1.bump_beside (by decide) (by decide))) h1)

theorem State.mirrorForward_beside (s : State) (p : Nat) (a : Int) (r : List Byte) : Beside s (s.mirrorForward p a r) := by
  have hdrop : Beside s (s.bump 0x2401 12) := s.bump_beside (by decide) (by decide)
  unfold State.mirrorForward
  extract_lets b count e
  refine Beside.ite (Beside.ite hdrop ?_) (Beside.refl s)
  split
  · exact ⟨rfl, fun _ _ _ _ => rfl⟩
  · exact Beside.ite (s.enqueue_beside ..) hdrop

/-! The sendings that a port has begun. -/

theorem tx_of_rep (h : t.rep = s.rep) (q : Nat) : t.tx q = s.tx q := by rw [State.tx, h]; rfl

theorem State.setTx_started (s : State) {p : Nat} {x : TxPort} (hx : x.started = (s.tx p).started) (q : Nat) :
    ((s.setTx p x).tx q).started = (s.tx q).started := by
  by_cases hq : q = p
  · rw [hq, State.tx_setTx, hx]
  · rw [State.tx_setTx_ne _ _ hq]

theorem State.fillBuffer_started (s : State) (p q : Nat) : ((s.fillBuffer p).tx q).started = (s.tx q).started := s.setTx_started (by rfl) q

/-- An entry that joins an emit queue is no sending begun. -/
theorem State.enqueue_started (s : State) (p : Nat) (ctl : L48) (count : Int) (r : List Byte) (q : Nat) :
    ((s.enqueue p ctl count r).tx q).started = (s.tx q).started := by
  unfold State.enqueue
  extract_lets x bad s1
  have h1 : (s1.tx q).started = (s.tx q).started := (State.fillBuffer_started _ p q).trans (s.setTx_started (by rfl) q)
  split
  · exact s.setTx_started (by rfl) q
  · split
    · exact (congrArg TxPort.started (tx_of_rep (s1.bump_does ..).rep_eq q)).trans h1
    · exact h1

theorem State.mirrorForward_started (s : State) (p : Nat) (a : Int) (r : List Byte) (q : Nat) :
    ((s.mirrorForward p a r).tx q).started = (s.tx q).started := by
  have hdrop : ((s.bump 0x2401 12).tx q).started = (s.tx q).started := congrArg TxPort.started (tx_of_rep (s.bump_does ..).rep_eq q)
  unfold State.mirrorForward
  extract_lets b count e
  split
  · split
    · exact hdrop
    · split
      · rfl
      · split
        · exact s.enqueue_started ..
        · exact hdrop
  · rfl

end Sys2Proof.Machine
end

section
/-! The configuration that a port's frames are taken under, and the entry of a record at a port that takes it (03 R50, R66 to R68). -/

namespace Sys2Proof.Machine

variable {s t u v : State} {p : Nat}

theorem port_of_ports (h : t.ports = s.ports) (p : Nat) : t.port p = s.port p := by rw [State.port, h]; rfl

/-! The configuration of a port (03 R50). -/

/-- Two states take the frames of a port under the same configuration: its settings and those before its last commit, its switch and its link, and the
calibration. -/
structure SameConfig (p : Nat) (s t : State) : Prop where
  sw : t.sw = s.sw
  cal : t.tb.cal = s.tb.cal
  calGen : t.tb.calGen = s.tb.calGen
  enabled : (t.port p).enabled = (s.port p).enabled
  link : (t.port p).link = (s.port p).link
  settings : ∀ sub < 256, t.portCfg p sub = s.portCfg p sub

theorem SameConfig.refl (p : Nat) (s : State) : SameConfig p s s := ⟨rfl, rfl, rfl, rfl, rfl, fun _ _ => rfl⟩

theorem SameConfig.trans (h : SameConfig p s t) (h' : SameConfig p t u) : SameConfig p s u where
  sw := h'.sw.trans h.sw
  cal := h'.cal.trans h.cal
  calGen := h'.calGen.trans h.calGen
  enabled := h'.enabled.trans h.enabled
  link := h'.link.trans h.link
  settings sub hs := (h'.settings sub hs).trans (h.settings sub hs)

theorem SameConfig.portOld (h : SameConfig p s t) (sub : Nat) : t.portOld p sub = s.portOld p sub := by
  rw [State.portOld, State.portOld, h.sw]

/-- A count is the same under settings that agree where it looks. -/
theorem SameConfig.edgeUnder (h : SameConfig p s t) {x y : Nat → Nat} (hxy : ∀ sub < 256, x sub = y sub) (e : Stamp) :
    t.edgeUnder x p e = s.edgeUnder y p e := by
  simp only [State.edgeUnder, h.calGen, h.link, hxy 4 (by decide)]
  cases (s.port p).link with
  | none => rfl
  | some r => simp only [hxy (8 + r.val) (by omega)]

theorem SameConfig.begunOld (h : SameConfig p s t) (e : Stamp) : t.begunOld p e = s.begunOld p e := by
  rw [State.begunOld, State.begunOld, h.sw, h.edgeUnder fun sub _ => h.portOld sub]

theorem SameConfig.setting (h : SameConfig p s t) (e : Stamp) {sub : Nat} (hs : sub < 256 := by decide) : t.setting p e sub = s.setting p e sub := by
  rw [State.setting, State.setting, h.begunOld, h.portOld, h.settings sub hs]

theorem SameConfig.pinTime (h : SameConfig p s t) (e : Stamp) : t.pinTime p e = s.pinTime p e :=
  h.edgeUnder (fun _ hs => h.setting e hs) e

theorem SameConfig.heard (h : SameConfig p s t) (e : Stamp) : t.heard p e = s.heard p e := by
  rw [State.heard, State.heard, h.begunOld, h.portOld, h.enabled]

theorem SameConfig.frameGen (h : SameConfig p s t) (e : Stamp) : t.frameGen p e = s.frameGen p e := by
  rw [State.frameGen, State.frameGen, h.begunOld, h.sw]

theorem SameConfig.pinFlags (h : SameConfig p s t) (flags : Nat) : t.pinFlags flags = s.pinFlags flags := by
  rw [State.pinFlags, State.pinFlags, h.cal]

theorem SameConfig.canMode (h : SameConfig p s t) (e : Stamp) : t.canMode p e = s.canMode p e := h.setting e

theorem SameConfig.canActive (h : SameConfig p s t) (he : (t.port p).errState = (s.port p).errState) (e : Stamp) :
    t.canActive p e = s.canActive p e := by
  rw [State.canActive, State.canActive, h.canMode, he]

theorem SameConfig.edgeOn (h : SameConfig p s t) (e : Stamp) : t.edgeOn p e = s.edgeOn p e := by
  rw [State.edgeOn, State.edgeOn, h.heard, h.setting e]

theorem SameConfig.edgeSelected (h : SameConfig p s t) (e : Stamp) (b : Bool) : t.edgeSelected p e b = s.edgeSelected p e b := by
  simp only [State.edgeSelected, h.setting e (sub := 5), h.setting e (sub := 6)]

/-! A port that takes a record. -/

theorem State.takes_iff : s.takes p = true ↔ (s.port p).debt ≤ 63 * ratePeriod p ∧ (s.port p).lost0 = 0 ∧ (s.port p).lost1 = 0 ∧
    (s.port p).inFrame = false ∧ s.stagingFull = false ∧ s.bufferFail p = none := by
  simp [State.takes, and_assoc]

/-- A state that stands to its port's next record as another one does: what decides whether and where it enters is the same. -/
structure Poised (p : Nat) (s t : State) : Prop where
  config : SameConfig p s t
  cls : t.cls = s.cls
  sess : t.sess = s.sess
  store : t.store = s.store
  side : t.side = s.side
  debt : (t.port p).debt = (s.port p).debt
  lost0 : (t.port p).lost0 = (s.port p).lost0
  lost1 : (t.port p).lost1 = (s.port p).lost1
  inFrame : (t.port p).inFrame = (s.port p).inFrame

theorem Poised.trans (h : Poised p s t) (h' : Poised p t u) : Poised p s u where
  config := h.config.trans h'.config
  cls := h'.cls.trans h.cls
  sess := h'.sess.trans h.sess
  store := h'.store.trans h.store
  side := h'.side.trans h.side
  debt := h'.debt.trans h.debt
  lost0 := h'.lost0.trans h.lost0
  lost1 := h'.lost1.trans h.lost1
  inFrame := h'.inFrame.trans h.inFrame

theorem Poised.refl (p : Nat) (s : State) : Poised p s s := ⟨.refl p s, rfl, rfl, rfl, rfl, rfl, rfl, rfl, rfl⟩

theorem stagingFull_of_store (h : t.store = s.store) : t.stagingFull = s.stagingFull := by
  rw [State.stagingFull, State.stagingFull, State.staged, State.staged, h]

theorem recording_of_sess (h : t.sess = s.sess) : t.recording = s.recording := by
  rw [State.recording, State.recording, State.acting, State.acting, State.capturing, State.capturing, h]

theorem Poised.takes (h : Poised p s t) (ht : s.takes p = true) : t.takes p = true := by
  have hfail : t.bufferFail p = s.bufferFail p := by rw [State.bufferFail, State.bufferFail, h.side]
  rw [State.takes_iff] at ht ⊢
  rwa [h.debt, h.lost0, h.lost1, h.inFrame, stagingFull_of_store h.store, hfail]

/-- Chip time that runs on. -/
theorem State.reach_poised (s : State) (p c : Nat) : Poised p s (s.reach c) := by
  unfold State.reach
  split
  · exact ⟨⟨rfl, rfl, rfl, rfl, rfl, fun _ _ => rfl⟩, rfl, rfl, rfl, rfl, rfl, rfl, rfl, rfl⟩
  · exact Poised.refl p s

/-- What was sent, a free value drawn, and what waits to be sent decide nothing of it. -/
theorem State.send_poised (s : State) (p : Nat) (o : Output) : Poised p s (s.send o) :=
  ⟨⟨rfl, rfl, rfl, rfl, rfl, fun _ _ => rfl⟩, rfl, rfl, rfl, rfl, rfl, rfl, rfl, rfl⟩

theorem State.draw_poised (s : State) (p n : Nat) : Poised p s (s.draw n).2 :=
  ⟨⟨rfl, rfl, rfl, rfl, rfl, fun _ _ => rfl⟩, rfl, rfl, rfl, rfl, rfl, rfl, rfl, rfl⟩

theorem State.setTx_poised (s : State) (p : Nat) (x : TxPort) : Poised p s (s.setTx p x) :=
  ⟨⟨rfl, rfl, rfl, rfl, rfl, fun _ _ => rfl⟩, rfl, rfl, rfl, rfl, rfl, rfl, rfl, rfl⟩

/-- Error counts, level and frame count of a port decide nothing of it. -/
theorem State.setPort_poised (s : State) (p : Nat) (level : Bool) (rec_ tec : Nat) (err : Fin 3) (frames : Byte) :
    Poised p s (s.setPort p { s.port p with level := level, rec_ := rec_, tec := tec, errState := err, frames := frames }) := by
  refine ⟨⟨rfl, rfl, rfl, ?_, ?_, fun _ _ => rfl⟩, rfl, rfl, rfl, rfl, ?_, ?_, ?_, ?_⟩ <;> rw [State.port_setPort]

theorem State.bump_poised (s : State) (hp : p < 0xC0) {idx sub : Nat} (hsub : sub < 256) (hidx : idx < 0x2310 ∨ 0x23D0 ≤ idx) :
    Poised p s (s.bump idx sub) := by
  have h := s.bump_does idx sub
  have hport : (s.bump idx sub).port p = s.port p := port_of_ports h.ports_eq p
  exact ⟨⟨h.sw_eq, congrArg _ h.tb_eq, congrArg _ h.tb_eq, congrArg _ hport, congrArg _ hport,
    fun sub' hs => (s.bump_beside hsub hidx).settings p sub' hp hs⟩, h.cls_eq, h.sess_eq, h.store_eq, h.same .side (by decide),
    congrArg _ hport, congrArg _ hport, congrArg _ hport, congrArg _ hport⟩

/-! A raw record in its lane. -/

theorem recType_rawRecord (edge : Int) (p kind gen aux flags ident : Nat) (payload : List Byte) :
    recType (rawRecord edge p kind gen aux flags ident payload) = 1 := rfl

theorem rawKind_rawRecord {kind : Nat} (hk : kind < 16) (edge : Int) (p gen aux flags ident : Nat) (payload : List Byte) :
    rawKind (rawRecord edge p kind gen aux flags ident payload) = kind := by
  have h : rawKind (rawRecord edge p kind gen aux flags ident payload) = (BitVec.ofNat 8 (kind + 16 * gen)).toNat % 16 := rfl
  rw [h, BitVec.toNat_ofNat]
  omega

/-- A record appended to a lane stands last in its open block, unless it is a vector record, which closes it. -/
theorem State.laneAppend_last (s : State) (l : Nat) {r : List Byte} (hr : recType r ≠ 4) :
    ∃ b, ((s.laneAppend l r).lane l).block = some b ∧ b.recs.getLast? = some r := by
  unfold State.laneAppend
  extract_lets s1 s2
  rw [if_neg hr]
  exact ⟨_, congrArg Lane.block (State.lane_setLane ..), List.getLast?_concat⟩

/-- A raw lane is not subject to overload, and no output lane. -/
theorem State.stage_raw (s : State) (hp : p < 256) (r : List Byte) :
    s.stage (0x100 + p) r = (if s.recording then s.laneAppend (0x100 + p) r else s).linkSelect (0x100 + p) r := by
  have h1 : ¬0x200 ≤ 0x100 + p := by omega
  have h2 : ¬0x1000 ≤ 0x100 + p := by omega
  simp only [State.stage, h1, h2, decide_false, Bool.and_false, Bool.false_and, Bool.false_eq_true, if_false]

theorem State.stage_last (hp : p < 256) {r : List Byte} (hr : recType r ≠ 4) (hrec : s.recording = true) :
    ∃ b, ((s.stage (0x100 + p) r).lane (0x100 + p)).block = some b ∧ b.recs.getLast? = some r := by
  rw [s.stage_raw hp, if_pos hrec, (State.linkSelect_beside ..).lane]
  exact s.laneAppend_last _ hr

theorem State.stage_settings (s : State) (hp : p < 256) (r : List Byte) {q sub : Nat} (hq : q < 0xC0) (hs : sub < 256) :
    (s.stage (0x100 + p) r).portCfg q sub = s.portCfg q sub := by
  rw [s.stage_raw hp, (State.linkSelect_beside ..).settings q sub hq hs]
  split
  · exact portCfg_of_od (s.laneAppend_does ..).od_eq q sub
  · rfl

/-! Entry of a record. -/

/-- A record has entered at a port: it stands where it belongs, and beside the rate limit's account nothing of the port has changed. -/
structure Entered (s t : State) (p gen : Nat) (edge : Int) (kind aux flags ident : Nat) (payload : List Byte) : Prop where
  recorded : Recorded s t p gen edge kind aux flags ident payload
  port : ∃ debt debtAt, t.port p = { s.port p with debt := debt, debtAt := debtAt }
  settings : ∀ q sub, q < 0xC0 → sub < 256 → t.portCfg q sub = s.portCfg q sub
  started : ∀ q, (t.tx q).started = (s.tx q).started

/-- A record goes to the classifier, unless it is a bus event or a notice (04 R74). -/
def State.offer (s : State) (p : Nat) (edge : Int) (r : List Byte) : State :=
  if rawKind r = 5 || rawKind r = 13 then s else { s with cls := { s.cls with inq := s.cls.inq ++ [⟨p, edge, r⟩] } }

theorem State.offer_does (s : State) (p : Nat) (edge : Int) (r : List Byte) : Does [.cls] s (s.offer p edge r) :=
  Does.ite (fun _ => Does.refl _ _) fun _ => Does.set_cls _ _

/-- With no frame in progress and staging open, a record takes its four ways one after another. -/
theorem State.putRaw_open (hb : (s.port p).inFrame = false) (hf : s.stagingFull = false) (edge : Int) (r : List Byte) :
    s.putRaw p edge r = (((s.stage (0x100 + p) r).offer p edge r).exportRecord r).mirrorForward p edge r := by
  simp only [State.putRaw, hb, hf, Bool.false_and, Bool.false_eq_true, if_false]
  rfl

theorem State.putRaw_entered (hp : p < 256) (hb : (s.port p).inFrame = false) (hf : s.stagingFull = false) {kind : Nat} (hk : kind < 16) (gen : Nat)
    (edge : Int) (aux flags ident : Nat) (payload : List Byte) :
    Entered s (s.putRaw p edge (rawRecord edge p kind gen aux flags ident payload)) p gen edge kind aux flags ident payload := by
  obtain ⟨r, hr⟩ : ∃ r, r = rawRecord edge p kind gen aux flags ident payload := ⟨_, rfl⟩
  have hkind : rawKind r = kind := hr ▸ rawKind_rawRecord hk ..
  have htype : recType r ≠ 4 := by rw [hr, recType_rawRecord]; decide
  rw [← hr, State.putRaw_open hb hf]
  have hstage := s.stage_does (0x100 + p) r
  have hoffer := (s.stage (0x100 + p) r).offer_does p edge r
  have hexport := ((s.stage (0x100 + p) r).offer p edge r).exportRecord_does r
  have hmirror := (((s.stage (0x100 + p) r).offer p edge r).exportRecord r).mirrorForward_does p edge r
  have hbeside : Beside (s.stage (0x100 + p) r) _ :=
    hoffer.beside.trans ((State.exportRecord_beside _ r).trans (State.mirrorForward_beside _ p edge r))
  refine ⟨⟨fun h5 h13 => ?_, fun hrec => ?_⟩, ⟨(s.port p).debt, (s.port p).debtAt, ?_⟩, fun q sub hq hs => ?_, fun q => ?_⟩
  · rw [← hr, hmirror.cls_eq, hexport.cls_eq, State.offer, hkind, if_neg (by simp [h5, h13]), hstage.cls_eq]
  · rw [← hr, hbeside.lane]
    exact State.stage_last hp htype hrec
  · exact port_of_ports (hmirror.ports_eq.trans (hexport.ports_eq.trans (hoffer.ports_eq.trans hstage.ports_eq))) p
  · rw [hbeside.settings q sub hq hs, s.stage_settings hp r hq hs]
  · rw [State.mirrorForward_started]
    exact congrArg TxPort.started (tx_of_rep (hexport.rep_eq.trans (hoffer.rep_eq.trans hstage.rep_eq)) q)

/-- A port that takes a record accounts for it, reads its sound buffer and sends it on. -/
theorem State.accept_of_takes (h : s.takes p = true) (gen : Nat) (edge : Int) (kind aux flags ident : Nat) (payload : List Byte) :
    s.accept p gen edge kind aux flags ident payload =
      (((s.setPort p { s.port p with debt := (s.port p).debtNow s.now + ratePeriod p, debtAt := s.now }).readSides (isReceive p)).healSides
        (isReceive p)).putRaw p edge (rawRecord edge p kind gen aux flags ident payload) := by
  obtain ⟨hdebt, hlost0, hlost1, -, hfull, hfail⟩ := State.takes_iff.1 h
  have hrate : ¬64 * ratePeriod p < (s.port p).debtNow s.now + ratePeriod p := by rw [Port.debtNow]; omega
  have hroom : ∀ r, s.bufferRoom p r = true := fun r => by rw [State.bufferRoom, hfull]; rfl
  have hread : ∀ r, s.readBuffer p r = r := fun r => by rw [State.readBuffer, hfail]
  have hdrops : ((s.port p).lost0 + (s.port p).lost1 != 0) = false := by rw [hlost0, hlost1]; rfl
  simp only [State.accept, hdrops, hread, hrate, hroom, if_true, if_false, Bool.false_eq_true]
  rfl

theorem State.accept_entered (hp : p < 256) (h : s.takes p = true) {kind : Nat} (hk : kind < 16) (gen : Nat) (edge : Int) (aux flags ident : Nat)
    (payload : List Byte) :
    Entered s (s.accept p gen edge kind aux flags ident payload) p gen edge kind aux flags ident payload := by
  obtain ⟨-, -, -, hframe, hfull, -⟩ := State.takes_iff.1 h
  obtain ⟨x, hx⟩ : ∃ x, x = s.setPort p { s.port p with debt := (s.port p).debtNow s.now + ratePeriod p, debtAt := s.now } := ⟨_, rfl⟩
  obtain ⟨y, hy⟩ : ∃ y, y = (x.readSides (isReceive p)).healSides (isReceive p) := ⟨_, rfl⟩
  have hset : Does [.ports] s x := hx ▸ s.setPort_does ..
  have hread : Does [.od, .cel, .side] x y := hy ▸ ((x.readSides_does _).weaken rfl).step (State.healSides_does ..) rfl
  have hbeside : Beside s y := hy ▸ hset.beside.trans ((x.readSides_beside _).trans (State.healSides_does ..).beside)
  have hstore : y.store = s.store := hread.store_eq.trans hset.store_eq
  have hsess : y.sess = s.sess := hread.sess_eq.trans hset.sess_eq
  have hport : y.port p = { s.port p with debt := (s.port p).debtNow s.now + ratePeriod p, debtAt := s.now } :=
    (port_of_ports hread.ports_eq p).trans (hx ▸ State.port_setPort ..)
  rw [State.accept_of_takes h, ← hx, ← hy]
  obtain ⟨⟨hinq, hlane⟩, ⟨d, a, hput⟩, hsettings, hstarted⟩ :=
    State.putRaw_entered (s := y) hp (by rw [hport]; exact hframe) ((stagingFull_of_store hstore).trans hfull) hk gen edge aux flags ident payload
  refine ⟨⟨fun h5 h13 => ?_, fun hr => hlane ((recording_of_sess hsess).trans hr)⟩, ⟨d, a, ?_⟩, fun q sub hq hs => ?_, fun q => ?_⟩
  · rw [hinq h5 h13, hread.cls_eq, hset.cls_eq]
  · rw [hput, hport]
  · rw [hsettings q sub hq hs, hbeside.settings q sub hq hs]
  · rw [hstarted q]
    exact congrArg TxPort.started (tx_of_rep (hread.rep_eq.trans hset.rep_eq) q)

/-- The port keeps its configuration when a record enters. -/
theorem Entered.config {gen kind aux flags ident : Nat} {edge : Int} {payload : List Byte} (h : Entered s t p gen edge kind aux flags ident payload)
    (hp : p < 0xC0) (hsw : t.sw = s.sw) (htb : t.tb = s.tb) : SameConfig p s t := by
  obtain ⟨d, a, hport⟩ := h.port
  exact ⟨hsw, congrArg _ htb, congrArg _ htb, by rw [hport], by rw [hport], fun sub hs => h.settings p sub hp hs⟩

/-- What happens later leaves a record where it stands. -/
theorem Recorded.later {gen kind aux flags ident : Nat} {edge : Int} {payload : List Byte} (h : Recorded s t p gen edge kind aux flags ident payload)
    (hcls : u.cls = t.cls) (hlanes : u.store.lanes = t.store.lanes) : Recorded s u p gen edge kind aux flags ident payload := by
  have hlane : u.lane (256 + p) = t.lane (256 + p) := by rw [State.lane, State.lane, hlanes]
  rw [Recorded, hcls, hlane]
  exact h

/-- A record by its start edge enters at a port that takes it. -/
theorem State.acceptPin_entered (hp : p < 256) (h : s.takes p = true) {kind : Nat} (hk : kind < 16) (e : Stamp) (aux flags ident : Nat) (payload : List Byte) :
    Entered s (s.acceptPin p e kind aux flags ident payload) p (s.frameGen p e) (s.pinTime p e) kind aux (s.pinFlags flags) ident payload := by
  have hflags : flags + flUncal * bit01 (!s.tb.cal) = s.pinFlags flags := by rw [flUncal, Nat.one_mul, State.pinFlags]
  rw [State.acceptPin, State.acceptAt, hflags]
  exact State.accept_entered hp h hk ..

/-- The same as seen from an earlier state, after which nothing has changed that decides of it. -/
theorem Poised.acceptPin_recorded (h : Poised p s t) (hp : p < 256) (ht : s.takes p = true) {kind : Nat} (hk : kind < 16) (e : Stamp) (aux flags ident : Nat)
    (payload : List Byte) :
    Recorded s (t.acceptPin p e kind aux flags ident payload) p (s.frameGen p e) (s.pinTime p e) kind aux (s.pinFlags flags) ident payload := by
  obtain ⟨hinq, hlane⟩ := (State.acceptPin_entered hp (h.takes ht) hk e aux flags ident payload).recorded
  rw [h.config.frameGen, h.config.pinTime, h.config.pinFlags, h.cls] at hinq
  rw [h.config.frameGen, h.config.pinTime, h.config.pinFlags, recording_of_sess h.sess] at hlane
  exact ⟨hinq, hlane⟩

end Sys2Proof.Machine
end

section
/-! Capture at CAN ports (03 R50, R53 to R57, R472): frames, XL frames that are refused, bus events and the recovery from bus-off. -/

namespace Sys2Proof.Machine

variable {s t u : State} {p : Nat} {e : Stamp}

/-! The entry that a change of error state leaves in the event log. -/

theorem EventLog.push_last (l : EventLog) (r : LogRow) : (l.push [r]).rows.getLast? = some r := by
  simp [EventLog.push, List.getLast?_drop]

/-- An entry without continuations is the last one; the health record that it may become adds none. -/
theorem State.logE_last (s : State) (plane kind idx sub val : Nat) :
    ∃ r, (s.logE plane kind idx sub val).log.rows.getLast? = some r ∧ r.kind = BitVec.ofNat 8 kind ∧ r.refIdx = BitVec.ofNat 16 idx ∧
      r.refSub = BitVec.ofNat 8 sub ∧ r.value = BitVec.ofNat 24 val := by
  obtain ⟨r, hr⟩ : ∃ r : LogRow, r = ⟨s.tb.tick, s.log.next, BitVec.ofNat 8 (plane * 64 + 32 * bit01 s.tb.husk + 16 * bit01 false), BitVec.ofNat 8 kind,
    BitVec.ofNat 16 idx, BitVec.ofNat 8 sub, BitVec.ofNat 24 val⟩ := ⟨_, rfl⟩
  have hrows : s.entryRows plane kind idx sub val [] = [r] := hr ▸ rfl
  have hlog : (s.logE plane kind idx sub val).log = s.log.push [r] := by
    rw [State.logE, State.logX, hrows]
    split
    · exact (State.health_does ..).log_eq
    · rfl
  exact ⟨r, by rw [hlog, EventLog.push_last], hr ▸ rfl, hr ▸ rfl, hr ▸ rfl, hr ▸ rfl⟩

/-! Frames. -/

/-- The port's error counts move with a frame received in normal mode. -/
def State.counted (s : State) (p : Nat) (e : Stamp) : State :=
  if s.canActive p e && s.portCfg p 5 = 2 then s.setPort p (s.port p).received else s

theorem State.counted_poised (s : State) (p : Nat) (e : Stamp) : Poised p s (s.counted p e) := by
  unfold State.counted
  split
  · exact s.setPort_poised p _ _ _ _ _
  · exact Poised.refl p s

theorem State.counted_port (s : State) (p : Nat) (e : Stamp) : (s.counted p e).port p = { s.port p with
    rec_ := if s.canActive p e && s.portCfg p 5 = 2 then (if 127 < (s.port p).rec_ then 119 else (s.port p).rec_ - 1) else (s.port p).rec_ } := by
  unfold State.counted
  split
  · rw [State.port_setPort]; rfl
  · rfl

/-- Where a node acknowledges, the acknowledge bit is what it sends last. -/
theorem State.canAck_last (hm : s.canMode p e ≠ 0) (he : (s.port p).errState ≠ 2) : (s.canAck p e).out.getLast? = some (.canAck p) := by
  have hc : (decide (s.canMode p e = 0) || decide ((s.port p).errState = 2)) = false := by simp [hm, he]
  rw [State.canAck, hc]
  exact List.getLast?_concat

theorem State.canReceive_frame {f : CanFrame} (hh : s.heard p e = true) (hf : f.fmt ≠ .xl ∨ s.setting p e 10 ≠ 0) :
    s.canReceive p e f = (((s.reach e.count).counted p e).acceptPin p e (canKind f) (canAux f) 0 (canId f) (canPayload f)).canAck p e := by
  have hset : (s.reach e.count).setting p e 10 = s.setting p e 10 := (s.reach_poised p _).config.setting e
  have hxl : (decide (f.fmt = .xl) && decide ((s.reach e.count).setting p e 10 = 0)) = false := by
    rw [hset]
    rcases hf with h | h <;> simp [h]
  simp only [State.canReceive, hh, hxl, if_true, Bool.false_eq_true, if_false]
  rfl

theorem canKind_lt (f : CanFrame) : canKind f < 5 := by
  have hb : ∀ b, bit01 b ≤ 1 := fun b => by cases b <;> decide
  have := hb f.ext
  cases hf : f.fmt <;> simp only [canKind, hf] <;> omega

/-- A frame that the port's configuration allows is recorded, counted and acknowledged (03 R53, R56). -/
theorem State.canReceive_records (hp : p < 96) (ht : s.takes p = true) (hh : s.heard p e = true) {f : CanFrame}
    (hf : f.fmt ≠ .xl ∨ s.setting p e 10 ≠ 0) :
    Recorded s (s.canReceive p e f) p (s.frameGen p e) (s.pinTime p e) (canKind f) (canAux f) (s.pinFlags 0) (canId f) (canPayload f) ∧
    ((s.canReceive p e f).port p).rec_ =
      (if s.canActive p e && s.portCfg p 5 = 2 then (if 127 < (s.port p).rec_ then 119 else (s.port p).rec_ - 1) else (s.port p).rec_) ∧
    (s.canMode p e ≠ 0 → (s.port p).errState ≠ 2 → (s.canReceive p e f).out.getLast? = some (.canAck p)) := by
  obtain ⟨s0, hs0⟩ : ∃ s0, s0 = s.reach e.count := ⟨_, rfl⟩
  obtain ⟨s1, hs1⟩ : ∃ s1, s1 = s0.counted p e := ⟨_, rfl⟩
  obtain ⟨s2, hs2⟩ : ∃ s2, s2 = s1.acceptPin p e (canKind f) (canAux f) 0 (canId f) (canPayload f) := ⟨_, rfl⟩
  have hkind : canKind f < 16 := (canKind_lt f).trans (by decide)
  have hreach : Poised p s s0 := hs0 ▸ s.reach_poised p _
  have h1 : Poised p s s1 := hreach.trans (hs1 ▸ s0.counted_poised p e)
  have hport0 : s0.port p = s.port p := hs0 ▸ port_of_ports (s.reach_does _).ports_eq p
  have hentered := State.acceptPin_entered (hp.trans (by decide)) (h1.takes ht) hkind e (canAux f) 0 (canId f) (canPayload f)
  have hdoes := s1.acceptPin_does p e (canKind f) (canAux f) 0 (canId f) (canPayload f)
  rw [← hs2] at hentered hdoes
  obtain ⟨d, a, hport2⟩ := hentered.port
  have hcount := s0.counted_port p e
  rw [← hs1, hport0, hreach.config.canActive (by rw [hport0]), hreach.config.settings 5 (by decide)] at hcount
  have hack := s2.canAck_does p e
  have hport : (s2.canAck p e).port p = s2.port p := port_of_ports hack.ports_eq p
  rw [State.canReceive_frame hh hf, ← hs0, ← hs1, ← hs2]
  refine ⟨?_, ?_, fun hm he => State.canAck_last ?_ ?_⟩
  · rw [hs2]
    exact (h1.acceptPin_recorded (hp.trans (by decide)) ht hkind ..).later (State.canAck_does ..).cls_eq (congrArg Store.lanes (State.canAck_does ..).store_eq)
  · rw [hport, hport2, hcount]
  · rw [(hentered.config (hp.trans (by decide)) hdoes.sw_eq hdoes.tb_eq).canMode, h1.config.canMode]
    exact hm
  · rw [hport2, hcount]
    exact he

/-! Bus events. -/

/-- A bus event is recorded with the error counts that the port has, which the record leaves. -/
theorem Poised.busEvent_recorded (h : Poised p s t) (hp : p < 96) (ht : s.takes p = true) (e : Stamp) (code field ident pos more : Nat) (bytes : List Byte) :
    Recorded s (t.busEvent p e code field ident pos more bytes) p (s.frameGen p e) (s.pinTime p e) 5 (code + 16 * field)
      (s.pinFlags ((if code ≤ 4 ∨ code = 6 then 8 else 0) + more)) (if field = 0 ∨ field = 5 then 0 else ident)
      (leBytes 2 (min pos 65535) ++ (t.port p).counts ++ bytes) := by
  have hrec := h.acceptPin_recorded (hp.trans (by decide)) ht (kind := 5) (by decide) e (code + 16 * field)
    ((if code ≤ 4 ∨ code = 6 then 8 else 0) + more) (if field = 0 ∨ field = 5 then 0 else ident) (leBytes 2 (min pos 65535) ++ (t.port p).counts ++ bytes)
  simpa only [State.busEvent, Bool.or_eq_true, decide_eq_true_eq, flErr] using hrec

theorem Poised.busEvent_port (h : Poised p s t) (hp : p < 96) (ht : s.takes p = true) (e : Stamp) (code field ident pos more : Nat) (bytes : List Byte) :
    ∃ debt debtAt, (t.busEvent p e code field ident pos more bytes).port p = { t.port p with debt := debt, debtAt := debtAt } :=
  (State.acceptPin_entered (hp.trans (by decide)) (h.takes ht) (by decide) ..).port

/-- A bus event leaves the port active as it is. -/
theorem Poised.busEvent_active (h : Poised p s t) (hp : p < 96) (ht : s.takes p = true) (e : Stamp) (code field ident pos more : Nat) (bytes : List Byte) :
    (t.busEvent p e code field ident pos more bytes).canActive p e = t.canActive p e := by
  have hdoes := t.busEvent_does p e code field ident pos more bytes
  obtain ⟨d, a, hport⟩ := h.busEvent_port hp ht e code field ident pos more bytes
  have herr : ((t.busEvent p e code field ident pos more bytes).port p).errState = (t.port p).errState := by rw [hport]
  exact ((State.acceptPin_entered (hp.trans (by decide)) (h.takes ht) (by decide) ..).config (hp.trans (by decide)) hdoes.sw_eq hdoes.tb_eq).canActive
    herr e

/-- An active node's error frame is what it sends last. -/
theorem State.canErrorFrame_last (h : s.canActive p e = true) : (s.canErrorFrame p e).out.getLast? = some (.canErrorFrame p) := by
  rw [State.canErrorFrame, h]
  exact List.getLast?_concat

/-! XL frames at a port with XL disabled. -/

theorem State.canReceive_xl {f : CanFrame} (hh : s.heard p e = true) (hf : f.fmt = .xl) (hx : s.setting p e 10 = 0) :
    s.canReceive p e f = (s.reach e.count).xlRefused p e (canId f) := by
  have hset : (s.reach e.count).setting p e 10 = 0 := ((s.reach_poised p _).config.setting e).trans hx
  simp only [State.canReceive, hh, hf, hset, decide_true, Bool.and_self, if_true]

/-- With the protocol exception on, a refused frame is one (03 R472). -/
theorem Poised.xlRefused_exception (h : Poised p s t) (hp : p < 96) (ht : s.takes p = true) (hx : s.setting p e 13 = 1) (ident : Nat) :
    Recorded s (t.xlRefused p e ident) p (s.frameGen p e) (s.pinTime p e) 5 22 (s.pinFlags 8) ident
      (leBytes 2 (min (t.draw 1).1 65535) ++ (t.port p).counts) := by
  have hset : t.setting p e 13 = 1 := (h.config.setting e).trans hx
  have hrec := (h.trans (t.draw_poised p 1)).busEvent_recorded hp ht e 6 1 ident (t.draw 1).1 0 []
  rw [List.append_nil] at hrec
  simp only [State.xlRefused, hset, if_true]
  exact hrec

/-- The receive error count of an active node in normal mode rises by one. -/
def State.countedXl (s : State) (p : Nat) (e : Stamp) : State :=
  if s.canActive p e && s.portCfg p 5 = 2 then (s.draw 1).2.setPort p { (s.draw 1).2.port p with rec_ := ((s.draw 1).2.port p).rec_ + 1 } else (s.draw 1).2

theorem State.countedXl_poised (s : State) (p : Nat) (e : Stamp) : Poised p s (s.countedXl p e) := by
  unfold State.countedXl
  split
  · exact (s.draw_poised p 1).trans ((s.draw 1).2.setPort_poised p _ _ _ _ _)
  · exact s.draw_poised p 1

theorem State.countedXl_rec (s : State) (p : Nat) (e : Stamp) :
    ((s.countedXl p e).port p).rec_ = (s.port p).rec_ + (if s.canActive p e && s.portCfg p 5 = 2 then 1 else 0) := by
  unfold State.countedXl
  split
  · rw [State.port_setPort]; rfl
  · rfl

/-- With it off, a refused frame is a form error, which counts and is answered in normal mode (03 R54, R472). -/
theorem Poised.xlRefused_error (h : Poised p s t) (hp : p < 96) (ht : s.takes p = true) (hx : s.setting p e 13 ≠ 1) (ident : Nat) :
    Recorded s (t.xlRefused p e ident) p (s.frameGen p e) (s.pinTime p e) 5 19 (s.pinFlags 8) ident
      (leBytes 2 (min (t.draw 1).1 65535) ++ ((t.xlRefused p e ident).port p).counts) ∧
    ((t.xlRefused p e ident).port p).rec_ = (t.port p).rec_ + (if t.canActive p e && t.portCfg p 5 = 2 then 1 else 0) := by
  have hset : t.setting p e 13 ≠ 1 := by rw [h.config.setting e]; exact hx
  have h1 := h.trans (t.countedXl_poised p e)
  have heq : t.xlRefused p e ident = ((t.countedXl p e).busEvent p e 3 1 ident (t.draw 1).1 0 []).canErrorFrame p e := by
    simp only [State.xlRefused, hset, if_false]
    rfl
  have hrec := h1.busEvent_recorded hp ht e 3 1 ident (t.draw 1).1 0 []
  obtain ⟨d, a, hport⟩ := h1.busEvent_port hp ht e 3 1 ident (t.draw 1).1 0 []
  have hsend := ((t.countedXl p e).busEvent p e 3 1 ident (t.draw 1).1 0 []).canErrorFrame_does p e
  rw [heq, port_of_ports hsend.ports_eq, hport, ← t.countedXl_rec p e]
  rw [List.append_nil] at hrec
  exact ⟨hrec.later hsend.cls_eq (congrArg Store.lanes hsend.store_eq), rfl⟩

/-! Bus events of an enabled port. -/

/-- The code under which an event is recorded: a protocol exception is a form error where the option is off (03 R54). -/
def State.eventCode (s : State) (p : Nat) (e : Stamp) (ev : CanEvent) : Nat :=
  if ev.code.val = 6 && s.setting p e 13 = 0 then 3 else ev.code.val

theorem State.eventCode_eq (s : State) (p : Nat) (e : Stamp) (ev : CanEvent) :
    s.eventCode p e ev = if ev.code.val = 6 ∧ s.setting p e 13 = 0 then 3 else ev.code.val := by
  simp only [State.eventCode, Bool.and_eq_true, decide_eq_true_eq]

/-- The port after an event's counts: they and the error state move in normal mode, unless a commit has ended it (03 R56). -/
def State.afterEvent (s : State) (p : Nat) (e : Stamp) (ev : CanEvent) : State :=
  if s.canMode p e = 2 && s.portCfg p 5 = 2 then
    s.setPort p { s.port p with rec_ := ev.rec_, tec := ev.tec, errState := stateOfCode (s.eventCode p e ev) (s.port p).errState }
  else s

theorem State.afterEvent_poised (s : State) (p : Nat) (e : Stamp) (ev : CanEvent) : Poised p s (s.afterEvent p e ev) := by
  unfold State.afterEvent
  split
  · exact s.setPort_poised p _ _ _ _ _
  · exact Poised.refl p s

theorem State.afterEvent_port (s : State) (p : Nat) (e : Stamp) (ev : CanEvent) :
    let moves := s.canMode p e = 2 ∧ s.portCfg p 5 = 2
    (s.afterEvent p e ev).port p = { s.port p with
      rec_ := if moves then ev.rec_ else (s.port p).rec_
      tec := if moves then ev.tec else (s.port p).tec
      errState := if moves then stateOfCode (s.eventCode p e ev) (s.port p).errState else (s.port p).errState } := by
  intro moves
  by_cases hm : moves
  · have hc : (decide (s.canMode p e = 2) && decide (s.portCfg p 5 = 2)) = true := by simpa using hm
    simp only [State.afterEvent, hc, if_pos hm, if_true, State.port_setPort]
  · have hc : (decide (s.canMode p e = 2) && decide (s.portCfg p 5 = 2)) = false := by simpa [moves] using hm
    simp only [State.afterEvent, hc, if_neg hm, Bool.false_eq_true, if_false]

/-- An error leaves the error state, and with it whether a node is active. -/
theorem State.afterEvent_active {ev : CanEvent} (hc : s.eventCode p e ev ≤ 4) : (s.afterEvent p e ev).canActive p e = s.canActive p e := by
  refine (s.afterEvent_poised p e ev).config.canActive ?_ e
  have hold : stateOfCode (s.eventCode p e ev) (s.port p).errState = (s.port p).errState := by
    rw [stateOfCode, if_neg (by omega), if_neg (by omega), if_neg (by omega)]
  rw [State.afterEvent_port, hold, ite_self]

/-- The record of an event, which bears TX when it failed a frame of this device (03 R69, 06 R122). -/
def State.recordEvent (s : State) (p : Nat) (e : Stamp) (ev : CanEvent) : State :=
  (s.afterEvent p e ev).busEvent p e (s.eventCode p e ev) ev.field.val ev.ident.toNat ev.bitPos
    (if ev.own && s.eventCode p e ev ≤ 4 then s.failedFlags p e else 0) ev.bytes

/-- What follows the record of an event: the node's own frame, the failed sending, and the log's entry of a change of error state. -/
def State.concludeEvent (s : State) (p : Nat) (e : Stamp) (ev : CanEvent) (code : Nat) : State :=
  let s2 := s.canSignal p e code ev.xlData
  let s3 := if ev.own && code ≤ 4 then s2.sendFailed p else s2
  if 7 ≤ code then s3.logE 1 1 0x2310 0 0 else s3

theorem State.canEvent_taken {ev : CanEvent} (hh : s.heard p e = true) (hc : ev.code.val < 7 ∨ s.canMode p e = 2) :
    s.canEvent p e ev = ((s.reach e.count).recordEvent p e ev).concludeEvent p e ev ((s.reach e.count).eventCode p e ev) := by
  have hgo : (!s.heard p e || (decide (7 ≤ ev.code.val) && !decide (s.canMode p e = 2))) = false := by
    rcases hc with h | h
    · simp [hh, h]
    · simp [hh, h]
  have hmode : (s.reach e.count).canMode p e = s.canMode p e := (s.reach_poised p _).config.canMode e
  simp only [State.canEvent, hgo, Bool.false_eq_true, if_false, State.recordEvent, State.afterEvent, hmode]
  rfl

theorem State.concludeEvent_after (s : State) (p : Nat) (e : Stamp) (ev : CanEvent) (code : Nat) :
    (s.concludeEvent p e ev code).cls = s.cls ∧ (s.concludeEvent p e ev code).store.lanes = s.store.lanes ∧
    (s.concludeEvent p e ev code).ports = s.ports := by
  unfold State.concludeEvent
  extract_lets s2 s3
  have h2 : Does [.out] s s2 := s.canSignal_does ..
  have h3 : Does [.od, .rep] s2 s3 := Does.ite (fun _ => s2.sendFailed_does p) fun _ => Does.refl _ _
  have hcls : s3.cls = s.cls := h3.cls_eq.trans h2.cls_eq
  have hlanes : s3.store.lanes = s.store.lanes := congrArg Store.lanes (h3.store_eq.trans h2.store_eq)
  have hports : s3.ports = s.ports := h3.ports_eq.trans h2.ports_eq
  split
  · exact ⟨(s3.logE_does ..).cls_eq.trans hcls, (s3.logX_beside ..).lanes.trans hlanes, (s3.logE_does ..).ports_eq.trans hports⟩
  · exact ⟨hcls, hlanes, hports⟩

theorem State.concludeEvent_error {ev : CanEvent} {code : Nat} (hc : code ≤ 4) (hx : ev.xlData = false) (ha : s.canActive p e = true) :
    (s.concludeEvent p e ev code).out.getLast? = some (.canErrorFrame p) := by
  have hsignal : s.canSignal p e code ev.xlData = s.canErrorFrame p e := by
    simp only [State.canSignal, hc, hx, if_true, Bool.false_and, Bool.false_eq_true, if_false]
  have hno : ¬7 ≤ code := by omega
  unfold State.concludeEvent
  extract_lets s2 s3
  have h3 : Does [.od, .rep] s2 s3 := Does.ite (fun _ => s2.sendFailed_does p) fun _ => Does.refl _ _
  have hout : s3.out = s2.out := h3.same .out (by decide)
  rw [if_neg hno, hout, show s2 = s.canErrorFrame p e from hsignal]
  exact State.canErrorFrame_last ha

theorem State.concludeEvent_logged {ev : CanEvent} {code : Nat} (hc : 7 ≤ code) : Logged t (s.concludeEvent p e ev code) 1 0x2310 0 0 := by
  intro _
  unfold State.concludeEvent
  extract_lets s2 s3
  rw [if_pos hc]
  exact s3.logE_last ..

/-- A bus event is recorded with what it leaves of the port's error counts, answered, and logged when the error state changes (03 R53 to R56). -/
theorem State.canEvent_records (hp : p < 96) (ht : s.takes p = true) (hh : s.heard p e = true) {ev : CanEvent}
    (hc : ev.code.val < 7 ∨ s.canMode p e = 2) :
    let t := s.canEvent p e ev
    let code := s.eventCode p e ev
    let moves := s.canMode p e = 2 ∧ s.portCfg p 5 = 2
    Recorded s t p (s.frameGen p e) (s.pinTime p e) 5 (code + 16 * ev.field.val) (s.pinFlags ((if code ≤ 4 ∨ code = 6 then 8 else 0) +
        (if ev.own = true ∧ code ≤ 4 then (s.reach e.count).failedFlags p e else 0)))
      (if ev.field.val = 0 ∨ ev.field.val = 5 then 0 else ev.ident.toNat) (leBytes 2 (min ev.bitPos 65535) ++ (t.port p).counts ++ ev.bytes) ∧
    (t.port p).rec_ = (if moves then ev.rec_ else (s.port p).rec_) ∧ (t.port p).tec = (if moves then ev.tec else (s.port p).tec) ∧
    (t.port p).errState = (if moves then stateOfCode code (s.port p).errState else (s.port p).errState) ∧
    (code ≤ 4 → ev.xlData = false → s.canActive p e = true → t.out.getLast? = some (.canErrorFrame p)) ∧
    (7 ≤ code → Logged s t 1 0x2310 0 0) := by
  intro t code moves
  obtain ⟨s0, hs0⟩ : ∃ s0, s0 = s.reach e.count := ⟨_, rfl⟩
  have hreach : Poised p s s0 := hs0 ▸ s.reach_poised p _
  have hport0 : s0.port p = s.port p := hs0 ▸ port_of_ports (s.reach_does _).ports_eq p
  have hcode : s0.eventCode p e ev = code := by rw [State.eventCode, hreach.config.setting e]; rfl
  have hmore : (if ev.own && s0.eventCode p e ev ≤ 4 then s0.failedFlags p e else 0) = if ev.own = true ∧ code ≤ 4 then s0.failedFlags p e else 0 := by
    simp only [hcode, Bool.and_eq_true, decide_eq_true_eq]
  have ht' : t = (s0.recordEvent p e ev).concludeEvent p e ev code := by rw [← hcode, hs0]; exact State.canEvent_taken hh hc
  have h1 : Poised p s (s0.afterEvent p e ev) := hreach.trans (s0.afterEvent_poised p e ev)
  obtain ⟨hcls, hlanes, hports⟩ := (s0.recordEvent p e ev).concludeEvent_after p e ev code
  rw [← ht'] at hcls hlanes hports
  obtain ⟨d, a, hput⟩ : ∃ d a, t.port p = { (s0.afterEvent p e ev).port p with debt := d, debtAt := a } := by
    obtain ⟨d, a, h⟩ := h1.busEvent_port hp ht e (s0.eventCode p e ev) ev.field.val ev.ident.toNat ev.bitPos
      (if ev.own && s0.eventCode p e ev ≤ 4 then s0.failedFlags p e else 0) ev.bytes
    exact ⟨d, a, (port_of_ports hports p).trans h⟩
  have hafter := s0.afterEvent_port p e ev
  simp only [hport0, hcode, hreach.config.canMode, hreach.config.settings 5 (by decide)] at hafter
  have hcounts : (t.port p).counts = ((s0.afterEvent p e ev).port p).counts := by rw [hput]; rfl
  refine ⟨?_, by rw [hput, hafter], by rw [hput, hafter], by rw [hput, hafter], fun h4 hx ha => ?_, fun h7 => ?_⟩
  · rw [hcounts, ← hs0, ← hmore, ← hcode]
    exact (h1.busEvent_recorded hp ht ..).later hcls hlanes
  · have hactive : (s0.recordEvent p e ev).canActive p e = true := by
      rw [State.recordEvent, h1.busEvent_active hp ht, State.afterEvent_active (hcode ▸ h4), hreach.config.canActive (by rw [hport0]), ha]
    rw [ht']
    exact State.concludeEvent_error h4 hx hactive
  · rw [ht']
    exact State.concludeEvent_logged h7

/-- The recovery from bus-off clears the counts and is recorded and logged (03 R56). -/
theorem State.busOffRecover_records (hp : p < 96) (ht : s.takes p = true) (hh : s.heard p e = true) (hm : s.canMode p e = 2)
    (he : (s.port p).errState = 2) :
    let t := s.busOffRecover p e
    Recorded s t p (s.frameGen p e) (s.pinTime p e) 5 89 (s.pinFlags 0) 0 [0, 0, 0, 0] ∧ (t.port p).rec_ = 0 ∧ (t.port p).tec = 0 ∧
      (t.port p).errState = 0 ∧ Logged s t 1 0x2310 0 0 := by
  intro t
  obtain ⟨s1, hs1⟩ : ∃ s1, s1 = (s.reach e.count).setPort p { (s.reach e.count).port p with rec_ := 0, tec := 0, errState := 0 } := ⟨_, rfl⟩
  have h1 : Poised p s s1 := (s.reach_poised p e.count).trans (hs1 ▸ State.setPort_poised _ p _ _ _ _ _)
  have hport1 : s1.port p = { (s.reach e.count).port p with rec_ := 0, tec := 0, errState := 0 } := hs1 ▸ State.port_setPort ..
  have ht' : t = (s1.busEvent p e 9 5 0 0 0 []).logE 1 1 0x2310 0 0 := by
    show s.busOffRecover p e = _
    simp only [State.busOffRecover, hh, hm, he, decide_true, Bool.and_self, if_true, hs1]
  have hlog := (s1.busEvent p e 9 5 0 0 0 []).logE_does 1 1 0x2310 0 0
  obtain ⟨d, a, hput⟩ := h1.busEvent_port hp ht e 9 5 0 0 0 []
  have hrec := h1.busEvent_recorded hp ht e 9 5 0 0 0 []
  have hcounts : (s1.port p).counts = [0, 0] := by rw [hport1]; rfl
  have hput' : t.port p = { s1.port p with debt := d, debtAt := a } := by rw [ht', port_of_ports hlog.ports_eq, hput]
  rw [hcounts] at hrec
  refine ⟨?_, by rw [hput', hport1], by rw [hput', hport1], by rw [hput', hport1], fun _ => ?_⟩
  · rw [ht']
    exact hrec.later hlog.cls_eq (State.logX_beside ..).lanes
  · rw [ht']
    exact State.logE_last ..

end Sys2Proof.Machine
end

section
/-! Capture at MACs, low-speed ports, event pins and sample ports (03 R51, R52, R58 to R65), with the notices of a MAC's link. -/

namespace Sys2Proof.Machine

variable {s t u : State} {p : Nat} {e : Stamp}

/-! Notices. -/

/-- A notice of a port that takes records and is no link carrier (03 R51, 01 R18). -/
theorem State.notice_noticed (hp : p < 256) (ht : s.takes p = true) (hu : s.portUse p ≠ 3) (aux : Nat) (payload : List Byte) :
    Noticed s (s.notice p aux payload) p aux payload := by
  obtain ⟨-, -, -, hframe, hfull, -⟩ := State.takes_iff.1 ht
  rw [State.notice, if_neg hu]
  exact (State.putRaw_entered hp hframe hfull (kind := 13) (by decide) ..).recorded

theorem State.link_setPort (s : State) {x : Port} (hx : x.link = (s.port p).link) (q : Nat) : ((s.setPort p x).port q).link = (s.port q).link := by
  by_cases hq : q = p
  · rw [hq, State.port_setPort, hx]
  · rw [State.port_setPort_ne _ _ hq]

theorem State.endFrame_link (s : State) (p q : Nat) : ((s.endFrame p).port q).link = (s.port q).link := by
  unfold State.endFrame
  split
  · have h := ((State.rawWrap_does (s.setPort p { s.port p with inFrame := false }) p).step (State.sampleWrap_does _ p) rfl).ports_eq
    rw [port_of_ports h]
    exact s.link_setPort (by rfl) q
  · rfl

/-- A record leaves the links of the MACs alone, whether it enters or waits. -/
theorem State.putRaw_link (s : State) (p : Nat) (edge : Int) (r : List Byte) (q : Nat) : ((s.putRaw p edge r).port q).link = (s.port q).link := by
  unfold State.putRaw
  extract_lets busy post s1 q1 s2 cls s3 s4
  have h1 : (s1.port q).link = (s.port q).link := by
    show ((if busy && post then s.endFrame p else s).port q).link = _
    split
    · exact s.endFrame_link p q
    · rfl
  have h2 : (s2.port q).link = (s1.port q).link := by
    show ((if s1.stagingFull then s1.setPort p { s1.port p with buf := (s1.port p).buf ++ [r] } else s1.stage (0x100 + p) r).port q).link = _
    split
    · exact s1.link_setPort (by rfl) q
    · exact congrArg Port.link (port_of_ports (s1.stage_does ..).ports_eq q)
  have h3 : Does [.cls] s2 s3 := Does.ite (fun _ => Does.refl _ _) fun _ => Does.set_cls _ _
  have h4 : Does [.cls, .od, .fab, .out, .rep, .net] s2 s4 :=
    ((h3.weaken rfl).step (s3.exportRecord_does r) rfl).step (State.mirrorForward_does ..) rfl
  have hlink : (s4.port q).link = (s.port q).link := by rw [port_of_ports h4.ports_eq, h2, h1]
  split
  · exact (s4.endFrame_link p q).trans hlink
  · exact hlink

theorem State.notice_link (s : State) (p aux : Nat) (payload : List Byte) (q : Nat) : ((s.notice p aux payload).port q).link = (s.port q).link := by
  unfold State.notice
  split
  · rfl
  · exact s.putRaw_link ..

/-! The link of a MAC (03 R60). -/

/-- A MAC's port with its link set or lost, whatever else becomes of it. -/
def State.linked (s : State) (p : Nat) (l : Option (Fin 6)) : State := s.setPort p { s.port p with link := l }

theorem State.linked_takes (l : Option (Fin 6)) (ht : s.takes p = true) : (s.linked p l).takes p = true := by
  rw [State.takes_iff] at ht ⊢
  rw [State.linked, State.port_setPort]
  exact ht

/-- An enabled port tells of its link; the link itself is as it was set. -/
theorem State.linked_tells (s : State) (p : Nat) (l : Option (Fin 6)) (aux : Nat) (payload : List Byte) :
    let t := if ((s.linked p l).port p).enabled then (s.linked p l).notice p aux payload else s.linked p l
    (t.port p).link = l ∧
    (p < 256 → s.takes p = true → (s.port p).enabled = true → s.portUse p ≠ 3 → Noticed s t p aux payload) := by
  intro t
  have hport : (s.linked p l).port p = { s.port p with link := l } := State.port_setPort ..
  have henabled : ((s.linked p l).port p).enabled = (s.port p).enabled := by rw [hport]
  have hlink : ((s.linked p l).port p).link = l := by rw [hport]
  refine ⟨?_, fun hp ht hen hu => ?_⟩
  · show ((if ((s.linked p l).port p).enabled then (s.linked p l).notice p aux payload else s.linked p l).port p).link = l
    split
    · rw [State.notice_link, hlink]
    · exact hlink
  · show Noticed s (if ((s.linked p l).port p).enabled then (s.linked p l).notice p aux payload else s.linked p l) p aux payload
    rw [if_pos (henabled.trans hen)]
    exact State.notice_noticed hp (State.linked_takes l ht) hu aux payload

/-- The rate of a link that comes up: the fixed one where the profile sets it (17 R382). -/
def State.linkRate (s : State) (p : Nat) (rate : Fin 6) : Fin 6 :=
  if h : 1 ≤ s.portCfg p 5 ∧ s.portCfg p 5 ≤ 6 then ⟨s.portCfg p 5 - 1, by omega⟩ else rate

theorem State.linkRate_val (s : State) (p : Nat) (rate : Fin 6) :
    (s.linkRate p rate).val = if 1 ≤ s.portCfg p 5 ∧ s.portCfg p 5 ≤ 6 then s.portCfg p 5 - 1 else rate.val := by
  unfold State.linkRate
  split <;> rfl

theorem State.linkUp_eq (s : State) (p : Nat) (rate : Fin 6) :
    s.linkUp p rate = if ((s.linked p (s.linkRate p rate)).port p).enabled then
      (s.linked p (s.linkRate p rate)).notice p 2 [BitVec.ofNat 8 (s.linkRate p rate).val] else s.linked p (s.linkRate p rate) := rfl

theorem State.linkDown_eq (h : (s.port p).link.isSome = true) :
    s.linkDown p = if ((s.linked p none).port p).enabled then (s.linked p none).notice p 3 [] else s.linked p none := by
  obtain ⟨r, hr⟩ := Option.isSome_iff_exists.1 h
  simp only [State.linkDown, hr]
  rfl

/-- A frame at a MAC whose link is up and that captures (03 R59, R60). -/
theorem State.ethReceive_records (hp : p < 256) (ht : s.takes p = true) (hh : s.heard p e = true) {r : Fin 6} (hr : (s.port p).link = some r)
    (hu : s.portUse p ≠ 3) (f : EthFrame) :
    Recorded s (s.ethReceive p e f) p (s.frameGen p e) (s.pinTime p e) 6 ((ethTags (ethKept f) 12 3).1 + 4 * r.val) (s.pinFlags (ethFlags f))
      (min f.wireLen 65535 * 65536 + ethTci (ethKept f)) (ethKept f) := by
  have huse : (s.portUse p != 3) = true := bne_iff_ne.2 hu
  simp only [State.ethReceive, hr, hh, huse, Bool.and_self, if_true]
  exact (s.reach_poised p _).acceptPin_recorded hp ht (by decide) ..

/-! Low-speed ports (03 R61 to R63). -/

theorem State.sentReceive_records (hp : p < 256) (ht : s.takes p = true) (ho : s.lspOn p e 0 = true) (f : SentFrame) :
    Recorded s (s.sentReceive p e f) p (s.frameGen p e) (s.pinTime p e) 7 f.kind.val
      (s.pinFlags ((if f.crcBad then 16 else 0) + (if f.pulseBad then 64 else 0))) f.clockPs (sentPayload f) := by
  rw [State.sentReceive, if_pos ho]
  exact (s.reach_poised p _).acceptPin_recorded hp ht (by decide) ..

theorem State.psi5Receive_records (hp : p < 256) (ht : s.takes p = true) (ho : s.lspOn p e 1 = true) (f : Psi5Frame) :
    Recorded s (s.psi5Receive p e f) p (s.frameGen p e) (s.pinTime p e) 8 (f.nbits.val + 32 * f.slot.val)
      (s.pinFlags ((if f.checkBad then 16 else 0) + (if f.manchesterBad then 64 else 0)))
      (if s.setting p e 8 % 2 = 1 then f.syncTicks.toNat else 0) (leBytes 4 f.data.toNat ++ [f.check]) := by
  have hreach := s.reach_poised p e.count
  rw [State.psi5Receive, if_pos ho, ← hreach.config.setting e (sub := 8)]
  exact hreach.acceptPin_recorded hp ht (by decide) ..

theorem State.pwmReceive_records (hp : p < 256) (ht : s.takes p = true) (ho : s.lspOn p e 5 = true) (hset : s.setting p e 6 = 0)
    (period high : BitVec 32) :
    Recorded s (s.pwmReceive p e period high) p (s.frameGen p e) (s.pinTime p e) 11 0 (s.pinFlags 0) 0
      (leBytes 4 period.toNat ++ leBytes 4 high.toNat) := by
  simp only [State.pwmReceive, ho, hset, decide_true, Bool.and_self, if_true]
  exact (s.reach_poised p _).acceptPin_recorded hp ht (by decide) ..

/-! LIN (03 R62, R63, 06 R123). -/

theorem State.reach_linHeader (s : State) (c p : Nat) (f : LinFrame) : (s.reach c).linHeader p f = s.linHeader p f := by
  have htx := tx_of_rep (s.reach_does c).rep_eq p
  have hsends : ∀ r, (s.reach c).linSends p r = s.linSends p r := fun r => by
    rw [State.linSends, State.linSends, State.repEntry, State.repEntry, State.cfg, State.cfg, (s.reach_does c).od_eq]
  simp only [State.linHeader, htx, hsends]

theorem State.reach_linAnswer (s : State) (c p : Nat) (e : Stamp) (f : LinFrame) : (s.reach c).linAnswer p e f = s.linAnswer p e f := by
  have hconfig := (s.reach_poised p c).config
  simp only [State.linAnswer, tx_of_rep (s.reach_does c).rep_eq p, hconfig.setting e (sub := 5), hconfig.setting e (sub := 9)]

theorem State.reach_linAux (s : State) (c p : Nat) (e : Stamp) (f : LinFrame) (own : Bool) : (s.reach c).linAux p e f own = s.linAux p e f own := by
  rw [State.linAux, State.linAux, (s.reach_poised p c).config.setting e]

/-- AUX of a LIN frame, with the bits of an own response (03 R70). -/
theorem State.linAux_eq (s : State) (p : Nat) (e : Stamp) (f : LinFrame) {α : Type} (own : Option α) :
    s.linAux p e f own.isSome =
      bits (s.setting p e 9) (f.pid.toNat % 64) 1 + 2 * bit01 (f.resp.isNone && own.isNone) + 4 * bit01 f.headerTx + 8 * bit01 own.isSome := by
  cases own <;> rfl

/-- A header to which the port itself responds: the stored response is sent, and recorded with TX. -/
theorem State.linReceive_answer (hp : p < 0xC0) (ht : s.takes p = true) (ho : (s.lspOn p e 2 || s.lspOn p e 3) = true) {f : LinFrame}
    (hh : s.linHeader p f = none) {b : TxFault} {l : List Byte} {n : Nat} (ha : s.linAnswer p e f = some (b, l, n)) :
    Recorded s (s.linReceive p e f) p (s.frameGen p e) (s.pinTime p e) 9 (s.linAux p e f true) (s.pinFlags (256 + n)) f.pid.toNat l ∧
    Output.linResponse p b l ∈ (s.linReceive p e f).out := by
  obtain ⟨s0, hs0⟩ : ∃ s0, s0 = s.reach e.count := ⟨_, rfl⟩
  obtain ⟨s1, hs1⟩ : ∃ s1, s1 = (s0.send (.linResponse p b l)).bump 0x2401 4 := ⟨_, rfl⟩
  have h1 : Poised p s s1 := by
    rw [hs1, hs0]
    exact ((s.reach_poised p _).trans (State.send_poised _ p _)).trans (State.bump_poised _ hp (by decide) (by decide))
  have heq : s.linReceive p e f = s1.acceptPin p e 9 (s.linAux p e f true) (flTx + n) f.pid.toNat l := by
    rw [State.linReceive, if_pos ho]
    simp only [State.reach_linHeader, hh, State.reach_linAnswer, ha, State.reach_linAux, hs0, hs1]
  rw [heq]
  refine ⟨h1.acceptPin_recorded (hp.trans (by decide)) ht (by decide) .., ?_⟩
  have hsent : (s0.send (.linResponse p b l)).out <+: (s1.acceptPin p e 9 (s.linAux p e f true) (flTx + n) f.pid.toNat l).out :=
    (hs1 ▸ ((s0.send (.linResponse p b l)).bump_does 0x2401 4).sent).trans (s1.acceptPin_does ..).sent
  exact hsent.subset (List.mem_append_right _ (List.mem_singleton_self _))

/-- A LIN frame of others. -/
theorem State.linReceive_frame (hp : p < 256) (ht : s.takes p = true) (ho : (s.lspOn p e 2 || s.lspOn p e 3) = true) {f : LinFrame}
    (hh : s.linHeader p f = none) (ha : s.linAnswer p e f = none) :
    Recorded s (s.linReceive p e f) p (s.frameGen p e) (s.pinTime p e) 9 (s.linAux p e f false)
      (s.pinFlags ((if f.sumBad then 16 else 0) + (if f.framingBad then 64 else 0) + (if f.headerTx then 256 else 0))) f.pid.toNat (f.resp.getD []) := by
  have heq : s.linReceive p e f = (s.reach e.count).acceptPin p e 9 (s.linAux p e f false) (linFlags f + (if f.headerTx then flTx else 0)) f.pid.toNat
      (f.resp.getD []) := by
    rw [State.linReceive, if_pos ho]
    simp only [State.reach_linHeader, hh, State.reach_linAnswer, ha, State.reach_linAux]
  rw [heq]
  exact (s.reach_poised p _).acceptPin_recorded hp ht (by decide) ..

/-- What becomes of the record of a sent frame leaves the sendings begun as they are. -/
theorem State.recordSent_started (hp : p < 0xC0) (ht : s.takes p = true) (w : Sending) (e : Stamp) (aux more : Nat) (payload : List Byte) :
    ((s.recordSent p w e aux more payload).tx p).started = (s.tx p).started := by
  unfold State.recordSent
  extract_lets c late s2 s3 t0 on
  have hbump : ∀ (x : State) (sub : Nat), sub < 256 → Poised p x (x.bump 0x2401 sub) ∧ Does [.od] x (x.bump 0x2401 sub) := fun x sub hs =>
    ⟨x.bump_poised hp hs (by decide), x.bump_does ..⟩
  have h2 : Poised p s s2 ∧ Does [.od] s s2 := by
    show Poised p s (if w.own then s else s.bump 0x2401 4) ∧ Does [.od] s (if w.own then s else s.bump 0x2401 4)
    split
    · exact ⟨Poised.refl p s, Does.refl _ _⟩
    · exact hbump s 4 (by decide)
  have h3 : Poised p s2 s3 ∧ Does [.od] s2 s3 := by
    show Poised p s2 (if late then s2.bump 0x2401 5 else s2) ∧ Does [.od] s2 (if late then s2.bump 0x2401 5 else s2)
    split
    · exact hbump s2 5 (by decide)
    · exact ⟨Poised.refl p s2, Does.refl _ _⟩
  have hrep : s3.tx p = s.tx p := tx_of_rep (h3.2.rep_eq.trans h2.2.rep_eq) p
  split
  · rw [← hrep]
    exact (State.accept_entered (hp.trans (by decide)) ((h2.1.trans h3.1).takes ht) (Nat.mod_lt _ (by decide)) ..).started p
  · rw [hrep]

/-- A response to a header that this device sent completes its sending (06 R123). -/
theorem State.linReceive_header (hp : p < 0xC0) (ht : s.takes p = true) (ho : (s.lspOn p e 2 || s.lspOn p e 3) = true) {f : LinFrame} {w : Sending}
    (hh : s.linHeader p f = some w) : ((s.linReceive p e f).tx p).started = (s.tx p).started.tail := by
  obtain ⟨s0, hs0⟩ : ∃ s0, s0 = s.reach e.count := ⟨_, rfl⟩
  obtain ⟨s1, hs1⟩ : ∃ s1, s1 = s0.setTx p { s0.tx p with started := (s0.tx p).started.tail } := ⟨_, rfl⟩
  have htx : (s1.tx p).started = (s.tx p).started.tail := by
    rw [hs1, State.tx_setTx, hs0, tx_of_rep (s.reach_does _).rep_eq]
  have h1 : Poised p s s1 := (hs0 ▸ s.reach_poised p e.count : Poised p s s0).trans (hs1 ▸ s0.setTx_poised p _)
  have heq : s.linReceive p e f = s1.recordSent p w e (s.linAux p e f false) (linFlags f) (f.resp.getD []) := by
    rw [State.linReceive, if_pos ho]
    simp only [State.reach_linHeader, hh, State.reach_linAux, hs1, hs0]
  rw [heq, State.recordSent_started hp (h1.takes ht), htx]

/-! Levels (03 R64) and sample ports (03 R65). -/

/-- An accepted level becomes the present one, and its edge is recorded where the port captures edges of its direction. -/
theorem State.edgeAccept_records (hp : p < 256) (ht : s.takes p = true) (hk : portKind p = .evt ∨ portKind p = .lsp) {b : Bool}
    (hl : (s.port p).level ≠ b) :
    ((s.edgeAccept p e b).port p).level = b ∧
    (s.edgeOn p e = true → s.edgeSelected p e b = true →
      Recorded s (s.edgeAccept p e b) p (s.frameGen p e) (s.pinTime p e) 10 (bit01 b) (s.pinFlags 0) 0 []) := by
  obtain ⟨s0, hs0⟩ : ∃ s0, s0 = s.reach (e.count + s.filterTicks p e) := ⟨_, rfl⟩
  obtain ⟨s1, hs1⟩ : ∃ s1, s1 = s0.setPort p { s.port p with level := b } := ⟨_, rfl⟩
  have hport0 : s0.port p = s.port p := hs0 ▸ port_of_ports (s.reach_does _).ports_eq p
  have h1 : Poised p s s1 := by
    rw [hs1, ← hport0]
    exact (hs0 ▸ s.reach_poised p _ : Poised p s s0).trans (s0.setPort_poised p b _ _ _ _)
  have hlevel : (s1.port p).level = b := by rw [hs1, State.port_setPort]
  have hgo : ((decide (portKind p = .evt) || decide (portKind p = .lsp)) && (s.port p).level != b) = true := by
    rw [Bool.and_eq_true, bne_iff_ne]
    exact ⟨by simpa using hk, hl⟩
  have heq : s.edgeAccept p e b = if s.edgeOn p e && s.edgeSelected p e b then s1.acceptPin p e 10 (bit01 b) 0 0 [] else s1 := by
    rw [← h1.config.edgeOn, ← h1.config.edgeSelected, hs1, hs0]
    simp only [State.edgeAccept, hgo, if_true]
  rw [heq]
  refine ⟨?_, fun hon hsel => ?_⟩
  · split
    · obtain ⟨d, a, hport⟩ := (State.acceptPin_entered hp (h1.takes ht) (kind := 10) (by decide) e (bit01 b) 0 0 []).port
      rw [hport]
      exact hlevel
    · exact hlevel
  · rw [if_pos (by rw [hon, hsel, Bool.and_self])]
    exact h1.acceptPin_recorded hp ht (by decide) ..

/-- A sample-port frame is numbered and recorded. -/
theorem State.smpReceive_records (hp : p < 256) (ht : s.takes p = true) (hh : s.heard p e = true) (l : List (List (BitVec 32))) :
    ((s.smpReceive p e l).port p).frames = (s.port p).frames + 1 ∧
    Recorded s (s.smpReceive p e l) p (s.frameGen p e) (s.pinTime p e) 12 (s.port p).frames.toNat (s.pinFlags 0) 0
      (smpPayload (s.setting p e 5) (s.setting p e 6) l) := by
  obtain ⟨s0, hs0⟩ : ∃ s0, s0 = s.reach e.count := ⟨_, rfl⟩
  obtain ⟨s1, hs1⟩ : ∃ s1, s1 = s0.setPort p { s.port p with frames := (s.port p).frames + 1 } := ⟨_, rfl⟩
  have hport0 : s0.port p = s.port p := hs0 ▸ port_of_ports (s.reach_does _).ports_eq p
  have h1 : Poised p s s1 := by
    rw [hs1, ← hport0]
    exact (hs0 ▸ s.reach_poised p _ : Poised p s s0).trans (s0.setPort_poised p _ _ _ _ _)
  have hframes : (s1.port p).frames = (s.port p).frames + 1 := by rw [hs1, State.port_setPort]
  have heq : s.smpReceive p e l =
      s1.acceptPin p e 12 (s.port p).frames.toNat 0 0 (smpPayload (s.setting p e 5) (s.setting p e 6) l) := by
    rw [← h1.config.setting e (sub := 5), ← h1.config.setting e (sub := 6), State.smpReceive, if_pos hh, hs1, hs0]
  rw [heq]
  obtain ⟨d, a, hport⟩ := (State.acceptPin_entered hp (h1.takes ht) (kind := 12) (by decide) e (s.port p).frames.toNat 0 0
    (smpPayload (s.setting p e 5) (s.setting p e 6) l)).port
  exact ⟨by rw [hport]; exact hframes, h1.acceptPin_recorded hp ht (by decide) ..⟩

end Sys2Proof.Machine
end

section
/-! Every capture command. -/

namespace Sys2Proof.Machine

theorem macPort_lt (m : Fin 16) : macPort m.val < 0xC0 := by simp only [macPort]; omega

theorem lspPort_lt (l : Fin 32) : lspPort l.val < 0xC0 := by simp only [lspPort]; omega

theorem smpPort_lt (k : Fin 8) : smpPort k.val < 0xC0 := by simp only [smpPort]; omega

/-- Settles O38: each command is one operation of its kind of port, and what that leaves is the operation's lemma. -/
theorem captureCompletes : Obligations.CaptureCompletes := by
  refine ⟨fun s i d ht hh => ⟨fun f hf => ?_, fun f hf hx => ?_, fun ev hc => ?_, fun hm he => ?_⟩,
    fun s m => ⟨fun d f r ht hh hr hu => ?_, fun r => ?_, fun hl => ?_⟩,
    fun s d => ⟨fun i ht => ⟨fun ho f => ?_, fun ho f => ?_, fun ho f => ⟨fun hn => ?_, fun w hw => ?_⟩, fun ho hset w h => ?_⟩,
      fun p b ht hk hl => ?_, fun i l ht hh => ?_⟩⟩
  · exact ⟨_, rfl, State.canReceive_records i.isLt ht hh hf⟩
  · have hreach := s.reach_poised i.val d.count
    have hport : (s.reach d.count).port i.val = s.port i.val := port_of_ports (s.reach_does _).ports_eq _
    refine ⟨s.canReceive i.val d f, ((s.reach d.count).draw 1).1, rfl, fun h13 => ?_, fun h13 => ?_⟩
    · rw [State.canReceive_xl hh hf hx, ← hport]
      exact hreach.xlRefused_exception i.isLt ht h13 _
    · have h := hreach.xlRefused_error i.isLt ht h13 (canId f)
      rw [hport, hreach.config.canActive (by rw [hport]), hreach.config.settings 5 (by decide)] at h
      rw [State.canReceive_xl hh hf hx]
      exact h
  · have h := State.canEvent_records i.isLt ht hh hc
    rw [State.eventCode_eq] at h
    exact ⟨_, rfl, h⟩
  · exact ⟨_, rfl, State.busOffRecover_records i.isLt ht hh hm he⟩
  · exact ⟨_, rfl, State.ethReceive_records ((macPort_lt m).trans (by decide)) ht hh hr hu f⟩
  · obtain ⟨hlink, hnotice⟩ := s.linked_tells (macPort m.val) (s.linkRate (macPort m.val) r) 2 [BitVec.ofNat 8 (s.linkRate (macPort m.val) r).val]
    rw [← State.linkUp_eq] at hlink hnotice
    exact ⟨_, s.linkRate (macPort m.val) r, rfl, hlink, s.linkRate_val .., hnotice ((macPort_lt m).trans (by decide))⟩
  · obtain ⟨hlink, hnotice⟩ := s.linked_tells (macPort m.val) none 3 []
    rw [← State.linkDown_eq hl] at hlink hnotice
    exact ⟨_, rfl, hlink, hnotice ((macPort_lt m).trans (by decide))⟩
  · exact ⟨_, rfl, State.sentReceive_records ((lspPort_lt i).trans (by decide)) ht ho f⟩
  · exact ⟨_, rfl, State.psi5Receive_records ((lspPort_lt i).trans (by decide)) ht ho f⟩
  · have hon : (s.lspOn (lspPort i.val) d 2 || s.lspOn (lspPort i.val) d 3) = true := Bool.or_eq_true_iff.2 ho
    refine ⟨_, rfl, fun b l n ha => ?_, fun ha => ?_⟩
    · rw [← State.linAux_eq, ha]
      exact State.linReceive_answer (lspPort_lt i) ht hon hn ha
    · rw [← State.linAux_eq, ha]
      exact State.linReceive_frame ((lspPort_lt i).trans (by decide)) ht hon hn ha
  · exact ⟨_, rfl, State.linReceive_header (lspPort_lt i) ht (Bool.or_eq_true_iff.2 ho) hw⟩
  · exact ⟨_, rfl, State.pwmReceive_records ((lspPort_lt i).trans (by decide)) ht ho hset w h⟩
  · exact ⟨_, rfl, State.edgeAccept_records p.isLt ht hk hl⟩
  · exact ⟨_, rfl, State.smpReceive_records ((smpPort_lt i).trans (by decide)) ht hh l⟩

end Sys2Proof.Machine
end

section
/-! The classifier: a record that reads sound table entries is looked up, and counted as a hit or a miss (04 R73, R74, R82). -/

namespace Sys2Proof.Machine

variable {s t : State}

/-! Counters. -/

theorem State.bump_counted (s : State) (idx sub : Nat) : Counted s (s.bump idx sub) idx sub := State.cfg_put ..

theorem State.bumpBy_cfg_ne (s : State) {idx sub i b : Nat} (bytes n : Nat) (hsub : sub < 256) (hb : b < 256) (hi : i ≠ idx) :
    (s.bumpBy idx sub bytes n).cfg i b = s.cfg i b := by
  unfold State.bumpBy
  split
  · rfl
  · exact State.cfg_put_ne _ _ hsub hb fun e => hi (congrArg Prod.fst e)

theorem State.bump_cfg_ne (s : State) {idx sub i b : Nat} (hsub : sub < 256) (hb : b < 256) (hi : i ≠ idx) : (s.bump idx sub).cfg i b = s.cfg i b :=
  s.bumpBy_cfg_ne 4 1 hsub hb hi

theorem State.softRead_cfg (s : State) (r : SideRow) {i b : Nat} (hb : b < 256) (hi : i ≠ 0x2940) : (s.softRead r).cfg i b = s.cfg i b :=
  show (s.bump 0x2940 1).cfg i b = _ from s.bump_cfg_ne (by decide) hb hi

/-- A read of rows counts in the memory's object 0x2940 alone (14 R307, R323). -/
theorem State.readSides_cfg (s : State) (f : SideRow → Bool) {i b : Nat} (hb : b < 256) (hi : i ≠ 0x2940) : (s.readSides f).cfg i b = s.cfg i b := by
  have hsoft : ∀ (rows : List SideRow) (t : State), (rows.foldl State.softRead t).cfg i b = t.cfg i b := fun rows => by
    induction rows with
    | nil => exact fun t => rfl
    | cons r rows ih => exact fun t => (ih (t.softRead r)).trans (t.softRead_cfg r hb hi)
  exact (State.bumpBy_cfg_ne (sub := 4) _ 2 _ (by decide) hb hi).trans (hsoft _ s)

/-- What a counter shows in a state counts from any state with the same value. -/
theorem Counted.of_cfg {u : State} {idx sub : Nat} (h : Counted t u idx sub) (hst : t.cfg idx sub = s.cfg idx sub) : Counted s u idx sub := by
  rw [Counted, h, hst]

theorem Counted.later {u : State} {idx sub : Nat} (h : Counted s t idx sub) (hod : u.od = t.od) : Counted s u idx sub := by
  rw [Counted, State.cfg, hod]
  exact h

/-! One record. -/

/-- The place in the Sifter queue of a record that hits an entry without multiplexor (04 R74, R82). -/
def State.queued (s : State) (c : ClassIn) (e : Nat) : SiftIn :=
  ⟨c.bytes, baseByte c.bytes (bits e 50 14), if bits e 84 1 = 1 then some (bits e 79 5 * 32 + bits e 74 5) else none, runOf (s.cls.bankAt c.edge) e,
    s.cls.swaps - (s.cls.after c.edge).length⟩

theorem State.lookUp_miss {c : ClassIn} {k : Nat} (hp : (s.cls.bankAt c.edge).probe c.port k 0 false = none) : s.lookUp c k = s.bump 0x2301 2 := by
  simp only [State.lookUp, hp]

/-- An entry without multiplexor gives the common run alone. -/
theorem muxRun_unmultiplexed {e : Nat} (h : bits e 17 5 = 0) (b : Bank) (port key : Nat) (r : List Byte) : muxRun b port key e r = ([], false) := if_pos h

/-- A hit with no multiplexor counts as one, and the frame joins the Sifter queue. -/
theorem State.lookUp_hit {c : ClassIn} {k e : Nat} (hp : (s.cls.bankAt c.edge).probe c.port k 0 false = some e)
    (hc : bits (rawFlags c.bytes) 4 1 = 0 ∨ bits e 85 1 = 1) (hm : bits e 17 5 = 0) :
    Counted s (s.lookUp c k) 0x2301 1 ∧ (s.lookUp c k).cls = { s.cls with siftq := s.cls.siftq ++ [s.queued c e] } := by
  have hbarred : (decide (bits (rawFlags c.bytes) 4 1 = 1) && decide (bits e 85 1 = 0)) = false := by
    rcases hc with h | h <;> simp [h]
  obtain ⟨u, hu⟩ : ∃ u, u = s.bump 0x2301 1 := ⟨_, rfl⟩
  obtain ⟨v, hv⟩ : ∃ v, v = if u.cls.siftq.isEmpty then u.healSides isFrameQueue else u := ⟨_, rfl⟩
  have hcount : Counted s u 0x2301 1 := hu ▸ s.bump_counted _ _
  have hucls : u.cls = s.cls := hu ▸ (s.bump_does ..).cls_eq
  have hheal : Does [.side] u v := hv ▸ Does.ite (fun _ => u.healSides_does _) fun _ => Does.refl _ _
  have hvcls : v.cls = s.cls := hheal.cls_eq.trans hucls
  have hlook : s.lookUp c k = { v with cls := { v.cls with siftq := v.cls.siftq ++ [s.queued c e] } } := by
    simp only [State.lookUp, hp, hbarred, muxRun_unmultiplexed hm, List.append_nil, Bool.false_eq_true, if_false]
    rw [hv, hu]
    rfl
  rw [hlook]
  exact ⟨hcount.later hheal.od_eq, by rw [hvcls]⟩

/-- A record can be looked up under a key: there is room in the Sifter queue, no error bars it, and the table entries that it reads are sound (04 R72 to
R74, R84). -/
structure State.Classifiable (s : State) (c : ClassIn) (k : Nat) : Prop where
  room : s.cls.siftq.length < 8192
  err : bits (rawFlags c.bytes) 3 1 = 0
  code : bits (rawFlags c.bytes) 6 1 = 0
  key : s.keyId c.port c.edge c.bytes = some k
  sound : s.tableBad c k = none

theorem State.classifyOne_sound {c : ClassIn} {k : Nat} (h : s.Classifiable c k) : s.classifyOne c = (s.readSides (s.tableRows c k).contains).lookUp c k := by
  simp [State.classifyOne, Nat.not_le.2 h.room, h.err, h.code, h.key, h.sound]

/-! The oldest record of a port. -/

/-- The state after a port's oldest record has left the classifier's queue. -/
def State.recordTaken (s : State) (l : List ClassIn) : State := { s with cls := { s.cls with inq := l } }

/-- Such a record is looked up as things stood, but for what the reads of the entries counted. -/
theorem State.classifyPort_sound {p k : Nat} {c : ClassIn} {l : List ClassIn} (htake : takePort p s.cls.inq = some (c, l))
    (h : s.Classifiable c k) :
    ∃ u : State, s.classifyPort p = (u.lookUp c k).sampleWrap p ∧ u.cls = { s.cls with inq := l } ∧ u.cfg 0x2301 1 = s.cfg 0x2301 1 ∧
      u.cfg 0x2301 2 = s.cfg 0x2301 2 := by
  have hport : s.classifyPort p = ((s.recordTaken l).classifyOne c).sampleWrap p := by
    rw [State.classifyPort, htake]
    rfl
  have hone := State.classifyOne_sound (s := s.recordTaken l) ⟨h.room, h.err, h.code, h.key, h.sound⟩
  exact ⟨_, by rw [hport, hone], ((s.recordTaken l).readSides_does _).cls_eq, (s.recordTaken l).readSides_cfg _ (by decide) (by decide),
    (s.recordTaken l).readSides_cfg _ (by decide) (by decide)⟩

theorem State.queued_of_cls {u : State} {l : List ClassIn} (h : u.cls = { s.cls with inq := l }) (c : ClassIn) (e : Nat) : u.queued c e = s.queued c e := by
  rw [State.queued, h]
  rfl

/-- A hit takes the record from the classifier's queue and puts its frame behind the Sifter's. -/
theorem State.classifyPort_hit {p k e : Nat} {c : ClassIn} {l : List ClassIn} (htake : takePort p s.cls.inq = some (c, l))
    (h : s.Classifiable c k) (hp : (s.cls.bankAt c.edge).probe c.port k 0 false = some e)
    (hc : bits (rawFlags c.bytes) 4 1 = 0 ∨ bits e 85 1 = 1) (hm : bits e 17 5 = 0) :
    Counted s (s.classifyPort p) 0x2301 1 ∧ (s.classifyPort p).cls = { s.cls with inq := l, siftq := s.cls.siftq ++ [s.queued c e] } := by
  obtain ⟨u, hport, hcls, hhits, -⟩ := State.classifyPort_sound htake h
  have hwrap := (u.lookUp c k).sampleWrap_does p
  obtain ⟨hcount, hqueue⟩ := State.lookUp_hit (s := u) (by rw [hcls]; exact hp) hc hm
  rw [State.queued_of_cls hcls, hcls] at hqueue
  rw [hport]
  exact ⟨(hcount.of_cfg hhits).later hwrap.od_eq, hwrap.cls_eq.trans hqueue⟩

/-- A miss takes the record from the classifier's queue, and that is all. -/
theorem State.classifyPort_miss {p k : Nat} {c : ClassIn} {l : List ClassIn} (htake : takePort p s.cls.inq = some (c, l))
    (h : s.Classifiable c k) (hp : (s.cls.bankAt c.edge).probe c.port k 0 false = none) :
    Counted s (s.classifyPort p) 0x2301 2 ∧ (s.classifyPort p).cls = { s.cls with inq := l } := by
  obtain ⟨u, hport, hcls, -, hmisses⟩ := State.classifyPort_sound htake h
  have hwrap := (u.lookUp c k).sampleWrap_does p
  have hlook : u.lookUp c k = u.bump 0x2301 2 := State.lookUp_miss (by rw [hcls]; exact hp)
  rw [hlook] at hport hwrap
  rw [hport]
  exact ⟨((u.bump_counted _ _).of_cfg hmisses).later hwrap.od_eq, hwrap.cls_eq.trans ((u.bump_does ..).cls_eq.trans hcls)⟩

end Sys2Proof.Machine
end

section
/-! The Sifter: what a sample takes to its engine and into the session, and what an unchanged one leaves (04 R79 to R83). -/

namespace Sys2Proof.Machine

variable {s t u : State}

/-! Delivery to an engine (04 R83). -/

/-- Delivery touches no more of the classifier than the drops to be marked. -/
theorem State.deliver_cls (s : State) (g kind : Nat) (r : List Byte) : ∃ d, (s.deliver g kind r).cls = { s.cls with dropsOwed := d } := by
  unfold State.deliver
  split
  · exact ⟨_, (State.intoArrival_does _ _).cls_eq⟩
  · exact ⟨_, ((State.bump_does _ _ _).step (State.podDrop_does _ _) rfl).cls_eq⟩

/-- What is dropped is counted in 0x2301:06 and by its pod (0x2A01 to 0x2A20); no other object changes. -/
theorem State.deliver_cfg (s : State) (g kind : Nat) (r : List Byte) {i b : Nat} (hb : b < 256) (hi : i ≠ 0x2301) (hpod : i < 0x2A01) :
    (s.deliver g kind r).cfg i b = s.cfg i b := by
  unfold State.deliver
  split
  · rw [State.cfg, (State.intoArrival_does _ _).od_eq]
    rfl
  · exact (State.bump_cfg_ne _ (by decide) hb (by omega)).trans (State.bump_cfg_ne _ (by decide) hb hi)

/-- With room in the router and no drop to be marked, the record joins its pod's arrival buffer as it is. -/
theorem State.deliver_arrives {g kind : Nat} {r : List Byte} (hroom : s.routerRoom g r = true) (hdrops : s.cls.dropsOwed.contains g = false) :
    ((s.deliver g kind r).pod (g / 32)).arrival = (s.pod (g / 32)).arrival ++ [⟨g, kind, r⟩] := by
  simp only [State.deliver, hroom, if_true, hdrops, Bool.false_eq_true, if_false]
  exact congrArg Pod.arrival (State.pod_setPod ..)

/-! Entry into a sample lane (05 R92, R111). -/

theorem State.closeBlock_wrapDue (s : State) (l : Nat) : ((s.closeBlock l).lane l).wrapDue = (s.lane l).wrapDue := by
  unfold State.closeBlock
  split
  · rfl
  · extract_lets p x s1 store s2
    have h2 : s2.store.lanes = s1.store.lanes := by
      show (if _ then _ else s1 : State).store.lanes = _
      split <;> rfl
    have hlane (v : State) (h : v.store.lanes = s1.store.lanes) : v.lane l = s1.lane l := by rw [State.lane, h]; rfl
    rw [hlane _ ((s2.addBlock_lanes _).trans h2)]
    show ((s.setLane l { s.lane l with block := none }).lane l).wrapDue = _
    rw [State.lane_setLane]

/-- A record appended to a lane leaves the wrap that the lane owes, unless it is a vector record. -/
theorem State.laneAppend_wrapDue (s : State) (l : Nat) {r : List Byte} (hr : recType r ≠ 4) :
    ((s.laneAppend l r).lane l).wrapDue = (s.lane l).wrapDue := by
  unfold State.laneAppend
  extract_lets s1 s2
  have h1 : (s1.lane l).wrapDue = (s.lane l).wrapDue := by
    show ((match (s.lane l).block with | some b => if blockFull l b r then s.closeBlock l else s | none => s).lane l).wrapDue = _
    split
    · split
      · exact s.closeBlock_wrapDue l
      · rfl
    · rfl
  rw [if_neg hr]
  exact (congrArg Lane.wrapDue (State.lane_setLane ..)).trans h1

/-- A sample lane that overload does not stop takes its record, which then goes to the link's selection. -/
theorem State.stage_sample {p : Nat} (hp : p < 256) (r : List Byte) (hrec : s.recording = true) (hstop : s.laneStopped (0x200 + p) = false) :
    s.stage (0x200 + p) r = (s.laneAppend (0x200 + p) r).linkSelect (0x200 + p) r := by
  have hout : ¬0x1000 ≤ 0x200 + p := by omega
  simp only [State.stage, hrec, hstop, hout, decide_false, Bool.and_false, Bool.false_and, Bool.false_eq_true, if_false, if_true]

/-- Whether overload stops a sample lane rests on the store's level and on the priority that the port of the lane has. -/
theorem laneStopped_of_priority {p : Nat} (hp : p < 256) (hstore : t.store = s.store) (hcfg : t.portCfg p 3 = s.portCfg p 3) :
    t.laneStopped (0x200 + p) = s.laneStopped (0x200 + p) := by
  have hprio (v : State) : v.lanePriority (0x200 + p) = v.portCfg p 3 := by
    rw [State.lanePriority, if_neg (by omega), show (0x200 + p) % 256 = p by omega]
  simp only [State.laneStopped, hprio, hstore, hcfg]

/-! A sample record (04 R80). -/

theorem recType_sampleRecord (r : List Byte) (chan v f : Nat) : recType (sampleRecord r chan v f) = 2 := rfl

theorem recPort_sampleRecord (r : List Byte) (chan v f : Nat) : recPort (sampleRecord r chan v f) = recPort r := by
  show (BitVec.ofNat 8 (r.getD 7 0).toNat).toNat = (r.getD 7 0).toNat
  rw [BitVec.ofNat_toNat, BitVec.setWidth_eq]

theorem recPort_lt (r : List Byte) : recPort r < 256 := (r.getD 7 0).isLt

/-! Emission (04 R82). -/

/-- The engine's copy of a sample. -/
def State.toEngine (s : State) (e : Nat) (r : List Byte) : State :=
  if bits e 87 1 = 1 then s.deliver (bits e 93 5 * 32 + bits e 88 5) 0 r else s

/-- The session's copy of a sample, and the one that the fabric takes. -/
def State.toSession (s : State) (e : Nat) (r : List Byte) : State :=
  (if bits e 86 1 = 1 then s.stage (0x200 + recPort r) r else s).exportRecord r

theorem State.emitSample_eq (s : State) (e : Nat) (r : List Byte) : s.emitSample e r = (s.toEngine e r).toSession e r := rfl

theorem State.toSession_does (s : State) (e : Nat) (r : List Byte) : Does [.log, .od, .store, .link, .fab, .side, .out, .free] s (s.toSession e r) :=
  (Does.ite (fun _ => (s.stage_does ..).weaken rfl) fun _ => Does.refl _ _).step (State.exportRecord_does ..) rfl

theorem State.toEngine_does (s : State) (e : Nat) (r : List Byte) : Does [.od, .cls, .pods, .side] s (s.toEngine e r) :=
  Does.ite (fun _ => s.deliver_does ..) fun _ => Does.refl _ _

theorem State.toEngine_cls (s : State) (e : Nat) (r : List Byte) : ∃ d, (s.toEngine e r).cls = { s.cls with dropsOwed := d } := by
  unfold State.toEngine
  split
  · exact s.deliver_cls ..
  · exact ⟨s.cls.dropsOwed, rfl⟩

theorem State.toEngine_cfg (s : State) (e : Nat) (r : List Byte) {i b : Nat} (hb : b < 256) (hi : i ≠ 0x2301) (hpod : i < 0x2A01) :
    (s.toEngine e r).cfg i b = s.cfg i b := by
  unfold State.toEngine
  split
  · exact s.deliver_cfg _ _ _ hb hi hpod
  · rfl

/-- A sample that an entry logs stands last in the open block of its lane, and the lane owes the wrap that it owed. -/
theorem State.toSession_last {e : Nat} {r : List Byte} (he : bits e 86 1 = 1) (hr : recType r ≠ 4) (hrec : s.recording = true)
    (hstop : s.laneStopped (0x200 + recPort r) = false) :
    (∃ b, ((s.toSession e r).lane (0x200 + recPort r)).block = some b ∧ b.recs.getLast? = some r) ∧
      ((s.toSession e r).lane (0x200 + recPort r)).wrapDue = (s.lane (0x200 + recPort r)).wrapDue := by
  rw [State.toSession, (State.exportRecord_beside _ r).lane, if_pos he, State.stage_sample (recPort_lt r) r hrec hstop,
    (State.linkSelect_beside _ _ r).lane]
  exact ⟨s.laneAppend_last _ hr, s.laneAppend_wrapDue _ hr⟩

/-- A port whose sample lane owes no wrap reaches none. -/
theorem State.sampleWrap_none {p : Nat} (h : (s.lane (0x200 + p)).wrapDue = none) : s.sampleWrap p = s := by
  rw [State.sampleWrap, State.wrapPoint, h]
  exact ite_self s

/-! One entry (04 R79, R81). -/

/-- The key under which a sample is kept as an entry's last one. -/
def lastKey (v f : Nat) : BitVec 52 := BitVec.ofNat 52 (v * 16 + f / 16)

/-- An entry emits only on change, and the sample of a frame of the present bank is its last one again. -/
def State.unchanged (s : State) (era n e : Nat) (key : BitVec 52) : Prop := bits e 83 1 = 1 ∧ era = s.cls.swaps ∧ s.lastIs n key = true

theorem State.siftOne_unchanged {r : List Byte} {base era n e v f : Nat} (hs : ∀ up, siftEntry r base e up = .sample v f)
    (h : s.unchanged era n e (lastKey v f)) : Does [.od, .cel] s (s.siftOne r base era n e) := by
  obtain ⟨hon, hera, hlast⟩ := h
  rw [lastKey] at hlast
  simp only [State.siftOne, hs, hon, hera, hlast, decide_true, Bool.and_self, if_true]
  exact s.readSides_does _

/-- A state just before a sample is emitted: the last-value store is kept for the present bank, and what decides of the emission is as it was. -/
structure Kept (s t : State) (era n : Nat) (key : BitVec 52) : Prop where
  does : Does [.od, .cls, .cel, .side, .free] s t
  cls : t.cls = { s.cls with last := if era = s.cls.swaps then s.cls.last.set n key else s.cls.last }
  cfg : ∀ i b, b < 256 → i ≠ 0x2940 → t.cfg i b = s.cfg i b

/-- The last-value store after a row of it has been read. -/
def State.rowRead (s : State) (read : Bool) (n : Nat) : State := if read then s.readSides (· = .lastValue (Fin.ofNat 65536 n)) else s

theorem State.rowRead_does (s : State) (read : Bool) (n : Nat) : Does [.od, .cel] s (s.rowRead read n) :=
  Does.ite (fun _ => s.readSides_does _) fun _ => Does.refl _ _

theorem State.rowRead_cfg (s : State) (read : Bool) (n : Nat) {i b : Nat} (hb : b < 256) (hi : i ≠ 0x2940) : (s.rowRead read n).cfg i b = s.cfg i b := by
  unfold State.rowRead
  split
  · exact s.readSides_cfg _ hb hi
  · rfl

/-- A free value drawn and the row read, the sample becomes its entry's last one. -/
theorem State.setLast_kept (s : State) {era : Nat} (hera : era = s.cls.swaps) (u n : Nat) (read : Bool) (key : BitVec 52) :
    Kept s (((s.draw u).2.rowRead read n).setLast n key) era n key where
  does := ((((s.draw_does u).weaken rfl).step (State.rowRead_does ..) rfl).step (State.setLast_does ..) rfl)
  cls := by
    have h : ((s.draw u).2.rowRead read n).cls = s.cls := ((s.draw u).2.rowRead_does read n).cls_eq
    rw [State.setLast, State.healSide_cls, h, if_pos hera]
  cfg _ _ hb hi := (s.draw u).2.rowRead_cfg read n hb hi

/-- Of a frame of an earlier bank nothing is kept. -/
theorem State.draw_kept (s : State) {era : Nat} (hera : era ≠ s.cls.swaps) (u n : Nat) (key : BitVec 52) : Kept s (s.draw u).2 era n key where
  does := (s.draw_does u).weaken rfl
  cls := by
    rw [if_neg hera]
    rfl
  cfg _ _ _ _ := rfl

theorem State.siftOne_emits {r : List Byte} {base era n e v f : Nat} (hs : ∀ up, siftEntry r base e up = .sample v f)
    (h : ¬s.unchanged era n e (lastKey v f)) :
    ∃ t, Kept s t era n (lastKey v f) ∧ s.siftOne r base era n e = t.emitSample e (sampleRecord r (bits e 98 16) v f) := by
  have hchange : (decide (bits e 83 1 = 1) && decide (era = s.cls.swaps) && s.lastIs n (lastKey v f)) = false := by
    rw [Bool.eq_false_iff]
    simpa [State.unchanged, and_assoc] using h
  rw [lastKey] at hchange
  simp only [State.siftOne, hs, hchange, Bool.false_eq_true, if_false]
  refine ⟨_, ?_, rfl⟩
  split
  next hera => exact s.setLast_kept hera 2 n _ _
  next hera => exact s.draw_kept hera 2 n _

/-! One frame. -/

/-- The state after the oldest frame has been taken from the Sifter's queue, whose rows were read. -/
def State.frameTaken (s : State) (l : List SiftIn) : State := ({ s with cls := { s.cls with siftq := l } } : State).readSides isFrameQueue

theorem State.frameTaken_does (s : State) (l : List SiftIn) : Does [.cls, .od, .cel] s (s.frameTaken l) :=
  ((Does.set_cls s _).weaken rfl).step (State.readSides_does ..) rfl

theorem State.frameTaken_cls (s : State) (l : List SiftIn) : (s.frameTaken l).cls = { s.cls with siftq := l } := (State.readSides_does ..).cls_eq

/-- The oldest frame in the Sifter's queue is sound, has one entry and asks for no frame copy; `l` waits behind it. -/
structure State.SiftsOne (s : State) (q : SiftIn) (l : List SiftIn) (n : Nat) (e : BitVec 192) : Prop where
  first : s.cls.siftq = q :: l
  sound : s.sidesBad isFrameQueue = false
  copy : q.copyTo = none
  entries : q.entries = [(n, e)]

/-- Such a frame is its entry's. -/
theorem State.sift_single {q : SiftIn} {l : List SiftIn} {n : Nat} {e : BitVec 192} (hq : s.SiftsOne q l n e) :
    s.sift = ((s.frameTaken l).siftOne q.bytes q.base q.era n e.toNat).sampleWrap (recPort q.bytes) := by
  have hsound : (s.frameTaken l).sidesBad isFrameQueue = false := by
    rw [State.sidesBad, (s.frameTaken_does l).same .side (by decide)]
    exact hq.sound
  rw [State.frameTaken] at hsound
  simp only [State.sift, hq.first, hsound, hq.copy, hq.entries, Bool.false_eq_true, if_false, List.foldl_cons, List.foldl_nil]
  rfl

theorem State.frameTaken_unchanged (s : State) (l : List SiftIn) (era n e : Nat) (key : BitVec 52) :
    (s.frameTaken l).unchanged era n e key ↔ s.unchanged era n e key := by
  simp only [State.unchanged, State.lastIs, State.sideBad, s.frameTaken_cls, (s.frameTaken_does l).same .side (by decide)]

/-- What has not changed goes nowhere. -/
theorem State.sift_unchanged {q : SiftIn} {l : List SiftIn} {n v f : Nat} {e : BitVec 192} (hq : s.SiftsOne q l n e)
    (hs : ∀ up, siftEntry q.bytes q.base e.toNat up = .sample v f) (h : s.unchanged q.era n e.toNat (lastKey v f)) :
    s.sift.cls = { s.cls with siftq := l } ∧ s.sift.pods = s.pods := by
  have hone := State.siftOne_unchanged hs ((s.frameTaken_unchanged l ..).2 h)
  have hwrap := ((s.frameTaken l).siftOne q.bytes q.base q.era n e.toNat).sampleWrap_does (recPort q.bytes)
  have hall : Does [.cls, .od, .cel, .store, .free] s _ := (((s.frameTaken_does l).weaken rfl).step hone rfl).step hwrap rfl
  rw [State.sift_single hq]
  exact ⟨hwrap.cls_eq.trans (hone.cls_eq.trans (s.frameTaken_cls l)), hall.same .pods (by decide)⟩

/-- Every other sample is emitted, after the last-value store has been kept; what decides of the emission is as it was. -/
theorem State.sift_emits {q : SiftIn} {l : List SiftIn} {n v f : Nat} {e : BitVec 192} (hq : s.SiftsOne q l n e)
    (hs : ∀ up, siftEntry q.bytes q.base e.toNat up = .sample v f) (h : ¬s.unchanged q.era n e.toNat (lastKey v f)) :
    ∃ t, s.sift = (t.emitSample e.toNat (sampleRecord q.bytes (bits e.toNat 98 16) v f)).sampleWrap (recPort q.bytes) ∧
      Does [.od, .cls, .cel, .side, .free] s t ∧
      t.cls = { s.cls with siftq := l, last := if q.era = s.cls.swaps then s.cls.last.set n (lastKey v f) else s.cls.last } ∧
      ∀ p < 256, t.portCfg p 3 = s.portCfg p 3 := by
  obtain ⟨t, ⟨hdoes, hcls, hcfg⟩, hemit⟩ := State.siftOne_emits hs (mt (s.frameTaken_unchanged l ..).1 h)
  refine ⟨t, by rw [State.sift_single hq, hemit], ((s.frameTaken_does l).weaken rfl).step hdoes rfl, ?_, fun p hp => ?_⟩
  · rw [hcls, s.frameTaken_cls]
  · have hi : portIdx p ≠ 0x2940 := by rw [portIdx]; omega
    exact (hcfg _ 3 (by decide) hi).trans (State.readSides_cfg _ _ (by decide) hi)

/-! What an emission leaves, once the port's sample lane has looked for its wrap point. -/

theorem State.emitted_pods (s : State) (e : Nat) (r : List Byte) (p : Nat) : ((s.emitSample e r).sampleWrap p).pods = (s.toEngine e r).pods :=
  (((s.toEngine e r).toSession_does e r).step (State.sampleWrap_does _ p) rfl).same .pods (by decide)

theorem State.emitted_cls (s : State) (e : Nat) (r : List Byte) (p : Nat) : ∃ d, ((s.emitSample e r).sampleWrap p).cls = { s.cls with dropsOwed := d } := by
  obtain ⟨d, hd⟩ := s.toEngine_cls e r
  exact ⟨d, (((s.toEngine e r).toSession_does e r).step (State.sampleWrap_does _ p) rfl).cls_eq.trans hd⟩

/-- A sample that an entry logs stands last in the open block of its port's sample lane, which owes no wrap. -/
theorem State.emitted_last {e : Nat} {r : List Byte} (he : bits e 86 1 = 1) (hr : recType r ≠ 4) (hrec : s.recording = true)
    (hstop : s.laneStopped (0x200 + recPort r) = false) (hwrap : (s.lane (0x200 + recPort r)).wrapDue = none) :
    ∃ b, (((s.emitSample e r).sampleWrap (recPort r)).lane (0x200 + recPort r)).block = some b ∧ b.recs.getLast? = some r := by
  have hengine := s.toEngine_does e r
  have hstore : (s.toEngine e r).store = s.store := hengine.store_eq
  have hlane : (s.toEngine e r).lane (0x200 + recPort r) = s.lane (0x200 + recPort r) := by rw [State.lane, hstore]; rfl
  have hport := recPort_lt r
  have hcfg : (s.toEngine e r).portCfg (recPort r) 3 = s.portCfg (recPort r) 3 :=
    s.toEngine_cfg e r (by decide) (by rw [portIdx]; omega) (by rw [portIdx]; omega)
  obtain ⟨hlast, hdue⟩ := State.toSession_last he hr ((recording_of_sess hengine.sess_eq).trans hrec)
    ((laneStopped_of_priority hport hstore hcfg).trans hstop)
  rw [hlane, hwrap] at hdue
  rw [State.emitSample_eq, State.sampleWrap_none hdue]
  exact hlast

theorem routerRoom_of (hpods : t.pods = s.pods) (heng : t.eng = s.eng) (g : Nat) (r : List Byte) : t.routerRoom g r = s.routerRoom g r := by
  have hpod (p : Nat) : t.pod p = s.pod p := by rw [State.pod, hpods]; rfl
  have hengine : t.engine g = s.engine g := by rw [State.engine, heng]; rfl
  simp only [State.routerRoom, State.podUp, State.arrivals, hpod, hengine]
  rfl

/-- Settles O39: the record is looked up in the tables as they stood, and a sample that is emitted goes its two ways one after the other. -/
theorem classifyAndSiftComplete : Obligations.ClassifyAndSiftComplete := by
  refine fun s => ⟨fun p c l htake hroom herr hcode k hkey hbad => ⟨fun e hp hc hm => ?_, fun hp => ?_⟩,
    fun q l n e v f hq hbad hcopy hentries hs _ _ => ⟨fun hsame => ?_, fun hsame => ?_⟩⟩
  · obtain ⟨hcount, hcls⟩ := State.classifyPort_hit htake ⟨hroom, herr, hcode, hkey, hbad⟩ hp hc hm
    exact ⟨_, rfl, by rw [hcls], hcount, by rw [hcls]; rfl⟩
  · obtain ⟨hcount, hcls⟩ := State.classifyPort_miss htake ⟨hroom, herr, hcode, hkey, hbad⟩ hp
    exact ⟨_, rfl, by rw [hcls], hcount, by rw [hcls]⟩
  · obtain ⟨t, hsift, hfrom, hkept, hprio⟩ := State.sift_emits ⟨hq, hbad, hcopy, hentries⟩ hs hsame
    obtain ⟨r, hr⟩ : ∃ r, r = sampleRecord q.bytes (bits e.toNat 98 16) v f := ⟨_, rfl⟩
    have hport : recPort r = recPort q.bytes := hr ▸ recPort_sampleRecord ..
    have hpods : t.pods = s.pods := hfrom.same .pods (by decide)
    rw [← hr] at hsift ⊢
    obtain ⟨d, hcls⟩ := t.emitted_cls e.toNat r (recPort q.bytes)
    have hemitted := t.emitted_pods e.toNat r (recPort q.bytes)
    rw [← hsift, hkept] at hcls
    rw [← hsift] at hemitted
    refine ⟨s.sift, rfl, by rw [hcls], fun hera => ?_, fun hera => ?_, fun hdlv hroom hdrops => ?_, fun hdlv => ?_,
      fun hlog hrec hstop hwrap => ?_⟩
    · rw [hcls]
      show Tab.find (if q.era = s.cls.swaps then _ else _) n = _
      rw [if_pos hera, Tab.find_set_self]
      rfl
    · rw [hcls]
      exact if_neg hera
    · have hready : t.routerRoom (bits e.toNat 93 5 * 32 + bits e.toNat 88 5) r = true :=
        (routerRoom_of hpods (hfrom.same .eng (by decide)) ..).trans hroom
      have harrive := State.deliver_arrives (kind := 0) hready (by rw [hkept]; exact hdrops)
      rw [State.toEngine, if_pos hdlv] at hemitted
      rw [State.pod, hemitted, State.pod, ← hpods]
      exact harrive
    · rw [hemitted, State.toEngine, if_neg (by rw [hdlv]; decide), hpods]
    · have hstore : t.store = s.store := hfrom.store_eq
      have hlane : t.lane (0x200 + recPort r) = s.lane (0x200 + recPort r) := by rw [State.lane, hstore]; rfl
      rw [← hport] at hstop hwrap ⊢
      rw [hsift, ← hport]
      exact State.emitted_last hlog (by rw [hr, recType_sampleRecord]; decide) ((recording_of_sess hfrom.sess_eq).trans hrec)
        ((laneStopped_of_priority (recPort_lt r) hstore (hprio _ (recPort_lt r))).trans hstop) (by rw [hlane]; exact hwrap)
  · obtain ⟨hcls, hpods⟩ := State.sift_unchanged ⟨hq, hbad, hcopy, hentries⟩ hs hsame
    exact ⟨s.sift, rfl, by rw [hcls], by rw [hcls], hpods⟩

end Sys2Proof.Machine
end

section
/-! A commit request of the classifier's tables (04 R85, R88). -/

namespace Sys2Proof.Machine

variable {s : State} {p : Path}

/-- A request that nothing bars starts the check and is answered when that ends. -/
theorem State.wCommitTables_accepts (hi : s.sess.st = .idle) (hcopy : s.cls.copying = false) (hcheck : s.checking = false)
    (hsw : s.switchPending = false) :
    s.wCommitTables p 1 = ({ s with cls := { s.cls with checking := some p } } : State).owe 0x2300 1 := by
  simp [State.wCommitTables, hi, hcopy, hcheck, hsw]

/-- It puts nothing into the dictionary's store: that a check runs is no value of 0x2300:03 that is kept, but one that each read of it finds
(`State.readPestle`). -/
theorem State.commitShadowTables_od (hs : s.served = true) (hr : s.remote p = none) (hi : s.sess.st = .idle) (hcopy : s.cls.copying = false)
    (hcheck : s.checking = false) (hsw : s.switchPending = false) : ∃ t, exec (.commitShadowTables p 1) s = .next t ∧ t.od = s.od := by
  refine ⟨_, congrArg Host.Outcome.next ((State.requestWrite_here hs hr ..).trans (State.wCommitTables_accepts hi hcopy hcheck hsw)), ?_⟩
  exact (State.owe_does ..).od_eq

/-- The device just after its boot: in IDLE, no object written. -/
def State.booted : State := { State.reset with pwr := { State.reset.pwr with boot := .up } }

/-- Refutes O40: it asks that an accepted commit leave the value 1 of 0x2300:03 in the dictionary's store, and of a device just booted, whose store is empty,
the request leaves it empty. -/
theorem not_tableCommandsComplete : ¬ Obligations.TableCommandsComplete := by
  intro h
  obtain ⟨hrequests, -⟩ := h State.booted .fabric
  obtain ⟨hcommit, -⟩ := hrequests rfl rfl
  obtain ⟨t, ht, hod⟩ := State.commitShadowTables_od (s := State.booted) (p := .fabric) rfl rfl rfl rfl rfl rfl
  have hput : t.od = State.booted.od.set (odKey 0x2300 3) 1 :=
    (congrArg State.od (Host.Outcome.next.inj (ht.symm.trans (hcommit rfl rfl rfl rfl)))).trans (State.owe_does ..).od_eq
  have hempty : State.booted.od = [] := rfl
  rw [hod, hempty] at hput
  exact List.cons_ne_nil _ _ hput.symm

end Sys2Proof.Machine
end

section
/-! What stands before the DRAM ring of the session store (05 R92 to R106, R111): the event log, the control lane, staging, blocks and segments, and the
link's copies leave the ring and the SSDs as they are. -/

namespace Sys2Proof.Machine

variable {l : List Part} {s t u : State}

/-- The counters of what never comes to the ring: records that the link leaves out (0x2601) and those dropped under overload (0x2503:07). -/
def countsLoss (i b : Nat) : Prop := i = 0x2601 ∨ i = 0x2503 ∧ b = 7

/-- The ring, the set's mode and the SSDs are as before, to the segments that wait for their hash some may have come, and of the objects only counters of
losses may have changed. -/
structure Upstream (s t : State) : Prop where
  ring : t.store.ring = s.store.ring
  hashing : s.store.hashing <+: t.store.hashing
  mode : t.store.mode = s.store.mode
  ssd : ∀ j, t.ssd j = s.ssd j
  settings : ∀ i b, b < 256 → ¬countsLoss i b → t.cfg i b = s.cfg i b

theorem Upstream.refl (s : State) : Upstream s s := ⟨rfl, List.prefix_rfl, rfl, fun _ => rfl, fun _ _ _ _ => rfl⟩

theorem Upstream.trans (h : Upstream s t) (h' : Upstream t u) : Upstream s u where
  ring := h'.ring.trans h.ring
  hashing := h.hashing.trans h'.hashing
  mode := h'.mode.trans h.mode
  ssd j := (h'.ssd j).trans (h.ssd j)
  settings i b hb hi := (h'.settings i b hb hi).trans (h.settings i b hb hi)

theorem Upstream.ite {c : Prop} [Decidable c] {a b : State} (ha : Upstream s a) (hb : Upstream s b) : Upstream s (if c then a else b) := by
  split
  · exact ha
  · exact hb

theorem Upstream.fold {α : Type} {f : State → α → State} (hf : ∀ t a, Upstream t (f t a)) (xs : List α) (s : State) : Upstream s (xs.foldl f s) := by
  induction xs generalizing s with
  | nil => exact Upstream.refl s
  | cons a xs ih => exact (hf s a).trans (ih (f s a))

theorem cfg_of_od (h : t.od = s.od) (i b : Nat) : t.cfg i b = s.cfg i b := by rw [State.cfg, h]; rfl

/-- A change of other fields of the store. -/
theorem Upstream.of_fields (hring : t.store.ring = s.store.ring := by rfl) (hhash : s.store.hashing <+: t.store.hashing := by exact List.prefix_rfl)
    (hmode : t.store.mode = s.store.mode := by rfl) (h0 : t.store.ssd0 = s.store.ssd0 := by rfl) (h1 : t.store.ssd1 = s.store.ssd1 := by rfl)
    (hod : t.od = s.od := by rfl) : Upstream s t :=
  ⟨hring, hhash, hmode, fun j => by rw [State.ssd, State.ssd, h0, h1], fun i b _ _ => cfg_of_od hod i b⟩

/-- An operation that touches neither the dictionary nor the store. -/
theorem Does.upstream (h : Does l s t) (ho : l.contains .od = false := by rfl) (hs : l.contains .store = false := by rfl) : Upstream s t := by
  have hstore := h.store_eq hs
  exact .of_fields (congrArg _ hstore) (by rw [hstore]) (congrArg _ hstore) (congrArg _ hstore) (congrArg _ hstore) (h.od_eq ho)

theorem State.bumpBy_upstream (s : State) {idx sub : Nat} (bytes n : Nat) (hsub : sub < 256) (hloss : countsLoss idx sub) :
    Upstream s (s.bumpBy idx sub bytes n) := by
  unfold State.bumpBy
  refine Upstream.ite (Upstream.refl s) ⟨rfl, List.prefix_rfl, rfl, fun _ => rfl, fun i b hb hi => State.cfg_put_ne s _ hsub hb fun e => hi ?_⟩
  obtain ⟨rfl, rfl⟩ := Prod.mk.inj e
  exact hloss

theorem State.bump_upstream (s : State) {idx sub : Nat} (hsub : sub < 256) (hloss : countsLoss idx sub) : Upstream s (s.bump idx sub) :=
  s.bumpBy_upstream 4 1 hsub hloss

/-! Segments. -/

theorem State.finishSeg_upstream (s : State) (g : OpenSeg) (sig : Option Nat) (last : Bool) : Upstream s (s.finishSeg g sig last) :=
  .of_fields (hhash := List.prefix_append _ _)

theorem State.closeSeg_upstream (s : State) : Upstream s s.closeSeg := by
  unfold State.closeSeg
  split
  · exact Upstream.refl s
  · exact s.finishSeg_upstream ..

theorem State.payFailover_upstream (s : State) : Upstream s s.payFailover :=
  Upstream.ite (Upstream.trans (t := { s with store := { s.store with failoverDue := false } }) .of_fields (State.finishSeg_upstream ..)) (Upstream.refl s)

theorem State.intoSeg_upstream (s : State) (g : OpenSeg) (b : List Byte) : Upstream s (s.intoSeg g b) := .of_fields

theorem State.addBlock_upstream (s : State) (b : List Byte) : Upstream s (s.addBlock b) := by
  unfold State.addBlock
  extract_lets t u v
  have ht : Upstream s t := by
    show Upstream s (match s.store.seg with | some g => if s.blockFits g b.length then s else s.closeSeg | none => s)
    split
    · exact Upstream.ite (Upstream.refl s) s.closeSeg_upstream
    · exact Upstream.refl s
  have hu : Upstream s u := ht.trans t.payFailover_upstream
  have hv : Upstream s v := by
    show Upstream s (match u.store.seg with | some g => u.intoSeg g b | none => u.intoSeg (u.newSeg false false) b)
    split <;> exact hu.trans (u.intoSeg_upstream ..)
  exact Upstream.ite (hv.trans v.closeSeg_upstream) hv

/-! Blocks and lanes. -/

theorem State.setLane_upstream (s : State) (n : Nat) (x : Lane) : Upstream s (s.setLane n x) := .of_fields

theorem State.closeBlock_upstream (s : State) (n : Nat) : Upstream s (s.closeBlock n) := by
  unfold State.closeBlock
  split
  · exact Upstream.refl s
  · extract_lets p x s1 store s2
    have h2 : Upstream s1 s2 := Upstream.ite .of_fields (Upstream.refl s1)
    exact ((s.setLane_upstream ..).trans h2).trans (s2.addBlock_upstream _)

theorem State.laneAppend_upstream (s : State) (n : Nat) (r : List Byte) : Upstream s (s.laneAppend n r) := by
  unfold State.laneAppend
  extract_lets s1 s2
  have h1 : Upstream s s1 := by
    show Upstream s (match (s.lane n).block with | some b => if blockFull n b r then s.closeBlock n else s | none => s)
    split
    · exact Upstream.ite (s.closeBlock_upstream n) (Upstream.refl s)
    · exact Upstream.refl s
  have h2 : Upstream s s2 := h1.trans (s1.setLane_upstream ..)
  exact Upstream.ite (h2.trans (s2.closeBlock_upstream n)) h2

theorem State.wrapPoint_upstream (s : State) (n : Nat) : Upstream s (s.wrapPoint n) := by
  unfold State.wrapPoint
  split
  · exact Upstream.refl s
  · exact ((s.closeBlock_upstream n).trans (State.setLane_upstream ..)).trans (State.addBlock_upstream ..)

theorem State.ctlStore_upstream (s : State) (r : List Byte) : Upstream s (s.ctlStore r) :=
  Upstream.ite (s.addBlock_upstream _) (Upstream.refl s)

/-! The event log and the link. -/

theorem State.linkHealth_upstream (s : State) (r : List Byte) : Upstream s (s.linkHealth r) :=
  Upstream.ite (Upstream.refl s) (Upstream.ite (s.bump_upstream (by decide) (.inl rfl)) (s.linkPut_does ..).upstream)

theorem State.health_upstream (s : State) (tick : L48) (r : LogRow) : Upstream s (s.health tick r) :=
  (s.ctlStore_upstream _).trans (State.linkHealth_upstream _ _)

theorem State.pushLog_upstream (s : State) (rows : List LogRow) : Upstream s (s.pushLog rows) := by
  have hpush : Upstream s { s with log := s.log.push rows } := .of_fields
  unfold State.pushLog
  exact hpush.trans (Upstream.fold (fun t _ => (t.healSide_does _).upstream) rows _)

theorem State.logX_upstream (s : State) (plane kind idx sub val : Nat) (pay : List (List Byte)) : Upstream s (s.logX plane kind idx sub val pay) :=
  Upstream.ite ((s.pushLog_upstream _).trans (Upstream.fold (fun t r => t.health_upstream _ r) _ _)) (s.pushLog_upstream _)

theorem State.logE_upstream (s : State) (plane kind idx sub val : Nat) : Upstream s (s.logE plane kind idx sub val) := s.logX_upstream ..

theorem State.logHealth_upstream (s : State) (plane kind idx sub val : Nat) (pay : List (List Byte)) :
    Upstream s (s.logHealth plane kind idx sub val pay) :=
  (s.pushLog_upstream _).trans (Upstream.fold (fun t r => t.health_upstream _ r) _ _)

theorem State.linkQueue_upstream (s : State) (cls : Nat) (b : LinkBlock) : Upstream s (s.linkQueue cls b) :=
  Upstream.ite ((s.bumpBy_upstream _ _ (by decide) (.inl rfl)).trans (State.logX_upstream ..)) (s.linkPut_does ..).upstream

theorem State.linkClose_upstream (s : State) (lane cls : Nat) : Upstream s (s.linkClose lane cls) := by
  unfold State.linkClose
  extract_lets o p link s1 store s2
  have h1 : Upstream s s1 := (Does.set_link s _).upstream
  have h2 : Upstream s1 s2 := Upstream.ite .of_fields (Upstream.refl s1)
  exact Upstream.ite (Upstream.refl s) ((h1.trans h2).trans (s2.linkQueue_upstream ..))

theorem State.linkTake_upstream (s : State) (cls lane : Nat) (r : List Byte) : Upstream s (s.linkTake cls lane r) := by
  unfold State.linkTake
  extract_lets key item o s1 x y link s2
  have h1 : Upstream s s1 := Upstream.ite (s.linkClose_upstream ..) (Upstream.refl s)
  have h2 : Upstream s s2 := h1.trans (Does.set_link s1 _).upstream
  exact Upstream.ite ((s.linkClose_upstream ..).trans (State.bump_upstream _ (by decide) (.inl rfl)))
    (Upstream.ite (h2.trans (s2.linkClose_upstream ..)) h2)

theorem State.linkSelect_upstream (s : State) (lane : Nat) (r : List Byte) : Upstream s (s.linkSelect lane r) := by
  unfold State.linkSelect
  split
  · split
    · exact Upstream.refl s
    · extract_lets c link s1
      have h1 : Upstream s s1 := (Does.set_link s _).upstream
      exact Upstream.ite (h1.trans (s1.linkTake_upstream ..)) h1
  · exact Upstream.refl s

theorem State.ctlPut_upstream (s : State) (r : List Byte) : Upstream s (s.ctlPut r) :=
  Upstream.ite ((s.ctlStore_upstream r).trans (State.linkTake_upstream ..)) (s.ctlStore_upstream r)

/-! Staging and the overload levels. -/

theorem State.countOverload_upstream (s : State) (r : List Byte) : Upstream s (s.countOverload r) := by
  unfold State.countOverload
  extract_lets d d'
  exact Upstream.trans (t := { s with store := { s.store with drops := s.store.drops.set s.store.level.val d' } }) .of_fields
    (State.bump_upstream _ (by decide) (.inr ⟨rfl, rfl⟩))

theorem State.stage_upstream (s : State) (lane : Nat) (r : List Byte) : Upstream s (s.stage lane r) := by
  unfold State.stage
  extract_lets s1 s2
  have h1 : Upstream s s1 := Upstream.ite (s.setLane_upstream ..) (Upstream.refl s)
  have h2 : Upstream s1 s2 := Upstream.ite (s1.laneAppend_upstream ..) (Upstream.refl s1)
  exact Upstream.ite (s.countOverload_upstream r) ((h1.trans h2).trans (s2.linkSelect_upstream ..))

theorem State.rawWrap_upstream (s : State) (p : Nat) : Upstream s (s.rawWrap p) := Upstream.ite (Upstream.refl s) (s.wrapPoint_upstream _)

theorem State.drainBuffers_upstream (s : State) : Upstream s s.drainBuffers := by
  have hrecord (p : Nat) (t : State) (r : List Byte) : Upstream t ((if beforeWrap r then t else t.rawWrap p).stage (0x100 + p) r) :=
    (Upstream.ite (Upstream.refl t) (t.rawWrap_upstream p)).trans (State.stage_upstream ..)
  unfold State.drainBuffers
  refine Upstream.fold (fun t e => Upstream.ite (Upstream.refl t) (Upstream.trans ?_ (State.rawWrap_upstream ..))) _ s
  exact ((t.setPort_does e.1 _).upstream).trans (Upstream.fold (hrecord e.1) _ _)

theorem State.enterLevel_upstream (s : State) (n : Nat) : Upstream s (s.enterLevel n) := by
  unfold State.enterLevel
  exact Upstream.trans .of_fields (State.logE_upstream ..)

theorem State.leaveLevel_upstream (s : State) (n : Nat) : Upstream s (s.leaveLevel n) := by
  unfold State.leaveLevel
  extract_lets s1
  have h2 : Upstream s1 { s1 with store := { s1.store with level := Fin.ofNat 5 (n - 1), drops := s1.store.drops.erase n } } := .of_fields
  exact ((s.ctlPut_upstream _).trans h2).trans (State.logE_upstream ..)

theorem State.updateLevel_upstream (s : State) : Upstream s s.updateLevel :=
  (Upstream.fold (fun t n => Upstream.ite (t.enterLevel_upstream n) (Upstream.refl t)) _ s).trans
    (Upstream.fold (fun t n => Upstream.ite (t.leaveLevel_upstream n) (Upstream.refl t)) _ _)

/-- The close segment of a session is one more that waits for its hash (05 R106). -/
theorem State.tryLast_upstream (s : State) : Upstream s s.tryLast := by
  unfold State.tryLast
  extract_lets s1
  have h1 : Upstream s s1 := s.closeSeg_upstream.trans (State.payFailover_upstream _)
  have h2 : Upstream s1 { s1 with store := { s1.store with closing := false } } := .of_fields
  exact Upstream.ite (Upstream.ite ((h1.trans h2).trans (State.finishSeg_upstream ..)) h1) (Upstream.refl s)

end Sys2Proof.Machine
end

section
/-! Commands to the SSDs (05 R108 to R110): what issuing them leaves as it is, and what it sends. -/

namespace Sys2Proof.Machine

variable {l : List Part} {s t u : State} {j k : Nat}

/-! One SSD of the set. -/

/-- Every number but 0 names SSD 1. -/
theorem State.ssd_congr (s : State) (h : j = 0 ↔ k = 0) : s.ssd j = s.ssd k := by simp only [State.ssd, h]

theorem State.ssd_setSsd (s : State) (x : Ssd) (h : j = 0 ↔ k = 0) : (s.setSsd k x).ssd j = x := by
  by_cases hk : k = 0 <;> simp [State.ssd, State.setSsd, h, hk]

theorem State.ssd_setSsd_self (s : State) (k : Nat) (x : Ssd) : (s.setSsd k x).ssd k = x := s.ssd_setSsd x .rfl

theorem State.ssd_setSsd_ne (s : State) (x : Ssd) (h : ¬(j = 0 ↔ k = 0)) : (s.setSsd k x).ssd j = s.ssd j := by
  by_cases hk : k = 0
  · have hj : j ≠ 0 := fun e => h (by simp [e, hk])
    simp [State.ssd, State.setSsd, hj, hk]
  · have hj : j = 0 := by_contra fun e => h (by simp [e, hk])
    simp [State.ssd, State.setSsd, hj, hk]

theorem State.setSsd_ring (s : State) (k : Nat) (x : Ssd) : (s.setSsd k x).store.ring = s.store.ring := by
  unfold State.setSsd
  split <;> rfl

theorem State.setSsd_hashing (s : State) (k : Nat) (x : Ssd) : (s.setSsd k x).store.hashing = s.store.hashing := by
  unfold State.setSsd
  split <;> rfl

theorem State.setSsd_mode (s : State) (k : Nat) (x : Ssd) : (s.setSsd k x).store.mode = s.store.mode := by
  unfold State.setSsd
  split <;> rfl

theorem State.setSsd_cfg (s : State) (k : Nat) (x : Ssd) (i b : Nat) : (s.setSsd k x).cfg i b = s.cfg i b := cfg_of_od (s.setSsd_does k x).od_eq i b

/-! What stays while commands are issued. -/

/-- The set of SSDs is as before: its mode, each SSD's state, and the commands of each that is not ready; of the objects only counters of losses may have
changed. -/
structure SameSet (s t : State) : Prop where
  mode : t.store.mode = s.store.mode
  state : ∀ j, (t.ssd j).state = (s.ssd j).state
  cmds : ∀ j, (s.ssd j).state ≠ 1 → (t.ssd j).cmds = (s.ssd j).cmds
  settings : ∀ i b, b < 256 → ¬countsLoss i b → t.cfg i b = s.cfg i b

/-- The ring is as before too, and no segment that waits for its hash has gone. -/
structure Steady (s t : State) : Prop extends SameSet s t where
  ring : t.store.ring = s.store.ring
  hashing : s.store.hashing <+: t.store.hashing

theorem SameSet.trans (h : SameSet s t) (h' : SameSet t u) : SameSet s u where
  mode := h'.mode.trans h.mode
  state j := (h'.state j).trans (h.state j)
  cmds j hj := (h'.cmds j (by rwa [h.state j])).trans (h.cmds j hj)
  settings i b hb hi := (h'.settings i b hb hi).trans (h.settings i b hb hi)

theorem Upstream.steady (h : Upstream s t) : Steady s t where
  mode := h.mode
  state j := by rw [h.ssd]
  cmds j _ := by rw [h.ssd]
  settings := h.settings
  ring := h.ring
  hashing := h.hashing

theorem Steady.refl (s : State) : Steady s s := (Upstream.refl s).steady

theorem Steady.trans (h : Steady s t) (h' : Steady t u) : Steady s u :=
  ⟨h.toSameSet.trans h'.toSameSet, h'.ring.trans h.ring, h.hashing.trans h'.hashing⟩

theorem Steady.ite {c : Prop} [Decidable c] {a b : State} (ha : Steady s a) (hb : Steady s b) : Steady s (if c then a else b) := by
  split
  · exact ha
  · exact hb

theorem Steady.fold {α : Type} {f : State → α → State} (hf : ∀ t a, Steady t (f t a)) (xs : List α) (s : State) : Steady s (xs.foldl f s) := by
  induction xs generalizing s with
  | nil => exact Steady.refl s
  | cons a xs ih => exact (hf s a).trans (ih (f s a))

/-- An operation that touches neither the dictionary nor the store. -/
theorem Does.steady (h : Does l s t) (ho : l.contains .od = false := by rfl) (hs : l.contains .store = false := by rfl) : Steady s t :=
  (h.upstream ho hs).steady

/-- An SSD takes other values, its state kept and, unless it is ready, its commands. -/
theorem State.setSsd_steady (s : State) {x : Ssd} (hx : x.state = (s.ssd k).state) (hc : (s.ssd k).state ≠ 1 → x.cmds = (s.ssd k).cmds) :
    Steady s (s.setSsd k x) where
  mode := s.setSsd_mode k x
  state j := by
    by_cases h : j = 0 ↔ k = 0
    · rw [s.ssd_setSsd x h, s.ssd_congr h, hx]
    · rw [s.ssd_setSsd_ne x h]
  cmds j hj := by
    by_cases h : j = 0 ↔ k = 0
    · rw [s.ssd_congr h] at hj ⊢
      rw [s.ssd_setSsd x h, hc hj]
    · rw [s.ssd_setSsd_ne x h]
  settings i b _ _ := s.setSsd_cfg k x i b
  ring := s.setSsd_ring k x
  hashing := by rw [s.setSsd_hashing]

theorem State.nvme_steady (s : State) (k : Nat) (c : NvmeCmd) : Steady s (s.nvme k c) := by
  unfold State.nvme
  extract_lets x io
  split
  next h => exact Steady.trans (s.setSsd_steady (by rfl) fun hn => absurd h hn) (State.send_does ..).steady
  next => exact Steady.refl s

theorem State.admin_steady (s : State) (k : Nat) (c : NvmeCmd) : Steady s (s.admin k c) :=
  Steady.trans (s.setSsd_steady (by rfl) (by exact fun _ => rfl)) (State.send_does ..).steady

theorem State.createQueues_steady (s : State) (k : Nat) : Steady s (s.createQueues k) := Steady.fold (fun t _ => t.admin_steady k _) _ s

theorem State.startSsd_steady (s : State) (k : Nat) : Steady s (s.startSsd k) :=
  (Steady.fold (fun t _ => t.admin_steady k _) _ s).trans (State.createQueues_steady _ k)

theorem State.seekHeader_steady (s : State) (k : Nat) : Steady s (s.seekHeader k) := by
  unfold State.seekHeader
  split
  · exact Steady.ite (Steady.trans (Upstream.steady .of_fields) (State.nvme_steady ..)) (Steady.refl s)
  · exact Steady.refl s

theorem State.readNext_steady (s : State) : Steady s s.readNext := by
  unfold State.readNext
  split
  · exact Steady.refl s
  · exact Steady.ite (Steady.refl s) (s.nvme_steady ..)

theorem State.reread_steady (s : State) (k : Nat) : Steady s (s.reread k) := Steady.ite s.readNext_steady (Steady.refl s)

/-! Commands that leave. -/

/-- A command to a ready SSD is the last thing sent. -/
theorem State.nvme_last (h : (s.ssd k).state = 1) (c : NvmeCmd) : ∃ i a b, (s.nvme k c).out.getLast? = some (.nvme k i c a b) := by
  refine ⟨(s.ssd k).nextCid, (s.nvmeIo k c).1, (s.nvmeIo k c).2, ?_⟩
  simp only [State.nvme, h, if_true, State.send_out, List.getLast?_concat]

theorem State.nvme_sent (h : (s.ssd k).state = 1) (c : NvmeCmd) : ∃ i a b, Output.nvme k i c a b ∈ (s.nvme k c).out := by
  obtain ⟨i, a, b, hlast⟩ := State.nvme_last h c
  exact ⟨i, a, b, List.mem_of_getLast? hlast⟩

/-! Writes of segments. -/

/-- The slot of a segment rests on the set's mode, on which SSDs are present and on the settings of the rings. -/
theorem slotOf_of (hmode : t.store.mode = s.store.mode) (hstate : ∀ j, (t.ssd j).state = (s.ssd j).state)
    (hcfg : ∀ i b, b < 256 → ¬countsLoss i b → t.cfg i b = s.cfg i b) (n : Nat) : t.slotOf n = s.slotOf n := by
  have hon (k : Nat) (hk : k < 2) : t.slotsOn k false = s.slotsOn k false := by
    simp only [State.slotsOn, State.ringAt, Bool.false_eq_true, if_false]
    rw [hcfg _ _ (by omega) (by simp [countsLoss]), hcfg _ _ (by omega) (by simp [countsLoss])]
  simp only [State.slotOf, State.ringSlots, State.slotsIn, hmode, hstate, hon 0 (by decide), hon 1 (by decide),
    hon (s.store.mode % 2) (Nat.mod_lt _ (by decide)), hcfg 0x2500 1 (by decide) (by simp [countsLoss])]

theorem SameSet.slotOf (h : SameSet s t) (n : Nat) : t.slotOf n = s.slotOf n := slotOf_of h.mode h.state h.settings n

/-- The deallocation of the slots ahead of a segment's write to an SSD, at each 64th slot (05 R109). -/
def State.trimAhead (s : State) (g : Seg) (k : Nat) : State :=
  if s.slotOf g.seq % 64 = 0 && (s.ssd k).state = 1 && (s.ssd k).trimmed.all (· < g.seq) then
    (s.setSsd k { s.ssd k with trimmed := some g.seq }).nvme k (.dealloc (aheadSlots (s.slotOf g.seq) s.ringSlots))
  else s

/-- The write of a segment to one SSD, when that needs it. -/
def State.writeOn (s : State) (g : Seg) (k : Nat) : State :=
  if hasSsd g.need k && !hasSsd g.durable k then (s.trimAhead g k).nvme k (.write g.seq (s.slotOf g.seq)) else s

theorem State.writeSeg_eq (s : State) (g : Seg) : s.writeSeg g = if s.store.headerOut then s else (s.writeOn g 0).writeOn g 1 := rfl

theorem State.trimAhead_steady (s : State) (g : Seg) (k : Nat) : Steady s (s.trimAhead g k) :=
  Steady.ite (Steady.trans (s.setSsd_steady (by rfl) (by exact fun _ => rfl)) (State.nvme_steady ..)) (Steady.refl s)

theorem State.writeOn_steady (s : State) (g : Seg) (k : Nat) : Steady s (s.writeOn g k) :=
  Steady.ite ((s.trimAhead_steady g k).trans (State.nvme_steady ..)) (Steady.refl s)

theorem State.writeOn_does (s : State) (g : Seg) (k : Nat) : Does [.store, .out] s (s.writeOn g k) := by
  have htrim : Does [.store, .out] s (s.trimAhead g k) :=
    Does.ite (fun _ => ((s.setSsd_does ..).weaken rfl).step (State.nvme_does ..) rfl) fun _ => Does.refl _ s
  exact Does.ite (fun _ => htrim.step (State.nvme_does ..) rfl) fun _ => Does.refl _ s

theorem State.writeOn_sent {g : Seg} (hn : hasSsd g.need k = true) (hd : hasSsd g.durable k = false) (hk : (s.ssd k).state = 1) :
    ∃ i a b, Output.nvme k i (.write g.seq (s.slotOf g.seq)) a b ∈ (s.writeOn g k).out := by
  rw [State.writeOn, if_pos (by rw [hn, hd]; rfl)]
  exact State.nvme_sent (((s.trimAhead_steady g k).state k).trans hk) _

theorem State.writeSeg_steady (s : State) (g : Seg) : Steady s (s.writeSeg g) :=
  Steady.ite (Steady.refl s) ((s.writeOn_steady g 0).trans (State.writeOn_steady _ g 1))

/-- A segment goes to every ready SSD that needs it and does not hold it durably, while no slot header is being read. -/
theorem State.writeSeg_sent {g : Seg} (hout : s.store.headerOut = false) {k : Fin 2} (hn : hasSsd g.need k.val = true)
    (hd : hasSsd g.durable k.val = false) (hk : (s.ssd k.val).state = 1) :
    ∃ i a b, Output.nvme k.val i (.write g.seq (s.slotOf g.seq)) a b ∈ (s.writeSeg g).out := by
  have h0 := s.writeOn_steady g 0
  rw [State.writeSeg_eq, hout, if_neg (by decide)]
  match k with
  | 0 =>
    obtain ⟨i, a, b, h⟩ := State.writeOn_sent hn hd hk
    exact ⟨i, a, b, ((s.writeOn g 0).writeOn_does g 1).sent.subset h⟩
  | 1 =>
    rw [← h0.slotOf]
    exact State.writeOn_sent (s := s.writeOn g 0) hn hd ((h0.state 1).trans hk)

theorem State.writeOwed_steady (s : State) (k : Nat) : Steady s (s.writeOwed k) := Steady.fold (fun t g => t.writeSeg_steady g) _ s

end Sys2Proof.Machine
end

section
/-! Blocks and segments (05 R95, R96, R101 to R105): a block joins the open segment, a segment closes, and the oldest closed one moves into the ring. -/

namespace Sys2Proof.Machine

variable {s t : State} {g : OpenSeg} {b : List Byte} {n : Nat}

/-! Chip time that runs on leaves the store as it is. -/

@[simp] theorem State.reach_store (s : State) (c : Nat) : (s.reach c).store = s.store := (s.reach_does c).store_eq

@[simp] theorem State.reach_lane (s : State) (c n : Nat) : (s.reach c).lane n = s.lane n := by rw [State.lane, State.reach_store]; rfl

/-! Blocks. -/

/-- A block for which the open segment has room joins it, and the segment stays open. -/
theorem State.addBlock_joins (hg : s.store.seg = some g) (hf : s.blockFits g b.length = true) :
    (s.addBlock b).store.seg = some { g with blocks := g.blocks ++ [b] } := by
  have hpay : s.payFailover = s := by simp [State.payFailover, hg]
  simp only [State.addBlock, hg, hf, if_true, hpay, Option.isNone_some, Bool.false_and, Bool.false_eq_true, if_false]
  rfl

/-- A lane without its open block, whose coding has adapted the Mill of its pod (05 R100). -/
def State.blockTaken (s : State) (n : Nat) (b : OpenBlock) : State :=
  let s1 := s.setLane n { s.lane n with block := none }
  if laneMode n b.recs = 2 then
    { s1 with store := { s1.store with mills := s1.store.mills.set (s.codingPod n) (adaptMill (s.cfg 0x2500 9 = 1) (s.mill (s.codingPod n)) b) } }
  else s1

theorem State.closeBlock_some {b : OpenBlock} (hb : (s.lane n).block = some b) :
    s.closeBlock n = (s.blockTaken n b).addBlock (makeBlock n (fun ch => Tab.get 2 b.orders ch) b.recs) := by
  rw [State.closeBlock, hb]
  rfl

theorem State.closeBlock_none (hb : (s.lane n).block = none) : s.closeBlock n = s := by rw [State.closeBlock, hb]

/-- Taking a block off its lane changes nothing else of the store but a Mill. -/
theorem State.blockTaken_store (s : State) (n : Nat) (b : OpenBlock) :
    ∃ m, (s.blockTaken n b).store = { (s.setLane n { s.lane n with block := none }).store with mills := m } := by
  unfold State.blockTaken
  extract_lets s1
  split <;> exact ⟨_, rfl⟩

theorem State.closeBlock_block {b : OpenBlock} (hb : (s.lane n).block = some b) : ((s.closeBlock n).lane n).block = none := by
  obtain ⟨m, hm⟩ := s.blockTaken_store n b
  rw [State.closeBlock_some hb, State.lane, State.addBlock_lanes, hm]
  exact congrArg Lane.block (s.lane_setLane ..)

/-- Whether a signature is due rests on the segments since the last one and on whether one has fallen due by time. -/
theorem sigIsDue_of (hsegs : t.store.sigSegs = s.store.sigSegs) (hdue : t.store.sigDue = s.store.sigDue) (hod : t.od = s.od) : t.sigIsDue = s.sigIsDue := by
  rw [State.sigIsDue, State.sigIsDue, hsegs, hdue, cfg_of_od hod]

theorem blockFits_of (hdue : t.sigIsDue = s.sigIsDue) (g : OpenSeg) (k : Nat) : t.blockFits g k = s.blockFits g k := by
  rw [State.blockFits, State.blockFits, hdue]

@[simp] theorem State.reach_sigIsDue (s : State) (c : Nat) : (s.reach c).sigIsDue = s.sigIsDue :=
  sigIsDue_of (by rw [State.reach_store]) (by rw [State.reach_store]) (s.reach_does c).od_eq

@[simp] theorem State.reach_blockFits (s : State) (c : Nat) (g : OpenSeg) (k : Nat) : (s.reach c).blockFits g k = s.blockFits g k :=
  blockFits_of (s.reach_sigIsDue c) g k

theorem State.closeBlock_joins {b : OpenBlock} (hb : (s.lane n).block = some b) (hg : s.store.seg = some g)
    (hf : s.blockFits g (makeBlock n (fun ch => Tab.get 2 b.orders ch) b.recs).length = true) :
    (s.closeBlock n).store.seg = some { g with blocks := g.blocks ++ [makeBlock n (fun ch => Tab.get 2 b.orders ch) b.recs] } := by
  obtain ⟨m, hm⟩ := s.blockTaken_store n b
  have hod : (s.blockTaken n b).od = s.od := by
    unfold State.blockTaken
    extract_lets s1
    split <;> rfl
  rw [State.closeBlock_some hb]
  exact State.addBlock_joins (by rw [hm]; exact hg) ((blockFits_of (sigIsDue_of (by rw [hm]; rfl) (by rw [hm]; rfl) hod) g _).trans hf)

theorem State.blockAge_eq {b : OpenBlock} (hb : (s.lane n).block = some b) :
    s.blockAge n = (s.reach (b.since + msTicks (s.cfg 0x2500 3))).closeBlock n := by rw [State.blockAge, hb]

/-! The wrap record of a lane (05 R101). -/

theorem State.wrapPoint_eq {e : BitVec 32} (hw : (s.lane n).wrapDue = some e) (hb : (s.lane n).block = none) :
    s.wrapPoint n = (s.setLane n { s.lane n with wrapDue := none }).addBlock (padWord (blockHeader 0 n 0 1 18 18 ++ wrapRecord e n)) := by
  simp only [State.wrapPoint, hw, State.closeBlock_none hb]

theorem State.wrapPoint_wrapDue {e : BitVec 32} (hw : (s.lane n).wrapDue = some e) (hb : (s.lane n).block = none) :
    ((s.wrapPoint n).lane n).wrapDue = none := by
  rw [State.wrapPoint_eq hw hb, State.lane, State.addBlock_lanes]
  exact congrArg Lane.wrapDue (s.lane_setLane ..)

theorem State.wrapPoint_joins {e : BitVec 32} (hw : (s.lane n).wrapDue = some e) (hb : (s.lane n).block = none) (hg : s.store.seg = some g)
    (hf : s.blockFits g (padWord (blockHeader 0 n 0 1 18 18 ++ wrapRecord e n)).length = true) :
    (s.wrapPoint n).store.seg = some { g with blocks := g.blocks ++ [padWord (blockHeader 0 n 0 1 18 18 ++ wrapRecord e n)] } := by
  rw [State.wrapPoint_eq hw hb]
  exact State.addBlock_joins hg hf

/-- A lane that owes a wrap record reaches its wrap point when no earlier record of the link waits for its release. -/
theorem State.outputWrap_eq {e : BitVec 32} (hw : (s.lane n).wrapDue = some e)
    (hheld : ∀ h ∈ s.link.held, h.lane = n → ((s.tb.epoch.toNat * 2 ^ 48 : Nat) : Int) ≤ h.count + s.link.offset.getD 0) :
    s.outputWrap n = (s.reach (s.tb.epoch.toNat * 2 ^ 48 + secTicks)).wrapPoint n := by
  have hnone : (s.link.held.any fun h => h.lane = n && h.count + s.link.offset.getD 0 < (s.tb.epoch.toNat * 2 ^ 48 : Nat)) = false := by
    simpa using hheld
  simp only [State.outputWrap, hnone, hw, Option.isSome_some, Bool.not_false, Bool.and_self, if_true]

/-! Segments. -/

theorem State.finishSeg_closed (s : State) (g : OpenSeg) (sig : Option Nat) : SegClosed s (s.finishSeg g sig false) sig.isSome :=
  ⟨_, rfl, rfl, rfl, rfl, rfl, rfl, rfl⟩

theorem now_of_tb (h : t.tb = s.tb) : t.now = s.now := by rw [State.now, State.now, h]

/-- A signature starts the two counts to the next one anew (05 R103). -/
theorem State.finishSeg_signed (s : State) (g : OpenSeg) (k : Nat) (last : Bool) : let t := s.finishSeg g (some k) last
    t.store.sigSegs = 0 ∧ t.store.sigAt = t.now ∧ t.store.sigDue = false :=
  ⟨rfl, (now_of_tb (s.finishSeg_does g (some k) last).tb_eq).symm, rfl⟩

/-- The same as seen from a state that differs in the store by less than the segments. -/
theorem SegClosed.since {u : State} {signed : Bool} (h : SegClosed t u signed) (hhash : t.store.hashing = s.store.hashing)
    (hseq : t.store.nextSeq = s.store.nextSeq) : SegClosed s u signed := by
  rw [SegClosed, hhash, hseq] at h
  exact h

theorem State.closeSeg_closed (hg : s.store.seg = some g) : SegClosed s s.closeSeg s.sigIsDue := by
  have h := s.finishSeg_closed g (if s.sigIsDue then some 0 else none)
  have hsome : (if s.sigIsDue then some 0 else none : Option Nat).isSome = s.sigIsDue := by cases s.sigIsDue <;> rfl
  rw [hsome] at h
  rw [State.closeSeg, hg]
  exact h

theorem State.closeDue_none (h : s.store.seg = none) : s.closeDue = { s with store := { s.store with sigDue := true } } := by
  simp only [State.closeDue, h]

theorem State.closeDue_room (hg : s.store.seg = some g) (hused : g.used + 180 ≤ 4194303) (hblocks : g.blocks.length + 1 ≤ 65535) :
    s.closeDue = ({ s with store := { s.store with sigDue := true } } : State).finishSeg g (some 0) false := by
  simp [State.closeDue, hg, hused, hblocks]

theorem State.sigTime_session (ha : s.acting 0 = true) (hi : s.inSession = true) :
    s.sigTime = (s.reach (s.store.sigAt + msTicks (s.cfg 0x2500 5))).closeDue := by
  simp only [State.sigTime, ha, hi, Bool.and_self, if_true]

/-! From the hash to the ring (05 R104, R108). -/

/-- The oldest closed segment, its hash finished, in the ring. -/
def State.hashed (s : State) (g : Seg) (l : List Seg) : State := { s with store := { s.store with hashing := l, ring := s.store.ring ++ [g] } }

theorem State.hashDone_some {g : Seg} {l : List Seg} (hl : s.store.hashing = g :: l) (hr : s.ringFull = false) :
    let w := ((s.hashed g l).writeSeg g).updateLevel.drainBuffers
    s.hashDone = if (g.bytes.getD 5 0).getLsbD 3 then w.logE 1 1 0x2503 5 g.seq else w := by
  simp only [State.hashDone, hl, hr, Bool.false_eq_true, if_false]
  rfl

/-- What follows the write of a segment that has come to the ring: overload, the ports' buffers and the entry of a failover. -/
theorem State.hashDone_after {g : Seg} {l : List Seg} (hl : s.store.hashing = g :: l) (hr : s.ringFull = false) :
    Upstream ((s.hashed g l).writeSeg g) s.hashDone ∧ Does [.log, .od, .ports, .store, .link, .side, .free] ((s.hashed g l).writeSeg g) s.hashDone := by
  rw [State.hashDone_some hl hr]
  have hup := (State.updateLevel_upstream ((s.hashed g l).writeSeg g)).trans (State.drainBuffers_upstream _)
  have hdoes : Does [.log, .od, .ports, .store, .link, .side, .free] ((s.hashed g l).writeSeg g) _ :=
    ((State.updateLevel_does _).weaken rfl).step (State.drainBuffers_does _) rfl
  exact ⟨.ite (hup.trans (State.logE_upstream ..)) hup, .ite (fun _ => hdoes.step (State.logE_does ..) rfl) fun _ => hdoes⟩

/-! The commands. -/

theorem State.segAge_closed (hg : s.store.seg = some g) : SegClosed s s.segAge s.sigIsDue := by
  have h := State.closeSeg_closed (s := s.reach (g.since + msTicks (s.cfg 0x2500 2))) (by simpa using hg)
  rw [State.reach_sigIsDue] at h
  rw [State.segAge, hg]
  exact h.since (by rw [State.reach_store]) (by rw [State.reach_store])

/-- With room for it the signature goes into the open segment, which closes. -/
theorem State.sigTime_closed (ha : s.acting 0 = true) (hi : s.inSession = true) (hg : s.store.seg = some g) (hused : g.used + 180 ≤ 4194303)
    (hblocks : g.blocks.length + 1 ≤ 65535) :
    SegClosed s s.sigTime true ∧ s.sigTime.store.sigSegs = 0 ∧ s.sigTime.store.sigAt = s.sigTime.now ∧ s.sigTime.store.sigDue = false := by
  obtain ⟨u, hu⟩ : ∃ u, u = s.reach (s.store.sigAt + msTicks (s.cfg 0x2500 5)) := ⟨_, rfl⟩
  have hstore : u.store = s.store := hu ▸ s.reach_store _
  rw [State.sigTime_session ha hi, ← hu, State.closeDue_room (by rw [hstore]; exact hg) hused hblocks]
  have hclosed := State.finishSeg_closed { u with store := { u.store with sigDue := true } } g (some 0)
  exact ⟨hclosed.since (congrArg Store.hashing hstore :) (congrArg Store.nextSeq hstore :), State.finishSeg_signed _ g 0 false⟩

theorem State.sigTime_none (ha : s.acting 0 = true) (hi : s.inSession = true) (hg : s.store.seg = none) :
    s.sigTime.store = { s.store with sigDue := true } := by
  rw [State.sigTime_session ha hi, State.closeDue_none (by rw [State.reach_store]; exact hg), State.reach_store]

theorem State.hashDone_moves {g : Seg} {l : List Seg} (hl : s.store.hashing = g :: l) (hr : s.ringFull = false) (hout : s.store.headerOut = false) :
    s.hashDone.store.ring = s.store.ring ++ [g] ∧ l <+: s.hashDone.store.hashing ∧
      ∀ k : Fin 2, hasSsd g.need k.val = true → hasSsd g.durable k.val = false → (s.ssd k.val).state = 1 →
        ∃ c i b, Output.nvme k.val c (.write g.seq (s.slotOf g.seq)) i b ∈ s.hashDone.out := by
  obtain ⟨hup, hdoes⟩ := State.hashDone_after hl hr
  have hwrite := (s.hashed g l).writeSeg_steady g
  refine ⟨hup.ring.trans hwrite.ring, hwrite.hashing.trans hup.hashing, fun k hn hd hk => ?_⟩
  obtain ⟨c, i, b, hsent⟩ := State.writeSeg_sent (s := s.hashed g l) hout hn hd hk
  exact ⟨c, i, b, hdoes.sent.subset hsent⟩

/-- Settles O45: each command is one operation on the store, and what that does to lane, segment and ring is the operation's lemma. -/
theorem blocksAndSegmentsComplete : Obligations.BlocksAndSegmentsComplete := by
  refine fun s => ⟨fun l b hb => ⟨?_, ?_⟩, fun e n hw hb hheld => ?_, fun g hg => ⟨_, rfl, State.segAge_closed hg⟩,
    fun ha hi => ⟨fun g hg hused hblocks => ⟨_, rfl, State.sigTime_closed ha hi hg hused hblocks⟩, fun hg => ⟨_, rfl, State.sigTime_none ha hi hg⟩⟩,
    fun g l hl hr hout => ?_⟩
  · exact ⟨_, rfl, (s.closeBlock_does _).same, State.closeBlock_block hb, fun g hg hf => State.closeBlock_joins hb hg hf⟩
  · refine ⟨s.blockAge l.toNat, rfl, (s.blockAge_does _).same, ?_⟩
    rw [State.blockAge_eq hb]
    exact ⟨State.closeBlock_block (by simpa using hb), fun g hg hf => State.closeBlock_joins (by simpa using hb) (by simpa using hg) (by simpa using hf)⟩
  · refine ⟨s.outputWrap (4096 + e.val), rfl, ?_⟩
    rw [State.outputWrap_eq hw hheld]
    exact ⟨State.wrapPoint_wrapDue (by simpa using hw) (by simpa using hb), fun g hg hf =>
      State.wrapPoint_joins (by simpa using hw) (by simpa using hb) (by simpa using hg) (by simpa using hf)⟩
  · obtain ⟨hring, ⟨m, hm⟩, hsent⟩ := State.hashDone_moves hl hr hout
    exact ⟨s.hashDone, m, rfl, hring, hm.symm, hsent⟩

end Sys2Proof.Machine
end

section
/-! What the durability of segments leads to (05 R106 to R109): they leave the ring, and the session ends with the LAST one. -/

namespace Sys2Proof.Machine

variable {s t : State}

/-! A step of chip time and the evaluation of the sources at the end of a session (02 R36, R37, R40). -/

theorem State.shiftAges_steady (s : State) (d : Int) : Steady s (s.shiftAges d) where
  mode := rfl
  state j := by
    unfold State.ssd
    split <;> rfl
  cmds j _ := by
    unfold State.ssd
    split <;> rfl
  settings _ _ _ _ := rfl
  ring := rfl
  hashing := List.prefix_rfl

theorem State.stepTime_steady (s : State) (d : Int) : Steady s (s.stepTime d) := by
  unfold State.stepTime
  extract_lets s1 s2 pay
  have h1 : Steady s s1 := (s.setTime_does _).steady
  have h2 : Steady s1 s2 := (Does.set_tb s1 _).steady.trans (State.shiftAges_steady _ d)
  exact (h1.trans h2).trans (State.logX_upstream ..).steady

theorem State.stepFabric_steady (s : State) (d : Int) : Steady s (s.stepFabric d) := (s.stepTime_steady d).trans (Upstream.steady .of_fields)

theorem State.withheld_steady (s : State) : Steady s s.withheld := by
  unfold State.withheld
  extract_lets w
  have hw : Steady s w := Steady.ite s.letGo_does.steady (s.follow_does _).steady
  have hlog (t : State) : Steady t t.logTb.logOffset := ((State.logE_upstream ..).trans (State.logE_upstream ..)).steady
  exact (hw.trans (Does.set_tb w _).steady).trans (hlog _)

theorem State.selected_steady (s : State) : Steady s s.selected := by
  rcases s.selected_cases with ⟨-, e⟩ | ⟨-, e⟩ | ⟨-, -, -, e⟩ | ⟨-, e⟩ <;> rw [e]
  · exact (Does.set_tb s _).steady.trans (State.letGo_does _).steady
  · exact s.withheld_steady
  · exact (Steady.ite (s.stepFabric_steady _) (s.stepTime_steady _)).trans (State.follow_does ..).steady
  · exact (s.follow_does _).steady

theorem State.noteApart_steady (s : State) : Steady s s.noteApart := by
  unfold State.noteApart
  extract_lets b tb s1
  have h1 : Steady s s1 := (Does.set_tb s _).steady
  exact Steady.ite (h1.trans (State.logE_upstream ..).steady) h1

theorem State.evaluate_steady (s : State) : Steady s s.evaluate := by
  rw [State.evaluate_eq]
  exact (Steady.ite s.selected_steady (s.selected_steady.trans (State.logE_upstream ..).steady)).trans (State.noteApart_steady _)

theorem State.joinFabric_steady (s : State) (theta : Int) : Steady s (s.joinFabric theta) := by
  unfold State.joinFabric
  extract_lets join
  have hjoin (t : State) : Steady t (join t) := (Does.set_fab t _).steady
  exact Steady.ite (Steady.ite (hjoin s) (s.stepFabric_steady theta)) (Steady.ite (hjoin s) (Steady.refl s))

/-! The end of a session (17 R375). -/

theorem State.toState_upstream (s : State) (v : SessSt) (code : Nat) : Upstream s (s.toState v code) :=
  (Does.set_sess s _).upstream.trans (State.logE_upstream ..)

theorem State.toState_sess (s : State) (v : SessSt) (code : Nat) : (s.toState v code).sess = { s.sess with st := v } := (State.logE_does ..).sess_eq

theorem State.toIdle_steady (s : State) : Steady s s.toIdle := by
  unfold State.toIdle
  extract_lets s1 sess s2 s3
  have h2 : Steady s s2 := (s.toState_upstream .idle 0).steady.trans (Does.set_sess s1 _).steady
  have h3 : Steady s s3 := h2.trans (Steady.ite (s2.joinFabric_steady _) (Steady.refl s2))
  exact Steady.ite (h3.trans s3.evaluate_steady) h3

theorem State.toIdle_sess (s : State) : s.toIdle.sess.st = .idle ∧ s.toIdle.sess.acts = 0 := by
  unfold State.toIdle
  extract_lets s1 sess s2 s3
  have h3 : s3.sess = s2.sess := by
    show (if _ then _ else s2 : State).sess = _
    split
    · exact (s2.joinFabric_does _).sess_eq
    · rfl
  have hend : (if s3.tb.held then s3.evaluate else s3).sess = s2.sess := by
    split
    · exact s3.evaluate_does.sess_eq.trans h3
    · exact h3
  rw [hend]
  exact ⟨congrArg Session.st (s.toState_sess .idle 0), rfl⟩

/-! Segments that are durable leave the ring. -/

/-- The segments of the ring that are durable on every SSD they need. -/
def State.done (s : State) : List Seg := s.store.ring.filter fun g => g.need &&& ~~~g.durable = 0

theorem State.freeSeg_ring (s : State) (g : Seg) : (s.freeSeg g).store.ring = s.store.ring.filter (·.seq != g.seq) := rfl

theorem State.freeSegs_ring (l : List Seg) (s : State) (y : Seg) :
    y ∈ (l.foldl State.freeSeg s).store.ring ↔ y ∈ s.store.ring ∧ ∀ g ∈ l, y.seq ≠ g.seq := by
  induction l generalizing s with
  | nil => simp
  | cons g l ih => rw [List.foldl_cons, ih, State.freeSeg_ring]; simp [and_assoc]

theorem State.freeSeg_sameSet (s : State) (g : Seg) : SameSet s (s.freeSeg g) := ⟨rfl, fun _ => rfl, fun _ _ => rfl, fun _ _ _ _ => rfl⟩

theorem State.freeSegs_sameSet (l : List Seg) (s : State) : SameSet s (l.foldl State.freeSeg s) := by
  induction l generalizing s with
  | nil => exact (Steady.refl s).toSameSet
  | cons g l ih => exact (s.freeSeg_sameSet g).trans (ih _)

/-- The ring with its room made, before the session ends or goes on. -/
def State.relieved (s : State) : State :=
  if s.done.isEmpty then s.done.foldl State.freeSeg s else (s.done.foldl State.freeSeg s).updateLevel.drainBuffers

theorem State.settle_eq (s : State) :
    s.settle = if s.done.any (·.last) && s.relieved.sess.st = .draining then s.relieved.toIdle else s.relieved.tryLast := rfl

theorem State.relieved_steady (s : State) : Steady (s.done.foldl State.freeSeg s) s.relieved :=
  Steady.ite (Steady.refl _) ((State.updateLevel_upstream _).trans (State.drainBuffers_upstream _)).steady

theorem State.relieved_sess (s : State) : s.relieved.sess = s.sess := by
  have hfree : Does [.store] s (s.done.foldl State.freeSeg s) := Does.fold (fun t g => t.freeSeg_does g) _ (Does.refl _ s)
  unfold State.relieved
  split
  · exact hfree.sess_eq
  · exact (State.drainBuffers_does _).sess_eq.trans ((State.updateLevel_does _).sess_eq.trans hfree.sess_eq)

theorem State.settle_steady (s : State) : Steady (s.done.foldl State.freeSeg s) s.settle := by
  rw [State.settle_eq]
  exact s.relieved_steady.trans (Steady.ite (State.toIdle_steady _) (State.tryLast_upstream _).steady)

theorem State.settle_sameSet (s : State) : SameSet s s.settle := (State.freeSegs_sameSet _ s).trans s.settle_steady.toSameSet

/-- A segment that is durable everywhere it must be is not in the ring any more. -/
theorem State.settle_frees {g : Seg} (hg : g ∈ s.store.ring) (hd : g.need &&& ~~~g.durable = 0) : ∀ y ∈ s.settle.store.ring, y.seq ≠ g.seq := by
  intro y hy
  rw [s.settle_steady.ring, State.freeSegs_ring] at hy
  exact hy.2 g (List.mem_filter.2 ⟨hg, decide_eq_true hd⟩)

/-- With the LAST segment a draining session ends (05 R106). -/
theorem State.settle_ends {g : Seg} (hg : g ∈ s.store.ring) (hd : g.need &&& ~~~g.durable = 0) (hl : g.last = true) (hs : s.sess.st = .draining) :
    s.settle.sess.st = .idle ∧ s.settle.sess.acts = 0 := by
  have hany : s.done.any (·.last) = true := List.any_eq_true.2 ⟨g, List.mem_filter.2 ⟨hg, decide_eq_true hd⟩, hl⟩
  rw [State.settle_eq, hany, s.relieved_sess, hs, if_pos (by decide)]
  exact State.toIdle_sess _

/-- A session that does not drain goes on. -/
theorem State.settle_sess (h : s.sess.st ≠ .draining) : s.settle.sess = s.sess := by
  rw [State.settle_eq, if_neg (by simp [s.relieved_sess, h])]
  exact (State.tryLast_does _).sess_eq.trans s.relieved_sess

/-! Writes and flushes that end well (05 R109). -/

theorem State.flush_steady (s : State) (k : Nat) : Steady s (s.flush k) := s.nvme_steady k _

theorem State.onMedium_steady (s : State) (k : Nat) (l : List Nat) : Steady s (s.onMedium k l) := s.setSsd_steady (by rfl) (by exact fun _ => rfl)

/-- Without a volatile cache a segment is durable on the SSD that has written it. -/
def State.persisted (s : State) (k n : Nat) : State :=
  ({ s with store := { s.store with ring := s.store.ring.map fun (g : Seg) =>
    if g.seq = n then { g with written := g.written ||| ssdMask k, durable := g.durable ||| ssdMask k } else g } } : State).onMedium k [n]

theorem State.writeDone_eq {k n : Nat} (hv : Config.volatileCache k = false) :
    s.writeDone k n (s.slotOf n) =
      (if (s.persisted k n).store.ring.any fun g => g.seq = n && (g.hasSig || g.last) then (s.persisted k n).flush k else s.persisted k n).settle := by
  simp only [State.writeDone, hv, bne_self_eq_false, Bool.false_eq_true, if_false]
  rfl

theorem State.persisted_ring {k n : Nat} {g : Seg} (hg : g ∈ s.store.ring) (hn : g.seq = n) :
    { g with written := g.written ||| ssdMask k, durable := g.durable ||| ssdMask k } ∈ (s.persisted k n).store.ring := by
  rw [State.persisted, (State.onMedium_steady ..).ring]
  exact List.mem_map.2 ⟨g, hg, if_pos hn⟩

/-- The write that makes a segment durable everywhere it must be frees it, and with the LAST one a draining session ends. -/
theorem State.writeDone_frees {k n : Nat} {g : Seg} (hv : Config.volatileCache k = false) (hg : g ∈ s.store.ring) (hn : g.seq = n)
    (hd : g.need &&& ~~~(g.durable ||| ssdMask k) = 0) :
    (∀ y ∈ (s.writeDone k n (s.slotOf n)).store.ring, y.seq ≠ n) ∧
      (g.last = true → s.sess.st = .draining →
        (s.writeDone k n (s.slotOf n)).sess.st = .idle ∧ (s.writeDone k n (s.slotOf n)).sess.acts = 0) := by
  subst hn
  have hmem := State.persisted_ring (k := k) hg rfl
  rw [State.writeDone_eq hv]
  obtain ⟨u, hu⟩ : ∃ u, u = if (s.persisted k g.seq).store.ring.any fun y => y.seq = g.seq && (y.hasSig || y.last) then (s.persisted k g.seq).flush k
    else s.persisted k g.seq := ⟨_, rfl⟩
  have hsteady : Steady (s.persisted k g.seq) u := hu ▸ Steady.ite (State.flush_steady _ k) (Steady.refl _)
  have hdoes : Does [.store, .out] (s.persisted k g.seq) u := hu ▸ Does.ite (fun _ => State.flush_does _ k) fun _ => Does.refl _ _
  have hsess : u.sess = s.sess := hdoes.sess_eq.trans (State.onMedium_does ..).sess_eq
  rw [← hsteady.ring] at hmem
  have hfree := State.settle_frees hmem hd
  rw [← hu]
  exact ⟨hfree, fun hl hs => State.settle_ends hmem hd hl (by rw [hsess, hs])⟩

/-- So does the flush of what an SSD has written. -/
theorem State.flushDone_frees {k : Nat} {l : List Nat} {g : Seg} (hg : g ∈ s.store.ring) (hl : l.contains g.seq = true) (hw : hasSsd g.written k = true)
    (hd : g.need &&& ~~~(g.durable ||| ssdMask k) = 0) : ∀ y ∈ (s.flushDone k l).store.ring, y.seq ≠ g.seq :=
  State.settle_frees (g := { g with durable := g.durable ||| ssdMask k }) (List.mem_map.2 ⟨g, hg, if_pos (by rw [hl, hw]; rfl)⟩) hd

end Sys2Proof.Machine
end

section
/-! Failure of an SSD (05 R110, 19 R432): it is declared failed, and the set of a running session drops to the other one, or recording ends in FAULT. -/

namespace Sys2Proof.Machine

variable {s t u : State} {j k : Nat}

/-! What changes at one SSD leaves the other. -/

/-- The set's mode and the state of the other SSD are as before, and of the objects only counters of losses may have changed. -/
structure OnlySsd (k : Nat) (s t : State) : Prop where
  mode : t.store.mode = s.store.mode
  state : ∀ j, ¬(j = 0 ↔ k = 0) → (t.ssd j).state = (s.ssd j).state
  settings : ∀ i b, b < 256 → ¬countsLoss i b → t.cfg i b = s.cfg i b

theorem OnlySsd.trans (h : OnlySsd k s t) (h' : OnlySsd k t u) : OnlySsd k s u where
  mode := h'.mode.trans h.mode
  state j hj := (h'.state j hj).trans (h.state j hj)
  settings i b hb hi := (h'.settings i b hb hi).trans (h.settings i b hb hi)

theorem SameSet.only (h : SameSet s t) (k : Nat) : OnlySsd k s t := ⟨h.mode, fun j _ => h.state j, h.settings⟩

theorem Upstream.only (h : Upstream s t) (k : Nat) : OnlySsd k s t := h.steady.toSameSet.only k

theorem State.setSsd_only (s : State) (k : Nat) (x : Ssd) : OnlySsd k s (s.setSsd k x) :=
  ⟨s.setSsd_mode k x, fun j hj => by rw [s.ssd_setSsd_ne x hj], fun i b _ _ => s.setSsd_cfg k x i b⟩

/-- The state of an SSD changes with the entry that bears it, and nothing else of the SSD. -/
theorem State.ssdState_ssd (s : State) (k : Nat) (v : Fin 4) : ∃ c, (s.ssdState k v).ssd k = { s.ssd k with state := v, changed := c } := by
  unfold State.ssdState
  split
  next h => exact ⟨(s.ssd k).changed, by rw [← h]⟩
  next => exact ⟨s.log.next, by rw [(State.logE_upstream ..).ssd, State.ssd_setSsd_self]⟩

theorem State.ssdState_only (s : State) (k : Nat) (v : Fin 4) : OnlySsd k s (s.ssdState k v) := by
  unfold State.ssdState
  split
  · exact (Upstream.refl s).only k
  · exact (s.setSsd_only k _).trans ((State.logE_upstream ..).only k)

/-! A session that records onto an SSD. -/

theorem usesSsd_of (hsess : t.sess = s.sess) (hmode : t.store.mode = s.store.mode) (k : Nat) : t.usesSsd k = s.usesSsd k := by
  simp only [State.usesSsd, State.acting, State.inSession, hsess, hmode]

/-! The declaration. -/

/-- A failed SSD has nothing in progress. -/
def State.ssdFailed (s : State) (k : Nat) : State :=
  let s0 : State := { s with store := { s.store with headerOut := s.store.headerOut && !(s.ssd k).cmds.any fun c => isHeader c.2 } }
  (s0.setSsd k { s0.ssd k with cmds := [], issued := [], timeoutAt := none }).ssdState k 3

/-- A replay whose source lies on it has failed too (06 R115). -/
def State.declared (s : State) (k : Nat) : State :=
  let s1 := s.ssdFailed k
  if s1.replaySsd k && s1.rep.st.val < 5 && s1.rep.st != 0 then ({ s1 with rep := { s1.rep with st := 6, sourceDone := true } }).logE 1 1 0x2401 1 6
  else s1

theorem State.failSsd_eq (s : State) (k : Nat) : s.failSsd k =
    if (s.declared k).usesSsd k then
      if 2 ≤ (s.declared k).store.mode && ((s.declared k).ssd (1 - k)).state != 3 && ((s.declared k).ssd (1 - k)).state != 0 then (s.declared k).failover k
      else if (s.declared k).sess.st = .fault then s.declared k else (s.declared k).toFault
    else s.declared k := rfl

theorem State.ssdFailed_only (s : State) (k : Nat) : OnlySsd k s (s.ssdFailed k) := by
  unfold State.ssdFailed
  extract_lets store s0
  have h0 : Upstream s s0 := .of_fields
  exact ((h0.only k).trans (s0.setSsd_only k _)).trans (State.ssdState_only ..)

theorem State.ssdFailed_does (s : State) (k : Nat) : Does Part.logging s (s.ssdFailed k) :=
  (((Does.set_store s _).weaken rfl).step (State.setSsd_does ..) rfl).step (State.ssdState_does ..) rfl

theorem State.ssdFailed_ssd (s : State) (k : Nat) : ((s.ssdFailed k).ssd k).state = 3 ∧ ((s.ssdFailed k).ssd k).cmds = [] := by
  unfold State.ssdFailed
  extract_lets store s0
  obtain ⟨c, hc⟩ := (s0.setSsd k { s0.ssd k with cmds := [], issued := [], timeoutAt := none }).ssdState_ssd k 3
  rw [hc, State.ssd_setSsd_self]
  exact ⟨rfl, rfl⟩

theorem State.declared_upstream (s : State) (k : Nat) : Upstream (s.ssdFailed k) (s.declared k) := by
  unfold State.declared
  extract_lets s1
  exact Upstream.ite ((Does.set_rep s1 _).upstream.trans (State.logE_upstream ..)) (Upstream.refl s1)

theorem State.declared_sess (s : State) (k : Nat) : (s.declared k).sess = s.sess := by
  have h : (s.declared k).sess = (s.ssdFailed k).sess := by
    unfold State.declared
    extract_lets s1
    split
    · exact (State.logE_does ..).sess_eq
    · rfl
  exact h.trans (s.ssdFailed_does k).sess_eq

theorem State.declared_only (s : State) (k : Nat) : OnlySsd k s (s.declared k) := (s.ssdFailed_only k).trans ((s.declared_upstream k).only k)

theorem State.declared_ssd (s : State) (k : Nat) : ((s.declared k).ssd k).state = 3 ∧ ((s.declared k).ssd k).cmds = [] := by
  rw [(s.declared_upstream k).ssd]
  exact s.ssdFailed_ssd k

/-! FAULT (17 R376). -/

theorem State.toFault_upstream (s : State) : Upstream s s.toFault := by
  unfold State.toFault
  extract_lets sess store s1
  have h1 : Upstream s s1 := .of_fields
  exact h1.trans (s1.toState_upstream ..)

theorem State.toFault_sess (s : State) : s.toFault.sess.st = .fault ∧ s.toFault.sess.faultCause = 1 := by
  unfold State.toFault
  extract_lets sess store s1
  rw [s1.toState_sess]
  exact ⟨rfl, rfl⟩

/-! The set drops to the other SSD. -/

/-- The set under its new mode, its segments needing the survivor alone and the flushes in progress there standing for nothing. -/
def State.switched (s : State) (k : Nat) : State :=
  let cut := fun (g : Seg) => { g with need := ssdMask (1 - k), written := g.written &&& g.durable }
  let s1 := { s with store := { s.store with
    mode := 1 - k, ring := s.store.ring.map cut, hashing := s.store.hashing.map cut,
    failoverDue := !(s.store.ring ++ s.store.hashing).any (·.last) } }
  (s1.setSsd (1 - k) { s1.ssd (1 - k) with cmds := dropFlushes (s1.ssd (1 - k)).cmds }).put 0x2503 9 1

/-- The same with its entries in the event log, before the survivor takes what it lacks. -/
def State.switchLogged (s : State) (k : Nat) : State := ((s.switched k).logCount 1 0x2503 9).logE 1 1 0x2503 10 (1 - k)

/-- The survivor takes what it lacks. -/
def State.rewritten (s : State) (k : Nat) : State :=
  ((s.switchLogged k).store.ring.filter fun g => !hasSsd g.durable (1 - k)).foldl State.writeSeg (s.switchLogged k)

theorem State.failover_eq (s : State) (k : Nat) : s.failover k = (s.rewritten k).settle := rfl

theorem State.switched_mode (s : State) (k : Nat) : (s.switched k).store.mode = 1 - k := State.setSsd_mode ..

theorem State.switched_ssd (s : State) (hk : k < 2) : (s.switched k).ssd k = s.ssd k := State.ssd_setSsd_ne _ _ (by omega)

theorem State.switched_sess (s : State) (k : Nat) : (s.switched k).sess = s.sess := (State.setSsd_does ..).sess_eq

theorem State.rewritten_steady (s : State) (k : Nat) : Steady (s.switched k) (s.rewritten k) :=
  ((State.logE_upstream ..).trans (State.logE_upstream ..)).steady.trans (Steady.fold (fun t g => t.writeSeg_steady g) _ _)

theorem State.rewritten_sess (s : State) (k : Nat) : (s.rewritten k).sess = s.sess := by
  have hwrite : Does [.store, .out] (s.switchLogged k) (s.rewritten k) := Does.fold (fun t g => t.writeSeg_does g) _ (Does.refl _ _)
  have hlog : (s.switchLogged k).sess = (s.switched k).sess := (State.logE_does ..).sess_eq.trans (State.logE_does ..).sess_eq
  exact hwrite.sess_eq.trans (hlog.trans (s.switched_sess k))

theorem State.failover_sameSet (s : State) (k : Nat) : SameSet (s.switched k) (s.failover k) := by
  rw [State.failover_eq]
  exact (s.rewritten_steady k).toSameSet.trans (State.settle_sameSet _)

/-- What a failover leaves of the failed SSD. -/
theorem State.failover_ssd (s : State) (hk : k < 2) (hs : (s.ssd k).state = 3) (hc : (s.ssd k).cmds = []) :
    ((s.failover k).ssd k).state = 3 ∧ ((s.failover k).ssd k).cmds = [] := by
  have h := s.failover_sameSet k
  have hsame := s.switched_ssd hk
  rw [h.state, h.cmds k (by rw [hsame, hs]; decide), hsame]
  exact ⟨hs, hc⟩

theorem State.failover_mode (s : State) (k : Nat) : (s.failover k).store.mode = 1 - k := (s.failover_sameSet k).mode.trans (s.switched_mode k)

theorem State.failover_reported (s : State) (k : Nat) : (s.failover k).cfg 0x2503 9 = 1 :=
  ((s.failover_sameSet k).settings _ _ (by decide) (by simp [countsLoss])).trans (State.cfg_put ..)

theorem State.failover_sess (s : State) (k : Nat) (h : s.sess.st ≠ .draining) : (s.failover k).sess = s.sess := by
  rw [State.failover_eq, State.settle_sess (by rwa [s.rewritten_sess]), s.rewritten_sess]

/-! The whole. -/

/-- What the failure of an SSD in one state leaves: nothing in progress there, and a running session that used the SSD on the other one or in FAULT. -/
def FailedSsd (k : Fin 2) (s t : State) : Prop :=
  (t.ssd k.val).state = 3 ∧ (t.ssd k.val).cmds = [] ∧
    (s.usesSsd k.val = true → s.sess.st = .running →
      (s.store.mode < 2 → t.sess.st = .fault ∧ t.sess.faultCause = 1) ∧
      (2 ≤ s.store.mode → (s.ssd (1 - k.val)).state = 1 → t.sess.st = .running ∧ t.store.mode = 1 - k.val ∧ t.cfg 0x2503 9 = 1))

/-- The failed SSD itself, whatever the session does. -/
theorem State.failSsd_ssd (s : State) (hk : k < 2) : ((s.failSsd k).ssd k).state = 3 ∧ ((s.failSsd k).ssd k).cmds = [] := by
  have hdeclared := s.declared_ssd k
  rw [State.failSsd_eq]
  split
  · split
    · exact State.failover_ssd _ hk hdeclared.1 hdeclared.2
    · split
      · exact hdeclared
      · rw [(State.toFault_upstream _).ssd]
        exact hdeclared
  · exact hdeclared

theorem State.failSsd_failed (s : State) (k : Fin 2) : FailedSsd k s (s.failSsd k.val) := by
  have honly := s.declared_only k.val
  have hsess := s.declared_sess k.val
  obtain ⟨hstate, hcmds⟩ := s.failSsd_ssd k.isLt
  refine ⟨hstate, hcmds, fun hu hr => ⟨fun hm => ?_, fun hm ho => ?_⟩⟩
  · rw [State.failSsd_eq, usesSsd_of hsess honly.mode, hu, honly.mode, hsess, hr, if_pos rfl, if_neg (by simp; omega), if_neg (by decide)]
    exact State.toFault_sess _
  · rw [State.failSsd_eq, usesSsd_of hsess honly.mode, hu, honly.mode, honly.state _ (by omega), ho, if_pos rfl, if_pos (by simpa using hm)]
    refine ⟨?_, State.failover_mode .., State.failover_reported ..⟩
    rw [State.failover_sess _ _ (by rw [hsess, hr]; decide), hsess, hr]

end Sys2Proof.Machine
end

section
/-! Commands to the SSDs complete, the SSDs of a session are flushed, and the ready ones are polled (05 R109, log entry 11). -/

namespace Sys2Proof.Machine

variable {s t : State} {j k : Nat}

/-! Completion. -/

/-- A command that has completed is no longer in progress. -/
def State.completed (s : State) (k c : Nat) : State :=
  s.setSsd k { s.ssd k with cmds := (s.ssd k).cmds.erase c, issued := (s.ssd k).issued.erase c }

theorem State.completed_ring (s : State) (k c : Nat) : (s.completed k c).store.ring = s.store.ring := s.setSsd_ring k _

theorem State.completed_sess (s : State) (k c : Nat) : (s.completed k c).sess = s.sess := (s.setSsd_does k _).sess_eq

theorem State.completed_state (s : State) (k c j : Nat) : ((s.completed k c).ssd j).state = (s.ssd j).state := by
  by_cases h : j = 0 ↔ k = 0
  · rw [State.completed, State.ssd_setSsd _ _ h, s.ssd_congr h]
  · rw [State.completed, State.ssd_setSsd_ne _ _ h]

theorem State.completed_slotOf (s : State) (k c n : Nat) : (s.completed k c).slotOf n = s.slotOf n :=
  slotOf_of (s.setSsd_mode k _) (s.completed_state k c) (fun i b _ _ => s.setSsd_cfg k _ i b) n

/-- What the end of each command with an effect of its own does. -/
theorem State.nvmeDone_write {c n m : Nat} (hc : (s.ssd k).cmds.find c = some (.write n m)) (d : NvmeDone) :
    s.nvmeDone k c d = if d.ok then (s.completed k c).writeDone k n m
      else ((s.completed k c).logE 1 1 0x2503 (3 + k) (s.ssd k).state.val).nvme k (.write n m) := by
  simp only [State.nvmeDone, hc]
  rfl

theorem State.nvmeDone_flush {c : Nat} {l : List Nat} (hc : (s.ssd k).cmds.find c = some (.flush l)) {d : NvmeDone} (hd : d.ok = true) :
    s.nvmeDone k c d = (s.completed k c).flushDone k l := by
  simp only [State.nvmeDone, hc, hd, if_true]
  rfl

theorem State.nvmeDone_abort {c n : Nat} (hc : (s.ssd k).cmds.find c = some (.abort n)) (d : NvmeDone) : s.nvmeDone k c d = s.completed k c := by
  simp only [State.nvmeDone, hc]
  rfl

theorem State.nvmeDone_dealloc {c : Nat} {l : List Nat} (hc : (s.ssd k).cmds.find c = some (.dealloc l)) {d : NvmeDone} (hd : d.ok = true) :
    s.nvmeDone k c d = (s.completed k c).offMedium k l := by
  simp only [State.nvmeDone, hc, hd, if_true]
  rfl

theorem State.nvmeDone_frees {c n m : Nat} (hc : (s.ssd k).cmds.find c = some (.write n m)) {d : NvmeDone} (hd : d.ok = true) (hm : m = s.slotOf n)
    (hv : Config.volatileCache k = false) {g : Seg} (hg : g ∈ s.store.ring) (hn : g.seq = n) (hdur : g.need &&& ~~~(g.durable ||| ssdMask k) = 0) :
    (∀ y ∈ (s.nvmeDone k c d).store.ring, y.seq ≠ n) ∧
      (g.last = true → s.sess.st = .draining → (s.nvmeDone k c d).sess.st = .idle ∧ (s.nvmeDone k c d).sess.acts = 0) := by
  have h := State.writeDone_frees (s := s.completed k c) hv (by rwa [s.completed_ring]) hn hdur
  rw [s.completed_slotOf, s.completed_sess, ← hm] at h
  rw [State.nvmeDone_write hc, if_pos hd]
  exact h

/-- A write that ends with an error is logged and issued again. -/
theorem State.nvmeDone_repeats {c n m : Nat} (hc : (s.ssd k).cmds.find c = some (.write n m)) {d : NvmeDone} (hd : d.ok = false) (hk : (s.ssd k).state = 1) :
    ∃ i o b, (s.nvmeDone k c d).out.getLast? = some (.nvme k i (.write n m) o b) ∧ Logged s (s.nvmeDone k c d) 1 0x2503 (3 + k) 1 := by
  obtain ⟨u, hu⟩ : ∃ u, u = (s.completed k c).logE 1 1 0x2503 (3 + k) (s.ssd k).state.val := ⟨_, rfl⟩
  have hready : (u.ssd k).state = 1 := by rw [hu, (State.logE_upstream ..).ssd, s.completed_state, hk]
  obtain ⟨i, o, b, hlast⟩ := State.nvme_last hready (.write n m)
  rw [State.nvmeDone_write hc, if_neg (by rw [hd]; decide), ← hu]
  refine ⟨i, o, b, hlast, fun _ => ?_⟩
  rw [(u.nvme_does k _).log_eq, hu, hk]
  exact State.logE_last ..

/-! The flush of the SSDs of a session. -/

/-- The flush of one SSD, when the session records onto it. -/
def State.flushOn (s : State) (k : Nat) : State := if s.usesSsd k then s.flush k else s

theorem State.flushOn_steady (s : State) (k : Nat) : Steady s (s.flushOn k) := Steady.ite (s.flush_steady k) (Steady.refl s)

theorem State.flushOn_does (s : State) (k : Nat) : Does [.store, .out] s (s.flushOn k) := Does.ite (fun _ => s.flush_does k) fun _ => Does.refl _ s

theorem State.setSsd_flushAt (s : State) (k : Nat) (x : Ssd) : (s.setSsd k x).store.flushAt = s.store.flushAt := by
  unfold State.setSsd
  split <;> rfl

theorem State.flushOn_flushAt (s : State) (k : Nat) : (s.flushOn k).store.flushAt = s.store.flushAt := by
  unfold State.flushOn State.flush State.nvme
  extract_lets x io
  split
  · split
    · exact s.setSsd_flushAt k _
    · rfl
  · rfl

theorem State.flushOn_uses (s : State) (j k : Nat) : (s.flushOn j).usesSsd k = s.usesSsd k :=
  usesSsd_of (s.flushOn_does j).sess_eq (s.flushOn_steady j).mode k

theorem unflushed_of (h : t.store.ring = s.store.ring) (k : Nat) : t.unflushed k = s.unflushed k := by rw [State.unflushed, State.unflushed, h]

theorem State.flushOn_sent (hu : s.usesSsd k = true) (hk : (s.ssd k).state = 1) :
    ∃ c i b, Output.nvme k c (.flush (s.unflushed k)) i b ∈ (s.flushOn k).out := by
  rw [State.flushOn, if_pos hu]
  exact State.nvme_sent hk _

/-- A flush interval begins (05 R109). -/
def State.intervalBegun (s : State) : State := { s with store := { s.store with flushAt := s.now } }

theorem State.intervalBegun_upstream (s : State) : Upstream s s.intervalBegun := .of_fields

theorem State.intervalBegun_does (s : State) : Does [.store] s s.intervalBegun := Does.set_store s _

/-- The end of an interval flushes both SSDs. -/
theorem State.flushAll_eq (h : s.usesSsd 0 = true ∨ s.usesSsd 1 = true) :
    s.flushAll = ((s.reach (s.store.flushAt + msTicks (s.cfg 0x2500 6))).intervalBegun.flushOn 0).flushOn 1 := by
  have hboth (u : State) : [0, 1].foldl (fun (t : State) k => if t.usesSsd k then t.flush k else t) u = (u.flushOn 0).flushOn 1 := rfl
  rw [State.flushAll, if_pos (Bool.or_eq_true_iff.2 h)]
  exact hboth _

theorem State.usesSsd_either {k : Fin 2} (h : s.usesSsd k.val = true) : s.usesSsd 0 = true ∨ s.usesSsd 1 = true := by
  match k with
  | 0 => exact .inl h
  | 1 => exact .inr h

/-- Both SSDs flushed one after the other, each that is ready and in use gets its command. -/
theorem State.flushBoth_sent {k : Fin 2} (hu : s.usesSsd k.val = true) (hk : (s.ssd k.val).state = 1) :
    ∃ c i b, Output.nvme k.val c (.flush (s.unflushed k.val)) i b ∈ ((s.flushOn 0).flushOn 1).out := by
  match k with
  | 0 =>
    obtain ⟨c, i, b, h⟩ := State.flushOn_sent hu hk
    exact ⟨c, i, b, (State.flushOn_does _ 1).sent.subset h⟩
  | 1 =>
    have h0 := s.flushOn_steady 0
    rw [← unflushed_of h0.ring]
    exact State.flushOn_sent (by rw [State.flushOn_uses]; exact hu) (by rw [h0.state]; exact hk)

theorem State.flushAll_flushes {k : Fin 2} (hu : s.usesSsd k.val = true) :
    s.flushAll.store.flushAt = s.flushAll.now ∧ s.flushAll.now = (s.reach (s.store.flushAt + msTicks (s.cfg 0x2500 6))).now ∧
      ((s.ssd k.val).state = 1 → ∃ c i b, Output.nvme k.val c (.flush (s.unflushed k.val)) i b ∈ s.flushAll.out) := by
  rw [State.flushAll_eq (State.usesSsd_either hu)]
  obtain ⟨u, hu'⟩ : ∃ u, u = s.reach (s.store.flushAt + msTicks (s.cfg 0x2500 6)) := ⟨_, rfl⟩
  have hreach : Does [.tb] s u := hu' ▸ s.reach_does _
  have hbegun := hreach.upstream.trans u.intervalBegun_upstream
  have hdoes : Does [.store, .out] u ((u.intervalBegun.flushOn 0).flushOn 1) :=
    ((u.intervalBegun_does.weaken rfl).step (State.flushOn_does _ 0) rfl).step (State.flushOn_does _ 1) rfl
  rw [← hu', State.flushOn_flushAt, State.flushOn_flushAt, now_of_tb hdoes.tb_eq, ← unflushed_of hbegun.ring]
  exact ⟨rfl, rfl, fun hk => State.flushBoth_sent ((usesSsd_of hreach.sess_eq hbegun.mode _).trans hu) (by rw [hbegun.ssd, hk])⟩

/-! The health poll (05 R109, 18 R408). -/

theorem pieces3_length (n : Nat) (l : List Byte) (h : l.length ≤ n) : (pieces3 n l).length = (l.length + 2) / 3 := by
  induction n generalizing l with
  | zero => simp [pieces3, List.length_eq_zero_iff.1 (Nat.le_zero.1 h)]
  | succ n ih =>
    match l with
    | [] => rfl
    | x :: l =>
      rw [List.length_cons] at h
      simp only [pieces3, List.isEmpty_cons, Bool.false_eq_true, if_false, List.length_cons]
      rw [ih _ (by simp; omega), List.length_drop, List.length_cons]
      omega

/-- A health record of one row is one more entry of the log. -/
theorem State.logHealth_next (s : State) (plane kind idx sub val : Nat) : (s.logHealth plane kind idx sub val []).log.next = s.log.next + 1 := by
  obtain ⟨r, hr⟩ : ∃ r, s.entryRows plane kind idx sub val [] = [r] := ⟨_, rfl⟩
  have hlog : (s.logHealth plane kind idx sub val []).log = s.log.push [r] := by
    rw [State.logHealth, hr]
    exact (State.health_does ..).log_eq
  rw [hlog]
  rfl

theorem State.healthPage_upstream (s : State) (k : Nat) (page : List Byte) : Upstream s (s.healthPage k page) :=
  Upstream.fold (fun t _ => t.logHealth_upstream ..) _ s

/-- A page is logged in entries of three of its bytes. -/
theorem State.healthPage_next (s : State) (k : Nat) (page : List Byte) :
    (s.healthPage k page).log.next = s.log.next + BitVec.ofNat 16 ((page.length + 2) / 3) := by
  have hfold (l : List (List Byte)) : ∀ t : State, (l.foldl (fun t l => t.logHealth 1 1 0x2503 (3 + k) (leNat l) []) t).log.next =
      t.log.next + BitVec.ofNat 16 l.length := by
    induction l with
    | nil => exact fun t => (BitVec.add_zero _).symm
    | cons x l ih =>
      intro t
      rw [List.foldl_cons, ih, State.logHealth_next, List.length_cons, Nat.add_comm l.length, BitVec.ofNat_add, BitVec.add_assoc]
      rfl
  rw [State.healthPage, hfold, pieces3_length _ _ le_rfl]

/-- One log page is read and logged: `y` names the SSD and which of its two pages it is. -/
def State.readPage (s : State) (y : (Nat × Nat) × List Byte) : State := (s.admin y.1.1 (.logPage (if y.1.2 = 0 then 1 else 2))).healthPage y.1.1 y.2

/-- The command that reads a page, after the pages of the same SSD before it. -/
def State.pageCommand (s : State) (y : (Nat × Nat) × List Byte) : Output :=
  .nvme y.1.1 ((s.ssd y.1.1).nextCid + y.1.2) (.logPage (if y.1.2 = 0 then 1 else 2)) 0 []

theorem State.readPage_out (s : State) (y : (Nat × Nat) × List Byte) :
    (s.readPage y).out = s.out ++ [.nvme y.1.1 (s.ssd y.1.1).nextCid (.logPage (if y.1.2 = 0 then 1 else 2)) 0 []] := by
  have h : (s.readPage y).out = (s.admin y.1.1 (.logPage (if y.1.2 = 0 then 1 else 2))).out := (State.healthPage_does ..).same .out (by decide)
  rw [h, State.admin, State.send_out, (State.setSsd_does ..).same .out (by decide)]

theorem State.readPage_next (s : State) (y : (Nat × Nat) × List Byte) :
    (s.readPage y).log.next = s.log.next + BitVec.ofNat 16 ((y.2.length + 2) / 3) := by
  rw [State.readPage, State.healthPage_next, (State.admin_does ..).log_eq]

theorem State.readPage_cid (s : State) (y : (Nat × Nat) × List Byte) : ((s.readPage y).ssd y.1.1).nextCid = (s.ssd y.1.1).nextCid + 1 := by
  rw [State.readPage, (State.healthPage_upstream ..).ssd]
  exact congrArg Ssd.nextCid (s.ssd_setSsd_self ..)

theorem State.readPage_cid_ne (s : State) {y : (Nat × Nat) × List Byte} (h : ¬(j = 0 ↔ y.1.1 = 0)) : ((s.readPage y).ssd j).nextCid = (s.ssd j).nextCid := by
  rw [State.readPage, (State.healthPage_upstream ..).ssd]
  exact congrArg Ssd.nextCid (s.ssd_setSsd_ne _ h)

/-- The pages of some SSDs, two of each. -/
def pagesOf (ks : List Nat) : List (Nat × Nat) := ks.flatMap fun k => [(k, 0), (k, 1)]

theorem pagesOf_cons (k : Nat) (ks : List Nat) : pagesOf (k :: ks) = (k, 0) :: (k, 1) :: pagesOf ks := rfl

theorem fst_mem_of_mem_pagesOf {ks : List Nat} {x : Nat × Nat} (h : x ∈ pagesOf ks) : x.1 ∈ ks := by
  simp only [pagesOf, List.mem_flatMap, List.mem_cons, List.not_mem_nil, or_false] at h
  obtain ⟨k, hk, rfl | rfl⟩ := h <;> exact hk

/-- As many pages as have come are read, each by a command of its SSD in turn, and logged. -/
theorem State.readPages (ks : List Nat) (hks : ks.Pairwise fun i j => ¬(j = 0 ↔ i = 0)) (l : List (List Byte)) (s : State) :
    (((pagesOf ks).zip l).foldl State.readPage s).out = s.out ++ ((pagesOf ks).zip l).map s.pageCommand ∧
      (((pagesOf ks).zip l).foldl State.readPage s).log.next =
        s.log.next + BitVec.ofNat 16 ((l.take (2 * ks.length)).map fun y => (y.length + 2) / 3).sum := by
  induction ks generalizing l s with
  | nil => simp [pagesOf]
  | cons k ks ih =>
    obtain ⟨hk, hks⟩ := List.pairwise_cons.1 hks
    match l with
    | [] => simp
    | [p] => simp [Nat.mul_succ, pagesOf_cons, State.readPage_out, State.readPage_next, State.pageCommand]
    | p :: q :: l =>
      have hcids : ∀ y ∈ (pagesOf ks).zip l, ((s.readPage ((k, 0), p)).readPage ((k, 1), q)).pageCommand y = s.pageCommand y := by
        intro y hy
        have hne := hk _ (fst_mem_of_mem_pagesOf (List.of_mem_zip hy).1)
        rw [State.pageCommand, State.readPage_cid_ne _ hne, State.readPage_cid_ne _ hne]
        rfl
      obtain ⟨hout, hnext⟩ := ih hks l ((s.readPage ((k, 0), p)).readPage ((k, 1), q))
      rw [pagesOf_cons, List.zip_cons_cons, List.zip_cons_cons, List.foldl_cons, List.foldl_cons, hout, hnext, List.map_congr_left hcids]
      refine ⟨?_, ?_⟩
      · have hcid := s.readPage_cid ((k, 0), p)
        simp only at hcid
        simp [State.readPage_out, hcid, State.pageCommand]
      · rw [State.readPage_next, State.readPage_next, List.length_cons, Nat.mul_succ, List.take_succ_cons, List.take_succ_cons, List.map_cons, List.map_cons,
          List.sum_cons, List.sum_cons, BitVec.ofNat_add, BitVec.ofNat_add, BitVec.add_assoc, BitVec.add_assoc]

theorem State.readySsds_pairwise (s : State) : s.readySsds.Pairwise fun i j => ¬(j = 0 ↔ i = 0) := List.Pairwise.filter _ (by decide)

theorem State.healthPoll_eq (s : State) (l : List (List Byte)) : s.healthPoll l = ((pagesOf s.readySsds).zip l).foldl State.readPage s := rfl

end Sys2Proof.Machine
end

section
/-! A command times out, a controller comes back after its reset, an SSD comes up (05 R110, R473, 19 R432). -/

namespace Sys2Proof.Machine

variable {s t u : State} {j k : Nat}

/-! Chip time that runs on before a timeout. -/

@[simp] theorem State.reach_ssd (s : State) (c j : Nat) : (s.reach c).ssd j = s.ssd j := (State.reach_does s c).upstream.ssd j

theorem FailedSsd.since {k : Fin 2} (h : FailedSsd k t u) (hstore : t.store = s.store) (hsess : t.sess = s.sess) : FailedSsd k s u := by
  have hssd (j : Nat) : t.ssd j = s.ssd j := by rw [State.ssd, State.ssd, hstore]
  rw [FailedSsd, usesSsd_of hsess (by rw [hstore]), hstore, hsess, hssd] at h
  exact h

/-! A first timeout resets the controller (05 R110). -/

theorem State.setSsd_now (s : State) (k : Nat) (x : Ssd) : (s.setSsd k x).now = s.now := now_of_tb (s.setSsd_does k x).tb_eq

theorem State.ssdState_now (s : State) (k : Nat) (v : Fin 4) : (s.ssdState k v).now = s.now := now_of_tb (s.ssdState_does k v).tb_eq

theorem State.resetSsd_resets (s : State) (k c : Nat) : ((s.resetSsd k c).ssd k).state = 2 ∧ (s.resetSsd k c).now = s.now ∧
    ((s.resetSsd k c).ssd k).timeoutAt = some s.now ∧ (s.resetSsd k c).out.getLast? = some (.ssdReset k) := by
  unfold State.resetSsd
  extract_lets s1
  have h1 : s1.now = s.now := now_of_tb ((State.logE_does ..).tb_eq.trans (s.nvme_does k (.abort c)).tb_eq)
  obtain ⟨n, hn⟩ := (s1.setSsd k { s1.ssd k with timeoutAt := some s.now }).ssdState_ssd k 2
  have hnow : ((s1.setSsd k { s1.ssd k with timeoutAt := some s.now }).ssdState k 2).now = s1.now := (State.ssdState_now ..).trans (s1.setSsd_now ..)
  rw [State.ssd_setSsd_self] at hn
  refine ⟨congrArg Ssd.state hn, hnow.trans h1, congrArg Ssd.timeoutAt hn, ?_⟩
  rw [State.send_out, List.getLast?_concat]

/-- The time at which a command has exceeded its timeout. -/
def State.overdue (s : State) (k c : Nat) : State := s.reach ((s.ssd k).issued.get 0 c + msTicks (s.cfg 0x2500 8))

theorem State.nvmeTimeout_eq {c : Nat} (hc : ((s.ssd k).cmds.find c).isSome = true) : s.nvmeTimeout k c =
    if (s.ssd k).timeoutAt.any (fun t => (s.overdue k c).now < t + 60 * secTicks) then (s.overdue k c).failSsd k else (s.overdue k c).resetSsd k c := by
  have hsome : ¬((s.ssd k).cmds.find c).isNone = true := by simpa using Option.isSome_iff_ne_none.1 hc
  have hssd : (s.overdue k c).ssd k = s.ssd k := by rw [State.overdue, State.reach_ssd]
  rw [← hssd, State.nvmeTimeout, if_neg hsome, ← State.overdue]

theorem State.nvmeTimeout_first {c : Nat} (hc : ((s.ssd k).cmds.find c).isSome = true)
    (ht : ∀ a, (s.ssd k).timeoutAt = some a → a + 60 * secTicks ≤ (s.overdue k c).now) : s.nvmeTimeout k c = (s.overdue k c).resetSsd k c := by
  rw [State.nvmeTimeout_eq hc, if_neg]
  rw [Option.any_eq_true]
  rintro ⟨a, ha, hlt⟩
  exact absurd (of_decide_eq_true hlt) (Nat.not_lt.2 (ht a ha))

theorem State.nvmeTimeout_second {c a : Nat} (hc : ((s.ssd k).cmds.find c).isSome = true) (ha : (s.ssd k).timeoutAt = some a)
    (hlt : (s.overdue k c).now < a + 60 * secTicks) : s.nvmeTimeout k c = (s.overdue k c).failSsd k := by
  rw [State.nvmeTimeout_eq hc, ha, Option.any_some, if_pos (decide_eq_true hlt)]

/-! The controller is back (05 R110). -/

/-- One command that was in progress is issued again, if it has an effect of its own. -/
def State.reissueOne (s : State) (k : Nat) (c : Nat × NvmeCmd) : State :=
  match c.2 with
  | .abort _ => s
  | .logPage _ => s
  | _ => s.nvme k c.2

theorem State.reissueOne_steady (s : State) (k : Nat) (c : Nat × NvmeCmd) : Steady s (s.reissueOne k c) := by
  unfold State.reissueOne
  split
  · exact Steady.refl s
  · exact Steady.refl s
  · exact s.nvme_steady k _

theorem State.reissueOne_does (s : State) (k : Nat) (c : Nat × NvmeCmd) : Does [.store, .out] s (s.reissueOne k c) := by
  unfold State.reissueOne
  split
  · exact Does.refl _ s
  · exact Does.refl _ s
  · exact s.nvme_does k _

/-- Reads and writes of slots. -/
def movesSlot : NvmeCmd → Prop
  | .write _ _ => True
  | .read _ _ => True
  | _ => False

theorem State.reissueOne_sent (hk : (s.ssd k).state = 1) {c : Nat × NvmeCmd} (hc : movesSlot c.2) :
    ∃ i a b, Output.nvme k i c.2 a b ∈ (s.reissueOne k c).out := by
  obtain ⟨i, a, b, h⟩ := State.nvme_sent hk c.2
  refine ⟨i, a, b, ?_⟩
  unfold State.reissueOne
  split
  next e => exact absurd hc (by rw [e]; exact id)
  next e => exact absurd hc (by rw [e]; exact id)
  next => exact h

/-- Every read and write among some commands is issued to a ready SSD. -/
theorem State.reissues_sent (l : Tab NvmeCmd) (s : State) (hk : (s.ssd k).state = 1) {c : Nat × NvmeCmd} (hmem : c ∈ l) (hc : movesSlot c.2) :
    ∃ i a b, Output.nvme k i c.2 a b ∈ (l.foldl (fun t c => t.reissueOne k c) s).out := by
  induction l generalizing s with
  | nil => exact absurd hmem List.not_mem_nil
  | cons x l ih =>
    rcases List.mem_cons.1 hmem with rfl | hmem
    · obtain ⟨i, a, b, h⟩ := State.reissueOne_sent hk hc
      exact ⟨i, a, b, (Does.fold (fun t c => t.reissueOne_does k c) l (Does.refl _ _)).sent.subset h⟩
    · exact ih _ (((s.reissueOne_steady k x).state k).trans hk) hmem

/-- The SSD with its queues made anew and nothing in progress. -/
def State.requeued (s : State) (k : Nat) : State := (s.setSsd k { s.ssd k with cmds := [], issued := [] }).createQueues k

theorem State.reissue_eq (s : State) (k : Nat) : s.reissue k = (s.ssd k).cmds.foldl (fun t c => t.reissueOne k c) (s.requeued k) := rfl

theorem State.requeued_state (s : State) (k : Nat) : ((s.requeued k).ssd k).state = (s.ssd k).state := by
  rw [State.requeued, (State.createQueues_steady _ k).state, State.ssd_setSsd_self]

theorem State.reissue_state (s : State) (k : Nat) : ((s.reissue k).ssd k).state = (s.ssd k).state := by
  rw [State.reissue_eq, (Steady.fold (fun t c => t.reissueOne_steady k c) _ _).state, s.requeued_state]

/-- What follows once the commands are issued again: a header still to be read, writes still owed, a read that fell due. -/
theorem State.restored_after (s : State) (k : Nat) :
    Steady s (((s.seekHeader k).writeOwed k).reread k) ∧ Does [.store, .out] s (((s.seekHeader k).writeOwed k).reread k) :=
  ⟨((s.seekHeader_steady k).trans (State.writeOwed_steady _ k)).trans (State.reread_steady _ k),
    ((s.seekHeader_does k).step (State.writeOwed_does _ k) rfl).step (State.reread_does _ k) rfl⟩

theorem State.resetDone_restores (h2 : (s.ssd k).state = 2) (ht : ∀ a, (s.ssd k).timeoutAt = some a → s.now ≤ a + 2 * secTicks) :
    ((s.resetDone k true).ssd k).state = 1 ∧
      ∀ y ∈ (s.ssd k).cmds, movesSlot y.2 → ∃ i a b, Output.nvme k i y.2 a b ∈ (s.resetDone k true).out := by
  have hall : ((s.ssd k).timeoutAt.all fun t => decide (s.now ≤ t + 2 * secTicks)) = true := by
    rw [Option.all_eq_true]
    exact fun a ha => decide_eq_true (ht a ha)
  have hreset : s.resetDone k true = ((((s.ssdState k 1).reissue k).seekHeader k).writeOwed k).reread k := by
    rw [State.resetDone, if_pos h2, hall]
    rfl
  obtain ⟨c, hc⟩ := s.ssdState_ssd k 1
  have hready : ((s.ssdState k 1).ssd k).state = 1 := by rw [hc]
  have hcmds : ((s.ssdState k 1).ssd k).cmds = (s.ssd k).cmds := by rw [hc]
  obtain ⟨hsteady, hdoes⟩ := ((s.ssdState k 1).reissue k).restored_after k
  rw [hreset]
  refine ⟨by rw [hsteady.state, State.reissue_state, hready], fun y hy hm => ?_⟩
  obtain ⟨i, a, b, h⟩ := State.reissues_sent _ _ (((s.ssdState k 1).requeued_state k).trans hready) (hcmds.symm ▸ hy) hm
  exact ⟨i, a, b, hdoes.sent.subset h⟩

theorem State.resetDone_fails (h2 : (s.ssd k).state = 2) : s.resetDone k false = s.failSsd k := by
  rw [State.resetDone, if_pos h2]
  rfl

/-! SSDs that come up in IDLE (05 R473). -/

/-- The store starts on an SSD that has come up. -/
def State.started (s : State) (k : Nat) : State := (s.setSsd k { s.ssd k with cmds := [], issued := [], timeoutAt := none }).startSsd k

/-- One SSD that is not ready is tried. -/
def State.bringOne (s : State) (up : Nat → Bool) (k : Nat) : State :=
  if (s.ssd k).state = 1 || !up k then s
  else if (s.started k).usable k then ((s.started k).ssdState k 1).seekHeader k else (s.started k).ssdState k 3

theorem State.bringUp_eq (up : Nat → Bool) (hi : s.sess.st = .idle) (hs : s.served = true) :
    s.bringUp up = s.namedSsds.foldl (fun t k => t.bringOne up k) s := by
  rw [State.bringUp, hi, hs, if_pos (by decide)]
  rfl

theorem State.started_only (s : State) (k : Nat) : OnlySsd k s (s.started k) := (s.setSsd_only k _).trans ((State.startSsd_steady _ k).toSameSet.only k)

theorem OnlySsd.usable (h : OnlySsd k s t) (hj : j < 2) : t.usable j = s.usable j := by
  rw [State.usable, State.usable, h.settings _ _ (by omega) (by simp [countsLoss])]

theorem State.bringOne_only (s : State) (up : Nat → Bool) (k : Nat) : OnlySsd k s (s.bringOne up k) := by
  have hstate (v : Fin 4) : OnlySsd k s ((s.started k).ssdState k v) := (s.started_only k).trans (State.ssdState_only ..)
  unfold State.bringOne
  split
  · exact (Upstream.refl s).only k
  · split
    · exact (hstate 1).trans ((State.seekHeader_steady _ k).toSameSet.only k)
    · exact hstate 3

theorem State.bringOne_state (s : State) (up : Nat → Bool) (hk : k < 2) (h1 : (s.ssd k).state ≠ 1) :
    ((s.bringOne up k).ssd k).state = if up k then (if s.usable k then 1 else 3) else (s.ssd k).state := by
  have hstate (v : Fin 4) : (((s.started k).ssdState k v).ssd k).state = v := by
    obtain ⟨c, hc⟩ := (s.started k).ssdState_ssd k v
    rw [hc]
  unfold State.bringOne
  rw [(s.started_only k).usable hk]
  cases up k with
  | false => rw [if_pos (by simp)]; rfl
  | true =>
    rw [if_neg (by simp [h1]), if_pos rfl]
    split
    · rw [(State.seekHeader_steady _ k).state, hstate]
    · exact hstate 3

/-- Each named SSD is tried by itself, whatever becomes of the other. -/
theorem State.bringUp_state (up : Nat → Bool) {k : Fin 2} (hi : s.sess.st = .idle) (hs : s.served = true) (hn : k.val ∈ s.namedSsds)
    (h1 : (s.ssd k.val).state ≠ 1) :
    ((s.bringUp up).ssd k.val).state = if up k.val then (if s.usable k.val then 1 else 3) else (s.ssd k.val).state := by
  have hnamed : s.namedSsds = [0] ∨ s.namedSsds = [1] ∨ s.namedSsds = [0, 1] := by
    unfold State.namedSsds
    split <;> simp
  rw [State.bringUp_eq up hi hs]
  rcases hnamed with h | h | h <;> rw [h] at hn ⊢
  · rw [List.mem_singleton.1 hn] at h1 ⊢
    exact s.bringOne_state up (by decide) h1
  · rw [List.mem_singleton.1 hn] at h1 ⊢
    exact s.bringOne_state up (by decide) h1
  · match k with
    | 0 => exact ((State.bringOne_only _ up 1).state 0 (by decide)).trans (s.bringOne_state up (by decide) h1)
    | 1 =>
      have h0 := s.bringOne_only up 0
      have hstate : ((s.bringOne up 0).ssd 1).state = (s.ssd 1).state := h0.state 1 (by decide)
      have hsecond := (s.bringOne up 0).bringOne_state up (k := 1) (by decide) (by rw [hstate]; exact h1)
      rw [h0.usable (by decide), hstate] at hsecond
      exact hsecond

/-- Settles O46: each completion, timeout, reset and failure is one operation on the store, and what that leaves is the operation's lemma. -/
theorem ssdCommandsComplete : Obligations.SsdCommandsComplete := by
  refine fun s k => ⟨fun c n m d hc => ⟨fun hd hm hv g hg hn hdur => ?_, fun hd hk => ?_⟩, fun c l d hc hd g hg hl hw hdur => ?_,
    fun c d => ⟨fun n hc => ?_, fun l hc hd => ?_⟩, ?_, fun l => ?_, fun c hc => ⟨fun ht => ?_, fun a ha hlt => ?_⟩,
    fun h2 => ⟨fun ht => ?_, ?_⟩, fun a b hi hs hn h1 => ?_, fun hu h1 => ?_⟩
  · exact ⟨s.nvmeDone k.val c d, rfl, State.nvmeDone_frees hc hd hm hv hg hn hdur⟩
  · obtain ⟨i, o, b, hlast, hlog⟩ := State.nvmeDone_repeats hc hd hk
    exact ⟨s.nvmeDone k.val c d, i, o, b, rfl, hlast, hlog⟩
  · refine ⟨s.nvmeDone k.val c d, rfl, ?_⟩
    rw [State.nvmeDone_flush hc hd]
    exact State.flushDone_frees (by rwa [State.completed_ring]) hl hw hdur
  · exact congrArg _ (State.nvmeDone_abort hc d)
  · exact congrArg _ (State.nvmeDone_dealloc hc hd)
  · exact ⟨s.flushAll, rfl, s.flushAll_does.same, fun hu => State.flushAll_flushes hu⟩
  · refine ⟨s.healthPoll l, rfl, ?_⟩
    rw [State.healthPoll_eq]
    exact State.readPages s.readySsds s.readySsds_pairwise l s
  · obtain ⟨hstate, hnow, hat, hlast⟩ := (s.overdue k.val c).resetSsd_resets k.val c
    rw [← State.nvmeTimeout_first hc ht] at hstate hnow hat hlast
    exact ⟨s.nvmeTimeout k.val c, rfl, hstate, hnow, hat, hlast⟩
  · refine ⟨s.nvmeTimeout k.val c, rfl, ?_⟩
    rw [State.nvmeTimeout_second hc ha hlt]
    exact (State.failSsd_failed _ k).since (s.reach_store _) (s.reach_does _).sess_eq
  · obtain ⟨hstate, hsent⟩ := State.resetDone_restores h2 ht
    exact ⟨s.resetDone k.val true, rfl, hstate, fun y hy m n hm => hsent y hy (by rcases hm with e | e <;> rw [e] <;> trivial)⟩
  · refine ⟨s.resetDone k.val false, rfl, ?_⟩
    rw [State.resetDone_fails h2]
    exact State.failSsd_failed s k
  · exact ⟨_, rfl, State.bringUp_state _ hi hs hn h1⟩
  · refine ⟨s.failSsd k.val, ?_, State.failSsd_failed s k⟩
    show Host.Outcome.next (if s.usesSsd k.val then s.ssdNotReady k.val else s) = _
    rw [if_pos hu, State.ssdNotReady, if_neg h1]

end Sys2Proof.Machine
end

section
/-! Replay: what the end of a replay leaves as it is, what a launch is made from, and the feeder (06 R114, R119, R120, R127, R131). -/

namespace Sys2Proof.Machine

variable {l : List Part} {s t u : State} {p : Nat}

theorem Does.out_eq (h : Does l s t) (hl : l.contains .out = false := by rfl) : t.out = s.out := h.same .out (by simpa using hl)

theorem Does.side_eq (h : Does l s t) (hl : l.contains .side = false := by rfl) : t.side = s.side := h.same .side (by simpa using hl)

theorem Does.pods_eq (h : Does l s t) (hl : l.contains .pods = false := by rfl) : t.pods = s.pods := h.same .pods (by simpa using hl)

/-! What is read from single parts of the state. -/

theorem repEntry_of_od (h : t.od = s.od) : t.repEntry = s.repEntry := funext fun _ => cfg_of_od h _ _

theorem portUse_of_od (h : t.od = s.od) : t.portUse = s.portUse := by
  funext q
  rw [State.portUse, State.portUse, repEntry_of_od h]

theorem dryPolicy_of_od (h : t.od = s.od) : t.dryPolicy = s.dryPolicy := by
  funext q
  rw [State.dryPolicy, State.dryPolicy, repEntry_of_od h]

theorem sidesBad_of_side (h : t.side = s.side) (f : SideRow → Bool) : t.sidesBad f = s.sidesBad f := by rw [State.sidesBad, h]; rfl

theorem takes_of (hports : t.ports = s.ports) (hstore : t.store = s.store) (hside : t.side = s.side) (p : Nat) : t.takes p = s.takes p := by
  rw [State.takes, State.takes, port_of_ports hports, stagingFull_of_store hstore, State.bufferFail, State.bufferFail, hside]

/-! The counters of replay (0x2401). -/

theorem Upstream.counters (h : Upstream s t) {b : Nat} (hb : b < 256) : t.cfg 0x2401 b = s.cfg 0x2401 b :=
  h.settings _ _ hb (by unfold countsLoss; omega)

theorem Counted.upstream {b : Nat} (h : Counted s t 0x2401 b) (hu : Upstream t u) (hb : b < 256) : Counted s u 0x2401 b := by
  rw [Counted, hu.counters hb]
  exact h

/-! The end of a replay (06 R131). -/

theorem State.replayEnd_upstream (s : State) : Upstream s s.replayEnd :=
  Upstream.ite (Upstream.trans (t := { s with rep := { s.rep with st := 5 } }) .of_fields (State.logE_upstream ..)) (Upstream.refl s)

theorem State.replayEnd_beside (s : State) : Beside s s.replayEnd :=
  Beside.ite ((Does.set_rep s { s.rep with st := 5 }).beside.trans (State.logX_beside ..)) (Beside.refl s)

theorem State.replayEnd_tx (s : State) (q : Nat) : s.replayEnd.tx q = s.tx q := by
  unfold State.replayEnd
  split
  · exact tx_of_rep (State.logE_does ..).rep_eq q
  · rfl

theorem State.replayEnd_out (s : State) : s.replayEnd.out = s.out := s.replayEnd_does.out_eq

/-! What a launch is made from. -/

/-- Two states launch an entry alike: under the same objects, ports and calibration. -/
structure SameLaunch (s t : State) : Prop where
  od : t.od = s.od
  ports : t.ports = s.ports
  calGen : t.tb.calGen = s.tb.calGen

theorem SameLaunch.trans (h : SameLaunch s t) (h' : SameLaunch t u) : SameLaunch s u :=
  ⟨h'.od.trans h.od, h'.ports.trans h.ports, h'.calGen.trans h.calGen⟩

theorem State.reach_sameLaunch (s : State) (c : Nat) : SameLaunch s (s.reach c) := by
  obtain ⟨e, k, htb⟩ := s.reach_tb c
  exact ⟨(s.reach_does c).od_eq, (s.reach_does c).ports_eq, by rw [htb]⟩

theorem State.setTx_sameLaunch (s : State) (p : Nat) (x : TxPort) : SameLaunch s (s.setTx p x) := ⟨rfl, rfl, rfl⟩

theorem SameLaunch.portCfg (h : SameLaunch s t) (p b : Nat) : t.portCfg p b = s.portCfg p b := portCfg_of_od h.od p b

theorem SameLaunch.macRate (h : SameLaunch s t) (p : Nat) : t.macRate p = s.macRate p := by
  rw [State.macRate, State.macRate, h.portCfg, port_of_ports h.ports]

theorem SameLaunch.emitFits (h : SameLaunch s t) (p : Nat) (r : List Byte) : t.emitFits p r = s.emitFits p r := by
  simp only [State.emitFits, h.portCfg]

theorem SameLaunch.enhanced (h : SameLaunch s t) (p n : Nat) : t.enhanced p n = s.enhanced p n := by
  rw [State.enhanced, State.enhanced, h.portCfg]

theorem SameLaunch.linSends (h : SameLaunch s t) (p : Nat) (r : List Byte) : t.linSends p r = s.linSends p r := by
  rw [State.linSends, State.linSends, repEntry_of_od h.od]

theorem SameLaunch.sentBytes (h : SameLaunch s t) (p : Nat) (ctl : L48) (r : List Byte) : t.sentBytes p ctl r = s.sentBytes p ctl r := by
  simp only [State.sentBytes, h.portCfg, h.linSends, h.enhanced]

theorem SameLaunch.sentAux (h : SameLaunch s t) (p : Nat) (r m : List Byte) : t.sentAux p r m = s.sentAux p r m := by
  simp only [State.sentAux, h.macRate, h.linSends, h.enhanced, port_of_ports h.ports]

theorem SameLaunch.txLaunch (h : SameLaunch s t) (p : Nat) (ctl : L48) (a : Option Int) (r : List Byte) :
    t.txLaunch p ctl a r = s.txLaunch p ctl a r := by
  simp only [State.txLaunch, h.sentBytes, h.sentAux, h.portCfg]

theorem SameLaunch.launchAt (h : SameLaunch s t) (p : Nat) (c : Int) : t.launchAt p c = s.launchAt p c := by
  simp only [State.launchAt, State.cfgInt, cfg_of_od h.od, h.calGen]

theorem SameLaunch.place5 (h : SameLaunch s t) (p : Nat) (c : Int) : t.place5 p c = s.place5 p c := by
  rw [State.place5, State.place5, h.macRate]

theorem SameLaunch.isLate (h : SameLaunch s t) (p : Nat) (c due : Int) : t.isLate p c due = s.isLate p c due := by
  rw [State.isLate, State.isLate, h.place5]

theorem SameLaunch.phyOut (h : SameLaunch s t) (p : Nat) : t.phyOut p = s.phyOut p := by
  simp only [State.phyOut, port_of_ports h.ports, h.portCfg]

theorem SameLaunch.outTime (h : SameLaunch s t) (p : Nat) (e : Stamp) : t.outTime p e = s.outTime p e := by
  simp only [State.outTime, State.cfgInt, cfg_of_od h.od, h.calGen]

theorem SameLaunch.startTime (h : SameLaunch s t) (p : Nat) (w : Sending) (e : Stamp) : t.startTime p w e = s.startTime p w e := by
  simp only [State.startTime, State.placed, h.place5, h.outTime]

/-! The feeder. -/

/-- The transmit buffer is filled from the queue just put. -/
theorem State.fillBuffer_setTx (s : State) (p : Nat) (x : TxPort) :
    ((s.setTx p x).fillBuffer p).tx p = { x with buffered := entriesIn (transmitBuffer p) x.queue } := by
  rw [State.fillBuffer, State.tx_setTx, State.tx_setTx]

/-- An entry whose count was not discarded dry joins the tail of the queue. -/
theorem State.enqueue_tx {count : Int} (hg : count ∉ (s.tx p).gone) (ctl : L48) (r : List Byte) :
    ∃ n, (s.enqueue p ctl count r).tx p = { s.tx p with queue := (s.tx p).queue ++ [⟨ctl, r, count, s.now⟩], buffered := n } := by
  have hgone : (s.tx p).gone.contains count = false := by simpa using hg
  unfold State.enqueue
  extract_lets x bad s1
  have h1 : ∃ n, s1.tx p = { s.tx p with queue := (s.tx p).queue ++ [⟨ctl, r, count, s.now⟩], buffered := n } :=
    ⟨_, s.fillBuffer_setTx ..⟩
  rw [if_neg (by rw [hgone]; decide)]
  split
  · obtain ⟨n, hn⟩ := h1
    exact ⟨n, (tx_of_rep (s1.bump_does ..).rep_eq p).trans hn⟩
  · exact h1

/-- The front of a port's source is in reach of the feeder: the session captures and the offset is fixed, and the record's count is at most 20 ms ahead. -/
structure State.Feedable (s : State) (p : Nat) (d c : Int) (r : List Byte) (l : List (Int × List Byte)) : Prop where
  capturing : s.capturing = true
  offset : s.rep.offset0 = some d
  source : (s.tx p).source = (c, r) :: l
  near : c + d + s.rep.holdTotal ≤ (s.now : Int) + 80000000

variable {d c : Int} {r : List Byte} {m : List (Int × List Byte)}

theorem State.feed_enqueues (h : s.Feedable p d c r m) (ha : s.alterEngine p = none) (hr : s.queueRoom p (rawAtCount r (c + d)) = true) :
    s.feed p = (((s.setTx p { s.tx p with source := m }).enqueue p (sourceCtl p r) (c + d) (rawAtCount r (c + d))).readNext).replayEnd := by
  simp [State.feed, h.offset, h.source, h.capturing, not_lt.2 h.near, ha, hr]

theorem State.feed_alters {n : Nat} (h : s.Feedable p d c r m) (ha : s.alterEngine p = some n)
    (hr : s.routerRoom n (entryBytes (sourceCtl p r) (rawAtCount r (c + d))) = true) :
    s.feed p = ((s.setTx p { s.tx p with source := m }).intoArrival ⟨n, 2, entryBytes (sourceCtl p r) (rawAtCount r (c + d))⟩).readNext := by
  simp [State.feed, h.offset, h.source, h.capturing, not_lt.2 h.near, ha, hr]

/-- The record leaves the source for the tail of the queue. -/
theorem State.feed_queue (h : s.Feedable p d c r m) (ha : s.alterEngine p = none) (hr : s.queueRoom p (rawAtCount r (c + d)) = true)
    (hg : c + d ∉ (s.tx p).gone) :
    ((s.feed p).tx p).source = m ∧ ((s.feed p).tx p).queue = (s.tx p).queue ++ [⟨sourceCtl p r, rawAtCount r (c + d), c + d, s.now⟩] := by
  obtain ⟨v, hv⟩ : ∃ v, v = s.setTx p { s.tx p with source := m } := ⟨_, rfl⟩
  have hx : v.tx p = { s.tx p with source := m } := hv ▸ State.tx_setTx ..
  obtain ⟨n, hn⟩ := State.enqueue_tx (s := v) (p := p) (by rw [hx]; exact hg) (sourceCtl p r) (rawAtCount r (c + d))
  rw [State.feed_enqueues h ha hr, ← hv, State.replayEnd_tx, tx_of_rep (State.readNext_does _).rep_eq, hn, hx, hv]
  exact ⟨rfl, rfl⟩

/-- The arrival buffer of an engine's pod takes a record behind those it holds. -/
theorem State.intoArrival_arrival (s : State) (q : StreamRec) :
    ((s.intoArrival q).pod (q.eng / 32)).arrival = (s.pod (q.eng / 32)).arrival ++ [q] := by
  rw [State.intoArrival, State.pod_setPod]

/-- The record leaves the source for the altering engine's pod. -/
theorem State.feed_arrival {n : Nat} (h : s.Feedable p d c r m) (ha : s.alterEngine p = some n)
    (hr : s.routerRoom n (entryBytes (sourceCtl p r) (rawAtCount r (c + d))) = true) :
    ((s.feed p).tx p).source = m ∧
      ((s.feed p).pod (n / 32)).arrival = (s.pod (n / 32)).arrival ++ [⟨n, 2, entryBytes (sourceCtl p r) (rawAtCount r (c + d))⟩] := by
  rw [State.feed_alters h ha hr]
  refine ⟨?_, ?_⟩
  · rw [tx_of_rep (State.readNext_does _).rep_eq, tx_of_rep (State.intoArrival_does ..).rep_eq, State.tx_setTx]
  · rw [State.pod, (State.readNext_does _).pods_eq]
    exact State.intoArrival_arrival ..

end Sys2Proof.Machine
end

section
/-! An entry at the head of an emit queue reaches its count (06 R116, R118, R120, R122, R124, R125, 14 R297). -/

namespace Sys2Proof.Machine

variable {s t : State} {p : Nat} {c : Int} {e : Emit} {l : List Emit}

/-! The count is reached. -/

/-- The entry at the head of a queue has reached its count and no hold keeps it. -/
structure State.Due (s : State) (p : Nat) (e : Emit) (l : List Emit) : Prop where
  queue : (s.tx p).queue = e :: l
  free : s.heldBack p (s.shifted p e.count) = false

/-- Chip time is at the count of the head of a queue, which has left it. -/
def State.taken (s : State) (p : Nat) (e : Emit) (l : List Emit) : State :=
  let u := s.reachInt (s.shifted p e.count)
  (u.setTx p { u.tx p with queue := l }).fillBuffer p

theorem State.taken_does (s : State) (p : Nat) (e : Emit) (l : List Emit) : Does [.tb, .rep] s (s.taken p e l) :=
  (((s.reachInt_does _).weaken rfl).step (State.setTx_does ..) rfl).step (State.fillBuffer_does ..) rfl

theorem State.taken_sameLaunch (s : State) (p : Nat) (e : Emit) (l : List Emit) : SameLaunch s (s.taken p e l) :=
  ((s.reach_sameLaunch _).trans (State.setTx_sameLaunch ..)).trans (State.setTx_sameLaunch ..)

theorem State.taken_now (s : State) (p : Nat) (e : Emit) (l : List Emit) : (s.taken p e l).now = (s.reachInt (s.shifted p e.count)).now :=
  now_of_tb ((State.setTx_does ..).step (State.fillBuffer_does ..) rfl).tb_eq

theorem State.taken_tx (s : State) (p : Nat) (e : Emit) (l : List Emit) :
    (s.taken p e l).tx p = { s.tx p with queue := l, buffered := entriesIn (transmitBuffer p) l } := by
  rw [State.taken, State.fillBuffer_setTx, tx_of_rep (s.reachInt_does _).rep_eq]

theorem shifted_of (hrep : t.rep = s.rep) (hod : t.od = s.od) : t.shifted = s.shifted := by
  funext q c
  rw [State.shifted, State.shifted, portUse_of_od hod, hrep]

theorem nextDry_of (hrep : t.rep = s.rep) (hod : t.od = s.od) : t.nextDry = s.nextDry := by
  funext q
  rw [State.nextDry, State.nextDry, shifted_of hrep hod, tx_of_rep hrep, hrep]

theorem replayPorts_of (hsess : t.sess = s.sess) (hod : t.od = s.od) : t.replayPorts = s.replayPorts := by
  rw [State.replayPorts, State.replayPorts, portUse_of_od hod, State.acting, State.acting, hsess]

/-- Whether a HOLD port is dry depends on the entries, the settings and the session, not on chip time. -/
theorem State.dryHold_reachInt (s : State) (a c : Int) : (s.reachInt a).dryHold c = s.dryHold c := by
  have h := s.reachInt_does a
  rw [State.dryHold, State.dryHold, nextDry_of h.rep_eq h.od_eq, replayPorts_of h.sess_eq h.od_eq, dryPolicy_of_od h.od_eq, h.rep_eq]

theorem State.emitDue_head (hd : s.Due p e l) (hc : s.shifted p e.count ≤ c) : s.emitDue p c = s.headDue p e l := by
  simp only [State.emitDue, hd.queue, hc, if_true]

/-- With no HOLD port dry the entry leaves its queue: it starts when it is ready, and is dropped or sent late when it is dry. -/
theorem State.headDue_taken (hd : s.Due p e l) (hn : s.portUse p = 1 → s.dryHold (s.shifted p e.count) = none) :
    s.headDue p e l = (if e.ready ≤ s.shifted p e.count then (s.taken p e l).sendEntry p e.ctl (s.shifted p e.count) e.bytes
      else if s.dryPolicy p = 1 then (s.taken p e l).dropDry p
      else ((s.taken p e l).reachInt e.ready).sendEntry p e.ctl (s.shifted p e.count) e.bytes).replayEnd := by
  have hnone : (if s.portUse p = 1 then (s.reachInt (s.shifted p e.count)).dryHold (s.shifted p e.count) else none) = none := by
    split
    next h => rw [State.dryHold_reachInt, hn h]
    next => rfl
  simp only [State.headDue, hd.free, hnone, Bool.false_eq_true, if_false]
  rw [apply_ite State.replayEnd, apply_ite State.replayEnd]
  rfl

/-- A dry HOLD port holds first. -/
theorem State.headDue_holds {h : Int} {q : Nat} (hd : s.Due p e l) (hu : s.portUse p = 1) (hy : s.dryHold (s.shifted p e.count) = some (h, q)) :
    s.headDue p e l = (s.reachInt (s.shifted p e.count)).holdStart q h := by
  simp only [State.headDue, hd.free, hu, State.dryHold_reachInt, hy, Bool.false_eq_true, if_false, if_true]

/-! The entry starts. -/

/-- A sound entry of FAULT 0 to 3 that fits its port starts as it is. -/
theorem State.sendEntry_starts {ctl : L48} {r : List Byte} (hs : ∀ x ∈ s.side, isTransmit p x.1 = false) (hf : ctl.toNat % 16 < 4)
    (hr : s.emitFits p r = true) (due : Int) : s.sendEntry p ctl due r = s.startFrame p ctl due r := by
  have h4 : ctl.toNat % 16 ≠ 4 := by omega
  have h5 : ¬5 ≤ ctl.toNat % 16 := by omega
  simp [State.sendEntry, State.readSides_sound hs, State.sidesBad_sound hs, h4, h5, hr]

/-- One that an uncorrectable byte spoils is counted, and its row given up. -/
theorem State.sendEntry_spoiled (hs : s.sidesBad (isTransmit p) = true) (ctl : L48) (due : Int) (r : List Byte) :
    s.sendEntry p ctl due r = ((s.readSides (isTransmit p)).healSides (isTransmit p)).bump 0x2401 10 := by
  have hbad : (s.readSides (isTransmit p)).sidesBad (isTransmit p) = true := (sidesBad_of_side (s.readSides_does _).side_eq _).trans hs
  simp only [State.sendEntry, hbad, if_true]

theorem State.startFrame_queue (s : State) (p : Nat) (ctl : L48) (due : Int) (r : List Byte) :
    ((s.startFrame p ctl due r).tx p).queue = (s.tx p).queue := by
  have htx (x : TxPort) (hx : x.queue = (s.tx p).queue) : ((s.setTx p x).tx p).queue = (s.tx p).queue := by rw [State.tx_setTx, hx]
  unfold State.startFrame
  extract_lets x from_ on at_ s1
  have h1 : (s1.tx p).queue = (s.tx p).queue := htx _ rfl
  split
  · exact htx _ rfl
  · split
    · exact htx _ rfl
    · split <;> exact h1
  · show ((s1.setTx p _).tx p).queue = _
    rw [State.tx_setTx]
    exact h1
  · exact h1

/-- A CAN frame waits for its bus. -/
theorem State.startFrame_can (hk : portKind p = .can) (ctl : L48) (due : Int) (r : List Byte) :
    s.startFrame p ctl due r = s.setTx p { s.tx p with waiting := (s.tx p).waiting ++ [⟨ctl, r, due, false, false, none⟩] } := by
  simp only [State.startFrame, hk]

/-- Where a frame is launched on an idle line: the count it is due at, or now when that has passed. -/
def State.launchCount (s : State) (p : Nat) (due : Int) : Option Int := if (s.tx p).started.isEmpty then some (max due (s.now : Int)) else none

/-- A frame of a MAC leaves. -/
theorem State.startFrame_mac (hk : portKind p = .mac) (ctl : L48) (due : Int) (r : List Byte) :
    s.startFrame p ctl due r = (s.setTx p { s.tx p with started := (s.tx p).started ++ [⟨ctl, r, due, false, false, s.launchCount p due⟩] }).send
      (.frame p (s.txLaunch p ctl ((s.launchCount p due).map fun _ => s.launchAt p (s.place5 p (max due (s.now : Int)) / 5)) r)) := by
  simp only [State.startFrame, hk]
  rfl

/-! An entry that does not start. -/

theorem State.dropDry_queue (s : State) (p : Nat) : ((s.dropDry p).tx p).queue = (s.tx p).queue := by
  have hbump : ((s.bump 0x2401 6).tx p).queue = (s.tx p).queue := congrArg _ (tx_of_rep (s.bump_does ..).rep_eq p)
  unfold State.dropDry
  extract_lets u
  split
  · rw [tx_of_rep (State.logCount_does ..).rep_eq, State.tx_setTx]
    exact hbump
  · exact hbump

theorem State.dropDry_counted (s : State) (p : Nat) : Counted s (s.dropDry p) 0x2401 6 := by
  have hcount : Counted s (s.bump 0x2401 6) 0x2401 6 := s.bump_counted _ _
  unfold State.dropDry
  extract_lets u
  split
  · exact (hcount.later (State.setTx_does u p _).od_eq).upstream (State.logE_upstream ..) (by decide)
  · exact hcount

theorem State.holdStart_rep (s : State) (q : Nat) (h : Int) :
    (s.holdStart q h).rep = { s.rep with held := some (h, q), st := 4 } ∧ Counted s (s.holdStart q h) 0x2401 7 := by
  obtain ⟨u, hu⟩ : ∃ u : State, u = { s with rep := { s.rep with held := some (h, q), st := 4 } } := ⟨_, rfl⟩
  have hcount : Counted s (u.bump 0x2401 7) 0x2401 7 := (u.bump_counted _ _).of_cfg (cfg_of_od (by rw [hu]) _ _)
  unfold State.holdStart
  rw [← hu]
  refine ⟨?_, hcount.upstream (State.logHealth_upstream ..) (by decide)⟩
  rw [(State.logHealth_does ..).rep_eq, (u.bump_does ..).rep_eq, hu]

/-! The whole. -/

/-- An entry that starts as it is: it was ready by its count, its FAULT is 0 to 3, its KIND fits the port, and its transmit buffer is sound. -/
structure State.Startable (s : State) (p : Nat) (e : Emit) : Prop where
  ready : e.ready ≤ s.shifted p e.count
  fault : e.ctl.toNat % 16 < 4
  fits : s.emitFits p e.bytes = true
  sound : ∀ r ∈ s.side, isTransmit p r.1 = false

variable (hd : s.Due p e l) (hn : s.portUse p = 1 → s.dryHold (s.shifted p e.count) = none)
include hd hn

theorem State.headDue_ready (hr : e.ready ≤ s.shifted p e.count) :
    s.headDue p e l = ((s.taken p e l).sendEntry p e.ctl (s.shifted p e.count) e.bytes).replayEnd := by
  rw [State.headDue_taken hd hn, if_pos hr]

/-- A ready entry starts. -/
theorem State.headDue_starts (h : s.Startable p e) :
    s.headDue p e l = ((s.taken p e l).startFrame p e.ctl (s.shifted p e.count) e.bytes).replayEnd := by
  rw [State.headDue_ready hd hn h.ready, State.sendEntry_starts (by rw [(s.taken_does ..).side_eq]; exact h.sound) h.fault
    (((s.taken_sameLaunch ..).emitFits ..).trans h.fits)]

theorem State.headDue_starts_queue (h : s.Startable p e) : ((s.headDue p e l).tx p).queue = l := by
  rw [State.headDue_starts hd hn h, State.replayEnd_tx, State.startFrame_queue, State.taken_tx]

/-- On a CAN port it waits for the bus. -/
theorem State.headDue_can (h : s.Startable p e) (hk : portKind p = .can) : (s.headDue p e l).out = s.out ∧
      ((s.headDue p e l).tx p).waiting = (s.tx p).waiting ++ [⟨e.ctl, e.bytes, s.shifted p e.count, false, false, none⟩] := by
  obtain ⟨u, hu⟩ : ∃ u, u = s.taken p e l := ⟨_, rfl⟩
  have htaken : Does [.tb, .rep] s u := hu ▸ s.taken_does ..
  have hwaiting : (u.tx p).waiting = (s.tx p).waiting := by rw [hu, State.taken_tx]
  rw [State.headDue_starts hd hn h, State.startFrame_can hk, State.replayEnd_tx, State.tx_setTx, State.replayEnd_out, ← hu, hwaiting]
  exact ⟨by rw [(State.setTx_does ..).out_eq, htaken.out_eq], rfl⟩

/-- On a MAC it leaves. -/
theorem State.headDue_mac (h : s.Startable p e) (hk : portKind p = .mac) :
    let c := s.shifted p e.count
    let from_ := max c ((s.reachInt c).now : Int)
    let on := if (s.tx p).started.isEmpty then some from_ else none
    (s.headDue p e l).out = s.out ++ [.frame p (s.txLaunch p e.ctl
        (on.map fun _ => s.launchAt p (s.place5 p from_ / 5)) e.bytes)] ∧
      ((s.headDue p e l).tx p).started = (s.tx p).started ++ [⟨e.ctl, e.bytes, c, false, false, on⟩] := by
  intro c from_ on
  obtain ⟨u, hu⟩ : ∃ u, u = s.taken p e l := ⟨_, rfl⟩
  have htaken : Does [.tb, .rep] s u := hu ▸ s.taken_does ..
  have hl : SameLaunch s u := hu ▸ s.taken_sameLaunch ..
  have hnow : u.now = (s.reachInt c).now := hu ▸ s.taken_now ..
  have hstarted : (u.tx p).started = (s.tx p).started := by rw [hu, State.taken_tx]
  have hon : u.launchCount p c = on := by rw [State.launchCount, hstarted, hnow]
  rw [State.headDue_starts hd hn h, State.startFrame_mac hk, State.replayEnd_tx, State.replayEnd_out, ← hu, hon, hl.txLaunch, hl.launchAt,
    hl.place5, hnow, hstarted]
  refine ⟨?_, congrArg _ ((tx_of_rep (State.send_rep ..) p).trans (State.tx_setTx ..))⟩
  rw [State.send_out, (State.setTx_does ..).out_eq, htaken.out_eq]

/-- One that is spoiled is discarded and counted (14 R297). -/
theorem State.headDue_spoiled (hr : e.ready ≤ s.shifted p e.count) (hs : s.sidesBad (isTransmit p) = true) :
    ((s.headDue p e l).tx p).queue = l ∧ (s.headDue p e l).out = s.out ∧ Counted s (s.headDue p e l) 0x2401 10 := by
  obtain ⟨u, hu⟩ : ∃ u, u = ((s.taken p e l).readSides (isTransmit p)).healSides (isTransmit p) := ⟨_, rfl⟩
  have hread : Does [.od, .cel, .side] (s.taken p e l) u := hu ▸ ((State.readSides_does ..).weaken rfl).step (State.healSides_does ..) rfl
  have hcfg : u.cfg 0x2401 10 = s.cfg 0x2401 10 := by
    rw [hu, cfg_of_od (State.healSides_does ..).od_eq, State.readSides_cfg _ _ (by decide) (by decide), cfg_of_od (s.taken_does ..).od_eq]
  have hbad : (s.taken p e l).sidesBad (isTransmit p) = true := (sidesBad_of_side (s.taken_does ..).side_eq _).trans hs
  rw [State.headDue_ready hd hn hr, State.sendEntry_spoiled hbad, ← hu]
  have hbump := u.bump_does 0x2401 10
  refine ⟨?_, ?_, ((u.bump_counted _ _).of_cfg hcfg).upstream (State.replayEnd_upstream _) (by decide)⟩
  · rw [State.replayEnd_tx, tx_of_rep hbump.rep_eq, tx_of_rep hread.rep_eq, State.taken_tx]
  · rw [State.replayEnd_out, hbump.out_eq, hread.out_eq, (s.taken_does ..).out_eq]

/-- A dry one under DROP is discarded and counted (06 R124). -/
theorem State.headDue_drops (hr : s.shifted p e.count < e.ready) (hy : s.dryPolicy p = 1) :
    ((s.headDue p e l).tx p).queue = l ∧ (s.headDue p e l).out = s.out ∧ Counted s (s.headDue p e l) 0x2401 6 := by
  obtain ⟨u, hu⟩ : ∃ u, u = s.taken p e l := ⟨_, rfl⟩
  have htaken : Does [.tb, .rep] s u := hu ▸ s.taken_does ..
  have hqueue : (u.tx p).queue = l := by rw [hu, State.taken_tx]
  rw [State.headDue_taken hd hn, if_neg (not_le.2 hr), if_pos hy, ← hu]
  have hcount : Counted s (u.dropDry p) 0x2401 6 := (u.dropDry_counted p).of_cfg (cfg_of_od htaken.od_eq _ _)
  refine ⟨?_, ?_, hcount.upstream (State.replayEnd_upstream _) (by decide)⟩
  · rw [State.replayEnd_tx, State.dropDry_queue, hqueue]
  · rw [State.replayEnd_out, (State.dropDry_does ..).out_eq, htaken.out_eq]

omit hn

/-- A hold that starts is counted, and keeps the entry in its queue (06 R125). -/
theorem State.headDue_holds_at {h : Int} {q : Nat} (hu : s.portUse p = 1) (hy : s.dryHold (s.shifted p e.count) = some (h, q)) :
    (s.headDue p e l).rep.held = some (h, q) ∧ (s.headDue p e l).rep.st = 4 ∧ ((s.headDue p e l).tx p).queue = (s.tx p).queue ∧
      Counted s (s.headDue p e l) 0x2401 7 := by
  have hreach := s.reachInt_does (s.shifted p e.count)
  obtain ⟨hrep, hcount⟩ := (s.reachInt (s.shifted p e.count)).holdStart_rep q h
  rw [State.headDue_holds hd hu hy]
  refine ⟨by rw [hrep], by rw [hrep], ?_, hcount.of_cfg (cfg_of_od hreach.od_eq _ _)⟩
  rw [State.tx, hrep, hreach.rep_eq]
  rfl

end Sys2Proof.Machine
end

section
/-! Holds that end, and CAN frames that find their bus idle (06 R122, R125). -/

namespace Sys2Proof.Machine

variable {s t u : State} {p : Nat} {w : Sending} {l : List Sending}

/-! The end of a hold. -/

/-- Replay after a hold from `h` to `r`. -/
def Replay.resumed (x : Replay) (h : Int) (r : Nat) : Replay :=
  { x with held := none, st := if x.st = 4 then 3 else x.st, holdTotal := x.holdTotal + ((r : Int) - h).toNat, offset := x.offset + ((r : Int) - h) }

theorem State.resume_rep {h : Int} {j r : Nat} (hh : s.rep.held = some (h, j)) (hr : s.resumeAt h j = some r) :
    s.resume.rep = s.rep.resumed h r := by
  simp only [State.resume, hh, hr]
  rw [(State.logHealth_does ..).rep_eq, State.put_rep, (s.reach_does r).rep_eq]
  rfl

/-! Arbitration. -/

/-- The count for which a CAN frame that wins its bus was launched: its own when it waited for nothing. -/
def State.wonCount (s : State) (p : Nat) (w : Sending) : Option Int :=
  if (s.tx p).started.isEmpty && !w.own && !w.arb && decide ((s.now : Int) ≤ w.due) then some w.due else none

/-- What a frame that wins its bus puts on it. -/
def State.wonFrame (s : State) (p : Nat) (w : Sending) : Output :=
  if w.own then .canOwn p (rawId w.bytes) (rawPayload w.bytes)
  else .frame p (s.txLaunch p w.ctl ((s.wonCount p w).map (s.launchAt p)) w.bytes)

variable (hw : (s.tx p).waiting = w :: l) (hb : (s.port p).errState ≠ 2)
include hw hb

theorem State.arbitrate_won : s.arbitrate p true =
    ((s.setTx p { s.tx p with waiting := l, started := (s.tx p).started ++ [{ w with on := s.wonCount p w }] }).send (s.wonFrame p w)).replayEnd := by
  simp only [State.arbitrate, hw, hb, if_false, if_true, ← apply_ite]
  rfl

theorem State.arbitrate_lost : s.arbitrate p false = (s.setTx p { s.tx p with waiting := { w with arb := true } :: l }).bump 0x2401 9 := by
  simp only [State.arbitrate, hw, hb, Bool.false_eq_true, if_false]

/-- A frame that wins leaves. -/
theorem State.arbitrate_leaves : ((s.arbitrate p true).tx p).waiting = l ∧
    ((s.arbitrate p true).tx p).started = (s.tx p).started ++ [{ w with on := s.wonCount p w }] ∧ (s.arbitrate p true).out = s.out ++ [s.wonFrame p w] := by
  rw [State.arbitrate_won hw hb, State.replayEnd_tx, State.replayEnd_out, tx_of_rep (State.send_rep ..), State.tx_setTx]
  exact ⟨rfl, rfl, rfl⟩

/-- One that loses tries again with ARB. -/
theorem State.arbitrate_retries : SameBut [.rep, .od] s (s.arbitrate p false) ∧ ((s.arbitrate p false).tx p).waiting = { w with arb := true } :: l ∧
    Counted s (s.arbitrate p false) 0x2401 9 := by
  rw [State.arbitrate_lost hw hb]
  refine ⟨(((State.setTx_does ..).weaken rfl).step (State.bump_does ..) rfl).same, ?_, (State.bump_counted ..).of_cfg (cfg_of_od rfl _ _)⟩
  rw [tx_of_rep (State.bump_does ..).rep_eq, State.tx_setTx]

end Sys2Proof.Machine
end

section
/-! The record of a frame sent (06 R121, 01 R18). -/

namespace Sys2Proof.Machine

variable {s t u : State} {p : Nat} {w : Sending} {l : List Sending}

/-! What a record leaves of replay's counters. -/

theorem State.exportRecord_cfg (s : State) (r : List Byte) {i b : Nat} (hb : b < 256) (hi : i ≠ 0x2701) : (s.exportRecord r).cfg i b = s.cfg i b := by
  unfold State.exportRecord
  extract_lets es
  generalize es = xs
  induction xs generalizing s with
  | nil => rfl
  | cons x xs ih =>
    refine (ih _).trans ?_
    by_cases hfull : 262144 < s.exportBytes + r.length
    · simp only [hfull, if_true]
      exact s.bump_cfg_ne (by decide) hb hi
    · simp only [hfull, if_false]
      exact (cfg_of_od (State.drainExports_does _).od_eq i b).trans (cfg_of_od rfl i b)

theorem State.enqueue_cfg (s : State) (p : Nat) (ctl : L48) (c : Int) (r : List Byte) {b : Nat} (hb : b < 11) :
    (s.enqueue p ctl c r).cfg 0x2401 b = s.cfg 0x2401 b := by
  unfold State.enqueue
  extract_lets x bad u
  split
  · rfl
  · split
    · exact State.cfg_put_ne _ _ (by decide) (by omega) (by simp; omega)
    · rfl

/-- The mirror counts what it does not forward at 0x2401:0C, and order faults at :0B. -/
theorem State.mirrorForward_cfg (s : State) (p : Nat) (a : Int) (r : List Byte) {b : Nat} (hb : b < 11) :
    (s.mirrorForward p a r).cfg 0x2401 b = s.cfg 0x2401 b := by
  have hdrop : (s.bump 0x2401 12).cfg 0x2401 b = s.cfg 0x2401 b := State.cfg_put_ne _ _ (by decide) (by omega) (by simp; omega)
  unfold State.mirrorForward
  extract_lets q count e
  split
  · split
    · exact hdrop
    · split
      · rfl
      · split
        · exact s.enqueue_cfg _ _ _ _ hb
        · exact hdrop
  · rfl

/-- A record that enters at a port that takes it counts nothing of replay but what the mirror drops. -/
theorem State.accept_cfg (h : s.takes p = true) (gen : Nat) (edge : Int) (kind aux flags ident : Nat) (payload : List Byte) {b : Nat} (hb : b < 11) :
    (s.accept p gen edge kind aux flags ident payload).cfg 0x2401 b = s.cfg 0x2401 b := by
  obtain ⟨-, -, -, hframe, hfull, -⟩ := State.takes_iff.1 h
  obtain ⟨x, hx⟩ : ∃ x, x = s.setPort p { s.port p with debt := (s.port p).debtNow s.now + ratePeriod p, debtAt := s.now } := ⟨_, rfl⟩
  obtain ⟨y, hy⟩ : ∃ y, y = (x.readSides (isReceive p)).healSides (isReceive p) := ⟨_, rfl⟩
  have hset : Does [.ports] s x := hx ▸ s.setPort_does ..
  have hread : Does [.od, .cel, .side] x y := hy ▸ ((x.readSides_does _).weaken rfl).step (State.healSides_does ..) rfl
  have hyframe : (y.port p).inFrame = false := by rw [port_of_ports hread.ports_eq, hx, State.port_setPort, hframe]
  have hyfull : y.stagingFull = false := (stagingFull_of_store (hread.store_eq.trans hset.store_eq)).trans hfull
  have hycfg : y.cfg 0x2401 b = s.cfg 0x2401 b := by
    rw [hy, cfg_of_od (State.healSides_does ..).od_eq, State.readSides_cfg _ _ (by omega) (by decide), cfg_of_od hset.od_eq]
  rw [State.accept_of_takes h, ← hx, ← hy, State.putRaw_open hyframe hyfull, State.mirrorForward_cfg _ _ _ _ hb,
    State.exportRecord_cfg _ _ (by omega) (by decide), cfg_of_od (State.offer_does ..).od_eq, (State.stage_upstream ..).counters (by omega), hycfg]

/-! The record. -/

/-- A frame sent is counted, and so is its being late. -/
def State.countSent (s : State) (late : Bool) : State := if late then (s.bump 0x2401 4).bump 0x2401 5 else s.bump 0x2401 4

theorem State.countSent_does (s : State) (late : Bool) : Does [.od] s (s.countSent late) :=
  Does.ite (fun _ => (s.bump_does ..).step (State.bump_does ..) rfl) fun _ => s.bump_does ..

theorem State.countSent_cfg_ne (s : State) (late : Bool) {i b : Nat} (hb : b < 256) (h : i ≠ 0x2401 ∨ 6 ≤ b) :
    (s.countSent late).cfg i b = s.cfg i b := by
  have hne (k : Nat) (hk : k < 6) : (i, b) ≠ (0x2401, k) := by simp only [ne_eq, Prod.mk.injEq]; omega
  have h4 : (s.bump 0x2401 4).cfg i b = s.cfg i b := State.cfg_put_ne _ _ (by decide) hb (hne 4 (by decide))
  unfold State.countSent
  split
  · exact (State.cfg_put_ne _ _ (by decide) hb (hne 5 (by decide))).trans h4
  · exact h4

theorem State.countSent_counted (s : State) (late : Bool) : Counted s (s.countSent late) 0x2401 4 := by
  unfold State.countSent
  split
  · exact (State.cfg_put_ne _ _ (by decide) (by decide) (by decide)).trans (s.bump_counted _ _)
  · exact s.bump_counted _ _

/-- The PHY's latency and the USE of a port are no counters of replay. -/
theorem State.countSent_phyOut (s : State) (late : Bool) (p : Nat) : (s.countSent late).phyOut p = s.phyOut p := by
  rw [State.phyOut, State.phyOut, port_of_ports (s.countSent_does late).ports_eq]
  split
  next r _ => exact s.countSent_cfg_ne late (by omega) (.inr (by omega))
  next => rfl

theorem State.countSent_portUse (s : State) (late : Bool) {p : Nat} (hp : p < 256) : (s.countSent late).portUse p = s.portUse p := by
  rw [State.portUse, State.portUse, State.repEntry, State.repEntry, s.countSent_cfg_ne late (by omega) (.inl (by omega))]

/-- Whether a port records a frame sent that lay at the medium at a count: it captures then, or replay or mirror uses it, and it is no link carrier (01 R18). -/
def State.recordsSent (s : State) (p : Nat) (m : Int) : Bool :=
  ((if m < ((s.sw.units.get {} (portUnit p)).since : Int) then decide (s.settingAt p m 1 = 1) else (s.port p).enabled) ||
    s.portUse p = 1 || s.portUse p = 2) && s.portUse p != 3

theorem State.recordsSent_now {m : Int} (hm : ((s.sw.units.get {} (portUnit p)).since : Int) ≤ m)
    (hon : (s.port p).enabled = true ∨ s.portUse p = 1 ∨ s.portUse p = 2) (h3 : s.portUse p ≠ 3) : s.recordsSent p m = true := by
  rw [State.recordsSent, if_neg (not_lt.2 hm)]
  rcases hon with h | h | h <;> simp [h, h3]

/-- A frame of the port's entries that was sent is counted, and recorded with TX where the port records such frames. -/
theorem State.recordSent_eq (ho : w.own = false) {e : Stamp} {m : Int} (hu : u = s.countSent (s.isLate p (s.startTime p w e) w.due))
    (hm : m = s.startTime p w e + u.phyOut p) (aux more : Nat) (payload : List Byte) :
    s.recordSent p w e aux more payload =
      if u.recordsSent p m then u.acceptAt p (u.genAt (portUnit p) m) m (rawKind w.bytes) aux
        (flTx + (if s.isLate p (s.startTime p w e) w.due then flLate else 0) + (if w.arb then flArb else 0) + more) (sentId w.bytes payload) payload
      else u := by
  rw [State.recordSent, ho, hm, hu]
  rfl

/-- A record of a pin timestamp enters with UNCAL before the first calibration (02 R32). -/
theorem State.acceptAt_entered (hp : p < 256) (h : s.takes p = true) {kind : Nat} (hk : kind < 16) (gen : Nat) (edge : Int) (aux flags ident : Nat)
    (payload : List Byte) :
    Entered s (s.acceptAt p gen edge kind aux flags ident payload) p gen edge kind aux (s.pinFlags flags) ident payload := by
  have hflags : flags + flUncal * bit01 (!s.tb.cal) = s.pinFlags flags := by rw [flUncal, Nat.one_mul, State.pinFlags]
  rw [State.acceptAt, hflags]
  exact State.accept_entered hp h hk ..

/-- A record that stands where it belongs does so as seen from any earlier state with the same session and the same records before it. -/
theorem Recorded.since {gen kind aux flags ident : Nat} {edge : Int} {payload : List Byte} (h : Recorded u t p gen edge kind aux flags ident payload)
    (hcls : u.cls = s.cls) (hsess : u.sess = s.sess) : Recorded s t p gen edge kind aux flags ident payload := by
  rw [Recorded, ← hcls, ← recording_of_sess hsess]
  exact h

/-- The flags of a frame sent beside those of a receiver of it (03 R69). -/
def sentFlags (late arb : Bool) : Nat := 256 + (if late then 512 else 0) + (if arb then 1024 else 0)

/-- A frame of a port's entries whose end is reported in `s` stands in `t` as one sent: it is counted and, while the port captures or serves replay or
mirror, recorded with TX under the tick at the medium (06 R121, 03 R52). -/
def Sent (s t : State) (p : Nat) (w : Sending) (e : Stamp) (aux more : Nat) (payload : List Byte) : Prop :=
  let c := s.startTime p w e
  let m : Int := c + s.phyOut p
  Counted s t 0x2401 4 ∧
    (((s.sw.units.get {} (portUnit p)).since : Int) ≤ m → (s.port p).enabled = true ∨ s.portUse p = 1 ∨ s.portUse p = 2 → s.portUse p ≠ 3 →
      Recorded s t p (s.genAt (portUnit p) m) m (rawKind w.bytes) aux (s.pinFlags (sentFlags (s.isLate p c w.due) w.arb + more))
        (sentId w.bytes payload) payload)

theorem State.recordSent_sent (hp : p < 256) (ho : w.own = false) (h : s.takes p = true) (e : Stamp) (aux more : Nat) (payload : List Byte) :
    ((s.recordSent p w e aux more payload).tx p).started = (s.tx p).started ∧ Sent s (s.recordSent p w e aux more payload) p w e aux more payload := by
  obtain ⟨c, hc⟩ : ∃ c, c = s.startTime p w e := ⟨_, rfl⟩
  obtain ⟨m, hm⟩ : ∃ m : Int, m = c + s.phyOut p := ⟨_, rfl⟩
  obtain ⟨u, hu⟩ : ∃ u, u = s.countSent (s.isLate p c w.due) := ⟨_, rfl⟩
  have hd : Does [.od] s u := hu ▸ s.countSent_does _
  have hcount : Counted s u 0x2401 4 := hu ▸ s.countSent_counted _
  have hphy : m = c + u.phyOut p := by rw [hm, hu, State.countSent_phyOut]
  have huse : u.portUse p = s.portUse p := hu ▸ s.countSent_portUse _ hp
  have hgen : u.genAt (portUnit p) m = s.genAt (portUnit p) m := by rw [State.genAt, State.genAt, hd.sw_eq]
  have htakes : u.takes p = true := (takes_of hd.ports_eq hd.store_eq hd.side_eq p).trans h
  rw [Sent, ← hc, ← hm, State.recordSent_eq ho (hc ▸ hu) (hc ▸ hphy) aux more payload, ← hc]
  split
  next hon =>
    have hent := State.acceptAt_entered hp htakes (Nat.mod_lt _ (by decide) : rawKind w.bytes < 16) (u.genAt (portUnit p) m) m aux
      (sentFlags (s.isLate p c w.due) w.arb + more) (sentId w.bytes payload) payload
    rw [State.pinFlags, hd.tb_eq, ← State.pinFlags] at hent
    refine ⟨(hent.started p).trans (congrArg _ (tx_of_rep hd.rep_eq p)), ?_, fun _ _ _ => hgen ▸ hent.recorded.since hd.cls_eq hd.sess_eq⟩
    exact (State.accept_cfg htakes _ _ _ _ _ _ _ (by decide)).trans hcount
  next hoff =>
    refine ⟨congrArg _ (tx_of_rep hd.rep_eq p), hcount, fun hm hon h3 => absurd (State.recordsSent_now ?_ ?_ ?_) hoff⟩
    · rwa [hd.sw_eq]
    · rwa [port_of_ports hd.ports_eq, huse]
    · rwa [huse]

/-! The frame sent. -/

theorem State.transmitted_eq (hs : (s.tx p).started = w :: l) {d : Stamp} (hu : u = (s.reach d.count).setTx p { s.tx p with started := l }) :
    s.transmitted p d = (u.recordSent p w d (u.sentAux p w.bytes (u.sentBytes p w.ctl w.bytes).1) (u.sentBytes p w.ctl w.bytes).2
      (u.sentBytes p w.ctl w.bytes).1).replayEnd := by
  simp only [State.transmitted, hs, hu]

/-- What is sent depends on what a launch is made from, the switch and the calibration; it enters under the same session and the same records before it. -/
theorem Sent.since {e : Stamp} {aux more : Nat} {payload : List Byte} (h : Sent u t p w e aux more payload) (hl : SameLaunch s u) (hsw : u.sw = s.sw)
    (hcal : u.tb.cal = s.tb.cal) (hcls : u.cls = s.cls) (hsess : u.sess = s.sess) : Sent s t p w e aux more payload := by
  obtain ⟨hcount, hrecord⟩ := h
  rw [hl.startTime, hl.phyOut, hl.isLate, State.genAt, hsw, ← State.genAt, State.pinFlags, hcal, ← State.pinFlags, port_of_ports hl.ports,
    portUse_of_od hl.od] at hrecord
  exact ⟨hcount.of_cfg (cfg_of_od hl.od _ _), fun hm hon h3 => (hrecord hm hon h3).since hcls hsess⟩

theorem Sent.later {v : State} {e : Stamp} {aux more : Nat} {payload : List Byte} (h : Sent s t p w e aux more payload) (hup : Upstream t v)
    (hcls : v.cls = t.cls) (hlanes : v.store.lanes = t.store.lanes) : Sent s v p w e aux more payload :=
  ⟨h.1.upstream hup (by decide), fun hm hon h3 => (h.2 hm hon h3).later hcls hlanes⟩

/-- FRAME_TRANSMITTED: the sending is no longer in progress, and stands as one sent. -/
theorem State.transmitted_sent (hp : p < 256) (hs : (s.tx p).started = w :: l) (ho : w.own = false) (h : s.takes p = true) (d : Stamp) :
    let b := s.sentBytes p w.ctl w.bytes
    ((s.transmitted p d).tx p).started = l ∧ Sent s (s.transmitted p d) p w d (s.sentAux p w.bytes b.1) b.2 b.1 := by
  intro b
  obtain ⟨u, hu⟩ : ∃ u, u = (s.reach d.count).setTx p { s.tx p with started := l } := ⟨_, rfl⟩
  have hd : Does [.tb, .rep] s u := hu ▸ ((s.reach_does _).weaken rfl).step (State.setTx_does ..) rfl
  have hl : SameLaunch s u := hu ▸ (s.reach_sameLaunch _).trans (State.setTx_sameLaunch ..)
  have hcal : u.tb.cal = s.tb.cal := by
    obtain ⟨e, k, htb⟩ := s.reach_tb d.count
    rw [hu, (State.setTx_does ..).tb_eq, htb]
  have htakes : u.takes p = true := (takes_of hd.ports_eq hd.store_eq hd.side_eq p).trans h
  obtain ⟨hleft, hsent⟩ := State.recordSent_sent hp ho htakes d (s.sentAux p w.bytes b.1) b.2 b.1
  rw [State.transmitted_eq hs hu, hl.sentBytes, hl.sentAux]
  refine ⟨by rw [State.replayEnd_tx, hleft, hu, State.tx_setTx], ?_⟩
  exact (hsent.since hl hd.sw_eq hcal hd.cls_eq hd.sess_eq).later (State.replayEnd_upstream _) (State.replayEnd_does _).cls_eq
    (State.replayEnd_beside _).lanes

end Sys2Proof.Machine
end

section
/-! Every replay command. -/

namespace Sys2Proof.Machine

/-- Settles O47: each command's meaning is one operation of replay, and what that does in each case is its lemma. -/
theorem replayCommandsComplete : Obligations.ReplayCommandsComplete := by
  intro s p hc
  refine ⟨fun d c r m hd hsrc hn => ?_, fun n e l hq hle hfree => ?_, fun h j r hh hr => ?_, fun i w l hw hb => ?_, fun d w l hs ho ht => ?_⟩
  · have hf : s.Feedable p.val d c r m := ⟨hc, hd, hsrc, hn⟩
    exact ⟨fun ha hr hg => ⟨_, rfl, State.feed_queue hf ha hr hg⟩, fun n ha hr => ⟨_, rfl, State.feed_arrival hf ha hr⟩⟩
  · have hd : s.Due p.val e l := ⟨hq, hfree⟩
    have hexec : exec (.emitCountReached ⟨p, n⟩) s = .next (s.headDue p.val e l) := by
      rw [← State.emitDue_head hd hle]
      exact congrArg Host.Outcome.next (if_pos hc)
    refine ⟨fun hn => ⟨fun hr hf hfit hs => ?_, fun hr hs => ?_, fun hr hy => ?_⟩, fun h q hu hy => ?_⟩
    · have h : s.Startable p.val e := ⟨hr, hf, hfit, hs⟩
      exact ⟨_, hexec, State.headDue_starts_queue hd hn h, State.headDue_mac hd hn h, State.headDue_can hd hn h⟩
    · exact ⟨_, hexec, State.headDue_spoiled hd hn hr hs⟩
    · exact ⟨_, hexec, State.headDue_drops hd hn hr hy⟩
    · exact ⟨_, hexec, State.headDue_holds_at hd hu hy⟩
  · exact ⟨_, rfl, State.resume_rep hh hr⟩
  · exact ⟨⟨_, rfl, State.arbitrate_leaves hw hb⟩, _, rfl, State.arbitrate_retries hw hb⟩
  · exact ⟨_, rfl, State.transmitted_sent p.isLt hs ho ht d⟩

end Sys2Proof.Machine
end

section
/-! The link's state beside its operations: what logging, the store and the selection of records leave of it (07 R135 to R137, 18 R409). -/

namespace Sys2Proof.Machine

variable {l : List Part} {s t u : State}

theorem Does.link_eq (h : Does l s t) (hl : l.contains .link = false := by rfl) : t.link = s.link := h.same .link (by simpa using hl)

theorem Does.fab_eq (h : Does l s t) (hl : l.contains .fab = false := by rfl) : t.fab = s.fab := h.same .fab (by simpa using hl)

/-- Chip time that runs on changes the time base alone. -/
theorem State.reach_eq (s : State) (c : Nat) : ∃ x, s.reach c = { s with tb := x } := by
  unfold State.reach
  split <;> exact ⟨_, rfl⟩

@[simp] theorem State.reach_link (s : State) (c : Nat) : (s.reach c).link = s.link := (s.reach_does c).link_eq

@[simp] theorem State.reach_od (s : State) (c : Nat) : (s.reach c).od = s.od := (s.reach_does c).od_eq

@[simp] theorem State.reach_out (s : State) (c : Nat) : (s.reach c).out = s.out := (s.reach_does c).out_eq

@[simp] theorem State.reach_cfg (s : State) (c i b : Nat) : (s.reach c).cfg i b = s.cfg i b := cfg_of_od (s.reach_od c) i b

/-! What waits for its class apart, logging leaves the link as it is. -/

/-- The link without what waits for its class: the decimation, the open blocks, the queues, and whether a clash of lanes has been logged. -/
def Link.core (l : Link) : Link := { l with decim := [], opened := [], queues := [], laneClash := false }

theorem Does.core_eq (h : Does l s t) (hl : l.contains .link = false := by rfl) : t.link.core = s.link.core := congrArg Link.core (h.link_eq hl)

theorem ite_core {c : Prop} [Decidable c] {a b : State} (ha : a.link.core = s.link.core) (hb : b.link.core = s.link.core) :
    (if c then a else b).link.core = s.link.core := by
  split
  · exact ha
  · exact hb

theorem State.bump_core (s : State) (i b : Nat) : (s.bump i b).link.core = s.link.core := (s.bump_does ..).core_eq

theorem State.linkHealth_core (s : State) (r : List Byte) : (s.linkHealth r).link.core = s.link.core :=
  ite_core rfl (ite_core (s.bump_core ..) rfl)

theorem State.health_core (s : State) (tick : L48) (r : LogRow) : (s.health tick r).link.core = s.link.core :=
  (State.linkHealth_core _ _).trans (s.ctlStore_does _).core_eq

theorem State.pushLog_link (s : State) (rows : List LogRow) : (s.pushLog rows).link = s.link := by
  unfold State.pushLog
  exact foldl_keeps State.link _ (fun t _ => (t.healSide_does _).link_eq) rows _

theorem State.logX_core (s : State) (plane kind idx sub val : Nat) (pay : List (List Byte)) : (s.logX plane kind idx sub val pay).link.core = s.link.core :=
  have hpush := congrArg Link.core (s.pushLog_link (s.entryRows plane kind idx sub val pay))
  ite_core ((foldl_keeps (fun t : State => t.link.core) _ (fun t r => t.health_core _ r) _ _).trans hpush) hpush

theorem State.logE_core (s : State) (plane kind idx sub val : Nat) : (s.logE plane kind idx sub val).link.core = s.link.core := s.logX_core ..

theorem State.logHealth_core (s : State) (plane kind idx sub val : Nat) (pay : List (List Byte)) :
    (s.logHealth plane kind idx sub val pay).link.core = s.link.core :=
  (foldl_keeps (fun t : State => t.link.core) _ (fun t r => t.health_core _ r) _ _).trans (congrArg Link.core (s.pushLog_link _))

/-- Health records join the queue of class 3 alone. -/
theorem State.linkHealth_queue (s : State) (r : List Byte) {c : Nat} (hc : c ≠ 3) :
    Tab.get [] (s.linkHealth r).link.queues c = Tab.get [] s.link.queues c := by
  unfold State.linkHealth
  extract_lets b
  split
  · rfl
  · split
    · rw [(s.bump_does ..).link_eq]
    · exact Tab.get_set_ne _ _ _ hc

theorem State.logX_queue (s : State) (plane kind idx sub val : Nat) (pay : List (List Byte)) {c : Nat} (hc : c ≠ 3) :
    Tab.get [] (s.logX plane kind idx sub val pay).link.queues c = Tab.get [] s.link.queues c := by
  have hhealth (t : State) (r : LogRow) : Tab.get [] (t.health s.tb.tick r).link.queues c = Tab.get [] t.link.queues c := by
    rw [State.health, State.linkHealth_queue _ _ hc, (t.ctlStore_does _).link_eq]
  have hpush := s.pushLog_link (s.entryRows plane kind idx sub val pay)
  unfold State.logX
  extract_lets rows s1
  split
  · exact (foldl_keeps (fun t : State => Tab.get [] t.link.queues c) _ hhealth rows _).trans (by rw [hpush])
  · rw [hpush]

/-! Selection and the store. -/

theorem State.linkQueue_core (s : State) (cls : Nat) (b : LinkBlock) : (s.linkQueue cls b).link.core = s.link.core :=
  ite_core ((State.logX_core ..).trans (s.bumpBy_does ..).core_eq) rfl

theorem State.linkClose_core (s : State) (lane cls : Nat) : (s.linkClose lane cls).link.core = s.link.core := by
  unfold State.linkClose
  extract_lets o p link s1 store s2
  have h2 : s2.link.core = s.link.core := ite_core rfl rfl
  exact ite_core rfl ((s2.linkQueue_core ..).trans h2)

theorem State.linkTake_core (s : State) (cls lane : Nat) (r : List Byte) : (s.linkTake cls lane r).link.core = s.link.core := by
  unfold State.linkTake
  extract_lets key item o s1 x y link s2
  have h2 : s2.link.core = s.link.core := show s1.link.core = _ from ite_core (s.linkClose_core ..) rfl
  exact ite_core ((State.bump_core ..).trans (s.linkClose_core ..)) (ite_core ((s2.linkClose_core ..).trans h2) h2)

theorem State.linkSelect_core (s : State) (lane : Nat) (r : List Byte) : (s.linkSelect lane r).link.core = s.link.core := by
  unfold State.linkSelect
  split
  · split
    · rfl
    · extract_lets c link s1
      exact ite_core ((s1.linkTake_core ..).trans rfl) rfl
  · rfl

theorem State.stage_core (s : State) (lane : Nat) (r : List Byte) : (s.stage lane r).link.core = s.link.core := by
  unfold State.stage
  extract_lets s1 s2
  have h1 : s1.link.core = s.link.core := ite_core (s.noteTick_does ..).core_eq rfl
  have h2 : s2.link.core = s1.link.core := ite_core (s1.laneAppend_does ..).core_eq rfl
  exact ite_core (s.countOverload_does r).core_eq ((s2.linkSelect_core ..).trans (h2.trans h1))

end Sys2Proof.Machine
end

section
/-! Frames of the link (07 R138, R143, R144, R152): what is received and opened, what is sealed and sent. -/

namespace Sys2Proof.Machine

variable {l : List Part} {s t u : State} {p : Nat}

/-! Paths. -/

theorem lpath_of_link (h : t.link = s.link) (p : Nat) : t.lpath p = s.lpath p := by rw [State.lpath, h]; rfl

@[simp] theorem State.reach_lpath (s : State) (c p : Nat) : (s.reach c).lpath p = s.lpath p := lpath_of_link (s.reach_link c) p

theorem linkPaths_of_od (h : t.od = s.od) : t.linkPaths = s.linkPaths := by
  simp only [State.linkPaths, cfg_of_od h]

theorem State.linkPaths_nodup (s : State) : s.linkPaths.Nodup := List.nodup_range.filter _

/-- The state with other paths of the link. -/
def State.withPaths (s : State) (x : Tab LinkPath) : State := { s with link := { s.link with paths := x } }

/-- What is done once to each of some paths leaves every other path as it is, and all else of the state. -/
theorem State.foldl_paths {f : State → Nat → State} {g : Nat → LinkPath → LinkPath}
    (hf : ∀ x q, ∃ y, f (s.withPaths x) q = s.withPaths y ∧ ∀ j, Tab.get {} y j = if j = q then g q (Tab.get {} x q) else Tab.get {} x j)
    (ps : List Nat) (hn : ps.Nodup) (x : Tab LinkPath) :
    ∃ y, ps.foldl f (s.withPaths x) = s.withPaths y ∧ ∀ j, Tab.get {} y j = if j ∈ ps then g j (Tab.get {} x j) else Tab.get {} x j := by
  induction ps generalizing x with
  | nil => exact ⟨x, rfl, fun j => (if_neg List.not_mem_nil).symm⟩
  | cons q ps ih =>
    obtain ⟨y, hy, hget⟩ := hf x q
    obtain ⟨hq, hps⟩ := List.nodup_cons.1 hn
    obtain ⟨z, hz, hrest⟩ := ih hps y
    refine ⟨z, (congrArg (ps.foldl f) hy).trans hz, fun j => ?_⟩
    rw [hrest, hget]
    by_cases hj : j = q
    · subst hj
      simp [hq]
    · simp [hj]

/-! Frames received. -/

/-- A frame that its end of the link hears is taken further (07 R138, R150). -/
theorem State.received_heard {f : LinkFrame} (h : s.linkHears p f = true) (k : State → State) : s.received p f k = k s := by
  simp only [State.linkHears, Bool.and_eq_true] at h
  obtain ⟨hpath, hok⟩ := h
  simp only [State.received, Bool.and_eq_true, hpath, hok, and_self, if_true]

theorem LinkFrame.type_eq {f : LinkFrame} {n : Nat} (h : f.type.toNat = n) (hn : n < 256) : f.type = BitVec.ofNat 8 n :=
  BitVec.eq_of_toNat_eq (by rw [h, BitVec.toNat_ofNat, Nat.mod_eq_of_lt hn])

/-- The first frame under the newest key starts the 2 s of the old one (07 R144). -/
def State.keyUsed (s : State) (f : LinkFrame) : State :=
  if s.link.fresh && s.link.keys.any (fun n => n.keyno = f.keyno) then
    { s with link := { s.link with fresh := false, oldUntil := s.link.oldKeys.map fun _ => s.now + 2 * secTicks } }
  else s

theorem State.keyUsed_eq (s : State) (f : LinkFrame) :
    ∃ fresh until_, s.keyUsed f = { s with link := { s.link with fresh := fresh, oldUntil := until_ } } := by
  unfold State.keyUsed
  split <;> exact ⟨_, _, rfl⟩

/-- A protected frame is noted as received, and of the link else only what belongs to its keys changes (07 R144). -/
def State.Noted (s : State) (f : LinkFrame) (u : State) : Prop := ∃ fresh until_ shaking, u = { s with
  link := { s.link with fresh := fresh, oldUntil := until_, seen := s.link.seen ++ [(f.keyno, f.seq.toNat)], shaking := shaking } }

theorem State.opened_noted {f : LinkFrame} {c b : List Byte} (h : s.opened f c = (u, some b)) : s.Noted f u := by
  have hdef : s.opened f c = let v := s.keyUsed f
      if v.link.seen.contains (f.keyno, f.seq.toNat) then (v, none)
      else ({ v with link := { v.link with
        seen := v.link.seen ++ [(f.keyno, f.seq.toNat)]
        shaking := v.link.shaking || (v.link.role = some true && v.link.keys.any (fun n => n.keyno = f.keyno) && 2 ^ 32 ≤ f.seq.toNat + 1) } }, some c) := rfl
  obtain ⟨fresh, until_, hused⟩ := s.keyUsed_eq f
  rw [hdef, hused] at h
  dsimp only at h
  split at h
  · cases (Prod.mk.inj h).2
  · exact ⟨_, _, _, (Prod.mk.inj h).1.symm⟩

theorem State.openFrame_noted {f : LinkFrame} {b : List Byte} (h : s.openFrame f = (u, some b)) : s.Noted f u := by
  unfold State.openFrame at h
  extract_lets car pick ks at h
  split at h
  · cases (Prod.mk.inj h).2
  · split at h
    · cases (Prod.mk.inj h).2
    · exact State.opened_noted h

theorem State.Noted.does {f : LinkFrame} (h : s.Noted f u) : Does [.link] s u := by
  obtain ⟨fresh, until_, shaking, rfl⟩ := h
  exact Does.set_link ..

theorem State.Noted.link_eq {f : LinkFrame} (h : s.Noted f u) : ∃ fresh until_ shaking, u.link = { s.link with
    fresh := fresh, oldUntil := until_, seen := s.link.seen ++ [(f.keyno, f.seq.toNat)], shaking := shaking } := by
  obtain ⟨fresh, until_, shaking, rfl⟩ := h
  exact ⟨_, _, _, rfl⟩

theorem State.Noted.lpath {f : LinkFrame} (h : s.Noted f u) (p : Nat) : u.lpath p = s.lpath p := by
  obtain ⟨fresh, until_, shaking, rfl⟩ := h
  rfl

/-! Frames sent. -/

@[simp] theorem beBytes_length (n v : Nat) : (beBytes n v).length = n := by simp [beBytes]

theorem State.netSend_resolved (h : (s.lpath p).neighbour = true) (b : List Byte) : s.netSend p b = s.send (.datagram p b) := if_pos h

/-- The datagram of a protected frame that this end sends under some keys. -/
def State.sealed (s : State) (ks : LinkKeys) (path type flags ref k m idx seq : Nat) (body : List Byte) : List Byte :=
  sealedFrame (s.link.role = some true) (if s.link.role = some true then ks.carToPit else ks.pitToCar)
    (linkHeader type flags path body.length ks.keyno.toNat seq ref k m idx) body seq

theorem State.sealFrame_resolved {ks : LinkKeys} (hk : s.link.keys = some ks) (hn : (s.lpath p).neighbour = true)
    (type flags ref k m idx seq : Nat) (body : List Byte) :
    s.sealFrame p type flags ref k m idx seq body = s.send (.datagram p (s.sealed ks p type flags ref k m idx seq body)) := by
  simp only [State.sealFrame, hk, State.netSend_resolved hn, State.sealed]

theorem State.sealed_car (h : s.link.role = some true) (ks : LinkKeys) (type flags ref k m idx seq : Nat) (body : List Byte) :
    s.sealed ks p type flags ref k m idx seq body =
      sealedFrame true ks.carToPit (linkHeader type flags p body.length ks.keyno.toNat seq ref k m idx) body seq := by
  simp [State.sealed, h]

theorem State.sealed_pit (h : s.link.role = some false) (ks : LinkKeys) (type flags ref k m idx seq : Nat) (body : List Byte) :
    s.sealed ks p type flags ref k m idx seq body =
      sealedFrame false ks.pitToCar (linkHeader type flags p body.length ks.keyno.toNat seq ref k m idx) body seq := by
  simp [State.sealed, h]

theorem State.sendFrame_keyed (hk : s.link.keys.isSome = true) (type flags ref k m idx : Nat) (body : List Byte) :
    s.sendFrame p type flags ref k m idx body = (s.takeSeq 1).sealFrame p type flags ref k m idx s.link.txSeq body := by
  rw [State.sendFrame, if_neg (by simp [Option.isSome_iff_ne_none.1 hk])]

/-- A frame under the next SEQ takes it. -/
theorem State.sendFrame_link (hk : s.link.keys.isSome = true) (type flags ref k m idx : Nat) (body : List Byte) :
    ∃ shaking, (s.sendFrame p type flags ref k m idx body).link = { s.link with txSeq := s.link.txSeq + 1, shaking := shaking } := by
  rw [State.sendFrame_keyed hk, (State.sealFrame_does ..).link_eq]
  exact ⟨_, rfl⟩

/-- A frame under the next SEQ leaves on a path whose next hop is resolved. -/
theorem State.sendFrame_out {ks : LinkKeys} (hk : s.link.keys = some ks) (hn : (s.lpath p).neighbour = true) (type flags ref k m idx : Nat) (body : List Byte) :
    (s.sendFrame p type flags ref k m idx body).out = s.out ++ [.datagram p (s.sealed ks p type flags ref k m idx s.link.txSeq body)] := by
  have hkeys : (s.takeSeq 1).link.keys = some ks := hk
  have hpath : ((s.takeSeq 1).lpath p).neighbour = true := hn
  rw [State.sendFrame_keyed (by rw [hk]; rfl), State.sealFrame_resolved hkeys hpath]
  rfl

/-- The pace of a path changes when it is next free, and nothing else. -/
theorem State.paced_eq (s : State) (p n : Nat) : ∃ a, s.paced p n = s.setLpath p { s.lpath p with freeAt := a } := ⟨_, rfl⟩

end Sys2Proof.Machine
end

section
/-! The car sends (07 R136 to R141): aged blocks, frames of each kind in their order, records that are shed, groups that close, and NAKs. -/

namespace Sys2Proof.Machine

variable {l : List Part} {s t u : State} {p : Nat}

/-! Blocks (07 R136, R137). -/

/-- An open block closes into its class's queue, where the class has room for it. -/
theorem State.linkClose_link {lane cls : Nat} (hr : (Tab.get {} s.link.opened (lane * 4 + cls)).recs ≠ [])
    (hroom : let o := Tab.get {} s.link.opened (lane * 4 + cls)
      cls ≠ 0 ∨ ((Tab.get [] s.link.queues cls).map (·.bytes.length)).sum + (linkBlock lane o.orders o.recs).bytes.length ≤ 4194304) :
    let o := Tab.get {} s.link.opened (lane * 4 + cls)
    (s.linkClose lane cls).link = { s.link with
      opened := s.link.opened.erase (lane * 4 + cls)
      queues := s.link.queues.set cls (Tab.get [] s.link.queues cls ++ [linkBlock lane o.orders o.recs]) } := by
  unfold State.linkClose
  extract_lets o p link s1 store s2
  have h2 : s2.link = s1.link := by
    show (if _ then _ else s1 : State).link = s1.link
    split <;> rfl
  have hput (b : LinkBlock) (hb : cls ≠ 0 ∨ ((Tab.get [] s.link.queues cls).map (·.bytes.length)).sum + b.bytes.length ≤ 4194304) :
      s2.linkQueue cls b = s2.linkPut cls b := by
    rw [State.linkQueue, h2]
    refine if_neg ?_
    rw [Bool.and_eq_true, decide_eq_true_eq, decide_eq_true_eq]
    show ¬(cls = 0 ∧ 4194304 < ((Tab.get [] s.link.queues cls).map (·.bytes.length)).sum + b.bytes.length)
    omega
  rw [if_neg (by simpa using hr), hput _ hroom]
  simp only [State.linkPut, h2]
  rfl

theorem State.linkAge_eq {lane cls : Nat} {r : LinkRec} {m : List LinkRec} (hr : (Tab.get {} s.link.opened (lane * 4 + cls)).recs = r :: m) :
    s.linkAge lane cls = (s.reach (r.since + msTicks (s.cfg 0x2600 9))).linkClose lane cls := by rw [State.linkAge, hr]

/-- The block that ages out is queued at its age's end. -/
theorem State.linkAge_queues {lane cls : Nat} {r : LinkRec} {m : List LinkRec} (hr : (Tab.get {} s.link.opened (lane * 4 + cls)).recs = r :: m)
    (hroom : let o := Tab.get {} s.link.opened (lane * 4 + cls)
      cls ≠ 0 ∨ ((Tab.get [] s.link.queues cls).map (·.bytes.length)).sum + (linkBlock lane o.orders o.recs).bytes.length ≤ 4194304) :
    let o := Tab.get {} s.link.opened (lane * 4 + cls)
    let t := s.linkAge lane cls
    t.tb = (s.reach (r.since + msTicks (s.cfg 0x2600 9))).tb ∧
      t.link.queues = s.link.queues.set cls (Tab.get [] s.link.queues cls ++ [linkBlock lane o.orders o.recs]) ∧
      t.link.opened = s.link.opened.erase (lane * 4 + cls) := by
  intro o t
  let u := s.reach (r.since + msTicks (s.cfg 0x2600 9))
  have ht : t = u.linkClose lane cls := State.linkAge_eq hr
  have hu : u.link = s.link := s.reach_link _
  have hlink := State.linkClose_link (s := u) (lane := lane) (cls := cls) (by rw [hu, hr]; simp) (by rw [hu]; exact hroom)
  rw [ht]
  exact ⟨(u.linkClose_does ..).tb_eq, by rw [hlink, hu], by rw [hlink, hu]⟩

/-! Frames that leave (07 R137 to R145). -/

/-- The car may send on a path: an enabled open one, with keys, in a link state of data. -/
structure State.Sends (s : State) (p : Nat) : Prop where
  car : s.linkCar = true
  enabled : s.linkPaths.contains p = true
  opened : (s.lpath p).closed = false
  keyed : s.link.keys.isSome = true
  carries : 2 ≤ s.link.st.val

/-- The moment at which the path's rate lets a frame go. -/
def State.freeing (s : State) (p : Nat) : State := s.reach (s.lpath p).freeAt

theorem State.Sends.linkSend (h : s.Sends p) (hi : s.linkIdle p = false) : s.linkSend p = (s.freeing p).linkNext p := by
  have hc : (s.linkCar && s.linkPaths.contains p && !(s.lpath p).closed && s.link.keys.isSome && decide (2 ≤ s.link.st.val) && !s.linkIdle p) = true := by
    simp only [h.car, h.enabled, h.opened, h.keyed, h.carries, hi]
    rfl
  rw [State.linkSend, if_pos hc, State.freeing]

theorem State.linkNext_repair {b : RepairTx} {m : List RepairTx} (hb : s.repairFor p = b :: m) : s.linkNext p = s.sendRepair p b m := by
  rw [State.linkNext, hb]

theorem State.linkNext_again {k : KeptFrame} {m : List KeptFrame} (hb : s.repairFor p = []) (hk : s.resendFor p = k :: m) :
    s.linkNext p = ({ s with link := { s.link with resend := m } } : State).sendAgain p k := by rw [State.linkNext, hb, hk]

theorem State.linkNext_data {c : Nat} (hb : s.repairFor p = []) (hk : s.resendFor p = []) (hc : s.nextClass p = some c) :
    s.linkNext p = s.sendData p c := by
  rw [State.linkNext, hb, hk]
  simp only [hc]

@[simp] theorem State.freeing_repairFor (s : State) (p q : Nat) : (s.freeing q).repairFor p = s.repairFor p := by
  obtain ⟨x, hx⟩ := s.reach_eq (s.lpath q).freeAt
  rw [State.freeing, hx]
  rfl

@[simp] theorem State.freeing_resendFor (s : State) (p q : Nat) : (s.freeing q).resendFor p = s.resendFor p := by
  obtain ⟨x, hx⟩ := s.reach_eq (s.lpath q).freeAt
  rw [State.freeing, hx]
  rfl

@[simp] theorem State.freeing_nextClass (s : State) (p q : Nat) : (s.freeing q).nextClass p = s.nextClass p := by
  obtain ⟨x, hx⟩ := s.reach_eq (s.lpath q).freeAt
  rw [State.freeing, hx]
  rfl

theorem State.repairFor_turn (hu : (s.lpath p).up = true) (ht : s.inTurn p = true) : s.repairFor p = s.link.repair := by
  rw [State.repairFor, if_pos (by rw [hu, ht]; rfl)]

theorem State.Sends.repair {b : RepairTx} {m : List RepairTx} (h : s.Sends p) (hb : s.repairFor p = b :: m) :
    s.linkSend p = (s.freeing p).sendRepair p b m := by
  rw [h.linkSend (by simp [State.linkIdle, hb]), State.linkNext_repair (by rw [State.freeing_repairFor, hb])]

theorem State.Sends.again {k : KeptFrame} {m : List KeptFrame} (h : s.Sends p) (hb : s.repairFor p = []) (hk : s.resendFor p = k :: m) :
    s.linkSend p = ({ s.freeing p with link := { (s.freeing p).link with resend := m } } : State).sendAgain p k := by
  rw [h.linkSend (by simp [State.linkIdle, hk]), State.linkNext_again (by rw [State.freeing_repairFor, hb]) (by rw [State.freeing_resendFor, hk])]

theorem State.Sends.data {c : Nat} (h : s.Sends p) (hb : s.repairFor p = []) (hk : s.resendFor p = []) (hc : s.nextClass p = some c) :
    s.linkSend p = (s.freeing p).sendData p c := by
  rw [h.linkSend (by simp [State.linkIdle, hc]), State.linkNext_data (by rw [State.freeing_repairFor, hb]) (by rw [State.freeing_resendFor, hk])
    (by rw [State.freeing_nextClass, hc])]

/-! A repair frame. -/

theorem State.sendRepair_link (s : State) (p : Nat) (b : RepairTx) (m : List RepairTx) :
    ∃ x, (s.sendRepair p b m).link = { s.link with repair := m, paths := s.link.paths.set p x } ∧ x.inGroup = (s.lpath p).inGroup + 1 := by
  let w : State := { s with link := { s.link with repair := m } }
  let v := w.sealFrame p 1 0 (linkRef s.now b.oldest) b.k b.m b.idx b.seq b.body
  have hv : v.link = { s.link with repair := m } := (State.sealFrame_does ..).link_eq
  show ∃ x, ((v.carried p).paced p _).link = _ ∧ _
  obtain ⟨a, ha⟩ := (v.carried p).paced_eq p b.body.length
  rw [ha, State.carried, State.lpath_setLpath]
  refine ⟨{ v.lpath p with inGroup := (v.lpath p).inGroup + 1, freeAt := a }, ?_, by rw [lpath_of_link (s := w) hv]; rfl⟩
  simp only [State.setLpath_link, hv, Tab.set_set]

/-- A repair frame leaves under its group's SEQ. -/
theorem State.sendRepair_out {ks : LinkKeys} (hk : s.link.keys = some ks) (hr : s.link.role = some true) (hn : (s.lpath p).neighbour = true)
    (b : RepairTx) (m : List RepairTx) :
    (s.sendRepair p b m).out = s.out ++ [.datagram p (sealedFrame true ks.carToPit
      (linkHeader 1 0 p b.body.length ks.keyno.toNat b.seq (linkRef s.now b.oldest) b.k b.m b.idx) b.body b.seq)] := by
  let v : State := { s with link := { s.link with repair := m } }
  show (v.sealFrame p 1 0 (linkRef s.now b.oldest) b.k b.m b.idx b.seq b.body).out = _
  rw [State.sealFrame_resolved (s := v) hk hn, State.send_out, State.sealed_car (s := v) hr]

/-! A retransmission. -/

theorem State.sendAgain_link (hk : s.link.keys.isSome = true) (p : Nat) (k : KeptFrame) :
    ∃ shaking x, (s.sendAgain p k).link = { s.link with txSeq := s.link.txSeq + 1, shaking := shaking, paths := x } := by
  unfold State.sendAgain
  have hb : (s.bump 0x2601 10).link = s.link := (s.bump_does ..).link_eq
  obtain ⟨shaking, h⟩ := State.sendFrame_link (s := s.bump 0x2601 10) (p := p) (by rw [hb]; exact hk) 0 32 (linkRef s.now k.oldest) 1 0 0
    (beBytes 8 k.seq ++ k.body)
  rw [State.paced, State.setLpath_link, h, hb]
  exact ⟨_, _, rfl⟩

/-- A retransmission leaves under the next SEQ, its original SEQ in front. -/
theorem State.sendAgain_out {ks : LinkKeys} (hk : s.link.keys = some ks) (hr : s.link.role = some true) (hn : (s.lpath p).neighbour = true) (k : KeptFrame) :
    (s.sendAgain p k).out = s.out ++ [.datagram p (sealedFrame true ks.carToPit
      (linkHeader 0 32 p (8 + k.body.length) ks.keyno.toNat s.link.txSeq (linkRef s.now k.oldest) 1 0 0) (beBytes 8 k.seq ++ k.body) s.link.txSeq)] := by
  unfold State.sendAgain
  have hb : (s.bump 0x2601 10).link = s.link := (s.bump_does ..).link_eq
  show ((s.bump 0x2601 10).sendFrame p 0 32 (linkRef s.now k.oldest) 1 0 0 (beBytes 8 k.seq ++ k.body)).out = _
  rw [State.sendFrame_out (by rw [hb]; exact hk) (by rw [lpath_of_link hb]; exact hn), State.sealed_car (by rw [hb]; exact hr), (s.bump_does ..).out_eq, hb,
    List.length_append, beBytes_length]

theorem State.sendAgain_counted (s : State) (p : Nat) (k : KeptFrame) : Counted s (s.sendAgain p k) 0x2601 10 :=
  (s.bump_counted 0x2601 10).later ((State.paced_does ..).od_eq.trans (State.sendFrame_does ..).od_eq)

end Sys2Proof.Machine
end

section
/-! Data frames and code groups (07 R139, R145, R147), and the records that a class sheds (07 R137). -/

namespace Sys2Proof.Machine

variable {l : List Part} {s t u : State} {p c : Nat}

/-! Code groups. -/

theorem State.groupTimeout_eq (h : s.link.group ≠ []) : s.groupTimeout = (s.reach (s.link.groupAt + msTicks 20)).closeGroup := by
  rw [State.groupTimeout, if_neg (by simpa using h)]

/-- What a group that closes leaves of the link (07 R139). -/
theorem State.closeGroup_link (s : State) : let t := s.closeGroup
    let k := s.link.group.length
    t.tb = s.tb ∧ t.link.group = [] ∧ t.link.groupK = k ∧ t.link.txSeq = s.link.txSeq + s.link.groupM ∧ t.link.repair = s.link.repair ++
      (List.range s.link.groupM).map fun j => ⟨s.link.txSeq + j, k, s.link.groupM, k + j, repairBody s.link.group j, s.link.groupOld⟩ :=
  ⟨rfl, rfl, rfl, rfl, rfl⟩

/-- The group ends 20 ms after its first frame with as many data frames as it has. -/
theorem State.groupTimeout_link (h : s.link.group ≠ []) : let t := s.groupTimeout
    let k := s.link.group.length
    t.tb = (s.reach (s.link.groupAt + msTicks 20)).tb ∧ t.link.group = [] ∧ t.link.groupK = k ∧ t.link.txSeq = s.link.txSeq + s.link.groupM ∧
    t.link.repair = s.link.repair ++
      (List.range s.link.groupM).map fun j => ⟨s.link.txSeq + j, k, s.link.groupM, k + j, repairBody s.link.group j, s.link.groupOld⟩ := by
  intro t k
  have key := (s.reach (s.link.groupAt + msTicks 20)).closeGroup_link
  rw [s.reach_link] at key
  have ht : t = (s.reach (s.link.groupAt + msTicks 20)).closeGroup := State.groupTimeout_eq h
  rw [ht]
  exact key

theorem Tab.find_map {α : Type} (f : α → α) (x : Tab α) (k : Nat) : Tab.find (x.map fun e => (e.1, f e.2)) k = (Tab.find x k).map f := by
  induction x with
  | nil => rfl
  | cons e x ih =>
    simp only [List.map_cons, Tab.find]
    split
    · rfl
    · exact ih

/-- The group that the next data frame joins: the open one, or a new one under the code level in force, begun now (07 R139, R140). -/
def State.grouped (s : State) : State :=
  let lk := codeLevel s.link.level.val
  if s.link.group.isEmpty then
    { s with link := { s.link with groupAt := s.now, groupK := lk.1, groupM := lk.2, groupOld := s.now,
                                   paths := s.link.paths.map fun (e : Nat × LinkPath) => (e.1, { e.2 with inGroup := 0 }) } } else s

/-- K and M of that group. -/
def Link.coding (l : Link) : Nat × Nat := if l.group.isEmpty then codeLevel l.level.val else (l.groupK, l.groupM)

theorem State.grouped_eq (s : State) : ∃ a o x, s.grouped = { s with link := { s.link with
    groupAt := a, groupK := s.link.coding.1, groupM := s.link.coding.2, groupOld := o, paths := x } } ∧
    ∀ j, (Tab.get {} x j).neighbour = (s.lpath j).neighbour := by
  unfold State.grouped Link.coding
  extract_lets lk link
  split
  · refine ⟨_, _, _, rfl, fun j => ?_⟩
    rw [State.lpath, Tab.get_eq, Tab.get_eq, Tab.find_map fun y : LinkPath => { y with inGroup := 0 }]
    cases Tab.find s.link.paths j <;> rfl
  · exact ⟨_, _, _, rfl, fun j => rfl⟩

/-- The data frame of a class that joins the group: as many blocks as fit from the front of the queue (07 R137 to R139). -/
def State.dataFrame (s1 : State) (p c : Nat) (q0 : List LinkBlock) : State :=
  let old := (q0.head?.map (·.since)).getD 0
  let ref := linkRef s1.now old
  let r := takeBlocks (s1.bodyRoom c s1.link.groupM) (ref + 2 ^ 46) q0
  let body := (r.1.map (·.bytes)).flatten
  let q := s1.link.txSeq
  let s2 := ({ s1 with link := { s1.link with queues := s1.link.queues.set c r.2 } }).sendFrame p 0 (64 * c) ref s1.link.groupK s1.link.groupM
    s1.link.group.length body
  let keep := (s2.link.kept.filter fun k => s2.now < k.since + 3 * secTicks) ++
    (if c = 0 then [⟨((s2.link.keys.map (·.keyno)).getD 0), q, s2.now, body, old⟩] else [])
  (({ s2 with link := { s2.link with group := s2.link.group ++ [body], kept := keep, groupOld := min s2.link.groupOld old,
                                     mapDue := s2.link.mapDue && c != 0 } } : State).carried p).paced p body.length

/-- A group that has its K data frames closes. -/
def State.endGroup (s : State) : State := if s.link.group.length = s.link.groupK then s.closeGroup else s

theorem fitHead_fits {room : Nat} {b : LinkBlock} {m : List LinkBlock} (h : b.bytes.length ≤ room) : fitHead room (b :: m) = (some (b :: m), []) := if_pos h

theorem State.sendData_eq {b : LinkBlock} {m : List LinkBlock} (hq : Tab.get [] s.link.queues c = b :: m) (hb : b.bytes.length ≤ s.bodyRoom c s.link.coding.2) :
    s.sendData p c = (s.grouped.dataFrame p c (b :: m)).endGroup := by
  obtain ⟨a, o, x, hg, -⟩ := s.grouped_eq
  have hhead : fitHead (s.grouped.bodyRoom c s.grouped.link.groupM) (Tab.get [] s.grouped.link.queues c) = (some (b :: m), []) := by
    rw [hg]
    exact (congrArg (fitHead _) hq).trans (fitHead_fits hb)
  have hdef : s.sendData p c = match fitHead (s.grouped.bodyRoom c s.grouped.link.groupM) (Tab.get [] s.grouped.link.queues c) with
    | (none, q) => ({ s with link := { s.link with queues := s.link.queues.set c q } } : State).bump 0x2601 7
    | (some q0, _) => (s.grouped.dataFrame p c q0).endGroup := rfl
  rw [hdef, hhead]

/-- The REF, the blocks and the body of the data frame that a class's queue gives (07 R138). -/
def State.dataRef (s : State) (b : LinkBlock) : Nat := linkRef s.now b.since

def State.dataTaken (s : State) (c m : Nat) (b : LinkBlock) (l : List LinkBlock) : List LinkBlock × List LinkBlock :=
  takeBlocks (s.bodyRoom c m) (s.dataRef b + 2 ^ 46) (b :: l)

def State.dataBody (s : State) (c m : Nat) (b : LinkBlock) (l : List LinkBlock) : List Byte := ((s.dataTaken c m b l).1.map (·.bytes)).flatten

/-- What a data frame leaves of the link: it joins the group, and a class-0 frame is kept (07 R139, R141, R147). -/
theorem State.dataFrame_link {ks : LinkKeys} (hk : s.link.keys = some ks) (p c : Nat) (b : LinkBlock) (m : List LinkBlock) :
    let t := s.dataFrame p c (b :: m)
    let body := s.dataBody c s.link.groupM b m
    t.link.queues = s.link.queues.set c (s.dataTaken c s.link.groupM b m).2 ∧ t.link.txSeq = s.link.txSeq + 1 ∧ t.link.group = s.link.group ++ [body] ∧
    t.link.groupK = s.link.groupK ∧ t.link.groupM = s.link.groupM ∧
    (c = 0 → ⟨ks.keyno, s.link.txSeq, s.now, body, b.since⟩ ∈ t.link.kept ∧ t.link.mapDue = false) := by
  let v : State := { s with link := { s.link with queues := s.link.queues.set c (s.dataTaken c s.link.groupM b m).2 } }
  let body := s.dataBody c s.link.groupM b m
  let w := v.sendFrame p 0 (64 * c) (s.dataRef b) s.link.groupK s.link.groupM s.link.group.length body
  obtain ⟨shaking, hw⟩ : ∃ shaking, w.link = { v.link with txSeq := v.link.txSeq + 1, shaking := shaking } :=
    State.sendFrame_link (by rw [show v.link.keys = some ks from hk]; rfl) ..
  have hnow : w.now = s.now := now_of_tb (State.sendFrame_does ..).tb_eq
  have hkeyno : (w.link.keys.map (·.keyno)).getD 0 = ks.keyno := by
    rw [hw]
    exact congrArg (fun k : Option LinkKeys => (k.map (·.keyno)).getD 0) hk
  refine ⟨(congrArg Link.queues hw :), (congrArg Link.txSeq hw :), (congrArg (fun l : Link => l.group ++ [body]) hw :), (congrArg Link.groupK hw :),
    (congrArg Link.groupM hw :), fun hc => ⟨List.mem_append_right _ ?_, ?_⟩⟩
  · show _ ∈ if c = 0 then [(⟨(w.link.keys.map (·.keyno)).getD 0, s.link.txSeq, w.now, body, b.since⟩ : KeptFrame)] else []
    rw [if_pos hc, hkeyno, hnow]
    exact List.mem_singleton_self _
  · show (w.link.mapDue && c != 0) = false
    simp [hc]

/-- The data frame leaves under the next SEQ (07 R138). -/
theorem State.dataFrame_out {ks : LinkKeys} (hk : s.link.keys = some ks) (hr : s.link.role = some true) (hn : (s.lpath p).neighbour = true) (c : Nat)
    (b : LinkBlock) (m : List LinkBlock) : let body := s.dataBody c s.link.groupM b m
    (s.dataFrame p c (b :: m)).out = s.out ++ [.datagram p (sealedFrame true ks.carToPit
      (linkHeader 0 (64 * c) p body.length ks.keyno.toNat s.link.txSeq (s.dataRef b) s.link.groupK s.link.groupM s.link.group.length) body
      s.link.txSeq)] := by
  let v : State := { s with link := { s.link with queues := s.link.queues.set c (s.dataTaken c s.link.groupM b m).2 } }
  show (v.sendFrame p 0 (64 * c) (s.dataRef b) s.link.groupK s.link.groupM s.link.group.length _).out = _
  rw [State.sendFrame_out (s := v) hk hn, State.sealed_car (s := v) hr]
  rfl

/-- The end of a group takes the SEQ of its repair frames, and of a class's data nothing. -/
theorem State.endGroup_link (s : State) : let t := s.endGroup
    t.link.queues = s.link.queues ∧ t.link.kept = s.link.kept ∧ t.link.mapDue = s.link.mapDue ∧ t.out = s.out ∧
    t.link.txSeq = s.link.txSeq + (if s.link.group.length = s.link.groupK then s.link.groupM else 0) := by
  unfold State.endGroup
  split
  · exact ⟨rfl, rfl, rfl, rfl, rfl⟩
  · exact ⟨rfl, rfl, rfl, rfl, rfl⟩

theorem State.dataFrame_does (s : State) (p c : Nat) (q : List LinkBlock) : Does [.link, .out] s (s.dataFrame p c q) :=
  (((((Does.refl [.link, .out] s).step (Does.set_link ..) rfl).step (State.sendFrame_does ..) rfl).step (Does.set_link ..) rfl).step
    (State.carried_does ..) rfl).step (State.paced_does ..) rfl

theorem State.endGroup_does (s : State) : Does [.link] s s.endGroup :=
  Does.ite (fun _ => s.closeGroup_does) fun _ => Does.refl _ _

theorem State.grouped_does (s : State) : Does [.link] s s.grouped := by
  obtain ⟨a, o, x, h, -⟩ := s.grouped_eq
  rw [h]
  exact (Does.refl [.link] s).step (Does.set_link ..) rfl

end Sys2Proof.Machine
end

section
/-! What LINK_FRAME_SEND, LINK_RECORD_SHED and a NAK have the car do (07 R137 to R141). -/

namespace Sys2Proof.Machine

variable {l : List Part} {s t u : State} {p c : Nat}

/-- Data of a class whose first block fits the body leave as whole blocks in one frame, and a group that is full then ends (07 R137 to R139). -/
theorem State.sendData_sent {ks : LinkKeys} {b : LinkBlock} {m : List LinkBlock} (hk : s.link.keys = some ks) (hr : s.link.role = some true)
    (hn : (s.lpath p).neighbour = true) (hq : Tab.get [] s.link.queues c = b :: m) (hb : b.bytes.length ≤ s.bodyRoom c s.link.coding.2) :
    let t := s.sendData p c
    let g := s.link.coding
    let body := s.dataBody c g.2 b m
    Does [.link, .out] s t ∧ t.link.queues = s.link.queues.set c (s.dataTaken c g.2 b m).2 ∧
    (c = 0 → ⟨ks.keyno, s.link.txSeq, s.now, body, b.since⟩ ∈ t.link.kept ∧ t.link.mapDue = false) ∧
    t.link.txSeq = s.link.txSeq + 1 + (if s.link.group.length + 1 = g.1 then g.2 else 0) ∧
    t.out = s.out ++ [.datagram p (sealedFrame true ks.carToPit
      (linkHeader 0 (64 * c) p body.length ks.keyno.toNat s.link.txSeq (s.dataRef b) g.1 g.2 s.link.group.length) body s.link.txSeq)] := by
  obtain ⟨a, o, x, hg, hx⟩ := s.grouped_eq
  let v := s.grouped
  have hkv : v.link.keys = some ks := by rw [show v = _ from hg]; exact hk
  have hrv : v.link.role = some true := by rw [show v = _ from hg]; exact hr
  have hnv : (v.lpath p).neighbour = true := by rw [show v = _ from hg]; exact (hx p).trans hn
  obtain ⟨hqueues, hseq, hgroup, hgk, hgm, hkept⟩ := State.dataFrame_link hkv p c b m
  have hout := State.dataFrame_out hkv hrv hnv c b m
  obtain ⟨equeues, ekept, emap, eout, eseq⟩ := (v.dataFrame p c (b :: m)).endGroup_link
  have hdoes : Does [.link, .out] s (v.dataFrame p c (b :: m)).endGroup :=
    ((s.grouped_does.weaken rfl).step (v.dataFrame_does ..) rfl).step (State.endGroup_does _) rfl
  intro t
  rw [show t = (v.dataFrame p c (b :: m)).endGroup from State.sendData_eq hq hb]
  rw [hgroup, hgk, hgm, hseq, List.length_append] at eseq
  rw [show v = _ from hg] at hqueues hkept hout eseq hdoes equeues ekept emap eout ⊢
  exact ⟨hdoes, equeues.trans hqueues, fun hc => ⟨ekept ▸ (hkept hc).1, emap.trans (hkept hc).2⟩, eseq, eout.trans hout⟩

theorem State.freeing_does (s : State) (p : Nat) : Does [.tb] s (s.freeing p) := s.reach_does _

@[simp] theorem State.freeing_link (s : State) (p : Nat) : (s.freeing p).link = s.link := s.reach_link _

@[simp] theorem State.freeing_lpath (s : State) (p q : Nat) : (s.freeing p).lpath q = s.lpath q := s.reach_lpath ..

@[simp] theorem State.freeing_out (s : State) (p : Nat) : (s.freeing p).out = s.out := s.reach_out _

theorem State.freeing_dataTaken (s : State) (p c m : Nat) (b : LinkBlock) (l : List LinkBlock) :
    (s.freeing p).dataTaken c m b l = takeBlocks (s.bodyRoom c m) (linkRef (s.freeing p).now b.since + 2 ^ 46) (b :: l) := by
  rw [State.dataTaken, State.bodyRoom, cfg_of_od (s.freeing_does p).od_eq]
  rfl

/-- A repair frame that waits leaves before all else. -/
theorem State.Sends.repair_link {b : RepairTx} {m : List RepairTx} (h : s.Sends p) (hb : s.link.repair = b :: m) (hu : (s.lpath p).up = true)
    (ht : s.inTurn p = true) : let t := s.linkSend p
    Does [.tb, .link, .out] s t ∧ t.link.repair = m ∧ t.link.txSeq = s.link.txSeq ∧ (t.lpath p).inGroup = (s.lpath p).inGroup + 1 := by
  intro t
  have hsend : t = (s.freeing p).sendRepair p b m := h.repair ((State.repairFor_turn hu ht).trans hb)
  obtain ⟨x, hlink, hx⟩ := (s.freeing p).sendRepair_link p b m
  rw [s.freeing_link, ← hsend] at hlink
  refine ⟨hsend ▸ ((s.freeing_does p).weaken rfl).step (State.sendRepair_does ..) rfl, by rw [hlink], by rw [hlink], ?_⟩
  rw [State.lpath, hlink, Tab.get_set_self, hx, s.freeing_lpath]

theorem State.Sends.repair_out {ks : LinkKeys} {b : RepairTx} {m : List RepairTx} (h : s.Sends p) (hk : s.link.keys = some ks) (hr : s.link.role = some true)
    (hn : (s.lpath p).neighbour = true) (hb : s.link.repair = b :: m) (hu : (s.lpath p).up = true) (ht : s.inTurn p = true) :
    (s.linkSend p).out = s.out ++ [.datagram p (sealedFrame true ks.carToPit
      (linkHeader 1 0 p b.body.length ks.keyno.toNat b.seq (linkRef (s.freeing p).now b.oldest) b.k b.m b.idx) b.body b.seq)] := by
  rw [h.repair ((State.repairFor_turn hu ht).trans hb), State.sendRepair_out (by rw [s.freeing_link, hk]) (by rw [s.freeing_link, hr])
    (by rw [s.freeing_lpath, hn]), s.freeing_out]

/-- A retransmission that waited leaves, and no longer waits. -/
theorem State.sendAgain_sent {ks : LinkKeys} (hk : s.link.keys = some ks) (hr : s.link.role = some true) (hn : (s.lpath p).neighbour = true) (k : KeptFrame)
    (m : List KeptFrame) : let t := ({ s with link := { s.link with resend := m } } : State).sendAgain p k
    Does [.link, .od, .out] s t ∧ t.link.resend = m ∧ t.link.txSeq = s.link.txSeq + 1 ∧ Counted s t 0x2601 10 ∧
    t.out = s.out ++ [.datagram p (sealedFrame true ks.carToPit
      (linkHeader 0 32 p (8 + k.body.length) ks.keyno.toNat s.link.txSeq (linkRef s.now k.oldest) 1 0 0) (beBytes 8 k.seq ++ k.body) s.link.txSeq)] := by
  let v : State := { s with link := { s.link with resend := m } }
  have hkv : v.link.keys = some ks := hk
  obtain ⟨shaking, x, hlink⟩ := State.sendAgain_link (s := v) (by rw [hkv]; rfl) p k
  exact ⟨((Does.refl [.link, .od, .out] s).step (Does.set_link ..) rfl).step (State.sendAgain_does ..) rfl, (congrArg Link.resend hlink :),
    (congrArg Link.txSeq hlink :), State.sendAgain_counted v p k, State.sendAgain_out (s := v) hk hr hn k⟩

/-- Then a retransmission, of a group of its own. -/
theorem State.Sends.again_sent {ks : LinkKeys} {k : KeptFrame} {m : List KeptFrame} (h : s.Sends p) (hk : s.link.keys = some ks) (hr : s.link.role = some true)
    (hn : (s.lpath p).neighbour = true) (hrep : s.link.repair = []) (hg : s.link.group = []) (hm : s.link.mapDue = false) (hb : s.link.resend = k :: m)
    (hu : (s.lpath p).up = true) : let t := s.linkSend p
    Does [.tb, .link, .od, .out] s t ∧ t.link.resend = m ∧ t.link.txSeq = s.link.txSeq + 1 ∧ Counted s t 0x2601 10 ∧
    t.out = s.out ++ [.datagram p (sealedFrame true ks.carToPit
      (linkHeader 0 32 p (8 + k.body.length) ks.keyno.toNat s.link.txSeq (linkRef (s.freeing p).now k.oldest) 1 0 0) (beBytes 8 k.seq ++ k.body)
      s.link.txSeq)] := by
  intro t
  have hsend : t = ({ s.freeing p with link := { (s.freeing p).link with resend := m } } : State).sendAgain p k :=
    h.again (by simp [State.repairFor, hrep]) (by simp [State.resendFor, hu, hg, hm, hb])
  obtain ⟨hdoes, hresend, hseq, hcount, hout⟩ :=
    State.sendAgain_sent (s := s.freeing p) (by rw [s.freeing_link, hk]) (by rw [s.freeing_link, hr]) (by rw [s.freeing_lpath, hn]) k m
  rw [← hsend] at hdoes hresend hseq hcount hout
  rw [s.freeing_link] at hseq hout
  rw [s.freeing_out] at hout
  exact ⟨((s.freeing_does p).weaken rfl).step hdoes rfl, hresend, hseq, hcount.of_cfg (cfg_of_od (s.freeing_does p).od_eq ..), hout⟩

/-- Then data of the first class that has any. -/
theorem State.Sends.data_sent {ks : LinkKeys} {b : LinkBlock} {m : List LinkBlock} (h : s.Sends p) (hk : s.link.keys = some ks)
    (hr : s.link.role = some true) (hn : (s.lpath p).neighbour = true) (hfree : (s.lpath p).up = true → s.link.repair = [] ∧ s.link.resend = [])
    (hc : s.nextClass p = some c) (hq : Tab.get [] s.link.queues c = b :: m) (hb : b.bytes.length ≤ s.bodyRoom c s.link.coding.2) :
    let t := s.linkSend p
    let g := s.link.coding
    let ref := linkRef (s.freeing p).now b.since
    let r := takeBlocks (s.bodyRoom c g.2) (ref + 2 ^ 46) (b :: m)
    let body := (r.1.map (·.bytes)).flatten
    Does [.tb, .link, .out] s t ∧ t.link.queues = s.link.queues.set c r.2 ∧
    (c = 0 → ⟨ks.keyno, s.link.txSeq, (s.freeing p).now, body, b.since⟩ ∈ t.link.kept ∧ t.link.mapDue = false) ∧
    t.link.txSeq = s.link.txSeq + 1 + (if s.link.group.length + 1 = g.1 then g.2 else 0) ∧
    t.out = s.out ++ [.datagram p (sealedFrame true ks.carToPit
      (linkHeader 0 (64 * c) p body.length ks.keyno.toNat s.link.txSeq ref g.1 g.2 s.link.group.length) body s.link.txSeq)] := by
  intro t g ref r body
  have hrep : s.repairFor p = [] := by
    rw [State.repairFor]
    split
    · next hup => exact (hfree (Bool.and_eq_true_iff.1 hup).1).1
    · rfl
  have hagain : s.resendFor p = [] := by
    rw [State.resendFor]
    split
    · next hup =>
      simp only [Bool.and_eq_true] at hup
      exact (hfree hup.1.1).2
    · rfl
  have hsend : t = (s.freeing p).sendData p c := h.data hrep hagain hc
  have hlink := s.freeing_link p
  have hroom (m : Nat) : (s.freeing p).bodyRoom c m = s.bodyRoom c m := by rw [State.bodyRoom, cfg_of_od (s.freeing_does p).od_eq]; rfl
  obtain ⟨hdoes, hqueues, hkept, hseq, hout⟩ := State.sendData_sent (s := s.freeing p) (by rw [hlink, hk]) (by rw [hlink, hr])
    (by rw [s.freeing_lpath, hn]) (by rw [hlink, hq]) (by rw [hlink, hroom]; exact hb)
  rw [← hsend, hlink] at hqueues hkept hseq hout
  rw [State.dataBody, State.freeing_dataTaken] at hkept hout
  rw [State.freeing_dataTaken] at hqueues
  rw [s.freeing_out] at hout
  exact ⟨hsend ▸ ((s.freeing_does p).weaken rfl).step hdoes rfl, hqueues, hkept, hseq, hout⟩

end Sys2Proof.Machine
end

section
/-! Records that the car sheds, and frames that a NAK asks for (07 R137, R141). -/

namespace Sys2Proof.Machine

variable {l : List Part} {s t u : State} {p c n : Nat}

theorem earliest_eq_min (l : List Nat) : earliest l = l.min? := by
  have hstep (l : List Nat) (a : Nat) : l.foldl (fun b t => some (match b with
    | none => t
    | some x => min x t)) (some a) = some (l.foldl min a) := by
    induction l generalizing a with
    | nil => rfl
    | cons x l ih => exact ih (min a x)
  cases l with
  | nil => rfl
  | cons a l => exact (hstep l a).trans (List.min?_cons' ..).symm

/-- Of two lists of times, the earliest of all is the first's, when the first holds it. -/
theorem earliest_of_mem {a b : List Nat} (h : earliest ((earliest a).toList ++ (earliest b).toList) = some n) (hn : n ∈ a) : earliest a = some n := by
  rw [earliest_eq_min] at h
  obtain ⟨-, hle⟩ := List.min?_eq_some_iff.1 h
  cases ha : earliest a with
  | none =>
    rw [earliest_eq_min, List.min?_eq_none_iff] at ha
    subst ha
    cases hn
  | some m =>
    have hm : n ≤ m := hle m (by simp [ha])
    rw [earliest_eq_min] at ha
    exact congrArg some (le_antisymm ((List.min?_eq_some_iff.1 ha).2 n hn) hm)

theorem shedBlock_append {q1 q2 : List LinkBlock} {b : LinkBlock} (hb : b.recs.head?.map (·.since) = some n)
    (hq : ∀ x ∈ q1, x.recs.head?.map (·.since) ≠ some n) :
    shedBlock n (q1 ++ b :: q2) = q1 ++ (if b.recs.length ≤ 1 then [] else [linkBlock b.lane b.orders (b.recs.drop 1)]) ++ q2 := by
  induction q1 with
  | nil =>
    rw [List.nil_append, shedBlock, if_pos hb]
    split <;> rfl
  | cons x q1 ih =>
    rw [List.cons_append, shedBlock, if_neg (hq x (by simp)), ih fun y hy => hq y (by simp [hy])]
    rfl

/-- When the oldest record of a class's queue, and of its open blocks, was selected. -/
def Link.queueOldest (l : Link) (c : Nat) : Option Nat := earliest ((Tab.get [] l.queues c).filterMap fun b => b.recs.head?.map (·.since))

def Link.openOldest (l : Link) (c : Nat) : Option Nat :=
  earliest ((l.opened.filter fun e => e.1 % 4 = c).filterMap fun e => e.2.recs.head?.map (·.since))

def Link.oldest (l : Link) (c : Nat) : Option Nat := earliest ((l.queueOldest c).toList ++ (l.openOldest c).toList)

/-- The link without the oldest record of a class, selected at a time. -/
def Link.shed (l : Link) (c n : Nat) : Link :=
  if l.queueOldest c = some n then { l with queues := l.queues.set c (shedBlock n (Tab.get [] l.queues c)) } else { l with opened := shedOpen c n l.opened }

theorem State.linkShed_eq (hc : c ≠ 0) (hn : s.link.oldest c = some n) :
    s.linkShed c = { (s.reach (n + msTicks 100)).bump 0x2601 7 with link := s.link.shed c n } := by
  unfold State.linkShed
  extract_lets q inQueue inOpen
  rw [if_neg hc, show earliest (inQueue.toList ++ inOpen.toList) = some n from hn]
  have hlink : ((s.reach (n + msTicks 100)).bump 0x2601 7).link = s.link := (State.bump_does ..).link_eq.trans (s.reach_link _)
  simp only [hlink, Link.shed, show s.link.queueOldest c = inQueue from rfl]
  split <;> rfl

/-- The oldest record of a class is shed when it has waited 100 ms, and counted. -/
theorem State.linkShed_shed (hc : c ≠ 0) (hn : s.link.oldest c = some n) : let t := s.linkShed c
    SameBut [.tb, .link, .od] s t ∧ t.tb = (s.reach (n + msTicks 100)).tb ∧ Counted s t 0x2601 7 ∧ t.link = s.link.shed c n := by
  have key (v : State) (x : Link) : let t : State := { v.bump 0x2601 7 with link := x }
      t.tb = v.tb ∧ Counted v t 0x2601 7 ∧ t.link = x := ⟨(v.bump_does 0x2601 7).tb_eq, v.bump_counted 0x2601 7, rfl⟩
  obtain ⟨htb, hcount, hlink⟩ := key (s.reach (n + msTicks 100)) (s.link.shed c n)
  have ht : s.linkShed c = _ := State.linkShed_eq hc hn
  refine ⟨((s.linkShed_does c).weaken rfl).same, ?_⟩
  rw [ht]
  exact ⟨htb, hcount.of_cfg (s.reach_cfg ..), hlink⟩

/-! A NAK at the car (07 R141). -/

/-- Whether the frame that a NAK asks for may go out at once on its path. -/
def State.againNow (s : State) (p : Nat) : Prop :=
  (s.lpath p).up = true ∧ s.link.group = [] ∧ s.link.mapDue = false ∧ (s.lpath p).freeAt ≤ s.now

/-- The retransmissions that wait once a frame has been asked for. -/
def State.asked (s : State) (k : KeptFrame) : List KeptFrame :=
  if s.link.resend.any fun r => r.keyno = k.keyno && r.seq = k.seq then s.link.resend else s.link.resend ++ [k]

variable {f : LinkFrame} {b : List Byte} {m : Nat × Nat} {k : KeptFrame}

theorem State.nakIn_kept (hr : s.link.role = some true) (hf : f.type = 3) (ho : s.openFrame f = (u, some b)) (hb : Config.nakRead b = some m)
    (hk : s.link.kept.find? (fun k => k.keyno.toNat = m.1 && k.seq = m.2 && s.now < k.since + 3 * secTicks) = some k) :
    (s.againNow p → s.nakIn p f = u.sendAgain p k) ∧
    (¬ s.againNow p → s.nakIn p f = { u with link := { u.link with resend := s.asked k } }) := by
  have hnoted := State.openFrame_noted ho
  have hfind : u.link.kept.find? (fun k => k.keyno.toNat = m.1 && k.seq = m.2 && u.now < k.since + 3 * secTicks) = some k := by
    obtain ⟨fresh, until_, shaking, rfl⟩ := hnoted
    exact hk
  have hnow : ((u.lpath p).up && u.link.group.isEmpty && !u.link.mapDue && decide ((u.lpath p).freeAt ≤ u.now)) = true ↔ s.againNow p := by
    obtain ⟨fresh, until_, shaking, rfl⟩ := hnoted
    simp only [Bool.and_eq_true, Bool.not_eq_true', decide_eq_true_eq, List.isEmpty_iff, and_assoc]
    exact Iff.rfl
  have hresend : u.link.resend = s.link.resend := by
    obtain ⟨fresh, until_, shaking, rfl⟩ := hnoted
    rfl
  have hin : s.nakIn p f = if ((u.lpath p).up && u.link.group.isEmpty && !u.link.mapDue && decide ((u.lpath p).freeAt ≤ u.now)) = true then u.sendAgain p k
      else if u.link.resend.any (fun r => r.keyno = k.keyno && r.seq = k.seq) then u
      else { u with link := { u.link with resend := u.link.resend ++ [k] } } := by
    rw [State.nakIn, if_neg (by simp [hr, hf]), ho]
    simp only [hb, hfind]
  refine ⟨fun h => by rw [hin, if_pos (hnow.2 h)], fun h => ?_⟩
  rw [hin, if_neg (mt hnow.1 h), hresend, State.asked]
  split
  · rw [← hresend]
  · rfl

/-- A frame that may go out at once is sent again and counted. -/
theorem State.nakIn_now (hr : s.link.role = some true) (hkeys : s.link.keys.isSome = true) (hf : f.type = 3) (ho : s.openFrame f = (u, some b))
    (hb : Config.nakRead b = some m) (hk : s.link.kept.find? (fun k => k.keyno.toNat = m.1 && k.seq = m.2 && s.now < k.since + 3 * secTicks) = some k)
    (h : s.againNow p) : let t := s.nakIn p f
    Counted s t 0x2601 10 ∧ t.link.txSeq = s.link.txSeq + 1 ∧ ((s.lpath p).neighbour = true → ∃ d, t.out = s.out ++ [.datagram p d]) := by
  rw [(State.nakIn_kept hr hf ho hb hk).1 h]
  have hnoted := State.openFrame_noted ho
  obtain ⟨_, _, _, hu⟩ := hnoted.link_eq
  obtain ⟨ks, hks⟩ := Option.isSome_iff_exists.1 hkeys
  obtain ⟨_, x, hlink⟩ := State.sendAgain_link (s := u) (by rw [hu]; exact hkeys) p k
  refine ⟨(State.sendAgain_counted u p k).of_cfg (cfg_of_od hnoted.does.od_eq ..), by rw [hlink, hu], fun hn => ?_⟩
  rw [State.sendAgain_out (by rw [hu]; exact hks) (by rw [hu]; exact hr) (by rw [hnoted.lpath, hn]), hnoted.does.out_eq]
  exact ⟨_, rfl⟩

/-- A frame that may not go out yet waits as a retransmission, once. -/
theorem State.nakIn_waits (hr : s.link.role = some true) (hf : f.type = 3) (ho : s.openFrame f = (u, some b)) (hb : Config.nakRead b = some m)
    (hk : s.link.kept.find? (fun k => k.keyno.toNat = m.1 && k.seq = m.2 && s.now < k.since + 3 * secTicks) = some k) (h : ¬ s.againNow p) :
    let t := s.nakIn p f
    t.link.txSeq = s.link.txSeq ∧ t.link.resend = s.asked k := by
  rw [(State.nakIn_kept hr hf ho hb hk).2 h]
  obtain ⟨fresh, until_, shaking, rfl⟩ := State.openFrame_noted ho
  exact ⟨rfl, rfl⟩

end Sys2Proof.Machine
end

section
/-! The handshake and its keys (07 R142 to R144, R150). -/

namespace Sys2Proof.Machine

variable {l : List Part} {s t u : State} {p c n : Nat} {f : LinkFrame}

/-! The link's state and its log entries. -/

theorem State.linkEvent_core (s : State) (v : Fin 5) : (s.linkEvent v).link.core = { s.link.core with st := v } := State.logE_core ..

theorem State.setLinkSt_core (s : State) (v : Fin 5) : (s.setLinkSt v).link.core = { s.link.core with st := v } := by
  unfold State.setLinkSt
  split
  · next h => rw [← h]; rfl
  · exact State.logE_core ..

theorem State.logKeys_core (s : State) : s.logKeys.link.core = s.link.core := State.logE_core ..

/-! HELLO (07 R142). -/

theorem State.sendShake_resolved (hn : (s.lpath p).neighbour = true) (type : Nat) (b : List Byte) : s.sendShake p type b = { s with
    link := { s.link with shakeSeq := s.link.shakeSeq + 1 }, out := s.out ++ [.datagram p (shakeFrame type p s.link.shakeSeq s.now b)] } :=
  State.netSend_resolved (s := { s with link := { s.link with shakeSeq := s.link.shakeSeq + 1 } }) hn _

theorem State.sendShake_link (s : State) (p type : Nat) (b : List Byte) : (s.sendShake p type b).link = { s.link with shakeSeq := s.link.shakeSeq + 1 } :=
  (State.netSend_does ..).link_eq

/-- The frames of a handshake's body on some paths, each under the next SEQ. -/
def State.shakes (s : State) (b : List Byte) (ps : List Nat) : State := { s with
  link := { s.link with shakeSeq := s.link.shakeSeq + ps.length }
  out := s.out ++ ps.zipIdx.map fun x => .datagram x.1 (shakeFrame 4 x.1 (s.link.shakeSeq + x.2) s.now b) }

theorem State.shakes_cons (s : State) (b : List Byte) (q : Nat) (ps : List Nat) : (s.shakes b [q]).shakes b ps = s.shakes b (q :: ps) := by
  have hseq : s.link.shakeSeq + 1 + ps.length = s.link.shakeSeq + (q :: ps).length := by rw [List.length_cons]; omega
  have hrest : ps.zipIdx.map (fun x => Output.datagram x.1 (shakeFrame 4 x.1 (s.link.shakeSeq + 1 + x.2) s.now b)) =
      (ps.zipIdx.map (Prod.map id (· + 1))).map fun x => .datagram x.1 (shakeFrame 4 x.1 (s.link.shakeSeq + x.2) s.now b) := by
    rw [List.map_map]
    exact List.map_congr_left fun x _ => by simp [Nat.add_comm, Nat.add_left_comm]
  have hout : s.out ++ [.datagram q (shakeFrame 4 q s.link.shakeSeq s.now b)] ++
      ps.zipIdx.map (fun x => .datagram x.1 (shakeFrame 4 x.1 (s.link.shakeSeq + 1 + x.2) s.now b)) =
      s.out ++ (q :: ps).zipIdx.map fun x => .datagram x.1 (shakeFrame 4 x.1 (s.link.shakeSeq + x.2) s.now b) := by
    rw [List.zipIdx_cons', List.map_cons, hrest, List.append_assoc, List.singleton_append]
    rfl
  exact congrArg₂ (fun n x => { s with link := { s.link with shakeSeq := n }, out := x }) hseq hout

/-- HELLO goes out on each of some paths that is not closed. -/
theorem State.foldl_sendShake (b : List Byte) (ps : List Nat) (hn : ∀ q ∈ ps, (s.lpath q).neighbour = true) :
    ps.foldl (fun t q => if (t.lpath q).closed then t else t.sendShake q 4 b) s = s.shakes b (ps.filter fun q => !(s.lpath q).closed) := by
  induction ps generalizing s with
  | nil => simp [State.shakes]
  | cons q ps ih =>
    rw [List.foldl_cons]
    by_cases hc : (s.lpath q).closed = true
    · rw [if_pos hc, ih fun r hr => hn r (by simp [hr]), List.filter_cons_of_neg (by simp [hc])]
    · rw [if_neg hc, State.sendShake_resolved (hn q (by simp)), List.filter_cons_of_pos (by simpa using hc), ← State.shakes_cons]
      exact ih (s := s.shakes b [q]) fun r hr => hn r (by simp [hr])

/-- When HELLO is due: 200 ms after the last one. -/
def State.helloDue (s : State) : State := (s.link.helloAt.map fun a => s.reach (a + msTicks 200)).getD s

theorem State.helloDue_does (s : State) : Does [.tb] s s.helloDue := by
  unfold State.helloDue
  cases s.link.helloAt with
  | none => exact Does.refl _ _
  | some a =>
    rw [Option.map_some, Option.getD_some]
    exact s.reach_does _

/-- The body of the handshake in progress, a new one's with its nonce and key (07 R142). -/
def State.helloMade (s : State) : State :=
  match s.link.hello with
  | some _ => s
  | none => if s.pst.rngOk then { s with link := { s.link with hello := some (shakeBody 0 s.free []), ephem := s.free }, free := s.free + 1 } else s

/-- HELLO on the paths, at the moment it is due. -/
def State.sendHello (s : State) : State :=
  let v := ({ s with link := { s.link with helloAt := some s.now } } : State).helloMade
  match v.link.hello with
  | none => v
  | some b => v.linkPaths.foldl (fun t p => if (t.lpath p).closed then t else t.sendShake p 4 b) v

theorem State.helloTick_eq (hr : s.link.role = some true) (hs : s.link.shaking = true) (hi : s.inSession = true) : s.helloTick = s.helloDue.sendHello := by
  rw [State.helloTick, if_pos (by simp [hr, hs, hi])]
  extract_lets r v w
  have hdue : r = s.helloDue := by
    unfold State.helloDue r
    cases s.link.helloAt with
    | none => rfl
    | some a => rw [Option.map_some, Option.getD_some]
  clear_value r
  rw [← hdue]
  rfl

theorem State.helloMade_helloAt (s : State) : s.helloMade.link.helloAt = s.link.helloAt ∧ s.helloMade.tb = s.tb := by
  unfold State.helloMade
  split
  · exact ⟨rfl, rfl⟩
  · split <;> exact ⟨rfl, rfl⟩

/-- The next HELLO is due 200 ms from now. -/
theorem State.sendHello_helloAt (s : State) : s.sendHello.link.helloAt = some s.now ∧ s.sendHello.tb = s.tb := by
  have hstep (b : List Byte) (t : State) (p : Nat) : let w := if (t.lpath p).closed then t else t.sendShake p 4 b
      w.link.helloAt = t.link.helloAt ∧ w.tb = t.tb := by
    split
    · exact ⟨rfl, rfl⟩
    · exact ⟨by rw [State.sendShake_link], ((State.netSend_does ..).tb_eq :)⟩
  obtain ⟨hat, htb⟩ := ({ s with link := { s.link with helloAt := some s.now } } : State).helloMade_helloAt
  unfold State.sendHello
  extract_lets v
  split
  · exact ⟨hat, htb⟩
  · next b _ =>
    exact ⟨(foldl_keeps (fun t : State => t.link.helloAt) _ (fun t p => (hstep b t p).1) _ _).trans hat,
      (foldl_keeps State.tb _ (fun t p => (hstep b t p).2) _ _).trans htb⟩

/-- The handshake in progress goes out on every enabled open path. -/
theorem State.sendHello_eq {b : List Byte} (hb : s.link.hello = some b) (hn : ∀ p ∈ s.linkPaths, (s.lpath p).neighbour = true) :
    s.sendHello = ({ s with link := { s.link with helloAt := some s.now } } : State).shakes b (s.linkPaths.filter fun p => !(s.lpath p).closed) := by
  have hdef : s.sendHello = match s.link.hello with
      | some b => s.linkPaths.foldl (fun t p => if (t.lpath p).closed then t else t.sendShake p 4 b) { s with link := { s.link with helloAt := some s.now } }
      | none => s.sendHello := by
    rw [hb, State.sendHello, State.helloMade]
    simp only [hb]
    rfl
  rw [hdef, hb]
  exact State.foldl_sendShake b s.linkPaths hn

end Sys2Proof.Machine
end

section
/-! Keys come into force and end (07 R142 to R144, R150): HELLO at the pit, ANSWER at the car, the rekey interval, the old key's end, a close frame. -/

namespace Sys2Proof.Machine

variable {l : List Part} {s t u : State} {p q c n : Nat} {f : LinkFrame}

/-! HELLO at the pit. -/

/-- The pit's ANSWER to a HELLO, of its next ephemeral key and nonce. -/
def State.answerTo (s : State) (b : List Byte) : List Byte := shakeBody 1 s.free (slice b 12 32)

/-- The keys that the pit derives from a HELLO and its ANSWER. -/
def State.pitKeys (s : State) (b : List Byte) : LinkKeys :=
  linkKeys (s.link.keyno + 1) s.free (slice b 44 97) (slice b 12 32) (slice (s.answerTo b) 12 32) (slice b 0 8) (slice (s.answerTo b) 0 8)

/-- The pit once it has taken the keys of a HELLO. -/
def State.keyed (s : State) (b : List Byte) : State :=
  let s1 := ({ s with free := s.free + 1 } : State).newKeys (s.pitKeys b)
  { s1 with link := { s1.link with hello := some b, answer := some (s.answerTo b) } }

/-- A trusted HELLO that starts a new handshake gives keys, and is answered on its path. -/
theorem State.helloIn_new (hr : s.link.role = some false) (hf : f.type = 4) (hform : shakeForm 0 f.body = true) (htrust : s.shakeTrusted f.body = true)
    (hnew : s.link.hello ≠ some f.body) (hrng : s.pst.rngOk = true) :
    s.helloIn p f = (((s.keyed f.body).sendShake p 5 (s.answerTo f.body)).setLinkSt 2).logKeys := by
  rw [State.helloIn, if_neg (by simp [hr, hf]), if_neg (by rw [hform]; simp), if_neg (by simp [htrust]), if_neg hnew, if_neg (by simp [hrng])]
  rfl

theorem State.helloIn_core (hr : s.link.role = some false) (hf : f.type = 4) (hform : shakeForm 0 f.body = true) (htrust : s.shakeTrusted f.body = true)
    (hnew : s.link.hello ≠ some f.body) (hrng : s.pst.rngOk = true) :
    (s.helloIn p f).link.core = { (s.keyed f.body).link.core with st := 2, shakeSeq := s.link.shakeSeq + 1 } := by
  rw [State.helloIn_new hr hf hform htrust hnew hrng, State.logKeys_core, State.setLinkSt_core, State.sendShake_link]
  rfl

theorem State.helloIn_out (hr : s.link.role = some false) (hf : f.type = 4) (hform : shakeForm 0 f.body = true) (htrust : s.shakeTrusted f.body = true)
    (hnew : s.link.hello ≠ some f.body) (hrng : s.pst.rngOk = true) (hn : (s.lpath p).neighbour = true) :
    (s.helloIn p f).out = s.out ++ [.datagram p (shakeFrame 5 p s.link.shakeSeq s.now (s.answerTo f.body))] := by
  rw [State.helloIn_new hr hf hform htrust hnew hrng, (State.logKeys_does _).out_eq, (State.setLinkSt_does ..).out_eq,
    State.sendShake_resolved (s := s.keyed f.body) hn]
  rfl

/-! The rekey interval, the old key's end, and a close frame. -/

theorem State.rekey_eq (hr : s.link.role = some true) (hk : s.link.keys.isSome = true) (hs : s.link.shaking = false) :
    s.rekey = (let u := s.reach (s.link.keysAt + s.cfg 0x2600 7 * secTicks)
      { u with link := { u.link with shaking := true, hello := none, helloAt := none } }) := by
  have hif : (decide (s.link.role = some true) && s.link.keys.isSome && !s.link.shaking) = true := by simp [hr, hk, hs]
  exact if_pos hif

/-- The link once its old key has ended: what was received under it is forgotten. -/
def Link.oldKeyEnded (l : Link) : Link :=
  { l with oldKeys := none, oldUntil := none, seen := match l.oldKeys with
    | none => l.seen
    | some k => l.seen.filter fun e => e.1 != k.keyno }

/-- The old key ends at its time. -/
theorem State.oldKeyGone_link {a : Nat} (ha : s.link.oldUntil = some a) :
    s.oldKeyGone.tb = (s.reach a).tb ∧ s.oldKeyGone.link = s.link.oldKeyEnded := by
  have key (v : State) : let t : State := { v with link := v.link.oldKeyEnded }
      t.tb = v.tb ∧ t.link = v.link.oldKeyEnded := ⟨rfl, rfl⟩
  have hgone : s.oldKeyGone = { s.reach a with link := (s.reach a).link.oldKeyEnded } := by
    rw [State.oldKeyGone, ha]
    rfl
  rw [hgone]
  exact s.reach_link a ▸ key (s.reach a)

/-- After a close frame the link is in state 1, and the car shakes anew. -/
theorem State.closeIn_core {b : List Byte} (hf : f.type = 6) (ho : s.openFrame f = (u, some b)) :
    (s.closeIn f).link.core = { u.link.core with st := 1, shaking := u.link.role = some true, hello := none, helloAt := none } := by
  rw [State.closeIn, if_neg (by simp [hf]), ho]
  exact State.setLinkSt_core ..

end Sys2Proof.Machine
end

section
/-! The rates of the paths, and ANSWER at the car (07 R142, R145, R147). -/

namespace Sys2Proof.Machine

variable {l : List Part} {s t u : State} {p q c n : Nat} {f : LinkFrame}

/-! The sum of the rates (07 R145). -/

/-- What one path becomes leaves the others as they are. -/
theorem State.withPaths_set (s : State) (x : Tab LinkPath) (q : Nat) (y : LinkPath) :
    ∃ z, (s.withPaths x).setLpath q y = s.withPaths z ∧ ∀ j, Tab.get {} z j = if j = q then y else Tab.get {} x j := by
  refine ⟨x.set q y, rfl, fun j => ?_⟩
  by_cases hj : j = q
  · rw [hj, Tab.get_set_self, if_pos rfl]
  · rw [Tab.get_set_ne _ _ _ hj, if_neg hj]

/-- Each of some paths is changed by its place and its own value. -/
theorem State.foldl_setLpath (g : Nat → LinkPath → LinkPath) (ps : List Nat) (hn : ps.Nodup) :
    ∃ y, ps.foldl (fun t q => t.setLpath q (g q (t.lpath q))) s = s.withPaths y ∧ ∀ j, Tab.get {} y j = if j ∈ ps then g j (s.lpath j) else s.lpath j :=
  State.foldl_paths (fun x q => s.withPaths_set x q _) ps hn s.link.paths

/-- What the held sum makes of a path's rate. -/
def State.heldRate (s : State) (r : Nat) : Nat := r * max 64000 (min s.rateSum s.linkCeiling) / s.rateSum

theorem State.holdSum_eq (s : State) : (s.rateSum = 0 ∨ s.rateSum = max 64000 (min s.rateSum s.linkCeiling)) ∧ s.holdSum = s ∨
    ∃ y, s.holdSum = s.withPaths y ∧ ∀ j, Tab.get {} y j = if j ∈ s.linkPaths then { s.lpath j with rate := s.heldRate (s.lpath j).rate } else s.lpath j := by
  unfold State.holdSum
  extract_lets sum want
  split
  · next h =>
    rw [Bool.or_eq_true, decide_eq_true_eq, decide_eq_true_eq] at h
    exact .inl ⟨h, rfl⟩
  · exact .inr (State.foldl_setLpath (fun q x => { x with rate := s.heldRate (s.lpath q).rate }) s.linkPaths s.linkPaths_nodup)

/-- The held sum changes rates alone. -/
theorem State.holdSum_paths (s : State) : ∃ y, s.holdSum = s.withPaths y ∧ ∀ j, ∃ r, Tab.get {} y j = { s.lpath j with rate := r } := by
  obtain ⟨-, h⟩ | ⟨y, hy, hget⟩ := s.holdSum_eq
  · exact ⟨s.link.paths, h, fun j => ⟨(s.lpath j).rate, rfl⟩⟩
  · refine ⟨y, hy, fun j => ?_⟩
    rw [hget]
    split
    · exact ⟨_, rfl⟩
    · exact ⟨(s.lpath j).rate, rfl⟩

/-- A single path that is up takes the held sum as its rate. -/
theorem State.holdSum_single (hp : s.linkPaths = [q]) (hu : (s.lpath q).up = true) (hr : (s.lpath q).rate ≠ 0) :
    (s.holdSum.lpath q).rate = max 64000 (min (s.lpath q).rate s.linkCeiling) := by
  have hsum : s.rateSum = (s.lpath q).rate := by simp [State.rateSum, hp, hu]
  obtain ⟨hsame, h⟩ | ⟨y, hy, hget⟩ := s.holdSum_eq
  · rw [hsum] at hsame
    rw [h, ← hsame.resolve_left hr]
  · rw [hy, show (s.withPaths y).lpath q = Tab.get {} y q from rfl, hget, if_pos (by simp [hp]), State.heldRate, hsum]
    exact Nat.mul_div_cancel_left _ (Nat.pos_of_ne_zero hr)

theorem State.clampRate_pos (s : State) (q r : Nat) : s.clampRate q r ≠ 0 := by
  rw [State.clampRate]
  omega

/-! ANSWER at the car (07 R142, R147). -/

/-- A path that starts: one that has no rate yet is up at the start rate. -/
def State.startedPath (s : State) (q : Nat) (x : LinkPath) : LinkPath :=
  if x.rate != 0 then x else { x with rate := s.clampRate q (s.cfg 0x2600 2 * 1000), up := true, lastReport := some s.now }

def State.startPaths (s : State) : State :=
  s.linkPaths.foldl (fun t q =>
    if (t.lpath q).rate != 0 then t
    else t.setLpath q { t.lpath q with rate := t.clampRate q (t.cfg 0x2600 2 * 1000), up := true, lastReport := some t.now }) s

theorem State.startPaths_eq (s : State) :
    ∃ y, s.startPaths = s.withPaths y ∧ ∀ j, Tab.get {} y j = if j ∈ s.linkPaths then s.startedPath j (s.lpath j) else s.lpath j := by
  refine State.foldl_paths (fun x q => ?_) s.linkPaths s.linkPaths_nodup s.link.paths
  rw [State.startedPath]
  split
  · next hrate =>
    have h : ((Tab.get {} x q).rate != 0) = true := hrate
    refine ⟨x, rfl, fun j => ?_⟩
    split
    · next hj => rw [hj]
    · rfl
  · next hrate =>
    have h : ¬((Tab.get {} x q).rate != 0) = true := hrate
    obtain ⟨z, hz, hget⟩ := s.withPaths_set x q
      { Tab.get {} x q with rate := s.clampRate q (s.cfg 0x2600 2 * 1000), up := true, lastReport := some s.now }
    exact ⟨z, hz, fun j => by rw [hget, if_neg h]⟩

theorem State.pathsSt_keyed (h : s.link.keys.isSome = true) : 2 ≤ s.pathsSt.val := by
  rw [State.pathsSt, if_neg (by simp [Option.isSome_iff_ne_none.1 h])]
  split
  · exact Nat.le_refl 2
  · split <;> decide

/-- The keys that the car derives from its HELLO and an ANSWER. -/
def State.carKeys (s : State) (h b : List Byte) : LinkKeys :=
  linkKeys (s.link.keyno + 1) s.link.ephem (slice b 44 97) (slice h 12 32) (slice b 12 32) (slice h 0 8) (slice b 0 8)

/-- The car once it has taken the keys of an ANSWER. -/
def State.answered (s : State) (h b : List Byte) : State :=
  { s.newKeys (s.carKeys h b) with link := { (s.newKeys (s.carKeys h b)).link with shaking := false, hello := none } }

/-- The car with its paths at the start rate, their sum held. -/
def State.pathsStarted (s : State) (h b : List Byte) : State := (s.answered h b).startPaths.holdSum

variable {h : List Byte}

/-- The first valid ANSWER gives keys, starts the paths, and puts the mapping record first. -/
theorem State.answerIn_valid (hr : s.link.role = some true) (hh : s.link.hello = some h) (hs : s.link.shaking = true) (hf : f.type = 5)
    (hform : shakeForm 1 f.body = true) (htrust : s.shakeTrusted f.body = true) (hnonce : slice f.body 238 32 = slice h 12 32) :
    s.answerIn p f = ((s.pathsStarted h f.body).mapFirst.setLinkSt (s.pathsStarted h f.body).pathsSt).logKeys := by
  rw [State.answerIn, hh]
  dsimp only
  rw [if_neg (by simp [hr, hs, hf]), if_neg (by rw [hform]; simp), if_neg (by simp [htrust, hnonce])]
  rfl

/-- The paths alone differ once they have started. -/
theorem State.pathsStarted_eq (s : State) (h b : List Byte) : ∃ z, s.pathsStarted h b = (s.answered h b).withPaths z ∧
    (∀ q ∈ s.linkPaths, (s.lpath q).rate = 0 → (Tab.get {} z q).up = true ∧ (Tab.get {} z q).lastReport = some s.now) ∧
    (∀ q, s.linkPaths = [q] → (s.lpath q).rate = 0 →
      (Tab.get {} z q).rate = max 64000 (min (s.clampRate q (s.cfg 0x2600 2 * 1000)) s.linkCeiling)) := by
  let v := s.answered h b
  obtain ⟨y, hy, hstart⟩ := v.startPaths_eq
  obtain ⟨z, hz, hheld⟩ := v.startPaths.holdSum_paths
  have hpath (q : Nat) (hq : q ∈ s.linkPaths) (hr : (s.lpath q).rate = 0) :
      v.startPaths.lpath q = { s.lpath q with rate := s.clampRate q (s.cfg 0x2600 2 * 1000), up := true, lastReport := some s.now } := by
    have hstarted : v.startPaths.lpath q = v.startedPath q (v.lpath q) := by
      rw [hy]
      exact (hstart q).trans (if_pos hq)
    rw [hstarted, State.startedPath, if_neg (by rw [show (v.lpath q).rate = 0 from hr]; decide)]
    rfl
  have hz' : s.pathsStarted h b = v.withPaths z := hz.trans (by rw [hy]; rfl)
  refine ⟨z, hz', fun q hq hr => ?_, fun q hq hr => ?_⟩
  · obtain ⟨r, hget⟩ := hheld q
    rw [hget, hpath q hq hr]
    exact ⟨rfl, rfl⟩
  · have hpq := hpath q (by simp [hq]) hr
    have hsingle := State.holdSum_single (s := v.startPaths) (q := q) (by rw [hy]; exact hq) (by rw [hpq]) (by rw [hpq]; exact s.clampRate_pos q _)
    rw [hpq, hz, hy] at hsingle
    exact hsingle

/-- What a valid ANSWER leaves of the link beside its paths. -/
theorem State.answerIn_core (hr : s.link.role = some true) (hh : s.link.hello = some h) (hs : s.link.shaking = true) (hf : f.type = 5)
    (hform : shakeForm 1 f.body = true) (htrust : s.shakeTrusted f.body = true) (hnonce : slice f.body 238 32 = slice h 12 32) :
    (s.answerIn p f).link.core =
      { (s.pathsStarted h f.body).link.core with mapDue := true, st := (s.pathsStarted h f.body).pathsSt } := by
  rw [State.answerIn_valid hr hh hs hf hform htrust hnonce, State.logKeys_core, State.setLinkSt_core]
  rfl

/-- The mapping record is the first of class 0. -/
theorem State.mapFirst_head (s : State) : (Tab.get [] s.mapFirst.link.queues 0).head? = some (linkBlock 0 [] [⟨0, 0, s.now, s.mapRecord⟩]) := by
  rw [show s.mapFirst.link.queues = s.link.queues.set 0 _ from rfl, Tab.get_set_self]
  rfl

theorem State.setLinkSt_queue (s : State) (v : Fin 5) (hc : c ≠ 3) : Tab.get [] (s.setLinkSt v).link.queues c = Tab.get [] s.link.queues c := by
  unfold State.setLinkSt
  split
  · rfl
  · exact State.logX_queue _ _ _ _ _ _ _ hc

theorem State.answerIn_queue (hr : s.link.role = some true) (hh : s.link.hello = some h) (hs : s.link.shaking = true) (hf : f.type = 5)
    (hform : shakeForm 1 f.body = true) (htrust : s.shakeTrusted f.body = true) (hnonce : slice f.body 238 32 = slice h 12 32) :
    (Tab.get [] (s.answerIn p f).link.queues 0).head? = some (linkBlock 0 [] [⟨0, 0, s.now, s.mapRecord⟩]) := by
  obtain ⟨z, hz, -⟩ := s.pathsStarted_eq h f.body
  have hlog (v : State) : Tab.get [] v.logKeys.link.queues 0 = Tab.get [] v.link.queues 0 := State.logX_queue _ _ _ _ _ _ _ (by decide)
  rw [State.answerIn_valid hr hh hs hf hform htrust hnonce, hlog, State.setLinkSt_queue _ _ (by decide), State.mapFirst_head, hz]
  rfl

end Sys2Proof.Machine
end

section
/-! The obligation of the link that sends and shakes: each clause is one of the facts above. -/

namespace Sys2Proof.Machine

/-- Settles O48: each command by the fact about its operation, the frames by what leaves on a path at the moment its rate lets it. -/
theorem linkSendingAndKeys : Obligations.LinkSendingAndKeys := by
  unfold Obligations.LinkSendingAndKeys
  refine ⟨fun s => ⟨?age, ?send, ?shed, ?group, ?nak⟩, fun s => ⟨?hello, ?helloIn, ?answer, ?rekey, ?oldKey, ?close⟩⟩
  case age => exact fun l c r m hr hroom => ⟨_, rfl, State.linkAge_queues hr hroom⟩
  case send =>
    intro p ks hcar hen hopen hk hst hrole hn u
    have hsends : s.Sends p.val := ⟨hcar, hen, hopen, by rw [hk]; rfl, hst⟩
    refine ⟨fun b m hb hup hturn => ?_, fun k m hb hg hm hk' hup => ?_, ?_⟩
    · obtain ⟨hdoes, hrep, hseq, hgroup⟩ := hsends.repair_link hb hup hturn
      exact ⟨_, rfl, hdoes.same, hrep, hseq, hgroup, hsends.repair_out hk hrole hn hb hup hturn⟩
    · obtain ⟨hdoes, hresend, hseq, hcount, hout⟩ := hsends.again_sent hk hrole hn hb hg hm hk' hup
      exact ⟨_, rfl, hdoes.same, hresend, hseq, hcount, hout⟩
    · intro c b m hfree hc hq g hroom
      obtain ⟨hdoes, hqueues, hkept, hseq, hout⟩ := hsends.data_sent hk hrole hn hfree hc hq hroom
      exact ⟨_, rfl, hdoes.same, hqueues, hkept, hseq, hout⟩
  case shed =>
    intro c n hc q qs os hn
    obtain ⟨hsame, htb, hcount, hlink⟩ := State.linkShed_shed hc hn
    refine ⟨_, rfl, hsame, htb, hcount, fun q1 b q2 hq hb hfirst => ?_, fun hqs => hlink.trans (if_neg hqs)⟩
    have hmem : b ∈ Tab.get [] s.link.queues c.val := by
      rw [show Tab.get [] s.link.queues c.val = _ from hq]
      simp
    have hqs : s.link.queueOldest c.val = some n := earliest_of_mem hn (List.mem_filterMap.2 ⟨b, hmem, hb⟩)
    rw [hlink, Link.shed, if_pos hqs, show Tab.get [] s.link.queues c.val = _ from hq, shedBlock_append hb hfirst]
  case group =>
    intro hg
    obtain ⟨htb, hgroup, hk, hseq, hrep⟩ := State.groupTimeout_link hg
    exact ⟨_, rfl, s.groupTimeout_does.same, htb, hgroup, hk, hseq, hrep⟩
  case nak =>
    intro p f u b n k hhears hrole hkeys hf ho hb hk sends
    refine ⟨s.nakIn p.val f, congrArg Host.Outcome.next (State.received_heard hhears _), fun h => State.nakIn_waits hrole hf ho hb hk h,
      fun h => State.nakIn_now hrole hkeys hf ho hb hk h⟩
  case hello =>
    intro b hrole hshaking hsess hb hn u ps
    have hlink := s.helloDue_does.link_eq
    have hpaths := linkPaths_of_od s.helloDue_does.od_eq
    have hhello : s.helloDue.sendHello = _ :=
      State.sendHello_eq (by rw [hlink, hb]) fun q hq => (congrArg LinkPath.neighbour (lpath_of_link hlink q)).trans (hn q (hpaths ▸ hq))
    exact congrArg Host.Outcome.next ((State.helloTick_eq hrole hshaking hsess).trans hhello)
  case helloIn =>
    intro p f hhears hrole hf hform htrust hnew hrng hn b a k
    have hcore := State.helloIn_core (p := p.val) hrole hf hform htrust hnew hrng
    exact ⟨s.helloIn p.val f, congrArg Host.Outcome.next (State.received_heard hhears _), (congrArg Link.keys hcore :), (congrArg Link.oldKeys hcore :),
      (congrArg Link.keyno hcore :), (congrArg Link.txSeq hcore :), (congrArg Link.st hcore :), (congrArg Link.answer hcore :),
      State.helloIn_out hrole hf hform htrust hnew hrng hn, (congrArg Link.shakeSeq hcore :)⟩
  case answer =>
    intro p f h hhears hrole hh hs hf hform htrust hnonce b k
    have hcore := State.answerIn_core (p := p.val) hrole hh hs hf hform htrust hnonce
    obtain ⟨z, hz, hup, hrate⟩ := s.pathsStarted_eq h f.body
    have hst : 2 ≤ (s.pathsStarted h f.body).pathsSt.val := State.pathsSt_keyed (by rw [hz]; rfl)
    rw [hz] at hcore hst
    have hpath (q : Nat) : (s.answerIn p.val f).lpath q = Tab.get {} z q :=
      (congrArg (fun l : Link => Tab.get ({} : LinkPath) l.paths q) hcore :)
    refine ⟨s.answerIn p.val f, congrArg Host.Outcome.next (State.received_heard hhears _), (congrArg Link.keys hcore :), (congrArg Link.keyno hcore :),
      (congrArg Link.shaking hcore :), (congrArg Link.keysAt hcore :), (congrArg Link.txSeq hcore :),
      hst.trans_eq (congrArg (fun l : Link => l.st.val) hcore).symm, fun q hq hr => ?_, fun q hq hr => ?_, (congrArg Link.mapDue hcore :),
      State.answerIn_queue hrole hh hs hf hform htrust hnonce⟩
    · rw [hpath]
      exact hup q hq hr
    · rw [hpath]
      exact hrate q hq hr
  case rekey => exact fun hr hk hs => congrArg Host.Outcome.next (State.rekey_eq hr hk hs)
  case oldKey =>
    intro a k ha hk
    obtain ⟨htb, hlink⟩ := State.oldKeyGone_link ha
    refine ⟨_, rfl, s.oldKeyGone_does.same, htb, ?_⟩
    rw [hlink, Link.oldKeyEnded, hk]
  case close =>
    intro p f u b hhears hf ho
    have hcore := State.closeIn_core hf ho
    obtain ⟨_, _, _, hu⟩ := (State.openFrame_noted ho).link_eq
    rw [hu] at hcore
    refine ⟨s.closeIn f, congrArg Host.Outcome.next (State.received_heard hhears _), (congrArg Link.st hcore :), (congrArg Link.keys hcore :),
      (congrArg Link.hello hcore :), ?_⟩
    rw [show (s.closeIn f).link.shaking = decide (s.link.role = some true) from congrArg Link.shaking hcore, decide_eq_true_eq]

end Sys2Proof.Machine
end

section
/-! Reports of the pit, paths that go down and reopen, and next hops that are resolved (07 R145, R150, R152). -/

namespace Sys2Proof.Machine

variable {l : List Part} {s t u : State} {p q c n : Nat} {f : LinkFrame}

/-! The pit reports (07 R145). -/

/-- When a path's report is due. -/
def State.reportDue (s : State) (p : Nat) : State := ((s.lpath p).reportAt.map fun a => s.reach (a + msTicks (s.cfg 0x2600 8))).getD s

theorem State.reportDue_does (s : State) (p : Nat) : Does [.tb] s (s.reportDue p) := by
  unfold State.reportDue
  cases (s.lpath p).reportAt with
  | none => exact Does.refl _ _
  | some a =>
    rw [Option.map_some, Option.getD_some]
    exact s.reach_does _

/-- The body of a path's report. -/
def LinkPath.reportBody (x : LinkPath) (p now : Nat) : List Byte :=
  [BitVec.ofNat 8 p, 0, 0, 0] ++ beBytes 4 x.received ++ beBytes 4 x.missing ++ beBytes 8 x.highest.2 ++ beBytes 4 (ofSigned 32 (x.delayChange now)) ++
    beBytes 4 x.malformed

/-- A path at the start of a report interval. -/
def LinkPath.newInterval (x : LinkPath) (now : Nat) : LinkPath := { x with received := 0, missing := 0, malformed := 0, reportAt := some now }

def State.reportNow (s : State) (p : Nat) : State :=
  (s.setLpath p ((s.lpath p).newInterval s.now)).sendFrame p 2 0 s.now 1 0 0 ((s.lpath p).reportBody p s.now)

theorem State.sendReport_eq (hr : s.link.role = some false) (hk : s.link.keys.isSome = true) (hi : s.inSession = true)
    (hp : s.linkPaths.contains p = true) : s.sendReport p = (s.reportDue p).reportNow p := by
  rw [State.sendReport, if_pos (by rw [hk, hi, hp]; simp [hr])]
  extract_lets r x body
  have hdue : r = s.reportDue p := by
    unfold State.reportDue r
    cases (s.lpath p).reportAt with
    | none => rfl
    | some a => rw [Option.map_some, Option.getD_some]
  clear_value r
  rw [← hdue]
  rfl

/-- A report begins a new interval. -/
theorem State.reportNow_path (s : State) (p : Nat) : (s.reportNow p).lpath p = (s.lpath p).newInterval s.now := by
  unfold State.reportNow
  by_cases hk : s.link.keys.isSome = true
  · obtain ⟨_, hlink⟩ := State.sendFrame_link (s := s.setLpath p ((s.lpath p).newInterval s.now)) (p := p) hk 2 0 s.now 1 0 0
      ((s.lpath p).reportBody p s.now)
    rw [State.lpath, hlink]
    exact State.lpath_setLpath ..
  · rw [State.sendFrame, if_pos (by simpa using hk)]
    exact State.lpath_setLpath ..

theorem State.reportNow_does (s : State) (p : Nat) : Does [.link, .out] s (s.reportNow p) :=
  ((State.setLpath_does ..).weaken rfl).step (State.sendFrame_does ..) rfl

/-- A report leaves under the next SEQ. -/
theorem State.reportNow_sent {ks : LinkKeys} (hr : s.link.role = some false) (hk : s.link.keys = some ks) (hn : (s.lpath p).neighbour = true) :
    let b := (s.lpath p).reportBody p s.now
    (s.reportNow p).link.txSeq = s.link.txSeq + 1 ∧ (s.reportNow p).out = s.out ++ [.datagram p (sealedFrame false ks.pitToCar
      (linkHeader 2 0 p b.length ks.keyno.toNat s.link.txSeq s.now 1 0 0) b s.link.txSeq)] := by
  intro b
  let v := s.setLpath p ((s.lpath p).newInterval s.now)
  have hnv : (v.lpath p).neighbour = true := by
    rw [State.lpath_setLpath]
    exact hn
  have hkv : v.link.keys.isSome = true := by rw [show v.link.keys = _ from hk]; rfl
  obtain ⟨_, hlink⟩ := State.sendFrame_link (s := v) (p := p) hkv 2 0 s.now 1 0 0 b
  refine ⟨(congrArg Link.txSeq hlink :), ?_⟩
  rw [State.reportNow, State.sendFrame_out (s := v) hk hnv, State.sealed_pit (s := v) hr]
  rfl

/-! Paths that go down and reopen (07 R145, R150). -/

theorem State.linkEvent_lpath (s : State) (v : Fin 5) (p : Nat) : (s.linkEvent v).lpath p = s.lpath p :=
  (congrArg (fun l : Link => Tab.get ({} : LinkPath) l.paths p) (s.linkEvent_core v) :)

/-- An event of a path changes the path, and no other. -/
theorem State.pathEvent (s : State) (p : Nat) (y : LinkPath) (v : Fin 5) : let t := (s.setLpath p y).linkEvent v
    t.tb = s.tb ∧ t.lpath p = y ∧ ∀ j, j ≠ p → t.lpath j = s.lpath j := by
  refine ⟨(State.linkEvent_does ..).tb_eq, ?_, fun j hj => ?_⟩
  · rw [State.linkEvent_lpath, State.lpath_setLpath]
  · rw [State.linkEvent_lpath, State.lpath_setLpath_ne _ _ hj]

theorem State.pathDown_path {a : Nat} (hr : s.link.role = some true) (hu : (s.lpath p).up = true) (ha : (s.lpath p).lastReport = some a) :
    let t := s.pathDown p
    t.tb = (s.reach (a + msTicks 500)).tb ∧ t.lpath p = { s.lpath p with up := false } ∧ ∀ j, j ≠ p → t.lpath j = s.lpath j := by
  have hdown : ∃ v, s.pathDown p = ((s.reach (a + msTicks 500)).setLpath p { s.lpath p with up := false }).linkEvent v := by
    unfold State.pathDown
    dsimp only
    rw [ha]
    dsimp only
    rw [if_pos (by simp [hr, hu])]
    exact ⟨_, rfl⟩
  obtain ⟨v, hv⟩ := hdown
  obtain ⟨htb, hsame, hother⟩ := (s.reach (a + msTicks 500)).pathEvent p { s.lpath p with up := false } v
  rw [← hv] at htb hsame hother
  exact ⟨htb, hsame, fun j hj => (hother j hj).trans (s.reach_lpath ..)⟩

theorem State.pathOpens_eq (h : (s.lpath p).closed = true) :
    s.pathOpens p = ((s.reach ((s.lpath p).closedAt + secTicks)).setLpath p { s.lpath p with closed := false }).linkEvent s.link.st := if_pos h

theorem State.pathOpens_path (h : (s.lpath p).closed = true) : (s.pathOpens p).lpath p = { s.lpath p with closed := false } := by
  rw [State.pathOpens_eq h]
  exact ((s.reach ((s.lpath p).closedAt + secTicks)).pathEvent p _ _).2.1

/-! Reports at the car (07 R145). -/

/-- The rate that a report gives a path. -/
def State.reportRate (s : State) (q : Nat) (b : List Byte) : Nat :=
  if (s.lpath q).up then adaptRate (s.lpath q).rate (beNat (slice b 4 4)) (beNat (slice b 8 4)) (toSigned 32 (beNat (slice b 20 4)))
  else s.cfg 0x2600 2 * 1000

/-- The car once a report has set a path's rate, and the sum is held. -/
def State.reported (s : State) (q : Nat) (b : List Byte) : State :=
  (s.setLpath q { s.lpath q with rate := s.clampRate q (s.reportRate q b), up := true, lastReport := some s.now }).holdSum

/-- The losses of the last 2 s once a report has come. -/
def State.lossesKept (s : State) (b : List Byte) : List (Nat × Nat × Nat) :=
  (s.link.losses.filter fun e => s.now < e.1 + 2 * secTicks) ++ [(s.now, beNat (slice b 8 4), beNat (slice b 4 4) + beNat (slice b 8 4))]

/-- The code level that some losses give, where it adapts (07 R140). -/
def State.adapted (s : State) (losses : List (Nat × Nat × Nat)) : State := { s with
  link := { s.link with losses := losses, level := if s.cfg 0x2600 5 = 6 then Fin.ofNat 6 (adaptLevel losses) else s.link.level } }

/-- The link's state and its log entry once a report has come. -/
def State.reportEnd (s : State) (up : Bool) : State := if 2 ≤ s.link.st.val then (if up then s.setLinkSt s.pathsSt else s.linkEvent s.pathsSt) else s

theorem State.reportEnd_paths (s : State) (up : Bool) : (s.reportEnd up).link.paths = s.link.paths := by
  unfold State.reportEnd
  split
  · split
    · exact (congrArg Link.paths (State.setLinkSt_core ..) :)
    · exact (congrArg Link.paths (State.linkEvent_core ..) :)
  · rfl

variable {b : List Byte}

/-- A report of a path sets its rate, and of the paths nothing else. -/
theorem State.reportIn_paths (hr : s.link.role = some true) (hf : f.type = 2) (ho : s.openFrame f = (u, some b)) (hlen : b.length = 28) (hp : p < 4)
    (hb : slice b 0 4 = [BitVec.ofNat 8 p, 0, 0, 0]) : (s.reportIn p f).link.paths = (u.reported p b).link.paths := by
  have hhead : b.getD 0 0 = BitVec.ofNat 8 p ∧ slice b 1 3 = zeros 3 := by
    match b, hlen, hb with
    | x0 :: x1 :: x2 :: x3 :: m, _, hb =>
      have hlist : [x0, x1, x2, x3] = [BitVec.ofNat 8 p, 0, 0, 0] := hb
      simp only [List.cons.injEq, and_true] at hlist
      obtain ⟨rfl, rfl, rfl, rfl⟩ := hlist
      exact ⟨rfl, rfl⟩
  have hq : (b.getD 0 0).toNat = p := by rw [hhead.1, BitVec.toNat_ofNat]; omega
  have hreport : s.reportIn p f = ((u.reported p b).adapted (u.lossesKept b)).reportEnd (u.lpath p).up := by
    unfold State.reportIn
    rw [if_neg (by simp [hr, hf]), ho]
    dsimp only
    rw [if_neg (by rw [hlen, hhead.2, hq]; simp; omega), hq]
    rfl
  rw [hreport, State.reportEnd_paths]
  rfl

theorem State.reportIn_path (hr : s.link.role = some true) (hf : f.type = 2) (ho : s.openFrame f = (u, some b)) (hlen : b.length = 28) (hp : p < 4)
    (hb : slice b 0 4 = [BitVec.ofNat 8 p, 0, 0, 0]) :
    ((s.reportIn p f).lpath p).up = true ∧ ((s.reportIn p f).lpath p).lastReport = some s.now := by
  obtain ⟨y, hy, hget⟩ := (u.setLpath p { u.lpath p with rate := u.clampRate p (u.reportRate p b), up := true, lastReport := some u.now }).holdSum_paths
  obtain ⟨r, hr'⟩ := hget p
  have hpath : (s.reportIn p f).lpath p = Tab.get {} y p := by
    rw [State.lpath, State.reportIn_paths hr hf ho hlen hp hb, State.reported, hy]
    rfl
  rw [hpath, hr', State.lpath_setLpath, now_of_tb (State.openFrame_noted ho).does.tb_eq]
  exact ⟨rfl, rfl⟩

/-- A single path takes what the report gives, within its carrier's and the ceiling's share. -/
theorem State.reportIn_rate (hr : s.link.role = some true) (hf : f.type = 2) (ho : s.openFrame f = (u, some b)) (hlen : b.length = 28) (hp : p < 4)
    (hb : slice b 0 4 = [BitVec.ofNat 8 p, 0, 0, 0]) (hone : s.linkPaths = [p]) :
    ((s.reportIn p f).lpath p).rate = max 64000 (min (s.clampRate p (s.reportRate p b)) s.linkCeiling) := by
  have hpath : (s.reportIn p f).lpath p = (u.reported p b).lpath p := by rw [State.lpath, State.reportIn_paths hr hf ho hlen hp hb]; rfl
  have hnoted := State.openFrame_noted ho
  have hsame (r : Nat) : u.clampRate p r = s.clampRate p r ∧ u.reportRate p b = s.reportRate p b ∧ u.linkCeiling = s.linkCeiling := by
    obtain ⟨_, _, _, rfl⟩ := hnoted
    exact ⟨rfl, rfl, rfl⟩
  obtain ⟨hclamp, hrate, hceiling⟩ := hsame (s.reportRate p b)
  let v := u.setLpath p { u.lpath p with rate := u.clampRate p (u.reportRate p b), up := true, lastReport := some u.now }
  have hv : v.lpath p = { u.lpath p with rate := u.clampRate p (u.reportRate p b), up := true, lastReport := some u.now } := State.lpath_setLpath ..
  have hsingle := State.holdSum_single (s := v) (q := p) ((linkPaths_of_od hnoted.does.od_eq).trans hone) (by rw [hv])
    (by rw [hv]; exact u.clampRate_pos p _)
  rw [hv, hrate, hclamp, show v.linkCeiling = u.linkCeiling from rfl, hceiling] at hsingle
  rw [hpath]
  exact hsingle

/-! Next hops (07 R152). -/

/-- The enabled paths of a carrier MAC. -/
def State.macPaths (s : State) (m : Nat) : List Nat := (List.range 4).filter fun p => s.cfg (pathIdx p) 1 = 1 && s.cfg (pathIdx p) 2 = m

theorem State.mem_macPaths {m : Nat} (hp : p < 4) (he : s.cfg (pathIdx p) 1 = 1) (hm : s.cfg (pathIdx p) 2 = m) : p ∈ s.macPaths m := by
  simp [State.macPaths, hp, he, hm]

/-- A request for a path's local address is answered. -/
theorem State.arpIn_request {m : Nat} (hu : s.portUse (macPort m) = 3) (hs : s.served = true) (hp : p ∈ s.macPaths m) :
    s.arpIn m false (s.localAddr p) = s.send (.neighbour m true (s.localAddr p)) := by
  have hany : ((s.macPaths m).any fun q => s.localAddr q = s.localAddr p) = true := List.any_eq_true.2 ⟨p, hp, by simp⟩
  rw [State.arpIn, if_pos (by simp [hu, hs]), if_neg (by decide)]
  exact if_pos hany

/-- An answer for a path's next hop resolves it. -/
theorem State.arpIn_reply {m : Nat} (hu : s.portUse (macPort m) = 3) (hs : s.served = true) (hp : p ∈ s.macPaths m) :
    (s.arpIn m true (s.nextHop p)).lpath p = { s.lpath p with neighbour := true } ∧ SameBut [.link] s (s.arpIn m true (s.nextHop p)) := by
  have hfold : ∃ y, s.arpIn m true (s.nextHop p) = s.withPaths y ∧
      ∀ j, Tab.get {} y j =
        if j ∈ s.macPaths m then (if s.nextHop p = s.nextHop j then { s.lpath j with neighbour := true } else s.lpath j) else s.lpath j := by
    rw [State.arpIn, if_pos (by simp [hu, hs]), if_pos rfl]
    refine State.foldl_paths (g := fun q x => if s.nextHop p = s.nextHop q then { x with neighbour := true } else x) (fun x q => ?_) (s.macPaths m)
      (List.nodup_range.filter _) s.link.paths
    by_cases hq : s.nextHop p = s.nextHop q
    · obtain ⟨z, hz, hget⟩ := s.withPaths_set x q { Tab.get {} x q with neighbour := true }
      exact ⟨z, (if_pos hq).trans hz, fun j => by rw [hget, if_pos hq]⟩
    · refine ⟨x, if_neg hq, fun j => ?_⟩
      rw [if_neg hq]
      split
      · next hj => rw [hj]
      · rfl
  obtain ⟨y, hy, hget⟩ := hfold
  rw [hy]
  exact ⟨(hget p).trans (by rw [if_pos hp, if_pos rfl]), (Does.set_link ..).same⟩

end Sys2Proof.Machine
end

section
/-! The pit asks for lost frames (07 R141), and takes data frames (07 R139, R146, R147). -/

namespace Sys2Proof.Machine

variable {l : List Part} {s t u : State} {p q c n : Nat} {f : LinkFrame}

/-! NAK_TIMER (07 R141). -/

/-- The NAK of a frame goes out on the first open path, and is remembered. -/
theorem State.nakOut_sent {m : NakTx} (hk : s.link.keys.isSome = true) (hp : s.linkPaths.find? (fun p => !(s.lpath p).closed) = some p) :
    let t := s.nakOut m
    { m with last := s.now } ∈ t.link.naks ∧ t.link.txSeq = s.link.txSeq + 1 ∧
    ((s.lpath p).neighbour = true → ∃ d, t.out = s.out ++ [.datagram p d]) := by
  intro t
  let v : State := { s with link := { s.link with
    naks := (s.link.naks.filter fun (e : NakTx) => !(e.keyno = m.keyno && e.seq = m.seq)) ++ [{ m with last := s.now }] } }
  have ht : t = v.sendFrame p 3 0 s.now 1 0 0 (Config.nakBody m.keyno.toNat m.seq) := by
    show s.nakOut m = _
    rw [State.nakOut, hp]
  obtain ⟨ks, hks⟩ := Option.isSome_iff_exists.1 hk
  obtain ⟨_, hlink⟩ := State.sendFrame_link (s := v) (p := p) hk 3 0 s.now 1 0 0 (Config.nakBody m.keyno.toNat m.seq)
  rw [ht]
  refine ⟨?_, (congrArg Link.txSeq hlink :), fun hn => ⟨_, State.sendFrame_out (s := v) hks hn ..⟩⟩
  rw [hlink]
  exact List.mem_append_right _ (List.mem_singleton_self _)

theorem State.sendNak_first {k : BitVec 32} {q : Nat} (hr : s.link.role = some false) (hk : s.link.keys.isSome = true) (hi : s.inSession = true)
    (hseen : s.link.seen.contains (k, q) = false) (hlost : s.groupLost k q = true)
    (hnak : s.link.naks.find? (fun e => e.keyno = k && e.seq = q) = none) : s.sendNak k q = s.nakOut ⟨k, q, s.now, s.now⟩ := by
  rw [State.sendNak, if_pos (by rw [hk, hi, hseen, hlost]; simp [hr]), hnak]

/-! What the recovery of records keeps (07 R146, R147). -/

/-- Records may have been recovered: what was received and what is held stays so, and the paths, the NAKs, the releases and the release delay are as before. -/
structure State.Recovered (s t : State) : Prop where
  tb : t.tb = s.tb
  delay : t.cfg 0x2600 4 = s.cfg 0x2600 4
  paths : t.link.paths = s.link.paths
  naks : t.link.naks = s.link.naks
  released : t.link.released = s.link.released
  seen : s.link.seen ⊆ t.link.seen
  held : s.link.held ⊆ t.link.held
  offset : s.link.offset.isSome = true → t.link.offset.isSome = true

theorem State.Recovered.refl (s : State) : s.Recovered s := ⟨rfl, rfl, rfl, rfl, rfl, List.Subset.refl _, List.Subset.refl _, id⟩

theorem State.Recovered.trans (h : s.Recovered t) (h' : t.Recovered u) : s.Recovered u where
  tb := h'.tb.trans h.tb
  delay := h'.delay.trans h.delay
  paths := h'.paths.trans h.paths
  naks := h'.naks.trans h.naks
  released := h'.released.trans h.released
  seen := List.Subset.trans h.seen h'.seen
  held := List.Subset.trans h.held h'.held
  offset := h'.offset ∘ h.offset

theorem State.Recovered.fold {α : Type} {f : State → α → State} (hf : ∀ (t : State) a, t.Recovered (f t a)) (xs : List α) (s : State) :
    s.Recovered (xs.foldl f s) := by
  induction xs generalizing s with
  | nil => exact .refl s
  | cons a xs ih => exact (hf s a).trans (ih (f s a))

/-- What leaves the link but for waiting records, and the release delay. -/
theorem State.Recovered.of_core (htb : t.tb = s.tb) (hdelay : t.cfg 0x2600 4 = s.cfg 0x2600 4) (h : t.link.core = s.link.core) : s.Recovered t where
  tb := htb
  delay := hdelay
  paths := (congrArg Link.paths h :)
  naks := (congrArg Link.naks h :)
  released := (congrArg Link.released h :)
  seen := (congrArg Link.seen h :) ▸ List.Subset.refl _
  held := (congrArg Link.held h :) ▸ List.Subset.refl _
  offset hs := (congrArg (fun l : Link => l.offset.isSome) h :).trans hs

theorem State.bump_recovered (s : State) (b : Nat) (hb : b < 256) : s.Recovered (s.bump 0x2601 b) :=
  .of_core (s.bump_does 0x2601 b).tb_eq (s.bump_cfg_ne hb (by decide) (by decide)) (s.bump_core ..)

/-- A record waits for its release time. -/
def State.hold (s : State) (h : HeldRec) : State := { s with link := { s.link with held := s.link.held ++ [h] } }

theorem State.hold_recovered (s : State) (h : HeldRec) : s.Recovered (s.hold h) :=
  ⟨rfl, rfl, rfl, rfl, rfl, List.Subset.refl _, List.subset_append_left _ _, id⟩

theorem State.holdRec_recovered (s : State) (h : HeldRec) : s.Recovered (s.holdRec h) := by
  unfold State.holdRec
  split
  · split
    · exact s.bump_recovered 8 (by decide)
    · exact s.hold_recovered h
  · exact s.hold_recovered h

theorem State.holdRec_free {h : HeldRec} (hr : Tab.find s.link.released h.lane = none) : s.holdRec h = s.hold h := by
  rw [State.holdRec, hr]
  rfl

theorem State.fixO_recovered (s : State) (o : Int) : s.Recovered (s.fixO o) := by
  let v : State := { s with link := { s.link with offset := some o, waitO := [] } }
  have hv : s.Recovered v := ⟨rfl, rfl, rfl, rfl, rfl, List.Subset.refl _, List.Subset.refl _, fun _ => rfl⟩
  have hlog : v.Recovered (v.logHealth 1 1 0x2601 6 (ofSigned 24 o) []) :=
    .of_core (v.logHealth_does ..).tb_eq ((v.logHealth_upstream ..).settings _ _ (by decide) (by simp [countsLoss])) (v.logHealth_core ..)
  exact (hv.trans hlog).trans (.fold (fun t h => t.holdRec_recovered h) _ _)

/-- The records of a body, each with its lane. -/
def bodyRecs (body : List Byte) : List (Nat × List Byte) :=
  (cutBlocks body.length body).flatMap fun b => ((decodeBlock b).getD []).map fun r => (blockLane b, r)

/-- A recovered record with its release time. -/
def State.recovering (s : State) (ref : Int) (x : Nat × List Byte) : HeldRec :=
  ⟨s.now + msTicks (s.cfg 0x2600 4), s.now, x.1, fullCount ref (recTick x.2), x.2⟩

def State.recordIn (s : State) (ref : Int) (x : Nat × List Byte) : State :=
  if s.link.offset.isSome then s.holdRec (s.recovering ref x) else { s with link := { s.link with waitO := s.link.waitO ++ [s.recovering ref x] } }

theorem State.recordIn_recovered (s : State) (ref : Int) (x : Nat × List Byte) : s.Recovered (s.recordIn ref x) := by
  unfold State.recordIn
  split
  · exact s.holdRec_recovered _
  · exact ⟨rfl, rfl, rfl, rfl, rfl, List.Subset.refl _, List.Subset.refl _, id⟩

/-- The car's mapping in a body fixes the offset, when none is known. -/
def State.offsetIn (s : State) (ref : Int) (body : List Byte) : State :=
  match s.link.offset, (bodyRecs body).find? fun x => recType x.2 = 0x11 with
  | none, some x => s.fixO (s.offsetFor ref x.2)
  | _, _ => s

theorem State.bodyIn_eq (s : State) (ref : Int) (body : List Byte) :
    s.bodyIn ref body = (bodyRecs body).foldl (fun t x => t.recordIn ref x) (s.offsetIn ref body) := rfl

theorem State.offsetIn_recovered (s : State) (ref : Int) (body : List Byte) : s.Recovered (s.offsetIn ref body) := by
  unfold State.offsetIn
  split
  · exact s.fixO_recovered _
  · exact .refl s

theorem State.bodyIn_recovered (s : State) (ref : Int) (body : List Byte) : s.Recovered (s.bodyIn ref body) := by
  rw [State.bodyIn_eq]
  exact (s.offsetIn_recovered ref body).trans (.fold (fun t x => t.recordIn_recovered ref x) _ _)

/-- Each record of a body, of a lane of which none has been released, waits for its release time. -/
theorem State.bodyIn_holds {ref : Int} {body : List Byte} {x : Nat × List Byte} (ho : s.link.offset.isSome = true) (hx : x ∈ bodyRecs body)
    (hr : Tab.find s.link.released x.1 = none) : s.recovering ref x ∈ (s.bodyIn ref body).link.held := by
  obtain ⟨pre, post, hsplit⟩ := List.append_of_mem hx
  rw [State.bodyIn_eq, hsplit, List.foldl_append, List.foldl_cons]
  have hpre : s.Recovered (pre.foldl (fun t x => t.recordIn ref x) (s.offsetIn ref body)) :=
    (s.offsetIn_recovered ref body).trans (.fold (fun t x => t.recordIn_recovered ref x) _ _)
  generalize pre.foldl (fun t x => t.recordIn ref x) (s.offsetIn ref body) = v at hpre
  have hsame : v.recovering ref x = s.recovering ref x := by rw [State.recovering, State.recovering, now_of_tb hpre.tb, hpre.delay]
  have hheld : s.recovering ref x ∈ (v.recordIn ref x).link.held := by
    rw [State.recordIn, if_pos (hpre.offset ho), hsame, State.holdRec_free (by rw [hpre.released]; exact hr)]
    exact List.mem_append_right _ (List.mem_singleton_self _)
  exact (State.Recovered.fold (fun t x => t.recordIn_recovered ref x) post _).held hheld

theorem State.groupIn_recovered (s : State) (p : Nat) (f : LinkFrame) (ref : Int) (body : List Byte) : s.Recovered (s.groupIn p f ref body) := by
  unfold State.groupIn
  extract_lets first same g g1 all got whole g2 link s1
  have h1 : s.Recovered s1 := ⟨rfl, rfl, rfl, rfl, rfl, List.subset_append_left _ _, List.Subset.refl _, id⟩
  exact h1.trans (.fold (fun t (e : Nat × List Byte) => t.bodyIn_recovered ref e.2) _ _)

/-! A data frame at the pit (07 R139, R145, R146). -/

/-- A frame that arrives is counted on its path, and of the link else only which SEQ is the highest changes. -/
theorem State.pathStats_eq (s : State) (p : Nat) (q : Nat × Nat) (ref : Int) : ∃ x top, s.pathStats p q ref = { s with
    link := { s.link with paths := x, top := top } } ∧ (Tab.get {} x p).received = (s.lpath p).received + 1 := by
  obtain ⟨y, hy, hget⟩ := State.foldl_setLpath (s := s) (fun _ x => { x with missing := (x.missing + seqGap s.link.top q).toNat }) s.linkPaths
    s.linkPaths_nodup
  have hcount : (Tab.get {} y p).received = (s.lpath p).received := by
    rw [hget]
    split <;> rfl
  unfold State.pathStats
  extract_lets gap s1 x s2 link
  have hx : x.received = (s.lpath p).received := (congrArg (fun v : State => (v.lpath p).received) hy).trans hcount
  have hs2 : s2 = s.withPaths (y.set p _) := congrArg (fun v : State => v.setLpath p _) hy
  refine ⟨_, _, congrArg (fun v : State => { v with link := { v.link with top := if seqLt s.link.top q then q else s.link.top } }) hs2, ?_⟩
  exact (congrArg LinkPath.received (Tab.get_set_self ..)).trans (congrArg (· + 1) hx)

theorem State.liveOffset_eq (s : State) (ref : Int) : ∃ rep, s.liveOffset ref = { s with rep := rep } := by
  unfold State.liveOffset
  split <;> exact ⟨_, rfl⟩

/-- The pit once it has counted a frame. -/
def State.countedIn (s : State) (p : Nat) (f : LinkFrame) (ref : Int) : State := (s.pathStats p (f.keyno.toNat, f.seq.toNat) ref).liveOffset ref

theorem State.countedIn_eq (s : State) (p : Nat) (f : LinkFrame) (ref : Int) : ∃ x top rep, s.countedIn p f ref = { s with
    link := { s.link with paths := x, top := top }, rep := rep } ∧ (Tab.get {} x p).received = (s.lpath p).received + 1 := by
  obtain ⟨x, top, hstats, hx⟩ := s.pathStats_eq p (f.keyno.toNat, f.seq.toNat) ref
  obtain ⟨rep, hrep⟩ := (s.pathStats p (f.keyno.toNat, f.seq.toNat) ref).liveOffset_eq ref
  exact ⟨x, top, rep, hrep.trans (by rw [hstats]), hx⟩

/-- REF of a frame. -/
def frameRef (f : LinkFrame) : Int := f.refep.toNat * 2 ^ 48 + f.reftick.toNat

/-- What a retransmission brings, under the KEYNO and SEQ it had at first. -/
def State.broughtIn (s : State) (ref : Int) (key : BitVec 32) (orig : Nat) (b : List Byte) : State :=
  if s.link.seen.contains (key, orig) then s
  else ({ s with link := { s.link with seen := s.link.seen ++ [(key, orig)], naks := s.link.naks.filter fun e => !(e.keyno = key && e.seq = orig) } } :
    State).bodyIn ref b

/-- What a data or repair frame brings. -/
def State.framedIn (s : State) (p : Nat) (f : LinkFrame) (b : List Byte) : State :=
  (if f.type = 0 then s.bodyIn (frameRef f) b else s).groupIn p f (frameRef f) b

variable {b : List Byte}

theorem State.dataIn_seen (hr : s.link.role = some false) (hf : f.type.toNat ≤ 1) (ho : s.openFrame f = (u, none)) : s.dataIn p f = u := by
  rw [State.dataIn, if_neg (by simp [hr, hf]), ho]

theorem State.dataIn_eq (hr : s.link.role = some false) (hf : f.type.toNat ≤ 1) (ho : s.openFrame f = (u, some b)) :
    let v := u.countedIn p f (frameRef f)
    s.dataIn p f = if f.fflags.getLsbD 5 then v.broughtIn (frameRef f) (v.link.origKey f.keyno (beNat (b.take 8))) (beNat (b.take 8)) (b.drop 8)
      else v.framedIn p f b := by
  rw [State.dataIn, if_neg (by simp [hr, hf]), ho]
  rfl

theorem State.framedIn_recovered (s : State) (p : Nat) (f : LinkFrame) (b : List Byte) : s.Recovered (s.framedIn p f b) := by
  unfold State.framedIn
  split
  · exact (s.bodyIn_recovered ..).trans (State.groupIn_recovered ..)
  · exact s.groupIn_recovered ..

theorem State.broughtIn_kept (s : State) (ref : Int) (key : BitVec 32) (orig : Nat) (b : List Byte) :
    (s.broughtIn ref key orig b).link.paths = s.link.paths ∧ s.link.seen ⊆ (s.broughtIn ref key orig b).link.seen := by
  unfold State.broughtIn
  split
  · exact ⟨rfl, List.Subset.refl _⟩
  · have hbody := ({ s with link := { s.link with
      seen := s.link.seen ++ [(key, orig)], naks := s.link.naks.filter fun e => !(e.keyno = key && e.seq = orig) } } : State).bodyIn_recovered ref b
    exact ⟨hbody.paths, List.Subset.trans (List.subset_append_left _ _) hbody.seen⟩

/-- A retransmission brings the frame whose SEQ it gives, and ends its NAKs. -/
theorem State.broughtIn_new {ref : Int} {key : BitVec 32} {orig : Nat} (h : (key, orig) ∉ s.link.seen) (b : List Byte) :
    let t := s.broughtIn ref key orig b
    (key, orig) ∈ t.link.seen ∧ t.link.naks = s.link.naks.filter fun e => !(e.keyno = key && e.seq = orig) := by
  have hbody := ({ s with link := { s.link with
    seen := s.link.seen ++ [(key, orig)], naks := s.link.naks.filter fun e => !(e.keyno = key && e.seq = orig) } } : State).bodyIn_recovered ref b
  rw [State.broughtIn, if_neg (by simpa using h)]
  exact ⟨hbody.seen (List.mem_append_right _ (List.mem_singleton_self _)), hbody.naks⟩

theorem State.countedIn_does (s : State) (p : Nat) (f : LinkFrame) (ref : Int) : Does [.link, .rep] s (s.countedIn p f ref) := by
  obtain ⟨x, top, rep, h, -⟩ := s.countedIn_eq p f ref
  rw [h]
  exact ((Does.set_link s { s.link with paths := x, top := top }).weaken rfl).step (Does.set_rep _ rep) rfl

/-- A frame that is opened is remembered and counted on its path. -/
theorem State.dataIn_taken (hr : s.link.role = some false) (hf : f.type.toNat ≤ 1) (ho : s.openFrame f = (u, some b)) :
    (f.keyno, f.seq.toNat) ∈ (s.dataIn p f).link.seen ∧ ((s.dataIn p f).lpath p).received = (s.lpath p).received + 1 := by
  have hnoted := State.openFrame_noted ho
  obtain ⟨_, _, _, hu⟩ := hnoted.link_eq
  obtain ⟨x, top, rep, hv, hx⟩ := u.countedIn_eq p f (frameRef f)
  have hvseen : (f.keyno, f.seq.toNat) ∈ (u.countedIn p f (frameRef f)).link.seen := by
    rw [hv]
    show _ ∈ u.link.seen
    rw [hu]
    exact List.mem_append_right _ (List.mem_singleton_self _)
  have hvpath : (u.countedIn p f (frameRef f)).link.paths = x := by rw [hv]
  have hkept : (s.dataIn p f).link.paths = (u.countedIn p f (frameRef f)).link.paths ∧
      (u.countedIn p f (frameRef f)).link.seen ⊆ (s.dataIn p f).link.seen := by
    rw [State.dataIn_eq hr hf ho]
    split
    · exact State.broughtIn_kept ..
    · exact ⟨(State.framedIn_recovered ..).paths, (State.framedIn_recovered ..).seen⟩
  refine ⟨hkept.2 hvseen, ?_⟩
  rw [State.lpath, hkept.1, hvpath]
  exact hx.trans (by rw [hnoted.lpath])

/-- Each record of a data frame that is not late waits for its release time. -/
theorem State.dataIn_holds {x : Nat × List Byte} (hr : s.link.role = some false) (hf : f.type = 0) (hflag : f.fflags.getLsbD 5 = false)
    (ho : s.openFrame f = (u, some b)) (hoff : s.link.offset.isSome = true) (hx : x ∈ bodyRecs b) (hrel : Tab.find s.link.released x.1 = none) :
    s.recovering (frameRef f) x ∈ (s.dataIn p f).link.held := by
  have hnoted := State.openFrame_noted ho
  obtain ⟨_, _, _, hu⟩ := hnoted.link_eq
  obtain ⟨_, top, rep, hv, -⟩ := u.countedIn_eq p f (frameRef f)
  have hlink : (u.countedIn p f (frameRef f)).link.offset = s.link.offset ∧ (u.countedIn p f (frameRef f)).link.released = s.link.released := by
    rw [hv]
    show u.link.offset = _ ∧ u.link.released = _
    rw [hu]
    exact ⟨rfl, rfl⟩
  have hdoes : Does [.link, .rep] s (u.countedIn p f (frameRef f)) := (hnoted.does.weaken rfl).step (u.countedIn_does ..) rfl
  have hheld := State.bodyIn_holds (s := u.countedIn p f (frameRef f)) (ref := frameRef f) (by rw [hlink.1]; exact hoff) hx
    (by rw [hlink.2]; exact hrel)
  rw [State.recovering, now_of_tb hdoes.tb_eq, cfg_of_od hdoes.od_eq] at hheld
  rw [State.dataIn_eq hr (by rw [hf]; decide) ho, if_neg (by rw [hflag]; decide), State.framedIn, if_pos hf]
  exact (State.groupIn_recovered ..).held hheld

/-- A retransmission of a frame that has not come is remembered, and its NAKs end. -/
theorem State.dataIn_brings (hr : s.link.role = some false) (hf : f.type.toNat ≤ 1) (hflag : f.fflags.getLsbD 5 = true)
    (ho : s.openFrame f = (u, some b)) : let o := beNat (b.take 8)
    let n := s.link.origKey f.keyno o
    (n, o) ∉ s.link.seen → (n, o) ≠ (f.keyno, f.seq.toNat) →
      (n, o) ∈ (s.dataIn p f).link.seen ∧ (s.dataIn p f).link.naks = s.link.naks.filter fun e => !(e.keyno = n && e.seq = o) := by
  intro o n hseen hne
  obtain ⟨_, _, _, hu⟩ := (State.openFrame_noted ho).link_eq
  obtain ⟨_, top, rep, hv, -⟩ := u.countedIn_eq p f (frameRef f)
  have hnaks : (u.countedIn p f (frameRef f)).link.naks = s.link.naks := by
    rw [hv]
    show u.link.naks = _
    rw [hu]
  have hkey : (u.countedIn p f (frameRef f)).link.origKey f.keyno o = n := by rw [Link.origKey, hnaks]; rfl
  have hnew : (n, o) ∉ (u.countedIn p f (frameRef f)).link.seen := by
    rw [hv]
    show _ ∉ u.link.seen
    rw [hu]
    simp [hseen, hne]
  obtain ⟨hmem, hfilter⟩ := State.broughtIn_new (ref := frameRef f) hnew (b.drop 8)
  rw [State.dataIn_eq hr hf ho, if_pos hflag, hkey]
  exact ⟨hmem, hfilter.trans (by rw [hnaks])⟩

end Sys2Proof.Machine
end

section
/-! The pit releases records into its lanes (07 R146 to R148, 05 R101). -/

namespace Sys2Proof.Machine

variable {l : List Part} {s t u : State} {p q c n : Nat} {h : HeldRec}

/-! The overload level beside the assembly of segments (05 R111). -/

theorem State.closeSeg_level (s : State) : s.closeSeg.store.level = s.store.level := by
  unfold State.closeSeg
  split <;> rfl

theorem State.payFailover_level (s : State) : s.payFailover.store.level = s.store.level := by
  unfold State.payFailover
  split <;> rfl

theorem State.addBlock_level (s : State) (b : List Byte) : (s.addBlock b).store.level = s.store.level := by
  unfold State.addBlock
  extract_lets t u v
  have ht : t.store.level = s.store.level := by
    unfold t
    split
    · split
      · rfl
      · exact s.closeSeg_level
    · rfl
  have hu : u.store.level = s.store.level := t.payFailover_level.trans ht
  have hv : v.store.level = s.store.level := by
    unfold v
    split <;> exact hu
  split
  · exact v.closeSeg_level.trans hv
  · exact hv

theorem State.closeBlock_level (s : State) (n : Nat) : (s.closeBlock n).store.level = s.store.level := by
  unfold State.closeBlock
  split
  · rfl
  · refine (State.addBlock_level ..).trans ?_
    split <;> rfl

theorem State.wrapPoint_level (s : State) (n : Nat) : (s.wrapPoint n).store.level = s.store.level := by
  unfold State.wrapPoint
  split
  · rfl
  · exact (State.addBlock_level ..).trans (s.closeBlock_level n)

theorem State.reachWrap_level (s : State) (n : Nat) (x : Int) : (s.reachWrap n x).store.level = s.store.level := by
  unfold State.reachWrap
  extract_lets e y
  split
  · rfl
  · split
    · rfl
    · split
      · exact s.wrapPoint_level n
      · exact State.wrapPoint_level ..

/-- Whether overload stops a lane depends on the level and the settings alone. -/
theorem laneStopped_of_level (hl : t.store.level = s.store.level) (ho : t.od = s.od) (n : Nat) : t.laneStopped n = s.laneStopped n := by
  have hprio : t.lanePriority n = s.lanePriority n := by rw [State.lanePriority, State.lanePriority, cfg_of_od ho, portCfg_of_od ho]
  rw [State.laneStopped, State.laneStopped, hl, hprio]

/-! Releases (07 R146). -/

/-- The record under its rewritten TICK. -/
def State.retimed (s : State) (h : HeldRec) : List Byte := leBytes 6 (ofSigned 48 (h.count + s.link.offset.getD 0)) ++ h.bytes.drop 6

/-- The pit once a record has left those that are held. -/
def State.unheld (s : State) (h : HeldRec) : State :=
  { s with link := { s.link with held := s.link.held.erase h, released := s.link.released.set h.lane h.count } }

/-- A released record is stored, and taken by a live source. -/
def State.release (s : State) (h : HeldRec) : State :=
  let s3 := s.storeReleased h (s.retimed h)
  if s3.acting 1 && s3.cfg 0x2400 1 = 1 && recType h.bytes = 1 then s3.takeSource h.count h.bytes else s3

theorem State.releaseNext_eq (hh : firstRelease (s.link.held.filter fun h => laneFirst h.lane s.link.held = some h) = some h) :
    s.releaseNext = ((s.reach h.release).unheld h).release h := by
  rw [State.releaseNext, hh]
  rfl

theorem State.storeReleased_core (s : State) (h : HeldRec) (r : List Byte) : (s.storeReleased h r).link.core = s.link.core := by
  unfold State.storeReleased
  split
  · rfl
  · split
    · exact (s.ctlStore_does r).core_eq
    · split
      · extract_lets s1 link
        have h1 : s1.link.core = s.link.core := s.bump_core ..
        exact ite_core h1 ((State.logE_core ..).trans h1)
      · exact (State.stage_core ..).trans (s.reachWrap_does ..).core_eq

/-- A release leaves of the link what does not wait for its class. -/
theorem State.release_core (s : State) (h : HeldRec) : (s.release h).link.core = s.link.core :=
  ite_core ((State.takeSource_does ..).core_eq.trans (s.storeReleased_core ..)) (s.storeReleased_core ..)

theorem State.releaseNext_link (hh : firstRelease (s.link.held.filter fun h => laneFirst h.lane s.link.held = some h) = some h) :
    s.releaseNext.link.held = s.link.held.erase h ∧ Tab.find s.releaseNext.link.released h.lane = some h.count := by
  have hcore := ((s.reach h.release).unheld h).release_core h
  rw [← State.releaseNext_eq hh, State.unheld, s.reach_link] at hcore
  have hreleased : s.releaseNext.link.released = s.link.released.set h.lane h.count := (congrArg Link.released hcore :)
  exact ⟨(congrArg Link.held hcore :), by rw [hreleased, Tab.find_set_self]⟩

/-- A record of a lane that is not stopped becomes the last of the lane's open block. -/
theorem State.stage_foreign {r : List Byte} (hrec : s.recording = true) (hstop : n < 512 ∨ s.laneStopped n = false) (hr : recType r ≠ 4) :
    ∃ b, ((s.stage n r).lane n).block = some b ∧ b.recs.getLast? = some r := by
  unfold State.stage
  rw [if_neg (by
    rw [hrec]
    obtain hlow | hfree := hstop
    · simp [show ¬ 512 ≤ n by omega]
    · simp [hfree])]
  extract_lets s1 s2
  obtain ⟨b, hb, hlast⟩ := s1.laneAppend_last n hr
  have hs2 : s2 = s1.laneAppend n r := if_pos hrec
  refine ⟨b, ?_, hlast⟩
  rw [(s2.linkSelect_beside n r).lane, hs2]
  exact hb

theorem recType_retimed (s : State) (h : HeldRec) (hb : 8 ≤ h.bytes.length) : recType (s.retimed h) = recType h.bytes := by
  have hdrop : h.bytes.drop 6 ≠ [] := by
    rw [Ne, List.drop_eq_nil_iff]
    omega
  rw [recType, recType, State.retimed, List.getD_append_right _ _ _ _ (by simp [leBytes])]
  simp [leBytes, List.getD_eq_getElem?_getD]

/-- A record of a foreign lane that overload does not stop is the last of its lane's open block, under its rewritten TICK (07 R147, R148). -/
theorem State.release_lane (hrec : s.recording = true) (h0 : h.lane ≠ 0) (hown : s.ownLane h.lane = false) (hb : 8 ≤ h.bytes.length)
    (hr : recType h.bytes ≠ 4) (hstop : h.lane < 512 ∨ s.laneStopped h.lane = false) :
    ∃ b, ((s.release h).lane h.lane).block = some b ∧ b.recs.getLast? = some (s.retimed h) := by
  let v := s.reachWrap h.lane (h.count + s.link.offset.getD 0)
  have hdoes : Does [.store, .free] s v := s.reachWrap_does ..
  have hacting : s.acting 0 = true := (Bool.and_eq_true_iff.1 hrec).1
  have hstore : s.storeReleased h (s.retimed h) = v.stage h.lane (s.retimed h) := by
    rw [State.storeReleased, if_neg (by rw [hacting]; decide), if_neg h0, if_neg (by rw [hown]; decide)]
  obtain ⟨b, hblock, hlast⟩ := State.stage_foreign (s := v) (n := h.lane) (r := s.retimed h) ((recording_of_sess hdoes.sess_eq).trans hrec)
    (hstop.imp_right ((laneStopped_of_level (s.reachWrap_level ..) hdoes.od_eq _).trans ·)) ((recType_retimed s h hb).trans_ne hr)
  refine ⟨b, ?_, hlast⟩
  unfold State.release
  extract_lets s3
  rw [← hstore] at hblock
  split
  · rw [State.lane, (s3.takeSource_does ..).store_eq]
    exact hblock
  · exact hblock

theorem State.releaseNext_lane (hh : firstRelease (s.link.held.filter fun h => laneFirst h.lane s.link.held = some h) = some h)
    (hrec : s.recording = true) (h0 : h.lane ≠ 0) (hown : s.ownLane h.lane = false) (hb : 8 ≤ h.bytes.length)
    (hr : recType h.bytes ≠ 4) (hstop : h.lane < 512 ∨ s.laneStopped h.lane = false) :
    ∃ b, (s.releaseNext.lane h.lane).block = some b ∧ b.recs.getLast? = some (s.retimed h) := by
  obtain ⟨x, hx⟩ := s.reach_eq h.release
  rw [State.releaseNext_eq hh, hx]
  exact State.release_lane (s := ({ s with tb := x } : State).unheld h) hrec h0 hown hb hr hstop

end Sys2Proof.Machine
end

section
/-! The obligation of the link's paths and of the pit: each clause is one of the facts above. -/

namespace Sys2Proof.Machine

/-- Settles O49: paths by the facts about their events, reception by what the recovery of records keeps, a release by what its lane's block ends with. -/
theorem linkPathsAndReceiving : Obligations.LinkPathsAndReceiving := by
  unfold Obligations.LinkPathsAndReceiving
  refine ⟨fun s p => ⟨?report, ?reportIn, ?down, ?opens, ?arp⟩, fun s => ⟨?data, ?nak, ?release⟩⟩
  case report =>
    intro ks hr hk hi hp hn u b
    have hdue := s.reportDue_does p.val
    have hlink := hdue.link_eq
    have hpath : (s.reportDue p.val).lpath p.val = s.lpath p.val := lpath_of_link hlink _
    have hsend := State.sendReport_eq hr (by rw [hk]; rfl) hi hp
    have hnew := (s.reportDue p.val).reportNow_path p.val
    obtain ⟨hseq, hout⟩ := State.reportNow_sent (s := s.reportDue p.val) (p := p.val) (by rw [hlink, hr]) (by rw [hlink, hk]) (by rw [hpath, hn])
    rw [← hsend] at hnew hseq hout
    rw [hpath] at hnew hout
    rw [hlink] at hseq hout
    rw [hdue.out_eq] at hout
    exact ⟨_, rfl, hsend ▸ ((hdue.weaken rfl).step (State.reportNow_does ..) rfl).same, hnew, hseq, hout⟩
  case reportIn =>
    intro f u b hhears hr hf ho hlen hb hone r
    obtain ⟨hup, hlast⟩ := State.reportIn_path hr hf ho hlen p.isLt hb
    exact ⟨s.reportIn p.val f, congrArg Host.Outcome.next (State.received_heard hhears _), hup, hlast, State.reportIn_rate hr hf ho hlen p.isLt hb hone⟩
  case down =>
    intro a hr hu ha
    obtain ⟨htb, hsame, hother⟩ := State.pathDown_path hr hu ha
    exact ⟨_, rfl, htb, hsame, hother⟩
  case opens => exact fun h => congrArg Host.Outcome.next (State.pathOpens_eq h)
  case arp =>
    intro m a hu hs he hm
    have hp : p.val ∈ s.macPaths m.val := State.mem_macPaths p.isLt he hm
    refine ⟨fun ha => ?_, fun ha => ?_⟩
    · subst ha
      exact congrArg Host.Outcome.next (State.arpIn_request hu hs hp)
    · subst ha
      obtain ⟨hpath, hsame⟩ := State.arpIn_reply hu hs hp
      exact ⟨_, rfl, hsame, hpath⟩
  case data =>
    intro p f u hhears hr hf
    have hexec : exec (.linkDataFrameReceived p f) s = .next (s.dataIn p.val f) := congrArg Host.Outcome.next (State.received_heard hhears _)
    refine ⟨fun ho => hexec.trans (by rw [State.dataIn_seen hr hf ho]), fun b ho => ?_⟩
    obtain ⟨hseen, hcount⟩ := State.dataIn_taken (p := p.val) hr hf ho
    refine ⟨_, hexec, hseen, hcount, fun htype hflag hoff k hk r hrec hrel => ?_, fun hflag => State.dataIn_brings hr hf hflag ho⟩
    exact State.dataIn_holds (x := (blockLane k, r)) hr htype hflag ho hoff (List.mem_flatMap.2 ⟨k, hk, List.mem_map_of_mem hrec⟩) hrel
  case nak =>
    intro k q p hr hkeys hi hseen hlost hp hnak hn
    obtain ⟨hmem, hseq, hout⟩ := State.nakOut_sent (m := ⟨k, q.toNat, s.now, s.now⟩) hkeys hp
    obtain ⟨d, hd⟩ := hout hn
    have hsend := State.sendNak_first hr hkeys hi hseen hlost hnak
    exact ⟨_, d, congrArg Host.Outcome.next hsend, (s.nakOut_does _).same, hmem, hseq, hd⟩
  case release =>
    intro h hr hi hh
    obtain ⟨hheld, hreleased⟩ := State.releaseNext_link hh
    have hexec : exec .recordRelease s = .next s.releaseNext := congrArg Host.Outcome.next (if_pos (by rw [hi]; simp [hr]))
    exact ⟨_, hexec, hheld, hreleased, fun hrec h0 hown hb htype hstop => State.releaseNext_lane hh hrec h0 hown hb htype hstop⟩

end Sys2Proof.Machine
end

section
/-! What sending over the fabric keeps (16 R342 to R345, R352, R360): the state of every link, and what the device knows of the fabric. -/

namespace Sys2Proof.Machine

variable {l : List Part} {s t u : State} {k j n : Nat} {f : Flit} {x y : FabPort}

/-! Ports beside the flits they send. -/

/-- A port without its buffers, its credits and the times of its log entries. -/
def FabPort.core (x : FabPort) : FabPort :=
  { x with txSeq := 0, unacked := [], credits := [], owed := [], space := [], txq := [], trainLogAt := none, violLogAt := none }

theorem FabPort.st_of_core (h : y.core = x.core) : y.st = x.st := (congrArg FabPort.st h :)

theorem FabPort.isUp_of_core (h : y.core = x.core) : y.isUp = x.isUp := by rw [FabPort.isUp, FabPort.isUp, FabPort.st_of_core h]

/-- What a device knows of the fabric: all but its ports and its queue of exports. -/
def Fabric.rest (f : Fabric) : Fabric := { f with ports := [], exports := [] }

/-- Ports may have sent: their links are as before, and one that is not up has sent nothing that it keeps. -/
structure State.Relayed (s t : State) : Prop where
  core : ∀ j, (t.fport j).core = (s.fport j).core
  unacked : ∀ j, (s.fport j).isUp = false → (t.fport j).unacked = (s.fport j).unacked

theorem State.Relayed.refl (s : State) : s.Relayed s := ⟨fun _ => rfl, fun _ _ => rfl⟩

theorem State.Relayed.trans (h : s.Relayed t) (h' : t.Relayed u) : s.Relayed u where
  core j := (h'.core j).trans (h.core j)
  unacked j hj := (h'.unacked j ((FabPort.isUp_of_core (h.core j)).trans hj)).trans (h.unacked j hj)

theorem State.Relayed.of_fport (h : ∀ j, t.fport j = s.fport j) : s.Relayed t :=
  ⟨fun j => congrArg FabPort.core (h j), fun j _ => congrArg FabPort.unacked (h j)⟩

theorem State.Relayed.fold {α : Type} {f : State → α → State} (hf : ∀ (t : State) a, t.Relayed (f t a)) (xs : List α) (s : State) :
    s.Relayed (xs.foldl f s) := by
  induction xs generalizing s with
  | nil => exact .refl s
  | cons a xs ih => exact (hf s a).trans (ih (f s a))

theorem fport_of_fab (h : t.fab = s.fab) (j : Nat) : t.fport j = s.fport j := by rw [State.fport, h]; rfl

theorem Does.relayed (h : Does l s t) (hl : l.contains .fab = false := by rfl) : s.Relayed t := .of_fport (fport_of_fab (h.fab_eq hl))

/-- A port that keeps its link's state, and what it has sent unless it is up. -/
theorem State.setFport_relayed (hc : y.core = (s.fport k).core) (hu : (s.fport k).isUp = false → y.unacked = (s.fport k).unacked) :
    s.Relayed (s.setFport k y) where
  core j := by
    by_cases hj : j = k
    · rw [hj, State.fport_setFport, hc]
    · rw [State.fport_setFport_ne _ _ hj]
  unacked j h := by
    by_cases hj : j = k
    · rw [hj, State.fport_setFport]
      exact hu (hj ▸ h)
    · rw [State.fport_setFport_ne _ _ hj]

/-- Ports may have sent, and the device knows of the fabric what it knew before. -/
structure State.Sent (s t : State) : Prop extends s.Relayed t where
  rest : t.fab.rest = s.fab.rest

theorem State.Sent.refl (s : State) : s.Sent s := ⟨.refl s, rfl⟩

theorem State.Sent.trans (h : s.Sent t) (h' : t.Sent u) : s.Sent u := ⟨h.toRelayed.trans h'.toRelayed, h'.rest.trans h.rest⟩

theorem State.Sent.fold {α : Type} {f : State → α → State} (hf : ∀ (t : State) a, t.Sent (f t a)) (xs : List α) (s : State) :
    s.Sent (xs.foldl f s) := by
  induction xs generalizing s with
  | nil => exact .refl s
  | cons a xs ih => exact (hf s a).trans (ih (f s a))

theorem State.setFport_sent (hc : y.core = (s.fport k).core) (hu : (s.fport k).isUp = false → y.unacked = (s.fport k).unacked) :
    s.Sent (s.setFport k y) := ⟨State.setFport_relayed hc hu, rfl⟩

/-! Sending. -/

/-- Credits that are given back change only what is owed and what the partner may send. -/
theorem FabPort.giveBack_eq (x : FabPort) : ∃ owed space, x.giveBack.2.2 = { x with owed := owed, space := space } := by
  unfold FabPort.giveBack
  split <;> exact ⟨_, _, rfl⟩

/-- The flit as it leaves a port, with its ACK and the credits it gives back. -/
def State.onWire (s : State) (k : Nat) (f : Flit) : Flit :=
  { f with ack := (s.fport k).rxNext - 1, cvc := (s.fport k).giveBack.1, ccnt := (s.fport k).giveBack.2.1 }

theorem State.emitFlit_eq (s : State) (k : Nat) (f : Flit) : ∃ owed space, s.emitFlit k f =
    (s.setFport k { s.fport k with owed := owed, space := space }).send (.flit k (s.onWire k f) (flitBytes (s.onWire k f))) := by
  obtain ⟨owed, space, h⟩ := (s.fport k).giveBack_eq
  exact ⟨owed, space, congrArg (fun y => (s.setFport k y).send (.flit k (s.onWire k f) (flitBytes (s.onWire k f)))) h⟩

theorem State.emitFlit_sent (s : State) (k : Nat) (f : Flit) : s.Sent (s.emitFlit k f) := by
  obtain ⟨owed, space, h⟩ := s.emitFlit_eq k f
  have hset : s.Sent (s.setFport k { s.fport k with owed := owed, space := space }) := State.setFport_sent rfl fun _ => rfl
  rw [h]
  exact ⟨hset.toRelayed.trans (State.send_does ..).relayed, rfl⟩

/-- What a flit that leaves changes of its port. -/
theorem State.emitFlit_fport (s : State) (k : Nat) (f : Flit) : ∃ owed space, (s.emitFlit k f).fport k = { s.fport k with owed := owed, space := space } := by
  obtain ⟨owed, space, h⟩ := s.emitFlit_eq k f
  rw [h]
  exact ⟨owed, space, State.fport_setFport ..⟩

theorem State.emitFlit_fport_ne (s : State) (f : Flit) (h : j ≠ k) : (s.emitFlit k f).fport j = s.fport j := by
  obtain ⟨owed, space, he⟩ := s.emitFlit_eq k f
  rw [he]
  exact s.fport_setFport_ne _ h

theorem State.emitFlit_out (s : State) (k : Nat) (f : Flit) : (s.emitFlit k f).out = s.out ++ [.flit k (s.onWire k f) (flitBytes (s.onWire k f))] := rfl

/-- A port that launches a flit: the next SEQ is taken, and the replay buffer holds the flit. -/
def FabPort.launched (x : FabPort) (f : Flit) : FabPort :=
  { x with txSeq := x.txSeq + 1, unacked := x.unacked ++ [⟨{ f with seq := x.txSeq }, 1⟩],
           credits := x.credits.set f.vc.toNat (Tab.get 64 x.credits f.vc.toNat - 1) }

theorem State.launch_eq (s : State) (k : Nat) (f : Flit) :
    s.launch k f = (s.setFport k ((s.fport k).launched f)).emitFlit k { f with seq := (s.fport k).txSeq } := rfl

theorem State.launch_fport (s : State) (k : Nat) (f : Flit) :
    ∃ owed space, (s.launch k f).fport k = { (s.fport k).launched f with owed := owed, space := space } := by
  obtain ⟨owed, space, h⟩ := (s.setFport k ((s.fport k).launched f)).emitFlit_fport k { f with seq := (s.fport k).txSeq }
  rw [State.launch_eq, h, State.fport_setFport]
  exact ⟨owed, space, rfl⟩

theorem State.launch_fport_ne (s : State) (f : Flit) (h : j ≠ k) : (s.launch k f).fport j = s.fport j := by
  rw [State.launch_eq, State.emitFlit_fport_ne _ _ h, State.fport_setFport_ne _ _ h]

theorem State.launch_core (s : State) (k j : Nat) (f : Flit) : ((s.launch k f).fport j).core = (s.fport j).core := by
  by_cases hj : j = k
  · obtain ⟨owed, space, h⟩ := s.launch_fport k f
    rw [hj, h]
    rfl
  · rw [State.launch_fport_ne _ _ hj]

theorem State.launch_sent (h : (s.fport k).isUp = true) (f : Flit) : s.Sent (s.launch k f) := by
  have hset : s.Sent (s.setFport k ((s.fport k).launched f)) := State.setFport_sent rfl fun hd => absurd (hd.symm.trans h) (by decide)
  exact hset.trans (State.emitFlit_sent ..)

theorem State.freeBuffer_sent (s : State) (k v : Nat) : s.Sent (s.freeBuffer k v) := State.setFport_sent rfl fun _ => rfl

/-- A flit that leaves may free the receive buffer that it filled. -/
def State.freed (s : State) (from_ : Option Nat) (v : Nat) : State :=
  match from_ with
  | some j => s.freeBuffer j v
  | none => s

theorem State.freed_sent (s : State) (from_ : Option Nat) (v : Nat) : s.Sent (s.freed from_ v) := by
  unfold State.freed
  split
  · exact s.freeBuffer_sent ..
  · exact .refl s

theorem State.sendFrom_eq (s : State) (from_ : Option Nat) (k : Nat) (f : Flit) : s.sendFrom from_ k f =
    if (s.fport k).isUp then
      if ((s.fport k).txq.all fun q => q.1.vc != f.vc) && (s.fport k).maySend f then (s.freed from_ f.vc.toNat).launch k f
      else s.setFport k { s.fport k with txq := (s.fport k).txq ++ [(f, from_)] }
    else s.freed from_ f.vc.toNat := rfl

theorem State.sendFrom_sent (s : State) (from_ : Option Nat) (k : Nat) (f : Flit) : s.Sent (s.sendFrom from_ k f) := by
  have hfree := s.freed_sent from_ f.vc.toNat
  rw [State.sendFrom_eq]
  split
  · next hup =>
    split
    · exact hfree.trans (State.launch_sent ((FabPort.isUp_of_core (hfree.core k)).trans hup) f)
    · exact State.setFport_sent rfl fun _ => rfl
  · exact hfree

theorem State.sendSeq_sent (s : State) (k : Nat) (f : Flit) : s.Sent (s.sendSeq k f) := s.sendFrom_sent none k f

/-- Sending on a port leaves the others as they are. -/
theorem State.sendSeq_fport_ne (s : State) (f : Flit) (h : j ≠ k) : (s.sendSeq k f).fport j = s.fport j := by
  rw [State.sendSeq, State.sendFrom_eq]
  split
  · split
    · exact s.launch_fport_ne f h
    · exact s.fport_setFport_ne _ h
  · rfl

/-- A flit leaves at once where a credit and the replay buffer let it. -/
theorem State.sendSeq_free (hu : (s.fport k).isUp = true) (hq : (s.fport k).txq = []) (hm : (s.fport k).maySend f = true) : s.sendSeq k f = s.launch k f := by
  rw [State.sendSeq, State.sendFrom_eq, if_pos hu, if_pos (by simp [hq, hm])]
  rfl

/-- Nothing that waits, nothing to flush. -/
theorem State.flushTx_nil (h : (s.fport k).txq = []) : s.flushTx k n = s := by
  cases n with
  | zero => rfl
  | succ n => rw [State.flushTx, h]; rfl

theorem State.sendTo_sent (s : State) (node : Nat) (fs : List Flit) : s.Sent (s.sendTo node fs).1 := by
  unfold State.sendTo
  split
  · exact .refl s
  · exact .fold (fun t f => t.sendSeq_sent ..) fs s

theorem State.flood_sent (s : State) (but : Option Nat) (fs : List Flit) : s.Sent (s.flood but fs) :=
  .fold (fun t k => .fold (fun u f => u.sendSeq_sent k f) fs t) _ s

theorem State.floodOwn_sent (s : State) (fs : List Flit) : s.Sent (s.floodOwn fs) := s.flood_sent ..

theorem State.floodOn_sent (s : State) (k : Nat) (fs : List Flit) : s.Sent (s.floodOn k fs) := by
  unfold State.floodOn
  split
  · exact s.flood_sent ..
  · exact .refl s

/-- The queue of exports alone. -/
def State.withExports (s : State) (x : List (List Flit)) : State := { s with fab := { s.fab with exports := x } }

theorem State.withExports_sent (s : State) (x : List (List Flit)) : s.Sent (s.withExports x) := ⟨.of_fport fun _ => rfl, rfl⟩

theorem State.drainExports_sent (s : State) : s.Sent s.drainExports := by
  refine (s.withExports_sent []).trans (.fold (fun t m => ?_) _ _)
  split
  · exact .refl t
  · split
    · exact t.sendTo_sent ..
    · exact t.withExports_sent _

theorem State.drainExports_nil (h : s.fab.exports = []) : s.drainExports = s := by
  rw [State.drainExports, h]
  exact congrArg (fun x => s.withExports x) h.symm

theorem State.idleAfter_sent (s : State) (k n : Nat) : s.Sent (s.idleAfter k n) := by
  unfold State.idleAfter
  split
  · exact s.emitFlit_sent ..
  · exact .refl s

end Sys2Proof.Machine
end

section
/-! Links that train, come up and go down (16 R340, R341, R351, R352): what a change of the device's own links keeps. -/

namespace Sys2Proof.Machine

variable {l : List Part} {s t u : State} {k j n : Nat} {f : Flit} {x y : FabPort}

theorem State.Sent.db (h : s.Sent t) : t.fab.db = s.fab.db := (congrArg Fabric.db h.rest :)

theorem advertOf_of_db (h : t.fab.db = s.fab.db) (v : BitVec 64) : t.advertOf v = s.advertOf v := by rw [State.advertOf, h]; rfl

/-! The device's own advert, and alternates (16 R351, R352). -/

/-- Ports may have sent, and of the database only this device's own advert may have changed. -/
structure State.Relinked (s t : State) : Prop extends s.Relayed t where
  adverts : ∀ v, v ≠ Config.uid → t.advertOf v = s.advertOf v

theorem State.Relinked.refl (s : State) : s.Relinked s := ⟨.refl s, fun _ _ => rfl⟩

theorem State.Relinked.trans (h : s.Relinked t) (h' : t.Relinked u) : s.Relinked u :=
  ⟨h.toRelayed.trans h'.toRelayed, fun v hv => (h'.adverts v hv).trans (h.adverts v hv)⟩

theorem State.Relinked.fold {α : Type} {f : State → α → State} (hf : ∀ (t : State) a, t.Relinked (f t a)) (xs : List α) (s : State) :
    s.Relinked (xs.foldl f s) := by
  induction xs generalizing s with
  | nil => exact .refl s
  | cons a xs ih => exact (hf s a).trans (ih (f s a))

theorem State.Sent.relinked (h : s.Sent t) : s.Relinked t := ⟨h.toRelayed, fun v _ => advertOf_of_db h.db v⟩

/-- What keeps the ports and the database. -/
theorem State.Relinked.of_fab (hp : t.fab.ports = s.fab.ports) (hd : t.fab.db = s.fab.db) : s.Relinked t :=
  ⟨.of_fport fun j => by rw [State.fport, hp]; rfl, fun v _ => advertOf_of_db hd v⟩

theorem Does.relinked (h : Does l s t) (hl : l.contains .fab = false := by rfl) : s.Relinked t :=
  .of_fab (congrArg Fabric.ports (h.fab_eq hl)) (congrArg Fabric.db (h.fab_eq hl))

theorem State.reroute_sent (s : State) (q : Flit × Option Nat) : s.Sent (s.reroute q) := by
  have hfree := s.freed_sent q.2 q.1.vc.toNat
  have hdef : s.reroute q = if q.1.type.toNat < 5 then s.freed q.2 q.1.vc.toNat
      else match s.routePort q.1.type.toNat q.1.dst.toNat with
        | some k => s.sendFrom q.2 k q.1
        | none => s.freed q.2 q.1.vc.toNat := rfl
  rw [hdef]
  split
  · exact hfree
  · split
    · exact s.sendFrom_sent ..
    · exact hfree

theorem State.failLinks_relinked (s before : State) : s.Relinked (s.failLinks before) := by
  unfold State.failLinks
  refine (State.Relinked.fold (fun t k => ?_) _ s).trans (.fold (fun t k => (State.Sent.fold (fun u q => u.reroute_sent q) _ t).relinked) _ _)
  exact .of_fab rfl rfl

/-- An election changes the master and what could displace it. -/
theorem State.setMaster_eq (s : State) (m : Option (BitVec 64)) :
    ∃ joined hops, s.setMaster m = { s with fab := { s.fab with master := m, joined := joined, hops := hops } } := by
  unfold State.setMaster
  split
  · next h => exact ⟨s.fab.joined, s.fab.hops, by rw [← h]⟩
  · exact ⟨_, _, rfl⟩

theorem State.elect_eq (s : State) : ∃ master better joined hops,
    s.elect = { s with fab := { s.fab with master := master, better := better, joined := joined, hops := hops } } := by
  unfold State.elect
  extract_lets best present s1
  split
  · exact ⟨s.fab.master, _, s.fab.joined, s.fab.hops, rfl⟩
  · obtain ⟨joined, hops, h⟩ := s.setMaster_eq best
    exact ⟨_, _, _, _, congrArg (fun v : State => { v with fab := { v.fab with better := none } }) h⟩

theorem State.elect_relinked (s : State) : s.Relinked s.elect := by
  obtain ⟨_, _, _, _, h⟩ := s.elect_eq
  rw [h]
  exact .of_fab rfl rfl

/-- An advert in the database replaces its device's older one alone. -/
theorem State.keepAdvert_other (s : State) (a : Advert) {v : BitVec 64} (hv : v ≠ a.uid) : (s.keepAdvert a).advertOf v = s.advertOf v := by
  show (s.fab.db.filter (·.uid != a.uid) ++ [a]).find? (·.uid = v) = s.fab.db.find? (·.uid = v)
  have hlast : [a].find? (fun b => decide (b.uid = v)) = none := by simp [hv.symm]
  rw [List.find?_append, hlast, Option.or_none, List.find?_filter]
  congr 1
  funext b
  by_cases hb : b.uid = v
  · simp [hb, hv]
  · simp [hb]

theorem State.keepAdvert_self (s : State) (a : Advert) : (s.keepAdvert a).advertOf a.uid = some a := by
  show (s.fab.db.filter (·.uid != a.uid) ++ [a]).find? (·.uid = a.uid) = some a
  rw [List.find?_append, List.find?_eq_none.2 (by simp)]
  simp

/-- This device, about to flood its advert with the next generation. -/
def State.advertising (s : State) : State :=
  let s1 : State := { s with fab := { s.fab with gen := s.fab.gen + 1 } }
  (s1.keepAdvert s1.ownAdvert).elect

theorem State.advertise_sent (s : State) : s.advertising.Sent s.advertise := State.floodOwn_sent ..

theorem State.advertise_gen (s : State) : s.advertise.fab.gen = s.fab.gen + 1 := by
  have hgen : s.advertise.fab.gen = s.advertising.fab.gen := (congrArg Fabric.gen s.advertise_sent.rest :)
  obtain ⟨_, _, _, _, h⟩ := (({ s with fab := { s.fab with gen := s.fab.gen + 1 } } : State).keepAdvert
    ({ s with fab := { s.fab with gen := s.fab.gen + 1 } } : State).ownAdvert).elect_eq
  rw [hgen, State.advertising, h]
  rfl

theorem State.advertise_relinked (s : State) : s.Relinked s.advertise := by
  let v : State := { s with fab := { s.fab with gen := s.fab.gen + 1 } }
  have hown : v.Relinked (v.keepAdvert v.ownAdvert) := ⟨.of_fport fun _ => rfl, fun w hw => v.keepAdvert_other _ hw⟩
  have hgen : s.Relinked v := .of_fab rfl rfl
  exact ((hgen.trans hown).trans (State.elect_relinked _)).trans s.advertise_sent.relinked

theorem State.linkChange_relinked (s before : State) : s.Relinked (s.linkChange before) := by
  unfold State.linkChange
  split
  · exact .refl s
  · exact (s.failLinks_relinked before).trans (State.advertise_relinked _)

/-! Training and loss (16 R340, R341). -/

theorem State.logTrain_core (s : State) (k j : Nat) : ((s.logTrain k).fport j).core = (s.fport j).core := by
  unfold State.logTrain
  extract_lets x
  split
  · have hlog (v : State) (i a : Nat) : (v.logE 1 1 i 1 a).fport j = v.fport j := fport_of_fab (v.logE_does ..).fab_eq j
    have hset : s.Relayed (s.setFport k { s.fport k with trainLogAt := some s.now }) := State.setFport_relayed rfl fun _ => rfl
    rw [hlog]
    exact hset.core j
  · rfl

/-- A port that trains is in state 2, and awaits the partner's HELLO. -/
theorem State.train_port (s : State) (k : Nat) (one : Bool) : ((s.train k one).fport k).core = ((s.fport k).fresh 2 one).core := by
  let v := (s.setFport k ((s.fport k).fresh 2 one)).logTrain k
  have hv : (v.fport k).core = ((s.fport k).fresh 2 one).core := by
    rw [State.logTrain_core, State.fport_setFport]
  exact (State.launch_core ..).trans (((v.linkChange_relinked s).core k).trans hv)

/-- A link that has gone down keeps nothing of what it sent. -/
theorem State.linkLost_port (s : State) (k : Nat) : ((s.linkLost k).fport k).st = 1 ∧ ((s.linkLost k).fport k).unacked = [] := by
  let v := (s.setFport k ((s.fport k).fresh 1 false)).logE 1 1 (0x2710 + k) 1 1
  have hv : v.fport k = (s.fport k).fresh 1 false := (fport_of_fab (State.logE_does ..).fab_eq k).trans (State.fport_setFport ..)
  have hlink := v.linkChange_relinked s
  refine ⟨(FabPort.st_of_core (hlink.core k)).trans (by rw [hv]; rfl), (hlink.unacked k (by rw [hv]; rfl)).trans (by rw [hv]; rfl)⟩

/-! A link that comes up (16 R340). -/

theorem State.tryUp_other (h : (s.fport k).st ≠ 2) : s.tryUp k = s := by
  rw [State.tryUp, if_neg (by simp [h])]

theorem State.tryUp_up (h : (s.fport k).isUp = true) : s.tryUp k = s :=
  State.tryUp_other fun h2 => by simp [FabPort.isUp, h2] at h

/-- The state of a link that comes up. -/
def FabPort.upSt (x : FabPort) : Fin 7 := if x.oneLane then 4 else 3

def State.upNow (s : State) (k : Nat) : State := ((s.setFport k { s.fport k with st := (s.fport k).upSt }).logE 1 1 (0x2710 + k) 1 (s.fport k).upSt.val)

theorem State.tryUp_eq (s : State) (k : Nat) :
    s.tryUp k = if (s.fport k).st = 2 && (s.fport k).helloSeen && (s.fport k).unacked.isEmpty then (s.upNow k).linkChange s else s := by
  have hval : (s.fport k).upSt.val = if (s.fport k).oneLane then 4 else 3 := by
    unfold FabPort.upSt
    split <;> rfl
  rw [State.upNow, hval]
  rfl

theorem State.upNow_fport (s : State) (k : Nat) : (s.upNow k).fport k = { s.fport k with st := (s.fport k).upSt } :=
  (fport_of_fab (State.logE_does ..).fab_eq k).trans (State.fport_setFport ..)

/-- Of the port whose link may come up only the state may change, beside what it sends. -/
theorem State.tryUp_port (s : State) (k : Nat) : ∃ st, ((s.tryUp k).fport k).core = { (s.fport k).core with st := st } := by
  rw [State.tryUp_eq]
  split
  · exact ⟨(s.fport k).upSt, (((s.upNow k).linkChange_relinked s).core k).trans (by rw [s.upNow_fport]; rfl)⟩
  · exact ⟨(s.fport k).st, rfl⟩

/-- The link comes up once each side has a valid HELLO of the other. -/
theorem State.tryUp_comes (hst : (s.fport k).st = 2) (hh : (s.fport k).helloSeen = true) (hu : (s.fport k).unacked = []) :
    ((s.tryUp k).fport k).st = (s.fport k).upSt := by
  rw [State.tryUp_eq, if_pos (by simp [hst, hh, hu])]
  exact (FabPort.st_of_core (((s.upNow k).linkChange_relinked s).core k)).trans (by rw [s.upNow_fport])

theorem State.tryUp_adverts (s : State) (k : Nat) {v : BitVec 64} (hv : v ≠ Config.uid) : (s.tryUp k).advertOf v = s.advertOf v := by
  rw [State.tryUp_eq]
  split
  · have hfab : (s.upNow k).fab = (s.setFport k { s.fport k with st := (s.fport k).upSt }).fab := (State.logE_does ..).fab_eq
    exact (((s.upNow k).linkChange_relinked s).adverts v hv).trans (advertOf_of_db (congrArg Fabric.db hfab :) v)
  · rfl

/-- Settings other than the counters of losses stay when a link comes up. -/
theorem State.tryUp_upstream (s : State) (k : Nat) : Upstream s (s.tryUp k) := by
  rw [State.tryUp_eq]
  split
  · have hset : Upstream s (s.setFport k { s.fport k with st := (s.fport k).upSt }) := (State.setFport_does ..).upstream
    exact (hset.trans (State.logE_upstream ..)).trans (State.linkChange_does ..).upstream
  · exact .refl s

end Sys2Proof.Machine
end

section
/-! Flits that arrive, and flits that are sent again (16 R342 to R347): what a port makes of them. -/

namespace Sys2Proof.Machine

variable {l : List Part} {s t u : State} {k j n : Nat} {f : Flit} {x y : FabPort} {type : BitVec 4} {want : Nat → Bool} {act : State → State}

/-! A flit that is taken (16 R344, R346). -/

/-- A port hears a flit of a type and finds no violation in it, and nothing of its own waits for a credit. -/
structure State.Takes (s : State) (k : Nat) (f : Flit) (type : BitVec 4) : Prop where
  hears : s.fabHears k = true
  type : f.type = type
  valid : s.violation k f = none
  idle : (s.fport k).txq = []

theorem State.takes_of_flitTaken (h : s.flitTaken k f type = true) : s.Takes k f type := by
  simp only [State.flitTaken, Bool.and_eq_true, decide_eq_true_eq, Option.isNone_iff_eq_none, List.isEmpty_iff] at h
  obtain ⟨⟨⟨hhears, htype⟩, hvalid⟩, hidle⟩ := h
  exact ⟨hhears, htype, hvalid, hidle⟩

theorem State.takes_of_flitNext (h : s.flitNext k f type = true) :
    s.Takes k f type ∧ serial 8 (s.fport k).rxNext.toNat f.seq.toNat = .equal := by
  rw [State.flitNext, Bool.and_eq_true, decide_eq_true_eq] at h
  exact ⟨State.takes_of_flitTaken h.1, h.2⟩

/-- The port once the ACK and the credits of a flit have been taken. -/
def FabPort.acked (x : FabPort) (f : Flit) : FabPort :=
  { x with unacked := x.unacked.drop ((x.ackCount f.ack).getD 0)
           credits := if f.cvc = 3 then x.credits else x.credits.set f.cvc.toNat (Tab.get 64 x.credits f.cvc.toNat + f.ccnt.toNat) }

def State.acked (s : State) (k : Nat) (f : Flit) : State := s.setFport k ((s.fport k).acked f)

/-- The device once the ACK of a flit has been taken, and what waits to be exported has moved on. -/
def State.flitIn (s : State) (k : Nat) (f : Flit) : State := (s.acked k f).drainExports

theorem State.Takes.takeAck (h : s.Takes k f type) : s.takeAck k f (((s.fport k).ackCount f.ack).getD 0) = s.flitIn k f := by
  have hdef : s.takeAck k f (((s.fport k).ackCount f.ack).getD 0) = ((s.acked k f).flushTx k 64).drainExports := rfl
  have hidle : ((s.acked k f).fport k).txq = [] := by
    rw [State.acked, State.fport_setFport]
    exact h.idle
  rw [hdef, State.flushTx_nil hidle, State.flitIn]

theorem State.acked_core (s : State) (k j : Nat) (f : Flit) : ((s.acked k f).fport j).core = (s.fport j).core := by
  by_cases hj : j = k
  · rw [hj, State.acked, State.fport_setFport]
    rfl
  · rw [State.acked, State.fport_setFport_ne _ _ hj]

theorem State.flitIn_sent (s : State) (k : Nat) (f : Flit) : (s.acked k f).Sent (s.flitIn k f) := State.drainExports_sent _

theorem State.flitIn_core (s : State) (k j : Nat) (f : Flit) : ((s.flitIn k f).fport j).core = (s.fport j).core :=
  ((s.flitIn_sent k f).core j).trans (s.acked_core ..)

theorem State.flitIn_rest (s : State) (k : Nat) (f : Flit) : (s.flitIn k f).fab.rest = s.fab.rest := (s.flitIn_sent k f).rest

theorem State.flitIn_does (s : State) (k : Nat) (f : Flit) : Does [.fab, .out] s (s.flitIn k f) :=
  ((s.setFport_does ..).weaken rfl).step (State.drainExports_does _) rfl

theorem State.flitIn_nil (h : s.fab.exports = []) : s.flitIn k f = s.acked k f := State.drainExports_nil h

/-- An accepted flit that is not sequenced. -/
theorem State.Takes.rx (h : s.Takes k f type) (hw : want type.toNat = true) (hs : seqFlit f = false) :
    s.rx k want f act = ((act (s.flitIn k f)).tryUp k, true) := by
  rw [State.rx, if_pos (by rw [h.hears, h.type, hw]; rfl), h.valid]
  simp only [h.takeAck, hs]
  rfl

/-- An accepted flit that is the next one of its sequence. -/
theorem State.Takes.rx_next (h : s.Takes k f type) (hw : want type.toNat = true) (hs : seqFlit f = true)
    (hq : serial 8 (s.fport k).rxNext.toNat f.seq.toNat = .equal) :
    ∃ n, s.rx k want f act = (((act ((s.flitIn k f).acceptSeq k f)).tryUp k).idleAfter k n, true) := by
  have hnext : ((s.flitIn k f).fport k).rxNext = (s.fport k).rxNext := (congrArg FabPort.rxNext (s.flitIn_core k k f) :)
  rw [State.rx, if_pos (by rw [h.hears, h.type, hw]; rfl), h.valid]
  simp only [h.takeAck, hs, if_true, hnext, hq]
  exact ⟨_, rfl⟩

/-- The device once a sequenced flit has been accepted. -/
def State.accepted (s : State) (k : Nat) (f : Flit) : State := (s.flitIn k f).acceptSeq k f

theorem State.accepted_does (s : State) (k : Nat) (f : Flit) : Does [.fab, .out] s (s.accepted k f) := (s.flitIn_does k f).step (State.acceptSeq_does ..) rfl

theorem State.accepted_rest (s : State) (k : Nat) (f : Flit) : (s.accepted k f).fab.rest = s.fab.rest := s.flitIn_rest k f

theorem State.accepted_st (s : State) (k j : Nat) (f : Flit) : ((s.accepted k f).fport j).st = (s.fport j).st := by
  have htaken := FabPort.st_of_core (s.flitIn_core k j f)
  by_cases hj : j = k
  · rw [hj] at htaken ⊢
    exact (congrArg FabPort.st (State.fport_setFport ..)).trans htaken
  · exact (congrArg FabPort.st (State.fport_setFport_ne _ _ hj)).trans htaken

/-! HELLO of the own UID (16 R341). -/

theorem State.fabHelloIn_own (h : BitVec.ofNat 64 (leNat (slice (usedBytes f) 0 8)) = Config.uid) : ((s.fabHelloIn k f).fport k).st = 6 := by
  unfold State.fabHelloIn
  extract_lets b uid flags x
  rw [if_pos h]
  refine (FabPort.st_of_core ((State.linkChange_relinked _ s).core k)).trans ?_
  rw [fport_of_fab (State.logE_does ..).fab_eq, State.fport_setFport]
  rfl

/-! Flits sent again (16 R345). -/

theorem State.emitFlit_unacked (s : State) (k : Nat) (f : Flit) : ((s.emitFlit k f).fport k).unacked = (s.fport k).unacked := by
  obtain ⟨_, _, h⟩ := s.emitFlit_fport k f
  rw [h]

/-- A retry counts itself, where no flit has been sent 16 times. -/
theorem State.resend_counted (hn : n < (s.fport k).unacked.length) (hs : ∀ u ∈ (s.fport k).unacked, u.sent < 16) :
    Counted s (s.resend k n) (0x2710 + k) 5 := by
  have hnot : ¬(((s.fport k).unacked.drop n).any fun u => 16 ≤ u.sent) = true := by
    rw [List.any_eq_true]
    rintro ⟨u, hu, hle⟩
    have hlt := hs u (List.mem_of_mem_drop hu)
    rw [decide_eq_true_eq] at hle
    omega
  have hsome : ¬((s.fport k).unacked.drop n).isEmpty = true := by
    rw [List.isEmpty_iff, List.drop_eq_nil_iff]
    omega
  rw [State.resend, if_neg hnot, if_neg hsome]
  extract_lets x1
  have hbump : Counted s ((s.setFport k x1).bump (0x2710 + k) 5) (0x2710 + k) 5 :=
    (State.bump_counted ..).of_cfg (cfg_of_od (s.setFport_does ..).od_eq ..)
  exact hbump.later (foldl_keeps State.od _ (fun t (u : Unacked) => (t.emitFlit_does k u.flit).od_eq) _ _)

theorem Counted.after {i b : Nat} (h : Counted s t i b) (hu : Upstream t u) (hb : b < 256) (hi : ¬countsLoss i b) : Counted s u i b := by
  rw [Counted, hu.settings i b hb hi]
  exact h

/-- A counter of a fabric port is none of losses. -/
theorem portCount (k b : Nat) : ¬countsLoss (0x2710 + k) b := by
  rintro (h | ⟨h, -⟩) <;> omega

/-- A NAK has the replay buffer sent again from the SEQ it expects. -/
theorem State.fabNakIn_counted (hn : (((usedBytes f).getD 1 0) - (s.fport k).base).toNat < (s.fport k).unacked.length)
    (hs : ∀ u ∈ (s.fport k).unacked, u.sent < 16) : Counted s (s.fabNakIn k f) (0x2710 + k) 5 := by
  rw [State.fabNakIn, if_pos hn]
  exact (State.resend_counted hn hs).after (State.logE_upstream ..) (by decide) (portCount k 5)

/-- A retry timeout repeats a NAK that is open, and counts the retry. -/
theorem State.retry_counted (hh : s.fabHears k = true) (hu : (s.fport k).unacked ≠ []) (hs : ∀ u ∈ (s.fport k).unacked, u.sent < 16) :
    Counted s (s.retry k) (0x2710 + k) 5 := by
  rw [State.retry, if_pos hh]
  split
  · next r _ =>
    have hsame : ((s.fabNak k r.2.1.toNat r.2.2).fport k).unacked = (s.fport k).unacked := s.emitFlit_unacked ..
    exact (State.resend_counted (by rw [hsame]; exact List.length_pos_iff.2 hu) (by rw [hsame]; exact hs)).of_cfg
      (cfg_of_od (State.fabNak_does ..).od_eq ..)
  · exact State.resend_counted (List.length_pos_iff.2 hu) hs

/-- A failed check that does not retrain the link is counted. -/
theorem State.checkFailed_counted (hh : s.fabHears k = true)
    (hn : (if (s.fport k).checkSecond = s.now / secTicks then (s.fport k).checkCount + 1 else 1) ≠ 10001) :
    Counted s (s.checkFailed k) (0x2710 + k) 4 := by
  rw [State.checkFailed, if_pos hh]
  extract_lets sec x n s1
  rw [if_neg hn]
  have hbump : Counted s s1 (0x2710 + k) 4 := (State.bump_counted ..).of_cfg (cfg_of_od (s.setFport_does ..).od_eq ..)
  exact hbump.later (s1.nakOnce_does k 1 0).od_eq

end Sys2Proof.Machine
end

section
/-! HELLO on the ports, node IDs, adverts and routes (16 R349 to R355). -/

namespace Sys2Proof.Machine

variable {l : List Part} {s t u : State} {k j n : Nat} {f : Flit}

/-! What is sent on each port once. -/

/-- Of what is done once on each of some ports, a port sees its own part alone. -/
theorem State.foldl_fport {step : State → Nat → State} (hne : ∀ t j k, k ≠ j → (step t j).fport k = t.fport k)
    (hdoes : ∀ t j, Does [.fab, .out] t (step t j)) {ps : List Nat} (hn : ps.Nodup) (hk : k ∈ ps) :
    ∃ v, Does [.fab, .out] s v ∧ v.fport k = s.fport k ∧ (ps.foldl step s).fport k = (step v k).fport k := by
  obtain ⟨pre, post, rfl⟩ := List.append_of_mem hk
  have hpre : k ∉ pre ∧ k ∉ post := by
    simp only [List.nodup_append, List.nodup_cons] at hn
    exact ⟨fun h => hn.2.2 k h k (by simp) rfl, hn.2.1.1⟩
  have hkeep (qs : List Nat) (hq : k ∉ qs) (t : State) : (qs.foldl step t).fport k = t.fport k := by
    induction qs generalizing t with
    | nil => rfl
    | cons q qs ih =>
      rw [List.mem_cons, not_or] at hq
      exact (ih hq.2 _).trans (hne t q k hq.1)
  refine ⟨pre.foldl step s, .fold hdoes pre (.refl _ _), hkeep pre hpre.1 s, ?_⟩
  rw [List.foldl_append, List.foldl_cons]
  exact hkeep post hpre.2 _

theorem State.mem_upPorts (hk : k < 8) (hu : (s.fport k).isUp = true) : k ∈ s.upPorts none := by
  simp [State.upPorts, hk, hu]

theorem State.upPorts_nodup (s : State) (but : Option Nat) : (s.upPorts but).Nodup := List.nodup_range.filter _

theorem maySend_of_vc {x : FabPort} {f g : Flit} (h : g.vc = f.vc) : x.maySend g = x.maySend f := by rw [FabPort.maySend, FabPort.maySend, h]

/-- HELLO takes the next SEQ of a port that is up. -/
theorem State.hellos_txSeq (hk : k < 8) (hu : (s.fport k).isUp = true) (hq : (s.fport k).txq = []) (hm : (s.fport k).maySend (s.helloFlit k) = true) :
    (s.hellos.fport k).txSeq = (s.fport k).txSeq + 1 := by
  obtain ⟨v, -, hv, hstep⟩ := State.foldl_fport (s := s) (step := fun t k => if (t.fport k).isUp then t.sendSeq k (t.helloFlit k) else t)
    (fun t j k hne => by
      split
      · exact t.sendSeq_fport_ne _ hne
      · rfl) (fun t j => Does.ite (fun _ => t.sendSeq_does ..) fun _ => Does.refl _ _) List.nodup_range (List.mem_range.2 hk)
  obtain ⟨owed, space, hlaunch⟩ := v.launch_fport k (v.helloFlit k)
  rw [State.hellos, hstep, if_pos (by rw [hv]; exact hu), State.sendSeq_free (by rw [hv]; exact hu) (by rw [hv]; exact hq)
    (by rw [hv, maySend_of_vc (g := v.helloFlit k) (f := s.helloFlit k) rfl]; exact hm), hlaunch, hv]
  rfl

/-! Node IDs (16 R350). -/

theorem State.setNode_fab (s : State) (m : Option Byte) : (s.setNode m).fab.node = m ∧ (s.setNode m).fab.db = s.fab.db := by
  have hlog (v : State) (n : Nat) : (v.logE 1 1 0x2701 2 n).fab = v.fab := (v.logE_does ..).fab_eq
  unfold State.setNode
  split
  · next h => exact ⟨h, rfl⟩
  · exact ⟨(congrArg Fabric.node (hlog ..) :), (congrArg Fabric.db (hlog ..) :)⟩

/-! Adverts (16 R351). -/

theorem State.elect_db (s : State) : s.elect.fab.db = s.fab.db := by
  obtain ⟨_, _, _, _, h⟩ := s.elect_eq
  rw [h]

/-- An advert that arrives, kept and flooded on. -/
def State.advertKept (s : State) (k : Nat) (fs : List Flit) (changed : Bool) : State :=
  let s1 := (s.keepAdvert (readAdvert s.now fs)).floodOn k fs
  let s2 := if changed then s1.setFabSt 1 else s1
  (if s2.losesTo (readAdvert s.now fs) then s2.setNode none else s2).elect

theorem State.advertKept_db (s : State) (k : Nat) (fs : List Flit) (changed : Bool) :
    (s.advertKept k fs changed).fab.db = (s.keepAdvert (readAdvert s.now fs)).fab.db := by
  unfold State.advertKept
  extract_lets s1 s2
  have h1 : s1.fab.db = (s.keepAdvert (readAdvert s.now fs)).fab.db := (State.floodOn_sent ..).db
  have h2 : s2.fab.db = s1.fab.db := by
    unfold s2
    split <;> rfl
  rw [State.elect_db]
  split
  · exact (s2.setNode_fab none).2.trans (h2.trans h1)
  · exact h2.trans h1

/-- The advert of a device that is not yet known is kept. -/
theorem State.advertIn_new {fs : List Flit} (hu : (readAdvert s.now fs).uid ≠ Config.uid) (hn : s.advertOf (readAdvert s.now fs).uid = none) :
    (s.advertIn k fs).advertOf (readAdvert s.now fs).uid = some (readAdvert s.now fs) := by
  have hin : s.advertIn k fs = s.advertKept k fs true := by
    unfold State.advertIn
    extract_lets a fab later changed s1 s2
    have hlater : later = true := by
      unfold later
      rw [hn]
    have hchanged : changed = true := by
      unfold changed
      rw [hn]
    rw [if_neg hu, if_pos hlater, show s2 = s1.setFabSt 1 from if_pos hchanged]
    rfl
  rw [hin, advertOf_of_db (s.advertKept_db ..)]
  exact s.keepAdvert_self _

/-- An advert that is not refreshed leaves. -/
theorem State.advertGone_db (s : State) (v : BitVec 64) :
    (({ s with fab := { s.fab with db := s.fab.db.filter (·.uid != v) } } : State).elect.setFabSt 1).fab.db = s.fab.db.filter (·.uid != v) :=
  State.elect_db _

/-! Routes and the master (16 R352 to R355). -/

theorem State.recompute_counted (s : State) : Counted s s.recompute 0x2701 8 := by
  unfold State.recompute
  extract_lets live fab1 s1 dests tabs routes dataRoutes fab2 s2 s3
  have hbump : Counted s (s2.bump 0x2701 8) 0x2701 8 := State.bump_counted ..
  have helect : Counted s s3 0x2701 8 := hbump.later (State.elect_does _).od_eq
  exact helect.later (State.drainExports_does _).od_eq

end Sys2Proof.Machine
end

section
/-! Fabric time (16 R356, R357): requests, their answers, and what an exchange leaves of its port. -/

namespace Sys2Proof.Machine

variable {l : List Part} {s t u : State} {k j n : Nat} {f : Flit} {type : BitVec 4}

/-! Flits on the wire. -/

theorem SentFlit.later {p : List Byte → Prop} (h : SentFlit s k type p) (ho : s.out <+: t.out) : SentFlit t k type p := by
  obtain ⟨g, hg, htype, hp⟩ := h
  exact ⟨g, ho.subset hg, htype, hp⟩

theorem State.emitFlit_sentFlit (s : State) (k : Nat) (f : Flit) : SentFlit (s.emitFlit k f) k f.type fun p => p = f.payload :=
  ⟨s.onWire k f, by rw [State.emitFlit_out]; exact List.mem_append_right _ (List.mem_singleton_self _), rfl, rfl⟩

theorem SentFlit.mono {p q : List Byte → Prop} (h : SentFlit s k type p) (hpq : ∀ b, p b → q b) : SentFlit s k type q := by
  obtain ⟨g, hg, htype, hp⟩ := h
  exact ⟨g, hg, htype, hpq _ hp⟩

/-! TIME REQ (16 R356). -/

theorem flitOut_of_tb (h : t.tb = s.tb) (k : Nat) : t.flitOut k = s.flitOut k := by rw [State.flitOut, State.flitOut, now_of_tb h, h]

/-- A port that is up remembers when its request left. -/
theorem State.timeReqs_req (hk : k < 8) (hu : (s.fport k).isUp = true) : (s.timeReqs.fport k).req = some (s.flitOut k) := by
  obtain ⟨v, hdoes, -, hstep⟩ := State.foldl_fport (s := s) (step := fun t k =>
      (t.setFport k { t.fport k with req := some (t.flitOut k) }).sendPlain k (mkFlit 3 0 (0 :: timeBytes (t.flitOut k))))
    (fun t j k hne => (State.emitFlit_fport_ne _ _ hne).trans (t.fport_setFport_ne _ hne))
    (fun t j => ((t.setFport_does ..).weaken rfl).step (State.sendPlain_does ..) rfl) (s.upPorts_nodup none) (State.mem_upPorts hk hu)
  obtain ⟨owed, space, hemit⟩ := (v.setFport k { v.fport k with req := some (v.flitOut k) }).emitFlit_fport k
    (mkFlit 3 0 (0 :: timeBytes (v.flitOut k)))
  rw [State.timeReqs, hstep, State.sendPlain, hemit, State.fport_setFport, flitOut_of_tb hdoes.tb_eq]

theorem State.Takes.reach (h : s.Takes k f type) (c : Nat) : (s.reach c).Takes k f type := by
  obtain ⟨x, hx⟩ := s.reach_eq c
  rw [hx]
  exact ⟨h.hears, h.type, h.valid, h.idle⟩

/-- A RESP to a request that arrives (16 R356). -/
def State.timeAnswered (s : State) (k : Nat) (f : Flit) (e : Stamp) : State :=
  if (usedBytes f).getD 0 0 = 0 then
    s.sendPlain k (mkFlit 3 0 (1 :: (slice (usedBytes f) 1 10 ++ timeBytesI (s.flitTime k e) ++ timeBytes (s.flitOut k))))
  else s

theorem State.timeAnswered_sent (h : (usedBytes f).getD 0 0 = 0) (k : Nat) (e : Stamp) : SentFlit (s.timeAnswered k f e) k 3 fun p => p.getD 0 0 = 1 := by
  rw [State.timeAnswered, if_pos h]
  exact (s.emitFlit_sentFlit k _).mono fun b hb => by rw [hb]; rfl

/-! An exchange (16 R356, R357). -/

/-- An exchange that a port has ended stays counted, and its request answered. -/
structure State.Exchanged (s t : State) (k : Nat) : Prop where
  count : (t.fport k).exchanges = (s.fport k).exchanges
  req : (s.fport k).req = none → (t.fport k).req = none

theorem State.Exchanged.refl (s : State) (k : Nat) : s.Exchanged s k := ⟨rfl, id⟩

theorem State.Exchanged.trans (h : s.Exchanged t k) (h' : t.Exchanged u k) : s.Exchanged u k := ⟨h'.count.trans h.count, h'.req ∘ h.req⟩

theorem State.Exchanged.of_fport (h : t.fport k = s.fport k) : s.Exchanged t k := ⟨by rw [h], fun hr => by rw [h, hr]⟩

theorem Does.exchanged (h : Does l s t) (k : Nat) (hl : l.contains .fab = false := by rfl) : s.Exchanged t k := .of_fport (fport_of_fab (h.fab_eq hl) k)

/-- A step of time ends the exchanges that are open, and counts none. -/
theorem State.shiftAges_fport (s : State) (d : Int) (k : Nat) : (s.shiftAges d).fport k = (s.fport k).shift d := by
  show Tab.get {} (s.fab.ports.map fun e => (e.1, e.2.shift d)) k = (Tab.get {} s.fab.ports k).shift d
  rw [Tab.get_eq, Tab.get_eq, Tab.find_map fun y : FabPort => y.shift d]
  cases Tab.find s.fab.ports k <;> rfl

theorem State.stepTime_exchanged (s : State) (d : Int) (k : Nat) : s.Exchanged (s.stepTime d) k := by
  unfold State.stepTime
  extract_lets s1 s2 pay
  have hlog : (s2.logX 3 6 0x2201 1 0 [slice pay 0 12, slice pay 12 8]).fport k = s2.fport k := fport_of_fab (State.logX_does ..).fab_eq k
  have hshift : s2.fport k = (s.fport k).shift d := State.shiftAges_fport _ d k
  exact ⟨by rw [hlog, hshift]; rfl, fun _ => by rw [hlog, hshift]; rfl⟩

theorem State.joinFabric_exchanged (s : State) (d : Int) (k : Nat) : s.Exchanged (s.joinFabric d) k := by
  unfold State.joinFabric
  extract_lets join
  have hjoin (t : State) : t.Exchanged (join t) k := .of_fport rfl
  split
  · split
    · exact hjoin s
    · exact (s.stepTime_exchanged d k).trans (.of_fport rfl)
  · split
    · exact hjoin s
    · exact .refl s k

theorem State.Exchanged.ite {c : Prop} [Decidable c] {a b : State} (ha : s.Exchanged a k) (hb : s.Exchanged b k) : s.Exchanged (if c then a else b) k := by
  split
  · exact ha
  · exact hb

theorem State.fabricTime_exchanged (s : State) (k j : Nat) (map : TaiMap) : s.Exchanged (s.fabricTime j map) k := by
  unfold State.fabricTime
  extract_lets x th f s1 s2
  refine .ite ?_ (.refl s k)
  have h1 : s.Exchanged s1 k := ((State.setSource_does ..).exchanged k).trans ((State.masterMap_does ..).exchanged k)
  have h2 : s.Exchanged s2 k := .ite h1 (h1.trans (s1.joinFabric_exchanged th k))
  have hrate (x : TimeBase) : s2.Exchanged { s2 with tb := x } k := .of_fport rfl
  exact (h2.trans (.ite (hrate _) (.refl s2 k))).trans ((State.noteApart_does _).exchanged k)

/-- The answer to the request in flight ends it, and counts an exchange. -/
theorem State.timeResp_port {b : List Byte} {e : Stamp} (hr : (s.fport k).req = some (Machine.readTime b 1))
    (ht : s.flitTime k e ≤ (Machine.readTime b 1 : Int) + usTicks 100) (map : TaiMap) :
    ((s.timeResp k b e map).fport k).req = none ∧ ((s.timeResp k b e map).fport k).exchanges = (s.fport k).exchanges + 1 := by
  unfold State.timeResp
  extract_lets x t1 t4 t2 t3 d theta s1
  rw [if_pos (by rw [show x.req = some t1 from hr, show (decide (t4 ≤ (t1 : Int) + usTicks 100)) = true from decide_eq_true ht]; simp)]
  have h1 : s1.fport k = { x with req := none, exchanges := x.exchanges + 1, thetas := (theta :: x.thetas).take 15 } := State.fport_setFport ..
  have hput := ((s1.put_does (0x2710 + k) 8 (ofSigned 32 d)).exchanged k).trans (State.fabricTime_exchanged _ k k map)
  exact ⟨hput.req (by rw [h1]), hput.count.trans (by rw [h1])⟩

theorem flitTime_of_calGen (h : t.tb.calGen = s.tb.calGen) (k : Nat) (e : Stamp) : t.flitTime k e = s.flitTime k e := by
  rw [State.flitTime, State.flitTime, h]

theorem State.reach_calGen (s : State) (c : Nat) : (s.reach c).tb.calGen = s.tb.calGen := by
  obtain ⟨e, i, h⟩ := s.reach_tb c
  rw [h]

end Sys2Proof.Machine
end

section
/-! Messages of the fabric (16 R353, R358, R360, 17 R374): a management read that is served here, requests that end, a record that reaches its pod. -/

namespace Sys2Proof.Machine

variable {l : List Part} {s t u : State} {k j n : Nat} {f g : Flit} {type : BitVec 4} {act : State → State}

/-! Messages of one flit (16 R342, R343). -/

/-- A flit may have been heard: what the device knows of the fabric, and which of its links are up, is as before. -/
structure State.Heard (s t : State) : Prop where
  does : Does [.fab, .out] s t
  rest : t.fab.rest = s.fab.rest
  up : ∀ j, (t.fport j).isUp = (s.fport j).isUp

theorem State.Heard.fabMine (h : s.Heard t) : t.fabMine f = s.fabMine f := by
  have hnode : t.fab.node = s.fab.node := (congrArg Fabric.node h.rest :)
  rw [State.fabMine, State.fabMine, State.fabRole, State.fabRole, hnode, cfg_of_od h.does.od_eq]

theorem State.Heard.routePort (h : s.Heard t) (type node : Nat) : t.routePort type node = s.routePort type node := by
  have hroutes : t.fab.routes = s.fab.routes := (congrArg Fabric.routes h.rest :)
  have hdata : t.fab.dataRoutes = s.fab.dataRoutes := (congrArg Fabric.dataRoutes h.rest :)
  simp only [State.routePort, hroutes, hdata, h.up]

theorem State.accepted_heard (s : State) (k : Nat) (f : Flit) : s.Heard (s.accepted k f) where
  does := s.accepted_does k f
  rest := s.accepted_rest k f
  up j := by rw [FabPort.isUp, FabPort.isUp, s.accepted_st]

/-- What has been heard once a flit that a link which is up has accepted is acknowledged. -/
def State.flitHeard (s : State) (k : Nat) (f : Flit) (n : Nat) : State := (s.accepted k f).idleAfter k n

theorem State.flitHeard_heard (s : State) (k : Nat) (f : Flit) (n : Nat) : s.Heard (s.flitHeard k f n) := by
  have hacc := s.accepted_heard k f
  have hidle := (s.accepted k f).idleAfter_sent k n
  exact ⟨hacc.does.step (State.idleAfter_does ..) rfl, hidle.rest.trans hacc.rest, fun j => (FabPort.isUp_of_core (hidle.core j)).trans (hacc.up j)⟩

theorem orderOk_single (h : f.tspec = 0xC0) : orderOk [f] = true := by
  simp [orderOk, h, bit01]

/-- A message of one flit for this device is served once the flit has been heard. -/
theorem State.Takes.message_mine (h : s.Takes k f type) (hseq : serial 8 (s.fport k).rxNext.toNat f.seq.toNat = .equal) (hs : seqFlit f = true)
    (hu : (s.fport k).isUp = true) (ht : f.tspec = 0xC0) (hm : s.fabMine f = true) :
    ∃ n, s.rxMessage k type.toNat false [f] act = act (s.flitHeard k f n) := by
  have hacc := s.accepted_heard k f
  obtain ⟨n, hrx⟩ := h.rx_next (want := (· = type.toNat)) (act := fun u => if false || u.fabMine f then u else u.forward k f) (by simp) hs hseq
  have hin : (if (false || (s.accepted k f).fabMine f) = true then s.accepted k f else (s.accepted k f).forward k f) = s.accepted k f :=
    if_pos (by rw [hacc.fabMine, hm]; rfl)
  have hheard : ((s.accepted k f).tryUp k).idleAfter k n = s.flitHeard k f n := by
    rw [State.tryUp_up ((hacc.up k).trans hu), State.flitHeard]
  have hall : s.rxAll k type.toNat false [f] = (s.flitHeard k f n, true) := by
    rw [State.rxAll, hrx, State.rxAll]
    show (((if (false || (s.accepted k f).fabMine f) = true then s.accepted k f else (s.accepted k f).forward k f).tryUp k).idleAfter k n, true && true) = _
    rw [hin, hheard]
    rfl
  refine ⟨n, ?_⟩
  rw [State.rxMessage, if_pos (by rw [orderOk_single ht]; rfl), hall]
  exact if_pos (by rw [(s.flitHeard_heard k f n).fabMine, hm]; rfl)

/-- A flooded message of one flit is served once the flit has been heard. -/
theorem State.Takes.message_flooded (h : s.Takes k f type) (hseq : serial 8 (s.fport k).rxNext.toNat f.seq.toNat = .equal) (hs : seqFlit f = true)
    (ht : f.tspec = 0xC0) : ∃ n, s.rxMessage k type.toNat true [f] act = act (((s.accepted k f).tryUp k).idleAfter k n) := by
  obtain ⟨n, hrx⟩ := h.rx_next (want := (· = type.toNat)) (act := fun u => if true || u.fabMine f then u else u.forward k f) (by simp) hs hseq
  refine ⟨n, ?_⟩
  rw [State.rxMessage, if_pos (by rw [orderOk_single ht]; rfl), State.rxAll, hrx]
  rfl

/-- The adverts of other devices are those from before a flooded flit was heard. -/
theorem State.flooded_adverts (s : State) (k : Nat) (f : Flit) (n : Nat) {v : BitVec 64} (hv : v ≠ Config.uid) :
    (((s.accepted k f).tryUp k).idleAfter k n).advertOf v = s.advertOf v := by
  rw [advertOf_of_db (State.idleAfter_sent ..).db, State.tryUp_adverts _ _ hv, advertOf_of_db (congrArg Fabric.db (s.accepted_rest k f) :)]

/-! Ports that let a flit go at once (16 R344). -/

/-- A port on which a flit leaves at once. -/
structure FabPort.Ready (x : FabPort) (f : Flit) : Prop where
  up : x.isUp = true
  idle : x.txq = []
  may : x.maySend f = true

theorem State.sendSeq_ready (h : (s.fport k).Ready f) : SentFlit (s.sendSeq k f) k f.type fun p => p = f.payload := by
  rw [State.sendSeq_free h.up h.idle h.may, State.launch_eq]
  exact State.emitFlit_sentFlit ..

theorem FabPort.maySend_iff {x : FabPort} : x.maySend f = true ↔ 0 < Tab.get 64 x.credits f.vc.toNat ∧ x.unacked.length < 64 := by
  rw [FabPort.maySend, Bool.and_eq_true, decide_eq_true_eq, decide_eq_true_eq]

theorem FabPort.acked_ready {x : FabPort} (h : x.Ready g) (f : Flit) : (x.acked f).Ready g where
  up := h.up
  idle := h.idle
  may := by
    obtain ⟨hcredit, hroom⟩ := FabPort.maySend_iff.1 h.may
    refine FabPort.maySend_iff.2 ⟨?_, (List.length_drop .. ▸ Nat.sub_le _ _ : (x.unacked.drop _).length ≤ _).trans_lt hroom⟩
    rw [FabPort.acked]
    split
    · exact hcredit
    · by_cases hvc : g.vc.toNat = f.cvc.toNat
      · rw [hvc] at hcredit ⊢
        rw [Tab.get_set_self]
        omega
      · rw [Tab.get_set_ne _ _ _ hvc]
        exact hcredit

theorem State.emitFlit_ready (h : (s.fport j).Ready g) (k : Nat) (f : Flit) : ((s.emitFlit k f).fport j).Ready g := by
  by_cases hj : j = k
  · obtain ⟨owed, space, he⟩ := s.emitFlit_fport k f
    rw [hj] at h ⊢
    rw [he]
    exact ⟨h.up, h.idle, h.may⟩
  · rw [State.emitFlit_fport_ne _ _ hj]
    exact h

/-- With no exports waiting, a port that was ready before a flit was heard is so after it. -/
theorem State.flitHeard_ready (he : s.fab.exports = []) (h : (s.fport j).Ready g) (k : Nat) (f : Flit) (n : Nat) : ((s.flitHeard k f n).fport j).Ready g := by
  have hacc : ((s.accepted k f).fport j).Ready g := by
    rw [State.accepted, State.flitIn_nil he]
    by_cases hj : j = k
    · have hack := FabPort.acked_ready (hj ▸ h) f
      rw [State.acceptSeq, hj, State.fport_setFport, State.acked, State.fport_setFport]
      exact ⟨hack.up, hack.idle, hack.may⟩
    · rw [State.acceptSeq, State.fport_setFport_ne _ _ hj, State.acked, State.fport_setFport_ne _ _ hj]
      exact h
  unfold State.flitHeard State.idleAfter
  split
  · exact State.emitFlit_ready hacc ..
  · exact hacc

end Sys2Proof.Machine
end

section
/-! Messages of the fabric (16 R353, R358, R360, 17 R374): a management read that is served here, requests that end, a record that reaches its pod. -/

namespace Sys2Proof.Machine

variable {l : List Part} {s t u : State} {k j n : Nat} {f g : Flit} {node tag : Byte}

/-! Reads outside the table windows (17 R470). -/

/-- How long an object is does not depend on the state. -/
theorem objBytes_length (s t : State) (p : Path) (r : DictRow) (i j : Nat) : (t.objBytes p r i j).length = (s.objBytes p r i j).length := by
  unfold State.objBytes
  split
  · rfl
  · split
    · rfl
    · split
      · rfl
      · rw [leBytes_length, leBytes_length]

theorem windowRow_outside {i : Nat} (s : State) (h : windowLen i = none) (j : Nat) : s.windowRow i j = none := by
  rw [windowLen] at h
  split at h
  · cases h
  · next hfkt =>
    split at h
    · cases h
    · next hsm => rw [State.windowRow, if_neg hfkt, if_neg hsm, ite_self]

/-- Outside the windows a read goes through no row. -/
theorem State.readWindow_outside {i : Nat} (h : windowLen i = none) (j : Nat) : s.readWindow i j = s :=
  State.readSides_sound fun _ _ => by rw [windowRow_outside s h]; rfl

/-- A read from byte 0 outside the windows, of an object that no command answers by itself. -/
theorem State.rObject_outside {i j : Nat} {r : DictRow} (hr : dictRow i j = some r) (hw : windowLen i = none)
    (hn : (i, j) ∉ [(0x2202, 1), (0x2202, 2), (0x2930, 3)]) (p : Path) (want : Nat) :
    s.rObject p i j 0 want = s.answer p ((s.objBytes p r i j).take want) := by
  simp only [List.mem_cons, Prod.mk.injEq, List.not_mem_nil, or_false, not_or] at hn
  obtain ⟨hepoch, htick, hlog⟩ := hn
  have hbad : s.windowBad i j = false := by rw [State.windowBad, windowRow_outside s hw]; rfl
  rw [State.rObject, hr]
  simp [hw, hbad, hepoch, htick, hlog, State.readWindow_outside hw]

/-! Answers to a node (16 R358). -/

theorem State.routePort_up {type node : Nat} (h : s.routePort type node = some n) : (s.fport n).isUp = true := (List.find?_some h :)

/-- A message of one flit leaves at once on a route whose port is ready. -/
theorem State.sendTo_ready {node : Nat} (hrole : s.cfg 0x2700 5 ≠ 2) (hroute : s.routePort f.type.toNat node = some n) (hready : (s.fport n).Ready f) :
    SentFlit (s.sendTo node [f]).1 n f.type fun p => p = f.payload := by
  have hsent : (s.sendTo node [f]).1 = s.sendSeq n { f with dst := BitVec.ofNat 8 node, src := s.nodeByte } := by
    rw [State.sendTo, if_neg hrole]
    show (match s.routePort f.type.toNat node with | none => (s, false) | some k => _).1 = _
    rw [hroute]
    rfl
  rw [hsent]
  exact State.sendSeq_ready ⟨hready.up, hready.idle, (maySend_of_vc rfl).trans hready.may⟩

/-- An answer of at most 40 bytes is one flit. -/
theorem mgmtFlits_single {status : Nat} {data : List Byte} (tag : Byte) (h : data.length ≤ 40) :
    ∃ g, mgmtFlits 4 tag data.length (leBytes 4 status) data = [g] ∧
    g.type = 6 ∧ g.vc = 1 ∧ g.payload.take 2 = [4, tag] := by
  have hfit : ([4, tag] ++ leBytes 2 data.length ++ fit 8 (leBytes 4 status) ++ data).length ≤ 52 := by
    simp only [List.length_append, leBytes_length, fit, slice, List.length_map, List.length_range, List.length_cons, List.length_nil]
    omega
  exact ⟨_, if_pos hfit, rfl, rfl, rfl⟩

/-- An answer of one flit leaves at once. -/
theorem State.mgmtAnswer_sentFlit {status : Nat} {data : List Byte} (hrole : s.cfg 0x2700 5 ≠ 2) (hroute : s.routePort 6 node.toNat = some n)
    (hready : (s.fport n).Ready (mkFlit 6 1 [])) (hlen : data.length ≤ 40) :
    SentFlit (s.mgmtAnswer node tag status data) n 6 fun p => p.take 2 = [4, tag] := by
  obtain ⟨g, hcut, htype, hvc, hhead⟩ := mgmtFlits_single (status := status) tag hlen
  rw [State.mgmtAnswer, hcut, ← htype]
  exact (State.sendTo_ready hrole (htype ▸ hroute) ⟨hready.up, hready.idle, (maySend_of_vc hvc).trans hready.may⟩).mono fun b hb => hb ▸ hhead

/-- A node of the fabric is the caller of the access in progress (16 R358). -/
def State.called (s : State) (node tag : Byte) : State := { s with acc := { s.acc with caller := some (node, tag) } }

/-- A management read for this device. -/
theorem State.serveMgmt_read {b : List Byte} (hk : b.getD 0 0 = 0) : s.serveMgmt node b =
    (s.called node (b.getD 1 0)).rObject .fabric (leNat (slice b 4 2)) (leNat (slice b 6 1)) (leNat (slice b 7 4)) (min (leNat (slice b 2 2)) 3316) := by
  simp only [State.serveMgmt, hk]
  rfl

theorem State.called_answer (s : State) (node tag : Byte) (data : List Byte) :
    ∃ v, (s.called node tag).answer .fabric data = v.mgmtAnswer node tag 0 data ∧ Does [.acc, .out] s v :=
  ⟨_, rfl, (((Does.set_acc s _).weaken rfl).step (State.send_does ..) rfl).step (Does.set_acc ..) rfl⟩

/-- A management read for this device, of an object outside the windows that fits one flit, is answered at once (16 R358, 17 R374). -/
theorem State.Takes.mgmtRead {i m : Nat} {r : DictRow} (h : s.Takes k f 6) (hseq : serial 8 (s.fport k).rxNext.toNat f.seq.toNat = .equal)
    (hu : (s.fport k).isUp = true) (ht : f.tspec = 0xC0) (hm : s.fabMine f = true) (hkind : (usedBytes f).getD 0 0 = 0)
    (hi : leNat (slice (usedBytes f) 4 2) = i) (hj : leNat (slice (usedBytes f) 6 1) = j) (hoff : leNat (slice (usedBytes f) 7 4) = 0)
    (hwant : min (leNat (slice (usedBytes f) 2 2)) 3316 = m) (hr : dictRow i j = some r) (hw : windowLen i = none)
    (hn : (i, j) ∉ [(0x2202, 1), (0x2202, 2), (0x2930, 3)]) (he : s.fab.exports = []) (hroute : s.routePort 6 f.src.toNat = some n)
    (hready : (s.fport n).Ready (mkFlit 6 1 [])) (hlen : ((s.objBytes .fabric r i j).take m).length ≤ 40) :
    SentFlit (s.rxMessage k 6 false [f] fun t => t.serveMgmt f.src ([f].map usedBytes).flatten) n 6 fun p => p.take 2 = [4, (usedBytes f).getD 1 0] := by
  obtain ⟨q, hrx⟩ := h.message_mine (act := fun t => t.serveMgmt f.src ([f].map usedBytes).flatten) hseq (by rw [seqFlit, h.type]; rfl) hu ht hm
  have hheard := s.flitHeard_heard k f q
  have hrole : s.cfg 0x2700 5 ≠ 2 := by
    simp only [State.fabMine, Bool.and_eq_true, bne_iff_ne] at hm
    exact hm.2
  have hbytes : ([f].map usedBytes).flatten = usedBytes f := by simp
  have hlen' (v : State) : ((v.objBytes .fabric r i j).take m).length ≤ 40 := by
    rw [List.length_take, objBytes_length s v, ← List.length_take]
    exact hlen
  obtain ⟨v, hans, hv⟩ := (s.flitHeard k f q).called_answer f.src ((usedBytes f).getD 1 0)
    ((((s.flitHeard k f q).called f.src ((usedBytes f).getD 1 0)).objBytes .fabric r i j).take m)
  have hports (p : Nat) : v.fport p = (s.flitHeard k f q).fport p := fport_of_fab hv.fab_eq p
  show SentFlit (s.rxMessage k (6 : BitVec 4).toNat false [f] _) n 6 _
  rw [hrx, hbytes, State.serveMgmt_read hkind, hi, hj, hoff, hwant, State.rObject_outside hr hw hn, hans]
  refine State.mgmtAnswer_sentFlit ?_ ?_ ?_ (hlen' _)
  · rw [cfg_of_od (hv.od_eq.trans hheard.does.od_eq)]
    exact hrole
  · rw [← hroute, ← hheard.routePort]
    simp only [State.routePort, hports, hv.fab_eq]
  · rw [hports]
    exact State.flitHeard_ready he hready ..

/-! Requests that end (16 R358, 17 R374). -/

/-- A refusal is an outcome of the state, which may have logged it. -/
theorem State.refuse_eq (s : State) (p : Path) (i b v : Nat) (code : BitVec 32) :
    ∃ u : State, s.refuse p i b v code = u.outcome p (some code) [] ∧ u.fab = s.fab := by
  unfold State.refuse
  split
  · exact ⟨_, rfl, (State.logRefusal_does ..).fab_eq⟩
  · exact ⟨s, rfl, rfl⟩

/-- An abort is given on the path of the request. -/
theorem State.outcome_abort (s : State) (p : Path) (code : BitVec 32) (data : List Byte) : Output.abort p code ∈ (s.outcome p (some code) data).out := by
  have hmem : Output.abort p code ∈ (s.send (.abort p code)).out := List.mem_append_right _ (List.mem_singleton_self _)
  cases p with
  | can => exact ((s.send (.abort .can code)).usdoAnswer_does (some code) data).sent.subset hmem
  | pcie0 => exact (State.boxDone_does ..).sent.subset hmem
  | pcie1 => exact (State.boxDone_does ..).sent.subset hmem
  | fabric =>
    unfold State.outcome
    dsimp only
    split
    · exact hmem
    · exact (State.mgmtAnswer_does ..).sent.subset hmem

theorem State.refuse_abort (s : State) (p : Path) (i b v : Nat) (code : BitVec 32) : Output.abort p code ∈ (s.refuse p i b v code).out := by
  obtain ⟨u, hu, -⟩ := s.refuse_eq p i b v code
  rw [hu]
  exact u.outcome_abort ..

/-- An outcome ends no request that this device has sent. -/
theorem State.outcome_requests (s : State) (p : Path) (code : Option (BitVec 32)) (data : List Byte) : (s.outcome p code data).fab.out = s.fab.out := by
  cases p with
  | can => exact congrArg Fabric.out (State.canOutcome_does ..).fab_eq
  | pcie0 => exact congrArg Fabric.out (State.boxDone_does ..).fab_eq
  | pcie1 => exact congrArg Fabric.out (State.boxDone_does ..).fab_eq
  | fabric =>
    unfold State.outcome
    dsimp only
    split
    · rfl
    · exact (congrArg Fabric.out (State.sendTo_sent ..).rest :)

theorem State.refuse_requests (s : State) (p : Path) (i b v : Nat) (code : BitVec 32) : (s.refuse p i b v code).fab.out = s.fab.out := by
  obtain ⟨u, hu, hfab⟩ := s.refuse_eq p i b v code
  rw [hu, State.outcome_requests, hfab]

/-- The request that an answer belongs to is outstanding no more. -/
theorem State.takeOut_some {o : MgmtOut} (h : s.fab.out.find? (fun o => o.node = node && o.tag = tag) = some o) :
    s.takeOut node tag = some (o, { s with fab := { s.fab with out := s.fab.out.erase o } }) := by rw [State.takeOut, h]; rfl

/-- An answer with a status aborts the request that it belongs to. -/
theorem State.mgmtAnswered_abort {o : MgmtOut} {b : List Byte} (h : s.fab.out.find? (fun o => o.node = node && o.tag = b.getD 1 0) = some o)
    (hs : leNat (slice b 4 4) ≠ 0) : Output.abort o.path (BitVec.ofNat 32 (leNat (slice b 4 4))) ∈ (s.mgmtAnswered node b).out := by
  rw [State.mgmtAnswered, State.takeOut_some h]
  simp only [bne_iff_ne, ne_eq, hs, not_false_eq_true, if_true]
  exact State.refuse_abort ..

theorem State.Takes.mgmtAbort {o : MgmtOut} (h : s.Takes k f 6) (hseq : serial 8 (s.fport k).rxNext.toNat f.seq.toNat = .equal)
    (hu : (s.fport k).isUp = true) (ht : f.tspec = 0xC0) (hm : s.fabMine f = true)
    (ho : s.fab.out.find? (fun o => o.node = f.src && o.tag = (usedBytes f).getD 1 0) = some o) (hs : leNat (slice (usedBytes f) 4 4) ≠ 0) :
    Output.abort o.path (BitVec.ofNat 32 (leNat (slice (usedBytes f) 4 4))) ∈
      (s.rxMessage k 6 false [f] fun t => t.mgmtAnswered f.src ([f].map usedBytes).flatten).out := by
  obtain ⟨q, hrx⟩ := h.message_mine (act := fun t => t.mgmtAnswered f.src ([f].map usedBytes).flatten) hseq (by rw [seqFlit, h.type]; rfl) hu ht hm
  have hbytes : ([f].map usedBytes).flatten = usedBytes f := by simp
  have hout : (s.flitHeard k f q).fab.out = s.fab.out := (congrArg Fabric.out (s.flitHeard_heard k f q).rest :)
  show _ ∈ (s.rxMessage k (6 : BitVec 4).toNat false [f] _).out
  rw [hrx, hbytes]
  exact State.mgmtAnswered_abort (hout ▸ ho) hs

/-! Records from the fabric (16 R360). -/

/-- A record of one flit for this device joins its pod's arrival buffer. -/
theorem State.fabDataIn_arrives (ht : f.tspec = 0xC0) (hp : Tab.get [] s.fab.parts f.src.toNat = []) (hd : s.cls.dropsOwed = []) {e : Nat}
    (he : ((usedBytes f).getD 0 0).toNat % 32 * 32 + ((usedBytes f).getD 1 0).toNat % 32 = e) (hroom : s.routerRoom e ((usedBytes f).drop 4) = true) :
    ((s.fabDataIn k f).pod (e / 32)).arrival =
      (s.pod (e / 32)).arrival ++ [⟨e, ((usedBytes f).getD 2 0).toNat % 2, (usedBytes f).drop 4⟩] := by
  have hbytes : ([f].map usedBytes).flatten = usedBytes f := by simp
  have hin : s.fabDataIn k f = ({ s with fab := { s.fab with parts := s.fab.parts.erase f.src.toNat } } : State).importRecord [f] := by
    simp [State.fabDataIn, hp, ht]
  rw [hin, State.importRecord, hbytes]
  simp only [he]
  exact State.deliver_arrives hroom (by rw [hd]; rfl)

/-- What the router has room for does not depend on the fabric. -/
theorem Does.routerRoom (h : Does [.fab, .out] s t) (e : Nat) (r : List Byte) : t.routerRoom e r = s.routerRoom e r := by
  have heng : t.eng = s.eng := h.same .eng (by decide)
  have hpod : t.pod (e / 32) = s.pod (e / 32) := by rw [State.pod, h.pods_eq]; rfl
  rw [State.routerRoom, State.routerRoom, State.engine, heng, State.arrivals, State.podUp, hpod]
  rfl

theorem State.Takes.data (h : s.Takes k f 7) (hseq : serial 8 (s.fport k).rxNext.toNat f.seq.toNat = .equal) (hm : s.fabMine f = true)
    (ht : f.tspec = 0xC0) (hp : Tab.get [] s.fab.parts f.src.toNat = []) (hd : s.cls.dropsOwed = []) {e : Nat}
    (he : ((usedBytes f).getD 0 0).toNat % 32 * 32 + ((usedBytes f).getD 1 0).toNat % 32 = e) (hroom : s.routerRoom e ((usedBytes f).drop 4) = true) :
    ((s.rx k (· = 7) f fun t => if t.fabMine f then t.fabDataIn k f else t.forward k f).1.pod (e / 32)).arrival =
      (s.pod (e / 32)).arrival ++ [⟨e, ((usedBytes f).getD 2 0).toNat % 2, (usedBytes f).drop 4⟩] := by
  have hacc := s.accepted_heard k f
  have hparts : (s.accepted k f).fab.parts = s.fab.parts := (congrArg Fabric.parts hacc.rest :)
  obtain ⟨q, hrx⟩ := h.rx_next (want := (· = 7)) (act := fun t => if t.fabMine f then t.fabDataIn k f else t.forward k f) rfl
    (by rw [seqFlit, h.type]; rfl) hseq
  have hin : (if (s.accepted k f).fabMine f then (s.accepted k f).fabDataIn k f else (s.accepted k f).forward k f) = (s.accepted k f).fabDataIn k f :=
    if_pos (by rw [hacc.fabMine, hm])
  have hlater (v : State) : ((v.tryUp k).idleAfter k q).pod (e / 32) = v.pod (e / 32) := by
    rw [State.pod, State.pod, ((State.idleAfter_does ..).pods_eq).trans (State.tryUp_does ..).pods_eq]
  have hpod : (s.accepted k f).pod (e / 32) = s.pod (e / 32) := by rw [State.pod, State.pod, hacc.does.pods_eq]
  rw [hrx]
  show (((_ : State).tryUp k).idleAfter k q |>.pod (e / 32)).arrival = _
  rw [hlater, ← hpod]
  show ((if (s.accepted k f).fabMine f then (s.accepted k f).fabDataIn k f else (s.accepted k f).forward k f).pod (e / 32)).arrival = _
  rw [hin]
  exact State.fabDataIn_arrives ht (hparts ▸ hp) (hacc.does.cls_eq ▸ hd) he ((hacc.does.routerRoom ..).trans hroom)

end Sys2Proof.Machine
end

section
/-! What the flits of a port do to its link (16 R340 to R349, R356, R357). -/

namespace Sys2Proof.Machine

variable {l : List Part} {s t u : State} {k j n : Nat} {f g : Flit}

/-! Training (16 R340, R349). -/

/-- A port that starts to train has heard no HELLO. -/
theorem State.train_fresh (s : State) (k : Nat) (one : Bool) : ((s.train k one).fport k).st = 2 ∧ ((s.train k one).fport k).helloSeen = false :=
  ⟨FabPort.st_of_core (s.train_port k one), (congrArg FabPort.helloSeen (s.train_port k one) :)⟩

/-- The device's own HELLO shows that the port is looped. -/
theorem State.Takes.looped (h : s.Takes k f 2) (hseq : serial 8 (s.fport k).rxNext.toNat f.seq.toNat = .equal)
    (huid : BitVec.ofNat 64 (leNat (slice (usedBytes f) 0 8)) = Config.uid) : ((s.rx k (· = 2) f fun t => t.fabHelloIn k f).1.fport k).st = 6 := by
  obtain ⟨n, hrx⟩ : ∃ n, s.rx k (· = 2) f (fun t => t.fabHelloIn k f) = ((((s.accepted k f).fabHelloIn k f).tryUp k).idleAfter k n, true) :=
    h.rx_next rfl (by rw [seqFlit, h.type]; rfl) hseq
  have hown := State.fabHelloIn_own (s := s.accepted k f) (k := k) huid
  have hkept : ((s.accepted k f).fabHelloIn k f).tryUp k = (s.accepted k f).fabHelloIn k f := State.tryUp_other (by rw [hown]; decide)
  have hidle := FabPort.st_of_core ((((s.accepted k f).fabHelloIn k f).idleAfter_sent k n).core k)
  rw [hrx, hkept]
  dsimp only
  exact hidle.trans hown

/-- With all that the port has sent acknowledged, an IDLE flit brings its link up. -/
theorem State.Takes.idleUp (h : s.Takes k f 0) (hst : (s.fport k).st = 2) (hh : (s.fport k).helloSeen = true)
    (ha : (s.fport k).ackCount f.ack = some (s.fport k).unacked.length) : ((s.rx k (· = 0) f id).1.fport k).st = (s.fport k).upSt := by
  have hcore := s.flitIn_core k k f
  have hdown : ((s.acked k f).fport k).isUp = false := by rw [State.acked, State.fport_setFport, FabPort.isUp]; simp [FabPort.acked, hst]
  have hall : ((s.acked k f).fport k).unacked = [] := by rw [State.acked, State.fport_setFport]; simp [FabPort.acked, ha]
  have hup := State.tryUp_comes (s := s.flitIn k f) (k := k) ((FabPort.st_of_core hcore).trans hst) ((congrArg FabPort.helloSeen hcore :).trans hh)
    (((s.flitIn_sent k f).unacked k hdown).trans hall)
  have hlane : ((s.flitIn k f).fport k).oneLane = (s.fport k).oneLane := (congrArg FabPort.oneLane hcore :)
  rw [h.rx rfl (by rw [seqFlit, h.type]; rfl)]
  show (((s.flitIn k f).tryUp k).fport k).st = _
  rw [hup, FabPort.upSt, hlane, FabPort.upSt]

/-! Retries (16 R345). -/

/-- A NAK that acknowledges nothing by itself counts as a retry. -/
theorem State.Takes.nak (h : s.Takes k f 1) (ha : (s.fport k).ackCount f.ack = some 0) (he : s.fab.exports = [])
    (hs : ∀ u ∈ (s.fport k).unacked, u.sent < 16) (hn : (((usedBytes f).getD 1 0) - (s.fport k).base).toNat < (s.fport k).unacked.length) :
    Counted s (s.rx k (· = 1) f fun t => t.fabNakIn k f).1 (0x2710 + k) 5 := by
  have hin : s.flitIn k f = s.acked k f := State.flitIn_nil he
  have hun : ((s.acked k f).fport k).unacked = (s.fport k).unacked := by
    rw [State.acked, State.fport_setFport]
    simp [FabPort.acked, ha]
  have hbase : ((s.acked k f).fport k).base = (s.fport k).base := by
    rw [FabPort.base, hun, FabPort.base]
    rw [State.acked, State.fport_setFport]
    rfl
  have hnak : Counted (s.acked k f) ((s.acked k f).fabNakIn k f) (0x2710 + k) 5 := State.fabNakIn_counted (by rw [hun, hbase]; exact hn) (by rw [hun]; exact hs)
  rw [h.rx rfl (by rw [seqFlit, h.type]; rfl)]
  have hcount : Counted s ((s.flitIn k f).fabNakIn k f) (0x2710 + k) 5 := by
    rw [hin]
    exact hnak.of_cfg rfl
  exact hcount.after (State.tryUp_upstream ..) (by decide) (portCount k 5)

/-! Time over a link (16 R356, R357). -/

theorem State.Takes.timeAnswer (h : s.Takes k f 3) (hb : (usedBytes f).getD 0 0 = 0) (e : Stamp) :
    SentFlit (s.rx k (· = 3) f fun t => t.timeAnswered k f e).1 k 3 fun p => p.getD 0 0 = 1 := by
  rw [h.rx rfl (by rw [seqFlit, h.type]; rfl)]
  exact ((s.flitIn k f).timeAnswered_sent hb k e).later (State.tryUp_does ..).sent

/-- The answer to the request of a port ends its exchange. -/
theorem State.Takes.timeEnds (h : s.Takes k f 3) (hb : (usedBytes f).getD 0 0 = 1) (e : Stamp) (map : TaiMap)
    (hr : (s.fport k).req = some (Machine.readTime (usedBytes f) 1)) (ht : s.flitTime k e ≤ (Machine.readTime (usedBytes f) 1 : Int) + usTicks 100) :
    let t := (s.rx k (· = 3) f fun t => if (usedBytes f).getD 0 0 = 1 then t.timeResp k (usedBytes f) e map else t).1
    (t.fport k).req = none ∧ (t.fport k).exchanges = (s.fport k).exchanges + 1 := by
  have hcore := s.flitIn_core k k f
  have hreq : ((s.flitIn k f).fport k).req = (s.fport k).req := (congrArg FabPort.req hcore :)
  have hcount : ((s.flitIn k f).fport k).exchanges = (s.fport k).exchanges := (congrArg FabPort.exchanges hcore :)
  have htime : (s.flitIn k f).flitTime k e = s.flitTime k e := flitTime_of_calGen (congrArg TimeBase.calGen (s.flitIn_does k f).tb_eq :) k e
  obtain ⟨hnone, hone⟩ := State.timeResp_port (hreq.trans hr) (htime ▸ ht) map
  obtain ⟨st, hup⟩ := ((s.flitIn k f).timeResp k (usedBytes f) e map).tryUp_port k
  rw [h.rx rfl (by rw [seqFlit, h.type]; rfl)]
  simp only [hb, if_true]
  exact ⟨(congrArg FabPort.req hup :).trans hnone, ((congrArg FabPort.exchanges hup :).trans hone).trans (by rw [hcount])⟩

/-! Adverts (16 R351). -/

/-- The advert of another device, as yet unknown, is kept. -/
theorem State.Takes.newAdvert (h : s.Takes k f 4) (hseq : serial 8 (s.fport k).rxNext.toNat f.seq.toNat = .equal) (ht : f.tspec = 0xC0)
    (hu : (readAdvert s.now [f]).uid ≠ Config.uid) (hn : s.advertOf (readAdvert s.now [f]).uid = none) :
    (s.rxMessage k 4 true [f] fun t => t.advertIn k [f]).advertOf (readAdvert s.now [f]).uid = some (readAdvert s.now [f]) := by
  obtain ⟨n, hrx⟩ := h.message_flooded (act := fun t => t.advertIn k [f]) hseq (by rw [seqFlit, h.type]; rfl) ht
  have hnow : (((s.accepted k f).tryUp k).idleAfter k n).now = s.now :=
    now_of_tb ((State.idleAfter_does ..).tb_eq.trans ((State.tryUp_does ..).tb_eq.trans (s.accepted_does k f).tb_eq))
  have hold := s.flooded_adverts k f n hu
  show (s.rxMessage k (4 : BitVec 4).toNat true [f] _).advertOf _ = _
  rw [hrx, ← hnow]
  rw [← hnow] at hu hn hold
  exact State.advertIn_new hu (hold.trans hn)

/-- What an advert that is not refreshed leaves behind, at the time at which it is due. -/
theorem State.advertAge_next {v : BitVec 64} {a : Advert} (ha : s.advertOf v = some a) (hs : s.served = true) (hv : v ≠ Config.uid) :
    ∃ u : State, exec (.advertAgeExpiry v) s =
      .next (({ u with fab := { u.fab with db := u.fab.db.filter (·.uid != v) } } : State).elect.setFabSt 1) ∧ u.fab = s.fab := by
  refine ⟨s.reach (a.since + 3 * secTicks), ?_, (s.reach_does _).fab_eq⟩
  show execAdvertAgeExpiry v s = _
  rw [execAdvertAgeExpiry, ha]
  exact congrArg Host.Outcome.next (if_pos (by rw [hs]; exact bne_iff_ne.2 hv))

end Sys2Proof.Machine
end

section
/-! The obligation of every command of the link and of the fabric: each clause is one of the facts above. -/

namespace Sys2Proof.Machine

/-- A queued block with a record gives its class an oldest record. -/
theorem Link.oldest_queued {k : Link} {c : Nat} {q : LinkBlock} (hq : q ∈ Tab.get [] k.queues c) (hr : q.recs ≠ []) : ∃ n, k.oldest c = some n := by
  obtain ⟨r, m, hrecs⟩ := List.exists_cons_of_ne_nil hr
  have hmem : r.since ∈ (Tab.get [] k.queues c).filterMap fun b => b.recs.head?.map (·.since) := List.mem_filterMap.2 ⟨q, hq, by rw [hrecs]; rfl⟩
  have hsome {l : List Nat} (hl : l ≠ []) : ∃ n, earliest l = some n := by
    rw [earliest_eq_min]
    exact Option.ne_none_iff_exists'.1 (mt List.min?_eq_none_iff.1 hl)
  obtain ⟨n, hn⟩ := hsome (List.ne_nil_of_mem hmem)
  exact hsome (by rw [Link.queueOldest, hn]; simp)

/-- Settles O59: the commands of the link by the facts about their operations, those of the fabric by what a flit that is heard does to its port, or by what its
message does once it has been heard. -/
theorem linkAndFabricCommandsComplete : Obligations.LinkAndFabricCommandsComplete := by
  unfold Obligations.LinkAndFabricCommandsComplete
  refine ⟨fun s p f u b => ?link, fun s k f hs => ?fabric⟩
  case link =>
    intro x hears opens
    have hheard {c : Bool} {n : Nat} (h : hears c n) (hn : n < 256) : s.linkHears p.val f = true ∧ s.link.role = some c ∧ f.type = BitVec.ofNat 8 n :=
      ⟨h.1, h.2.1, LinkFrame.type_eq h.2.2 hn⟩
    refine ⟨?age, ?send, ?shed, ?group, ?hello, ?helloIn, ?answer, ?rekey, ?oldKey, ?report, ?reportIn, ?down, ?nakIn, ?nak, ?data, ?release, ?close,
      ?opened, ?arp⟩
    case age =>
      intro l c n hc hr
      obtain ⟨r, m, hrecs⟩ := List.exists_cons_of_ne_nil hr
      exact ⟨_, rfl, (State.linkAge_queues hrecs (.inl hc)).2.2⟩
    case send =>
      intro r l hcar hen hopen hup hturn hk hst hb
      have hsends : s.Sends p.val := ⟨hcar, hen, hopen, hk, hst⟩
      exact ⟨_, rfl, (hsends.repair_link hb hup hturn).2.1⟩
    case shed =>
      intro c q hc hq hr
      obtain ⟨n, hn⟩ := Link.oldest_queued hq hr
      obtain ⟨-, -, hcount, -⟩ := State.linkShed_shed hc hn
      exact ⟨_, rfl, hcount⟩
    case group =>
      intro hg
      obtain ⟨-, hgroup, hk, -⟩ := State.groupTimeout_link hg
      exact ⟨_, rfl, hgroup, hk⟩
    case hello =>
      intro hr hsh hi
      obtain ⟨hat, htb⟩ := s.helloDue.sendHello_helloAt
      refine ⟨_, congrArg Host.Outcome.next (State.helloTick_eq hr hsh hi), ?_⟩
      rw [hat, now_of_tb htb]
    case helloIn =>
      intro h hform htrust hnew hrng
      obtain ⟨hhears, hrole, hf⟩ := hheard h (by decide)
      have hcore := State.helloIn_core (p := p.val) hrole hf hform htrust hnew hrng
      exact ⟨s.helloIn p.val f, congrArg Host.Outcome.next (State.received_heard hhears _), (congrArg Link.hello hcore :), (congrArg Link.keyno hcore :),
        (congrArg Link.st hcore :)⟩
    case answer =>
      intro b' h hh hsh hform htrust hnonce
      obtain ⟨hhears, hrole, hf⟩ := hheard h (by decide)
      have hcore := State.answerIn_core (p := p.val) hrole hh hsh hf hform htrust hnonce
      obtain ⟨z, hz, -⟩ := s.pathsStarted_eq b' f.body
      rw [hz] at hcore
      exact ⟨s.answerIn p.val f, congrArg Host.Outcome.next (State.received_heard hhears _), (congrArg Link.keyno hcore :),
        (congrArg Link.shaking hcore :), (congrArg Link.hello hcore :)⟩
    case rekey => exact fun hr hk hsh => ⟨_, congrArg Host.Outcome.next (State.rekey_eq hr hk hsh), rfl, rfl⟩
    case oldKey =>
      intro ha
      obtain ⟨a, ha⟩ := Option.isSome_iff_exists.1 ha
      have hlink := (State.oldKeyGone_link ha).2
      exact ⟨_, rfl, (congrArg Link.oldKeys hlink :), (congrArg Link.oldUntil hlink :), (congrArg Link.keys hlink :)⟩
    case report =>
      intro hr hk hi hp
      have hnew := (s.reportDue p.val).reportNow_path p.val
      refine ⟨_, congrArg Host.Outcome.next (State.sendReport_eq hr hk hi hp), ?_⟩
      rw [hnew, now_of_tb (State.reportNow_does ..).tb_eq]
      exact ⟨rfl, rfl⟩
    case reportIn =>
      intro h ho hlen hb
      obtain ⟨hhears, hrole, hf⟩ := hheard h (by decide)
      exact ⟨s.reportIn p.val f, congrArg Host.Outcome.next (State.received_heard hhears _), State.reportIn_path hrole hf ho hlen p.isLt hb⟩
    case down =>
      intro hr hu ha
      obtain ⟨a, ha⟩ := Option.isSome_iff_exists.1 ha
      exact ⟨_, rfl, (congrArg LinkPath.up (State.pathDown_path hr hu ha).2.1 :)⟩
    case nakIn =>
      intro n k h ho hb hg hk
      obtain ⟨hhears, hrole, hf⟩ := hheard h (by decide)
      have hlater : ¬s.againNow p.val := fun ⟨_, hempty, _⟩ => hg hempty
      exact ⟨s.nakIn p.val f, congrArg Host.Outcome.next (State.received_heard hhears _), (State.nakIn_waits hrole hf ho hb hk hlater).2⟩
    case nak =>
      intro n q hr hk hi hseen hlost hp hnak
      obtain ⟨r, hr'⟩ := Option.isSome_iff_exists.1 (List.find?_isSome.2 (List.any_eq_true.1 hp))
      have hsent := State.nakOut_sent (m := ⟨n, q.toNat, s.now, s.now⟩) hk hr'
      exact ⟨_, congrArg Host.Outcome.next (State.sendNak_first hr hk hi hseen hlost hnak), hsent.1⟩
    case data =>
      intro h ho
      obtain ⟨hhears, hrole, hle⟩ : s.linkHears p.val f = true ∧ s.link.role = some false ∧ f.type.toNat ≤ 1 := by
        obtain h | h := h
        · exact ⟨h.1, h.2.1, by rw [h.2.2]; decide⟩
        · exact ⟨h.1, h.2.1, by rw [h.2.2]⟩
      exact ⟨s.dataIn p.val f, congrArg Host.Outcome.next (State.received_heard hhears _), State.dataIn_taken hrole hle ho⟩
    case release => exact fun h hr hi hh => ⟨_, congrArg Host.Outcome.next (if_pos (by rw [hi]; simp [hr])), State.releaseNext_link hh⟩
    case close =>
      intro hhears hf ho
      have hcore := State.closeIn_core (LinkFrame.type_eq hf (by decide)) ho
      exact ⟨s.closeIn f, congrArg Host.Outcome.next (State.received_heard hhears _), (congrArg Link.st hcore :), (congrArg Link.hello hcore :)⟩
    case opened =>
      intro hc
      have hpath := State.pathOpens_path hc
      exact ⟨_, rfl, (congrArg LinkPath.closed hpath :), (congrArg LinkPath.rate hpath :)⟩
    case arp =>
      intro m hu hs he hm
      exact ⟨_, rfl, (congrArg LinkPath.neighbour (State.arpIn_reply hu hs (State.mem_macPaths p.isLt he hm)).1 :)⟩
  case fabric =>
    intro x b port counts
    refine ⟨?signal, ?timeout, ?quarantine, ?looped, ?silence, ?lock, ?hello, ?own, ?nak, ?retry, ?check, ?idle, ?node, ?advert, ?advertIn, ?age, ?routes,
      ?master, ?timeReq, ?timeIn, ?timeEnd, ?mgmt, ?gone, ?data⟩
    case signal => exact fun he hst => ⟨_, congrArg Host.Outcome.next (if_pos (by simp [hs, he, show (s.fport k.val).st = 1 from hst])), s.train_fresh ..⟩
    case timeout => exact fun hst => ⟨_, congrArg Host.Outcome.next (if_pos (by simp [hs, show (s.fport k.val).st = 2 from hst])), s.train_fresh ..⟩
    case quarantine => exact fun hst => ⟨_, congrArg Host.Outcome.next (if_pos (by simp [hs, show (s.fport k.val).st = 5 from hst])), s.train_fresh ..⟩
    case looped => exact fun hst => ⟨_, congrArg Host.Outcome.next (if_pos (by simp [hs, show (s.fport k.val).st = 6 from hst])), s.train_fresh ..⟩
    case silence => exact fun hu => ⟨_, congrArg Host.Outcome.next (if_pos (by rw [hs]; exact hu)), s.linkLost_port _⟩
    case lock => exact fun hh => ⟨_, congrArg Host.Outcome.next ((if_pos hh).trans (if_pos rfl)), s.linkLost_port _⟩
    case hello => exact fun hu hq hm => ⟨_, congrArg Host.Outcome.next (if_pos hs), State.hellos_txSeq k.isLt hu hq hm⟩
    case own =>
      intro hf _ huid
      obtain ⟨h, hseq⟩ := State.takes_of_flitNext hf
      exact ⟨_, rfl, h.looped hseq huid⟩
    case nak => exact fun hf ha he hsent hn => ⟨_, rfl, (State.takes_of_flitTaken hf).nak ha he hsent hn⟩
    case retry => exact fun hh hu hsent => ⟨_, rfl, State.retry_counted hh hu hsent⟩
    case check => exact fun hh hn => ⟨_, rfl, State.checkFailed_counted hh hn⟩
    case idle => exact fun hf hst hh ha => ⟨_, rfl, (State.takes_of_flitTaken hf).idleUp hst hh ha⟩
    case node =>
      intro n hc hst hnone hid
      exact ⟨_, congrArg Host.Outcome.next (if_pos (by simp [hs, hc, hst, hnone])), by rw [(s.setNode_fab _).1, hid]; rfl⟩
    case advert => exact fun hc => ⟨_, congrArg Host.Outcome.next (if_pos (by simp [hs, hc])), s.advertise_gen⟩
    case advertIn =>
      intro hf ht a hu hn
      obtain ⟨h, hseq⟩ := State.takes_of_flitNext hf
      exact ⟨_, rfl, h.newAdvert hseq ht hu hn⟩
    case age =>
      intro v hv hu
      obtain ⟨a, ha⟩ := Option.isSome_iff_exists.1 hv
      obtain ⟨w, hnext, hfab⟩ := State.advertAge_next ha hs hu
      exact ⟨_, hnext, (w.advertGone_db v).trans (by rw [hfab])⟩
    case routes => exact fun hc => ⟨_, congrArg Host.Outcome.next (if_pos (by simp [hs, hc])), s.recompute_counted⟩
    case master =>
      intro v hv
      obtain ⟨joined, hops, hset⟩ := s.setMaster_eq s.fab.better
      refine ⟨_, congrArg Host.Outcome.next (if_pos (by rw [hs, hv]; rfl)), ?_⟩
      rw [hset]
      exact ⟨hv, rfl⟩
    case timeReq => exact fun hu => ⟨_, congrArg Host.Outcome.next (if_pos hs), State.timeReqs_req k.isLt hu⟩
    case timeIn => exact fun d hf hb => ⟨_, rfl, ((State.takes_of_flitTaken hf).reach d.count).timeAnswer hb d⟩
    case timeEnd =>
      intro d map hf hb hr ht
      have hreq : ((s.reach d.count).fport k.val).req = some (Machine.readTime (usedBytes f) 1) := by
        rw [fport_of_fab (s.reach_does _).fab_eq]
        exact hr
      have hend := ((State.takes_of_flitTaken hf).reach d.count).timeEnds hb d map hreq (by rw [flitTime_of_calGen (s.reach_calGen _)]; exact ht)
      rw [fport_of_fab (s.reach_does _).fab_eq] at hend
      exact ⟨_, rfl, hend⟩
    case mgmt =>
      intro hu hf ht hm
      obtain ⟨h, hseq⟩ := State.takes_of_flitNext hf
      refine ⟨?_, ?_⟩
      · intro r n hkind i j hr hw hn hoff _ he hroute _ hq hmay hlen
        have hup := State.routePort_up hroute
        have hread := h.mgmtRead hseq hu ht hm hkind rfl rfl hoff rfl hr (by simpa using hw) hn he hroute ⟨hup, hq, hmay⟩ hlen
        exact ⟨_, congrArg Host.Outcome.next (if_pos (by rw [show (usedBytes f).getD 0 0 = 0 from hkind]; decide)), hread⟩
      · intro o _ hkind ho hst
        exact ⟨_, congrArg Host.Outcome.next (if_pos hkind), h.mgmtAbort hseq hu ht hm ho hst⟩
    case gone =>
      intro o _ ho
      refine ⟨_, congrArg Host.Outcome.next ((if_pos hs).trans (by rw [State.takeOut_some ho])), ?_⟩
      rw [State.refuse_requests, (State.bump_does ..).fab_eq]
    case data =>
      intro hu hf hm ht hp hd e hroom
      obtain ⟨h, hseq⟩ := State.takes_of_flitNext hf
      exact ⟨_, rfl, h.data hseq hm ht hp hd rfl hroom⟩

end Sys2Proof.Machine
end

section
/-! POD_CLOCK_STEP (08 R175, 18 R417, 19 R422): the core voltage follows the steps of the pods. -/

namespace Sys2Proof.Machine

variable {s t : State}

theorem pod_of_pods (h : t.pods = s.pods) (p : Nat) : t.pod p = s.pod p := by rw [State.pod, h]; rfl

theorem runVolts_of_pods (h : t.pods = s.pods) : t.runVolts = s.runVolts := by simp only [State.runVolts, pod_of_pods h]

/-- A new core voltage changes the voltage and when it began, and nothing at all where it is the present one. -/
theorem State.setVcore_pwr (s : State) (v : Nat) :
    (s.setVcore v).pwr = if v = s.pwr.vcore then s.pwr else { s.pwr with vcore := v, vcoreWas := s.pwr.vcore, vcoreAt := s.now } := by
  unfold State.setVcore
  split <;> rfl

/-- Settles O35: the pod takes the step, and the voltage is set from the pods as they then stand. -/
theorem clockStepTaken : Obligations.ClockStepTaken := by
  unfold Obligations.ClockStepTaken
  intro s p k hserved hrun hpowered hallowed
  let u := s.setPod p.val { s.pod p.val with step := k }
  have hdoes : Does [.pwr] u u.setVolts := State.setVcore_does u u.runVolts
  have hpods : u.setVolts.pods = u.pods := hdoes.same .pods (by simp)
  refine ⟨u.setVolts, ?_, ((s.setPod_does ..).weaken rfl |>.step hdoes rfl : Does [.pods, .pwr] s _).same, fun j hj => ?_, ?_, ?_⟩
  · show execPodClockStep p k s = _
    rw [execPodClockStep, if_pos (by simp [hserved, hrun, hpowered, hallowed])]
  · rw [pod_of_pods hpods, s.pod_setPod_ne _ hj]
  · rw [pod_of_pods hpods, s.pod_setPod]
  · rw [runVolts_of_pods hpods]
    exact u.setVcore_pwr u.runVolts

end Sys2Proof.Machine
end

section
/-! A granted store of LSU1 into a row that waits for a rewrite (08 R172, 14 R307, R316): the row joins the correctable-error list. -/

namespace Sys2Proof.Machine

/-- A store of a word to byte 0 of PMEM that waits for its grant. -/
def waitingStore : L1Fl := ⟨5, .waitGrant, false, 0x200000000, 3, false, 5, [], false, [], 0, false⟩

/-- Engine 0 of a running pod 0 with that store, while a write-back of the row that holds the word waits too. -/
def storeMeetsRewrite : State where
  pods := [(0, { powered := true, erst := 0 })]
  eng := [(0, { lsu1 := { fl := [waitingStore] } })]
  mem := { rewrite := [(.home 0x200000000, [])] }
  pwr := { boot := .up }

/-- The granted store drops the write-back, and its row is to be visited again (14 R316). -/
theorem storeMeetsRewrite_cel (t : State) (ht : exec (.lsu1RequestGranted 0 0) storeMeetsRewrite = .next t) : t.mem.cel = [.home 0x200000000] := by
  cases ht
  decide

/-- Refutes O20: its frame of a granted store leaves the correctable-error list out of what may change, and a store into a row whose write-back waits puts that
row into the list (14 R316). -/
theorem not_lsu1GrantAndReturn : ¬ Obligations.Lsu1GrantAndReturn := by
  unfold Obligations.Lsu1GrantAndReturn
  rintro ⟨hgranted, -, -⟩
  obtain ⟨-, hstore⟩ := hgranted storeMeetsRewrite 0 waitingStore [] 0x200000000 (by decide) rfl rfl (by simp) (by decide) (by decide) (by decide)
  obtain ⟨t, hexec, hsame, -⟩ := hstore rfl rfl (by decide)
  have hcel : t.mem.cel = [] := hsame .cel (by decide)
  rw [storeMeetsRewrite_cel t hexec] at hcel
  exact absurd hcel (by decide)

end Sys2Proof.Machine
end

section
/-! A fetch from an engine's IMEM that has no effect met no memory error: each would have reset the pod (08 R162, 14 R297, 18 R416). -/

namespace Sys2Proof.Machine

variable {l : List Part} {s t u : State}

/-- The resets that are recorded of each pod (18 R416) are as before. -/
def KeepsResets (s t : State) : Prop := ∀ q, (t.pod q).resetAt = (s.pod q).resetAt

theorem KeepsResets.trans (h : KeepsResets s t) (h' : KeepsResets t u) : KeepsResets s u := fun q => (h' q).trans (h q)

theorem Does.keepsResets (h : Does l s t) (hl : l.contains .pods = false := by rfl) : KeepsResets s t := fun q => by
  have hpods : t.pods = s.pods := h.same .pods (by simpa using hl)
  rw [State.pod, hpods, State.pod]

theorem State.setPod_keepsResets {p : Nat} {x : Pod} (h : x.resetAt = (s.pod p).resetAt) : KeepsResets s (s.setPod p x) := fun q => by
  by_cases hq : q = p
  · rw [hq, State.pod_setPod, h]
  · rw [s.pod_setPod_ne x hq]

theorem State.setErst_keepsResets (s : State) (p : Nat) (v : BitVec 32) : KeepsResets s (s.setErst p v) := by
  have hresets : Does [.od, .eng, .mem, .cel] s ((List.range 32).foldl
      (fun t i => if v.getLsbD i && !(s.pod p).erst.getLsbD i then t.engineReset (32 * p + i) else t) s) :=
    Does.fold (fun t i => Does.ite (fun _ => t.engineReset_does _) fun _ => .refl _ _) _ (.refl _ _)
  exact hresets.keepsResets.trans (State.setPod_keepsResets rfl)

theorem State.loadPod_keepsResets (s : State) (p : Nat) : KeepsResets s (s.loadPod p) := by
  have hheld : KeepsResets s ((s.setErst p 0xFFFFFFFF).storesDone p) := (s.setErst_keepsResets p _).trans (State.storesDone_does ..).keepsResets
  unfold State.loadPod
  extract_lets s1 s2 _ s3 c b s4 s5 m _ s6
  have hcleared : KeepsResets s s3 := (hheld.trans fun _ => rfl : KeepsResets s s2).trans (State.setPod_keepsResets rfl)
  have hsections : Does [.mem, .cel] s3 s4 := Does.fold (fun t x => t.loadSection_does p b x) _ (.refl _ _)
  split
  · exact hcleared
  · split
    · exact hcleared.trans (State.loadFailed_does ..).keepsResets
    · have hloaded : KeepsResets s3 s6 :=
        hsections.keepsResets.trans (s4.loadRegions_does p b).keepsResets |>.trans (State.setPod_keepsResets rfl)
      exact hcleared.trans hloaded |>.trans (s6.setErst_keepsResets p _) |>.trans (State.loadLogged_does ..).keepsResets

/-- A record of resets with one more is another one. -/
theorem recentResets_ne (now : Nat) (l : List Nat) : recentResets now l ≠ l := by
  induction l with
  | nil => simp [recentResets]
  | cons a l ih =>
    intro h
    obtain ⟨hnow, hrest⟩ := List.cons.inj h
    subst hnow
    rw [List.filter_cons_of_pos (by simp [secTicks])] at hrest
    exact ih hrest

/-- A pod reset is recorded. -/
theorem State.podReset_resetAt (s : State) (p cause : Nat) : ((s.podReset p cause).pod p).resetAt = recentResets s.now (s.pod p).resetAt := by
  unfold State.podReset State.podResetWith
  extract_lets near s1 _ s2 s3 dead _ s4 _
  have hrecorded : (s4.pod p).resetAt = near := by rw [State.pod_setPod]
  split
  · rw [State.pod_setPod, hrecorded]
  · rw [s4.loadPod_keepsResets p p, hrecorded]

/-- An uncorrectable byte of a pod's memories leaves its mark: the pod's reset. -/
theorem State.memFailed_resetAt (s : State) {f : RowFail} {p : Nat} (hp : podOf f.row = some p) :
    ((s.memFailed f).pod p).resetAt ≠ (s.pod p).resetAt := by
  unfold State.memFailed
  extract_lets m s1
  rw [hp]
  have hlogged : KeepsResets s s1 := (State.bumpBy_does ..).keepsResets.trans (State.logMemory_does ..).keepsResets
  rw [State.podReset_resetAt, ← hlogged p]
  exact recentResets_ne _ _

/-! Reads of IMEM. -/

theorem imemAddr_row {e n : Nat} (he : e < 1024) (hn : n < 2048) : (memRow (imemAddr e n 0)).1 = imemAddr e n 0 := by
  rw [memRow, imemAddr_kind he hn]
  show imemAddr e n 0 / 16 * 16 = imemAddr e n 0
  unfold imemAddr engBlock
  omega

theorem imemAddr_pod {e n : Nat} (he : e < 1024) (hn : n < 2048) : podOf (imemAddr e n 0) = some (e / 32) := by
  have haddr : imemAddr e n 0 = engBlock + (e / 32 * 0x800000 + e % 32 * 0x8000 + 16 * n) := by simp only [imemAddr]; omega
  have hpod : (e / 32 * 0x800000 + e % 32 * 0x8000 + 16 * n) / 0x800000 = e / 32 := by omega
  have hrange : e / 32 * 0x800000 + e % 32 * 0x8000 + 16 * n < 0x10000000 := by omega
  rw [haddr]
  generalize e / 32 * 0x800000 + e % 32 * 0x8000 + 16 * n = k at hpod hrange
  have hbelow : ¬(engBlock + k < pmemBase + 0x4000000) := by unfold engBlock pmemBase; omega
  rw [podOf, if_neg (by simp [hbelow]), if_pos (by simp [hrange]), Nat.add_sub_cancel_left, hpod]

/-- What a read of IMEM cannot correct lies in the row that it reads. -/
theorem Memory.readRow_failRow {m : Memory} {a n : Nat} {f : RowFail} (hk : memKind a = .imem) (h : (m.readRow a n).fail = some f) : f.row = (memRow a).1 := by
  rw [Memory.readRow, if_neg (by rw [hk]; decide), Memory.readInner] at h
  obtain ⟨i, -, hi⟩ := Option.map_eq_some_iff.1 h
  rw [← hi]

/-- A read of IMEM that changes nothing meets no uncorrectable byte, and what it corrects changes nothing. -/
theorem State.readMem_unmoved {a n p : Nat} (hk : memKind a = .imem) (hp : podOf (memRow a).1 = some p) (h : (s.readMem a n).1 = s) :
    (s.mem.readRow a n).fail = none ∧ s.noteRead a (s.mem.readRow a n) = s := by
  unfold State.readMem at h
  dsimp only at h
  split at h
  case h_2 hfail => exact ⟨hfail, h⟩
  case h_1 f hfail =>
    have hmark := (s.noteRead a (s.mem.readRow a n)).memFailed_resetAt (f := f) (by rw [Memory.readRow_failRow hk hfail, hp])
    rw [(s.noteRead_does ..).keepsResets] at hmark
    exact absurd (congrArg (fun t : State => (t.pod p).resetAt) h) hmark

/-- What a read corrects is counted and listed whatever Pestle's state is. -/
theorem State.noteRead_setPst (s : State) (a : Nat) (r : RowRead) (x : Pestle) :
    ({ s with pst := x } : State).noteRead a r = { s.noteRead a r with pst := x } := by
  obtain ⟨data, inner, outer, fail⟩ := r
  cases inner <;> cases outer <;> rfl

/-- A read of IMEM that changes nothing changes nothing whatever Pestle's state is. -/
theorem State.readMem_setPst {a n p : Nat} (hk : memKind a = .imem) (hp : podOf (memRow a).1 = some p) (h : (s.readMem a n).1 = s) (x : Pestle) :
    (({ s with pst := x } : State).readMem a n).1 = { s with pst := x } := by
  obtain ⟨hfail, hnote⟩ := State.readMem_unmoved hk hp h
  simp only [State.readMem, State.noteRead_setPst, hfail, hnote]

/-- An engine of a pod fetches as quietly once its message stands in its doorbell (18 R415). -/
theorem State.fetchesQuietly_ring {e : Nat} (he : e < 1024) (h : s.fetchesQuietly e) (msg : W24) : (s.ring e msg).fetchesQuietly e := by
  intro y n hy hn
  rw [State.ring, if_pos he] at hy ⊢
  have hquiet := h y n hy hn
  rw [State.fetch, if_pos he, asBundle_state] at hquiet ⊢
  exact State.readMem_setPst (imemAddr_kind he hn) (by rw [imemAddr_row he hn, imemAddr_pod he hn]) hquiet _

end Sys2Proof.Machine
end

section
/-! A cycle whose moves go to no trigger port (08 R153, R155, 09 R194): what they write, and that the rest of the cycle leaves it. -/

namespace Sys2Proof.Machine

variable {s : State} {e : Nat}

/-- What a bundle's moves write, in slot order. -/
def State.written (s : State) (e : Nat) (l : List (Nat × L48)) : State :=
  l.foldl (fun t m => t.writePort e (s.engine e).lsu1.rsel.toNat m.1 m.2) s

/-- An engine after the rest of the cycle of a bundle without triggers; `fb` is the fetch window that a jump would put in force. -/
def Engine.passed (x : Engine) (e : Nat) (fb : BitVec 25) : Engine :=
  let z := x.sequence none
  { z.advance with fbase := if z.ctl.bubble && 1024 ≤ e then fb else z.fbase }

/-- An engine as its bundle issues: what is due at count 2 has acted, and the bundle has left the prefetch queue. -/
def State.issuing (s : State) (e : Nat) : Engine := ((s.engine e).atTwo s.tb.tick.toNat s.now).popBundle

theorem State.issuing_held (s : State) (e : Nat) : (s.issuing e).held = (s.engine e).held := by
  rw [State.issuing, Engine.popBundle_held, Engine.atTwo_held]

theorem Engine.passed_held (x : Engine) (e : Nat) (fb : BitVec 25) : (x.passed e fb).held = x.held := by
  have hfbase (y : Engine) (b : BitVec 25) : ({ y with fbase := b } : Engine).held = y.held := rfl
  simp only [Engine.passed, hfbase, Engine.advance_held, Engine.sequence_held]

theorem Engine.refilled_held (x : Engine) (q : List (Nat × BitVec 128)) : ({ x with pfq := q } : Engine).held = x.held := rfl

theorem Ctl.jump_pend (x : Ctl) (a : BitVec 11) : (x.jump a).pend = x.pend := by
  unfold Ctl.jump
  split <;> rfl

theorem Ctl.modeStep_bubble (x : Ctl) : x.modeStep.bubble = x.bubble := by
  unfold Ctl.modeStep
  split
  · rfl
  · split <;> rfl

/-- Without a jump that is taken, the fetch window stays. -/
theorem Engine.passed_fbase (x : Engine) (e : Nat) (fb : BitVec 25) (h : (x.passed e fb).ctl.bubble = false) : (x.passed e fb).fbase = x.fbase := by
  have hbubble : (x.sequence none).ctl.bubble = false := (Ctl.modeStep_bubble _).symm.trans h
  simp only [Engine.passed, hbubble]
  rfl

/-- The end of a cycle without triggers. -/
theorem State.endCycle_written {l : List (Nat × L48)} (h : ∀ m ∈ l, isTrigger m.1 = false) :
    s.endCycle e (some l) = (s.written e l).setEngine e (((s.written e l).engine e).passed e ((s.written e l).pst.fbase.get 0 (e - 1024))) := by
  have hwrites : (l.filter fun m => !isTrigger m.1) = l := List.filter_eq_self.2 fun m hm => by simp [h m hm]
  have htrigs : (l.filter fun m => isTrigger m.1) = [] := List.filter_eq_nil_iff.2 fun m hm => by simp [h m hm]
  simp [State.endCycle, hwrites, htrigs, State.written, Engine.passed]

/-- Where the engine fetches quietly after such moves, the fetch that ends the cycle only fills its prefetch queue. -/
theorem State.issueMoves_written {l : List (Nat × L48)} (h : ∀ m ∈ l, isTrigger m.1 = false) {t : State}
    (ht : (s.setEngine e (s.engine e).popBundle).written e l = t) (hq : t.fetchesQuietly e) :
    ∃ fb q, s.issueMoves e l = t.setEngine e { (t.engine e).passed e fb with pfq := q } := by
  rw [State.issueMoves, State.endCycle_written h, ht]
  exact ⟨_, State.prefetch_quiet hq _ (Engine.passed_fbase _ e _)⟩

/-- A move that meets no port exception is performed at an engine that issues. -/
theorem State.issue_eq_issueMoves {n : Nat} {v : L48} (h : s.issues e)
    (hf : moveFault ((s.engine e).ctl.mode.getLsbD 3) (s.engine e).rpt.n.val (.imm v) n = none) :
    s.issue e n v = (s.setEngine e ((s.engine e).atTwo s.tb.tick.toNat s.now)).issueMoves e [(n, v)] := by
  rw [State.issue_eq h hf, State.issueMoves, State.engine_setEngine, State.setEngine_setEngine]

/-- Only a port that is no destination, a supervisor port in task mode and a REP too deep make a move of an immediate fault (12 R252). -/
theorem moveFault_imm {n : Nat} {sup : Bool} (levels : Nat) (v : L48) (hdest : isDest n = true) (hsup : isSuper n = true → sup = true)
    (htrigger : isTrigger n = false) : moveFault sup levels (.imm v) n = none := by
  have hrep : n ≠ bRPT := fun hn => by rw [hn] at htrigger; exact absurd htrigger (by decide)
  have hzero : isSource 0 = true ∧ isSuper 0 = false := by decide
  cases hn : isSuper n <;> simp_all [moveFault]

/-! Ports that the engine's own registers hold. -/

/-- The ports of the doorbell, of the ring and of the predictor, whose writes reach beyond their engine's registers (09 R200, R202). -/
def sharedPorts : List Nat := [0x2AF, 0x3A8, 0x3A9, 0x3AA]

theorem State.writePort_own {n : Nat} (h : n ∉ sharedPorts) (s : State) (e sel : Nat) (v : L48) :
    s.writePort e sel n v = s.setEngine e ((s.engine e).write sel n v) := by
  simp only [sharedPorts, List.mem_cons, List.not_mem_nil, or_false, not_or] at h
  obtain ⟨hdoor, hbase, hsize, hpred⟩ := h
  rw [State.writePort, if_neg hdoor, if_neg hbase, if_neg hsize, if_neg hpred]

/-- An engine after moves to its own ports, in slot order. -/
def Engine.writes (x : Engine) (l : List (Nat × L48)) : Engine := l.foldl (fun y m => y.write x.lsu1.rsel.toNat m.1 m.2) x

theorem State.written_own (x : Engine) {l : List (Nat × L48)} (h : ∀ m ∈ l, m.1 ∉ sharedPorts) : (s.setEngine e x).written e l = s.setEngine e (x.writes l) := by
  have hfold (sel : Nat) : ∀ (y : Engine), l.foldl (fun t m => t.writePort e sel m.1 m.2) (s.setEngine e y) =
      s.setEngine e (l.foldl (fun y m => y.write sel m.1 m.2) y) := by
    induction l with
    | nil => exact fun y => rfl
    | cons m l ih =>
      intro y
      rw [List.foldl_cons, List.foldl_cons, State.writePort_own (h m List.mem_cons_self), State.engine_setEngine, State.setEngine_setEngine]
      exact ih (fun m hm => h m (List.mem_cons_of_mem _ hm)) _
  rw [State.written, State.engine_setEngine]
  exact hfold _ x

theorem Engine.write_fbase (x : Engine) (sel n : Nat) (v : L48) : (x.write sel n v).fbase = x.fbase := by
  simp only [Engine.write, Engine.writeUnit, apply_ite Engine.fbase, ite_self]

theorem Engine.writes_fbase (x : Engine) (l : List (Nat × L48)) : (x.writes l).fbase = x.fbase :=
  foldl_keeps Engine.fbase (fun y (m : Nat × L48) => y.write x.lsu1.rsel.toNat m.1 m.2) (fun y m => y.write_fbase _ m.1 m.2) l x

/-- A bundle whose moves go to the engine's own ports changes that engine alone. -/
theorem State.issueMoves_own (hq : s.fetchesQuietly e) {x : Engine} (hx : x.fbase = (s.engine e).fbase) {l : List (Nat × L48)}
    (h : ∀ m ∈ l, isTrigger m.1 = false ∧ m.1 ∉ sharedPorts) :
    ∃ fb q, (s.setEngine e x).issueMoves e l = s.setEngine e { (x.popBundle.writes l).passed e fb with pfq := q } := by
  have hwritten : ((s.setEngine e x).setEngine e ((s.setEngine e x).engine e).popBundle).written e l = s.setEngine e (x.popBundle.writes l) := by
    rw [State.engine_setEngine, State.setEngine_setEngine, State.written_own _ fun m hm => (h m hm).2]
  obtain ⟨fb, q, hissue⟩ := State.issueMoves_written (fun m hm => (h m hm).1) hwritten (State.fetchesQuietly_set hq _ ((Engine.writes_fbase ..).trans hx))
  exact ⟨fb, q, by rw [hissue, State.engine_setEngine, State.setEngine_setEngine]⟩

end Sys2Proof.Machine
end

section
/-! ENGINE_MOVE with moves to registers (08 R153, R155, 09 R187): the bundle's surviving moves have different destinations, and each register takes its own. -/

namespace Sys2Proof.Machine

variable {s : State} {e : Nat}

/-! The moves of a bundle. -/

theorem mem_of_survivors {l : List Slot} {m : Slot} (h : m ∈ survivors l) : m ∈ l := by
  induction l with
  | nil => exact h
  | cons a l ih =>
    rw [survivors] at h
    split at h
    · exact List.mem_cons_of_mem _ (ih h)
    · exact (List.mem_cons.1 h).elim (fun hm => hm ▸ List.mem_cons_self) fun hm => List.mem_cons_of_mem _ (ih hm)

/-- Of the moves to one destination one survives (08 R155). -/
theorem survivors_distinct (l : List Slot) : (survivors l).Pairwise fun a b => a.dst ≠ b.dst := by
  induction l with
  | nil => exact .nil
  | cons a l ih =>
    rw [survivors]
    split
    case isTrue => exact ih
    case isFalse h =>
      refine List.pairwise_cons.2 ⟨fun b hb hdst => h ?_, ih⟩
      exact List.any_eq_true.2 ⟨b, mem_of_survivors hb, by rw [hdst]; exact decide_eq_true rfl⟩

/-- A bundle without a fault that stands in the prefetch queue issues with its surviving moves, whose values are those at the start of the cycle. -/
theorem State.issueBundle_eq (h : s.issues e) {b : BitVec 128} (hb : (s.engine e).queued (s.engine e).ctl.pc.toNat = some b)
    (hf : (decodeBundle b).faultOf (s.engine e).ctl.guards ((s.engine e).ctl.mode.getLsbD 3) (s.engine e).rpt.n.val = none) :
    let x := (s.engine e).atTwo s.tb.tick.toNat s.now
    s.issueBundle e = (s.setEngine e x).issueMoves e (((decodeBundle b).live x.ctl.guards).map fun m => (m.dst, x.value m.src)) := by
  obtain ⟨hready, hstill, -⟩ := h
  have hahead : s.ahead e = s := by simp [State.ahead, hb]
  simp only [State.issueBundle, State.passBubble_ready hready, hready, if_true, hahead, hb, hf, State.beginCycle_still hstill, State.engine_setEngine]

/-! Registers. -/

/-- The port of a register (09 R188). -/
def IsRegister (n : Nat) : Prop := 0x20 ≤ n ∧ n < 0x60

theorem IsRegister.plain {n : Nat} (h : IsRegister n) : isTrigger n = false ∧ n ∉ sharedPorts := by
  obtain ⟨hlow, hhigh⟩ := h
  have hblock : n / 64 = 0 ∨ n / 64 = 1 := by omega
  refine ⟨?_, by simp [sharedPorts]; omega⟩
  obtain hblock | hblock := hblock <;> simp [isTrigger, hblock]

theorem Engine.write_register (x : Engine) (sel : Nat) {n : Nat} (h : IsRegister n) (v : L48) : x.write sel n v =
    if n < 0x40 then { x with ga := x.ga.set (n - 0x20) (wordOf v) } else { x with gb := x.gb.set (n - 0x40) (wordOf v) } := by
  obtain ⟨hlow, hhigh⟩ := h
  rw [Engine.write, if_neg (by omega), if_neg (by omega), if_neg (by omega), if_neg (by omega), if_pos hhigh]

theorem Engine.read_register (x : Engine) {n : Nat} (h : IsRegister n) :
    x.read n = longOf (if n < 0x40 then x.ga.get 0 (n - 0x20) else x.gb.get 0 (n - 0x40)) := by
  obtain ⟨hlow, hhigh⟩ := h
  rw [Engine.read, if_neg (by omega), if_neg (by omega), if_neg (by omega), if_neg (by omega), if_pos hhigh]
  split <;> rfl

/-- A write of a register changes what an engine holds in its registers alone. -/
theorem Engine.write_register_held (x : Engine) (sel : Nat) {n : Nat} (h : IsRegister n) (v : L48) (ga gb : Tab W24) :
    { (x.write sel n v).held with ga := ga, gb := gb } = { x.held with ga := ga, gb := gb } := by
  rw [x.write_register sel h]
  split <;> rfl

theorem Engine.read_write_register (x : Engine) (sel : Nat) {m n : Nat} (hm : IsRegister m) (hn : IsRegister n) (v : L48) :
    (x.write sel m v).read n = if m = n then longOf (wordOf v) else x.read n := by
  have hm' := hm
  have hn' := hn
  unfold IsRegister at hm' hn'
  rw [Engine.read_register _ hn, Engine.read_register _ hn, x.write_register sel hm]
  by_cases hmn : m = n
  · subst hmn
    split <;> simp_all
  · rw [if_neg hmn]
    by_cases hlm : m < 0x40 <;> by_cases hln : n < 0x40 <;> simp only [hlm, hln, if_true, if_false]
    · rw [Tab.get_set_ne _ _ _ (by omega)]
    · rw [Tab.get_set_ne _ _ _ (by omega)]

/-- Writes of registers change what an engine holds in its registers alone. -/
theorem Engine.writes_registers_held (x : Engine) {l : List (Nat × L48)} (h : ∀ m ∈ l, IsRegister m.1) (ga gb : Tab W24) :
    { (x.writes l).held with ga := ga, gb := gb } = { x.held with ga := ga, gb := gb } :=
  List.foldlRecOn (motive := fun y : Engine => { y.held with ga := ga, gb := gb } = { x.held with ga := ga, gb := gb }) l _ rfl
    fun y hy m hm => (y.write_register_held _ (h m hm) m.2 ga gb).trans hy

/-- Writes of different registers: each takes the word written to it, and every other one stays. -/
theorem Engine.writes_read (x : Engine) {l : List (Nat × L48)} (h : ∀ m ∈ l, IsRegister m.1) (hd : l.Pairwise fun a b => a.1 ≠ b.1) {n : Nat}
    (hn : IsRegister n) : (x.writes l).read n = ((l.find? (·.1 = n)).map fun m => longOf (wordOf m.2)).getD (x.read n) := by
  unfold Engine.writes
  generalize x.lsu1.rsel.toNat = sel
  induction l generalizing x with
  | nil => rfl
  | cons m l ih =>
    obtain ⟨hm, hl⟩ := List.forall_mem_cons.1 h
    obtain ⟨hne, hd⟩ := List.pairwise_cons.1 hd
    rw [List.foldl_cons, ih _ hl hd, x.read_write_register sel hm hn]
    by_cases hmn : m.1 = n
    · have hnone : l.find? (·.1 = n) = none := List.find?_eq_none.2 fun b hb => by simpa using fun hbn => hne b hb (hmn.trans hbn.symm)
      simp [hmn, hnone]
    · simp [hmn]

theorem Engine.passed_read (x : Engine) (fb : BitVec 25) (q : List (Nat × BitVec 128)) {n : Nat} (hn : IsRegister n) :
    ({ x.passed e fb with pfq := q } : Engine).read n = x.read n := by
  rw [Engine.read_register _ hn, Engine.read_register _ hn]
  rfl

/-- Settles O27: the moves that survive go to different registers, and what follows in the cycle leaves the registers and all else that is held. -/
theorem bundleMovesRegisters : Obligations.BundleMovesRegisters := by
  unfold Obligations.BundleMovesRegisters
  intro s e b hissues x0 moves hqueued hfault hdst
  let l := moves.map fun m => (m.dst, x0.value m.src)
  have hl : ∀ m ∈ l, IsRegister m.1 := fun m hm => by
    obtain ⟨a, ha, rfl⟩ := List.mem_map.1 hm
    exact hdst a ha
  have hdistinct : l.Pairwise fun a b => a.1 ≠ b.1 := List.pairwise_map.2 (survivors_distinct _)
  obtain ⟨fb, q, hissue⟩ := State.issueMoves_own hissues.2.2 (x := x0) rfl fun m hm => (hl m hm).plain
  have hexec : exec (.engineMove e) s = .next (s.setEngine e.val { (x0.popBundle.writes l).passed e.val fb with pfq := q }) :=
    congrArg Host.Outcome.next ((State.issueBundle_eq hissues hqueued hfault).trans hissue)
  refine ⟨_, hexec, .set .., ?_, fun n hlow hhigh => ?_⟩
  · rw [State.engine_setEngine, Engine.refilled_held, Engine.passed_held, Engine.writes_registers_held _ hl, Engine.popBundle_held]
    rfl
  · rw [State.engine_setEngine, Engine.passed_read _ _ _ ⟨hlow, hhigh⟩, Engine.writes_read _ hl hdistinct ⟨hlow, hhigh⟩, List.find?_map, Option.map_map]
    change ((moves.find? (·.dst = n)).map _).getD (x0.read n) = _
    cases moves.find? (·.dst = n) <;> rfl

end Sys2Proof.Machine
end

section
/-! Moves to the ports of chained state (09 R194 to R198): what stands in a unit after a cycle in which such a port was written. -/

namespace Sys2Proof.Machine

theorem wordOf_longOf (w : W24) : wordOf (longOf w) = w := by
  refine BitVec.eq_of_getLsbD_eq fun i hi => ?_
  rw [wordOf, longOf, BitVec.getLsbD_setWidth, BitVec.getLsbD_signExtend]
  have hlong : i < 48 := by omega
  simp [hi, hlong]

theorem wordOf_bit (v : L48) {i : Nat} (hi : i < 24) : (wordOf v).getLsbD i = v.getLsbD i := by
  simp [wordOf, hi]

/-! FLG of an ALU (09 R195). -/

/-- SV falls where a 1 is written to it. -/
theorem Alu.writeFlg_sv (x : Alu) (v : W24) : (x.writeFlg v).flg.getLsbD 4 = (x.flg.getLsbD 4 && !v.getLsbD 4) := by
  simp only [Alu.writeFlg, BitVec.getLsbD_ofNat]
  rw [show (16 : Nat) = 2 ^ 4 from rfl, Nat.testBit_two_pow_mul_add _ (Nat.mod_lt _ (by decide))]
  cases x.flg.getLsbD 4 && !v.getLsbD 4 <;> simp [bit01]

/-- Z, N, C and V stand as written. -/
theorem Alu.writeFlg_bit (x : Alu) (v : W24) {i : Nat} (hi : i < 4) : (x.writeFlg v).flg.getLsbD i = v.getLsbD i := by
  simp only [Alu.writeFlg, BitVec.getLsbD_ofNat]
  rw [show (16 : Nat) = 2 ^ 4 from rfl, Nat.testBit_two_pow_mul_add _ (Nat.mod_lt _ (by decide))]
  rw [if_pos hi, Nat.testBit_mod_two_pow]
  simp [hi, Nat.lt_succ_of_lt hi, BitVec.getLsbD]

/-! Operations in flight that no longer change the state that they set. -/

/-- MAC operations triggered before such a move leave accumulator and flags; a set of SV that the move met stands. -/
theorem Mac.advance_kept (x : Mac) (h : ∀ f ∈ x.fl, f.keep = true) :
    x.advance.acc = x.acc ∧ x.advance.v = x.v ∧ x.advance.sv = (x.sv || x.sets) := by
  unfold Mac.advance
  refine List.foldlRecOn (motive := fun y : Mac => y.acc = x.acc ∧ y.v = x.v ∧ y.sv = (x.sv || x.sets)) _ _ ⟨rfl, rfl, rfl⟩ fun y hy f hf => ?_
  obtain ⟨g, hg, rfl⟩ := List.mem_map.1 (List.mem_filter.1 hf).1
  rw [Mac.complete, if_pos (h g hg)]
  exact hy

theorem Mac.chained_kept (x : Mac) : ∀ f ∈ x.chained.fl, f.keep = true := fun f hf => by
  obtain ⟨g, -, rfl⟩ := List.mem_map.1 hf
  rfl

/-- CHK operations triggered before such a move leave the remainder. -/
theorem Chk.writeCrc_advance (x : Chk) (v : BitVec 32) : (x.writeCrc v).advance.crc = v := by
  unfold Chk.advance
  refine List.foldlRecOn (motive := fun y : Chk => y.crc = v) _ _ rfl fun y hy f hf => ?_
  obtain ⟨g, hg, rfl⟩ := List.mem_map.1 (List.mem_filter.1 hf).1
  obtain ⟨f, -, rfl⟩ := List.mem_map.1 hg
  unfold Chk.complete
  split
  · exact hy
  · exact hy

/-- A division triggered before such a move leaves the flags; a set of SDZ that the move met stands. -/
theorem Div_.advance_kept (x : Div_) (h : ∀ f ∈ x.fl, f.keep = true) :
    x.advance.v = x.v ∧ x.advance.dz = x.dz ∧ x.advance.sdz = (x.sdz || x.sets) := by
  unfold Div_.advance
  dsimp only
  cases hfl : x.fl with
  | none => exact ⟨rfl, rfl, rfl⟩
  | some f =>
    dsimp only
    split
    · exact ⟨rfl, rfl, rfl⟩
    · rw [if_pos (h f hfl)]
      exact ⟨rfl, rfl, rfl⟩

theorem Div_.writeFlg_kept (x : Div_) (v : W24) : ∀ f ∈ (x.writeFlg v).fl, f.keep = true := fun f hf => by
  obtain ⟨g, -, rfl⟩ := Option.map_eq_some_iff.1 hf
  rfl

/-! What a MAC operation that completes in the cycle leaves where the move does not write. -/

theorem Mac.chained_acc (x : Mac) : x.chained.acc = x.ending.elim x.acc fun f => if f.form = 3 then x.acc else f.val := by
  unfold Mac.chained
  cases x.ending <;> rfl

theorem Mac.chained_o (x : Mac) : x.chained.o = x.o := by
  unfold Mac.chained
  cases x.ending <;> rfl

theorem Mac.chained_sets (x : Mac) : x.chained.sets = (x.sets || x.ending.any (·.v)) := by
  unfold Mac.chained
  cases x.ending
  · exact (Bool.or_false _).symm
  · rfl

/-! CHK.CFG (09 R198). -/

/-- A CFG without PRESET sets its fields. -/
theorem Chk.writeCfg_fields (x : Chk) (v : W24) (h : ¬(1 ≤ v.toNat / 256 % 8 ∧ v.toNat / 256 % 8 ≤ 6)) :
    (x.writeCfg v).cfg = v.toNat % 256 ∧ (x.writeCfg v).poly = x.poly ∧ (x.writeCfg v).o = x.o := by
  have hpreset : ¬(decide (1 ≤ bits v.toNat 8 3) && decide (bits v.toNat 8 3 ≤ 6)) = true := by
    rwa [Bool.and_eq_true, decide_eq_true_iff, decide_eq_true_iff]
  rw [Chk.writeCfg, if_neg hpreset]
  refine ⟨?_, rfl, rfl⟩
  have hbit (i : Nat) : bit01 (v.getLsbD i) = v.toNat / 2 ^ i % 2 := by
    rw [BitVec.getLsbD, Nat.testBit_eq_decide_div_mod_eq]
    rcases Nat.mod_two_eq_zero_or_one (v.toNat / 2 ^ i) with h | h <;> rw [h] <;> rfl
  simp only [Chk.cfg, hbit, BitVec.toNat_setWidth]
  omega

end Sys2Proof.Machine
end

section
/-! CTL_MODE_WRITE, CTL_DOOR_WRITE, CHK_CFG_WRITE and CHAINED_STATE_WRITE (08 R166, 09 R194 to R200, 12 R249, R274). -/

namespace Sys2Proof.Machine

variable {s : State} {e : EngN}

/-- Any engine may write the port by a move, and its own registers alone take the value. -/
def isPlainControl (n : Nat) : Bool := isDest n && !isSuper n && !isTrigger n && !sharedPorts.contains n

/-- A command that is such a move: the engine as its bundle issues takes the value, and the rest of the cycle passes. -/
theorem EngineDoes.of_write {c : Instr} {n : Nat} {v : L48} {h : Held} {p : Engine → Prop} (hissues : s.issues e.val) (hn : isPlainControl n = true)
    (hc : exec c s = .next (s.issue e.val n v))
    (hheld : ((s.issuing e.val).write (s.issuing e.val).lsu1.rsel.toNat n v).held = h)
    (hp : ∀ fb q, p { ((s.issuing e.val).write (s.issuing e.val).lsu1.rsel.toNat n v).passed e.val fb with pfq := q }) : EngineDoes s e c h p := by
  simp only [isPlainControl, Bool.and_eq_true, Bool.not_eq_true', List.contains_eq_mem, decide_eq_false_iff_not] at hn
  obtain ⟨⟨⟨hdest, hsuper⟩, htrigger⟩, hown⟩ := hn
  have hfault := moveFault_imm (s.engine e.val).rpt.n.val v hdest (sup := (s.engine e.val).ctl.mode.getLsbD 3) (by simp [hsuper]) htrigger
  obtain ⟨fb, q, hissue⟩ := State.issueMoves_own hissues.2.2 (x := (s.engine e.val).atTwo s.tb.tick.toNat s.now) rfl
    (l := [(n, v)]) (by simp [htrigger, hown])
  refine ⟨_, hc.trans (congrArg Host.Outcome.next ((State.issue_eq_issueMoves hissues hfault).trans hissue)), .set .., ?_, ?_⟩
  · rw [State.engine_setEngine, Engine.refilled_held, Engine.passed_held]
    exact hheld
  · rw [State.engine_setEngine]
    exact hp fb q

/-- A move to CHAINED_STATE_WRITE's ports. -/
theorem exec_chainedStateWrite {port : BitVec 10} (v : L48) (h : chainedPorts.contains port.toNat = true) :
    exec (.chainedStateWrite e port v) s = .next (s.issue e.val port.toNat v) :=
  congrArg Host.Outcome.next (if_pos h)

/-- A mode that a move of the cycle writes waits for two more cycles (08 R166). -/
theorem Engine.passed_pend {x : Engine} {m : BitVec 4} (h : x.ctl.pend = some (3, m)) (e : Nat) (fb : BitVec 25) :
    (x.passed e fb).ctl.pend = some (2, m) := by
  show ((x.ctl.jump _).modeStep).pend = _
  rw [Ctl.modeStep, Ctl.jump_pend, h]
  rfl

/-- The new mode (12 R249). -/
theorem ctlModeWrite_waits (h : s.issues e.val) (v : W24) :
    EngineDoes s e (.ctlModeWrite e v) (s.engine e.val).held fun x => x.ctl.pend = some (2,
      (if (s.engine e.val).ctl.mode.getLsbD 3 then v.extractLsb' 6 2 else (s.engine e.val).ctl.mode.extractLsb' 2 2) ++ v.extractLsb' 1 2) := by
  refine .of_write h (n := 0x2A8) (v := longOf v) rfl rfl (s.issuing_held e.val) fun fb q => ?_
  refine Engine.passed_pend ?_ e.val fb
  show ((s.engine e.val).ctl.writeMode (wordOf (longOf v))).pend = _
  rw [wordOf_longOf]
  rfl

/-- The doorbell of a supervisor (12 R274, 18 R415). -/
theorem ctlDoorWrite_rings (h : s.issues e.val) (v : W24) (hsup : (s.engine e.val).ctl.mode.getLsbD 3 = true) (he : e.val < 1024) :
    ∃ t, exec (.ctlDoorWrite e v) s = .next t ∧ SameBut [.eng, .pst] s t ∧ (t.engine e.val).held = (s.engine e.val).held ∧
      t.pst = { s.pst with doors := s.pst.doors.set e.val ⟨true, (s.door e.val).ovr || (s.door e.val).full, v⟩ } := by
  let s1 := s.setEngine e.val (s.issuing e.val)
  have hquiet : s1.fetchesQuietly e.val := State.fetchesQuietly_set h.2.2 _ rfl
  have hwritten : ((s.setEngine e.val ((s.engine e.val).atTwo s.tb.tick.toNat s.now)).setEngine e.val (s.issuing e.val)).written e.val [(0x2AF, longOf v)] =
      s1.ring e.val v := by
    rw [State.setEngine_setEngine]
    exact congrArg (s1.ring e.val) (wordOf_longOf v)
  obtain ⟨fb, q, hissue⟩ := State.issueMoves_written (s := s.setEngine e.val ((s.engine e.val).atTwo s.tb.tick.toNat s.now)) (l := [(0x2AF, longOf v)])
    (by simp [isTrigger]) (by rw [State.engine_setEngine]; exact hwritten) (State.fetchesQuietly_ring he hquiet v)
  have hfault := moveFault_imm (s.engine e.val).rpt.n.val (longOf v) (n := 0x2AF) (by decide) (fun _ => hsup) (by decide)
  refine ⟨_, congrArg Host.Outcome.next ((State.issue_eq_issueMoves h hfault).trans hissue), ?_, ?_, ?_⟩
  · exact (((s.setEngine_does ..).weaken rfl).step (s1.ring_does ..) rfl |>.step (State.setEngine_does ..) rfl : Does [.eng, .pst] s _).same
  · rw [State.engine_setEngine, Engine.refilled_held, Engine.passed_held, State.ring, if_pos he]
    exact (congrArg Engine.held (s.engine_setEngine e.val _)).trans (s.issuing_held e.val)
  · rw [State.setEngine_pst, State.ring, if_pos he]
    rfl

/-- A CFG without PRESET. -/
theorem chkCfgWrite_fields (h : s.issues e.val) (v : W24) (hv : ¬(1 ≤ v.toNat / 256 % 8 ∧ v.toNat / 256 % 8 ≤ 6)) :
    EngineDoes s e (.chkCfgWrite e v) { (s.engine e.val).held with chkCfg := v.toNat % 256 } fun _ => True := by
  refine .of_write h (n := 0x1A9) (v := longOf v) rfl rfl ?_ fun _ _ => trivial
  obtain ⟨hcfg, hpoly, ho⟩ := (s.issuing e.val).chk.writeCfg_fields v hv
  rw [← s.issuing_held e.val]
  show ({ s.issuing e.val with chk := (s.issuing e.val).chk.writeCfg (wordOf (longOf v)) } : Engine).held = _
  simp only [Engine.held, wordOf_longOf, hcfg, hpoly, ho]

/-- A CFG of PRESET 6 (09 R198). -/
theorem chkCfgWrite_preset (h : s.issues e.val) (v : W24) (hv : v.toNat / 256 % 8 = 6) :
    EngineDoes s e (.chkCfgWrite e v) { (s.engine e.val).held with chkCfg := 31 + 32 + 64 + 128, chkPoly := 0x1EDC6F41 } fun x =>
      x.chk.crc = 0xFFFFFFFF := by
  have hwrite (y : Chk) : y.writeCfg (wordOf (longOf v)) =
      ({ y with wm1 := 31, poly := 0x1EDC6F41, rin := true, rout := true, xo := true } : Chk).writeCrc 0xFFFFFFFF := by
    rw [wordOf_longOf, Chk.writeCfg, show bits v.toNat 8 3 = 6 from hv]
    rfl
  refine .of_write h (n := 0x1A9) (v := longOf v) rfl rfl ?_ fun fb q => ?_
  · rw [← s.issuing_held e.val]
    show ({ s.issuing e.val with chk := (s.issuing e.val).chk.writeCfg (wordOf (longOf v)) } : Engine).held = _
    rw [hwrite]
    rfl
  · show ((s.issuing e.val).chk.writeCfg (wordOf (longOf v))).advance.crc = _
    rw [hwrite, Chk.writeCrc_advance]

/-- Of the MAC an engine holds the latch alone. -/
theorem Engine.held_setMac (x : Engine) {y : Mac} (h : y.o = x.mac.o) : ({ x with mac := y } : Engine).held = x.held := by
  simp only [Engine.held, h]

/-- MAC.FLG (09 R196). -/
theorem macFlgWrite_flags (h : s.issues e.val) (v : L48) :
    EngineDoes s e (.chainedStateWrite e 0x128 v) (s.engine e.val).held fun x => x.mac.v = v.getLsbD 0 ∧
      x.mac.sv = (((s.engine e.val).mac.sv && !v.getLsbD 1) || (s.engine e.val).mac.sets || (s.engine e.val).mac.ending.any (·.v)) := by
  let y := (s.engine e.val).mac
  refine .of_write h (n := 0x128) rfl (exec_chainedStateWrite v rfl) ?_ fun fb q => ?_
  · exact ((s.issuing e.val).held_setMac y.chained_o).trans (s.issuing_held e.val)
  · obtain ⟨-, hv, hsv⟩ := (y.writeFlg (wordOf v)).advance_kept y.chained_kept
    refine ⟨hv.trans (wordOf_bit v (by decide)), hsv.trans ?_⟩
    show ((y.sv && !(wordOf v).getLsbD 1) || y.chained.sets) = _
    rw [y.chained_sets, wordOf_bit v (by decide), Bool.or_assoc]

/-- ACL, ACM and ACH (09 R197). -/
theorem accWrite_acc {port : BitVec 10} {part : Nat} (h : s.issues e.val) (v : L48) (hport : chainedPorts.contains port.toNat = true)
    (hplain : isPlainControl port.toNat = true)
    (hwrite : ∀ (x : Engine) (sel : Nat), x.write sel port.toNat v = { x with mac := x.mac.writeAcc part (wordOf v) }) :
    EngineDoes s e (.chainedStateWrite e port v) (s.engine e.val).held fun x => x.mac.acc = ((s.engine e.val).mac.writeAcc part (wordOf v)).acc := by
  let y := (s.engine e.val).mac
  refine .of_write h hplain (exec_chainedStateWrite v hport) ?_ fun fb q => ?_
  · rw [hwrite]
    exact ((s.issuing e.val).held_setMac (y := y.writeAcc part (wordOf v)) y.chained_o).trans (s.issuing_held e.val)
  · rw [hwrite]
    exact ((y.writeAcc part (wordOf v)).advance_kept y.chained_kept).1

/-- DIV.FLG (09 R196). -/
theorem divFlgWrite_flags (h : s.issues e.val) (v : L48) :
    EngineDoes s e (.chainedStateWrite e 0x1E8 v) (s.engine e.val).held fun x => x.div.dz = v.getLsbD 0 ∧ x.div.v = v.getLsbD 1 ∧
      x.div.sdz = (((s.engine e.val).div.sdz && !v.getLsbD 2) || (s.engine e.val).div.sets ||
        (s.engine e.val).div.fl.any fun f => f.k = 1 && !f.keep && f.dz) := by
  let y := (s.engine e.val).div
  refine .of_write h (n := 0x1E8) rfl (exec_chainedStateWrite v rfl) (s.issuing_held e.val) fun fb q => ?_
  obtain ⟨hv, hdz, hsdz⟩ := (y.writeFlg (wordOf v)).advance_kept (y.writeFlg_kept _)
  refine ⟨hdz.trans (wordOf_bit v (by decide)), hv.trans (wordOf_bit v (by decide)), hsdz.trans ?_⟩
  show ((y.sdz && !(wordOf v).getLsbD 2) || (y.sets || _)) = _
  rw [wordOf_bit v (by decide), Bool.or_assoc]

/-- CHK.CRC (09 R198). -/
theorem crcWrite_crc (h : s.issues e.val) (v : L48) :
    EngineDoes s e (.chainedStateWrite e 0x1AA v) (s.engine e.val).held fun x => x.chk.crc = v.setWidth 32 :=
  .of_write h (n := 0x1AA) rfl (exec_chainedStateWrite v rfl) (s.issuing_held e.val) fun _ _ => Chk.writeCrc_advance ..

/-- FLG of ALU0 and of ALU1 (09 R195). -/
theorem aluFlgWrite_flg (h : s.issues e.val) (v : L48) :
    EngineDoes s e (.chainedStateWrite e 0x0A8 v)
      { (s.engine e.val).held with alu0 := ((s.engine e.val).alu0.writeFlg (wordOf v)).view } (fun _ => True) ∧
    EngineDoes s e (.chainedStateWrite e 0x0E8 v)
      { (s.engine e.val).held with alu1 := ((s.engine e.val).alu1.writeFlg (wordOf v)).view } fun _ => True := by
  rw [← s.issuing_held e.val]
  exact ⟨.of_write h (n := 0x0A8) rfl (exec_chainedStateWrite v rfl) rfl fun _ _ => trivial,
    .of_write h (n := 0x0E8) rfl (exec_chainedStateWrite v rfl) rfl fun _ _ => trivial⟩

/-- Settles O28: each port by the fact about its unit. -/
theorem controlAndChainedWrites : Obligations.ControlAndChainedWrites := by
  unfold Obligations.ControlAndChainedWrites
  refine ⟨fun s e v hissues => ⟨ctlModeWrite_waits hissues v, ctlDoorWrite_rings hissues v, chkCfgWrite_fields hissues v,
    fun hv _ => chkCfgWrite_preset hissues v hv⟩, ?_⟩
  intro s e v hissues x0 h flg five mac acc
  have hflags (y : Alu) : five (y.writeFlg (wordOf v)).flg = flg y.flg := by
    have hbit {i : Nat} (hi : i < 4) := (y.writeFlg_bit (wordOf v) hi).trans (wordOf_bit v (Nat.lt_trans hi (by decide)))
    have hsv := (y.writeFlg_sv (wordOf v)).trans (by rw [wordOf_bit v (by decide)])
    simp only [five, flg, Prod.mk.injEq]
    exact ⟨hsv, hbit (by decide), hbit (by decide), hbit (by decide), hbit (by decide)⟩
  have hacc : x0.mac.chained.acc = acc := x0.mac.chained_acc
  obtain ⟨halu0, halu1⟩ := aluFlgWrite_flg hissues v
  refine ⟨⟨_, hflags x0.alu0, halu0⟩, ⟨_, hflags x0.alu1, halu1⟩, macFlgWrite_flags hissues v, ?acl, ?acm, ?ach, crcWrite_crc hissues v,
    divFlgWrite_flags hissues v⟩
  case acl =>
    rw [← hacc]
    exact accWrite_acc (part := 0) hissues v rfl rfl fun _ _ => rfl
  case acm =>
    rw [← hacc]
    exact accWrite_acc (part := 1) hissues v rfl rfl fun _ _ => rfl
  case ach =>
    rw [← hacc, ← BitVec.setWidth_setWidth_of_le v (show 8 ≤ 24 by decide)]
    exact accWrite_acc (part := 2) hissues v rfl rfl fun _ _ => rfl

end Sys2Proof.Machine
end

section
/-! A move to a trigger port of an engine that issues (08 R153, 09 R189): what the trigger makes of the engine, and the rest of its cycle. -/

namespace Sys2Proof.Machine

variable {s : State} {e : EngN}

/-- A trigger port whose operation the engine's own registers alone see in its cycle, and no other unit waits for. -/
def isOwnTrigger (n : Nat) : Bool :=
  isTrigger n && n / 64 != 11 && n / 64 != 12 && (n / 64 != 8 || 8 ≤ n % 64) && n != bSPU + 2 && n != bSPU + 3

theorem isOwnTrigger_iff (n : Nat) : isOwnTrigger n = true ↔
    isTrigger n = true ∧ n / 64 ≠ 11 ∧ n / 64 ≠ 12 ∧ (n / 64 = 8 → 8 ≤ n % 64) ∧ n ≠ bSPU + 2 ∧ n ≠ bSPU + 3 := by
  simp only [isOwnTrigger, Bool.and_eq_true, Bool.or_eq_true, bne_iff_ne, decide_eq_true_eq, and_assoc, ne_eq, imp_iff_not_or]

/-- An engine as its bundle issues, once that bundle's one trigger has acted. -/
def State.fired (s : State) (e n : Nat) (v : L48) : Engine :=
  (s.issuing e).trigger e s.now [] ((s.engine e).ctl.mode.getLsbD 0) ((s.engine e).ctl.mode.getLsbD 1) n v

/-- After such a trigger the rest of the cycle is that of a bundle without triggers. -/
theorem State.performed_eq_passed {n : Nat} (h : n / 64 ≠ 11) (s : State) (e : Nat) (v : L48) (fb : BitVec 25) :
    (s.issuing e).performed e s.now n v fb = (s.fired e n v).passed e fb := by
  rw [Engine.performed, if_neg h]
  rfl

/-- Only a supervisor port in task mode makes a move of an immediate to such a trigger fault (12 R252). -/
theorem moveFault_trigger {n : Nat} {sup : Bool} (levels : Nat) (v : L48) (ht : isTrigger n = true) (hrep : n / 64 ≠ 11) (hsup : isSuper n = true → sup = true) :
    moveFault sup levels (.imm v) n = none := by
  have hdest : isDest n = true := by simp [isDest, ht]
  have hzero : isSource 0 = true ∧ isSuper 0 = false := by decide
  have hn : n ≠ bRPT := fun hn => hrep (hn ▸ rfl)
  cases hsuper : isSuper n <;> simp_all [moveFault]

/-- A command that is such a trigger: the trigger acts, and the rest of the cycle passes. -/
theorem EngineDoes.of_trigger {c : Instr} {n : Nat} {v : L48} {h : Held} {p : Engine → Prop} (hissues : s.issues e.val) (hn : isOwnTrigger n = true)
    (hsup : isSuper n = true → (s.engine e.val).ctl.mode.getLsbD 3 = true) (hc : exec c s = .next (s.issue e.val n v))
    (hheld : (s.fired e.val n v).held = h) (hp : ∀ fb q, p { (s.fired e.val n v).passed e.val fb with pfq := q }) : EngineDoes s e c h p := by
  obtain ⟨htrigger, hrpt, hsmv, hload, hout⟩ := (isOwnTrigger_iff n).1 hn
  obtain ⟨q, hissue⟩ := State.issue_trigger hissues (moveFault_trigger _ v htrigger hrpt hsup) htrigger hsmv hload hout
  refine ⟨_, hc.trans (congrArg Host.Outcome.next hissue), .set .., ?_, ?_⟩
  · rw [State.engine_setEngine, Engine.refilled_held, Engine.performed_held]
    exact hheld
  · rw [State.engine_setEngine, ← State.issuing, State.performed_eq_passed hrpt]
    exact hp _ q

/-- A trigger of any mode. -/
def isTaskTrigger (n : Nat) : Bool := isOwnTrigger n && !isSuper n

theorem EngineDoes.of_taskTrigger {c : Instr} {n : Nat} {v : L48} {h : Held} {p : Engine → Prop} (hissues : s.issues e.val) (hn : isTaskTrigger n = true)
    (hc : exec c s = .next (s.issue e.val n v)) (hheld : (s.fired e.val n v).held = h)
    (hp : ∀ fb q, p { (s.fired e.val n v).passed e.val fb with pfq := q }) : EngineDoes s e c h p := by
  rw [isTaskTrigger, Bool.and_eq_true] at hn
  obtain ⟨hown, hsuper⟩ := hn
  exact .of_trigger hissues hown (fun h => by simp [h] at hsuper) hc hheld hp

theorem EngineDoes.mono {c : Instr} {h : Held} {p q : Engine → Prop} (hp : EngineDoes s e c h p) (hpq : ∀ x, p x → q x) : EngineDoes s e c h q := by
  obtain ⟨t, hexec, honly, hheld, hx⟩ := hp
  exact ⟨t, hexec, honly, hheld, hpq _ hx⟩

/-! Causes that the trigger makes due (12 R250): what the rest of its cycle adds to them. -/

theorem Engine.sequence_due (x : Engine) (t : Option (Nat × W24)) : (x.sequence t).exc.due = x.exc.due := by
  unfold Engine.sequence
  dsimp only
  split
  · rfl
  · split <;> rfl

/-- At the end of the cycle a bus error of LSU1 and a refused step of SMV may come to what was due, and nothing else. -/
theorem Engine.passed_due (x : Engine) (e : Nat) (fb : BitVec 25) {i : Nat} (h : i ≠ 5) (h' : i ≠ 6) :
    (x.passed e fb).exc.due.getLsbD i = x.exc.due.getLsbD i := by
  have hadded (b c : Bool) : ((if b then (64 : Byte) else 0) ||| (if c then 32 else 0)).getLsbD i = false := by
    have hall : ∀ (b c : Bool), ∀ i < 8, i ≠ 5 → i ≠ 6 → ((if b then (64 : Byte) else 0) ||| (if c then 32 else 0)).getLsbD i = false := by decide
    by_cases hi : i < 8
    · exact hall b c i hi h h'
    · exact BitVec.getLsbD_of_ge _ _ (Nat.not_lt.1 hi)
  let z := x.sequence none
  show (z.exc.due ||| ((if z.lsu1.busDue then 64 else 0) ||| (if z.smv.bad then 32 else 0))).getLsbD i = _
  rw [BitVec.getLsbD_or, hadded, Bool.or_false, Engine.sequence_due]

end Sys2Proof.Machine
end

section
/-! The ALU commands (10 R204 to R208): each is the trigger of its operation on one ALU. -/

namespace Sys2Proof.Machine

variable {s : State} {e : EngN}

/-- A subcode's port on one of the ALUs (09 R190). -/
def aluPort (u long : Bool) (sub : Nat) : Nat := (if u then bALU1 else bALU0) + (if long then 0x10 else 0) + sub

/-- Such a port is a trigger of its ALU and carries the subcode and the form. -/
theorem aluPort_fields (u long : Bool) {sub : Nat} (h : sub < 16) : isTaskTrigger (aluPort u long sub) = true ∧
    aluPort u long sub / 64 = (if u then 3 else 2) ∧ aluOpOf (aluPort u long sub % 64) = aluOpOf sub ∧
    decide (0x10 ≤ aluPort u long sub % 64) = long := by
  have hall : ∀ (u long : Bool), ∀ sub < 16, isTaskTrigger (aluPort u long sub) = true ∧ aluPort u long sub / 64 = (if u then 3 else 2) ∧
      aluOpOf (aluPort u long sub % 64) = aluOpOf sub ∧ decide (0x10 ≤ aluPort u long sub % 64) = long := by decide
  exact hall u long sub h

/-- The trigger of a subcode runs its operation on the ALU. -/
theorem State.fired_alu (s : State) (e : Nat) (u long : Bool) {sub : Nat} (h : sub < 16) (a : L48) : s.fired e (aluPort u long sub) a =
    let x := s.issuing e
    let sat := (s.engine e).ctl.mode.getLsbD 0
    if u then { x with alu1 := x.alu1.run (aluOpOf sub) long sat false a } else { x with alu0 := x.alu0.run (aluOpOf sub) long sat false a } := by
  obtain ⟨-, hunit, hop, hlong⟩ := aluPort_fields u long h
  rw [State.fired, Engine.trigger, hunit, hop, hlong]
  cases u <;> rfl

/-- An ALU command completes with the operation of its subcode. -/
theorem aluRow_completes (hissues : s.issues e.val) (u long : Bool) (a : L48) {sub : Nat} (h : sub < 16) {c : Instr}
    (hc : exec c s = .next (s.aluRow e u long sub a)) : AluDoes s e u long a (aluOpOf sub) c := by
  obtain ⟨t, hexec, honly, hheld, -⟩ := EngineDoes.of_taskTrigger (p := fun _ => True) (n := aluPort u long sub) hissues
    (aluPort_fields u long h).1 hc rfl fun _ _ => trivial
  refine ⟨t, hexec, honly, ?_⟩
  rw [hheld, s.fired_alu e.val u long h a, ← s.issuing_held e.val]
  cases u <;> rfl

/-- Settles O11: the commands are the sixteen subcodes. -/
theorem aluCommandsComplete : Obligations.AluCommandsComplete := by
  unfold Obligations.AluCommandsComplete
  intro s e u long a h
  have hrow {c : Instr} (sub : Fin 16) (hc : exec c s = .next (s.aluRow e u long sub a)) := aluRow_completes h u long a sub.isLt hc
  exact ⟨hrow 0 rfl, hrow 1 rfl, hrow 2 rfl, hrow 3 rfl, hrow 4 rfl, hrow 5 rfl, hrow 6 rfl, hrow 7 rfl, hrow 8 rfl, hrow 9 rfl, hrow 10 rfl,
    hrow 11 rfl, hrow 12 rfl, hrow 13 rfl, hrow 14 rfl, hrow 15 rfl⟩

end Sys2Proof.Machine
end

section
/-! Results and flags of the ALU operations as bit patterns, signed sums and carries (10 R207, R208, R220). -/

namespace Sys2Proof.Machine

variable {w : Nat}

theorem toSigned_toNat (a : BitVec w) : toSigned w a.toNat = a.toInt := by rw [toSigned, BitVec.ofNat_toNat, BitVec.setWidth_eq]

theorem ofNat_ofSigned (w : Nat) (v : Int) : BitVec.ofNat w (ofSigned w v) = BitVec.ofInt w v := by
  rw [ofSigned, BitVec.ofNat_toNat, BitVec.setWidth_eq]

theorem ofInt_sub (w : Nat) (x y : Int) : BitVec.ofInt w (x - y) = BitVec.ofInt w x - BitVec.ofInt w y := by
  rw [Int.sub_eq_add_neg, BitVec.ofInt_add, BitVec.ofInt_neg, BitVec.sub_eq_add_neg]

theorem ofInt_bit01 (w : Nat) (c : Bool) : BitVec.ofInt w (bit01 c) = if c then 1#w else 0#w := by
  cases c <;> simp [bit01]

/-! Numbers of `w` bits. -/

theorem fitsSigned_iff (w : Nat) (v : Int) : fitsSigned w v = true ↔ -(2 ^ (w - 1) : Int) ≤ v ∧ v < 2 ^ (w - 1) := by
  simp [fitsSigned]

/-- A number fits exactly when reducing it to `w` bits leaves it. -/
theorem fitsSigned_iff_toInt (hw : 0 < w) (v : Int) : fitsSigned w v = true ↔ v = (BitVec.ofInt w v).toInt := by
  have hdouble : (2 ^ w : Int) = 2 * 2 ^ (w - 1) := by rw [← pow_succ', Nat.sub_add_cancel hw]
  rw [fitsSigned_iff]
  constructor
  · rintro ⟨hlow, hhigh⟩
    rw [BitVec.toInt_ofInt, Int.bmod_eq_of_le (by push_cast; omega) (by push_cast; omega)]
  · intro hv
    rw [hv]
    exact ⟨BitVec.le_toInt _, BitVec.toInt_lt⟩

theorem holdSigned_fits {v : Int} (h : fitsSigned w v = true) : holdSigned w v = v := by
  obtain ⟨hlow, hhigh⟩ := (fitsSigned_iff w v).1 h
  rw [holdSigned, min_eq_right (by omega), max_eq_right hlow]

theorem toInt_intMin (hw : 0 < w) : (BitVec.intMin w).toInt = -2 ^ (w - 1) := by
  rw [BitVec.toInt_intMin, Nat.mod_eq_of_lt (Nat.pow_lt_pow_right (by omega) (by omega))]
  push_cast
  rfl

/-- Out of range, a number is held at the bound on its side. -/
theorem ofInt_holdSigned {v : Int} (hw : 0 < w) (h : fitsSigned w v = false) :
    BitVec.ofInt w (holdSigned w v) = if 0 < v then BitVec.intMax w else BitVec.intMin w := by
  have hpos : (0 : Int) < 2 ^ (w - 1) := by positivity
  have hout : ¬(-(2 ^ (w - 1) : Int) ≤ v ∧ v < 2 ^ (w - 1)) := by rw [← fitsSigned_iff, h]; simp
  rw [holdSigned]
  split
  · rw [min_eq_left (by omega), max_eq_right (by omega), ← BitVec.toInt_intMax, BitVec.ofInt_toInt]
  · rw [min_eq_right (by omega), max_eq_left (by omega), ← toInt_intMin hw, BitVec.ofInt_toInt]

/-! Results. -/

/-- Of an arithmetic operation: the exact result, held under SAT, reduced to `w` bits. -/
theorem AluOp.result_arith {op : AluOp} (h : op.arith = true) (w : Nat) (sat : Bool) (a b c : Nat) : BitVec.ofNat w (op.result w sat a b c) =
    BitVec.ofInt w (if sat then holdSigned w (op.exact w a b c).1 else (op.exact w a b c).1) := by
  rw [AluOp.result, if_pos h, ofNat_ofSigned]

/-- The bit pattern that a logical operation, MIN, MAX or PASS gives. -/
def AluOp.pattern (op : AluOp) (a b : BitVec w) : BitVec w :=
  match op with
  | .and => a &&& b
  | .or => a ||| b
  | .xor => a ^^^ b
  | .andn => a &&& ~~~b
  | .not => ~~~a
  | .min => if a.sle b then a else b
  | .max => if a.sle b then b else a
  | .minu => if a.ule b then a else b
  | .maxu => if a.ule b then b else a
  | _ => a

theorem AluOp.logic_eq_pattern (op : AluOp) (a b : BitVec w) : op.logic w a.toNat b.toNat = (op.pattern a b).toNat := by
  have hle : (toSigned w a.toNat ≤ toSigned w b.toNat) ↔ a.sle b = true := by rw [toSigned_toNat, toSigned_toNat, BitVec.sle_iff_toInt_le]
  cases op
  case and => exact (BitVec.toNat_and ..).symm
  case or => exact (BitVec.toNat_or ..).symm
  case xor => exact (BitVec.toNat_xor ..).symm
  case andn => simp [AluOp.logic, AluOp.pattern, BitVec.toNat_and, BitVec.toNat_not]
  case not => simp [AluOp.logic, AluOp.pattern, BitVec.toNat_not]
  case min => simp only [AluOp.logic, AluOp.pattern, hle]; split <;> rfl
  case max => simp only [AluOp.logic, AluOp.pattern, hle]; split <;> rfl
  case minu => simp only [AluOp.logic, AluOp.pattern, BitVec.ule_eq_decide, decide_eq_true_eq]; split <;> simp <;> omega
  case maxu => simp only [AluOp.logic, AluOp.pattern, BitVec.ule_eq_decide, decide_eq_true_eq]; split <;> simp <;> omega
  all_goals rfl

theorem AluOp.result_logic {op : AluOp} (h : op.arith = false) (sat : Bool) (a b : BitVec w) (c : Nat) :
    BitVec.ofNat w (op.result w sat a.toNat b.toNat c) = op.pattern a b := by
  rw [AluOp.result, if_neg (by simp [h]), op.logic_eq_pattern, BitVec.ofNat_toNat, BitVec.setWidth_eq]

/-- Every result is a number of `w` bits. -/
theorem AluOp.toNat_result (op : AluOp) (sat : Bool) (a b : BitVec w) (c : Nat) :
    (BitVec.ofNat w (op.result w sat a.toNat b.toNat c)).toNat = op.result w sat a.toNat b.toNat c := by
  cases h : op.arith
  · rw [AluOp.result_logic h, AluOp.result, if_neg (by simp [h]), op.logic_eq_pattern]
  · rw [AluOp.result, if_pos h, ofNat_ofSigned]
    rfl

/-! Flags. -/

/-- The flags packed from bit 4 down. -/
theorem packedFlags_bits (sv v c n z : Bool) :
    let g := BitVec.ofNat 5 (16 * bit01 sv + 8 * bit01 v + 4 * bit01 c + 2 * bit01 n + bit01 z)
    g.getLsbD 4 = sv ∧ g.getLsbD 3 = v ∧ g.getLsbD 2 = c ∧ g.getLsbD 1 = n ∧ g.getLsbD 0 = z := by
  revert sv v c n z
  decide

/-- What an arithmetic operation sets of SV, V and C. -/
theorem AluOp.flags_arith {op : AluOp} (h : op.arith = true) (w : Nat) (sat : Bool) (a b : Nat) (f : BitVec 5) :
    let e := op.exact w a b (flgC f)
    let g := op.flags w sat a b f
    g.getLsbD 4 = (f.getLsbD 4 || g.getLsbD 3) ∧ g.getLsbD 3 = !fitsSigned w e.1 ∧ g.getLsbD 2 = e.2 := by
  intro e g
  obtain ⟨hsv, hv, hc, -⟩ := packedFlags_bits (f.getLsbD 4 || !fitsSigned w e.1) (!fitsSigned w e.1) e.2
    (decide (2 ^ (w - 1) ≤ op.result w sat a b (flgC f))) (decide (op.result w sat a b (flgC f) = 0))
  have hg : g = BitVec.ofNat 5 _ := if_pos h
  rw [hg]
  exact ⟨hsv.trans (by rw [hv]), hv, hc⟩

/-- The flags of a logical operation packed over the old ones. -/
theorem keptFlags_bits (f : BitVec 5) (n z : Bool) :
    let g := (f &&& 0b11100#5) ||| BitVec.ofNat 5 (2 * bit01 n + bit01 z)
    g.getLsbD 0 = z ∧ g.getLsbD 1 = n ∧ g.getLsbD 2 = f.getLsbD 2 ∧ g.getLsbD 3 = f.getLsbD 3 ∧ g.getLsbD 4 = f.getLsbD 4 := by
  revert f n z
  decide

/-- Z and N of any operation, and the flags that a logical operation keeps. -/
theorem AluOp.flags_low (op : AluOp) (sat : Bool) (a b : BitVec w) (f : BitVec 5) :
    let r := BitVec.ofNat w (op.result w sat a.toNat b.toNat (flgC f))
    let g := op.flags w sat a.toNat b.toNat f
    g.getLsbD 0 = (r == 0#w) ∧ g.getLsbD 1 = r.msb ∧
      (op.arith = false → g.getLsbD 2 = f.getLsbD 2 ∧ g.getLsbD 3 = f.getLsbD 3 ∧ g.getLsbD 4 = f.getLsbD 4) := by
  intro r g
  have hr : op.result w sat a.toNat b.toNat (flgC f) = r.toNat := (op.toNat_result sat a b (flgC f)).symm
  have hzero : decide (r.toNat = 0) = (r == 0#w) := by
    rw [Bool.eq_iff_iff, decide_eq_true_iff, beq_iff_eq, ← BitVec.toNat_inj, BitVec.toNat_zero]
  have hneg : decide (2 ^ (w - 1) ≤ r.toNat) = r.msb := (BitVec.msb_eq_decide r).symm
  simp only [g, AluOp.flags, hr, hzero, hneg]
  cases op.arith
  · obtain ⟨hz, hn, hkept⟩ := keptFlags_bits f r.msb (r == 0#w)
    exact ⟨hz, hn, fun _ => hkept⟩
  · obtain ⟨-, -, -, hn, hz⟩ := packedFlags_bits (f.getLsbD 4 || !fitsSigned w (op.exact w a.toNat b.toNat (flgC f)).1)
      (!fitsSigned w (op.exact w a.toNat b.toNat (flgC f)).1) (op.exact w a.toNat b.toNat (flgC f)).2 r.msb (r == 0#w)
    exact ⟨hz, hn, fun hnot => by simp at hnot⟩

/-! The exact results. -/

theorem AluOp.exact_signed (op : AluOp) (a b : BitVec w) (c : Nat) : (op.exact w a.toNat b.toNat c).1 =
    match op with
    | .add => a.toInt + b.toInt
    | .addc => a.toInt + b.toInt + c
    | .sub => a.toInt - b.toInt
    | .subb => a.toInt - b.toInt - c
    | .neg => -a.toInt
    | .abs => if 0 ≤ a.toInt then a.toInt else -a.toInt
    | _ => 0 := by
  cases op <;> simp only [AluOp.exact, toSigned_toNat]

/-- Of all numbers of `w` bits the most negative alone has no opposite among them. -/
theorem fitsSigned_neg (hw : 0 < w) (a : BitVec w) : (!fitsSigned w (-a.toInt)) = (a == BitVec.intMin w) := by
  have hlow : -2 ^ (w - 1) ≤ a.toInt := BitVec.le_toInt a
  have hhigh : a.toInt < 2 ^ (w - 1) := BitVec.toInt_lt
  rw [Bool.eq_iff_iff, Bool.not_eq_true', ← Bool.not_eq_true, fitsSigned_iff, beq_iff_eq, ← BitVec.toInt_inj, toInt_intMin hw]
  omega

theorem fitsSigned_abs (hw : 0 < w) (a : BitVec w) : (!fitsSigned w (if 0 ≤ a.toInt then a.toInt else -a.toInt)) = (a == BitVec.intMin w) := by
  split
  case isFalse => exact fitsSigned_neg hw a
  case isTrue h =>
    have hpos : (0 : Int) < 2 ^ (w - 1) := by positivity
    have hfits : fitsSigned w a.toInt = true := (fitsSigned_iff w _).2 ⟨BitVec.le_toInt a, BitVec.toInt_lt⟩
    have hne : a ≠ BitVec.intMin w := fun ha => by rw [ha, toInt_intMin hw] at h; omega
    rw [hfits, beq_eq_false_iff_ne.2 hne]
    rfl

end Sys2Proof.Machine
end

section
/-! The statements about the ALU operations: results, flags, the most negative value, saturation. -/

namespace Sys2Proof.Machine

variable {w : Nat}

/-- With SAT = 0 an arithmetic result is the exact one reduced to `w` bits. -/
theorem AluOp.result_unsaturated {op : AluOp} (h : op.arith = true) (a b : BitVec w) (c : Nat) :
    BitVec.ofNat w (op.result w false a.toNat b.toNat c) = BitVec.ofInt w (op.exact w a.toNat b.toNat c).1 := AluOp.result_arith h w false _ _ c

theorem ofInt_abs (a : BitVec w) : BitVec.ofInt w (if 0 ≤ a.toInt then a.toInt else -a.toInt) = if a.msb then -a else a := by
  rw [BitVec.msb_eq_toInt]
  by_cases h : 0 ≤ a.toInt
  · rw [if_pos h, if_neg (by simpa using h), BitVec.ofInt_toInt]
  · rw [if_neg h, if_pos (by simpa using h), BitVec.ofInt_neg, BitVec.ofInt_toInt]

theorem notFitsSigned_eq (w : Nat) (v : Int) : (!fitsSigned w v) = (decide (v ≥ 2 ^ (w - 1)) || decide (v < -2 ^ (w - 1))) := by
  rw [Bool.eq_iff_iff, Bool.not_eq_true', ← Bool.not_eq_true, fitsSigned_iff, Bool.or_eq_true, decide_eq_true_iff, decide_eq_true_iff]
  omega

/-- Settles O12: an arithmetic result is the exact one reduced, any other one a bit pattern; V says that the exact one does not fit. -/
theorem aluResultsAndFlags : Obligations.AluResultsAndFlags := by
  unfold Obligations.AluResultsAndFlags
  refine ⟨fun w a b c hw => ?results, fun w op a b f hw => ?flags⟩
  case results =>
    intro r k
    have harith {op : AluOp} (h : op.arith = true) : r op = BitVec.ofInt w (op.exact w a.toNat b.toNat (bit01 c)).1 :=
      AluOp.result_unsaturated h a b _
    have hlogic {op : AluOp} (h : op.arith = false) : r op = op.pattern a b := AluOp.result_logic h false a b _
    refine ⟨?_, ?_, ?_, ?_, ?_, ?_, hlogic rfl, hlogic rfl, hlogic rfl, hlogic rfl, hlogic rfl, hlogic rfl, hlogic rfl, hlogic rfl, hlogic rfl,
      hlogic rfl⟩
    · rw [harith rfl, AluOp.exact_signed, BitVec.ofInt_add, BitVec.ofInt_toInt, BitVec.ofInt_toInt]
    · rw [harith rfl, AluOp.exact_signed, BitVec.ofInt_add, BitVec.ofInt_add, BitVec.ofInt_toInt, BitVec.ofInt_toInt, ofInt_bit01]
    · rw [harith rfl, AluOp.exact_signed, ofInt_sub, BitVec.ofInt_toInt, BitVec.ofInt_toInt]
    · rw [harith rfl, AluOp.exact_signed, ofInt_sub, ofInt_sub, BitVec.ofInt_toInt, BitVec.ofInt_toInt, ofInt_bit01]
    · rw [harith rfl, AluOp.exact_signed, BitVec.ofInt_neg, BitVec.ofInt_toInt]
    · rw [harith rfl, AluOp.exact_signed, ofInt_abs]
  case flags =>
    have hpos : 0 < w := by omega
    intro r g
    obtain ⟨hz, hn, hkept⟩ := op.flags_low false a b f
    have harith (h : op.arith = true) := AluOp.flags_arith h w false a.toNat b.toNat f
    refine ⟨hz, hn, hkept, fun h => (harith h).1, ?add, ?sub, ?addc, ?subb, ?neg, ?abs⟩
    all_goals
      rintro rfl
      obtain ⟨-, hv, hc⟩ := harith rfl
      rw [AluOp.exact_signed] at hv
    case add => exact ⟨hc, hv.trans (notFitsSigned_eq ..)⟩
    case sub => exact ⟨hc.trans BitVec.ult_eq_decide.symm, hv.trans (notFitsSigned_eq ..)⟩
    case addc => exact hc
    case subb => exact hc
    case neg =>
      have hnonzero : decide (a.toNat ≠ 0) = (a != 0#w) := by
        rw [Bool.eq_iff_iff, decide_eq_true_iff, bne_iff_ne, ne_eq, ne_eq, ← BitVec.toNat_inj, BitVec.toNat_zero]
      exact ⟨hc.trans hnonzero, hv.trans (fitsSigned_neg hpos a)⟩
    case abs => exact ⟨hc, hv.trans (fitsSigned_abs hpos a)⟩

/-- Settles O10: the exact result decides between its reduction and the bound on its side. -/
theorem negAbsAndSaturation : Obligations.NegAbsAndSaturation := by
  unfold Obligations.NegAbsAndSaturation
  refine ⟨fun w op b f sat hw hop => ?mostNegative, fun w op a b f hw hop => ?sums⟩
  case mostNegative =>
    have hpos : 0 < w := by omega
    have hpow : (0 : Int) < 2 ^ (w - 1) := by positivity
    have harith : op.arith = true := by obtain rfl | rfl := hop <;> rfl
    have hexact : (op.exact w (BitVec.intMin w).toNat b.toNat (flgC f)).1 = -(BitVec.intMin w).toInt := by
      rw [AluOp.exact_signed]
      obtain rfl | rfl := hop
      · rfl
      · exact if_neg (by rw [toInt_intMin hpos]; omega)
    have hout : fitsSigned w (-(BitVec.intMin w).toInt) = false := by simpa using fitsSigned_neg hpos (BitVec.intMin w)
    obtain ⟨-, hv, -⟩ := AluOp.flags_arith harith w sat (BitVec.intMin w).toNat b.toNat f
    refine ⟨?_, by rw [hv, hexact, hout]; rfl⟩
    rw [AluOp.result_arith harith, hexact]
    cases sat
    · exact BitVec.ofInt_neg.trans ((congrArg _ BitVec.ofInt_toInt).trans BitVec.neg_intMin)
    · exact (ofInt_holdSigned hpos hout).trans (if_pos (by rw [toInt_intMin hpos]; omega))
  case sums =>
    have hpos : 0 < w := by omega
    intro exact r g
    have harith : op.arith = true := by simp at hop; obtain rfl | rfl | rfl | rfl := hop <;> rfl
    have hexact : (op.exact w a.toNat b.toNat (flgC f)).1 = exact := by
      rw [AluOp.exact_signed]; simp at hop; obtain rfl | rfl | rfl | rfl := hop <;> rfl
    have hr : r = BitVec.ofInt w (holdSigned w exact) := by rw [← hexact]; exact AluOp.result_arith harith w true _ _ _
    obtain ⟨-, hv, hc⟩ := AluOp.flags_arith harith w true a.toNat b.toNat f
    obtain ⟨-, -, hc'⟩ := AluOp.flags_arith harith w false a.toNat b.toNat f
    rw [hexact] at hv
    refine ⟨fun hfit => ?_, fun hfit => ?_, hc.trans hc'.symm⟩
    · have hfits := (fitsSigned_iff_toInt hpos exact).2 hfit
      exact ⟨by rw [hr, holdSigned_fits hfits], by rw [hv, hfits]; rfl⟩
    · have hout : fitsSigned w exact = false := Bool.eq_false_iff.2 fun h => hfit ((fitsSigned_iff_toInt hpos exact).1 h)
      exact ⟨by rw [hr, ofInt_holdSigned hpos hout], by rw [hv, hout]; rfl⟩

end Sys2Proof.Machine
end

section
/-! The MAC commands (10 R209, R219): each enters the pipeline with its sum. -/

namespace Sys2Proof.Machine

variable {s : State} {e : EngN}

@[simp] theorem Mac.accum_o (x : Mac) (sat : Bool) (v : Int) : (x.accum sat v).o = x.o := by
  unfold Mac.accum
  split <;> rfl

@[simp] theorem Mac.trigger_o (x : Mac) (sub : Nat) (sat : Bool) (y : W24) : (x.trigger sub sat y).o = x.o := by
  unfold Mac.trigger
  split
  case h_7 => rfl
  case h_8 => rfl
  all_goals exact x.accum_o sat _

/-- A sum that has entered, after the cycle of its trigger: wrapped with FORM 1, or held under SAT with FORM 2. -/
theorem Mac.accum_advance (x : Mac) (sat : Bool) (v : Int) : (x.accum sat v).advance.fl.getLast? =
    some ⟨2, BitVec.ofInt 56 (if sat then holdSigned 56 v else v), !fitsSigned 56 v || (sat && !fitsSigned 48 (holdSigned 56 v)),
      if sat then 2 else 1, false⟩ := by
  have hthree : 1 < 3 := by decide
  cases sat
  · exact (x.advance_last _ hthree).trans (by simp)
  · exact x.advance_last _ hthree

/-- A MAC command enters the pipeline as its trigger does. -/
theorem macRow_enters (hissues : s.issues e.val) (y : W24) (sub : Fin 8) {c : Instr} {f : MacFl} (hc : exec c s = .next (s.issue e.val (bMAC + sub.val) (longOf y)))
    (hf : ((s.engine e.val).mac.trigger sub.val ((s.engine e.val).ctl.mode.getLsbD 0) y).advance.fl.getLast? = some f) :
    EngineDoes s e c (s.engine e.val).held fun x => x.mac.fl.getLast? = some f := by
  have hport : ∀ sub : Fin 8, isTaskTrigger (bMAC + sub.val) = true ∧ (bMAC + sub.val) / 64 = 4 ∧ (bMAC + sub.val) % 64 = sub.val := by decide
  obtain ⟨htrigger, hunit, hsub⟩ := hport sub
  have hfired : s.fired e.val (bMAC + sub.val) (longOf y) =
      { s.issuing e.val with mac := (s.engine e.val).mac.trigger sub.val ((s.engine e.val).ctl.mode.getLsbD 0) y } := by
    rw [State.fired, Engine.trigger, hunit, hsub, wordOf_longOf]
    rfl
  refine .of_taskTrigger hissues htrigger hc ?_ fun fb q => ?_
  · rw [hfired, ← s.issuing_held e.val]
    exact congrArg (fun o => { (s.issuing e.val).held with macO := o }) (Mac.trigger_o ..)
  · show ((s.fired e.val (bMAC + sub.val) (longOf y)).mac.advance).fl.getLast? = _
    rw [hfired]
    exact hf

/-- Settles O13: each command by its subcode, and each sum by what enters of it. -/
theorem macCommandsComplete : Obligations.MacCommandsComplete := by
  unfold Obligations.MacCommandsComplete
  intro s e y hissues h m sat gives
  have hsum {c : Instr} {v : Int} (sub : Fin 8) (hc : exec c s = .next (s.issue e.val (bMAC + sub.val) (longOf y)))
      (hv : m.trigger sub.val sat y = m.accum sat v) : gives c v :=
    macRow_enters hissues y sub hc ((congrArg (fun x : Mac => x.advance.fl.getLast?) hv).trans (m.accum_advance sat v))
  have hthree : 1 < 3 := by decide
  exact ⟨hsum 0 rfl rfl, hsum 1 rfl rfl, hsum 2 rfl rfl, hsum 3 rfl rfl, hsum 4 rfl rfl, hsum 5 rfl rfl,
    macRow_enters hissues y 6 rfl (m.advance_last _ hthree), macRow_enters hissues y 7 rfl (m.advance_last _ hthree)⟩

end Sys2Proof.Machine
end

section
/-! The SHF commands (10 R210, R223). -/

namespace Sys2Proof.Machine

variable {s : State} {e : EngN} {w : Nat}

/-- A subcode's port on SHF (09 R190). -/
def shfPort (long : Bool) (sub : Nat) : Nat := bSHF + (if long then 0x10 else 0) + sub

/-- A SHF command completes with the operation of its subcode. -/
theorem shfRow_completes (hissues : s.issues e.val) (long : Bool) (d : L48) (sub : Fin 8) {c : Instr} (hc : exec c s = .next (s.shfRow e long sub.val d)) :
    let h := (s.engine e.val).held
    let w := if long then 48 else 24
    ∃ t, exec c s = .next t ∧ OnlyEngine e.val s t ∧
      (t.engine e.val).held = { h with shf := ⟨d, h.shf.o2, showResult w ((shfOpOf sub.val).result w (d.toNat % 2 ^ w) h.shf.o2)⟩ } := by
  have hport : ∀ (long : Bool) (sub : Fin 8), isTaskTrigger (shfPort long sub.val) = true ∧ shfPort long sub.val / 64 = 5 ∧
      shfOpOf (shfPort long sub.val % 64) = shfOpOf sub.val ∧ decide (0x10 ≤ shfPort long sub.val % 64) = long := by decide
  obtain ⟨htrigger, hunit, hop, hlong⟩ := hport long sub
  have hfired : s.fired e.val (shfPort long sub.val) d = { s.issuing e.val with shf := (s.engine e.val).shf.run (shfOpOf sub.val) long d } := by
    rw [State.fired, Engine.trigger, hunit, hop, hlong]
    rfl
  obtain ⟨t, hexec, honly, hheld, -⟩ := EngineDoes.of_taskTrigger (p := fun _ => True) hissues htrigger hc rfl fun _ _ => trivial
  refine ⟨t, hexec, honly, ?_⟩
  rw [hheld, hfired, ← s.issuing_held e.val]
  rfl

/-! Shifts and rotates of a bit pattern. -/

theorem ofNat_shl (d : BitVec w) (n : Nat) : BitVec.ofNat w (d.toNat * 2 ^ n % 2 ^ w) = d <<< n := by
  refine BitVec.eq_of_toNat_eq ?_
  rw [BitVec.toNat_ofNat, Nat.mod_mod, BitVec.toNat_shiftLeft, Nat.shiftLeft_eq]

theorem ofNat_shr (d : BitVec w) (n : Nat) : BitVec.ofNat w (d.toNat / 2 ^ n) = d >>> n := by
  refine BitVec.eq_of_toNat_eq ?_
  rw [BitVec.toNat_ofNat, BitVec.toNat_ushiftRight, Nat.shiftRight_eq_div_pow, Nat.mod_eq_of_lt (Nat.lt_of_le_of_lt (Nat.div_le_self ..) d.isLt)]

theorem ofNat_sar (d : BitVec w) (n : Nat) : BitVec.ofNat w (ofSigned w (toSigned w d.toNat / 2 ^ n)) = d.sshiftRight n := by
  rw [ofNat_ofSigned, toSigned_toNat, BitVec.sshiftRight_eq, Int.shiftRight_eq_div_pow]
  norm_cast

/-- An arithmetic shift by the width or more leaves copies of the top bit. -/
theorem sshiftRight_all (d : BitVec w) {n : Nat} (h : w ≤ n) : d.sshiftRight n = if d.msb then -1#w else 0#w := by
  cases hd : d.msb
  · rw [BitVec.sshiftRight_eq_of_msb_false hd, BitVec.ushiftRight_eq_zero h]
    rfl
  · rw [BitVec.sshiftRight_eq_of_msb_true hd, BitVec.ushiftRight_eq_zero h, BitVec.not_zero, if_pos rfl, BitVec.neg_one_eq_allOnes]

/-- A rotation to the left by less than the width: the two parts of the pattern change places. -/
theorem ofNat_rotl (d : BitVec w) {r : Nat} (h : r ≤ w) : BitVec.ofNat w (rotl w d.toNat r) = d <<< r ||| d >>> (w - r) := by
  have hlow : d.toNat >>> (w - r) < 2 ^ r := by
    rw [Nat.shiftRight_eq_div_pow, Nat.div_lt_iff_lt_mul (Nat.two_pow_pos _), ← Nat.pow_add, Nat.add_sub_cancel' h]
    exact d.isLt
  have hpart : d.toNat >>> (w - r) < 2 ^ w := Nat.lt_of_lt_of_le hlow (Nat.pow_le_pow_right (by decide) h)
  refine BitVec.eq_of_toNat_eq ?_
  rw [BitVec.toNat_ofNat, rotl, Nat.mod_mod, ← Nat.shiftLeft_eq, ← Nat.shiftRight_eq_div_pow, Nat.shiftLeft_add_eq_or_of_lt hlow, Nat.or_mod_two_pow,
    Nat.mod_eq_of_lt hpart, BitVec.toNat_or, BitVec.toNat_shiftLeft, BitVec.toNat_ushiftRight]

theorem ofNat_rol (d : BitVec w) {r : Nat} (h : r < w) : BitVec.ofNat w (rotl w d.toNat r) = d.rotateLeft r := by
  rw [ofNat_rotl d (Nat.le_of_lt h), BitVec.rotateLeft_def, Nat.mod_eq_of_lt h]

theorem ofNat_ror (d : BitVec w) {r : Nat} (h : r < w) : BitVec.ofNat w (rotl w d.toNat ((w - r) % w)) = d.rotateRight r := by
  rw [BitVec.rotateRight_def, Nat.mod_eq_of_lt h, BitVec.or_comm]
  obtain rfl | hr := Nat.eq_zero_or_pos r
  · rw [Nat.sub_zero, Nat.mod_self, ofNat_rotl d (Nat.zero_le w), Nat.sub_zero, BitVec.ushiftRight_eq_zero (Nat.le_refl w),
      BitVec.shiftLeft_eq_zero (Nat.le_refl w)]
    simp
  · rw [Nat.mod_eq_of_lt (Nat.sub_lt (by omega) hr), ofNat_rotl d (Nat.sub_le ..), Nat.sub_sub_self (Nat.le_of_lt h)]

/-- Settles O14: each command by its subcode; each shift and rotate is the library's on bit patterns, with its value past the width. -/
theorem shfCommandsComplete : Obligations.ShfCommandsComplete := by
  unfold Obligations.ShfCommandsComplete
  refine ⟨fun s e long d hissues => ?commands, fun w d o2 hw => ?values⟩
  case commands =>
    have hrow {c : Instr} (sub : Fin 8) (hc : exec c s = .next (s.shfRow e long sub.val d)) := shfRow_completes hissues long d sub hc
    exact ⟨hrow 0 rfl, hrow 1 rfl, hrow 2 rfl, hrow 3 rfl, hrow 4 rfl, hrow 5 rfl, hrow 6 rfl, hrow 7 rfl⟩
  case values =>
    have hmod : o2.toNat % 64 % w < w := Nat.mod_lt _ (by omega)
    refine ⟨(ofNat_shl d _).trans ?shl, (ofNat_shr d _).trans ?shr, (ofNat_sar d _).trans ?sar, ofNat_rol d hmod, ofNat_ror d hmod⟩
    case shl =>
      split
      case isTrue h => exact BitVec.shiftLeft_eq_zero h
      case isFalse => rfl
    case shr =>
      split
      case isTrue h => exact BitVec.ushiftRight_eq_zero h
      case isFalse => rfl
    case sar =>
      by_cases h : w ≤ o2.toNat % 64
      · rw [if_pos h, sshiftRight_all d h]
      · rw [if_neg h]

end Sys2Proof.Machine
end

section
/-! The CHK commands (10 R211, R224): each enters the pipeline with its remainder or result. -/

namespace Sys2Proof.Machine

variable {s : State} {e : EngN}

theorem Chk.trigger_kept (x : Chk) (sub : Nat) (v : L48) :
    (x.trigger sub v).o = x.o ∧ (x.trigger sub v).poly = x.poly ∧ (x.trigger sub v).cfg = x.cfg := by
  unfold Chk.trigger
  dsimp only
  split <;> exact ⟨rfl, rfl, rfl⟩

/-- A CHK command enters the pipeline as its trigger does. -/
theorem chkRow_enters (hissues : s.issues e.val) (v : L48) (sub : Fin 12) {c : Instr} {f : ChkFl} (hc : exec c s = .next (s.issue e.val (bCHK + sub.val) v))
    (hf : ((s.engine e.val).chk.trigger sub.val v).advance.fl.getLast? = some f) :
    EngineDoes s e c (s.engine e.val).held fun x => x.chk.fl.getLast? = some f := by
  have hport : ∀ sub : Fin 12, isTaskTrigger (bCHK + sub.val) = true ∧ (bCHK + sub.val) / 64 = 6 ∧ (bCHK + sub.val) % 64 = sub.val := by decide
  obtain ⟨htrigger, hunit, hsub⟩ := hport sub
  have hfired : s.fired e.val (bCHK + sub.val) v = { s.issuing e.val with chk := (s.engine e.val).chk.trigger sub.val v } := by
    rw [State.fired, Engine.trigger, hunit, hsub]
    rfl
  obtain ⟨ho, hpoly, hcfg⟩ := (s.engine e.val).chk.trigger_kept sub.val v
  refine .of_taskTrigger hissues htrigger hc ?_ fun fb q => ?_
  · rw [hfired, ← s.issuing_held e.val]
    simp only [Engine.held, ho, hpoly, hcfg]
    rfl
  · show ((s.fired e.val (bCHK + sub.val) v).chk.advance).fl.getLast? = _
    rw [hfired]
    exact hf

/-- Settles O15: each command by its subcode, a word's operation on the word that its long stands for. -/
theorem chkCommandsComplete : Obligations.ChkCommandsComplete := by
  unfold Obligations.ChkCommandsComplete
  intro s e v long l hissues h c step gives
  have hstep {i : Instr} {n : Nat} (sub : Fin 12) (hc : exec i s = .next (s.issue e.val (bCHK + sub.val) (longOf v)))
      (hn : c.trigger sub.val (longOf v) = c.step n (wordOf (longOf v))) : step i n := by
    refine chkRow_enters hissues _ sub hc ?_
    rw [wordOf_longOf] at hn
    exact (congrArg (fun x : Chk => x.advance.fl.getLast?) hn).trans (c.advance_last _ Nat.one_lt_two)
  have hgive {i : Instr} {r : Nat} (a : L48) (sub : Fin 12) (hc : exec i s = .next (s.issue e.val (bCHK + sub.val) a))
      (hr : c.trigger sub.val a = c.give r) : gives i r :=
    chkRow_enters hissues _ sub hc ((congrArg (fun x : Chk => x.advance.fl.getLast?) hr).trans (c.advance_last _ Nat.one_lt_two))
  have hword {i : Instr} {r : Nat → Nat} (sub : Fin 12) (hc : exec i s = .next (s.issue e.val (bCHK + sub.val) (longOf v)))
      (hr : c.trigger sub.val (longOf v) = c.give (r (wordOf (longOf v)).toNat)) : gives i (r v.toNat) :=
    hgive _ sub hc (by rw [hr, wordOf_longOf])
  have hlow : (wordOf l).toNat = l.toNat % 2 ^ 24 := BitVec.toNat_setWidth ..
  have hall : l.toNat = l.toNat % 2 ^ 48 := (Nat.mod_eq_of_lt l.isLt).symm
  refine ⟨hstep 0 rfl rfl, hstep 1 rfl rfl, hstep 2 rfl rfl, hword 3 (r := fun n => popBits 24 n % 2) rfl rfl, hword 4 rfl rfl, hword 5 rfl rfl,
    hword 6 rfl rfl, hword 7 (r := fun n => revBits (min 24 (c.o.toNat % 32)) n) rfl rfl, ?pop, ?clz⟩
  case pop =>
    cases long
    · exact hgive l 8 rfl (congrArg (fun n => c.give (popBits 24 n)) hlow)
    · exact hgive l 10 rfl (congrArg (fun n => c.give (popBits 48 n)) hall)
  case clz =>
    cases long
    · exact hgive l 9 rfl (congrArg (fun n => c.give (clzBits 24 n)) hlow)
    · exact hgive l 11 rfl (congrArg (fun n => c.give (clzBits 48 n)) hall)

end Sys2Proof.Machine
end

section
/-! DIV and DIVU (10 R212, R221, R222). -/

namespace Sys2Proof.Machine

variable {s : State} {e : EngN} {w : Nat}

/-- A subcode's port on DIV: 0 signed, 1 unsigned (09 R190). -/
def divPort (long : Bool) (sub : Nat) : Nat := bDIV + sub + if long then 0x10 else 0

/-- A division in flight comes one cycle nearer to its results. -/
theorem Div_.run_advance (x : Div_) (signed long : Bool) (v : L48) :
    (x.run signed long v).advance.fl = (x.run signed long v).fl.map fun f => { f with k := 13 } := rfl

/-- A division command enters the divider as its trigger does, and makes the division trap due under DZT. -/
theorem divRow_enters (hissues : s.issues e.val) (signed long : Bool) (n : L48) {c : Instr}
    (hc : exec c s = .next (s.issue e.val (divPort long (if signed then 0 else 1)) n)) :
    EngineDoes s e c (s.engine e.val).held fun x => x.div.fl = ((s.engine e.val).div.run signed long n).fl.map (fun f => { f with k := 13 }) ∧
      x.exc.due.getLsbD 2 = ((s.engine e.val).exc.due.getLsbD 2 || ((s.engine e.val).div.traps long && (s.engine e.val).ctl.mode.getLsbD 1)) := by
  have hport : ∀ signed long : Bool, let n := divPort long (if signed then 0 else 1)
      isTaskTrigger n = true ∧ n / 64 = 7 ∧ decide (n % 64 % 2 = 0) = signed ∧ decide (0x10 ≤ n % 64) = long := by decide
  obtain ⟨htrigger, hunit, hsigned, hlong⟩ := hport signed long
  let y := { s.issuing e.val with div := (s.engine e.val).div.run signed long n }
  have hfired : s.fired e.val (divPort long (if signed then 0 else 1)) n =
      if (s.engine e.val).ctl.mode.getLsbD 1 && (s.engine e.val).div.traps long then y.raise 4 else y := by
    rw [State.fired, Engine.trigger, hunit, hsigned, hlong]
    rfl
  refine .of_taskTrigger hissues htrigger hc ?_ fun fb q => ⟨?_, ?_⟩
  · rw [hfired, ← s.issuing_held e.val]
    split <;> rfl
  · rw [← Div_.run_advance]
    show (s.fired e.val (divPort long (if signed then 0 else 1)) n).div.advance.fl = _
    rw [hfired]
    split <;> rfl
  · refine (Engine.passed_due _ e.val fb (by decide) (by decide)).trans ?_
    show (s.fired e.val (divPort long (if signed then 0 else 1)) n).exc.due.getLsbD 2 = _
    rw [hfired, Bool.and_comm]
    cases (s.engine e.val).div.traps long && (s.engine e.val).ctl.mode.getLsbD 1
    · exact (Bool.or_false _).symm
    · exact BitVec.getLsbD_or

/-! Quotients and remainders. -/

theorem divide_unsigned {m : BitVec w} (n : BitVec w) (hm : m ≠ 0) : divide false w n.toNat m.toNat = ((n / m).toNat, (n % m).toNat, false, false) := by
  have hzero : m.toNat ≠ 0 := fun h => hm (BitVec.eq_of_toNat_eq h)
  rw [divide, if_neg hzero, BitVec.toNat_udiv, BitVec.toNat_umod]
  rfl

theorem divide_zero (signed : Bool) (n : BitVec w) : divide signed w n.toNat 0 =
    ((if signed then (if n.msb then 2 ^ (w - 1) else 2 ^ (w - 1) - 1) else 2 ^ w - 1), n.toNat, false, true) := by
  have hmsb : (n.toNat < 2 ^ (w - 1)) ↔ ¬n.msb = true := by rw [BitVec.msb_eq_decide, decide_eq_true_iff, Nat.not_le]
  simp only [divide, if_true, hmsb, ite_not]

/-- A signed division by another divisor: quotient and remainder as integers, reduced to `w` bits. -/
theorem divide_signed {m : BitVec w} (n : BitVec w) (hm : m ≠ 0) : divide true w n.toNat m.toNat =
    ((BitVec.ofInt w (n.toInt.tdiv m.toInt)).toNat, (BitVec.ofInt w (n.toInt.tmod m.toInt)).toNat, !fitsSigned w (n.toInt.tdiv m.toInt), false) := by
  have hzero : m.toNat ≠ 0 := fun h => hm (BitVec.eq_of_toNat_eq h)
  rw [divide, if_neg hzero, if_pos rfl, toSigned_toNat, toSigned_toNat]
  rfl

/-- Settles O16: each command by its subcode; the quotients are the library's on bit patterns but for the two cases of their own. -/
theorem divCommandsComplete : Obligations.DivCommandsComplete := by
  unfold Obligations.DivCommandsComplete
  refine ⟨fun s e long n hissues => ⟨divRow_enters hissues true long n rfl, ?unsigned⟩, fun w n m hw => ⟨divide_unsigned n, ?zeroU, ?zeroS, ?signed, ?most⟩⟩
  case unsigned => exact divRow_enters hissues false long n rfl
  case zeroU =>
    rintro rfl
    rw [BitVec.toNat_allOnes]
    exact divide_zero false n
  case zeroS =>
    rintro rfl
    have hmin : (BitVec.intMin w).toNat = 2 ^ (w - 1) := by
      rw [BitVec.toNat_intMin, Nat.mod_eq_of_lt (Nat.pow_lt_pow_right (by decide) (by omega))]
    rw [apply_ite BitVec.toNat, hmin, BitVec.toNat_intMax]
    exact divide_zero true n
  case signed =>
    intro hm hmost
    have hne : n ≠ BitVec.intMin w ∨ m ≠ -1#w := by
      rw [BitVec.neg_one_eq_allOnes]
      exact not_and_or.1 hmost
    have hfits : fitsSigned w (n.sdiv m).toInt = true := (fitsSigned_iff w _).2 ⟨BitVec.le_toInt _, BitVec.toInt_lt⟩
    rw [divide_signed n hm, ← BitVec.toInt_sdiv_of_ne_or_ne n m hne, ← BitVec.toInt_srem, BitVec.ofInt_toInt, BitVec.ofInt_toInt, hfits]
    rfl
  case most =>
    have hpos : 0 < w := by omega
    have hones : (BitVec.allOnes w).toInt = -1 := by rw [BitVec.toInt_allOnes, if_pos hpos]
    have hquot : (BitVec.intMin w).toInt.tdiv (-1) = -(BitVec.intMin w).toInt := by rw [Int.tdiv_neg, Int.tdiv_one]
    have hrem : (BitVec.intMin w).toInt.tmod (-1) = 0 := by rw [Int.tmod_neg, Int.tmod_one]
    have hv : (!fitsSigned w (-(BitVec.intMin w).toInt)) = true := by rw [fitsSigned_neg hpos]; exact beq_self_eq_true _
    have hne : BitVec.allOnes w ≠ 0 := fun h => by simp [h] at hones
    rw [divide_signed _ hne, hones, hquot, hrem, hv, BitVec.ofInt_neg, BitVec.ofInt_toInt, BitVec.neg_intMin]
    rfl

end Sys2Proof.Machine
end

section
/-! The compares (10 R215, R225): each writes the guard that GD selects. -/

namespace Sys2Proof.Machine

variable {s : State} {e : EngN} {w : Nat}

/-- A compare's port: its kind in the low three bits of the subcode, words from 8 and longs from 0x10 (09 R190). -/
def cmpPort (long : Bool) (kind : Nat) : Nat := bCTL + (if long then 0x10 else 8) + kind

/-- Whether a form has a compare of a kind: the test of bits has a word form alone. -/
def isCompare (long : Bool) (kind : Nat) : Prop := kind < (if long then 6 else 7)

theorem State.fired_ctl (s : State) (e : Nat) {n : Nat} (h : n / 64 = 10) (v : L48) : s.fired e n v = (s.issuing e).ctlTrigger [] (n % 64) v := by
  rw [State.fired, Engine.trigger, h]
  rfl

/-- A CTL trigger from subcode 8 on compares. -/
theorem Engine.ctlTrigger_compare (x : Engine) {sub : Nat} (h : 8 ≤ sub) (v : L48) : x.ctlTrigger [] sub v =
    let w := if 0x10 ≤ sub then 48 else 24
    { x with ctl := x.ctl.setGuard x.ctl.gd.toNat (compare_ sub w (v.toNat % 2 ^ w) (x.ctl.o.toNat % 2 ^ w)) } := by
  obtain ⟨k, rfl⟩ := Nat.exists_eq_add_of_le' h
  simp only [Engine.ctlTrigger, decide_eq_true_eq, List.contains_nil, Bool.false_eq_true, if_false]

theorem Ctl.setGuard_held (x : Engine) (k : Nat) (b : Bool) :
    ({ x with ctl := x.ctl.setGuard k b } : Engine).held = { x.held with guards := (x.ctl.setGuard k b).guards } := by
  unfold Ctl.setGuard
  split <;> rfl

/-- A compare completes with its outcome in the guard. -/
theorem cmpRow_completes (hissues : s.issues e.val) (long : Bool) {kind : Nat} (hk : isCompare long kind) (a : L48) {c : Instr}
    (hc : exec c s = .next (s.issue e.val (cmpPort long kind) a)) :
    let x := s.engine e.val
    let w := if long then 48 else 24
    EngineDoes s e c { x.held with guards := (x.ctl.setGuard x.ctl.gd.toNat (compare_ kind w (a.toNat % 2 ^ w) (x.ctl.o.toNat % 2 ^ w))).guards }
      fun _ => True := by
  have hport : ∀ (long : Bool), ∀ kind < (if long then 6 else 7), isTaskTrigger (cmpPort long kind) = true ∧ cmpPort long kind / 64 = 10 ∧
      8 ≤ cmpPort long kind % 64 ∧ (if 0x10 ≤ cmpPort long kind % 64 then 48 else 24) = (if long then 48 else 24) ∧
      cmpPort long kind % 64 % 8 = kind % 8 := by decide
  obtain ⟨htrigger, hunit, hlow, hwidth, hkind⟩ := hport long kind hk
  refine .of_taskTrigger hissues htrigger hc ?_ fun _ _ => trivial
  rw [s.fired_ctl e.val hunit, Engine.ctlTrigger_compare _ hlow, hwidth, Ctl.setGuard_held, s.issuing_held e.val, compare_, hkind]
  rfl

theorem toSigned_mod (w : Nat) (a : L48) : toSigned w (a.toNat % 2 ^ w) = (a.setWidth w).toInt := by
  rw [← BitVec.toNat_setWidth, toSigned_toNat]

/-- The outcomes of the compares, on the low `w` bits of the operands. -/
theorem compare_outcomes (w : Nat) (a o : L48) :
    let p : BitVec w := a.setWidth w
    let q : BitVec w := o.setWidth w
    let c := fun kind => compare_ kind w (a.toNat % 2 ^ w) (o.toNat % 2 ^ w)
    c 0 = (p == q) ∧ c 1 = (p != q) ∧ c 2 = p.slt q ∧ c 3 = p.sle q ∧ c 4 = p.ult q ∧ c 5 = p.ule q ∧ c 6 = (p &&& q != 0#w) := by
  have hp : a.toNat % 2 ^ w = (a.setWidth w).toNat := (BitVec.toNat_setWidth ..).symm
  have hq : o.toNat % 2 ^ w = (o.setWidth w).toNat := (BitVec.toNat_setWidth ..).symm
  simp only [compare_, hp, hq, toSigned_toNat]
  refine ⟨?_, ?_, rfl, rfl, rfl, rfl, ?_⟩
  · rw [Bool.eq_iff_iff, decide_eq_true_iff, beq_iff_eq, BitVec.toNat_inj]
  · rw [Bool.eq_iff_iff, decide_eq_true_iff, bne_iff_ne, ne_eq, ne_eq, BitVec.toNat_inj]
  · rw [Bool.eq_iff_iff, decide_eq_true_iff, bne_iff_ne, ne_eq, ne_eq, ← BitVec.toNat_inj, BitVec.toNat_and, BitVec.toNat_zero]

theorem one_shiftLeft_bit (k : Nat) {j : Nat} (hj : j < 8) : (1#8 <<< k).getLsbD j = decide (j = k) := by
  rw [← BitVec.twoPow_eq, BitVec.getLsbD_twoPow, Bool.eq_iff_iff, Bool.and_eq_true, decide_eq_true_iff, decide_eq_true_iff, decide_eq_true_iff]
  omega

/-- A guard written (08 R154, 09 R190). -/
theorem Ctl.setGuard_bit (c : Ctl) {k : Nat} (b : Bool) {j : Nat} (hj : j < 8) :
    (c.setGuard k b).guards.getLsbD j = if j = k ∧ k ≠ 0 then b else c.guards.getLsbD j := by
  unfold Ctl.setGuard
  by_cases hk : k = 0
  · rw [if_pos hk, if_neg (by simp [hk])]
  · have hmask : ((if b then 1#8 <<< k else 0) : Byte).getLsbD j = (b && decide (j = k)) := by
      cases b
      · exact BitVec.getLsbD_zero
      · exact one_shiftLeft_bit k hj
    rw [if_neg hk, BitVec.getLsbD_or, BitVec.getLsbD_and, BitVec.getLsbD_not, hmask, one_shiftLeft_bit k hj]
    by_cases hjk : j = k <;> simp [hjk, hj, hk]

/-- Settles O22: each compare by its kind, and a guard by its bits. -/
theorem comparesAndGuards : Obligations.ComparesAndGuards := by
  unfold Obligations.ComparesAndGuards
  refine ⟨?compares, fun c k b _ j hj => c.setGuard_bit b hj⟩
  intro s e long a v hissues x0 h w p q gives
  have hgives {c : Instr} {kind : Nat} {b : Bool} (hk : isCompare long kind) (hc : exec c s = .next (s.issue e.val (cmpPort long kind) a))
      (hb : compare_ kind w (a.toNat % 2 ^ w) (x0.ctl.o.toNat % 2 ^ w) = b) : gives c b := hb ▸ cmpRow_completes hissues long hk a hc
  have hkind {kind : Nat} (h : kind < 6) : isCompare long kind := by
    unfold isCompare
    split <;> omega
  obtain ⟨heq, hne, hlt, hle, hltu, hleu, -⟩ := compare_outcomes w a x0.ctl.o
  refine ⟨hgives (hkind (by decide)) rfl heq, hgives (hkind (by decide)) rfl hne, hgives (hkind (by decide)) rfl hlt, hgives (hkind (by decide)) rfl hle,
    hgives (hkind (by decide)) rfl hltu, hgives (hkind (by decide)) rfl hleu, ?bit⟩
  case bit =>
    obtain ⟨-, -, -, -, -, -, hbit⟩ := compare_outcomes 24 (longOf v) x0.ctl.o
    have hword : (longOf v).setWidth 24 = v := wordOf_longOf v
    rw [hword] at hbit
    exact hbit ▸ cmpRow_completes (kind := 6) hissues false (Nat.lt_succ_self 6) (longOf v) rfl

end Sys2Proof.Machine
end

section
/-! The other CTL triggers (10 R215, 08 R164, R165, 12 R250, R252, R270): what the order of execution is after their bundle. -/

namespace Sys2Proof.Machine

variable {s : State} {e : EngN}

/-! Order of execution at the end of a cycle. -/

/-- Jumps whose delay bundles have not all issued with this bundle count it, and execution goes on in order. -/
theorem Ctl.jump_waits {x : Ctl} (h : ∀ j ∈ x.jumps.head?, 2 ≤ j.1) (a : BitVec 11) :
    x.jump a = { x with jumps := x.jumps.map fun j => (j.1 - 1, j.2), pc := a } := by
  unfold Ctl.jump
  cases hj : x.jumps with
  | nil => rfl
  | cons j l =>
    have htwo : 2 ≤ j.1 := h j (by rw [hj]; rfl)
    obtain ⟨k, hk⟩ := Nat.exists_eq_add_of_le' htwo
    rw [List.map_cons, hk]
    rfl

/-- A jump whose delay bundles have issued with this bundle is taken. -/
theorem Ctl.jump_taken {x : Ctl} {t : BitVec 11} {l : List (Nat × BitVec 11)} (h : x.jumps = (1, t) :: l) (a : BitVec 11) :
    x.jump a = { x with jumps := l.map fun j => (j.1 - 1, j.2), pc := t, bubble := true } := by
  unfold Ctl.jump
  rw [h]
  rfl

theorem Ctl.modeStep_order (x : Ctl) : x.modeStep.jumps = x.jumps ∧ x.modeStep.pc = x.pc := by
  unfold Ctl.modeStep
  split
  · exact ⟨rfl, rfl⟩
  · split <;> exact ⟨rfl, rfl⟩

/-- Without an open repeat level the next address is the next one. -/
theorem Rpt.turn_none {x : Rpt} (h : x.n = 0) (pc : BitVec 11) : x.turn pc none = (x, pc + 1) := if_pos h

/-! RFE's count after an issued bundle (12 R270). -/

theorem Engine.sequence_rfe {x : Engine} {k : Nat} (h : x.exc.rfe = some (k + 2)) (t : Option (Nat × W24)) :
    (x.sequence t).exc.rfe = some (k + 1) ∧ (x.sequence t).exc.restore = x.exc.restore := by
  unfold Engine.sequence
  rw [h]
  exact ⟨rfl, rfl⟩

theorem Engine.sequence_detail (x : Engine) (t : Option (Nat × W24)) : (x.sequence t).exc.detail = x.exc.detail := by
  unfold Engine.sequence
  dsimp only
  split
  · rfl
  · split <;> rfl

/-! What the triggers do to the engine itself. -/

/-- An engine with jumps added, another LINK, and other exceptions. -/
def Engine.adding (x : Engine) (l : List (Nat × BitVec 11)) (k : BitVec 11) (ex : Exc) : Engine :=
  { x with ctl := { x.ctl with jumps := x.ctl.jumps ++ l, link := k }, exc := ex }

theorem Engine.adding_nil (x : Engine) (ex : Exc) : x.adding [] x.ctl.link ex = { x with exc := ex } := by
  rw [Engine.adding, List.append_nil]

theorem Engine.ctlTrigger_jmp (x : Engine) (v : W24) : x.ctlTrigger [] 0 (longOf v) = x.adding [(3, v.setWidth 11)] x.ctl.link x.exc := by
  unfold Engine.ctlTrigger
  rw [wordOf_longOf]
  rfl

theorem Engine.ctlTrigger_call (x : Engine) (v : W24) : x.ctlTrigger [] 1 (longOf v) = x.adding [(3, v.setWidth 11)] (x.ctl.pc + 3) x.exc := by
  unfold Engine.ctlTrigger
  rw [wordOf_longOf]
  rfl

theorem Engine.ctlTrigger_ret (x : Engine) (v : L48) : x.ctlTrigger [] 2 v = x.adding [(3, x.ctl.link)] x.ctl.link x.exc := rfl

theorem Engine.ctlTrigger_trap (x : Engine) (v : W24) :
    x.ctlTrigger [] 3 (longOf v) = x.adding [] x.ctl.link { x.exc with due := x.exc.due ||| 2, detail := v.setWidth 8 } := by
  rw [x.adding_nil]
  unfold Engine.ctlTrigger
  rw [wordOf_longOf]
  rfl

theorem Engine.ctlTrigger_rfe {x : Engine} (h : x.exc.rfe = none) (v : L48) : x.ctlTrigger [] 4 v = x.adding [] x.ctl.link { x.exc with rfe := some 3 } := by
  rw [x.adding_nil]
  exact if_neg (by rw [h]; decide)

/-- In a delay bundle of another RFE nothing changes. -/
theorem Engine.ctlTrigger_again {x : Engine} {k : Nat} (h : x.exc.rfe = some k) (v : L48) : x.ctlTrigger [] 4 v = x.adding [] x.ctl.link x.exc := by
  rw [x.adding_nil]
  exact if_pos (by rw [h]; rfl)

/-! The triggers without a jump that is taken. -/

/-- After a bundle in whose cycle no jump is taken and no repeat level is open, execution goes on in order. -/
theorem Engine.passed_waits {x : Engine} (hjumps : ∀ j ∈ x.ctl.jumps.head?, 2 ≤ j.1) (hrpt : x.rpt.n = 0) (e : Nat) (fb : BitVec 25) :
    (x.passed e fb).ctl.jumps = x.ctl.jumps.map (fun j => (j.1 - 1, j.2)) ∧ (x.passed e fb).ctl.pc = x.ctl.pc + 1 ∧
      (x.passed e fb).ctl.bubble = x.ctl.bubble := by
  have hctl : (x.passed e fb).ctl = (x.ctl.jump (x.ctl.pc + 1)).modeStep := by
    show (x.ctl.jump (x.rpt.turn x.ctl.pc none).2).modeStep = _
    rw [Rpt.turn_none hrpt]
  obtain ⟨hmodeJumps, hmodePc⟩ := (x.ctl.jump (x.ctl.pc + 1)).modeStep_order
  rw [hctl, hmodeJumps, hmodePc, Ctl.modeStep_bubble, Ctl.jump_waits hjumps]
  exact ⟨rfl, rfl, rfl⟩

/-- What a CTL trigger below the compares leaves: jumps that are added, LINK, and exceptions. -/
theorem ctlRow_waits (hissues : s.issues e.val) (hjumps : ∀ j ∈ (s.engine e.val).ctl.jumps.head?, 2 ≤ j.1) (hrpt : (s.engine e.val).rpt.n = 0)
    {c : Instr} {v : W24} (sub : Fin 5) (hsup : sub = 4 → (s.engine e.val).ctl.mode.getLsbD 3 = true)
    (hc : exec c s = .next (s.issue e.val (bCTL + sub.val) (longOf v))) {l : List (Nat × BitVec 11)} {k : BitVec 11} {ex : Exc}
    (hl : ∀ j ∈ l.head?, 2 ≤ j.1) (htrigger : (s.issuing e.val).ctlTrigger [] sub.val (longOf v) = (s.issuing e.val).adding l k ex) :
    EngineDoes s e c { (s.engine e.val).held with link := k } fun x =>
      (x.ctl.jumps = ((s.engine e.val).ctl.jumps ++ l).map (fun j => (j.1 - 1, j.2)) ∧ x.ctl.pc = (s.engine e.val).ctl.pc + 1 ∧ x.ctl.bubble = false) ∧
      (∀ k, ex.rfe = some (k + 2) → x.exc.rfe = some (k + 1) ∧ x.exc.restore = ex.restore) ∧
      x.exc.detail = ex.detail ∧ ∀ i, i ≠ 5 → i ≠ 6 → x.exc.due.getLsbD i = ex.due.getLsbD i := by
  have hport : ∀ sub : Fin 5, isOwnTrigger (bCTL + sub.val) = true ∧ (bCTL + sub.val) / 64 = 10 ∧ (bCTL + sub.val) % 64 = sub.val ∧
      (isSuper (bCTL + sub.val) = true → sub = 4) := by decide
  obtain ⟨hown, hunit, hsub, hsuper⟩ := hport sub
  let y : Engine := (s.issuing e.val).adding l k ex
  have hfired : s.fired e.val (bCTL + sub.val) (longOf v) = y := by rw [s.fired_ctl e.val hunit, hsub, htrigger]
  have hhead : ∀ j ∈ y.ctl.jumps.head?, 2 ≤ j.1 := by
    show ∀ j ∈ ((s.engine e.val).ctl.jumps ++ l).head?, 2 ≤ j.1
    cases hj : (s.engine e.val).ctl.jumps with
    | nil => exact hl
    | cons j m =>
      rw [hj] at hjumps
      exact hjumps
  refine .of_trigger hissues hown (fun h => hsup (hsuper h)) hc ?_ fun fb q => ?_
  · rw [hfired, ← s.issuing_held e.val]
    rfl
  · obtain ⟨hmapped, hpc, hbubble⟩ := Engine.passed_waits hhead hrpt e.val fb
    rw [hfired]
    exact ⟨⟨hmapped, hpc, hbubble.trans (State.ready_parts hissues.1).2.1⟩, fun k h => Engine.sequence_rfe (x := y) h none, y.sequence_detail none,
      fun i => Engine.passed_due y e.val fb⟩

/-! A jump that is taken. -/

/-- At a trigger in whose cycle a jump is taken the engine fetches nothing. -/
theorem EngineDoes.of_trigger_jumping {c : Instr} {n : Nat} {v : L48} {h : Held} {p : Engine → Prop} (hissues : s.issues e.val) (hn : isTaskTrigger n = true)
    (hc : exec c s = .next (s.issue e.val n v)) (hheld : (s.fired e.val n v).held = h)
    (hp : ∀ fb, ((s.fired e.val n v).passed e.val fb).ctl.bubble = true ∧ p ((s.fired e.val n v).passed e.val fb)) : EngineDoes s e c h p := by
  rw [isTaskTrigger, Bool.and_eq_true] at hn
  obtain ⟨hown, hsuper⟩ := hn
  obtain ⟨htrigger, hrpt, hsmv, hload, hout⟩ := (isOwnTrigger_iff n).1 hown
  have hf := moveFault_trigger (s.engine e.val).rpt.n.val v htrigger hrpt (sup := (s.engine e.val).ctl.mode.getLsbD 3) (fun h => by simp [h] at hsuper)
  obtain ⟨hbubble, hx⟩ := hp (s.pst.fbase.get 0 (e.val - 1024))
  have hissue : s.issue e.val n v = s.setEngine e.val ((s.fired e.val n v).passed e.val (s.pst.fbase.get 0 (e.val - 1024))) := by
    rw [State.issue_eq hissues hf, State.endCycle_trigger htrigger hsmv hload hout, State.engine_setEngine, State.setEngine_setEngine, ← State.issuing]
    show (s.setEngine e.val ((s.issuing e.val).performed e.val s.now n v _)).prefetch e.val = _
    rw [State.performed_eq_passed hrpt, State.prefetch, State.engine_setEngine]
    exact if_pos (by rw [Bool.or_eq_true]; exact .inl hbubble)
  refine ⟨_, hc.trans (congrArg Host.Outcome.next hissue), .set .., ?_, ?_⟩
  · rw [State.engine_setEngine, Engine.passed_held]
    exact hheld
  · rw [State.engine_setEngine]
    exact hx

/-- After a bundle behind whose delay bundles a jump waited, execution goes on at the jump's target, and nothing is queued. -/
theorem Engine.passed_taken {x : Engine} {t : BitVec 11} {l : List (Nat × BitVec 11)} (h : x.ctl.jumps = (1, t) :: l) (e : Nat) (fb : BitVec 25) :
    (x.passed e fb).ctl.pc = t ∧ (x.passed e fb).ctl.bubble = true ∧ (x.passed e fb).ctl.jumps = l.map (fun j => (j.1 - 1, j.2)) ∧
      (x.passed e fb).pfq = [] := by
  let c := x.ctl.jump (x.rpt.turn x.ctl.pc none).2
  have hc : c = { x.ctl with jumps := l.map fun j => (j.1 - 1, j.2), pc := t, bubble := true } := Ctl.jump_taken h _
  have hctl : (x.passed e fb).ctl = c.modeStep := rfl
  obtain ⟨hmodeJumps, hmodePc⟩ := c.modeStep_order
  rw [hctl, hmodeJumps, hmodePc, Ctl.modeStep_bubble, hc]
  exact ⟨rfl, rfl, rfl, if_pos (congrArg Ctl.bubble hc)⟩

/-- A JMP in the second delay bundle of another: that one is taken. -/
theorem ctlJmp_inDelay (hissues : s.issues e.val) (v : W24) {t : BitVec 11} (hj : (s.engine e.val).ctl.jumps = [(1, t)]) :
    EngineDoes s e (.ctlJmp e v) (s.engine e.val).held fun x =>
      x.ctl.pc = t ∧ x.ctl.bubble = true ∧ x.ctl.jumps = [(2, v.setWidth 11)] ∧ x.pfq = [] := by
  let y : Engine := (s.issuing e.val).adding [(3, v.setWidth 11)] (s.engine e.val).ctl.link (s.engine e.val).exc
  have hfired : s.fired e.val bCTL (longOf v) = y := (s.fired_ctl e.val (by decide) (longOf v)).trans (Engine.ctlTrigger_jmp ..)
  have hjumps : y.ctl.jumps = (1, t) :: [(3, v.setWidth 11)] := congrArg (· ++ [(3, v.setWidth 11)]) hj
  refine .of_trigger_jumping hissues (n := bCTL) (by decide) rfl (by rw [hfired, ← s.issuing_held e.val]; rfl) fun fb => ?_
  rw [hfired]
  have htaken := Engine.passed_taken hjumps e.val fb
  exact ⟨htaken.2.1, htaken⟩

/-- Settles O21: each trigger by its subcode, and what it leaves by the order of execution after its bundle. -/
theorem ctlTriggersAndJumps : Obligations.CtlTriggersAndJumps := by
  unfold Obligations.CtlTriggersAndJumps
  refine ⟨fun s e v hissues => ?triggers, fun s e v t hissues hj => ctlJmp_inDelay hissues v hj⟩
  intro x0 h hjumps hrpt waits
  have hthree (t : BitVec 11) : ∀ j ∈ [((3 : Nat), t)].head?, 2 ≤ j.1 := by
    intro j hj
    obtain rfl := Option.some.inj hj
    exact Nat.le_succ 2
  have hnone : ∀ j ∈ ([] : List (Nat × BitVec 11)).head?, 2 ≤ j.1 := fun j hj => nomatch hj
  have hplain {sub : Fin 5} (h : sub ≠ 4) : sub = 4 → x0.ctl.mode.getLsbD 3 = true := fun h4 => absurd h4 h
  refine ⟨?jmp, ?call, ?ret, ?trap, ?rfe, ?again⟩
  case jmp => exact (ctlRow_waits hissues hjumps hrpt 0 (hplain (by decide)) rfl (hthree _) (Engine.ctlTrigger_jmp ..)).mono fun x hx => hx.1
  case call => exact (ctlRow_waits hissues hjumps hrpt 1 (hplain (by decide)) rfl (hthree _) (Engine.ctlTrigger_call ..)).mono fun x hx => hx.1
  case ret => exact (ctlRow_waits hissues hjumps hrpt 2 (hplain (by decide)) rfl (hthree _) (Engine.ctlTrigger_ret ..)).mono fun x hx => hx.1
  case trap =>
    refine (ctlRow_waits hissues hjumps hrpt 3 (hplain (by decide)) rfl hnone (Engine.ctlTrigger_trap ..)).mono
      fun x ⟨hwaits, _, hdetail, hdue⟩ => ⟨hwaits, (hdue 1 (by decide) (by decide)).trans ?_, hdetail⟩
    rw [BitVec.getLsbD_or]
    exact Bool.or_true _
  case rfe =>
    exact fun hsup hrfe => (ctlRow_waits hissues hjumps hrpt 4 (fun _ => hsup) rfl hnone (Engine.ctlTrigger_rfe (x := s.issuing e.val) hrfe _)).mono
      fun x ⟨hwaits, hcounts, _⟩ => ⟨hwaits, hcounts 1 rfl⟩
  case again =>
    exact fun k hsup hrfe => (ctlRow_waits hissues hjumps hrpt 4 (fun _ => hsup) rfl hnone (Engine.ctlTrigger_again (x := s.issuing e.val) hrfe _)).mono
      fun x ⟨hwaits, hcounts, _⟩ => ⟨hwaits, hcounts k hrfe⟩

end Sys2Proof.Machine
end

section
/-! The TSU triggers and the end of a WAIT (10 R216, R228, 12 R264, 08 R160). -/

namespace Sys2Proof.Machine

variable {s : State} {e : EngN}

theorem Tsu.advance_epl (x : Tsu) : x.advance.epl = x.epl := by
  unfold Tsu.advance
  exact foldl_keeps Tsu.epl (fun y (f : TsuFl) => { y with q := f.val }) (fun _ _ => rfl) _ _

theorem Tsu.advance_fl (x : Tsu) : x.advance.fl = (x.fl.map fun f => { f with k := f.k - 1 }).filter fun f => f.k ≠ 0 || f.wait := by
  unfold Tsu.advance
  exact foldl_keeps Tsu.fl (fun y (f : TsuFl) => { y with q := f.val }) (fun _ _ => rfl) _ _

/-- What entered last stays in flight, one cycle nearer to its outcome. -/
theorem Tsu.advance_last {x : Tsu} {l : List TsuFl} {w : Bool} {v : L48} (h : x.fl = l ++ [⟨2, w, v⟩]) :
    x.advance.fl.getLast? = some ⟨1, w, v⟩ := by
  rw [Tsu.advance_fl, h, List.map_append, List.filter_append]
  simp

/-- Only the WAIT that enters is in flight. -/
theorem Tsu.trigger_wait (x : Tsu) (now : Nat) (v : L48) : (x.trigger 2 now v).advance.fl.filter (·.wait) = [⟨1, true, v⟩] := by
  have hothers : (((x.fl.filter (!·.wait)).map fun f => { f with k := f.k - 1 }).filter fun f => f.k ≠ 0 || f.wait).filter (·.wait) = [] := by
    rw [List.filter_eq_nil_iff]
    intro f hf
    obtain ⟨g, hg, rfl⟩ := List.mem_map.1 (List.mem_filter.1 hf).1
    simpa using (List.mem_filter.1 hg).2
  rw [Tsu.advance_fl]
  have hfl : (x.trigger 2 now v).fl = x.fl.filter (!·.wait) ++ [⟨2, true, v⟩] := rfl
  rw [hfl, List.map_append, List.filter_append, List.filter_append, hothers]
  rfl

/-- A TSU trigger enters as its trigger does. -/
theorem tsuRow_enters (hissues : s.issues e.val) (sub : Fin 3) (v : L48) {c : Instr} (hc : exec c s = .next (s.issue e.val (bTSU + sub.val) v)) {p : Tsu → Prop}
    (hp : p (((s.engine e.val).atTwo s.tb.tick.toNat s.now).tsu.trigger sub.val s.now v).advance) :
    EngineDoes s e c ((s.engine e.val).atTwo s.tb.tick.toNat s.now).held fun x => p x.tsu := by
  have hport : ∀ sub : Fin 3, isTaskTrigger (bTSU + sub.val) = true ∧ (bTSU + sub.val) / 64 = 13 ∧ (bTSU + sub.val) % 64 = sub.val := by decide
  obtain ⟨htrigger, hunit, hsub⟩ := hport sub
  have hfired : s.fired e.val (bTSU + sub.val) v = { s.issuing e.val with tsu := (s.issuing e.val).tsu.trigger sub.val s.now v } := by
    rw [State.fired, Engine.trigger, hunit, hsub]
    rfl
  refine .of_taskTrigger hissues htrigger hc (by rw [hfired]; rfl) fun fb q => ?_
  rw [hfired]
  exact hp

/-- Chip time as the count of its epoch and its tick. -/
theorem State.now_parts (s : State) : s.now / 2 ^ 48 = s.tb.epoch.toNat ∧ s.now % 2 ^ 48 = s.tb.tick.toNat := by
  have htick : s.tb.tick.toNat < 2 ^ 48 := s.tb.tick.isLt
  unfold State.now
  omega

/-- Chip time runs on to a later tick of the present epoch. -/
theorem State.reach_later {v : L48} (h : s.tb.tick.toNat < v.toNat) : s.reach (s.now + (v.toNat - s.tb.tick.toNat)) = { s with tb := { s.tb with tick := v } } := by
  have hv : v.toNat < 2 ^ 48 := v.isLt
  obtain ⟨hepoch, htick⟩ := s.now_parts
  have hmin : min (s.now + (v.toNat - s.tb.tick.toNat)) (s.tb.epoch.toNat * 2 ^ 48 + (2 ^ 48 - 1)) = s.tb.epoch.toNat * 2 ^ 48 + v.toNat := by omega
  have hdiv : (s.tb.epoch.toNat * 2 ^ 48 + v.toNat) / 2 ^ 48 = s.tb.epoch.toNat := by omega
  have hword : BitVec.ofNat 48 (s.tb.epoch.toNat * 2 ^ 48 + v.toNat) = v := by
    refine BitVec.eq_of_toNat_eq ?_
    rw [BitVec.toNat_ofNat]
    omega
  rw [State.reach, if_pos (by omega), hmin, State.setTime, hdiv, hword, BitVec.ofNat_toNat, BitVec.setWidth_eq]

/-- Settles O25: each trigger by its subcode; the target of the WAIT that freezes lies ahead in the present epoch. -/
theorem timeUnitCommandsComplete : Obligations.TimeUnitCommandsComplete := by
  unfold Obligations.TimeUnitCommandsComplete
  refine ⟨fun s e v hissues => ⟨?now, ?ep, ?wait⟩, fun s e f hruns hf hdue hlt => ?due⟩
  case now =>
    obtain ⟨hepoch, htick⟩ := s.now_parts
    have htickWord : BitVec.ofNat 48 s.now = s.tb.tick := BitVec.eq_of_toNat_eq (by rw [BitVec.toNat_ofNat, htick])
    have hepochWord : BitVec.ofNat 32 (s.now / 2 ^ 48) = s.tb.epoch := by rw [hepoch, BitVec.ofNat_toNat, BitVec.setWidth_eq]
    refine tsuRow_enters hissues 0 v rfl (p := fun y => y.fl.getLast? = some ⟨1, false, s.tb.tick⟩ ∧ y.epl = s.tb.epoch) ⟨?_, ?_⟩
    · exact (Tsu.advance_last rfl).trans (by rw [htickWord])
    · exact (Tsu.advance_epl _).trans hepochWord
  case ep =>
    exact tsuRow_enters hissues 1 v rfl (p := fun y => y.fl.getLast? = some ⟨1, false, _⟩ ∧ y.epl = _) ⟨Tsu.advance_last rfl, Tsu.advance_epl _⟩
  case wait => exact tsuRow_enters hissues 2 v rfl (p := fun y => y.fl.filter _ = _ ∧ y.epl = _) ⟨Tsu.trigger_wait _ _ v, Tsu.advance_epl _⟩
  case due =>
    have hv : f.val.toNat < 2 ^ 48 := f.val.isLt
    obtain ⟨-, htick⟩ := s.now_parts
    have hahead : (f.val.toNat + 2 ^ 48 - s.tb.tick.toNat) % 2 ^ 48 = f.val.toNat - s.tb.tick.toNat := by omega
    have htarget : (s.engine e.val).waitTarget s.now = some (s.now + (f.val.toNat - s.tb.tick.toNat)) := by
      rw [Engine.waitTarget, hf, htick, ← hahead]
      exact if_neg (by rw [hdue]; decide)
    have hwaits : s.waitDue e.val = { s with tb := { s.tb with tick := f.val } } := by
      rw [State.waitDue, if_pos hruns, htarget]
      exact State.reach_later hlt
    exact ⟨_, congrArg Host.Outcome.next hwaits, (Does.set_tb s _).same, rfl⟩

end Sys2Proof.Machine
end

section
/-! The LSU1 commands and the regions (10 R214, 09 R199, 14 R302). -/

namespace Sys2Proof.Machine

variable {s : State} {e : EngN}

theorem Lsu1.advance_fl (x : Lsu1) : x.advance.fl = (x.fl.map fun f => { f with k := f.k - 1 }).filter fun f => !f.over := by
  unfold Lsu1.advance
  exact foldl_keeps Lsu1.fl (fun y (f : L1Fl) => if f.st = .data then { y with q := f.val } else y) (fun y f => by split <;> rfl) _ _

/-- What entered last stays in flight, one cycle nearer to its count. -/
theorem Lsu1.advance_last {x : Lsu1} {l : List L1Fl} {f : L1Fl} (h : x.fl = l ++ [f]) (hk : f.k = 6) :
    x.advance.fl.getLast? = some { f with k := 5 } := by
  rw [Lsu1.advance_fl, h, List.map_append, List.filter_append]
  simp [L1Fl.over, hk]

/-- An access as it enters from a trigger. -/
def Lsu1.entering (x : Lsu1) (load : Bool) (sub : Nat) (v : L48) : L1Fl :=
  ⟨6, .waitGrant, load, BitVec.ofNat 40 (v.toNat % 2 ^ 40), (lsuForm sub).1, (lsuForm sub).2, x.o, [], false, [], 0, false⟩

/-- A trigger whose access the regions refuse. -/
theorem Engine.trigger1_refused {x : Engine} {sub : Nat} {v : L48} (h : x.lsu1.refuses (lsuLoads sub) (v.toNat % 2 ^ 40) (lsuForm sub).1 = true) :
    x.trigger1 sub v = { x.raise 16 with
      lsu1 := if lsuLoads sub then { x.lsu1 with fl := x.lsu1.fl ++ [{ x.lsu1.entering (lsuLoads sub) sub v with st := .refused }] } else x.lsu1 } := by
  unfold Engine.trigger1 Lsu1.entering
  dsimp only
  rw [if_pos h]
  cases lsuLoads sub <;> rfl

/-- A trigger whose access they let pass. -/
theorem Engine.trigger1_waits {x : Engine} {sub : Nat} {v : L48} (h : x.lsu1.refuses (lsuLoads sub) (v.toNat % 2 ^ 40) (lsuForm sub).1 = false) :
    x.trigger1 sub v = { x with lsu1 := { x.lsu1 with fl := x.lsu1.fl ++ [x.lsu1.entering (lsuLoads sub) sub v] } } := if_neg (by rw [h]; decide)

/-- The subcodes of LSU1 (09 R190). -/
def lsuSubs : List Nat := [0, 1, 2, 3, 8, 9, 10]

/-- What an LSU1 command leaves: its access is refused, or waits for its grant. -/
theorem lsu1Row_enters (hissues : s.issues e.val) (v : L48) {sub : Nat} (hsub : sub ∈ lsuSubs) {c : Instr}
    (hc : exec c s = .next (s.issue e.val (bLSU1 + sub) v)) :
    let x := (s.engine e.val).lsu1
    let f := fun load => ({ x.entering load sub v with k := 5 } : L1Fl)
    (x.refuses (lsuLoads sub) (v.toNat % 2 ^ 40) (lsuForm sub).1 = true → EngineDoes s e c (s.engine e.val).held fun y =>
      y.exc.due.getLsbD 4 = true ∧ (lsuLoads sub = true → y.lsu1.fl.getLast? = some { f true with st := .refused })) ∧
    (x.refuses (lsuLoads sub) (v.toNat % 2 ^ 40) (lsuForm sub).1 = false → EngineDoes s e c (s.engine e.val).held fun y =>
      y.lsu1.fl.getLast? = some (f (lsuLoads sub))) := by
  have hport : ∀ sub ∈ lsuSubs, isTaskTrigger (bLSU1 + sub) = true ∧ (bLSU1 + sub) / 64 = 9 ∧ (bLSU1 + sub) % 64 = sub := by decide
  obtain ⟨htrigger, hunit, hmod⟩ := hport sub hsub
  have hfired : s.fired e.val (bLSU1 + sub) v = (s.issuing e.val).trigger1 sub v := by
    rw [State.fired, Engine.trigger, hunit, hmod]
    rfl
  refine ⟨fun h => ?refused, fun h => ?waits⟩
  case refused =>
    have hy := hfired.trans (Engine.trigger1_refused (x := s.issuing e.val) h)
    refine .of_taskTrigger hissues htrigger hc ?_ fun fb q => ⟨?_, fun hload => ?_⟩
    · rw [hy, ← s.issuing_held e.val]
      cases lsuLoads sub <;> rfl
    · refine (Engine.passed_due _ e.val fb (by decide) (by decide)).trans ?_
      rw [hy]
      show ((s.engine e.val).exc.due ||| 16).getLsbD 4 = true
      rw [BitVec.getLsbD_or]
      exact Bool.or_true _
    · rw [hy, hload]
      exact Lsu1.advance_last (f := { (s.engine e.val).lsu1.entering true sub v with st := .refused }) rfl rfl
  case waits =>
    have hy := hfired.trans (Engine.trigger1_waits (x := s.issuing e.val) h)
    refine .of_taskTrigger hissues htrigger hc (by rw [hy, ← s.issuing_held e.val]; rfl) fun fb q => ?_
    rw [hy]
    exact Lsu1.advance_last rfl rfl

/-- The right that an access needs, as a bit of a descriptor's control field. -/
theorem desc_right (c : BitVec 3) (load : Bool) :
    (c.toNat % 4 &&& (if load then 1 else 2) = if load then 1 else 2) ↔ c.getLsbD (if load then 0 else 1) = true := by
  revert c load
  decide

theorem Lsu1.allows_iff (x : Lsu1) (load : Bool) (a : Nat) : x.allows (if load then 1 else 2) a = true ↔
    ∃ d ∈ x.desc, d.2.ctl.getLsbD 2 = true ∧ d.2.ctl.getLsbD (if load then 0 else 1) = true ∧ d.2.base.toNat * 64 ≤ a ∧ a ≤ d.2.limit.toNat * 64 + 63 := by
  simp only [Lsu1.allows, List.any_eq_true, Bool.and_eq_true, decide_eq_true_eq, desc_right, and_assoc]

/-- What LSU1 lets pass: each byte allowed, and no word or long askew in a PMEM window. -/
theorem Lsu1.refuses_iff (x : Lsu1) (load : Bool) (a n : Nat) : x.refuses load a n = false ↔
    (∀ i < n, ∃ d ∈ x.desc, d.2.ctl.getLsbD 2 = true ∧ d.2.ctl.getLsbD (if load then 0 else 1) = true ∧
      d.2.base.toNat * 64 ≤ a + i ∧ a + i ≤ d.2.limit.toNat * 64 + 63) ∧
    (n ≠ 1 → ∀ o, pmemOffset a = some o → o % 3 = 0) := by
  simp only [← Lsu1.allows_iff]
  rw [Lsu1.refuses, Bool.or_eq_false_iff, Bool.not_eq_false', List.all_eq_true, and_comm]
  simp only [List.mem_range, Bool.and_eq_false_iff, bne_eq_false_iff_eq, Option.any_eq_false, ne_eq, or_iff_not_imp_left]

/-- Settles O19: each command by its subcode, and the regions byte by byte. -/
theorem lsu1CommandsAndRegions : Obligations.Lsu1CommandsAndRegions := by
  unfold Obligations.Lsu1CommandsAndRegions
  refine ⟨fun s e v hissues => ?commands, fun x load a n _ => x.refuses_iff load a n⟩
  intro x0 h a gives
  have hrow {c : Instr} {sub : Nat} (hsub : sub ∈ lsuSubs) (hc : exec c s = .next (s.issue e.val (bLSU1 + sub) v)) :
      gives c (lsuLoads sub) (lsuForm sub).1 (lsuForm sub).2 := lsu1Row_enters hissues v hsub hc
  exact ⟨hrow (by decide) (sub := 0) rfl, hrow (by decide) (sub := 1) rfl, hrow (by decide) (sub := 2) rfl, hrow (by decide) (sub := 3) rfl,
    hrow (by decide) (sub := 8) rfl, hrow (by decide) (sub := 9) rfl, hrow (by decide) (sub := 10) rfl⟩

end Sys2Proof.Machine
end

section
/-! Writes of DMEM that meet a waiting rewrite (14 R307, R316): the row joins the correctable-error list. -/

namespace Sys2Proof.Machine

/-- The first row of engine 0's DMEM waits for a rewrite, while the engine, running in pod 0, is to write there: from its store buffer, or a record
that has arrived for its ring. -/
def writesMeetRewrite : State where
  pods := [(0, { powered := true, erst := 0, arrival := [⟨0, 0, zeros 3⟩] })]
  eng := [(0, { lsu0 := { sb := [⟨dmemAddr 0 0 0, [1, 2, 3], false⟩] } })]
  mem := { rewrite := [(.home (dmemAddr 0 0 0), [])] }
  pwr := { boot := .up }

/-- The drained store drops the write-back, and its row is to be visited again (14 R316). -/
theorem writesMeetRewrite_drain (t : State) (ht : exec (.storeBufferDrain 0) writesMeetRewrite = .next t) : t.mem.cel = [.home (dmemAddr 0 0 0)] := by
  cases ht
  decide

/-- So does the record that is published. -/
theorem writesMeetRewrite_publish (t : State) (ht : exec (.routerPublish 0) writesMeetRewrite = .next t) : t.mem.cel = [.home (dmemAddr 0 0 0)] := by
  cases ht
  decide

/-- Refutes O17: its frame of a drain leaves the correctable-error list out of what may change, and a drain into a row whose write-back waits puts that row
into the list (14 R316). -/
theorem not_lsu0StoresAndDrain : ¬ Obligations.Lsu0StoresAndDrain := by
  unfold Obligations.Lsu0StoresAndDrain
  rintro ⟨-, hdrain⟩
  obtain ⟨t, hexec, hsame, -⟩ := hdrain writesMeetRewrite 0 ⟨dmemAddr 0 0 0, [1, 2, 3], false⟩ [] (by decide) rfl rfl (by decide) (by decide)
  have hcel : t.mem.cel = [] := hsame .cel (by decide)
  rw [writesMeetRewrite_drain t hexec] at hcel
  exact absurd hcel (by decide)

/-- Refutes O26: its frame of a published record leaves the correctable-error list out of what may change, and a record laid into a row whose write-back
waits puts that row into the list (14 R316). -/
theorem not_streamCommandsComplete : ¬ Obligations.StreamCommandsComplete := by
  unfold Obligations.StreamCommandsComplete
  rintro ⟨-, -, -, hpublish⟩
  obtain ⟨t, hexec, hsame, -⟩ := hpublish writesMeetRewrite 0 ⟨0, 0, zeros 3⟩ [] 0 (by decide) (by decide) (by decide) (by simp [writesMeetRewrite])
    (by decide) (by decide) (by decide) (by decide)
  have hcel : t.mem.cel = [] := hsame .cel (by decide)
  rw [writesMeetRewrite_publish t hexec] at hcel
  exact absurd hcel (by decide)

end Sys2Proof.Machine
end

section
/-! Reads of DMEM that meet no inverted bit (14 R297): the rows that an access of LSU0 covers, and the bytes there. -/

namespace Sys2Proof.Machine

variable {s : State} {e : Nat}

/-- Byte `k` of the engine blocks, in the DMEM of an engine of a pod. -/
theorem engBlock_dmem {k off i : Nat} (hk : k < 0x10000000) (hblock : k % 0x800000 = 0x100000 + (i * 0x20000 + off)) (hi : i < 32) (hoff : off < 73728) :
    memKind (engBlock + k) = .dmem ∧ memRow (engBlock + k) = (engBlock + k - off % 6, 6) := by
  have hoffset : (i * 0x20000 + off) % 0x20000 = off := by omega
  have hlimit : i * 0x20000 + off < 0x400000 := by omega
  have hstaging : stagingBase = 0x100000000 := rfl
  have hpmem : pmemBase = 0x200000000 := rfl
  have hmsram : msramBase = 0x100000 := rfl
  have hbase : engBlock = 0x410000000 := rfl
  have hpestle : pdmemBase = 0x10000000000 := rfl
  have hkind : memKind (engBlock + k) = .dmem := by
    simp only [memKind, hstaging, hpmem, hbase, hmsram, Bool.and_eq_true, decide_eq_true_eq]
    rw [if_neg (by omega), if_neg (by omega), if_neg (by omega), if_neg (by omega), if_pos (by omega), Nat.add_sub_cancel_left, hblock,
      if_neg (by omega), if_pos (by omega)]
  refine ⟨hkind, ?_⟩
  rw [memRow, hkind]
  simp only [hpestle]
  rw [if_neg (by omega), Nat.add_sub_cancel_left, hblock, Nat.add_sub_cancel_left, hoffset]

/-- Byte `k` of the homes of Pestle's DMEM. -/
theorem pdmemBase_dmem {k off : Nat} (hk : k < 0x80000) (hoffset : k % 0x20000 = off) (hoff : off < 73728) :
    memKind (pdmemBase + k) = .dmem ∧ memRow (pdmemBase + k) = (pdmemBase + k - off % 6, 6) := by
  have hdram : dramEnd ≤ pdmemBase := Nat.min_le_left ..
  have hdramBase : dramBase = 0x1000000000 := rfl
  have hstaging : stagingBase = 0x100000000 := rfl
  have hpmem : pmemBase = 0x200000000 := rfl
  have hmsram : msramBase = 0x100000 := rfl
  have hbase : engBlock = 0x410000000 := rfl
  have hpestle : pdmemBase = 0x10000000000 := rfl
  have hkind : memKind (pdmemBase + k) = .dmem := by
    simp only [memKind, hstaging, hpmem, hbase, hmsram, hdramBase, Bool.and_eq_true, decide_eq_true_eq]
    rw [if_neg (by omega), if_neg (by omega), if_neg (by omega), if_neg (by omega), if_neg (by omega), if_neg (by omega), Nat.add_sub_cancel_left,
      hoffset, if_pos (by omega)]
  refine ⟨hkind, ?_⟩
  rw [memRow, hkind]
  simp only
  rw [if_pos (by omega), Nat.add_sub_cancel_left, hoffset]

/-- A byte of an engine's DMEM lies in that memory, in the row of six that counts from the engine's first. -/
theorem dmemAddr_row {e off : Nat} (he : e < 1028) (hoff : off < 73728) :
    memKind (dmemAddr e 0 off) = .dmem ∧ memRow (dmemAddr e 0 off) = (dmemAddr e 0 off - off % 6, 6) := by
  by_cases hpod : e < 1024
  · have haddr : dmemAddr e 0 off = engBlock + (e / 32 * 0x800000 + 0x100000 + e % 32 * 0x20000 + off) := by
      rw [dmemAddr, if_pos hpod]
      omega
    rw [haddr]
    exact engBlock_dmem (i := e % 32) (by omega) (by omega) (by omega) hoff
  · have haddr : dmemAddr e 0 off = pdmemBase + ((e - 1024) * 0x20000 + off) := by
      rw [dmemAddr, if_neg hpod]
      omega
    rw [haddr]
    exact pdmemBase_dmem (by omega) (by omega) hoff

theorem dmemAddr_add (e off m : Nat) : dmemAddr e 0 off + m = dmemAddr e 0 (off + m) := by
  unfold dmemAddr
  split <;> omega

theorem Memory.sound_byte {m : Memory} {a n i : Nat} (h : m.sound a n = true) (hi : i < n) : m.bad.get 0 (a + i) = 0 := by
  simp only [Memory.sound, List.all_eq_true, decide_eq_true_eq, List.mem_range] at h
  exact h i hi

/-- Sound bytes in two parts. -/
theorem Memory.sound_parts {m : Memory} {a k n : Nat} (h : m.sound a (k + n) = true) : m.sound a k = true ∧ m.sound (a + k) n = true := by
  simp only [Memory.sound, List.all_eq_true, decide_eq_true_eq, List.mem_range]
  refine ⟨fun i hi => Memory.sound_byte h (by omega), fun i hi => ?_⟩
  rw [Nat.add_assoc]
  exact Memory.sound_byte h (by omega)

theorem Memory.bytes_parts (m : Memory) (a k n : Nat) : m.bytes a (k + n) = m.bytes a k ++ m.bytes (a + k) n := by
  simp only [Memory.bytes, List.range_add, List.map_append, List.map_map, Function.comp_def, Nat.add_assoc]

/-- Sound bytes of one row outside the staging store are read as they stand. -/
theorem State.readMem_bytes {a n : Nat} (hk : memKind a ≠ .staging) (hb : s.mem.sound a n = true) : s.readMem a n = (s, some (s.mem.bytes a n)) := by
  have hdecode : ∀ i ∈ List.range n, s.mem.decode (a + i) = .clean ((s.mem.byte (a + i)).getD 0) := fun i hi => by
    rw [Memory.decode, if_pos (Memory.sound_byte hb (List.mem_range.1 hi)), Memory.meant]
  have hfail : (s.mem.readRow a n).fail = none := by
    rw [Memory.readRow, if_neg hk, Memory.readInner, Option.map_eq_none_iff, List.find?_eq_none]
    intro i hi
    simp [hdecode i hi]
  have hdata : (s.mem.readRow a n).data = s.mem.bytes a n := by
    rw [Memory.readRow, if_neg hk, Memory.readInner, List.map_map]
    exact List.map_congr_left fun i hi => by simp [hdecode i hi, InnerOut.val]
  have hstate := State.readMem_sound hk hb
  unfold State.readMem at hstate ⊢
  dsimp only at hstate ⊢
  rw [hfail] at hstate ⊢
  rw [hdata]
  exact congrArg (·, _) hstate

/-- An access of LSU0 lies in one row or two: where its bytes are sound it reads them as they stand. -/
theorem State.readRows_dmem {off n : Nat} (he : e < 1028) (hend : off + n ≤ 73728) (hpos : 0 < n) (hn : n ≤ 6)
    (hb : s.mem.sound (dmemAddr e 0 off) n = true) : s.readRows (dmemAddr e 0 off) n 2 = (s, some (s.mem.bytes (dmemAddr e 0 off) n)) := by
  obtain ⟨hkind, hrow⟩ := dmemAddr_row he (show off < 73728 by omega)
  have hlow : off ≤ dmemAddr e 0 off := by unfold dmemAddr; split <;> omega
  have hmod : off % 6 < 6 ∧ off % 6 ≤ off := ⟨Nat.mod_lt _ (by decide), Nat.mod_le ..⟩
  have hfirst : min n (dmemAddr e 0 off - off % 6 + 6 - dmemAddr e 0 off) = min n (6 - off % 6) := by omega
  obtain ⟨k, hsplit⟩ := Nat.exists_eq_add_of_le (Nat.min_le_left n (6 - off % 6))
  generalize hm : min n (6 - off % 6) = m at hfirst hsplit
  subst hsplit
  obtain ⟨hbFirst, hbRest⟩ := Memory.sound_parts hb
  have hread : s.readMem (dmemAddr e 0 off) m = _ := State.readMem_bytes (by rw [hkind]; decide) hbFirst
  have hrest : s.readRows (dmemAddr e 0 off + m) k 1 = (s, some (s.mem.bytes (dmemAddr e 0 off + m) k)) := by
    obtain rfl | hk := Nat.eq_zero_or_pos k
    · exact if_pos rfl
    · obtain ⟨hkind', hrow'⟩ := dmemAddr_row he (show off + m < 73728 by omega)
      have hstart : (off + m) % 6 = 0 := by omega
      rw [dmemAddr_add] at hbRest ⊢
      have hall : min k (dmemAddr e 0 (off + m) - 0 + 6 - dmemAddr e 0 (off + m)) = k := by omega
      have hread' : s.readMem (dmemAddr e 0 (off + m)) k = _ := State.readMem_bytes (by rw [hkind']; decide) hbRest
      rw [State.readRows, if_neg (by omega), hrow', hstart]
      dsimp only
      rw [hall, hread']
      simp [State.readRows]
  rw [State.readRows, if_neg (by omega), hrow]
  dsimp only
  rw [hfirst, hread, Nat.add_sub_cancel_left]
  dsimp only
  rw [hrest, Memory.bytes_parts]

end Sys2Proof.Machine
end

section
/-! The LSU0 loads (10 R213, 08 R158, R170): the load reads once the rest of its cycle has passed. -/

namespace Sys2Proof.Machine

variable {s : State} {e : EngN}

/-- Which bytes an access reaches. -/
theorem lsu0Range_bounds {sub : Nat} {v : W24} {r : Nat × Nat} (h : lsu0Range sub v = some r) : r.2 = (lsuForm sub).1 ∧ r.1 + r.2 ≤ 73728 := by
  unfold lsu0Range at h
  dsimp only at h
  split at h
  case isTrue hone =>
    split at h
    · rename_i hin
      obtain ⟨hw, hk⟩ := (Bool.and_eq_true ..).mp hin
      rw [decide_eq_true_iff] at hw hk
      obtain rfl := Option.some.inj h
      exact ⟨hone.symm, by dsimp only; omega⟩
    · exact nomatch h
  case isFalse =>
    split at h
    · rename_i hin
      obtain rfl := Option.some.inj h
      exact ⟨rfl, hin⟩
    · exact nomatch h

theorem lsuForm_length (sub : Nat) : 0 < (lsuForm sub).1 ∧ (lsuForm sub).1 ≤ 6 := by
  unfold lsuForm
  split <;> decide

theorem Smv.view_unseen {x : Smv} (h : x.seen = none) : x.view.old = none ∧ x.view.banks = [] := by
  rw [Smv.view, h]
  exact ⟨rfl, rfl⟩

/-- The end of the cycle of a load's bundle: the rest of the cycle passes, then the load reads. -/
theorem State.endCycle_load {e n : Nat} {v : L48} (h8 : n / 64 = 8) (hload : lsuLoads (n % 64) = true) (ht : isTrigger n = true) (hout : n ≠ bSPU + 2)
    (hemit : n ≠ bSPU + 3) : s.endCycle e (some [(n, v)]) =
      (s.setEngine e ((s.engine e).passed e (s.pst.fbase.get 0 (e - 1024)))).load0 e (n % 64) (wordOf v) (s.engine e).smv.view.old
        (s.engine e).smv.view.banks := by
  have hidle (x : Engine) (now : Nat) (sat dzt : Bool) : x.trigger e now [] sat dzt n v = x := by
    rw [Engine.trigger, h8]
    exact if_pos hload
  simp [State.endCycle, ht, h8, hload, State.trigger, hout, hemit, hidle, Engine.passed]

/-- A load of a subcode at an engine that issues and makes no string step. -/
theorem State.issue_load (hissues : s.issues e.val) (hseen : (s.engine e.val).smv.seen = none) {sub : Nat} (hsub : sub < 4) (v : W24) :
    ∃ fb, s.issue e.val (bLSU0 + sub) (longOf v) =
      ((s.setEngine e.val ((s.issuing e.val).passed e.val fb)).load0 e.val sub v none []).prefetch e.val := by
  have hport : ∀ sub < 4, isTrigger (bLSU0 + sub) = true ∧ isSuper (bLSU0 + sub) = false ∧ (bLSU0 + sub) / 64 = 8 ∧ (bLSU0 + sub) % 64 = sub ∧
      lsuLoads sub = true ∧ bLSU0 + sub ≠ bSPU + 2 ∧ bLSU0 + sub ≠ bSPU + 3 := by decide
  obtain ⟨htrigger, hsuper, hunit, hmod, hload, hout, hemit⟩ := hport sub hsub
  have hf := moveFault_trigger (s.engine e.val).rpt.n.val (longOf v) htrigger (by rw [hunit]; decide) (sup := (s.engine e.val).ctl.mode.getLsbD 3)
    (fun h => by rw [hsuper] at h; exact nomatch h)
  obtain ⟨hold, hbanks⟩ := Smv.view_unseen (x := (s.issuing e.val).smv) hseen
  refine ⟨s.pst.fbase.get 0 (e.val - 1024), ?_⟩
  rw [State.issue_eq hissues hf, ← State.issuing, State.endCycle_load hunit (hmod.symm ▸ hload) htrigger hout hemit, State.engine_setEngine,
    State.setEngine_setEngine, hold, hbanks, hmod, wordOf_longOf]
  rfl

/-- A load command, by what its reading makes of the engine as the rest of the cycle leaves it: that engine goes on where it stood. -/
theorem EngineDoes.of_load {c : Instr} {sub : Nat} {v : W24} {p : Engine → Prop} (hissues : s.issues e.val) (hseen : (s.engine e.val).smv.seen = none)
    (hsub : sub < 4) (hc : exec c s = .next (s.issue e.val (bLSU0 + sub) (longOf v)))
    (hload : ∀ fb, let z := (s.issuing e.val).passed e.val fb
      ∃ y, (s.setEngine e.val z).load0 e.val sub v none [] = s.setEngine e.val y ∧ y.held = z.held ∧ y.ctl = z.ctl ∧ y.fbase = z.fbase ∧
        ∀ q, p { y with pfq := q }) : EngineDoes s e c (s.engine e.val).held p := by
  obtain ⟨fb, hissue⟩ := State.issue_load hissues hseen hsub v
  obtain ⟨y, hy, hheld, hctl, hfbase, hp⟩ := hload fb
  have hwindow (h : y.ctl.bubble = false) : y.fbase = (s.engine e.val).fbase := by
    rw [hctl] at h
    exact hfbase.trans (Engine.passed_fbase _ _ fb h)
  obtain ⟨q, hq⟩ := State.prefetch_quiet hissues.2.2 y hwindow
  refine ⟨_, hc.trans (congrArg Host.Outcome.next (hissue.trans ((congrArg (fun t : State => t.prefetch e.val) hy).trans hq))), .set .., ?_, ?_⟩
  · rw [State.engine_setEngine, Engine.refilled_held, hheld, Engine.passed_held, s.issuing_held]
  · rw [State.engine_setEngine]
    exact hp q

/-! What a load finds (08 R170). -/

variable {z : Engine} {sub : Nat} {v : W24} {r : Nat × Nat}

/-- An access out of reach. -/
theorem State.load0_refused (h : lsu0Range sub v = none) :
    (s.setEngine e.val z).load0 e.val sub v none [] = s.setEngine e.val ((z.raise 8).loaded0 none) := by
  rw [State.load0, h, State.engine_setEngine, State.setEngine_setEngine]

/-- The newest entry that overlaps the access holds it. -/
theorem State.load0_forwarded {b : Nat × SbEntry} (h : lsu0Range sub v = some r) (hb : newestOverlap z.lsu0.sb (dmemAddr e.val 0 r.1) r.2 = some b)
    (hholds : b.2.holds (dmemAddr e.val 0 r.1) r.2 = true) : (s.setEngine e.val z).load0 e.val sub v none [] =
      s.setEngine e.val (z.loaded0 (some (loadValue (lsuForm sub).2 (slice b.2.bytes (dmemAddr e.val 0 r.1 - b.2.addr) r.2)))) := by
  rw [State.load0, h, State.engine_setEngine]
  dsimp only
  rw [hb]
  dsimp only
  rw [if_pos hholds, State.setEngine_setEngine]

/-- The newest entry that overlaps the access holds a part of it. -/
theorem State.load0_waits {b : Nat × SbEntry} (h : lsu0Range sub v = some r) (hb : newestOverlap z.lsu0.sb (dmemAddr e.val 0 r.1) r.2 = some b)
    (hholds : b.2.holds (dmemAddr e.val 0 r.1) r.2 = false) : (s.setEngine e.val z).load0 e.val sub v none [] =
      s.setEngine e.val { z with lsu0 := { z.lsu0 with ldWait := some ⟨b.1, dmemAddr e.val 0 r.1, r.2, (lsuForm sub).2, none⟩ } } := by
  rw [State.load0, h, State.engine_setEngine]
  dsimp only
  rw [hb]
  dsimp only
  rw [if_neg (by rw [hholds]; decide), State.setEngine_setEngine]

/-- No entry overlaps the access. -/
theorem State.load0_read (h : lsu0Range sub v = some r) (hb : newestOverlap z.lsu0.sb (dmemAddr e.val 0 r.1) r.2 = none)
    (hsound : s.mem.sound (dmemAddr e.val 0 r.1) r.2 = true) : (s.setEngine e.val z).load0 e.val sub v none [] =
      s.setEngine e.val ((z.meets [] []).loaded0 (some (loadValue (lsuForm sub).2 (s.mem.bytes (dmemAddr e.val 0 r.1) r.2)))) := by
  obtain ⟨hlen, hend⟩ := lsu0Range_bounds h
  obtain ⟨hpos, hsix⟩ := lsuForm_length sub
  rw [← hlen] at hpos hsix
  have hread := State.readRows_dmem (s := s.setEngine e.val (z.meets [] [])) e.isLt hend hpos hsix hsound
  rw [State.load0, h, State.engine_setEngine]
  dsimp only
  rw [hb]
  show ((s.setEngine e.val z).setEngine e.val (z.meets [] [])).read0 e.val (dmemAddr e.val 0 r.1) r.2 (lsuForm sub).2 none = _
  rw [State.setEngine_setEngine, State.read0, hread]
  dsimp only
  rw [State.engine_setEngine, State.setEngine_setEngine, List.zipIdx_map_fst]
  rfl

/-- The loads of a subcode: by what overlaps the access. -/
theorem lsu0Load_enters (hissues : s.issues e.val) (hseen : (s.engine e.val).smv.seen = none) (a : W24) (sub : Fin 4) {c : Instr}
    (hc : exec c s = .next (s.issue e.val (bLSU0 + sub.val) (longOf a))) :
    let x0 := s.engine e.val
    let n := (lsuForm sub.val).1
    let signed := (lsuForm sub.val).2
    (∀ r, lsu0Range sub.val a = some r → newestOverlap x0.lsu0.sb (dmemAddr e.val 0 r.1) n = none → s.mem.sound (dmemAddr e.val 0 r.1) n = true →
      EngineDoes s e c x0.held fun x => x.lsu0.fl.getLast? = some ⟨2, some (loadValue signed (s.mem.bytes (dmemAddr e.val 0 r.1) n))⟩) ∧
    (∀ r b, lsu0Range sub.val a = some r → newestOverlap x0.lsu0.sb (dmemAddr e.val 0 r.1) n = some b → b.2.holds (dmemAddr e.val 0 r.1) n = true →
      EngineDoes s e c x0.held fun x =>
        x.lsu0.fl.getLast? = some ⟨2, some (loadValue signed (slice b.2.bytes (dmemAddr e.val 0 r.1 - b.2.addr) n))⟩) ∧
    (∀ r b, lsu0Range sub.val a = some r → newestOverlap x0.lsu0.sb (dmemAddr e.val 0 r.1) n = some b → b.2.holds (dmemAddr e.val 0 r.1) n = false →
      EngineDoes s e c x0.held fun x => x.lsu0.ldWait = some ⟨b.1, dmemAddr e.val 0 r.1, n, signed, none⟩) ∧
    (lsu0Range sub.val a = none → EngineDoes s e c x0.held fun x => x.lsu0.fl.getLast? = some ⟨2, none⟩ ∧ x.exc.due.getLsbD 3 = true) := by
  have hsb (fb : BitVec 25) : ((s.issuing e.val).passed e.val fb).lsu0.sb = (s.engine e.val).lsu0.sb := Lsu0.advance_sb _
  refine ⟨fun r h hb hsound => ?read, fun r b h hb hholds => ?forwarded, fun r b h hb hholds => ?waits, fun h => ?refused⟩
  case read =>
    rw [← (lsu0Range_bounds h).1] at hb hsound ⊢
    refine .of_load hissues hseen sub.isLt hc fun fb => ⟨_, State.load0_read h (by rw [hsb]; exact hb) hsound, rfl, rfl, rfl, fun q => ?_⟩
    exact List.getLast?_concat
  case forwarded =>
    rw [← (lsu0Range_bounds h).1] at hb hholds ⊢
    refine .of_load hissues hseen sub.isLt hc fun fb => ⟨_, State.load0_forwarded h (by rw [hsb]; exact hb) hholds, rfl, rfl, rfl, fun q => ?_⟩
    exact List.getLast?_concat
  case waits =>
    rw [← (lsu0Range_bounds h).1] at hb hholds ⊢
    exact .of_load hissues hseen sub.isLt hc fun fb => ⟨_, State.load0_waits h (by rw [hsb]; exact hb) hholds, rfl, rfl, rfl, fun q => rfl⟩
  case refused =>
    refine .of_load hissues hseen sub.isLt hc fun fb => ⟨_, State.load0_refused h, rfl, rfl, rfl, fun q => ⟨List.getLast?_concat, ?_⟩⟩
    show (((s.issuing e.val).passed e.val fb).exc.due ||| 8).getLsbD 3 = true
    rw [BitVec.getLsbD_or]
    exact Bool.or_true _

/-! The bytes that an access reaches (10 R213). -/

theorem lsu0Range_byte {sub : Nat} (h : (lsuForm sub).1 = 1) (a : W24) : lsu0Range sub a =
    if a.toNat % 32768 < 24576 ∧ a.toNat / 32768 % 4 < 3 then some (3 * (a.toNat % 32768) + a.toNat / 32768 % 4, 1) else none := by
  have hreach : (decide (a.toNat % 32768 < 24576) && decide (bits a.toNat 15 2 < 3)) = true ↔ a.toNat % 32768 < 24576 ∧ bits a.toNat 15 2 < 3 := by
    rw [Bool.and_eq_true, decide_eq_true_iff, decide_eq_true_iff]
  rw [lsu0Range]
  exact (if_pos h).trans (if_congr hreach rfl rfl)

/-- A word or long of `m` words. -/
theorem lsu0Range_words {sub : Nat} (m : Nat) (h : (lsuForm sub).1 = 3 * m) (hm : 1 ≤ m) (a : W24) :
    lsu0Range sub a = if a.toNat % 32768 + (m - 1) < 24576 then some (3 * (a.toNat % 32768), 3 * m) else none := by
  have hone : ¬3 * m = 1 := by omega
  have hlimit : 3 * (a.toNat % 32768) + 3 * m ≤ 73728 ↔ a.toNat % 32768 + (m - 1) < 24576 := by omega
  simp only [lsu0Range, h, hone, if_false, hlimit]

/-- Settles O18: each command by its subcode, and the reach by the length of the access. -/
theorem lsu0LoadsAndReach : Obligations.Lsu0LoadsAndReach := by
  unfold Obligations.Lsu0LoadsAndReach
  refine ⟨fun s e a hissues hseen => ?loads, fun a => ⟨?bytes, ?words, ?longs⟩⟩
  case loads =>
    exact ⟨lsu0Load_enters hissues hseen a 0 rfl, lsu0Load_enters hissues hseen a 1 rfl, lsu0Load_enters hissues hseen a 2 rfl,
      lsu0Load_enters hissues hseen a 3 rfl⟩
  case bytes =>
    rintro sub (rfl | rfl | rfl)
    all_goals exact lsu0Range_byte rfl a
  case words =>
    rintro sub (rfl | rfl)
    all_goals exact lsu0Range_words 1 rfl (Nat.le_refl 1) a
  case longs =>
    rintro sub (rfl | rfl)
    all_goals exact lsu0Range_words 2 rfl (Nat.le_succ 1) a

end Sys2Proof.Machine
end

section
/-! REP, EXIT and the end check of a repeat level (11 R233 to R238). -/

namespace Sys2Proof.Machine

variable {s : State} {e : EngN}

/-- At a bundle that is not the last one of the outer level's body nothing is checked. -/
theorem Rpt.endCheck_inside {x : Rpt} {pc : BitVec 11} (h : x.n = 1) (he : x.e0 ≠ pc) : x.endCheck pc = (x, pc + 1) := by
  rw [Rpt.endCheck, if_neg (by rw [h]; decide), if_pos h, if_neg he]

/-- At the end address of the only level its count decides. -/
theorem Rpt.endCheck_last {x : Rpt} {pc : BitVec 11} (h : x.n = 1) (he : x.e0 = pc) :
    x.endCheck pc = ((x.checkLevel 0).1, if (x.checkLevel 0).2 then x.s0 else pc + 1) := by
  rw [Rpt.endCheck, if_neg (by rw [h]; decide), if_pos h, if_pos he]

/-- The check of the outer level: a count that a move wrote stays and loops unless it is 0, any other one loops from 2 on and is lowered. -/
theorem Rpt.checkLevel_outer (x : Rpt) : x.checkLevel 0 =
    if x.w0 then (if x.c0 ≠ 0#24 then ({ x with w0 := false }, true) else ({ x with w0 := false, n := 0 }, false))
    else if 2 ≤ x.c0.toNat then ({ x with c0 := x.c0 - 1, w0 := false }, true) else ({ x with c0 := 0, w0 := false, n := 0 }, false) := by
  unfold Rpt.checkLevel
  cases x.w0
  case false => by_cases hc : 2 ≤ x.c0.toNat <;> simp [hc]
  case true => by_cases hc : x.c0 = 0#24 <;> simp [hc]

/-- REP opens a level behind a bundle at which no level ends. -/
theorem Rpt.turn_rep {x : Rpt} {pc : BitVec 11} (h : x.endCheck pc = (x, pc + 1)) (c : W24) : x.turn pc (some (0, c)) = (x.open_ pc c, pc + 1) := by
  rw [Rpt.turn, h]

theorem Rpt.turn_exit (x : Rpt) (pc : BitVec 11) (c : W24) : x.turn pc (some (1, c)) = x.exit.endCheck pc := rfl

/-- Only REP in the inner level is a port exception (11 R233, 12 R252). -/
theorem moveFault_repeat (sup : Bool) (v : L48) (sub : Fin 2) {levels : Nat} (h : sub = 0 → levels < 2) :
    moveFault sup levels (.imm v) (bRPT + sub.val) = none := by
  have hport : ∀ sub : Fin 2, isDest (bRPT + sub.val) = true ∧ isSuper (bRPT + sub.val) = false ∧ (bRPT + sub.val = bRPT → sub = 0) := by decide
  obtain ⟨hdest, hsuper, hrep⟩ := hport sub
  have hzero : isSource 0 = true ∧ isSuper 0 = false := by decide
  have hdepth : ¬(bRPT + sub.val = bRPT ∧ 2 ≤ levels) := fun ⟨hn, hlevels⟩ => Nat.not_lt.2 hlevels (h (hrep hn))
  simp only [moveFault, hdest, hsuper, hzero, Bool.not_true, Bool.or_self, Bool.and_false, Bool.false_eq_true, if_false]
  exact if_neg (by rw [Bool.and_eq_true, decide_eq_true_iff, decide_eq_true_iff]; exact hdepth)

/-- What a repeat trigger does comes with the order of execution, at the end of its cycle (11 R237). -/
theorem Engine.trigger_repeat {n : Nat} (h : n / 64 = 11) (x : Engine) (e now : Nat) (sat dzt : Bool) (v : L48) : x.trigger e now [] sat dzt n v = x := by
  rw [Engine.trigger, h]
  rfl

/-- A repeat trigger has its turn at the end of the cycle. -/
theorem rptRow_turns (hissues : s.issues e.val) (sub : Fin 2) (v : W24) (hlevels : sub = 0 → (s.engine e.val).rpt.n ≠ 2) {c : Instr}
    (hc : exec c s = .next (s.issue e.val (bRPT + sub.val) (longOf v))) {r : Rpt} {a : BitVec 11}
    (hturn : (s.engine e.val).rpt.turn (s.engine e.val).ctl.pc (some (sub.val, v)) = (r, a)) :
    EngineDoes s e c (s.engine e.val).held fun x => x.rpt = r ∧ ((s.engine e.val).ctl.jumps = [] → x.ctl.pc = a) := by
  have hport : ∀ sub : Fin 2, isTrigger (bRPT + sub.val) = true ∧ (bRPT + sub.val) / 64 = 11 ∧ (bRPT + sub.val) % 64 = sub.val ∧
      bRPT + sub.val ≠ bSPU + 2 ∧ bRPT + sub.val ≠ bSPU + 3 := by decide
  obtain ⟨htrigger, hunit, hmod, hout, hemit⟩ := hport sub
  have hdepth (h : sub = 0) : (s.engine e.val).rpt.n.val < 2 := by
    have hne := hlevels h
    omega
  have hfault := moveFault_repeat ((s.engine e.val).ctl.mode.getLsbD 3) (longOf v) sub hdepth
  obtain ⟨q, hissue⟩ := State.issue_trigger hissues hfault htrigger (by rw [hunit]; decide) (fun h => absurd (hunit.symm.trans h) (by decide))
    ⟨hout, hemit⟩
  refine ⟨_, hc.trans (congrArg Host.Outcome.next hissue), .set .., ?_, ?_⟩
  · rw [State.engine_setEngine, Engine.refilled_held, Engine.performed_held, Engine.trigger_repeat hunit]
    exact s.issuing_held e.val
  · rw [State.engine_setEngine, ← State.issuing, Engine.performed, Engine.trigger_repeat hunit, if_pos hunit, hmod, wordOf_longOf]
    refine ⟨congrArg Prod.fst hturn, fun hjumps => ?_⟩
    have hwaits : ∀ j ∈ (s.engine e.val).ctl.jumps.head?, 2 ≤ j.1 := by rw [hjumps]; exact fun j hj => nomatch hj
    show ((s.engine e.val).ctl.jump ((s.engine e.val).rpt.turn (s.engine e.val).ctl.pc (some (sub.val, v))).2).modeStep.pc = a
    rw [(Ctl.modeStep_order _).2, Ctl.jump_waits hwaits, hturn]

/-- Settles O23: each trigger by its turn at the end of its cycle, and the end check by the count and by what wrote it. -/
theorem repeatTriggersAndEndCheck : Obligations.RepeatTriggersAndEndCheck := by
  unfold Obligations.RepeatTriggersAndEndCheck
  refine ⟨fun s e c hissues => ?triggers, fun r pc hn he => ?check⟩
  case triggers =>
    intro x0 h r
    have hrep {y : Rpt} (hlevels : r.n ≠ 2) (hcheck : r.endCheck x0.ctl.pc = (r, x0.ctl.pc + 1)) (hopen : r.open_ x0.ctl.pc c = y) :
        EngineDoes s e (.rptRep e c) h fun x => x.rpt = y ∧ (x0.ctl.jumps = [] → x.ctl.pc = x0.ctl.pc + 1) :=
      rptRow_turns hissues 0 c (fun _ => hlevels) rfl ((Rpt.turn_rep hcheck c).trans (by rw [hopen]))
    have hexit {y : Rpt} {a : BitVec 11} (hcheck : r.exit.endCheck x0.ctl.pc = (y, a)) : EngineDoes s e (.rptExit e c) h fun x => x.rpt = y :=
      (rptRow_turns hissues 1 c (fun h => nomatch h) rfl ((r.turn_exit _ c).trans hcheck)).mono fun x hx => hx.1
    refine ⟨fun hn => ?outer, fun hn he => ?inner, fun hn => ?none, fun hn => ?last, fun hn he => ?nested⟩
    case outer => exact hrep (by rw [hn]; decide) (Rpt.turn_none hn _) (if_pos hn)
    case inner => exact hrep (by rw [hn]; decide) (Rpt.endCheck_inside hn he) (if_neg (by rw [hn]; decide))
    case none =>
      have hsame : r.exit = r := if_pos hn
      exact hexit (by rw [hsame]; exact Rpt.turn_none hn _)
    case last =>
      have hclosed : r.exit = { r with n := 0 } := by rw [Rpt.exit, if_neg (by rw [hn]; decide), hn]; rfl
      exact hexit (by rw [hclosed]; exact Rpt.turn_none rfl _)
    case nested =>
      have hclosed : r.exit = { r with n := 1 } := by rw [Rpt.exit, if_neg (by rw [hn]; decide), hn]; rfl
      exact hexit (by rw [hclosed]; exact Rpt.endCheck_inside rfl he)
  case check =>
    rw [Rpt.endCheck_last hn he, Rpt.checkLevel_outer]
    refine ⟨fun hw hc => ?lowered, fun hw hc => ?closed, fun hw hc => ?written, fun hw hc => ?zero⟩
    case lowered => simp [hw, hc]
    case closed => simp [hw, Nat.not_le.2 hc]
    case written => simp [hw, show r.c0 ≠ 0#24 from hc]
    case zero => simp [hw, show r.c0 = 0#24 from hc]

end Sys2Proof.Machine
end

section
/-! A string step that meets a waiting rewrite (11 R241, 14 R307, R316): the row joins the correctable-error list. -/

namespace Sys2Proof.Machine

/-- The first row of engine 0's DMEM waits for a rewrite, while the engine, in the bubble of a jump, is to fill the first word there. -/
def fillMeetsRewrite : State where
  pods := [(0, { powered := true, erst := 0 })]
  eng := [(0, { ctl := { bubble := true }, smv := { op := 1, n := 1, act := true } })]
  mem := { rewrite := [(.home (dmemAddr 0 0 0), [])] }
  pwr := { boot := .up }

/-- The step's write drops the write-back, and its row is to be visited again (14 R316). -/
theorem fillMeetsRewrite_cel (t : State) (ht : exec (.smvStep 0) fillMeetsRewrite = .next t) : t.mem.cel = [.home (dmemAddr 0 0 0)] := by
  cases ht
  decide

/-- Refutes O24: its frame of a fill leaves the correctable-error list out of what may change, and a word filled in a row whose write-back waits puts that row
into the list (14 R316). -/
theorem not_stringCommandsComplete : ¬ Obligations.StringCommandsComplete := by
  unfold Obligations.StringCommandsComplete
  rintro ⟨-, hsteps⟩
  obtain ⟨-, hstep⟩ := hsteps fillMeetsRewrite 0 (by decide)
  obtain ⟨-, hfill⟩ := hstep (.inl rfl) rfl rfl rfl rfl (by decide)
  obtain ⟨t, hexec, hsame, -⟩ := hfill rfl (by decide)
  have hcel : t.mem.cel = [] := hsame .cel (by decide)
  rw [fillMeetsRewrite_cel t hexec] at hcel
  exact absurd hcel (by decide)

end Sys2Proof.Machine
end

section
/-! Writes of the RPT and SMV ports (11 R232, R235, R236, R241). -/

namespace Sys2Proof.Machine

variable {s : State} {e : EngN}

theorem Engine.write_rpt {n : Nat} (h : n / 64 = 11) (x : Engine) (sel : Nat) (v : W24) : x.write sel n (longOf v) = { x with rpt := x.rpt.write n v } := by
  have hv : x.write sel n (longOf v) = { x with rpt := x.rpt.write n (wordOf (longOf v)) } := by
    simp (disch := omega) only [Engine.write, Engine.writeUnit, Bool.and_eq_true, decide_eq_true_eq, if_neg, h, if_true]
  rw [hv, wordOf_longOf]

theorem Engine.write_smv {n : Nat} (h : n / 64 = 12) (x : Engine) (sel : Nat) (v : W24) : x.write sel n (longOf v) = { x with smv := x.smv.write n v } := by
  have hv : x.write sel n (longOf v) = { x with smv := x.smv.write n (wordOf (longOf v)) } := by
    simp (disch := omega) only [Engine.write, Engine.writeUnit, Bool.and_eq_true, decide_eq_true_eq, if_neg, h, if_true]
  rw [hv, wordOf_longOf]

/-- A port of the repeat unit, where its bundle ends no body of the level that is open after the write. -/
theorem rptPort_takes (hissues : s.issues e.val) {n : Nat} (hn : n ∈ rptCountPorts ++ rptBoundPorts) (v : W24) {c : Instr}
    (hc : exec c s = .next (s.issue e.val n (longOf v))) {r : Rpt} (hr : (s.engine e.val).rpt.write n v = r)
    (hinside : r.endCheck (s.engine e.val).ctl.pc = (r, (s.engine e.val).ctl.pc + 1)) :
    EngineDoes s e c { (s.engine e.val).held with rptO := r.o } fun x => x.rpt = r := by
  have hport : ∀ n ∈ rptCountPorts ++ rptBoundPorts, isPlainControl n = true ∧ n / 64 = 11 := by decide
  obtain ⟨hplain, hunit⟩ := hport n hn
  subst hr
  refine .of_write hissues hplain hc ?_ fun fb q => ?_
  · rw [Engine.write_rpt hunit, ← s.issuing_held e.val]
    rfl
  · rw [Engine.write_rpt hunit]
    exact congrArg Prod.fst hinside

theorem rptCountWrite_takes (hissues : s.issues e.val) (v : W24) {port : BitVec 10} (h : port.toNat ∈ rptCountPorts) {r : Rpt}
    (hr : (s.engine e.val).rpt.write port.toNat v = r) (hinside : r.endCheck (s.engine e.val).ctl.pc = (r, (s.engine e.val).ctl.pc + 1)) :
    EngineDoes s e (.rptCountWrite e port v) { (s.engine e.val).held with rptO := r.o } fun x => x.rpt = r :=
  rptPort_takes hissues (List.mem_append_left _ h) v (c := .rptCountWrite e port v)
    (congrArg Host.Outcome.next (if_pos (List.contains_iff_mem.2 h))) hr hinside

theorem rptBoundsWrite_takes (hissues : s.issues e.val) (v : W24) {port : BitVec 10} (h : port.toNat ∈ rptBoundPorts) {r : Rpt}
    (hr : (s.engine e.val).rpt.write port.toNat v = r) (hinside : r.endCheck (s.engine e.val).ctl.pc = (r, (s.engine e.val).ctl.pc + 1)) :
    EngineDoes s e (.rptBoundsWrite e port v) { (s.engine e.val).held with rptO := r.o } fun x => x.rpt = r :=
  rptPort_takes hissues (List.mem_append_right _ h) v (c := .rptBoundsWrite e port v)
    (congrArg Host.Outcome.next (if_pos (List.contains_iff_mem.2 h))) hr hinside

/-- With no level open a count takes the value alone. -/
theorem Rpt.writeCount_closed {x : Rpt} (h : x.n = 0) (v : W24) : x.writeCount 0 v = { x with c0 := v } ∧ x.writeCount 1 v = { x with c1 := v } := by
  simp [Rpt.writeCount, h]

/-- With the outer level open its count is marked as written, and the inner one's is not. -/
theorem Rpt.writeCount_outer {x : Rpt} (h : x.n = 1) (v : W24) :
    x.writeCount 0 v = { x with c0 := v, w0 := true } ∧ x.writeCount 1 v = { x with c1 := v } := by
  simp [Rpt.writeCount, h]

/-- A port of SMV, in a cycle without a string step. -/
theorem smvPortWrite_takes (hissues : s.issues e.val) (v : W24) {port : BitVec 10} (h : port.toNat ∈ smvPorts) {m : Smv}
    (hm : (s.engine e.val).smv.write port.toNat v = m) (hseen : m.seen = none) (hbad : m.bad = false) :
    EngineDoes s e (.smvPortWrite e port v) { (s.engine e.val).held with smvPat := m.pat } fun x => x.smv = m := by
  have hport : ∀ n ∈ smvPorts, isPlainControl n = true ∧ n / 64 = 12 := by decide
  obtain ⟨hplain, hunit⟩ := hport _ h
  refine .of_write hissues hplain (congrArg Host.Outcome.next (if_pos (List.contains_iff_mem.2 h))) ?_ fun fb q => ?_
  · rw [Engine.write_smv hunit, ← s.issuing_held e.val, ← hm]
    rfl
  · rw [Engine.write_smv hunit]
    show ({ (s.engine e.val).smv.write port.toNat v with seen := none, bad := false } : Smv) = m
    rw [hm, ← hseen, ← hbad]

/-- Where no operation runs, N takes the value. -/
theorem Smv.write_n {x : Smv} (hact : x.act = false) (hseen : x.seen = none) (v : W24) : x.write 0x32A v = { x with n := v.setWidth 15 } := by
  simp [Smv.write, hact, Smv.ranOut, hseen]

end Sys2Proof.Machine
end

section
/-! Fetches of an engine of a pod go on as quietly after what leaves the memory and the count of corrected reads as they are (08 R162, 14 R307, R310). -/

namespace Sys2Proof.Machine

variable {s t : State} {e : Nat}

/-- A table that a write at one key leaves as it is takes another key's value and is left as it is again. -/
theorem Tab.set_unmoved {α : Type} {l : Tab α} {k j : Nat} {v : α} (h : l.set k v = l) (hj : j ≠ k) (w : α) : (l.set j w).set k v = l.set j w := by
  induction l with
  | nil => exact absurd h (List.cons_ne_nil _ _)
  | cons a l ih =>
    obtain ⟨i, u⟩ := a
    rw [Tab.set] at h
    split at h
    case isTrue => exact absurd (congrArg List.length h) (by simp)
    case isFalse hki =>
      rw [Tab.set]
      split at h
      case isTrue hk =>
        subst hk
        split
        case isTrue hlt => rw [Tab.set, if_neg (by omega), if_neg (by omega), Tab.set, if_neg (by omega), if_pos rfl, h]
        case isFalse =>
          obtain ⟨hv, -⟩ := List.cons.inj h
          rw [Tab.set, if_neg (by omega), if_pos rfl, hv]
      case isFalse hne =>
        have hrest : Tab.set l k v = l := (List.cons.inj h).2
        split
        case isTrue hlt => rw [Tab.set, if_neg (by omega), if_neg (by omega), Tab.set, if_neg hki, if_neg hne, hrest]
        case isFalse =>
          split
          case isTrue hji => rw [Tab.set, if_neg (by omega), if_neg (by omega), hrest]
          case isFalse => rw [Tab.set, if_neg hki, if_neg hne, ih hrest]

/-- A counter that holds goes on holding when another object is written. -/
theorem State.bump_put_od {i b i' b' : Nat} (hb : b < 256) (hb' : b' < 256) (hne : (i, b) ≠ (i', b')) (w : Nat) (h : (s.bump i b).od = s.od) :
    ((s.put i' b' w).bump i b).od = (s.put i' b' w).od := by
  have hkey : odKey i' b' ≠ odKey i b := fun hk => by
    simp only [odKey] at hk
    exact hne (by simp only [Prod.mk.injEq]; omega)
  show (s.od.set (odKey i' b') w).set (odKey i b) (satAdd _ ((s.put i' b' w).cfg i b) 1) = _
  rw [State.cfg_put_ne _ _ hb' hb hne]
  exact Tab.set_unmoved h hkey w

theorem bump_od_of_od (h : t.od = s.od) (i b : Nat) : (t.bump i b).od = (s.bump i b).od := by
  show t.od.set _ (satAdd _ (t.cfg i b) 1) = s.od.set _ (satAdd _ (s.cfg i b) 1)
  rw [h, cfg_of_od h]

/-- What counting and listing a read leaves does not depend on the rest of the state. -/
theorem State.noteRead_unmoved {a : Nat} {r : RowRead} (hmem : t.mem = s.mem) (hod : (s.bump 0x2940 1).od = s.od → (t.bump 0x2940 1).od = t.od)
    (houter : r.outer = false) (h : s.noteRead a r = s) : t.noteRead a r = t := by
  obtain ⟨data, inner, outer, fail⟩ := r
  obtain rfl : outer = false := houter
  cases inner with
  | false => rfl
  | true =>
    have hnote : ({ s with od := (s.bump 0x2940 1).od, mem := s.mem.listRow (.home (memRow a).1) } : State) = s := h
    have hcount : (s.bump 0x2940 1).od = s.od := (congrArg State.od hnote :)
    have hlist : s.mem.listRow (.home (memRow a).1) = s.mem := (congrArg State.mem hnote :)
    show ({ t with od := (t.bump 0x2940 1).od, mem := t.mem.listRow (.home (memRow a).1) } : State) = t
    rw [hod hcount, hmem, hlist, ← hmem]

/-- A read of IMEM that changes nothing meets no uncorrectable byte, and what it counts and lists stands already, wherever memory and count are the same. -/
theorem State.readMem_moved {a n p : Nat} (hk : memKind a = .imem) (hp : podOf (memRow a).1 = some p) (hmem : t.mem = s.mem)
    (hod : (s.bump 0x2940 1).od = s.od → (t.bump 0x2940 1).od = t.od) (h : (s.readMem a n).1 = s) : (t.readMem a n).1 = t := by
  obtain ⟨hfail, hnote⟩ := State.readMem_unmoved hk hp h
  have houter : (s.mem.readRow a n).outer = false := by
    rw [Memory.readRow, if_neg (by rw [hk]; decide), Memory.readInner]
  have hsame := State.noteRead_unmoved hmem hod houter hnote
  unfold State.readMem
  dsimp only
  rw [hmem, hfail]
  exact hsame

theorem State.fetchesQuietly_moved (he : e < 1024) (h : s.fetchesQuietly e) (hmem : t.mem = s.mem)
    (hod : (s.bump 0x2940 1).od = s.od → (t.bump 0x2940 1).od = t.od) : t.fetchesQuietly e := by
  intro y n _ hn
  let s1 := s.setEngine e (s.engine e)
  let t1 := t.setEngine e y
  have hcount : (s1.bump 0x2940 1).od = s1.od → (t1.bump 0x2940 1).od = t1.od := by
    rw [bump_od_of_od (s.setEngine_od ..), bump_od_of_od (t.setEngine_od ..)]
    exact hod
  have hkept : t1.mem = s1.mem := hmem
  have hpod : podOf (memRow (imemAddr e n 0)).1 = some (e / 32) := by rw [imemAddr_row he hn, imemAddr_pod he hn]
  have hquiet : (s1.fetch e n).1 = s1 := h (s.engine e) n rfl hn
  show (t1.fetch e n).1 = t1
  rw [State.fetch, if_pos he, asBundle_state] at hquiet ⊢
  exact State.readMem_moved (imemAddr_kind he hn) hpod hkept hcount hquiet

end Sys2Proof.Machine
end

section
/-! Writes of the ring and of the predictor (09 R202, 05 R97, R100). -/

namespace Sys2Proof.Machine

variable {s : State} {e : Nat}

/-- A move of an engine that issues, to a port of any unit, by what its write leaves of the whole state. -/
theorem State.issue_write {n : Nat} {v : L48} {t : State} (hissues : s.issues e) (hdest : isDest n = true) (htrigger : isTrigger n = false)
    (hsup : isSuper n = true → (s.engine e).ctl.mode.getLsbD 3 = true)
    (ht : (s.setEngine e (s.issuing e)).writePort e (s.issuing e).lsu1.rsel.toNat n v = t) (hq : t.fetchesQuietly e) :
    ∃ fb q, s.issue e n v = t.setEngine e { (t.engine e).passed e fb with pfq := q } := by
  rw [State.issue_eq_issueMoves hissues (moveFault_imm _ v hdest hsup htrigger)]
  refine State.issueMoves_written (by simp [htrigger]) ?_ hq
  rw [State.engine_setEngine, State.setEngine_setEngine, ← ht, State.written, State.engine_setEngine]
  rfl

/-! The ring. -/

/-- An empty ring at a base (09 R202). -/
def Spu.ringAt (x : Spu) (base len : Nat) : Spu := { x with rbase := base, rsize := len, ring := [], cur := none, tail := base }

/-- Base and size of a ring after a write of one of them (09 R202). -/
def Spu.ringPlaced (x : Spu) (size : Bool) (v : W24) : Nat × Nat :=
  let n := v.toNat / 64 % 512 * 64
  let base := if size then x.rbase else min n 24512
  (base, min (if size then max 64 (min n 12288) else x.rsize) (24576 - base))

theorem State.ringWrite_engine (s : State) (e : Nat) (size : Bool) (v : W24) :
    let p := (s.engine e).spu.ringPlaced size v
    (s.ringWrite e size v).engine e = { s.engine e with spu := (s.engine e).spu.ringAt p.1 p.2 } :=
  State.engine_setEngine ..

theorem State.ringWrite_arrivals (he : e < 1024) (size : Bool) (v : W24) : (s.ringWrite e size v).arrivals e = [] := by
  unfold State.ringWrite
  dsimp only
  rw [if_pos he]
  show ((State.setPod _ _ _).pod _).arrival.filter _ = _
  rw [State.pod_setPod, List.filter_filter]
  exact List.filter_eq_nil_iff.2 fun r _ => by simp

/-- The records of a ring and those on their way to it (08 R178). -/
def State.ringRecords (s : State) (e : Nat) : Nat := (s.engine e).spu.ring.length + (s.arrivals e).length

theorem State.ringWrite_parts (he : e < 1024) (size : Bool) (v : W24) :
    (s.ringWrite e size v).mem = s.mem ∧
      (s.ringWrite e size v).od = (s.bumpBy (0x2A01 + e / 32) 5 4 (s.ringRecords e)).od := by
  have hdrops : s.engDrops e (s.ringRecords e) = s.bumpBy (0x2A01 + e / 32) 5 4 (s.ringRecords e) := if_pos he
  have hmem : (s.bumpBy (0x2A01 + e / 32) 5 4 (s.ringRecords e)).mem = s.mem := by unfold State.bumpBy; split <;> rfl
  unfold State.ringWrite
  dsimp only
  rw [if_pos he, ← hmem, ← hdrops]
  exact ⟨rfl, rfl⟩

theorem State.ringWrite_drops (he : e < 1024) (size : Bool) (v : W24) : (s.ringWrite e size v).cfg (0x2A01 + e / 32) 5 =
    if s.ringRecords e = 0 then s.cfg (0x2A01 + e / 32) 5 else min (2 ^ 32 - 1) (s.cfg (0x2A01 + e / 32) 5 + s.ringRecords e) := by
  rw [cfg_of_od (State.ringWrite_parts he size v).2, State.bumpBy]
  split
  · rfl
  · exact State.cfg_put ..

theorem State.ringWrite_quiet (he : e < 1024) (h : s.fetchesQuietly e) (size : Bool) (v : W24) : (s.ringWrite e size v).fetchesQuietly e := by
  obtain ⟨hmem, hod⟩ := State.ringWrite_parts (s := s) he size v
  refine State.fetchesQuietly_moved he h hmem fun hcount => ?_
  rw [bump_od_of_od hod, hod, State.bumpBy]
  split
  · exact hcount
  · exact State.bump_put_od (by decide) (by decide) (by simp only [ne_eq, Prod.mk.injEq]; omega) _ hcount

/-- SPU_RING_WRITE by a supervisor: the ring is placed and empty, and its records are counted. -/
theorem spuRingWrite_empties {e : EngN} (hissues : s.issues e.val) (he : e.val < 1024) (hsup : (s.engine e.val).ctl.mode.getLsbD 3 = true)
    (size : Bool) (v : W24) :
    let x0 := (s.engine e.val).atTwo s.tb.tick.toNat s.now
    let p := x0.spu.ringPlaced size v
    let lost := x0.spu.ring.length + (s.arrivals e.val).length
    ∃ t, exec (.spuRingWrite e size v) s = .next t ∧ (t.engine e.val).held = { x0.held with rbase := p.1, rsize := p.2 } ∧
      SameBut [.eng, .pods, .od] s t ∧ (t.engine e.val).spu.tail = p.1 ∧ (t.engine e.val).spu.cur = none ∧ (t.engine e.val).spu.ring = [] ∧
      t.arrivals e.val = [] ∧ t.cfg (0x2A01 + e.val / 32) 5 =
        if lost = 0 then s.cfg (0x2A01 + e.val / 32) 5 else min (2 ^ 32 - 1) (s.cfg (0x2A01 + e.val / 32) 5 + lost) := by
  intro x0 p lost
  let s1 := s.setEngine e.val (s.issuing e.val)
  have hx : s1.engine e.val = s.issuing e.val := s.engine_setEngine ..
  have hport : ∀ size : Bool, let n := if size then 0x3A9 else 0x3A8
      isDest n = true ∧ isTrigger n = false := by decide
  have hwrite : s1.writePort e.val (s.issuing e.val).lsu1.rsel.toNat (if size then 0x3A9 else 0x3A8) (longOf v) = s1.ringWrite e.val size v := by
    cases size
    all_goals exact congrArg (s1.ringWrite e.val _) (wordOf_longOf v)
  obtain ⟨hdest, htrigger⟩ := hport size
  obtain ⟨fb, q, hissue⟩ := State.issue_write hissues hdest htrigger (fun _ => hsup) hwrite
    (State.ringWrite_quiet he (State.fetchesQuietly_set hissues.2.2 (s.issuing e.val) rfl) size v)
  have hengine := s1.ringWrite_engine e.val size v
  rw [hx] at hengine
  let t := s1.ringWrite e.val size v
  have hdrops : t.cfg (0x2A01 + e.val / 32) 5 = _ := State.ringWrite_drops (s := s1) he size v
  rw [State.ringRecords, hx] at hdrops
  have hdoes : Does [.eng, .pods, .od] s (t.setEngine e.val { (t.engine e.val).passed e.val fb with pfq := q }) :=
    ((s.setEngine_does ..).weaken rfl).step (s1.ringWrite_does ..) rfl |>.step (State.setEngine_does ..) rfl
  refine ⟨_, congrArg Host.Outcome.next hissue, ?held, hdoes.same, ?_⟩
  case held =>
    rw [State.engine_setEngine, Engine.refilled_held, Engine.passed_held, hengine]
    rfl
  rw [State.engine_setEngine, hengine]
  exact ⟨rfl, rfl, rfl, State.ringWrite_arrivals he size v, hdrops⟩

/-! The predictor. -/

/-- The active Signal Map names an engine for a channel (04 R73). -/
def State.namesChan (s : State) (c g : Nat) : Prop := ∃ m ∈ s.cls.activeBank.sm, bits m.2.toNat 98 16 = c ∧ bits m.2.toNat 88 10 = g

/-- The engines that the active Signal Map names for a channel. -/
def State.chanOwners (s : State) (c : Nat) : List Nat := (s.cls.activeBank.sm.filter fun n => bits n.2.toNat 98 16 = c).map fun n => bits n.2.toNat 88 10

theorem State.mem_chanOwners (s : State) (c g : Nat) : g ∈ s.chanOwners c ↔ s.namesChan c g := by
  simp only [State.chanOwners, State.namesChan, List.mem_map, List.mem_filter, decide_eq_true_eq, and_assoc]

/-- An engine owns what is named for it and what its own lane carries. -/
theorem State.ownsChan_of {c : Nat} (h : s.namesChan c e ∨ c ∈ (s.lane (0x1000 + e)).chans) : s.ownsChan e c = true := by
  show ((s.chanOwners c).contains e || (s.lane (0x1000 + e)).chans.contains c || _) = true
  simp only [Bool.or_eq_true, List.contains_iff_mem, State.mem_chanOwners]
  exact .inl h

/-- It owns nothing that is named for other engines alone. -/
theorem State.ownsChan_of_others {c g : Nat} (h : ¬(s.namesChan c e ∨ c ∈ (s.lane (0x1000 + e)).chans)) (hg : s.namesChan c g) :
    s.ownsChan e c = false := by
  have hnamed : (s.chanOwners c).isEmpty = false := by
    rw [List.isEmpty_eq_false_iff_exists_mem]
    exact ⟨g, (s.mem_chanOwners c g).2 hg⟩
  have hown : ((s.chanOwners c).contains e || (s.lane (0x1000 + e)).chans.contains c) = false := by
    rw [Bool.eq_false_iff, ne_eq, Bool.or_eq_true, List.contains_iff_mem, List.contains_iff_mem, State.mem_chanOwners]
    exact h
  show ((s.chanOwners c).contains e || (s.lane (0x1000 + e)).chans.contains c || ((s.chanOwners c).isEmpty && _)) = false
  rw [hown, hnamed]
  rfl

theorem State.predWrite_other {v : W24} (h : s.ownsChan e (v.toNat % 65536) = false) : s.predWrite e v = s :=
  if_pos (by rw [h]; exact Bool.or_true _)

/-- The settings of an owned channel stand in the pod's Mill. -/
theorem State.predWrite_mill {v : W24} (he : e < 1024) (h : s.ownsChan e (v.toNat % 65536) = true) :
    (s.predWrite e v).mill (e / 32) = { s.mill (e / 32) with
      order := (s.mill (e / 32)).order.set (v.toNat % 65536) (bits v.toNat 16 2)
      adapt := (s.mill (e / 32)).adapt.set (v.toNat % 65536) (v.getLsbD 19) } := by
  rw [State.predWrite, if_neg (by simp [h, he])]
  exact Tab.get_set_self ..

theorem State.predWrite_parts (s : State) (e : Nat) (v : W24) :
    (s.predWrite e v).mem = s.mem ∧ (s.predWrite e v).od = s.od ∧ (s.predWrite e v).eng = s.eng := by
  unfold State.predWrite
  dsimp only
  split <;> exact ⟨rfl, rfl, rfl⟩

theorem State.predWrite_quiet (he : e < 1024) (h : s.fetchesQuietly e) (v : W24) : (s.predWrite e v).fetchesQuietly e := by
  obtain ⟨hmem, hod, -⟩ := s.predWrite_parts e v
  refine State.fetchesQuietly_moved he h hmem fun hcount => ?_
  rw [bump_od_of_od hod, hod]
  exact hcount

/-- SPU_PRED_WRITE: what follows the write in the cycle leaves all but the engine as the write leaves it. -/
theorem spuPredWrite_writes {e : EngN} (hissues : s.issues e.val) (he : e.val < 1024) (v : W24) :
    ∃ fb q, exec (.spuPredWrite e v) s =
      .next (((s.setEngine e.val (s.issuing e.val)).predWrite e.val v).setEngine e.val { (s.issuing e.val).passed e.val fb with pfq := q }) := by
  let s1 := s.setEngine e.val (s.issuing e.val)
  have hwrite : s1.writePort e.val (s.issuing e.val).lsu1.rsel.toNat 0x3AA (longOf v) = s1.predWrite e.val v :=
    congrArg (s1.predWrite e.val) (wordOf_longOf v)
  have hengine : (s1.predWrite e.val v).engine e.val = s.issuing e.val := by
    obtain ⟨-, -, heng⟩ := s1.predWrite_parts e.val v
    rw [State.engine, heng]
    exact s.engine_setEngine ..
  obtain ⟨fb, q, hissue⟩ := State.issue_write hissues (by decide) (by decide) (fun h => absurd h (by decide)) hwrite
    (State.predWrite_quiet he (State.fetchesQuietly_set hissues.2.2 (s.issuing e.val) rfl) v)
  rw [hengine] at hissue
  exact ⟨fb, q, congrArg Host.Outcome.next hissue⟩

/-- The settings of a channel that the engine owns. -/
theorem spuPredWrite_owned {e : EngN} (hissues : s.issues e.val) (he : e.val < 1024) (v : W24)
    (hown : s.namesChan (v.toNat % 65536) e.val ∨ v.toNat % 65536 ∈ (s.lane (0x1000 + e.val)).chans) :
    ∃ t, exec (.spuPredWrite e v) s = .next t ∧ SameBut [.eng, .store, .link] s t ∧ (t.engine e.val).held = (s.issuing e.val).held ∧
      Tab.get 2 (t.mill (e.val / 32)).order (v.toNat % 65536) = bits v.toNat 16 2 ∧
      Tab.get true (t.mill (e.val / 32)).adapt (v.toNat % 65536) = v.getLsbD 19 := by
  let s1 := s.setEngine e.val (s.issuing e.val)
  obtain ⟨fb, q, hexec⟩ := spuPredWrite_writes hissues he v
  have hdoes (y : Engine) : Does [.eng, .store, .link] s ((s1.predWrite e.val v).setEngine e.val y) :=
    ((s.setEngine_does ..).weaken rfl).step (s1.predWrite_does e.val v) rfl |>.step (State.setEngine_does ..) rfl
  have hmill := State.predWrite_mill (s := s1) he (State.ownsChan_of hown)
  refine ⟨_, hexec, (hdoes _).same, ?held, ?order, ?adapt⟩
  case held => rw [State.engine_setEngine, Engine.refilled_held, Engine.passed_held]
  case order =>
    show Tab.get 2 ((s1.predWrite e.val v).mill (e.val / 32)).order _ = _
    rw [hmill]
    exact Tab.get_set_self ..
  case adapt =>
    show Tab.get true ((s1.predWrite e.val v).mill (e.val / 32)).adapt _ = _
    rw [hmill]
    exact Tab.get_set_self ..

/-- A channel that is named for other engines alone stays as it is. -/
theorem spuPredWrite_other {e : EngN} {g : Nat} (hissues : s.issues e.val) (he : e.val < 1024) (v : W24)
    (hother : ¬(s.namesChan (v.toNat % 65536) e.val ∨ v.toNat % 65536 ∈ (s.lane (0x1000 + e.val)).chans)) (hg : s.namesChan (v.toNat % 65536) g) :
    EngineDoes s e (.spuPredWrite e v) (s.issuing e.val).held fun _ => True := by
  obtain ⟨fb, q, hexec⟩ := spuPredWrite_writes hissues he v
  rw [State.predWrite_other (State.ownsChan_of_others (s := s.setEngine e.val (s.issuing e.val)) hother hg), State.setEngine_setEngine] at hexec
  exact ⟨_, hexec, .set .., by rw [State.engine_setEngine, Engine.refilled_held, Engine.passed_held], trivial⟩

/-- Settles O29: the ports of RPT and SMV by the fact about their unit, ring and predictor by what their writes leave of the state. -/
theorem repeatStringStreamPorts : Obligations.RepeatStringStreamPorts := by
  unfold Obligations.RepeatStringStreamPorts
  refine ⟨fun s e v hissues => ⟨fun hn => ?closed, fun hn he => ?opened, fun hact hseen hbad => ?string⟩,
    fun s e v hissues he => ⟨fun hsup => ?ring, ?pred⟩⟩
  case closed =>
    have hcheck {r : Rpt} (h : r.n = 0) := Rpt.turn_none h (s.engine e.val).ctl.pc
    obtain ⟨houter, hinner⟩ := Rpt.writeCount_closed hn v
    have hbound {port : BitVec 10} (h : port.toNat ∈ rptBoundPorts) {r : Rpt} (hr : (s.engine e.val).rpt.write port.toNat v = r) (h0 : r.n = 0) :=
      rptBoundsWrite_takes hissues v h hr (hcheck h0)
    exact ⟨rptCountWrite_takes (port := 0x2E8) hissues v (by decide) (if_pos hn) (hcheck hn),
      rptCountWrite_takes (port := 0x2EA) hissues v (by decide) houter (hcheck hn),
      rptCountWrite_takes (port := 0x2ED) hissues v (by decide) hinner (hcheck hn),
      hbound (port := 0x2E0) (by decide) rfl hn, hbound (port := 0x2EB) (by decide) rfl hn, hbound (port := 0x2EC) (by decide) rfl hn,
      hbound (port := 0x2EE) (by decide) rfl hn, hbound (port := 0x2EF) (by decide) rfl hn⟩
  case opened =>
    obtain ⟨houter, hinner⟩ := Rpt.writeCount_outer hn v
    have hnow : (s.engine e.val).rpt.write 0x2E8 v = (s.engine e.val).rpt.writeCount 0 v := by
      show (if (s.engine e.val).rpt.n = 0 then _ else _) = _
      rw [if_neg (by rw [hn]; decide), hn]
      rfl
    have hcount {port : BitVec 10} (h : port.toNat ∈ rptCountPorts) {r : Rpt} (hr : (s.engine e.val).rpt.write port.toNat v = r) (h1 : r.n = 1)
        (h2 : r.e0 ≠ (s.engine e.val).ctl.pc) := rptCountWrite_takes hissues v h hr (Rpt.endCheck_inside h1 h2)
    exact ⟨hcount (port := 0x2E8) (by decide) (hnow.trans houter) hn he, hcount (port := 0x2EA) (by decide) houter hn he,
      hcount (port := 0x2ED) (by decide) hinner hn he⟩
  case string =>
    have hwrite {port : BitVec 10} (h : port.toNat ∈ smvPorts) {m : Smv} (hm : (s.engine e.val).smv.write port.toNat v = m) :=
      smvPortWrite_takes hissues v h hm
    exact ⟨hwrite (port := 0x328) (by decide) rfl hseen hbad, hwrite (port := 0x329) (by decide) rfl hseen hbad,
      hwrite (port := 0x32A) (by decide) (Smv.write_n hact hseen v) hseen hbad, hwrite (port := 0x32B) (by decide) rfl hseen hbad⟩
  case ring => exact ⟨spuRingWrite_empties hissues he hsup false v, spuRingWrite_empties hissues he hsup true v⟩
  case pred => exact ⟨spuPredWrite_owned hissues he v, fun hother ⟨g, hg⟩ => spuPredWrite_other hissues he v hother hg⟩

end Sys2Proof.Machine
end

section
/-! EXCEPTION_ENTRY at an engine of a pod whose bundle does not stand in the prefetch queue (08 R162, 12 R257, 14 R307): the bundle is fetched first. -/

namespace Sys2Proof.Machine

/-- Engine 0 of a running pod 0, its prefetch queue empty and its bundle marked as lost, while one bit of that bundle stands inverted in IMEM. -/
def entryMeetsBadBundle : State where
  pods := [(0, { powered := true, erst := 0 })]
  eng := [(0, { pfBad := some 0 })]
  mem := { bad := [(imemAddr 0 0 0, 1)] }
  pwr := { boot := .up }

/-- The engine of a pod, whose fetches meet no error response, fetches the bundle once more: the bit is corrected, and its row listed (14 R307). -/
theorem entryMeetsBadBundle_cel (t : State) (ht : exec (.exceptionEntry 0) entryMeetsBadBundle = .next t) : t.mem.cel = [.home (imemAddr 0 0 0)] := by
  cases ht
  decide

/-- Refutes O30: its first clause covers engines of a pod too, whose bundles no fetch marks as lost, and does not ask that the bundle stand in the prefetch
queue; such an engine fetches it at the entry, which may list a corrected row of IMEM where the frame allows a change of the engine alone. -/
theorem not_exceptionEntryBegins : ¬ Obligations.ExceptionEntryBegins := by
  unfold Obligations.ExceptionEntryBegins
  intro h
  obtain ⟨hlost, -, -⟩ := h entryMeetsBadBundle 0 0 (by decide) rfl rfl rfl (by decide)
  obtain ⟨t, hexec, ⟨hsame, -⟩, -⟩ := hlost (by decide) rfl (by decide) rfl rfl
  have hcel : t.mem.cel = [] := hsame .cel (by decide)
  rw [entryMeetsBadBundle_cel t hexec] at hcel
  exact absurd hcel (by decide)

end Sys2Proof.Machine
end

section
/-! Tables that are written key by key. -/

namespace Sys2Proof

variable {α : Type}

theorem Tab.get_map_range (d : α) (f : Nat → α) {n i : Nat} (hi : i < n) : Tab.get d ((List.range n).map fun k => (k, f k)) i = f i := by
  have hfind : ∀ l : List Nat, i ∈ l → Tab.get d (l.map fun k => (k, f k)) i = f i := fun l hl => by
    induction l with
    | nil => exact absurd hl List.not_mem_nil
    | cons k l ih =>
      by_cases hk : k = i
      · simp [Tab.get, hk]
      · simpa [Tab.get, hk] using ih ((List.mem_cons.1 hl).resolve_left (Ne.symm hk))
  exact hfind _ (List.mem_range.2 hi)

theorem Tab.find_foldl_set (v : α) {l : List Nat} {b : Nat} : ∀ {t : Tab α}, b ∈ l ∨ t.find b = some v →
    (l.foldl (fun t k => t.set k v) t).find b = some v := by
  induction l with
  | nil => exact fun h => h.resolve_left List.not_mem_nil
  | cons k l ih =>
    intro t h
    refine ih ?_
    by_cases hk : b = k
    · exact .inr (by rw [hk, Tab.find_set_self])
    · rw [Tab.find_set_ne _ _ hk, List.mem_cons] at *
      exact h.imp_left (·.resolve_left hk)

end Sys2Proof
end

section
/-! The words of a task-state block (12 R260 to R262): what an engine is restored to from the block that it was saved in. -/

namespace Sys2Proof.Machine

/-! Numbers in words. -/

theorem bit01_le (b : Bool) : bit01 b ≤ 1 := by cases b <;> decide

theorem tb_of {l : List Nat} {i b : Nat} {v : Bool} (h : bits (tw l i) b 1 = bit01 v) : tb l i b = v := by
  rw [tb, h]
  cases v <;> rfl

theorem tf_of {l : List Nat} {n : Nat} : ∀ {i v : Nat}, (∀ k < n, tw l (i + k) = bits v (24 * k) 24) → tf l i n = v % 2 ^ (24 * n) := by
  induction n with
  | zero => exact fun _ => (Nat.mod_one _).symm
  | succ n ih =>
    intro i v h
    have hrest : tf l (i + 1) n = v / 2 ^ 24 % 2 ^ (24 * n) := ih fun k hk => by
      rw [Nat.add_assoc, Nat.add_comm 1 k, h (k + 1) (by omega), bits, bits, Nat.div_div_eq_div_mul, ← Nat.pow_add, Nat.mul_succ, Nat.add_comm 24]
    have hsplit : tf l i (n + 1) = tw l i + 2 ^ 24 * tf l (i + 1) n := by
      simp only [tf, List.range_succ_eq_map, List.foldr_cons, List.foldr_map, Nat.add_zero, Nat.succ_eq_add_one]
      simp only [Nat.add_assoc, Nat.add_comm 1]
    rw [hsplit, hrest, show tw l i = _ from h 0 (by omega), bits, Nat.mul_zero, Nat.pow_zero, Nat.div_one, Nat.mul_succ, Nat.add_comm (24 * n), Nat.pow_add,
      Nat.mod_mul]

theorem ofNat_toNat_of {w n : Nat} {v : BitVec w} (h : n = v.toNat) : BitVec.ofNat w n = v := by rw [h, BitVec.ofNat_toNat, BitVec.setWidth_eq]

/-- The word of a long's lower and upper halves (12 R260). -/
theorem tl_of {l : List Nat} {i : Nat} {v : L48} (hlow : tw l i = bits v.toNat 0 24) (hhigh : tw l (i + 1) = bits v.toNat 24 24) : tl l i = v := by
  refine ofNat_toNat_of ?_
  rw [hlow, hhigh, bits, bits]
  omega

theorem tw_append_left {a b : List Nat} {i : Nat} (h : i < a.length) : tw (a ++ b) i = tw a i := List.getD_append _ _ _ _ h

theorem tw_append_right {a : List Nat} {n : Nat} (h : a.length = n) (b : List Nat) (i : Nat) : tw (a ++ b) (i + n) = tw b i := by
  rw [tw, List.getD_append_right _ _ _ _ (by omega), h, Nat.add_sub_cancel]
  rfl

theorem tw_map_range {n i : Nat} (f : Nat → Nat) (h : i < n) : tw ((List.range n).map f) i = f i := by
  simp [tw, h]

/-! The block's layout (12 R260). -/

variable (x : Engine)

/-- The block's words of the registers. -/
def Engine.tsbRegs (x : Engine) : List Nat :=
  ((List.range 32).map fun i => (x.ga.get 0 i).toNat) ++ ((List.range 32).map fun i => (x.gb.get 0 i).toNat) ++
  ((List.range 8).flatMap fun i => wordsOfNat 2 (x.lx.get 0 i).toNat)

/-- The block's words of units and state, in their order from word 80 on. -/
def Engine.tsbUnits (x : Engine) : List Nat :=
  let two := fun (v : L48) => wordsOfNat 2 v.toNat
  let a := x.lsu0.slot 1 x.lsu0.q
  let b := x.lsu0.slot 2 a.2.2
  two x.ctl.o ++ (two x.alu0.o2 ++ (two x.alu0.q ++ (two x.alu1.o2 ++ (two x.alu1.q ++ ([x.shf.o2.toNat] ++ (two x.shf.q ++ ([x.mac.o.toNat] ++
  (two x.mac.q ++ (wordsOfNat 7 (x.mac.acc.toNat + 2 ^ 56 * (x.mac.slot 1).1 + 2 ^ 112 * (x.mac.slot 2).1) ++ (wordsOfNat 5 x.fieldCF ++
  (two x.div.o ++ (two x.div.q ++ (two x.div.r ++ (two ((x.div.fl.map (·.q)).getD 0) ++ (two ((x.div.fl.map (·.r)).getD 0) ++ (two x.lsu0.o ++
  (two x.lsu0.q ++ (wordsOfNat 2 a.1 ++ (wordsOfNat 2 b.1 ++ (two x.lsu1.o ++ (two x.lsu1.q ++
  ((List.range 5).flatMap (fun i => wordsOfNat 2 (x.lsu1.slot (i + 1)).1) ++ (two x.tsu.q ++ (wordsOfNat 2 x.tsu.slot.2 ++ (wordsOfNat 2 x.spu.fieldSF ++
  ([x.rpt.c0.toNat, x.rpt.c1.toNat, x.smv.pat.toNat] ++ x.stateWords))))))))))))))))))))))))))

theorem Engine.tsbWords_eq : x.tsbWords = x.tsbRegs ++ x.tsbUnits := by
  unfold Engine.tsbWords Engine.tsbRegs Engine.tsbUnits
  simp only [List.append_assoc]

theorem Engine.tsbRegs_length : x.tsbRegs.length = 80 := by
  simp [Engine.tsbRegs, wordsOfNat, List.range_succ]

/-- A word of the units. -/
theorem Engine.tw_unit {i v : Nat} (h : tw x.tsbUnits i = v) : tw x.tsbWords (i + 80) = v := by
  rw [x.tsbWords_eq, tw_append_right x.tsbRegs_length, h]

/-- A long of the units. -/
theorem Engine.tl_unit {i : Nat} {v : L48} (hlow : tw x.tsbUnits i = bits v.toNat 0 24) (hhigh : tw x.tsbUnits (i + 1) = bits v.toNat 24 24) :
    tl x.tsbWords (i + 80) = v :=
  tl_of (x.tw_unit hlow) (by rw [Nat.add_right_comm]; exact x.tw_unit hhigh)

theorem Engine.tw_state (i : Nat) : tw x.tsbWords (i + 149) = tw x.stateWords i := x.tw_unit (i := i + 69) rfl

/-! Registers. -/

/-- Words `2 i` and `2 i + 1` of some longs. -/
theorem tw_longs (f : Nat → L48) {n i : Nat} (hi : i < n) : let l := (List.range n).flatMap fun k => wordsOfNat 2 (f k).toNat
    tw l (2 * i) = bits (f i).toNat 0 24 ∧ tw l (2 * i + 1) = bits (f i).toNat 24 24 := by
  induction n with
  | zero => exact absurd hi (Nat.not_lt_zero i)
  | succ n ih =>
    have hlen : ((List.range n).flatMap fun k => wordsOfNat 2 (f k).toNat).length = 2 * n := by simp [wordsOfNat, Nat.mul_comm]
    simp only [List.range_succ, List.flatMap_append, List.flatMap_singleton]
    obtain hlt | rfl := Nat.lt_or_eq_of_le (Nat.le_of_lt_succ hi)
    · rw [tw_append_left (by omega), tw_append_left (by omega)]
      exact ih hlt
    · rw [Nat.add_comm _ 1, tw_append_right hlen]
      exact ⟨(congrArg _ (Nat.zero_add _).symm).trans (tw_append_right hlen (wordsOfNat 2 (f i).toNat) 0), rfl⟩

theorem Engine.tsbRegs_ga {i : Nat} (hi : i < 32) : tw x.tsbWords i = (x.ga.get 0 i).toNat := by
  rw [x.tsbWords_eq, tw_append_left (by rw [x.tsbRegs_length]; omega), Engine.tsbRegs, List.append_assoc, tw_append_left (by simpa using hi)]
  exact tw_map_range _ hi

theorem Engine.tsbRegs_gb {i : Nat} (hi : i < 32) : tw x.tsbWords (32 + i) = (x.gb.get 0 i).toNat := by
  rw [x.tsbWords_eq, tw_append_left (by rw [x.tsbRegs_length]; omega), Engine.tsbRegs, List.append_assoc, Nat.add_comm, tw_append_right (by simp),
    tw_append_left (by simpa using hi)]
  exact tw_map_range _ hi

theorem Engine.tsbRegs_lx {i : Nat} (hi : i < 8) : tl x.tsbWords (64 + 2 * i) = x.lx.get 0 i := by
  obtain ⟨hlow, hhigh⟩ := tw_longs (x.lx.get 0) hi
  have hword {k : Nat} (hk : k < 16) : tw x.tsbWords (64 + k) = tw ((List.range 8).flatMap fun i => wordsOfNat 2 (x.lx.get 0 i).toNat) k := by
    rw [x.tsbWords_eq, tw_append_left (by rw [x.tsbRegs_length]; omega), Engine.tsbRegs, Nat.add_comm, tw_append_right (by simp)]
  exact tl_of ((hword (k := 2 * i) (by omega)).trans hlow) (by rw [Nat.add_assoc, hword (by omega), hhigh])

/-- The registers that a block gives. -/
theorem Engine.restoreFrom_regs (l : List Nat) : (∀ i < 32, (x.restoreFrom l).ga.get 0 i = BitVec.ofNat 24 (tw l i) ∧
    (x.restoreFrom l).gb.get 0 i = BitVec.ofNat 24 (tw l (32 + i))) ∧ ∀ i < 8, (x.restoreFrom l).lx.get 0 i = tl l (64 + 2 * i) := by
  refine ⟨fun i hi => ⟨?_, ?_⟩, fun i hi => ?_⟩
  · exact (Tab.get_map_range 0 (fun k => BitVec.ofNat 24 (tw l (0 + k))) hi).trans (by rw [Nat.zero_add])
  · exact Tab.get_map_range 0 (fun k => BitVec.ofNat 24 (tw l (32 + k))) hi
  · exact Tab.get_map_range 0 (fun k => tl l (64 + 2 * k)) hi

end Sys2Proof.Machine
end

section
/-! TSB_SAVE into a row that waits for a rewrite (12 R257, 14 R307, R316): the row joins the correctable-error list. -/

namespace Sys2Proof.Machine

variable {m : Memory}

/-! The correctable-error list as bytes are written. -/

theorem Memory.listRow_keeps {r k : RowId} (h : k ∈ m.cel) : k ∈ (m.listRow r).cel := by
  unfold Memory.listRow
  split
  · exact h
  · exact List.mem_append_left _ h

theorem Memory.touch_keeps {row : Nat} {k : RowId} (h : k ∈ m.cel) : k ∈ (m.touch row).cel := by
  unfold Memory.touch
  split
  · exact Memory.listRow_keeps h
  · exact h

/-- A row whose write-back waits is listed when a write reaches it and the list has room. -/
theorem Memory.touch_lists {row : Nat} (hwaits : m.rewrite.any (·.1 = .home row) = true) (hroom : m.cel.length < 16) : .home row ∈ (m.touch row).cel := by
  rw [Memory.touch, if_pos hwaits, Memory.listRow]
  split
  case isTrue hfull =>
    have hlisted : m.cel.contains (.home row) = true := by simpa [Nat.not_le.2 hroom] using hfull
    exact List.contains_iff_mem.1 hlisted
  case isFalse => exact List.mem_append_right _ (List.mem_singleton.2 rfl)

theorem Memory.writeByte_cel (m : Memory) (inj : Option Nat) (a : Nat) (v : Byte) : (m.writeByte inj a v).cel = ((m.setByte a v).touch (memRow a).1).cel := by
  unfold Memory.writeByte
  dsimp only
  split <;> rfl

theorem Memory.writeBytes_keeps {inj : Option Nat} {k : RowId} {l : List Byte} (h : k ∈ m.cel) : ∀ {a : Nat}, k ∈ (m.writeBytes inj a l).cel := by
  induction l generalizing m with
  | nil => exact h
  | cons v l ih => exact ih (by rw [Memory.writeByte_cel]; exact Memory.touch_keeps h)

/-- So is the row of the first of some bytes that are written. -/
theorem Memory.writeBytes_lists {inj : Option Nat} {a : Nat} {l : List Byte} (hl : l ≠ []) (hwaits : m.rewrite.any (·.1 = .home (memRow a).1) = true)
    (hroom : m.cel.length < 16) : .home (memRow a).1 ∈ (m.writeBytes inj a l).cel := by
  obtain ⟨v, l, rfl⟩ := List.exists_cons_of_ne_nil hl
  have hfirst : .home (memRow a).1 ∈ (m.writeByte (if m.inject then inj else none) a v).cel := by
    rw [Memory.writeByte_cel]
    exact Memory.touch_lists hwaits hroom
  exact Memory.writeBytes_keeps hfirst

/-! Inverted bits as bytes are written. -/

theorem Memory.touch_bad (m : Memory) (row : Nat) : (m.touch row).bad = m.bad := by
  unfold Memory.touch Memory.listRow
  split
  · split <;> rfl
  · rfl

/-- A write without an injection leaves no bit inverted where none was. -/
theorem Memory.writeBytes_sound {l : List Byte} (h : m.bad = []) : ∀ a, (m.writeBytes none a l).bad = [] := by
  induction l generalizing m with
  | nil => exact fun _ => h
  | cons v l ih =>
    intro a
    refine ih ?_ _
    rw [ite_self]
    show ((m.setByte a v).touch (memRow a).1).bad.erase a = []
    rw [Memory.touch_bad]
    exact congrArg (Tab.erase · a) h

/-- An engine of a pod fetches quietly from a memory without inverted bits, the rows of its block served. -/
theorem State.rowsServed_quiet {s : State} {e : Nat} (he : e < 1024) (h : s.mem.bad = []) : (s.rowsServed e).fetchesQuietly e :=
  State.fetchesQuietly_of he fun n _ => by
    rw [State.rowsServed, if_pos he]
    simp [Memory.sound, State.bankServed, State.setPod, h, Tab.get]

theorem Engine.tsbBlock_ne_nil (x : Engine) : x.tsbWords.flatMap (leBytes 3) ≠ [] := by
  intro h
  have hlen := congrArg List.length h
  simp [x.tsbWords_eq, x.tsbRegs_length] at hlen

/-! The refutation. -/

/-- Engine 0 of a running pod 0, whose escalated entry for a trap has nothing left to wait for, while a write-back of the first row of its block waits. -/
def saveMeetsRewrite : State where
  pods := [(0, { powered := true, erst := 0 })]
  eng := [(0, { exc := { entry := some ⟨none, 2, 9⟩, esc := 2 } })]
  mem := { rewrite := [(.home (pmemAddr 0 0 0), [])] }
  pwr := { boot := .up }

/-- An escalated entry writes the block and nothing else of the memory. -/
theorem State.saveTask_escalated {s : State} {e : Nat} {n : Entry} {a : Nat} (hentry : (s.engine e).exc.entry = some n) (hruns : s.engRuns e = true)
    (hsettled : (s.engine e).settled = true) (hhome : (s.engine e).tsbHome e = some a)
    (hesc : (n.irq.isNone && decide (n.code &&& (s.engine e).exc.esc ≠ 0)) = true) :
    (s.saveTask e).mem = s.mem.writeBytes s.armed a ((s.engine e).tsbWords.flatMap (leBytes 3)) := by
  have hring (t : State) (msg : W24) : (t.ring e msg).mem = t.mem := by
    unfold State.ring
    split <;> rfl
  have hset (t : State) (y : Engine) : (t.setEngine e y).mem = t.mem := rfl
  have hserved (t : State) : (t.rowsServed e).mem = t.mem := by
    unfold State.rowsServed
    split <;> rfl
  unfold State.saveTask
  dsimp only
  rw [hentry]
  dsimp only
  rw [if_pos (by rw [hruns, hsettled]; rfl), hhome]
  dsimp only
  rw [if_pos hesc, State.halt, if_neg (by simp), hring, hset, hset, hserved]

/-- The block's first bytes drop the write-back, and its row is to be visited again (14 R316). -/
theorem saveMeetsRewrite_cel (t : State) (ht : exec (.tsbSave 0) saveMeetsRewrite = .next t) : .home (pmemAddr 0 0 0) ∈ t.mem.cel := by
  cases ht
  show _ ∈ (saveMeetsRewrite.saveTask 0).mem.cel
  rw [State.saveTask_escalated (s := saveMeetsRewrite) (e := 0) (n := ⟨none, 2, 9⟩) (a := pmemAddr 0 0 0) rfl (by decide) (by decide) (by decide) (by decide)]
  exact Memory.writeBytes_lists (a := pmemAddr 0 0 0) (Engine.tsbBlock_ne_nil _) (by decide) (by decide)

/-- Refutes O31: its frame of a saved block leaves the correctable-error list out of what may change, and a block laid into a row whose write-back waits puts
that row into the list (14 R316). -/
theorem not_taskStateSaved : ¬ Obligations.TaskStateSaved := by
  unfold Obligations.TaskStateSaved
  rintro ⟨-, hsaved⟩
  obtain ⟨hblock, -⟩ := hsaved saveMeetsRewrite 0 ⟨none, 2, 9⟩ (by decide) rfl (by decide) (by decide) rfl
  obtain ⟨t, hexec, hsame, -⟩ := hblock (pmemAddr 0 0 0) (by decide) (State.rowsServed_quiet (by decide) (Memory.writeBytes_sound rfl _))
  have hcel : t.mem.cel = [] := hsame .cel (by decide)
  exact absurd (saveMeetsRewrite_cel t hexec) (by simp [hcel])

end Sys2Proof.Machine
end

section
/-! The fields of a block's state words and of CF and SF (12 R261, R262), and what each unit is restored to from the block that it was saved in (12 R260). -/

namespace Sys2Proof.Machine

variable (x : Engine)

/-! State words (12 R262). -/

theorem Engine.field_pc : bits (tw x.tsbWords 149) 0 11 = x.ctl.pc.toNat := by
  have hpc := x.ctl.pc.isLt
  rw [show tw x.tsbWords 149 = x.ctl.jumpCode.1 * 2 ^ 22 + x.ctl.jumpCode.2.1 * 2048 + x.ctl.pc.toNat from x.tw_state 0, bits]
  omega

/-- JTGT2 is the target of a jump, or 0. -/
theorem Ctl.jumpCode_lt (c : Ctl) : c.jumpCode.2.2 < 2048 := by
  unfold Ctl.jumpCode
  split
  · exact Nat.zero_lt_succ _
  · exact Nat.zero_lt_succ _
  · exact BitVec.isLt _

theorem Engine.field_guards : bits (tw x.tsbWords 150) 11 7 = x.ctl.guards.toNat / 2 := by
  have hword : ∃ pending, tw x.stateWords 1 = bit01 (x.lsu0.fl.any (·.k = 2)) * 2 ^ 23 + bit01 (x.lsu0.fl.any (·.k = 1)) * 2 ^ 22 + x.tsu.slot.1 * 2 ^ 20 +
    pending * 2 ^ 18 + x.ctl.guards.toNat / 2 * 2048 + x.ctl.jumpCode.2.2 := ⟨_, rfl⟩
  obtain ⟨pending, hword⟩ := hword
  have hguards := x.ctl.guards.isLt
  have hjump := x.ctl.jumpCode_lt
  rw [show tw x.tsbWords 150 = _ from x.tw_state 1, hword, bits]
  omega

theorem Engine.fields_level : bits (tw x.tsbWords 151) 22 2 = x.rpt.n.val ∧ bits (tw x.tsbWords 151) 11 11 = x.rpt.o.toNat ∧
    bits (tw x.tsbWords 151) 0 11 = x.ctl.link.toNat := by
  have hn := x.rpt.n.isLt
  have ho := x.rpt.o.isLt
  have hlink := x.ctl.link.isLt
  rw [show tw x.tsbWords 151 = x.rpt.n.val * 2 ^ 22 + x.rpt.o.toNat * 2048 + x.ctl.link.toNat from x.tw_state 2]
  refine ⟨?_, ?_, ?_⟩ <;> rw [bits] <;> omega

theorem Engine.fields_outer : bits (tw x.tsbWords 152) 0 11 = x.rpt.s0.toNat ∧ bits (tw x.tsbWords 152) 11 11 = x.rpt.e0.toNat ∧
    bits (tw x.tsbWords 152) 22 1 = bit01 x.rpt.w0 ∧ bits (tw x.tsbWords 152) 23 1 = bit01 x.rpt.w1 := by
  have hs := x.rpt.s0.isLt
  have he := x.rpt.e0.isLt
  have hw0 := bit01_le x.rpt.w0
  have hw1 := bit01_le x.rpt.w1
  rw [show tw x.tsbWords 152 = bit01 x.rpt.w1 * 2 ^ 23 + bit01 x.rpt.w0 * 2 ^ 22 + x.rpt.e0.toNat * 2048 + x.rpt.s0.toNat from x.tw_state 3]
  refine ⟨?_, ?_, ?_, ?_⟩ <;> rw [bits] <;> omega

theorem Engine.fields_inner : bits (tw x.tsbWords 153) 0 11 = x.rpt.s1.toNat ∧ bits (tw x.tsbWords 153) 11 11 = x.rpt.e1.toNat := by
  have hs := x.rpt.s1.isLt
  have he := x.rpt.e1.isLt
  rw [show tw x.tsbWords 153 = x.rpt.e1.toNat * 2048 + x.rpt.s1.toNat from x.tw_state 4]
  refine ⟨?_, ?_⟩ <;> rw [bits] <;> omega

theorem Engine.fields_string : bits (tw x.tsbWords 154) 0 15 = x.smv.src.toNat ∧ bits (tw x.tsbWords 154) 15 2 = x.smv.op.val ∧
    bits (tw x.tsbWords 154) 17 1 = bit01 x.smv.ne ∧ bits (tw x.tsbWords 154) 18 1 = bit01 x.smv.down ∧ bits (tw x.tsbWords 154) 19 1 = bit01 x.smv.act ∧
    bits (tw x.tsbWords 154) 21 1 = bit01 x.mac.v ∧ bits (tw x.tsbWords 154) 22 1 = bit01 x.mac.sv := by
  have hsrc := x.smv.src.isLt
  have hop := x.smv.op.isLt
  have hne := bit01_le x.smv.ne
  have hdown := bit01_le x.smv.down
  have hact := bit01_le x.smv.act
  have hfa := bit01_le x.smv.fa
  have hv := bit01_le x.mac.v
  have hsv := bit01_le x.mac.sv
  rw [show tw x.tsbWords 154 = bit01 x.mac.sv * 2 ^ 22 + bit01 x.mac.v * 2 ^ 21 + bit01 x.smv.fa * 2 ^ 20 + bit01 x.smv.act * 2 ^ 19 +
    bit01 x.smv.down * 2 ^ 18 + bit01 x.smv.ne * 2 ^ 17 + x.smv.op.val * 2 ^ 15 + x.smv.src.toNat from x.tw_state 5]
  refine ⟨?_, ?_, ?_, ?_, ?_, ?_, ?_⟩ <;> rw [bits] <;> omega

theorem Engine.fields_mode : bits (tw x.tsbWords 155) 0 15 = x.smv.dst.toNat ∧ bits (tw x.tsbWords 155) 15 4 = x.ctl.mode.toNat := by
  have hword : ∃ pending, tw x.stateWords 6 = pending * 2 ^ 19 + x.ctl.mode.toNat * 2 ^ 15 + x.smv.dst.toNat := ⟨_, rfl⟩
  obtain ⟨pending, hword⟩ := hword
  have hmode := x.ctl.mode.isLt
  have hdst := x.smv.dst.isLt
  rw [show tw x.tsbWords 155 = _ from x.tw_state 6, hword]
  refine ⟨?_, ?_⟩ <;> rw [bits] <;> omega

theorem Engine.fields_flags0 : bits (tw x.tsbWords 156) 0 15 = x.smv.n.toNat ∧ bits (tw x.tsbWords 156) 15 5 = x.alu0.flg.toNat ∧
    bits (tw x.tsbWords 156) 20 1 = bit01 x.div.dz ∧ bits (tw x.tsbWords 156) 21 1 = bit01 x.div.v ∧ bits (tw x.tsbWords 156) 22 1 = bit01 x.div.sdz := by
  have hn := x.smv.n.isLt
  have hflg := x.alu0.flg.isLt
  have hdz := bit01_le x.div.dz
  have hv := bit01_le x.div.v
  have hsdz := bit01_le x.div.sdz
  rw [show tw x.tsbWords 156 = bit01 x.div.sdz * 2 ^ 22 + bit01 x.div.v * 2 ^ 21 + bit01 x.div.dz * 2 ^ 20 + x.alu0.flg.toNat * 2 ^ 15 + x.smv.n.toNat from
    x.tw_state 7]
  refine ⟨?_, ?_, ?_, ?_, ?_⟩ <;> rw [bits] <;> omega

theorem Engine.fields_count : bits (tw x.tsbWords 157) 0 16 = x.smv.q.toNat % 2 ^ 16 ∧ bits (tw x.tsbWords 157) 15 1 = x.smv.q.toNat / 2 ^ 15 % 2 := by
  rw [show tw x.tsbWords 157 = (x.mac.slot 2).2 * 2 ^ 20 + (x.mac.slot 1).2 * 2 ^ 16 + x.smv.q.toNat % 65536 from x.tw_state 8]
  refine ⟨?_, ?_⟩ <;> rw [bits] <;> omega

theorem L1Fl.code_lt (f : L1Fl) : f.code < 4 := by
  unfold L1Fl.code
  split <;> decide

/-- An LSU1 slot's state takes two bits. -/
theorem Lsu1.slot_lt (u : Lsu1) (k : Nat) : (u.slot k).2 < 4 := by
  unfold Lsu1.slot
  split
  · exact L1Fl.code_lt _
  · decide

theorem Engine.fields_flags1 : bits (tw x.tsbWords 159) 0 8 = x.tsu.epl.toNat / 2 ^ 24 ∧ bits (tw x.tsbWords 159) 18 5 = x.alu1.flg.toNat := by
  have hword : tw x.stateWords 10 = x.alu1.flg.toNat * 2 ^ 18 + ((x.lsu1.slot 1).2 * 1 + ((x.lsu1.slot 2).2 * 4 + ((x.lsu1.slot 3).2 * 16 +
    ((x.lsu1.slot 4).2 * 64 + ((x.lsu1.slot 5).2 * 256 + 0))))) * 256 + x.tsu.epl.toNat / 2 ^ 24 := rfl
  have hepl := x.tsu.epl.isLt
  have hflg := x.alu1.flg.isLt
  have h1 := x.lsu1.slot_lt 1
  have h2 := x.lsu1.slot_lt 2
  have h3 := x.lsu1.slot_lt 3
  have h4 := x.lsu1.slot_lt 4
  have h5 := x.lsu1.slot_lt 5
  rw [show tw x.tsbWords 159 = _ from x.tw_state 10, hword]
  refine ⟨?_, ?_⟩ <;> rw [bits] <;> omega

/-! CF and SF (12 R261). -/

/-- An operation in CHK's pipeline takes bits 64 to 105 of CF, DIV's those from 111 on. -/
theorem Engine.fieldCF_eq : ∃ c < 2 ^ 42, ∃ d, x.fieldCF =
    x.chk.q.toNat % 2 ^ 32 + 2 ^ 32 * x.chk.crc.toNat + 2 ^ 64 * c + 2 ^ 106 * (x.chk.o.toNat % 32) + 2 ^ 111 * d := by
  refine ⟨_, ?_, _, rfl⟩
  split
  case h_1 f hf =>
    have hval := f.val.isLt
    have hwm1 := f.wm1.isLt
    have hstep := bit01_le f.step
    have hkeep := bit01_le f.keep
    have hrout := bit01_le f.rout
    have hxo := bit01_le f.xo
    show f.val.toNat + 2 ^ 32 * (1 + 2 * bit01 f.step + 4 * bit01 f.keep + 8 * bit01 f.rout + 16 * bit01 f.xo + 32 * f.wm1.toNat) < 2 ^ 42
    omega
  case h_2 => decide

theorem Engine.tf_cf : tf x.tsbWords 103 5 = x.fieldCF % 2 ^ 120 := tf_of fun k hk => by
  rw [Nat.add_comm]
  interval_cases k <;> exact x.tw_unit rfl

theorem Engine.fields_chk : bits (tf x.tsbWords 103 5) 0 32 = x.chk.q.toNat % 2 ^ 32 ∧ bits (tf x.tsbWords 103 5) 32 32 = x.chk.crc.toNat ∧
    bits (tf x.tsbWords 103 5) 106 5 = x.chk.o.toNat % 32 := by
  obtain ⟨c, hc, d, hcf⟩ := x.fieldCF_eq
  have hcrc := x.chk.crc.isLt
  rw [x.tf_cf, hcf]
  refine ⟨?_, ?_, ?_⟩ <;> rw [bits] <;> omega

theorem Spu.code_lt (u : Spu) (k : Nat) : u.code k < 4 := by
  unfold Spu.code
  split
  · split <;> decide
  · decide

theorem Engine.tf_sf : tf x.tsbWords 144 2 = x.spu.fieldSF % 2 ^ 48 := tf_of fun k hk => by
  rw [Nat.add_comm]
  interval_cases k <;> exact x.tw_unit rfl

theorem Engine.fields_spu : let q := if x.spu.q = 0xFFFFFF then 2 ^ 17 else x.spu.q.toNat % 2 ^ 17
    bits (tf x.tsbWords 144 2) 0 17 = q % 2 ^ 17 ∧ bits (tf x.tsbWords 144 2) 17 1 = q / 2 ^ 17 ∧ bits (tf x.tsbWords 144 2) 18 10 = x.spu.o.toNat % 1024 ∧
    bits (tf x.tsbWords 144 2) 28 1 = x.spu.o.toNat / 2 ^ 23 := by
  intro q
  have hq : q < 2 ^ 18 := by
    unfold q
    split
    · decide
    · exact Nat.lt_trans (Nat.mod_lt _ (by decide)) (by decide)
  have ho := x.spu.o.isLt
  have hsf : x.spu.fieldSF = q + 2 ^ 18 * (x.spu.o.toNat % 1024) + 2 ^ 28 * (x.spu.o.toNat / 2 ^ 23 % 2) + 2 ^ 29 * x.spu.code 0 + 2 ^ 31 * x.spu.code 1 := rfl
  have h0 := x.spu.code_lt 0
  have h1 := x.spu.code_lt 1
  rw [x.tf_sf, hsf]
  refine ⟨?_, ?_, ?_, ?_⟩ <;> rw [bits] <;> omega

end Sys2Proof.Machine
end

section
/-! What each unit is restored to from the block that it was saved in (12 R260 to R262). -/

namespace Sys2Proof.Machine

variable (x : Engine)

theorem Engine.restoreFrom_alus : let y := x.restoreFrom x.tsbWords
    y.alu0.o2 = x.alu0.o2 ∧ y.alu0.q = x.alu0.q ∧ y.alu0.flg = x.alu0.flg ∧ y.alu1.o2 = x.alu1.o2 ∧ y.alu1.q = x.alu1.q ∧ y.alu1.flg = x.alu1.flg := by
  have ho0 : tl x.tsbWords 82 = x.alu0.o2 := x.tl_unit (i := 2) rfl rfl
  have hq0 : tl x.tsbWords 84 = x.alu0.q := x.tl_unit (i := 4) rfl rfl
  have ho1 : tl x.tsbWords 86 = x.alu1.o2 := x.tl_unit (i := 6) rfl rfl
  have hq1 : tl x.tsbWords 88 = x.alu1.q := x.tl_unit (i := 8) rfl rfl
  obtain ⟨-, hflg0, -⟩ := x.fields_flags0
  obtain ⟨-, hflg1⟩ := x.fields_flags1
  generalize x.tsbWords = l at *
  exact ⟨ho0, hq0, ofNat_toNat_of hflg0, ho1, hq1, ofNat_toNat_of hflg1⟩

theorem Engine.restoreFrom_shf : let y := x.restoreFrom x.tsbWords
    y.shf.o2 = x.shf.o2 ∧ y.shf.q = x.shf.q := by
  have ho : tw x.tsbWords 90 = x.shf.o2.toNat := x.tw_unit (i := 10) rfl
  have hq : tl x.tsbWords 91 = x.shf.q := x.tl_unit (i := 11) rfl rfl
  generalize x.tsbWords = l at *
  exact ⟨ofNat_toNat_of ho, hq⟩

theorem Engine.restoreFrom_lsus : let y := x.restoreFrom x.tsbWords
    y.lsu0.o = x.lsu0.o ∧ y.lsu0.q = x.lsu0.q ∧ y.lsu1.o = x.lsu1.o ∧ y.lsu1.q = x.lsu1.q := by
  have ho0 : tl x.tsbWords 118 = x.lsu0.o := x.tl_unit (i := 38) rfl rfl
  have hq0 : tl x.tsbWords 120 = x.lsu0.q := x.tl_unit (i := 40) rfl rfl
  have ho1 : tl x.tsbWords 126 = x.lsu1.o := x.tl_unit (i := 46) rfl rfl
  have hq1 : tl x.tsbWords 128 = x.lsu1.q := x.tl_unit (i := 48) rfl rfl
  generalize x.tsbWords = l at *
  exact ⟨ho0, hq0, ho1, hq1⟩

theorem Mac.restore_tsb : let y := x.mac.restore x.tsbWords
    y.o = x.mac.o ∧ y.q = x.mac.q ∧ y.acc = x.mac.acc ∧ y.sv = x.mac.sv ∧ y.v = x.mac.v := by
  have ho : tw x.tsbWords 93 = x.mac.o.toNat := x.tw_unit (i := 13) rfl
  have hq : tl x.tsbWords 94 = x.mac.q := x.tl_unit (i := 14) rfl rfl
  have hacc : tf x.tsbWords 96 7 = _ := tf_of (v := x.mac.acc.toNat + 2 ^ 56 * (x.mac.slot 1).1 + 2 ^ 112 * (x.mac.slot 2).1) fun k hk => by
    rw [Nat.add_comm]
    interval_cases k <;> exact x.tw_unit rfl
  obtain ⟨-, -, -, -, -, hv, hsv⟩ := x.fields_string
  generalize x.tsbWords = l at *
  refine ⟨ofNat_toNat_of ho, hq, BitVec.eq_of_toNat_eq ?_, tb_of hsv, tb_of hv⟩
  have hlt := x.mac.acc.isLt
  show (BitVec.ofNat 56 (tf l 96 7)).toNat = _
  rw [hacc, BitVec.toNat_ofNat]
  omega

theorem ofNat_mod_eq_and {w n : Nat} (o : BitVec w) (m : BitVec w) (h : m.toNat = 2 ^ n - 1) : BitVec.ofNat w (o.toNat % 2 ^ n) = o &&& m := by
  refine BitVec.eq_of_toNat_eq ?_
  rw [BitVec.toNat_and, h, Nat.and_two_pow_sub_one_eq_mod, BitVec.toNat_ofNat]
  exact Nat.mod_eq_of_lt (Nat.lt_of_le_of_lt (Nat.mod_le ..) o.isLt)

theorem Chk.restore_tsb (hq : x.chk.q.toNat < 2 ^ 32) : let y := x.chk.restore x.tsbWords
    y.q = x.chk.q ∧ y.crc = x.chk.crc ∧ y.o = x.chk.o &&& 0x1F := by
  obtain ⟨hfq, hfcrc, hfo⟩ := x.fields_chk
  generalize x.tsbWords = l at *
  refine ⟨ofNat_toNat_of (by omega), ofNat_toNat_of hfcrc, ?_⟩
  show BitVec.ofNat 24 (bits (tf l 103 5) 106 5) = _
  rw [hfo]
  exact ofNat_mod_eq_and (n := 5) _ 0x1F rfl

theorem Div_.restore_tsb : let y := x.div.restore x.tsbWords
    y.o = x.div.o ∧ y.q = x.div.q ∧ y.r = x.div.r ∧ y.sdz = x.div.sdz ∧ y.v = x.div.v ∧ y.dz = x.div.dz := by
  have ho : tl x.tsbWords 108 = x.div.o := x.tl_unit (i := 28) rfl rfl
  have hq : tl x.tsbWords 110 = x.div.q := x.tl_unit (i := 30) rfl rfl
  have hr : tl x.tsbWords 112 = x.div.r := x.tl_unit (i := 32) rfl rfl
  obtain ⟨-, -, hdz, hv, hsdz⟩ := x.fields_flags0
  generalize x.tsbWords = l at *
  exact ⟨ho, hq, hr, tb_of hsdz, tb_of hv, tb_of hdz⟩

theorem Ctl.restore_tsb (hguard : x.ctl.guards.getLsbD 0 = true) : let y := x.ctl.restore x.tsbWords
    y.o = x.ctl.o ∧ y.link = x.ctl.link ∧ y.pc = x.ctl.pc ∧ y.guards = x.ctl.guards ∧ y.mode = x.ctl.mode := by
  have ho : tl x.tsbWords 80 = x.ctl.o := x.tl_unit (i := 0) rfl rfl
  obtain ⟨-, -, hlink⟩ := x.fields_level
  have hpc := x.field_pc
  have hguards := x.field_guards
  obtain ⟨-, hmode⟩ := x.fields_mode
  have hodd : x.ctl.guards.toNat % 2 = 1 := by simpa [BitVec.getLsbD, Nat.testBit_zero] using hguard
  generalize x.tsbWords = l at *
  exact ⟨ho, ofNat_toNat_of hlink, ofNat_toNat_of hpc, ofNat_toNat_of (by omega), ofNat_toNat_of hmode⟩

theorem Rpt.restore_tsb : x.rpt.restore x.tsbWords = x.rpt := by
  have hc0 : tw x.tsbWords 146 = x.rpt.c0.toNat := x.tw_unit (i := 66) rfl
  have hc1 : tw x.tsbWords 147 = x.rpt.c1.toNat := x.tw_unit (i := 67) rfl
  obtain ⟨hn, ho, -⟩ := x.fields_level
  obtain ⟨hs0, he0, hw0, hw1⟩ := x.fields_outer
  obtain ⟨hs1, he1⟩ := x.fields_inner
  generalize x.tsbWords = l at *
  simp only [Rpt.restore, hn, if_pos x.rpt.n.isLt, ho, hc0, hs0, he0, tb_of hw0, hc1, hs1, he1, tb_of hw1, BitVec.ofNat_toNat, BitVec.setWidth_eq]
  have hlevel : Fin.ofNat 3 x.rpt.n.val = x.rpt.n := Fin.ofNat_val_eq_self _
  rw [hlevel]

theorem Smv.restore_tsb (hn : x.smv.n ≠ 0 ∨ x.smv.act = false) (hhit : x.smv.hit = x.smv.q.getLsbD 15) (hq : x.smv.q.toNat < 2 ^ 16) :
    let y := x.smv.restore x.tsbWords
    y.q = x.smv.q ∧ y.src = x.smv.src ∧ y.dst = x.smv.dst ∧ y.n = x.smv.n ∧ y.pat = x.smv.pat ∧ y.act = x.smv.act ∧ y.op = x.smv.op ∧ y.ne = x.smv.ne ∧
    y.down = x.smv.down ∧ y.hit = x.smv.hit := by
  have hpat : tw x.tsbWords 148 = x.smv.pat.toNat := x.tw_unit (i := 68) rfl
  obtain ⟨hsrc, hop, hne, hdown, hact, -, -⟩ := x.fields_string
  obtain ⟨hdst, -⟩ := x.fields_mode
  obtain ⟨hfn, -⟩ := x.fields_flags0
  obtain ⟨hfq, hfhit⟩ := x.fields_count
  generalize x.tsbWords = l at *
  have hact : tb l 154 19 = x.smv.act := tb_of hact
  have hfn : BitVec.ofNat 15 (bits (tw l 156) 0 15) = x.smv.n := ofNat_toNat_of hfn
  have hgoes : ¬(tb l 154 19 && decide (BitVec.ofNat 15 (bits (tw l 156) 0 15) = 0)) = true := by
    rw [hact, hfn, Bool.and_eq_true, decide_eq_true_eq]
    rintro ⟨hruns, hzero⟩
    obtain hn | hn := hn
    · exact hn hzero
    · rw [hn] at hruns
      exact absurd hruns (by decide)
  have hop : Fin.ofNat 4 (bits (tw l 154) 15 2) = x.smv.op := by rw [hop, Fin.ofNat_val_eq_self]
  have hhit : tb l 157 15 = x.smv.hit := tb_of (by
    rw [hfhit, hhit, BitVec.getLsbD, Nat.testBit_eq_decide_div_mod_eq]
    obtain h | h := Nat.mod_two_eq_zero_or_one (x.smv.q.toNat / 2 ^ 15) <;> rw [h] <;> rfl)
  simp only [Smv.restore, if_neg hgoes]
  exact ⟨ofNat_toNat_of (by omega), ofNat_toNat_of hsrc, ofNat_toNat_of hdst, hfn, ofNat_toNat_of hpat, hact, hop, tb_of hne, tb_of hdown, hhit⟩

theorem Tsu.restore_tsb : let y := x.tsu.restore x.tsbWords
    y.q = x.tsu.q ∧ y.epl = x.tsu.epl := by
  have hq : tl x.tsbWords 140 = x.tsu.q := x.tl_unit (i := 60) rfl rfl
  have hlow : tw x.tsbWords 158 = x.tsu.epl.toNat % 2 ^ 24 := x.tw_state 9
  obtain ⟨hhigh, -⟩ := x.fields_flags1
  generalize x.tsbWords = l at *
  exact ⟨hq, ofNat_toNat_of (by omega)⟩

/-- The eleven bits of SPU.O that operations use. -/
theorem spuBits_eq (o : W24) : BitVec.ofNat 24 (o.toNat % 1024 + 2 ^ 23 * (o.toNat / 2 ^ 23)) = o &&& 0x8003FF := by
  refine BitVec.eq_of_toNat_eq (Nat.eq_of_testBit_eq fun j => ?_)
  have ho := o.isLt
  rw [BitVec.toNat_ofNat, Nat.mod_eq_of_lt (by omega), BitVec.toNat_and, Nat.testBit_and, Nat.add_comm,
    Nat.testBit_two_pow_mul_add _ (by omega), show (0x8003FF : W24).toNat = 2 ^ 23 * 1 + (2 ^ 10 - 1) from rfl, Nat.testBit_two_pow_mul_add _ (by decide)]
  split
  case isTrue hj => rw [show 1024 = 2 ^ 10 from rfl, Nat.testBit_mod_two_pow, Nat.testBit_two_pow_sub_one, Bool.and_comm]
  case isFalse hj =>
    rw [Nat.testBit_div_two_pow, Nat.sub_add_cancel (by omega)]
    obtain rfl | hj := Nat.eq_or_lt_of_le (Nat.le_of_not_lt hj)
    · exact (Bool.and_true _).symm
    · rw [Nat.testBit_eq_false_of_lt (Nat.lt_of_lt_of_le ho (Nat.pow_le_pow_right (by decide) hj)), Bool.false_and]

theorem Spu.restore_tsb (hq : x.spu.q = 0xFFFFFF ∨ x.spu.q.toNat < 2 ^ 17) : let y := x.spu.restore x.tsbWords
    y.q = x.spu.q ∧ y.o = x.spu.o &&& 0x8003FF := by
  obtain ⟨hlow, hnone, ho, hbit⟩ := x.fields_spu
  generalize x.tsbWords = l at *
  refine ⟨?_, ?_⟩
  · show (if bits (tf l 144 2) 17 1 = 1 then (0xFFFFFF : W24) else BitVec.ofNat 24 (bits (tf l 144 2) 0 17)) = _
    by_cases hempty : x.spu.q = 0xFFFFFF
    · rw [hnone, if_pos hempty, if_pos (by decide), hempty]
    · have hlt := hq.resolve_left hempty
      rw [hnone, hlow, if_neg hempty, if_neg (by omega)]
      exact ofNat_toNat_of (by omega)
  · show BitVec.ofNat 24 (bits (tf l 144 2) 18 10 + 2 ^ 23 * bits (tf l 144 2) 28 1) = _
    rw [ho, hbit, spuBits_eq]

end Sys2Proof.Machine
end

section
/-! Rows of a task-state block, and the fetch that starts the task's bundles (12 R259, R270, 18 R396, 08 R162, R174). -/

namespace Sys2Proof.Machine

variable {s : State} {e : Nat}

/-! Where a block lies. -/

theorem pmem_row {p o : Nat} (hp : p < 32) (ho : o < 1179648) (hrow : o % 6 = 0) :
    memKind (pmemBase + (p * 0x200000 + o)) ≠ .staging ∧ memRow (pmemBase + (p * 0x200000 + o)) = (pmemBase + (p * 0x200000 + o), 6) := by
  have hoffset : (p * 0x200000 + o) % 0x200000 = o := by omega
  have hkind : memKind (pmemBase + (p * 0x200000 + o)) = .pmem := by
    have hstaging : stagingBase = 0x100000000 := rfl
    have hpmem : pmemBase = 0x200000000 := rfl
    have hmsram : msramBase = 0x100000 := rfl
    simp only [memKind, hstaging, hpmem, hmsram, Bool.and_eq_true, decide_eq_true_eq]
    rw [if_neg (by omega), if_neg (by omega), if_neg (by omega), if_pos (by omega), Nat.add_sub_cancel_left, hoffset, if_pos ho]
  refine ⟨by rw [hkind]; decide, ?_⟩
  rw [memRow, hkind]
  dsimp only
  rw [Nat.add_sub_cancel_left, hoffset, hrow, Nat.sub_zero]

theorem msram_row {o : Nat} (ho : o < 786432) (hrow : o % 6 = 0) :
    memKind (msramBase + o) ≠ .staging ∧ memRow (msramBase + o) = (msramBase + o, 6) := by
  have hkind : memKind (msramBase + o) = .msram := by
    have hmsram : msramBase = 0x100000 := rfl
    simp only [memKind, hmsram, Bool.and_eq_true, decide_eq_true_eq]
    rw [if_neg (by omega), if_pos (by omega)]
  refine ⟨by rw [hkind]; decide, ?_⟩
  rw [memRow, hkind]
  dsimp only
  rw [Nat.add_sub_cancel_left, Nat.div_mul_cancel (Nat.dvd_of_mod_eq_zero hrow)]

/-- A block takes 80 rows of six bytes from its home on, outside the staging store. -/
theorem Engine.tsbHome_rows {x : Engine} {a i : Nat} (hhome : x.tsbHome e = some a) (hi : i < 80) :
    memKind (a + 6 * i) ≠ .staging ∧ memRow (a + 6 * i) = (a + 6 * i, 6) := by
  unfold Engine.tsbHome at hhome
  dsimp only at hhome
  split at hhome
  case isTrue he =>
    split at hhome
    case isFalse => exact absurd hhome (by simp)
    case isTrue hfits =>
      have haddr : a + 6 * i = pmemBase + (e / 32 * 0x200000 + (6 * x.ctl.tsp.toNat + 6 * i)) := by
        rw [← Option.some.inj hhome, pmemAddr]
        omega
      rw [haddr]
      exact pmem_row (by omega) (by omega) (by omega)
  case isFalse he =>
    split at hhome
    case isFalse => exact absurd hhome (by simp)
    case isTrue hfits =>
      have haddr : a + 6 * i = msramBase + (6 * x.ctl.tsp.toNat + 6 * i) := by
        rw [← Option.some.inj hhome]
        omega
      rw [haddr]
      exact msram_row (by omega) (by omega)

/-- Sound bytes of whole rows of six are read as they stand. -/
theorem State.readRows_sixes {k : Nat} : ∀ {a : Nat}, (∀ i < k, memKind (a + 6 * i) ≠ .staging ∧ memRow (a + 6 * i) = (a + 6 * i, 6)) →
    s.mem.sound a (6 * k) = true → s.readRows a (6 * k) (k + 1) = (s, some (s.mem.bytes a (6 * k))) := by
  induction k with
  | zero => exact fun _ _ => rfl
  | succ k ih =>
    intro a hrows hsound
    obtain ⟨hkind, hrow⟩ := hrows 0 (by omega)
    have hparts : 6 * (k + 1) = 6 + 6 * k := by omega
    rw [hparts] at hsound ⊢
    obtain ⟨hfirst, hrest⟩ := Memory.sound_parts hsound
    have hread : s.readMem a 6 = _ := State.readMem_bytes hkind hfirst
    have hnext : ∀ i < k, memKind (a + 6 + 6 * i) ≠ .staging ∧ memRow (a + 6 + 6 * i) = (a + 6 + 6 * i, 6) := fun i hi => by
      rw [Nat.add_assoc, Nat.add_comm 6, ← Nat.mul_succ]
      exact hrows (i + 1) (by omega)
    have hrow : memRow a = (a, 6) := hrow
    rw [State.readRows, if_neg (by omega), hrow]
    dsimp only
    rw [show min (6 + 6 * k) (a + 6 - a) = 6 by omega, hread, Nat.add_sub_cancel_left]
    dsimp only
    rw [ih hnext hrest, Memory.bytes_parts]

/-- A word of a block that was read. -/
theorem tw_natWords (m : Memory) (a : Nat) {i : Nat} (hi : i < 160) : tw (natWords (m.bytes a 480)) i = leNat (m.bytes (a + 3 * i) 3) := by
  rw [natWords, tw_map_range _ hi]
  refine congrArg leNat (List.map_congr_left fun k hk => ?_)
  have hlt : 3 * i + k < 480 := by have := List.mem_range.1 hk; omega
  simp [Memory.bytes, hlt, Nat.add_assoc]

/-! The banks of PMEM. -/

/-- Banks that have served an engine last. -/
theorem State.bankServed_served (s : State) (e : Nat) (l : List Nat) : let p := (s.bankServed e l).pod (e / 32)
    p = { s.pod (e / 32) with served := p.served } ∧ ∀ b ∈ l, p.served.find b = some (e % 32) := by
  intro p
  have hp : p = { s.pod (e / 32) with served := l.foldl (fun t b => t.set b (e % 32)) (s.pod (e / 32)).served } := State.pod_setPod ..
  rw [hp]
  exact ⟨rfl, fun b hb => Tab.find_foldl_set _ (.inl hb)⟩

theorem State.rowsServed_banks (s : State) (e : Nat) : s.banksServed (s.rowsServed e) e := by
  unfold State.rowsServed
  split
  case isTrue he =>
    obtain ⟨hpod, hbanks⟩ := s.bankServed_served e (List.range 16)
    exact ⟨fun j _ hj => s.pod_setPod_ne _ hj, fun h => absurd he (by omega), fun _ => ⟨hpod, fun b hb => hbanks b (List.mem_range.2 hb)⟩⟩
  case isFalse he => exact ⟨fun _ _ _ => rfl, fun _ => rfl, fun h => absurd h he⟩

@[simp] theorem State.rowsServed_engine (s : State) (e j : Nat) : (s.rowsServed e).engine j = s.engine j := by
  unfold State.rowsServed
  split <;> rfl

/-! The first bundle. -/

/-- The fetch of an engine that fetches quietly fills its prefetch queue alone. -/
theorem State.fetchFirst_quiet (h : s.fetchesQuietly e) {x : Engine} (hx : x.fbase = (s.engine e).fbase) :
    ∃ q, (s.setEngine e x).fetchFirst e = s.setEngine e { x with pfq := q, pfBad := none } := by
  have hquiet := h { x with pfq := [], pfBad := none } x.ctl.pc.toNat hx x.ctl.pc.isLt
  unfold State.fetchFirst
  dsimp only
  rw [State.engine_setEngine, State.setEngine_setEngine]
  split
  case h_1 s1 b hfetch =>
    rw [hfetch] at hquiet
    obtain rfl : s1 = _ := hquiet
    exact ⟨[(x.ctl.pc.toNat, b)], by rw [State.engine_setEngine, State.setEngine_setEngine]⟩
  case h_2 s1 hfetch =>
    rw [hfetch] at hquiet
    exact ⟨[], hquiet⟩

end Sys2Proof.Machine
end

section
/-! TSB_RESTORE (12 R260, R263, R270, R273). -/

namespace Sys2Proof.Machine

variable {s : State} {e : Nat}

theorem Engine.settled_meet {x : Engine} (h : x.settled = true) : x.smv.meet = [] := by
  simp only [Engine.settled, Engine.hardFrozen, Bool.and_eq_true, Bool.not_eq_true', Bool.or_eq_false_iff, Bool.not_eq_false'] at h
  obtain ⟨⟨-, -, hmeet⟩, -⟩ := h
  simpa using hmeet

theorem State.passMeet_settled (h : (s.engine e).settled = true) : s.passMeet e = s := by
  simp [State.passMeet, Engine.settled_meet h]

variable (hruns : s.engRuns e = true) (hreturns : (s.engine e).exc.restore = true) (hsettled : (s.engine e).settled = true)
include hruns hreturns hsettled

/-- A block that is read without a memory error is what the engine goes on from. -/
theorem State.restoreTask_block {a : Nat} (hquiet : (s.rowsServed e).fetchesQuietly e) (hhome : (s.engine e).tsbHome e = some a)
    (hsound : s.mem.sound a 480 = true) : ∃ q, s.restoreTask e =
      (s.rowsServed e).setEngine e { (s.engine e).restoreFrom (natWords (s.mem.bytes a 480)) with pfq := q, pfBad := none } := by
  have hread : s.readRows a 480 81 = _ := State.readRows_sixes (k := 80) (fun i hi => Engine.tsbHome_rows hhome hi) hsound
  unfold State.restoreTask
  dsimp only
  rw [State.passMeet_settled hsettled, if_pos (by rw [hruns, hreturns, hsettled]; rfl), hhome]
  dsimp only
  rw [hread]
  dsimp only
  rw [State.rowsServed_engine]
  exact State.fetchFirst_quiet hquiet (by rw [State.rowsServed_engine]; rfl)

/-- Without a home for the block the engine halts. -/
theorem State.restoreTask_homeless (hhome : (s.engine e).tsbHome e = none) : s.restoreTask e = s.halt e 3 := by
  unfold State.restoreTask
  dsimp only
  rw [State.passMeet_settled hsettled, if_pos (by rw [hruns, hreturns, hsettled]; rfl), hhome]

omit hruns hreturns hsettled

/-- An engine of a pod that halts in state 3: its doorbell holds its CAUSE. -/
theorem State.halt_tsb (he : e < 1024) : SameBut [.eng, .pst] s (s.halt e 3) ∧ ((s.halt e 3).engine e).exc.st = 3 ∧
    ((s.halt e 3).engine e).held = (s.engine e).held ∧ ((s.halt e 3).door e).msg = BitVec.ofNat 24 (3 * 2 ^ 22 + (s.engine e).ctl.cause.toNat) := by
  obtain ⟨x, hhalt, hheld, hst⟩ : ∃ x : Engine, s.halt e 3 = (s.setEngine e x).ring e (BitVec.ofNat 24 (3 * 2 ^ 22 + (s.engine e).ctl.cause.toNat)) ∧
      x.held = (s.engine e).held ∧ x.exc.st = 3 := by
    unfold State.halt
    rw [if_neg (by simp [he])]
    exact ⟨_, rfl, rfl, rfl⟩
  rw [hhalt]
  have hengine : (((s.setEngine e x).ring e (BitVec.ofNat 24 (3 * 2 ^ 22 + (s.engine e).ctl.cause.toNat))).engine e) = x := by
    rw [State.ring, if_pos he]
    exact s.engine_setEngine e x
  refine ⟨((s.setEngine_does ..).weaken rfl |>.step (State.ring_does ..) rfl : Does [.eng, .pst] s _).same, ?_, ?_, ?_⟩
  · rw [hengine, hst]
  · rw [hengine, hheld]
  · rw [State.ring, if_pos he, State.door, Tab.get_set_self]

/-- The lowest bits of a field. -/
theorem ofNat_bits (n v k : Nat) : BitVec.ofNat n (bits v k n) = BitVec.ofNat n (v / 2 ^ k) := by
  refine BitVec.eq_of_toNat_eq ?_
  rw [bits, BitVec.toNat_ofNat, BitVec.toNat_ofNat, Nat.mod_mod]

/-- Settles O32: the block's rows are read as they stand, and its words and fields, each taken from where it was put, give what the engine held. -/
theorem taskStateRestored : Obligations.TaskStateRestored := by
  unfold Obligations.TaskStateRestored
  refine ⟨fun s e hruns hreturns hsettled hquiet => ⟨fun a hhome hsound => ?block, fun hhome he => ?homeless⟩,
    fun x hguard hspu hn hhit hsmv hchk => ?task⟩
  case block =>
    obtain ⟨q, hrestored⟩ := State.restoreTask_block hruns hreturns hsettled hquiet hhome hsound
    refine ⟨_, congrArg Host.Outcome.next hrestored, ((s.rowsServed_does e.val).weaken rfl |>.step (State.setEngine_does ..) rfl : Does _ s _).same,
      fun j hj => by rw [State.engine_setEngine_ne _ _ hj, State.rowsServed_engine], s.rowsServed_banks e.val, ?_⟩
    rw [State.engine_setEngine]
    have hword {i : Nat} (hi : i < 160) := tw_natWords s.mem a hi
    obtain ⟨hregs, hlongs⟩ := (s.engine e.val).restoreFrom_regs (natWords (s.mem.bytes a 480))
    generalize natWords (s.mem.bytes a 480) = l at *
    refine ⟨rfl, rfl, rfl, ?pc, ?mode, ?link, fun i hi => ?words, fun i hi => ?longs⟩
    case pc => exact (ofNat_bits 11 _ 0).trans (by rw [hword (by decide), Nat.pow_zero, Nat.div_one])
    case mode => exact (ofNat_bits 4 _ 15).trans (by rw [hword (by decide)])
    case link => exact (ofNat_bits 11 _ 0).trans (by rw [hword (by decide), Nat.pow_zero, Nat.div_one])
    case words =>
      obtain ⟨hga, hgb⟩ := hregs i hi
      exact ⟨hga.trans (by rw [hword (by omega)]), hgb.trans (by rw [hword (by omega)])⟩
    case longs => exact (hlongs i hi).trans (by rw [tl, Nat.add_right_comm, hword (by omega), hword (by omega)])
  case homeless =>
    obtain ⟨hsame, hst, hheld, hmsg⟩ := State.halt_tsb (s := s) he
    refine ⟨s.halt e.val 3, congrArg Host.Outcome.next (State.restoreTask_homeless hruns hreturns hsettled hhome), hsame, hst, hheld, hmsg⟩
  case task =>
    obtain ⟨hregs, hlongs⟩ := x.restoreFrom_regs x.tsbWords
    have hga {i : Nat} (hi : i < 32) : BitVec.ofNat 24 (tw x.tsbWords i) = x.ga.get 0 i := ofNat_toNat_of (x.tsbRegs_ga hi)
    have hgb {i : Nat} (hi : i < 32) : BitVec.ofNat 24 (tw x.tsbWords (32 + i)) = x.gb.get 0 i := ofNat_toNat_of (x.tsbRegs_gb hi)
    have hlx {i : Nat} (hi : i < 8) := x.tsbRegs_lx hi
    obtain ⟨ha0o, ha0q, ha0f, ha1o, ha1q, ha1f⟩ := x.restoreFrom_alus
    obtain ⟨hso, hsq⟩ := x.restoreFrom_shf
    obtain ⟨hl0o, hl0q, hl1o, hl1q⟩ := x.restoreFrom_lsus
    obtain ⟨hmo, hmq, hacc, hsv, hmv⟩ := Mac.restore_tsb x
    obtain ⟨hcq, hcrc, hco⟩ := Chk.restore_tsb x hchk
    obtain ⟨hdo, hdq, hdr, hsdz, hdv, hdz⟩ := Div_.restore_tsb x
    obtain ⟨hto, hlink, hpc, hguards, hmode⟩ := Ctl.restore_tsb x hguard
    have hrpt := Rpt.restore_tsb x
    obtain ⟨hq, hsrc, hdst, hcount, hpat, hact, hop, hne, hdown, hhit⟩ := Smv.restore_tsb x hn hhit hsmv
    obtain ⟨htq, hepl⟩ := Tsu.restore_tsb x
    obtain ⟨hpq, hpo⟩ := Spu.restore_tsb x hspu
    generalize x.tsbWords = l at *
    exact ⟨fun i hi => ⟨(hregs i hi).1.trans (hga hi), (hregs i hi).2.trans (hgb hi)⟩, fun i hi => (hlongs i hi).trans (hlx hi), ha0o, ha0q, ha0f, ha1o, ha1q,
      ha1f, hso, hsq, hmo, hmq, hacc, hsv, hmv, hcq, hcrc, hco, hdo, hdq, hdr, hsdz, hdv, hdz, hl0o, hl0q, hl1o, hl1q, hto, hlink, hpc, hguards, hmode, hrpt,
      hq, hsrc, hdst, hcount, hpat, hact, hop, hne, hdown, hhit, htq, hepl, hpq, hpo⟩

end Sys2Proof.Machine
end
